-- ==== Sys2Proof/Word.lean ====
section
/-! DEFINITION. The byte, the byte string and the memory of the part: the three types every other file is written over. -/

namespace Sys2Proof

/-- One byte, as it stands on a line or in the external DRAM. -/
abbrev Byte := BitVec 8

/-- A run of bytes in the order they are sent or stored. -/
abbrev Bytes := List Byte

/-- The external DRAM: addresses strictly rising, no listed byte equal to 0 (what an unlisted address reads as). -/
abbrev Mem := List Host.Cell

end Sys2Proof
end

