-- ==== Sys2Proof/Config.lean ====
section
/-! DEFINITION. What the data manual fixes once for the part (sizes, limits, region offsets, time limits), and the two
values it leaves open (the free values `absentCallTag` and `absentCalleeN`). -/

namespace Sys2Proof.Config

/-! ### external memory (R187) -/

def bankABase : Nat := 0x000000
def bankBBase : Nat := 0x100000
def bankSize : Nat := 0x100000
def journalBase : Nat := 0x200000
def journalSize : Nat := 0x100000
def poolBase : Nat := 0x300000
def labelBase : Nat := 0x3C0000
def labelSize : Nat := 0x030000
def guestBase : Nat := 0x3F0000
def mapBase : Nat := 0x3F2000
def mapSize : Nat := 0x001000
def headerBase : Nat := 0x3F3000
/-- The external DRAM holds 4 MiB (R187). -/
def dramSize : Nat := 0x400000

def bankSlots : Nat := 32768
def entryBytes : Nat := 32
def recordBytes : Nat := 64
def bufferBytes : Nat := 2048
def labelBytes : Nat := 48
def guestBytes : Nat := 32

/-! ### counts and limits -/

/-- Every event counter stops here (R18, R36, R53, R70, R93, R117, R132, R153, R164, R186, R197). -/
def counterMax : Nat := 65535
/-- The gap count that frees the branch line, in bit times (R2). -/
def releaseGap : Nat := 32
/-- The turn gap, in bit times (R3). -/
def turnGap : Nat := 16
/-- Buffers of the pool (R66). -/
def poolSize : Nat := 384
/-- Free buffers held for CONTROL (R67). -/
def controlReserve : Nat := 8
def guestLimit : Nat := 192
def relayLimit : Nat := 32
/-- Receive FIFO and transmit staging area (R6, R14). -/
def fifoSize : Nat := 64
/-- The supply threshold level in use until the configuration block passes, and in CONFIG FAULT (R193). -/
def firstThreshold : Nat := 15
/-- One DRAM burst (R187). -/
def burst : Nat := 32
/-- Collisions after which the next one drops a frame (R7). -/
def maxCollisions : Nat := 3
/-- Open calls and deferred calls (R20, R22). -/
def callSlots : Nat := 4
def pullMax : Nat := 64
def pullPerData : Nat := 15
def fetchMax : Nat := 336
def fetchPerData : Nat := 42
def maxPayload : Nat := 1024
def maxPresenceBody : Nat := 64
def maxLinkBody : Nat := 2048
/-- Item codes run from 1 to this (R71). -/
def itemMax : Nat := 99999999999999
def priceMax : Nat := 9999999
def packMax : Nat := 99999
/-- The greatest line amount (R75). -/
def amountMax : Nat := 99999999
/-- The greatest running total, tender total and tender (R110 to R112). -/
def totalMax : Nat := 999999999
def lineMax : Nat := 500
def tallyMax : Nat := 16
/-- The greatest value a label shows (R78). -/
def labelValueMax : Nat := 999999
def countMax : Nat := 4096
def ringSlots : Nat := 16384
/-- Occupied slots from which the journal is high (R119). -/
def journalHigh : Nat := 15360
/-- Next sequence can rise no higher (R122). -/
def sequenceMax : Nat := 4294967295
def busySlots : Nat := 4
def labelSlots : Nat := 4096
def labelIdMax : Nat := 16777214
def orderWindow : Nat := 8
def attemptsMax : Nat := 5
def guestSlots : Nat := 256
def guestTokens : Nat := 1536
def guestPacketMax : Nat := 1536
/-- The packet header: length, destination, source (chapter 12). -/
def packetHeader : Nat := 10
def blockRecords : Nat := 16
def blockWindow : Nat := 4
/-- Rows of one refresh round (R191). -/
def refreshRows : Nat := 4096
/-- Passed-over count at which a requester is promoted (R190). -/
def starvation : Nat := 16

/-- FREE VALUE. The call tag an ANSWER carries when the CALL it answers was too short to hold one: R22 gives such a CALL
the verdict REFUSE UNKNOWN KIND and chapter 12 gives the ANSWER a call tag byte, and neither states that byte.
It is applied to the payload that was received; nothing constrains it (assumption 10). -/
opaque absentCallTag : Bytes → Byte

/-- FREE VALUE. The callee's N that the END of a PRICE FETCH carries when the callee no longer holds the generation asked for:
R24 and R35 give the END and its fields, and no rule states N then. It is applied to that generation; nothing
constrains it (assumption 52). -/
opaque absentCalleeN : Nat → Nat

end Sys2Proof.Config
end

