-- ==== Sys2Proof/Syntax.lean ====
section
/-! DEFINITION. The commands of the part: one constructor for each row of spec/opcode_table.json. A row of the table names an
event; its operands are what the outside world supplies with it (the line it happens on, the bytes a line or a memory
delivered, the till port, the call tag whose timer ran out). Everything else a step needs stands in State. -/

namespace Sys2Proof

/-- The four synchronous lines (R12). -/
inductive Line where
  | branch | trunk | label | guest
  deriving DecidableEq, Repr

/-- The three synchronous lines that have no contention (R12). -/
inductive Link where
  | trunk | label | guest
  deriving DecidableEq, Repr

/-- The four transmit classes of the branch line, values 0 to 3 (chapter 00, "class"). -/
inductive Cls where
  | control | till | price | guest
  deriving DecidableEq, Repr

/-- A till port, 0 to 7. -/
abbrev PortNo := Fin 8

/-- A station number, 0 to 15. -/
abbrev StationNo := Fin 16

/-- One command: one row of spec/opcode_table.json. The bits of a frame are given as the line carries them, in the parts of its
layout: on the branch line start bit and header, on every line opening flag, body, closing flag. An event brings the bits
read since the event before; a part that came before it is empty. -/
inductive Instr where
  -- branch line signalling and framing
  | releaseGap
  | contentionLost
  | contentionWon
  | frameSent
  | collision
  | transmitUnderrun
  | turnExpiry
  /-- A frame marked aborted: the bits read, up to the one that marks it. -/
  | frameAbort (line : Line) (bits : List Bool)
  /-- The closing flag of another's frame. -/
  | frameReceived (line : Line) (start header opening body closing : List Bool)
  | receiveFifoOverrun (line : Line)
  /-- What has come of another's frame up to its kind byte, before or beyond it. -/
  | kindByteReceived (line : Line) (start header opening body : List Bool)
  /-- The looped line: start bit and header, then the rest through the closing flag. -/
  | loopTestResult (front frame : List Bool)
  | loopTestTimeout
  | linkFrameSent (link : Link)
  | linkUnderrun (link : Link)
  | unknownKind
  -- calls between stations
  | callReceived
  | answerReceived
  | recallAnswerReceived
  | dataReceived
  | receiptReceived
  | endReceived
  | recallReceived
  | recallTimerExpiry (callTag : Byte)
  | deferredLifetimeExpiry (recallTag : Byte)
  | deferredRecallRetry (recallTag : Byte)
  -- starting and joining
  | supplyGood
  /-- The 256 bytes the configuration memory gave. -/
  | configReadDone (block : Bytes)
  | headerReadDone
  | journalScanStop
  | journalScanComplete
  | listenTimerExpiry
  | presenceTimerTick
  | presenceReceived
  | peerSilenceExpiry (station : StationNo)
  | clockTick
  -- forwarding
  | datagramReceived
  | packetReceived
  -- pricing
  | priceHeadReceived
  | pricePartReceived
  | priceEndReceived
  | receivePauseExpiry
  | recountPassDone
  | fetchTimerTick
  | fetchDataTaken
  | activationTrigger
  | mergeWalkEnd
  | headerWriteDone
  | labelNotCurrent
  | labelCurrent
  | holdSweep
  -- till ports
  /-- The characters read between STX and ETX, escapes still in them. -/
  | tillFrameReceived (port : PortNo) (chars : Bytes)
  | framingError (port : PortNo)
  | lineBreak (port : PortNo)
  | lineDown (port : PortNo)
  | silenceTimerExpiry (port : PortNo)
  | graceTimerExpiry (port : PortNo)
  | replySent (port : PortNo)
  | lookup (port : PortNo)
  | openSale (port : PortNo)
  | saleLine (port : PortNo)
  | voidLine (port : PortNo)
  | tender (port : PortNo)
  | closeSale (port : PortNo)
  | abandonSale (port : PortNo)
  | status (port : PortNo)
  | bind (port : PortNo)
  | unbind (port : PortNo)
  | labelQuery (port : PortNo)
  | labelRetry (port : PortNo)
  -- journal
  | appendCommitted
  | releaseReceived
  -- shelf labels
  | headStatusReceived
  | labelFrameUnknown
  | labelReportReceived
  | labelNoticeReceived
  | headTimerExpiry
  | orderTimerTick
  | reportTimerExpiry (orderTag : Byte)
  | retryTimerTick
  | countPassDone
  | labelWalkEntry
  | warmWalkPassDone
  -- guests
  | guestUpReceived
  | radioStatusReceived
  | guestFrameUnknown
  | radioTimerExpiry
  | meterTick
  -- night exchange
  | trunkCarrierUp
  | trunkCarrierLoss
  | trunkFrameUnknown
  | exchangeUnexpected
  | trunkClaimReceived
  | sessionTimerTick
  | welcomeReceived
  | logonTimerExpiry
  | ownRecordRead
  | ownReadRetry
  | pullDataTaken
  | pullRetryTimer
  | blockAckReceived
  | ackTimerExpiry
  | fileHeadReceived
  | filePartReceived
  | fileEndReceived
  | downloadTimerExpiry
  -- memory, supply and reset
  | dramBurstDone
  | refreshDue
  /-- The supply-sense input has stood below the threshold in use for 20 µs. -/
  | supplyLow
  | resetAssert
  | resetRelease
  -- line reception details
  | sevenRecessiveBitsRead
  | droppedAsLong (port : PortNo)
  /-- `stx`: whether STX (which opens a new frame) or ETX followed the DLE. -/
  | badEscape (port : PortNo) (stx : Bool)
  | lineHighForOneBitTime (port : PortNo)
  deriving DecidableEq, Repr

end Sys2Proof
end

