-- ==== Sys2Proof/WellFormed.lean ====
section
/-! DEFINITION. Which commands can occur: the bounds the data manual sets on what a line or the configuration memory delivers.
A command outside them is no event of the part; `exec` is still total on it. -/

namespace Sys2Proof

/-- The bits of a flag (R12). -/
def flag : List Bool := [false, true, true, true, true, true, true, false]

/-- The front of a frame (R1, R5): on the branch line the dominant start bit and six header bits, what of them has not come
before; nothing on the links. -/
def frontOk (line : Line) (start header : List Bool) : Bool :=
  if line = .branch then (decide (start = []) || decide (start = [false])) && decide (header.length ≤ 6)
  else start.isEmpty && header.isEmpty

/-- The well-formed commands: a frame's front fits its line, its closing flag ends as a flag does (R12, R13), an abort is read
in bits (R13), the configuration block has 256 bytes (R37), a till frame closed by ETX holds no bare STX or ETX (R95). -/
def Instr.wellFormed : Instr → Bool
  | .kindByteReceived line start header opening body =>
    frontOk line start header && !(start ++ header ++ opening ++ body).isEmpty
  | .frameReceived line start header _ _ closing => frontOk line start header && !closing.isEmpty && decide (closing <:+ flag)
  | .frameAbort _ bits => !bits.isEmpty
  | .loopTestResult front frame => decide (front.length = 7) && decide (flag <+: frame) && decide (flag <:+ frame)
  | .configReadDone block => decide (block.length = 256)
  | .tillFrameReceived _ chars => chars.all fun c => decide (c ≠ 0x02#8) && decide (c ≠ 0x03#8)
  | _ => true

end Sys2Proof
end

