-- ==== Sys2Proof/Machine/State.lean ====
section
/-! DEFINITION. The state of the part as plain data: one structure for each of its blocks, gathered in `Part`, beside the
supply watch, the arbiter of the DRAM port and the queue of commands. `State.reset` is the state right after a start. -/

namespace Sys2Proof.Machine

/-! ### how a step can stop -/

/-- The faults of the part: none. The manual names no event that stops it, so no command ends in a fault (safe: a type
without values cannot hide one). -/
inductive Fault where
  deriving DecidableEq, Repr

/-- The refusals of the model. -/
inductive Refusal where
  /-- A row of the table whose meaning is not written: raised only by an arm of `exec` that says so, and none does (safe). -/
  | notModelled (mnemonic : String)
  deriving DecidableEq, Repr

/-! ### configuration (R37) -/

/-- The exit of a route (R54). -/
inductive Exit where
  | localGuest | trunk | station (n : StationNo) | discard
  deriving DecidableEq, Repr

/-- A static route of the configuration block (R37, R54). -/
structure StaticRoute where
  value : Nat
  len : Nat
  exit : Exit
  deriving DecidableEq, Repr

/-- The fields of a configuration block that has passed (R37). -/
structure ConfigBlock where
  station : StationNo
  zone : Nat
  branchCode : Nat
  fastLine : Bool
  trunkFitted : Bool
  labelFitted : Bool
  guestFitted : Bool
  enableMask : Byte
  supervisorMask : Byte
  guestPrefix : Nat
  gDay : Nat
  gNight : Nat
  nightStart : Nat
  nightLength : Nat
  holdLimit : Nat
  supplyLevel : Nat
  statics : List StaticRoute
  deriving DecidableEq, Repr

/-! ### buffers and queues (chapter 04) -/

/-- The mark of a buffer in use (R68). -/
inductive Mark where
  | plain | guest | relay
  deriving DecidableEq, Repr

/-- A buffer in use: its number, its mark, and the length of the frame it holds (R17, R68). Its bytes stand in the DRAM. -/
structure Buf where
  num : Nat
  mark : Mark
  len : Nat
  deriving DecidableEq, Repr

/-- Who asks for a buffer (R67). -/
inductive User where
  | control | guest | relay | other
  deriving DecidableEq, Repr

/-- The block that queued a branch frame, and what it needs to know the frame by (R6, R10). -/
inductive FrameOwner where
  /-- A PRESENCE; `announcing`: built in ANNOUNCING (R45). -/
  | presence (announcing : Bool)
  /-- A TRUNK CLAIM for a night (R171). -/
  | claim (night : Nat)
  /-- A RELEASE to a station (R181). -/
  | release (station : StationNo)
  /-- A CALL, by call tag (R20). -/
  | call (tag : Byte)
  /-- A RECALL, by recall tag (R29). -/
  | recall (tag : Byte)
  /-- A rebroadcast PRICE frame (R183). -/
  | price
  /-- A DATAGRAM (R61). -/
  | datagram
  deriving DecidableEq, Repr

/-- A frame in a class queue (R7, R10, R63). `withdrawn`: its owner's withdrawal was refused while it was in contention. -/
structure QFrame where
  buf : Buf
  collisions : Nat
  owner : FrameOwner
  withdrawn : Bool
  deriving DecidableEq, Repr

/-- What a frame of the trunk queue is (R64, R166). -/
inductive TrunkFrame where
  | packet | hello | uploadEnd | bye (done : Bool)
  /-- A BLOCK; `first`: its first sending (R179). -/
  | block (first : Bool)
  deriving DecidableEq, Repr

/-- A frame in the trunk queue; `begun`: the framer has begun it (R64). -/
structure TFrame where
  buf : Buf
  what : TrunkFrame
  begun : Bool
  deriving DecidableEq, Repr

/-- A frame in the guest radio queue or the label link queue (R65); `tag` is the order tag of a LABEL ORDER. -/
structure LFrame where
  buf : Buf
  tag : Byte
  begun : Bool
  deriving DecidableEq, Repr

/-- A member of the receive queue (R62): its buffer, its line and, on the branch line, the header it came with. `stale`: a
guest frame that was waiting when the radio went DOWN (R163). -/
structure RxItem where
  buf : Buf
  line : Line
  cls : Cls
  station : StationNo
  stale : Bool
  deriving DecidableEq, Repr

/-- How far the bits of a frame have brought its receiver (R13): still before the end of the opening flag, with the bits read
so far; in the body; past the closing flag; or at an abort. -/
inductive Reached where
  | hunting (n : Nat) | body | closed | aborted
  deriving DecidableEq, Repr

/-- The bit side of a receiver (R13). `ones`: consecutive 1 bits up to the last bit read, 7 standing for seven or more;
`zeroOut`: the last 0 bit read is no body bit, since it was removed or belongs to the opening flag; `bits`: the bits of the byte
being assembled, oldest first; `got`: the bytes assembled, which stand for the CRC register, the byte count and the fields a
receiver holds. The bits of the closing flag are among them until the flag ends (`Deframe.body`). -/
structure Deframe where
  reached : Reached := .hunting 0
  ones : Nat := 7
  zeroOut : Bool := true
  bits : List Bool := []
  got : Bytes := []
  deriving DecidableEq, Repr

/-- A frame being received (R13 to R17). `front`: on the branch line the bits read of its start bit and header; `passed`: it may
still be kept, as the filter of R16 found at its destination byte; `inTurn`: its start bit fell in an open turn gap; `asked`: its
kind byte has come and a buffer, where it needs one, has been asked; `buf`: the buffer granted; `overrun`: a byte of it was lost. -/
structure RxFrame where
  front : List Bool
  frame : Deframe
  passed : Bool
  inTurn : Bool
  asked : Bool
  buf : Option Buf
  overrun : Bool
  deriving DecidableEq, Repr

/-- Bytes of one frame in a receive FIFO (R14): the buffer they go to, once one is granted, and where in it; `whole`: the frame
is complete. -/
structure Chunk where
  buf : Option Buf
  at_ : Nat
  bytes : Bytes
  whole : Bool
  deriving DecidableEq, Repr

/-- The counters every framer keeps (R18). -/
structure LineCounters where
  sent : Nat := 0
  kept : Nat := 0
  crc : Nat := 0
  residue : Nat := 0
  long : Nat := 0
  aborted : Nat := 0
  overrun : Nat := 0
  noBuffer : Nat := 0
  underruns : Nat := 0
  deriving DecidableEq, Repr

/-- The receiving half of a framer (R13, R14), and its counters. `draining`: a burst that empties the FIFO is asked or has
the port. -/
structure Framer where
  rx : Option RxFrame := none
  fifo : List Chunk := []
  draining : Bool := false
  ctr : LineCounters := {}
  deriving DecidableEq, Repr

/-- What a transmitter drives when the bits it holds are driven (R6, R12): nothing yet (the header is out and the contention
not decided), the next body byte, nothing more (the closing flag is out), or another flag. -/
inductive ShiftStage where
  | header | body | closing | fill
  deriving DecidableEq, Repr

/-- The bit side of a transmitter (R6, R12): the bits it drives next; the run of 1 bits of the body so far, for zero insertion;
the CRC register over the body bytes taken from the staging area, and how many they are. -/
structure Shift where
  bits : List Bool
  stage : ShiftStage
  ones : Nat := 0
  crc : BitVec 16 := 0xFFFF
  taken : Nat := 0
  deriving DecidableEq, Repr

/-- The sending half of a framer (R6, R12). `staging`: the transmit staging area; `fetched`: the body bytes read from the
frame's buffer; `reading`: a burst that fills the staging area is asked or has the port, `stale` where it was asked for
another frame; `level`: the bit driven in the last bit time. -/
structure Sender where
  staging : Bytes := []
  fetched : Nat := 0
  reading : Bool := false
  stale : Bool := false
  shift : Option Shift := none
  level : Bool := true
  deriving DecidableEq, Repr

/-- The sending halves of the three link framers. -/
structure Links where
  trunk : Sender := {}
  label : Sender := {}
  guest : Sender := {}
  deriving DecidableEq, Repr

/-- The branch transmitter with its frame in hand (R4 to R11): in CONTENDING and SENDING the head of the named class queue,
or the turn frame. -/
inductive Tx where
  | disabled | idle | waiting | contending (c : Cls) | sending (c : Cls) | sendingTurn
  deriving DecidableEq, Repr

/-- What a turn frame carries, as far as its notice needs it (R9, R22, R24, R25, R31). -/
inductive TurnWhat where
  | answerAccept | answerDefer (recallTag : Byte) | answerBusy | answerRefuse
  /-- The caller's ANSWER ACCEPT to a RECALL (R31). -/
  | recallAccept
  /-- The caller's ANSWER REFUSE STALE to a RECALL (R31). -/
  | recallStale
  /-- A RECEIPT; `enough`: it carries ENOUGH (R25). -/
  | receipt (enough : Bool)
  | data | endFrame
  deriving DecidableEq, Repr

/-- The turn frame in hand (R9); its buffer counts in the TILL class queue. -/
structure TurnFrame where
  buf : Buf
  what : TurnWhat
  deriving DecidableEq, Repr

/-- The branch line interface (chapter 01). -/
structure Branch where
  gapCount : Nat := 0
  turnGap : Bool := false
  tx : Tx := .disabled
  turn : Option TurnFrame := none
  sender : Sender := {}
  rxReady : Bool := false
  loop : Bool := false
  framer : Framer := {}
  contentionLost : Nat := 0
  collisions : Nat := 0
  collisionDrops : Nat := 0
  deriving DecidableEq, Repr

/-- The origin of a route entry (R54). -/
inductive Origin where
  | builtIn | own | static | learned | default
  deriving DecidableEq, Repr

/-- One entry of the route table (R54). -/
structure RouteEntry where
  value : Nat
  len : Nat
  exit : Exit
  origin : Origin
  valid : Bool
  deriving DecidableEq, Repr

/-- The cause a packet is discarded with (R59, R70). -/
inductive Cause where
  | isolated | noExit | static | oversize | malformed | collision
  deriving DecidableEq, Repr

/-- The forwarding counters (R70). -/
structure FwdCounters where
  forwarded : Nat := 0
  toTrunk : Nat := 0
  delivered : Nat := 0
  isolated : Nat := 0
  noExit : Nat := 0
  static : Nat := 0
  oversize : Nat := 0
  malformed : Nat := 0
  collision : Nat := 0
  unknownKind : Nat := 0
  empty : Nat := 0
  reserve : Nat := 0
  guestLimit : Nat := 0
  relayLimit : Nat := 0
  lowestFree : Nat := Config.poolSize
  deriving DecidableEq, Repr

/-- The entry of an index that holds nothing: not valid (R55). The rules give such an entry its cleared valid mark and no more;
value 0, length 0, exit DISCARD and origin DEFAULT are the model's choice (DESIGN CHOICE, safe: no lookup reads a field of
an entry that is not valid; assumption 58). -/
def RouteEntry.blank : RouteEntry := ⟨0, 0, .discard, .default, false⟩

/-- The block a received frame is dispatched to through the receive queue (R62); frames for the pricing unit join its inbox
(`Handed.frame`), and the forwarding engine keeps its own. -/
inductive Dispatch where
  | journal | trunk | calls | label | guest
  deriving DecidableEq, Repr

/-- The forwarding engine (chapter 04). `filling`, `waiting`, `taken`: the members of the receive queue by their state (R62);
those TAKEN by the pricing unit, and the DATA of calls, stand in their owner's inbox. -/
structure Forwarding where
  routes : Vector RouteEntry 32 := Vector.replicate 32 RouteEntry.blank
  control : List QFrame := []
  till : List QFrame := []
  price : List QFrame := []
  guest : List QFrame := []
  exchange : List TFrame := []
  packets : List TFrame := []
  radio : List LFrame := []
  labels : List LFrame := []
  filling : List RxItem := []
  waiting : List RxItem := []
  taken : List (Dispatch × RxItem) := []
  free : List Nat := List.range Config.poolSize
  guestCount : Nat := 0
  relayCount : Nat := 0
  ctr : FwdCounters := {}
  deriving DecidableEq, Repr

/-! ### calls (chapter 02) -/

/-- The block that placed a call (R20). -/
inductive CallOwner where
  | trunk | pricing
  deriving DecidableEq, Repr

/-- A request of the two call kinds (R34, R35). -/
inductive Request where
  | pull (first maximum : Nat)
  | fetch (generation first count : Nat)
  deriving DecidableEq, Repr

/-- The reasons of ANSWER REFUSE (chapter 12). -/
inductive Reason where
  | unknownKind | noSuchGen | notReady | stale
  deriving DecidableEq, Repr

inductive OpenState where
  | queued | connected | waitingRecall
  deriving DecidableEq, Repr

/-- An entry of the open-call list. `expect`: in a JOURNAL PULL, the sequence after the last record accepted (R34);
`recallTimer`: running; `enough`: ENOUGH has been sent; `endEarly`: the owner asked. -/
structure OpenCall where
  owner : CallOwner
  peer : StationNo
  tag : Byte
  request : Request
  state : OpenState
  stage : Nat
  received : Nat
  expect : Option Nat
  recallTag : Byte
  recallTimer : Bool
  enough : Bool
  endEarly : Bool
  deriving DecidableEq, Repr

inductive DeferState where
  | reserved | waiting | recallQueued | recalling
  deriving DecidableEq, Repr

/-- An entry of the deferred list. `lapsed`: its lifetime ran out while its RECALL could not be withdrawn (R29). -/
structure Deferred where
  caller : StationNo
  callTag : Byte
  recallTag : Byte
  request : Request
  state : DeferState
  lifetime : Bool
  lapsed : Bool
  deriving DecidableEq, Repr

inductive Role where
  | caller | callee
  deriving DecidableEq, Repr

inductive Phase where
  | awaitAnswer | awaitData | awaitSend | awaitReceipt | awaitSilence | awaitRecallAnswer
  deriving DecidableEq, Repr

/-- The connection record. At the callee: `position` and `count` of the DATA last sent, `sent` records acknowledged,
`times` how often the present frame was sent, `enough` remembered from a BAD receipt. At the caller: `bad` receipts sent for
the frame expected. -/
structure Conn where
  role : Role
  peer : StationNo
  tag : Byte
  request : Request
  phase : Phase
  position : Nat
  count : Nat
  sent : Nat
  times : Nat
  bad : Nat
  enough : Bool
  deriving DecidableEq, Repr

/-- How a call ended at the caller (R33). -/
inductive CallEnd where
  | complete | endedEarly | noAnswer | busy | refused (r : Option Reason) | recallTimeout | broken
  deriving DecidableEq, Repr

/-- A completion record (R33), with the callee's next sequence or N that an END carried (R178 reads it from an END). -/
structure Completion where
  peer : StationNo
  request : Request
  tag : Byte
  ending : CallEnd
  stage : Nat
  received : Nat
  tail : Option Nat
  deriving DecidableEq, Repr

/-- What reaches an owner of calls, in order (R25, R33, R79): a DATA buffer (TAKEN in the receive queue, R62) of the call with
this peer, tag and request, the completion record that closes it, or (pricing unit only) a PRICE frame dispatched to it. -/
inductive Handed where
  | frame (it : RxItem)
  | data (buf : Buf) (peer : StationNo) (tag : Byte) (request : Request)
  | completion (c : Completion)
  deriving DecidableEq, Repr

/-- The call counters (R36). -/
structure CallCounters where
  complete : Nat := 0
  endedEarly : Nat := 0
  noAnswer : Nat := 0
  busy : Nat := 0
  refused : Nat := 0
  recallTimeout : Nat := 0
  broken : Nat := 0
  gaveAccept : Nat := 0
  gaveDefer : Nat := 0
  gaveBusy : Nat := 0
  gaveRefuse : Nat := 0
  servedBroken : Nat := 0
  deferredExpired : Nat := 0
  recallsStale : Nat := 0
  strayFrames : Nat := 0
  deriving DecidableEq, Repr

/-- The call controller (chapter 02). -/
structure Calls where
  opens : List OpenCall := []
  deferred : List Deferred := []
  conn : Option Conn := none
  callTag : Byte := 0
  recallTag : Byte := 0
  ctr : CallCounters := {}
  deriving DecidableEq, Repr

/-! ### presence (chapter 03) -/

/-- The joining states (R38 to R47). -/
inductive Joining where
  | start | config | configFault | selfTest | memory | journalScan | lineFault | listen | duplicate | announcing
  | sync | ready
  deriving DecidableEq, Repr

/-- The states of the staging record (R79). -/
inductive StagingState where
  | empty | receiving | gaps | complete | activating
  deriving DecidableEq, Repr

/-- The night states (R169). -/
inductive Night where
  | none | claiming | holding | standby | done | failed | cut
  deriving DecidableEq, Repr

/-- The contents of a PRESENCE (R49); `flags` as sent. -/
structure PresenceData where
  station : Nat
  zone : Nat
  joining : Joining
  flags : Byte
  activeGen : Nat
  stagingGen : Nat
  stagingState : StagingState
  night : Night
  nightDay : Nat
  firstUnreleased : Nat
  nextSeq : Nat
  day : Nat
  minute : Nat
  second : Nat
  deriving DecidableEq, Repr

inductive PeerState where
  | unknown | present | absent
  deriving DecidableEq, Repr

/-- An entry of the peer table (R51); `silence`: its silence timer runs. -/
structure Peer where
  state : PeerState := .unknown
  last : Option PresenceData := none
  silence : Bool := false
  deriving DecidableEq, Repr

/-- The station clock (R52). -/
structure Clock where
  valid : Bool := false
  day : Nat := 0
  minute : Nat := 0
  second : Nat := 0
  deriving DecidableEq, Repr

/-- The presence counters (R53). -/
structure PresCounters where
  taken : Nat := 0
  malformed : Nat := 0
  skipped : Nat := 0
  ownHeard : Nat := 0
  peersLost : Nat := 0
  deriving DecidableEq, Repr

/-- A PRESENCE kept by the branch receiver and not yet taken (R16): the station of its header and its body with the CRC. -/
structure KeptPresence where
  station : StationNo
  body : Bytes
  deriving DecidableEq, Repr

/-- The presence unit (chapter 03). `switched`: a bank switch has been made since the start (R46). -/
structure Presence where
  joining : Joining := .start
  lineFault : Bool := false
  dupSeen : Bool := false
  coldStarted : Bool := false
  peers : Vector Peer 16 := Vector.replicate 16 {}
  clock : Clock := {}
  syncTarget : Option Nat := none
  switched : Bool := false
  listenTimer : Bool := false
  presenceTimer : Bool := false
  inbox : List KeptPresence := []
  ctr : PresCounters := {}
  deriving DecidableEq, Repr

/-! ### pricing (chapter 05) -/

inductive BankName where
  | a | b
  deriving DecidableEq, Repr

/-- An open PRICE FETCH of the staging (R85). -/
structure Fetch where
  tag : Byte
  generation : Nat
  first : Nat
  count : Nat
  source : StationNo
  deriving DecidableEq, Repr

/-- The staging record (R79); `n` and `fileCheck` are none while not known. -/
structure Staging where
  state : StagingState := .empty
  generation : Nat := 0
  n : Option Nat := none
  effDay : Nat := 0
  effMinute : Nat := 0
  received : Nat := 0
  check : Nat := 0
  fileCheck : Option Nat := none
  skips : List StationNo := []
  fetches : List Fetch := []
  deriving DecidableEq, Repr

/-- The activation trigger (R88): `fired` when its condition has held at a check and the walk has not begun. -/
inductive Trigger where
  | disarmed | armed | fired
  deriving DecidableEq, Repr

/-- A merge walk (R89): the next staged index, the cursor into the active bank, the item code before, the entries written
with HOLD, and whether the walk has passed its last index. -/
structure Walk where
  index : Nat
  cursor : Nat
  before : Nat
  holds : Nat
  ended : Bool
  deriving DecidableEq, Repr

/-- What the pricing unit waits to take from the label service, in order (R91, R145, R148). -/
inductive LabelEvent where
  | notCurrent (item : Nat)
  | current (item : Nat)
  | countPass
  | walkEnd
  deriving DecidableEq, Repr

/-- The pricing counters (R93). -/
structure PriceCounters where
  headsIgnored : Nat := 0
  partsIgnored : Nat := 0
  recordsBad : Nat := 0
  recordsClamped : Nat := 0
  newerHead : Nat := 0
  check : Nat := 0
  entries : Nat := 0
  order : Nat := 0
  sync : Nat := 0
  switches : Nat := 0
  holdsReleased : Nat := 0
  holdsCleared : Nat := 0
  countFaults : Nat := 0
  entryFaults : Nat := 0
  deriving DecidableEq, Repr

/-- The pricing unit (chapter 05). `switching`: the header write of a switch has been asked, with the number of entries put
in HOLD (R90); `sweep`: the next index of the hold sweep under way (R92). -/
structure Pricing where
  active : BankName := .a
  activeGen : Nat := 0
  activeCount : Nat := 0
  copy : Option Nat := none
  staging : Staging := {}
  lastSource : StationNo := 15
  trigger : Trigger := .disarmed
  walk : Option Walk := none
  switching : Option Nat := none
  recount : Bool := false
  sweepDue : Bool := false
  sweep : Option Nat := none
  pauseTimer : Bool := false
  fetchTimer : Bool := false
  events : List LabelEvent := []
  inbox : List Handed := []
  syncWaits : Option Nat := none
  ctr : PriceCounters := {}
  deriving DecidableEq, Repr

/-! ### till ports (chapter 06) -/

inductive PortState where
  | offline | idle | inSale
  deriving DecidableEq, Repr

/-- An entry of the line table. -/
structure SaleLine where
  item : Nat
  q : Nat
  price : Nat
  amount : Nat
  tallied : Bool
  voided : Bool
  deriving DecidableEq, Repr

/-- A group record (g, v, D) of the multibuy tally (R76). -/
structure GroupRecord where
  g : Nat
  v : Nat
  d : Nat
  deriving DecidableEq, Repr

/-- An entry of the multibuy tally; `groups` oldest first. -/
structure TallyEntry where
  item : Nat
  n : Nat
  count : Nat
  groups : List GroupRecord
  deriving DecidableEq, Repr

/-- The open sale of a port. -/
structure Sale where
  number : Nat
  lines : List SaleLine
  running : Nat
  tenders : Nat
  tally : List TallyEntry
  deriving DecidableEq, Repr

/-- The stored last reply (R103): the content of the reply, from its sequence to its CRC. -/
structure StoredReply where
  seq : Byte
  kind : Byte
  content : Bytes
  deriving DecidableEq, Repr

/-- What becomes of the open sale when the records of a request stand (R109, R113, R114). -/
inductive OnCommit where
  | keep | opens (number : Nat) | closes | abandons
  deriving DecidableEq, Repr

/-- A binary search under way (R72): the bank, the item code, the entries `lo` to `hi - 1` still in question, and how many
entries may still be read. -/
structure Search where
  bank : BankName
  code : Nat
  lo : Nat
  hi : Nat
  left : Nat
  deriving DecidableEq, Repr

/-- How far the work of a request has come (R72, R102, R106): `looking` reads entries for its item; `appended` holds what the
reply will carry once its records stand; `handed` is a supervisor request that has passed its checks and waits for the label
service (R116). -/
inductive Work where
  | taken
  | handed
  | looking (s : Search)
  | appended (onCommit : OnCommit) (body : Bytes) (hold noTally : Bool)
  | replying
  deriving DecidableEq, Repr

/-- The request in progress (R102). -/
structure TillRequest where
  seq : Byte
  kind : Byte
  body : Bytes
  work : Work
  deriving DecidableEq, Repr

/-- A low that waits for the work of a request (R98, R99). -/
inductive Low where
  | breakLow | lineDown
  deriving DecidableEq, Repr

/-- The counters of one port (R117). -/
structure PortCounters where
  good : Nat := 0
  crc : Nat := 0
  badLength : Nat := 0
  framing : Nat := 0
  breaks : Nat := 0
  lineDowns : Nat := 0
  deriving DecidableEq, Repr

/-- A till port (R95 to R103). `out`: the characters being sent, of a BUSY reply where `outBusy`; `busy`: BUSY replies
waiting; `lows`: taken when the request's work ends (R98, R99); `ignoring`: characters are ignored until the next STX (R95);
`held`: no character is taken until the line has been high for a bit time, and `errCounted`: the framing error of this low was
counted (R97). -/
structure Port where
  state : PortState := .offline
  sale : Option Sale := none
  last : Option StoredReply := none
  req : Option TillRequest := none
  out : Option Bytes := none
  outBusy : Bool := false
  busy : List Bytes := []
  lows : List Low := []
  silence : Bool := false
  grace : Bool := false
  ignoring : Bool := false
  held : Bool := false
  errCounted : Bool := false
  ctr : PortCounters := {}
  deriving DecidableEq, Repr

/-- The station's till counters (R117). -/
structure TillCounters where
  busyRefusals : Nat := 0
  refusalsDropped : Nat := 0
  repeats : Nat := 0
  notReady : Nat := 0
  full : Nat := 0
  closed : Nat := 0
  abandonedTill : Nat := 0
  abandonedRestart : Nat := 0
  abandonedLost : Nat := 0
  notWritten : Nat := 0
  deriving DecidableEq, Repr

/-- The till port controller (chapter 06). -/
structure Tills where
  ports : Vector Port 8 := Vector.replicate 8 {}
  ctr : TillCounters := {}
  deriving DecidableEq, Repr

/-! ### journal (chapter 07) -/

/-- Who asks an append (R120). `portEvent`: a SALE ABANDON of a BREAK or of the grace timer. -/
inductive Requester where
  | till (port : PortNo) | portEvent | pricing | report | scan
  deriving DecidableEq, Repr

/-- The marks of an ITEM (R110). -/
structure ItemMarks where
  hold : Bool
  noTally : Bool
  stale : Bool
  deriving DecidableEq, Repr

/-- Why a sale was abandoned (R124). -/
inductive AbandonReason where
  | till | tillRestart | tillLost | power
  deriving DecidableEq, Repr

/-- The tender methods (R112). -/
inductive Method where
  | cash | card | voucher
  deriving DecidableEq, Repr

/-- What a journal record carries (R124). -/
inductive Content where
  | saleOpen (generation : Nat)
  | item (sale line code q price amount generation : Nat) (marks : ItemMarks)
  | discount (sale line code groups amount : Nat)
  | reversal (sale line code groups amount : Nat)
  | void (sale line code q amount : Nat)
  | tender (sale : Nat) (method : Method) (amount : Nat)
  | saleClose (sale running tenders change : Nat)
  | saleAbandon (sale : Nat) (reason : AbandonReason) (running tenders : Nat) (fromOpen : Bool)
  | holdReleased (code held count : Nat)
  | priceActivated (generation previous n holds : Nat)
  | stationReport (part zone : Nat) (fields : Bytes)
  deriving DecidableEq, Repr

/-- A record accepted and not yet written whole (R123). -/
structure QueuedRecord where
  seq : Nat
  bytes : Bytes
  deriving DecidableEq, Repr

/-- An append accepted whose records are not all committed (R123): its last sequence and its requester. -/
structure OpenAppend where
  last : Nat
  requester : Requester
  deriving DecidableEq, Repr

/-- An append that waits for the scan (R120). -/
structure WaitingAppend where
  requester : Requester
  till : Nat
  contents : List Content
  deriving DecidableEq, Repr

/-- An open sale mark of the scan (R131). `running` may stand below 0 between the VOID and the DISCOUNT REVERSAL of one append. -/
structure SaleMark where
  port : Nat
  sale : Nat
  running : Int
  tenders : Nat
  fromOpen : Bool
  deriving DecidableEq, Repr

/-- How far the warm-start scan has come (R130). -/
inductive ScanStage where
  | reading | failed | abandoning
  deriving DecidableEq, Repr

/-- The warm-start scan (R130, R131): the sequence expected, the marks of the ports, the sales set aside, the records read
whole. -/
structure Scan where
  stage : ScanStage
  e : Nat
  marks : List SaleMark
  aside : List SaleMark
  read : Nat
  deriving DecidableEq, Repr

/-- The journal counters (R132). -/
structure JournalCounters where
  written : Nat := 0
  saleRefused : Nat := 0
  stationNotWritten : Nat := 0
  releasesTaken : Nat := 0
  releasesIgnored : Nat := 0
  damagedReads : Nat := 0
  powerWritten : Nat := 0
  powerNotWritten : Nat := 0
  scanEnds : Nat := 0
  deriving DecidableEq, Repr

/-- The journal unit (chapter 07). `pending`: the highest release taken above `release` (R129); `queue`: records accepted and
not written whole; `crcWritten`: CRC bursts written and not yet taken as committed. -/
structure Journal where
  next : Nat := 1
  release : Nat := 0
  pending : Option Nat := none
  commit : Nat := 1
  exhausted : Bool := false
  queue : List QueuedRecord := []
  crcWritten : Nat := 0
  appends : List OpenAppend := []
  scan : Option Scan := none
  waiting : List WaitingAppend := []
  lastScan : Nat := 0
  ctr : JournalCounters := {}
  deriving DecidableEq, Repr

/-! ### shelf labels (chapter 08) -/

inductive Layout where
  | price | priceUnit | priceUnitPromo
  deriving DecidableEq, Repr

inductive LabelState where
  | current | queued | sent | retryWait | unreachable
  deriving DecidableEq, Repr

inductive PushQueue where
  | urgent | routine
  deriving DecidableEq, Repr

inductive Battery where
  | ok | low | critical
  deriving DecidableEq, Repr

/-- A displayed value (R78, R134). -/
inductive Shown where
  | value (n : Nat) | over | none
  deriving DecidableEq, Repr

/-- The promotion mark (R78). -/
inductive PromoMark where
  | none | was (v : Shown) | nFor (n : Nat) (v : Shown)
  deriving DecidableEq, Repr

/-- A label content (R134). -/
inductive LabelContent where
  | priced (main unit : Shown) (mark : PromoMark)
  | blank
  | unknown
  deriving DecidableEq, Repr

/-- An entry in use of the label table (R133). -/
structure LabelEntry where
  id : Nat
  item : Nat
  layout : Layout
  state : LabelState
  queue : Option PushQueue
  shown : LabelContent
  sent : Option LabelContent
  tag : Option Byte
  attempts : Nat
  due : Option Nat
  battery : Battery
  signal : Nat
  walked : Bool
  deriving DecidableEq, Repr

/-- An order in the window (R139); `sentNotice`: the frame is sent and its report timer runs; `orphan` (R150, R151). -/
structure Order where
  tag : Byte
  index : Nat
  id : Nat
  content : LabelContent
  sentNotice : Bool
  orphan : Bool
  deriving DecidableEq, Repr

/-- The label walk (R145): waiting for its count pass, or walking. -/
inductive LabelWalk where
  | none | counting | walking (cursor : Nat)
  deriving DecidableEq, Repr

/-- The warm-start walk (R149): due after a warm start, or its pass through the table running; from then on it is a label
walk like any other. -/
inductive WarmWalk where
  | none | due | pass
  deriving DecidableEq, Repr

/-- The tallies of the label table (R153). -/
structure LabelTallies where
  inUse : Nat := 0
  unreachable : Nat := 0
  low : Nat := 0
  critical : Nat := 0
  deriving DecidableEq, Repr

/-- The label counters (R153). -/
structure LabelCounters where
  ordersSent : Nat := 0
  shown : Nat := 0
  noAnswer : Nat := 0
  timeouts : Nat := 0
  refused : Nat := 0
  unreachable : Nat := 0
  strayReports : Nat := 0
  strayNotices : Nat := 0
  unknown : Nat := 0
  headLosses : Nat := 0
  walks : Nat := 0
  deriving DecidableEq, Repr

/-- The label service (chapter 08); the label table stands in the DRAM. -/
structure Labels where
  urgent : List Nat := []
  routine : List Nat := []
  window : List Order := []
  orderTag : Byte := 0
  headUp : Bool := false
  headTimer : Bool := false
  retrySeconds : Nat := 0
  walk : LabelWalk := .none
  warm : WarmWalk := .none
  tallies : LabelTallies := {}
  ctr : LabelCounters := {}
  deriving DecidableEq, Repr

/-! ### guests (chapter 09) -/

/-- An ADMITTED entry of the guest table (R155). -/
structure Guest where
  device : Nat
  admitted : Nat
  lastActive : Nat
  tokens : Nat
  up : Nat
  down : Nat
  drops : Nat
  limited : Option Nat
  deriving DecidableEq, Repr

/-- The guest counters (R164). -/
structure GuestCounters where
  admissions : Nat := 0
  replacements : Nat := 0
  refusals : Nat := 0
  dropsFull : Nat := 0
  dropsBudget : Nat := 0
  dropsNoExit : Nat := 0
  dropsNoBuffer : Nat := 0
  malformed : Nat := 0
  delivered : Nat := 0
  endedIdle : Nat := 0
  endedReplaced : Nat := 0
  endedNight : Nat := 0
  endedRadio : Nat := 0
  noticesLost : Nat := 0
  unknown : Nat := 0
  radioLosses : Nat := 0
  deriving DecidableEq, Repr

/-- The guest meter (chapter 09); the guest table stands in the DRAM. `cleared`: entries written FREE since the start; `budget`:
the B in force, worked at the last tick. -/
structure Guests where
  cleared : Nat := 0
  radioUp : Bool := false
  radioTimer : Bool := false
  meterTime : Nat := 0
  budget : Nat := 0
  cap : Nat := Config.guestTokens
  ctr : GuestCounters := {}
  deriving DecidableEq, Repr

/-! ### night exchange (chapter 10) -/

inductive TrunkLine where
  | absent | down | up
  deriving DecidableEq, Repr

inductive NightPhase where
  | logon | upload | download | closing
  deriving DecidableEq, Repr

inductive UploadStatus where
  | pending | pulling | done | skipped | failed
  deriving DecidableEq, Repr

/-- A BLOCK (R176, R179). `first`, `last`: the sequences of its first and last record; `queued`: it has joined the trunk queue;
`inRelay`: its buffer stands in the relay set; `sentOnce`: its first sent notice has come. -/
structure Block where
  station : StationNo
  first : Nat
  last : Nat
  count : Nat
  buf : Buf
  queued : Bool
  inRelay : Bool
  sentOnce : Bool
  deriving DecidableEq, Repr

/-- An entry of the upload table (R175). -/
structure Upload where
  station : StationNo
  first : Nat
  snapshot : Option Nat
  acked : Nat
  nextPack : Nat
  retries : Nat
  shorts : Nat
  status : UploadStatus
  openBlock : Option Block
  deriving DecidableEq, Repr

/-- How the reading of the holder's own journal stands (R177). -/
inductive OwnRead where
  | idle | reading | retryTimer | paused
  deriving DecidableEq, Repr

/-- How the pulling of the peer in turn stands (R178): no pull, one open under a call tag (`discarding`: the rest of its
records are discarded), the 5 s delay running, or waiting for a relay buffer. -/
inductive Pull where
  | idle | opened (tag : Byte) (discarding : Bool) | delay | noRelay
  deriving DecidableEq, Repr

/-- The trunk counters (R186). -/
structure TrunkCounters where
  carrierLosses : Nat := 0
  framesUnknown : Nat := 0
  unexpected : Nat := 0
  claimsSent : Nat := 0
  claimsWithdrawn : Nat := 0
  sessionsDone : Nat := 0
  failedLogon : Nat := 0
  failedCarrier : Nat := 0
  failedAck : Nat := 0
  failedFile : Nat := 0
  cutWindow : Nat := 0
  cutLower : Nat := 0
  blocksSent : Nat := 0
  blocksResent : Nat := 0
  ackExpiries : Nat := 0
  acksIgnored : Nat := 0
  releasesSent : Nat := 0
  lateReleases : Nat := 0
  skipped : Nat := 0
  failed : Nat := 0
  rebroadcastsLost : Nat := 0
  deriving DecidableEq, Repr

/-- The trunk controller (chapter 10). `owed`: messages refused a buffer, to be built again (R166); `turn`: the station
whose upload entry is in turn (R175). -/
structure Trunk where
  line : TrunkLine := .down
  night : Night := .none
  nightDay : Nat := 0
  phase : NightPhase := .logon
  helloSent : Bool := false
  fileFollows : Bool := false
  holder : Option (StationNo × Nat) := none
  logonTimer : Bool := false
  ackTimer : Bool := false
  downloadTimer : Bool := false
  sessionTimer : Bool := false
  owed : List TrunkFrame := []
  table : List Upload := []
  turn : Option StationNo := none
  own : OwnRead := .idle
  pull : Pull := .idle
  inbox : List Handed := []
  blocks : List Block := []
  expiries : Nat := 0
  ctr : TrunkCounters := {}
  deriving DecidableEq, Repr

/-! ### external memory (chapter 11) -/

/-- The fields of the store header (R192). -/
structure HeaderCopy where
  active : BankName := .a
  activeGen : Nat := 0
  activeCount : Nat := 0
  stagingGen : Nat := 0
  stagingState : StagingState := .empty
  n : Option Nat := none
  effDay : Nat := 0
  effMinute : Nat := 0
  fileCheck : Option Nat := none
  release : Nat := 0
  deriving DecidableEq, Repr

/-- Who asks a store header write (R192); `start`: the cold start of R41. -/
inductive HeaderUser where
  | pricing | journal | start
  deriving DecidableEq, Repr

/-- The store header in the memory controller (R192): the copy, the write in flight with the users it carries, whether that
write is finished and its notices not yet given, the users waiting for a further write, the header read of MEMORY. -/
structure HeaderUnit where
  copy : HeaderCopy := {}
  inFlight : Option (HeaderCopy × List HeaderUser) := none
  finished : Bool := false
  waiting : List HeaderUser := []
  readData : Option Bytes := none
  deriving DecidableEq, Repr

/-- The memory counters (R197). -/
structure MemCounters where
  urgent : Nat := 0
  promotions : Nat := 0
  headerWrites : Nat := 0
  labelsLost : Nat := 0
  deriving DecidableEq, Repr

/-- The six requesters with a passed-over count (R188, R190). -/
inductive Req where
  | line | trunk | till | price | label | guest
  deriving DecidableEq, Repr

/-- The users of the requesters (R188). `lineBuild`: a block that builds a branch frame in its buffer; `trunkBlock`: the trunk
controller; `lookup`: the lookup for one till; `staging`: staging writes, map marks and the merge walk; `bank`: whatever rewrites
entries of the active bank; `memory`: MEMORY's header read and clearing, and the new header after it; `rewrite`: the buffer
rewrites of GUEST (assumption 53). -/
inductive BurstUser where
  | lineReceive | lineSend | lineBuild | pull
  | trunkReceive | trunkSend | trunkBlock
  | lookup (port : PortNo) | journal | journalHeader
  | staging | bank | fetchService | pricingHeader | memory
  | labelReceive | labelSend | labelTable | labelContent
  | guestReceive | guestSend | guestTable | rewrite
  deriving DecidableEq, Repr

/-- Bursts: what is done when one finishes (R188). One `store`, `wipe` or `load` stands for bursts that its user asks one after
the other. -/
inductive Tok where
  /-- Up to 32 bytes of a receive FIFO into their buffer (R14). -/
  | rxWrite (line : Line)
  /-- Up to 32 bytes of the frame at the head into the transmit staging area of a line (R6, R12). -/
  | txRead (line : Line)
  /-- Bytes of a block's own records, tables and frames: one burst for each part, in order (R187). -/
  | store (parts : List (Nat × Bytes))
  /-- The bytes from `lo` up to `hi` made 0, one aligned block a burst. -/
  | wipe (lo hi : Nat)
  /-- Bursts that read. -/
  | load (bursts : Nat)
  /-- The entry a till's search reads next (R72). -/
  | lookup (port : PortNo)
  /-- The next entry of the hold sweep (R92). -/
  | sweepStep
  | journalFirst
  | journalSecond
  | scanFirst
  | scanSecond
  | headerRead
  | headerWrite
  | mergeStep
  | guestClear
  deriving DecidableEq, Repr

/-- A user with bursts to make (R188): the one it asks now, none while that one has the port; and those it asks after it, each
once the one before has finished. -/
structure Asked where
  user : BurstUser
  now : Option Tok
  later : List Tok
  deriving DecidableEq, Repr

/-- The users of each requester that have bursts to make, in the order in which they asked the one they ask now (R188). -/
structure Asks where
  line : List Asked := []
  trunk : List Asked := []
  till : List Asked := []
  price : List Asked := []
  label : List Asked := []
  guest : List Asked := []
  deriving DecidableEq, Repr

/-- Who holds the DRAM port (R189). -/
inductive Grant where
  | burst (u : BurstUser) (t : Tok)
  | refresh
  deriving DecidableEq, Repr

/-- The passed-over counts (R190). -/
structure Passed where
  line : Nat := 0
  trunk : Nat := 0
  till : Nat := 0
  price : Nat := 0
  label : Nat := 0
  guest : Nat := 0
  deriving DecidableEq, Repr

/-- The arbiter and the refresh counters (R189 to R191). -/
structure Arb where
  port : Option Grant := none
  passed : Passed := {}
  row : Nat := 0
  postponed : Nat := 0
  deriving DecidableEq, Repr

inductive Watch where
  | running | held | waiting
  deriving DecidableEq, Repr

/-- The supply watch and the reset pin (R193 to R196). `stopping`: SUPPLY LOW is taken and the burst in hand not finished;
`pin`: the reset pin is asserted; `framersStopped` (R11). -/
structure Supply where
  watch : Watch := .waiting
  stopping : Bool := false
  pin : Bool := false
  framersStopped : Bool := false
  deriving DecidableEq, Repr

/-! ### the part and the state -/

/-- Everything the twelve blocks hold, and the external DRAM: `written` is what finished bursts have written in it, `dram` the
same with the writes that have been asked and not finished (R188), as the block that asked them reads it. -/
structure Part where
  cfg : Option ConfigBlock := none
  branch : Branch := {}
  trunkFramer : Framer := {}
  labelFramer : Framer := {}
  guestFramer : Framer := {}
  links : Links := {}
  fwd : Forwarding := {}
  call : Calls := {}
  pres : Presence := {}
  price : Pricing := {}
  till : Tills := {}
  jrn : Journal := {}
  lab : Labels := {}
  gst : Guests := {}
  trk : Trunk := {}
  hdr : HeaderUnit := {}
  memCtr : MemCounters := {}
  asks : Asks := {}
  dram : Mem := []
  written : Mem := []
  deriving DecidableEq, Repr

/-- The part right after a start with this in its DRAM: every block at its start values (R39), the joining state CONFIG
(entered at once from START), the clearing of the guest table asked (R155). -/
def Part.started (dram : Mem) : Part :=
  { dram := dram, written := dram, pres := { joining := .config }, asks := { guest := [⟨.guestTable, some .guestClear, []⟩] } }

/-- The whole state: the queue of commands, the supply watch, the arbiter, the part. -/
structure State where
  pending : List Instr
  supply : Supply
  arb : Arb
  part : Part
  deriving DecidableEq, Repr

/-- The state at power-up, before the supply has been good for 100 ms (R193, R195): WAITING. -/
def State.powerUp : State :=
  { pending := [], supply := { watch := .waiting }, arb := {}, part := {} }

/-- The state right after a start from power-up (R39, R195): RUNNING, CONFIG entered, the first guest-table clearing burst
granted. Memory lists nothing. -/
def State.reset : State :=
  { pending := []
    supply := { watch := .running }
    arb := { port := some (.burst .guestTable .guestClear) }
    part := { (Part.started []) with asks := { guest := [⟨.guestTable, none, []⟩] } } }

end Sys2Proof.Machine
end

