-- ==== Sys2Proof/Machine/Bytes.lean ====
section
/-! DEFINITION. Byte order, the CRC-16 (R198), memory cells, and the saturating counters. -/

namespace Sys2Proof.Machine

/-! ### byte order (chapter 12: most significant byte first) -/

/-- `n` in `w` bytes, most significant first. -/
def be : Nat → Nat → Bytes
  | 0, _ => []
  | w + 1, n => be w (n / 256) ++ [BitVec.ofNat 8 n]

/-- The number a run of bytes spells, most significant first. -/
def beNat (bs : Bytes) : Nat := bs.foldl (fun acc b => acc * 256 + b.toNat) 0

/-- The bytes of a field: `w` bytes from offset `off`. -/
def sub (bs : Bytes) (off w : Nat) : Bytes := (bs.drop off).take w

/-- The number a field holds. -/
def fieldAt (bs : Bytes) (off w : Nat) : Nat := beNat (sub bs off w)

/-- One byte of a run, 0 beyond its end. -/
def byteAt (bs : Bytes) (off : Nat) : Byte := (bs.drop off).headD 0

/-- `bs` brought to exactly `n` bytes, with 0 after its end. -/
def padTo (n : Nat) (bs : Bytes) : Bytes := bs.take n ++ List.replicate (n - bs.length) 0

def bit (b : Bool) : Nat := if b then 1 else 0

/-- A mark in one byte. -/
def markByte (b : Bool) : Byte := if b then 1 else 0

/-! ### the CRC (R198): x^16 + x^12 + x^5 + 1, each byte least significant bit first -/

/-- `n` bits divided into the register. -/
def crcShift (r : BitVec 16) : Nat → BitVec 16
  | 0 => r
  | n + 1 => crcShift (if r.getLsbD 0 then (r >>> 1) ^^^ 0x8408#16 else r >>> 1) n

def crcByte (r : BitVec 16) (b : Byte) : BitVec 16 := crcShift (r ^^^ b.setWidth 16) 8

/-- The register after the bytes, preset to FFFF. -/
def crcRegister (bs : Bytes) : BitVec 16 := bs.foldl crcByte 0xFFFF#16

/-- The CRC of the bytes as a number: the register complemented. -/
def crcValue (bs : Bytes) : Nat := (~~~ crcRegister bs).toNat

/-- The two CRC bytes, low byte first. -/
def crcBytes (bs : Bytes) : Bytes :=
  [BitVec.ofNat 8 (crcValue bs), BitVec.ofNat 8 (crcValue bs / 256)]

/-- The bytes with their CRC after them. -/
def withCrc (bs : Bytes) : Bytes := bs ++ crcBytes bs

/-- The check over bytes that end in their CRC: the fixed residue F0B8. -/
def crcGood (bs : Bytes) : Bool := crcRegister bs == 0xF0B8#16

/-- The number in two CRC bytes, low byte first. -/
def crcField (bs : Bytes) (off : Nat) : Nat := (byteAt bs off).toNat + 256 * (byteAt bs (off + 1)).toNat

/-! ### counters -/

/-- A counter counts up by 1 and stays at 65,535 (R18 and the other counter rules). -/
def bump (n : Nat) : Nat := if n < Config.counterMax then n + 1 else n

/-- A count that stops at a greatest value (R155). -/
def capAdd (most n d : Nat) : Nat := min most (n + d)

/-! ### memory (R187): an unlisted address reads as 0 (assumption 2) -/

/-- One byte of memory. -/
def Mem.read : Mem → Nat → Byte
  | [], _ => 0
  | (k, v) :: rest, a => if k = a then v else Mem.read rest a

/-- `n` bytes of memory from `a` up. -/
def Mem.readBytes (m : Mem) (a : Nat) : Nat → Bytes
  | 0 => []
  | n + 1 => Mem.read m a :: Mem.readBytes m (a + 1) n

/-- A cell put in its place, in a memory that lists nothing at its address. -/
def Mem.insertCell (a : Nat) (b : Byte) : Mem → Mem
  | [] => [(a, b)]
  | (k, v) :: rest => if a < k then (a, b) :: (k, v) :: rest else (k, v) :: Mem.insertCell a b rest

/-- One byte written: writing what an unlisted address reads as removes the entry. The DRAM has no byte beyond its 4 MiB
(R187), and no block addresses one. -/
def Mem.write (m : Mem) (a : Nat) (b : Byte) : Mem :=
  let rest := m.filter fun c => decide (c.1 ≠ a)
  if b = 0 ∨ Config.dramSize ≤ a then rest else Mem.insertCell a b rest

/-- Bytes written from `a` up. -/
def Mem.writeBytes (m : Mem) : Nat → Bytes → Mem
  | _, [] => m
  | a, b :: bs => Mem.writeBytes (Mem.write m a b) (a + 1) bs

/-- Every byte from `lo` up to but not including `hi` made 0. -/
def Mem.wipe (m : Mem) (lo hi : Nat) : Mem := m.filter fun c => decide (c.1 < lo) || decide (hi ≤ c.1)

/-- A run of bytes cut where it meets an aligned block of 32 bytes: every burst lies within one (R187). -/
def cutBlocks : Nat → Nat → Bytes → List (Nat × Bytes)
  | 0, _, _ => []
  | _ + 1, _, [] => []
  | fuel + 1, a, b :: bs =>
    let n := Config.burst - a % Config.burst
    (a, (b :: bs).take n) :: cutBlocks fuel (a + n) ((b :: bs).drop n)

/-- The canonical form: addresses strictly rising, all in the 4 MiB of the DRAM, no listed byte 0. -/
def Mem.wf : Mem → Bool
  | [] => true
  | [(k, v)] => decide (k < Config.dramSize) && decide (v ≠ 0)
  | (k, v) :: (k', v') :: rest => decide (k < k') && decide (v ≠ 0) && Mem.wf ((k', v') :: rest)

end Sys2Proof.Machine
end

