-- ==== Sys2Proof/Machine/Framing.lean ====
section
/-! DEFINITION. The common framer bit by bit (R5, R12, R13): flags, bit order, zero insertion and removal, the CRC a frame is
sent with, the patterns between frames and of an abort, and how a receiver finds flags and assembles bytes. A bit is `true`
for 1 (recessive on the branch line). -/

namespace Sys2Proof.Machine

/-! ### sending (R12) -/

/-- A flag: 0, six 1 bits, 0. -/
def flagBits : List Bool := [false, true, true, true, true, true, true, false]

/-- The bits of a byte, least significant first. -/
def byteBits (b : Byte) : List Bool := (List.range 8).map b.getLsbD

/-- Bits of a body with a 0 inserted after every run of five 1 bits; `ones` is the run before them. What follows is the run
after them. -/
def stuff : Nat → List Bool → List Bool × Nat
  | ones, [] => ([], ones)
  | ones, b :: bs =>
    if b then
      if ones = 4 then let r := stuff 0 bs; (true :: false :: r.1, r.2)
      else let r := stuff (ones + 1) bs; (true :: r.1, r.2)
    else let r := stuff 0 bs; (false :: r.1, r.2)

/-- The CRC bytes a register is sent as: complemented, low byte first (R12, R198). -/
def crcSent (r : BitVec 16) : Bytes :=
  [BitVec.ofNat 8 (~~~ r).toNat, BitVec.ofNat 8 ((~~~ r).toNat / 256)]

def bytesBits (bs : Bytes) : List Bool := (bs.map byteBits).flatten

/-- A whole frame of this body, the CRC not counted (R12). -/
def frameBits (body : Bytes) : List Bool := flagBits ++ (stuff 0 (bytesBits (withCrc body))).1 ++ flagBits

def Cls.code : Cls → Nat
  | .control => 0 | .till => 1 | .price => 2 | .guest => 3

/-- `n` in `w` bits, most significant first. -/
def msbBits (w n : Nat) : List Bool := ((List.range w).map fun i => n.testBit i).reverse

/-- The header of a branch frame: class, then station number, each most significant bit first (R5). -/
def headerBits (c : Cls) (n : StationNo) : List Bool := msbBits 2 (Cls.code c) ++ msbBits 4 n.val

/-- The dominant bit that opens a branch frame (R1, R4). -/
def startBit : Bool := false

/-- Start bit and header of a branch frame (R5). -/
def frontBits : Nat := 7

/-- The level a line's framer drives between frames where it sends no flags: recessive, or mark (R12). -/
def restLevel : Bool := true

/-- The bits an abort drives: eight 1 bits on the trunk line (R12). The branch transmitter stops. A label or guest transmitter
stops and its line stays at mark; R12 sends the frame again at once and does not say for how many bit times the line stays at mark
before the opening flag: the model takes the seven 1 bits by which R13 finds an abort (DESIGN CHOICE, unsafe; assumption 70). -/
def abortBits : Line → List Bool
  | .trunk => List.replicate 8 true
  | .branch => []
  | .label | .guest => List.replicate 7 true

/-- The transmitter's next bits once it holds none: the next body byte with its inserted bits, or the CRC and the closing flag
after the last of `len` body bytes; none where that byte is not in the staging area (R6, R8, R12). -/
def Sender.load (len : Nat) (s : Sender) (x : Shift) : Option Sender :=
  match x.stage with
  | .header => none
  | .closing => none
  | .fill => some { s with shift := some { x with bits := flagBits } }
  | .body =>
    if x.taken < len then
      match s.staging with
      | [] => none
      | b :: rest =>
        let r := stuff x.ones (byteBits b)
        some { s with staging := rest,
                      shift := some { x with bits := r.1, ones := r.2, crc := crcByte x.crc b, taken := x.taken + 1 } }
    else
      some { s with shift := some { x with bits := (stuff x.ones (bytesBits (crcSent x.crc))).1 ++ flagBits, stage := .closing } }

/-- The bit held first is driven; where none is held, the level between frames. -/
def Sender.drive (s : Sender) : Sender :=
  match s.shift with
  | some { bits := b :: rest, stage := st, ones := o, crc := c, taken := t } =>
    { s with level := b, shift := some { bits := rest, stage := st, ones := o, crc := c, taken := t } }
  | some { bits := [], .. } => { s with level := restLevel }
  | none => { s with level := restLevel }

/-- One bit time of a transmitter whose frame has `len` body bytes without the CRC. -/
def Sender.tick (len : Nat) (s : Sender) : Sender :=
  match s.shift with
  | some x =>
    match x.bits with
    | [] => match s.load len x with
      | some t => t.drive
      | none => s.drive
    | _ :: _ => s.drive
  | none => s.drive

/-- A transmitter that begins a frame with its opening flag, after the bits of `before`. -/
def openingShift (before : List Bool) : Shift := { bits := before ++ flagBits, stage := .body }

/-- A branch transmitter that enters a contention: with its own start bit, or after another station's (R4). -/
def contendingShift (start : List Bool) (c : Cls) (n : StationNo) : Shift :=
  { bits := start ++ headerBits c n, stage := .header }

/-- A turn frame: start bit, header, and its frame at once (R9). -/
def turnShift (n : StationNo) : Shift := openingShift (startBit :: headerBits .till n)

/-- The trunk transmitter fills the line with flags (R12). -/
def fillShift : Shift := { bits := flagBits, stage := .fill }

/-- The staging area has room for the next burst of a frame of `len` bytes, and no burst is under way (R6). -/
def Sender.wants (s : Sender) (len : Nat) : Bool :=
  !s.reading && decide (s.fetched < len) && decide (s.staging.length + Config.burst ≤ Config.fifoSize)

/-- The staging area emptied, for another frame or for the same from its first byte. -/
def Sender.fresh (s : Sender) : Sender := { s with staging := [], fetched := 0, stale := s.reading }

/-- The transmitter rests: nothing is driven, and a frame whose bytes it has begun to take is read anew. -/
def Sender.rest (s : Sender) : Sender :=
  let t := { s with shift := none, level := restLevel }
  if t.fetched = t.staging.length then t else t.fresh

/-- The bytes of a burst reach the staging area. -/
def Sender.fill (s : Sender) (bs : Bytes) : Sender :=
  { s with staging := s.staging ++ bs, fetched := s.fetched + bs.length, reading := false, stale := false }

/-! ### receiving (R13) -/

/-- The byte eight bits spell, least significant first. -/
def bitsByte (bs : List Bool) : Byte := BitVec.ofNat 8 (bs.foldr (fun b acc => bit b + 2 * acc) 0)

/-- The bits of a flag that a receiver has taken with the body's when the flag ends: its six 1 bits, and its first 0 where that
was not removed as the 0 after five 1 bits, or is not the opening flag's last. -/
def Deframe.flagTaken (d : Deframe) : Nat := if d.zeroOut then 6 else 7

/-- The body bits of a frame closed by the flag just read. -/
def Deframe.bodyBits (d : Deframe) : Nat := 8 * d.got.length + d.bits.length - d.flagTaken

/-- The bytes of the body of a frame closed by its flag. -/
def Deframe.body (d : Deframe) : Bytes := d.got.take (d.bodyBits / 8)

/-- The body bits left over past the last whole byte of a frame closed by its flag (R13, RESIDUE). -/
def Deframe.odd (d : Deframe) : Nat := d.bodyBits % 8

/-- Within how many bits a line's opening flag must come: on the branch line the eight after the header (R13). -/
def openingWithin : Line → Option Nat
  | .branch => some 8
  | .trunk => none
  | .label => none
  | .guest => none

/-- A body bit joins; the eighth completes a byte. -/
def Deframe.takeBit (d : Deframe) (b : Bool) : Deframe :=
  let bits := d.bits ++ [b]
  if bits.length = 8 then { d with bits := [], got := d.got ++ [bitsByte bits] } else { d with bits := bits }

/-- A flag ends in the body: the frame is closed, or where no body bit has come it is idle fill and opens the next (R13). -/
def Deframe.flagInBody (d : Deframe) : Deframe :=
  if d.bodyBits = 0 then { reached := .body, ones := 0 } else { d with reached := .closed, ones := 0 }

/-- One bit read before the end of the opening flag. -/
def Deframe.hunt (most : Option Nat) (n : Nat) (b : Bool) (d : Deframe) : Deframe :=
  let missed := match most with
    | some m => decide (m ≤ n + 1)
    | none => false
  if b = false ∧ d.ones = 6 ∧ (match most with | some m => decide (n + 1 = m) | none => true) = true then
    { d with reached := .body, ones := 0 }
  else
    { d with reached := if missed then .aborted else .hunting (n + 1), ones := if b then min 7 (d.ones + 1) else 0 }

/-- One bit read (R13): flags are found, a 0 after five 1 bits is removed, seven 1 bits are an abort. -/
def Deframe.feed (most : Option Nat) (d : Deframe) (b : Bool) : Deframe :=
  match d.reached with
  | .hunting n => d.hunt most n b
  | .body =>
    if b then
      if d.ones = 6 then { d with reached := .aborted, ones := 7 } else { d with ones := d.ones + 1 }.takeBit true
    else if d.ones = 6 then d.flagInBody
    else if d.ones = 5 then { d with ones := 0, zeroOut := true }
    else { d with ones := 0, zeroOut := false }.takeBit false
  | .closed => d
  | .aborted => d

def Cls.ofCode : Nat → Cls
  | 0 => .control
  | 1 => .till
  | 2 => .price
  | _ => .guest

/-- The number that bits spell, most significant first. -/
def msbValue (bs : List Bool) : Nat := bs.foldl (fun n b => 2 * n + bit b) 0

/-- The class of a header, `front` being start bit and header (R5). -/
def frontClass (front : List Bool) : Cls := Cls.ofCode (msbValue ((front.drop 1).take 2))

/-- The station number of a header (R5). -/
def frontStation (front : List Bool) : StationNo := Fin.ofNat 16 (msbValue ((front.drop 3).take 4))

/-- How many bits stand before the opening flag. -/
def frontOf : Line → Nat
  | .branch => frontBits
  | .trunk => 0
  | .label => 0
  | .guest => 0

/-- Bits read in order. -/
def Deframe.feeds (most : Option Nat) (d : Deframe) (bs : List Bool) : Deframe := bs.foldl (Deframe.feed most) d

end Sys2Proof.Machine
end

