-- ==== Sys2Proof/Machine/Operands.lean ====
section
/-! DEFINITION. The byte layouts of chapter 12: what each frame body, message and stored record says, and how the part lays
its own out. Codes stand here and nowhere else. -/

namespace Sys2Proof.Machine

/-! ### small codes -/

def Cls.user : Cls → User
  | .control => .control
  | .guest => .guest
  | .till => .other
  | .price => .other

def StagingState.code : StagingState → Nat
  | .empty => 0 | .receiving => 1 | .gaps => 2 | .complete => 3 | .activating => 4

def StagingState.ofCode : Nat → Option StagingState
  | 0 => some .empty | 1 => some .receiving | 2 => some .gaps | 3 => some .complete | 4 => some .activating | _ => none

def Night.code : Night → Nat
  | .none => 0 | .claiming => 1 | .holding => 2 | .standby => 3 | .done => 4 | .failed => 5 | .cut => 6

def Night.ofCode : Nat → Option Night
  | 0 => some .none | 1 => some .claiming | 2 => some .holding | 3 => some .standby | 4 => some .done | 5 => some .failed
  | 6 => some .cut | _ => none

/-- The joining states a PRESENCE can show (chapter 12); no other state is ever sent. -/
def Joining.code : Joining → Nat
  | .announcing => 0x0A | .sync => 0x0B | .ready => 0x0C
  | .start | .config | .configFault | .selfTest | .memory | .journalScan | .lineFault | .listen | .duplicate => 0

def Joining.ofCode : Nat → Option Joining
  | 0x0A => some .announcing | 0x0B => some .sync | 0x0C => some .ready | _ => none

def Reason.code : Reason → Nat
  | .unknownKind => 1 | .noSuchGen => 2 | .notReady => 3 | .stale => 4

def Reason.ofCode : Nat → Option Reason
  | 1 => some .unknownKind | 2 => some .noSuchGen | 3 => some .notReady | 4 => some .stale | _ => none

def AbandonReason.code : AbandonReason → Nat
  | .till => 1 | .tillRestart => 2 | .tillLost => 3 | .power => 4

def Method.code : Method → Nat
  | .cash => 1 | .card => 2 | .voucher => 3

def Method.ofCode : Nat → Option Method
  | 1 => some .cash | 2 => some .card | 3 => some .voucher | _ => none

def Layout.code : Layout → Nat
  | .price => 1 | .priceUnit => 2 | .priceUnitPromo => 3

def Layout.ofCode : Nat → Option Layout
  | 1 => some .price | 2 => some .priceUnit | 3 => some .priceUnitPromo | _ => none

def LabelState.code : LabelState → Nat
  | .current => 0 | .queued => 1 | .sent => 2 | .retryWait => 3 | .unreachable => 4

def LabelState.ofCode : Nat → LabelState
  | 0 => .current | 1 => .queued | 2 => .sent | 3 => .retryWait | _ => .unreachable

def Battery.code : Battery → Nat
  | .ok => 0 | .low => 1 | .critical => 2

def Battery.ofCode : Nat → Option Battery
  | 0 => some .ok | 1 => some .low | 2 => some .critical | _ => none

/-- The queue byte of a label entry: chapter 12 gives no codes; absent 0, URGENT 1, ROUTINE 2 (assumption 11). -/
def queueCode : Option PushQueue → Nat
  | none => 0 | some .urgent => 1 | some .routine => 2

def queueOfCode : Nat → Option PushQueue
  | 1 => some .urgent | 2 => some .routine | _ => none

/-! ### the branch frame body (R199) -/

/-- A branch body read: destination, kind code, address chain, hop count where there is one, payload. -/
structure BranchBody where
  dest : Byte
  kind : Nat
  chained : Bool
  chain : Bytes
  hop : Option Byte
  payload : Bytes
  deriving DecidableEq, Repr

/-- The chain through the first byte whose last mark (bit 0) is set, and what follows it. -/
def splitChain : Bytes → Option (Bytes × Bytes)
  | [] => none
  | b :: rest => if b.getLsbD 0 then some ([b], rest) else (splitChain rest).map fun r => (b :: r.1, r.2)

/-- A body without its CRC, read as R199 says. -/
def parseBody (bs : Bytes) : BranchBody :=
  let k := byteAt bs 1
  let base : BranchBody :=
    { dest := byteAt bs 0, kind := k.toNat % 128, chained := k.getLsbD 7, chain := [], hop := none, payload := [] }
  if k.getLsbD 7 then
    match splitChain (bs.drop 2) with
    | none => { base with chain := bs.drop 2 }
    | some (ch, rest) => { base with chain := ch, hop := rest.head?, payload := rest.drop 1 }
  else { base with hop := (bs.drop 2).head?, payload := bs.drop 3 }

def kindPresence : Nat := 0x01
def kindDatagram : Nat := 0x02
def kindPriceHead : Nat := 0x03
def kindPricePart : Nat := 0x04
def kindPriceEnd : Nat := 0x05
def kindRelease : Nat := 0x06
def kindClaim : Nat := 0x07
def kindCall : Nat := 0x08
def kindAnswer : Nat := 0x09
def kindData : Nat := 0x0A
def kindReceipt : Nat := 0x0B
def kindEnd : Nat := 0x0C
def kindRecall : Nat := 0x0D

/-- A branch kind the part knows (chapter 12). -/
def knownKind (k : Nat) : Bool := decide (1 ≤ k) && decide (k ≤ 0x0D)

/-- A body without an address chain: destination, kind, hop count 0, payload. -/
def plainBody (dest kind : Nat) (payload : Bytes) : Bytes :=
  BitVec.ofNat 8 dest :: BitVec.ofNat 8 kind :: 0 :: payload

/-- The all-stations destination. -/
def allStations : Nat := 255

/-- The origin byte of a DATAGRAM that has crossed the line once: the station in bits 1 to 4, the last mark set (R60). -/
def originByte (n : StationNo) : Byte := BitVec.ofNat 8 (n.val * 2 + 1)

/-- A DATAGRAM body (R61). -/
def datagramBody (dest : StationNo) (origin : Option StationNo) (packet : Bytes) : Bytes :=
  match origin with
  | none => plainBody dest.val kindDatagram packet
  | some o => BitVec.ofNat 8 dest.val :: BitVec.ofNat 8 (kindDatagram + 128) :: originByte o :: 1 :: packet

/-! ### PRESENCE (R49) -/

def presencePayload (d : PresenceData) : Bytes :=
  be 1 d.station ++ be 2 d.zone ++ be 1 d.joining.code ++ [d.flags] ++ be 4 d.activeGen ++ be 4 d.stagingGen ++
    be 1 d.stagingState.code ++ be 1 d.night.code ++ be 2 d.nightDay ++ be 4 d.firstUnreleased ++ be 4 d.nextSeq ++
    be 2 d.day ++ be 2 d.minute ++ be 1 d.second

/-- A PRESENCE payload read; none where the joining state, staging state or night state is not one of its codes (R50). -/
def parsePresence (p : Bytes) : Option PresenceData :=
  match Joining.ofCode (fieldAt p 3 1), StagingState.ofCode (fieldAt p 13 1), Night.ofCode (fieldAt p 14 1) with
  | some j, some st, some n =>
    some { station := fieldAt p 0 1, zone := fieldAt p 1 2, joining := j, flags := byteAt p 4,
           activeGen := fieldAt p 5 4, stagingGen := fieldAt p 9 4, stagingState := st, night := n,
           nightDay := fieldAt p 15 2, firstUnreleased := fieldAt p 17 4, nextSeq := fieldAt p 21 4,
           day := fieldAt p 25 2, minute := fieldAt p 27 2, second := fieldAt p 29 1 }
  | _, _, _ => none

/-- The whole PRESENCE body with its CRC, the only length R50 accepts. -/
def presenceBodyLength : Nat := 35

/-! ### call frames -/

def Request.kindCode : Request → Nat
  | .pull _ _ => 1 | .fetch _ _ _ => 2

def Request.maximum : Request → Nat
  | .pull _ m => m | .fetch _ _ c => c

def callPayload (tag : Byte) : Request → Bytes
  | .pull first mx => be 1 1 ++ [tag] ++ be 4 first ++ be 1 mx
  | .fetch g first count => be 1 2 ++ [tag] ++ be 4 g ++ be 2 first ++ be 2 count

/-- The request of a CALL payload; none where its kind is unknown or the request malformed (R22 case 2). A payload that is
not as long as its kind's layout is taken as malformed too (DESIGN CHOICE; assumption 55). -/
def parseRequest (p : Bytes) : Option Request :=
  if fieldAt p 0 1 = 1 ∧ p.length = 7 then
    let mx := fieldAt p 6 1
    if mx = 0 ∨ Config.pullMax < mx then none else some (.pull (fieldAt p 2 4) mx)
  else if fieldAt p 0 1 = 2 ∧ p.length = 10 then
    let c := fieldAt p 8 2
    let first := fieldAt p 6 2
    if c = 0 ∨ Config.fetchMax < c ∨ Config.bankSlots ≤ first then none else some (.fetch (fieldAt p 2 4) first c)
  else none

/-- The call tag of a CALL payload: a free value where the payload is too short to hold one (assumption 10). -/
def callTagOf (p : Bytes) : Byte := if p.length < 2 then Config.absentCallTag p else byteAt p 1

/-- ANSWER payloads: tag, verdict, recall tag or reason. -/
def answerPayload (tag : Byte) (verdict : Nat) (third : Byte) : Bytes := [tag, BitVec.ofNat 8 verdict, third]

/-- A verdict as the caller reads it (R23). -/
inductive Verdict where
  | accept | defer (recallTag : Byte) | busy | refuse (reason : Option Reason)
  deriving DecidableEq, Repr

/-- The verdict of an ANSWER payload; none where it is not one of its codes or the payload has another length (assumption 32).
A REFUSE whose reason is none of the codes is a REFUSE without a reason (DESIGN CHOICE; assumption 56). -/
def parseVerdict (p : Bytes) : Option Verdict :=
  if p.length = 3 then
    match fieldAt p 1 1 with
    | 0 => some .accept
    | 1 => some (.defer (byteAt p 2))
    | 2 => some .busy
    | 3 => some (.refuse (Reason.ofCode (fieldAt p 2 1)))
    | _ => none
  else none

def receiptPayload (tag : Byte) (good enough : Bool) : Bytes := [tag, markByte (!good), markByte enough]

/-- GOOD and ENOUGH of a RECEIPT payload. -/
def parseReceipt (p : Bytes) : Option (Bool × Bool) :=
  if p.length = 3 ∧ fieldAt p 1 1 ≤ 1 ∧ fieldAt p 2 1 ≤ 1 then
    some (decide (fieldAt p 1 1 = 0), decide (fieldAt p 2 1 = 1))
  else none

/-- A DATA payload of a JOURNAL PULL: tag, count, the callee's next sequence, records of 64. -/
def pullDataPayload (tag : Byte) (next : Nat) (records : List Bytes) : Bytes :=
  [tag] ++ be 1 records.length ++ be 4 next ++ records.flatten

/-- A DATA payload of a PRICE FETCH: tag, count, first index, the callee's N, records of 24. -/
def fetchDataPayload (tag : Byte) (first n : Nat) (records : List Bytes) : Bytes :=
  [tag] ++ be 1 records.length ++ be 2 first ++ be 2 n ++ records.flatten

/-- `count` records of `size` bytes. -/
def cutRecords (size : Nat) : Nat → Bytes → List Bytes
  | 0, _ => []
  | n + 1, bs => bs.take size :: cutRecords size n (bs.drop size)

/-- END payloads: tag, count sent, and the next sequence or N. -/
def endPayload (tag : Byte) (sent : Nat) (req : Request) (extra : Nat) : Bytes :=
  [tag] ++ be 2 sent ++ (match req with | .pull _ _ => be 4 extra | .fetch _ _ _ => be 2 extra)

def recallPayload (tag recallTag : Byte) (req : Request) : Bytes := [tag, recallTag] ++ be 1 req.kindCode

/-! ### price records and bank entries (chapter 12) -/

/-- A price record as it stands on the line: codes are not yet checked. -/
structure PriceRecord where
  code : Nat
  p : Nat
  kind : Nat
  ref : Nat
  promo : Nat
  value : Nat
  m : Nat
  c : Nat
  deriving DecidableEq, Repr

def priceRecordBytes : Nat := 24

def parsePriceRecord (bs : Bytes) : PriceRecord :=
  { code := fieldAt bs 0 6, p := fieldAt bs 6 4, kind := fieldAt bs 10 1, ref := fieldAt bs 11 1, promo := fieldAt bs 12 1,
    value := fieldAt bs 13 1, m := fieldAt bs 14 4, c := fieldAt bs 18 4 }

/-- The 22 bytes a record's CRC covers. -/
def PriceRecord.bytes (r : PriceRecord) : Bytes :=
  be 6 r.code ++ be 4 r.p ++ be 1 r.kind ++ be 1 r.ref ++ be 1 r.promo ++ be 1 r.value ++ be 4 r.m ++ be 4 r.c

/-- A bank entry (R71). `kind`: EACH 0, WEIGHT 1, VOLUME 2, LENGTH 3; `ref`: NONE 0, PER 1000 1, PER 100 2, PER PIECE 3;
`promo`: NONE 0, PERCENT 1, MULTIBUY 2; `recCrc`: the CRC of the record in staged form. -/
structure BankEntry where
  code : Nat
  p : Nat
  kind : Nat
  ref : Nat
  promo : Nat
  value : Nat
  m : Nat
  c : Nat
  recCrc : Nat
  held : Nat
  valid : Bool
  hold : Bool
  startKnown : Bool
  count : Nat
  startDay : Nat
  startMinute : Nat
  deriving DecidableEq, Repr

/-- The flags byte: VALID, HOLD, hold start known in bits 0, 1, 2 (assumption 11). -/
def BankEntry.flags (e : BankEntry) : Nat := bit e.valid + 2 * bit e.hold + 4 * bit e.startKnown

/-- The 32 bytes of an entry, its CRC written anew (R71). -/
def BankEntry.bytes (e : BankEntry) : Bytes :=
  withCrc (be 6 e.code ++ be 3 e.p ++ be 1 (e.kind * 16 + e.ref) ++ be 1 e.promo ++ be 1 e.value ++ be 3 e.m ++ be 3 e.c ++
    [BitVec.ofNat 8 e.recCrc, BitVec.ofNat 8 (e.recCrc / 256)] ++ be 3 e.held ++ be 1 e.flags ++ be 2 e.count ++
    be 2 e.startDay ++ be 2 e.startMinute)

def parseEntry (bs : Bytes) : BankEntry :=
  { code := fieldAt bs 0 6, p := fieldAt bs 6 3, kind := fieldAt bs 9 1 / 16, ref := fieldAt bs 9 1 % 16,
    promo := fieldAt bs 10 1, value := fieldAt bs 11 1, m := fieldAt bs 12 3, c := fieldAt bs 15 3,
    recCrc := crcField bs 18, held := fieldAt bs 20 3, valid := (byteAt bs 23).getLsbD 0,
    hold := (byteAt bs 23).getLsbD 1, startKnown := (byteAt bs 23).getLsbD 2, count := fieldAt bs 24 2,
    startDay := fieldAt bs 26 2, startMinute := fieldAt bs 28 2 }

/-- The record of an entry, as fetch service sends it (R35): the valid entry's fields, or a record marked not valid by an
item code of 0 (assumption 11). -/
def BankEntry.record (e : BankEntry) : Bytes :=
  if e.valid then
    withCrc ({ code := e.code, p := e.p, kind := e.kind, ref := e.ref, promo := e.promo, value := e.value, m := e.m,
               c := e.c } : PriceRecord).bytes
  else withCrc (List.replicate 22 0)

/-! ### journal records (R118, R124) -/

def Content.kindCode : Content → Nat
  | .saleOpen _ => 0 | .item .. => 1 | .discount .. => 2 | .reversal .. => 3 | .void .. => 4 | .tender .. => 5
  | .saleClose .. => 6 | .saleAbandon .. => 7 | .holdReleased .. => 8 | .priceActivated .. => 9 | .stationReport .. => 10

/-- The content fields in the order of R124, in the widths of the till replies. -/
def Content.bytes : Content → Bytes
  | .saleOpen g => be 4 g
  | .item sale line code q price amount g marks =>
    be 4 sale ++ be 2 line ++ be 6 code ++ be 3 q ++ be 3 price ++ be 4 amount ++ be 4 g ++
      [markByte marks.hold, markByte marks.noTally, markByte marks.stale]
  | .discount sale line code groups amount => be 4 sale ++ be 2 line ++ be 6 code ++ be 2 groups ++ be 4 amount
  | .reversal sale line code groups amount => be 4 sale ++ be 2 line ++ be 6 code ++ be 2 groups ++ be 4 amount
  | .void sale line code q amount => be 4 sale ++ be 2 line ++ be 6 code ++ be 3 q ++ be 4 amount
  | .tender sale method amount => be 4 sale ++ be 1 method.code ++ be 4 amount
  | .saleClose sale running tenders change => be 4 sale ++ be 4 running ++ be 4 tenders ++ be 4 change
  | .saleAbandon sale reason running tenders fromOpen =>
    be 4 sale ++ be 1 reason.code ++ be 4 running ++ be 4 tenders ++ [markByte fromOpen]
  | .holdReleased code held count => be 6 code ++ be 3 held ++ be 2 count
  | .priceActivated g previous n holds => be 4 g ++ be 4 previous ++ be 2 n ++ be 2 holds
  | .stationReport part zone fields => be 1 part ++ be 2 zone ++ padTo 50 fields

/-- The 64 bytes of a record (R118): minute in the upper 11 bits, time valid in the next, kind in the lower 4. -/
def recordBytes (seq till day minute : Nat) (timeValid : Bool) (c : Content) : Bytes :=
  withCrc (be 4 seq ++ be 1 till ++ be 2 day ++ be 2 (minute * 32 + bit timeValid * 16 + c.kindCode) ++ padTo 53 c.bytes)

/-- What the scan and the readers need of a stored record. -/
structure StoredRecord where
  seq : Nat
  till : Nat
  kind : Nat
  content : Bytes
  deriving DecidableEq, Repr

def parseRecord (bs : Bytes) : StoredRecord :=
  { seq := fieldAt bs 0 4, till := fieldAt bs 4 1, kind := fieldAt bs 7 2 % 16, content := sub bs 9 53 }

/-! ### label contents and label entries (R133, R134) -/

def Shown.bytes : Shown → Bytes
  | .value n => be 3 n
  | .over => be 3 0xFFFFFF
  | .none => be 3 0xFFFFFE

def parseShown (n : Nat) : Shown := if n = 0xFFFFFF then .over else if n = 0xFFFFFE then .none else .value n

/-- The 12 bytes of a content; the fields a kind does not carry are 0. -/
def LabelContent.bytes : LabelContent → Bytes
  | .priced main unit mark =>
    be 1 1 ++ main.bytes ++ unit.bytes ++
      (match mark with
       | .none => List.replicate 5 0
       | .was v => [1, 0] ++ v.bytes
       | .nFor n v => be 1 2 ++ be 1 n ++ v.bytes)
  | .blank => be 1 2 ++ List.replicate 11 0
  | .unknown => be 1 3 ++ List.replicate 11 0

def parseContent (bs : Bytes) : LabelContent :=
  match fieldAt bs 0 1 with
  | 1 =>
    let mark : PromoMark := match fieldAt bs 7 1 with
      | 1 => .was (parseShown (fieldAt bs 9 3))
      | 2 => .nFor (fieldAt bs 8 1) (parseShown (fieldAt bs 9 3))
      | _ => .none
    .priced (parseShown (fieldAt bs 1 3)) (parseShown (fieldAt bs 4 3)) mark
  | 2 => .blank
  | _ => .unknown

/-- The 48 bytes of an entry in use. -/
def LabelEntry.bytes (e : LabelEntry) : Bytes :=
  withCrc (be 3 e.id ++ be 6 e.item ++ be 1 e.layout.code ++ be 1 e.state.code ++ be 1 (queueCode e.queue) ++
    [e.tag.getD 0] ++ be 1 e.attempts ++ be 1 e.battery.code ++ be 1 e.signal ++ [markByte e.walked] ++
    [markByte e.sent.isSome] ++ e.shown.bytes ++ (e.sent.map LabelContent.bytes).getD (List.replicate 12 0) ++
    be 4 (e.due.getD 0))

/-- An entry read; the order tag is held while SENT and the due time while RETRY WAIT (R133). A stored byte that is none of its codes is
read as UNREACHABLE, PRICE, OK, no queue, or UNKNOWN content with no promotion (DESIGN CHOICE, unsafe; assumption 88). -/
def parseLabel (bs : Bytes) : LabelEntry :=
  let st := LabelState.ofCode (fieldAt bs 10 1)
  { id := fieldAt bs 0 3, item := fieldAt bs 3 6, layout := (Layout.ofCode (fieldAt bs 9 1)).getD .price, state := st,
    queue := queueOfCode (fieldAt bs 11 1), shown := parseContent (sub bs 18 12),
    sent := if fieldAt bs 17 1 = 1 then some (parseContent (sub bs 30 12)) else none,
    tag := if st = .sent then some (byteAt bs 12) else none, attempts := fieldAt bs 13 1,
    due := if st = .retryWait then some (fieldAt bs 42 4) else none,
    battery := (Battery.ofCode (fieldAt bs 14 1)).getD .ok, signal := fieldAt bs 15 1,
    walked := decide (fieldAt bs 16 1 = 1) }

/-! ### guest entries (R155): no CRC -/

/-- The 32 bytes of an ADMITTED entry. -/
def Guest.bytes (g : Guest) : Bytes :=
  be 6 g.device ++ be 1 1 ++ be 4 g.admitted ++ be 4 g.lastActive ++ be 2 g.tokens ++ be 4 g.up ++ be 4 g.down ++
    be 2 g.drops ++ [markByte g.limited.isSome] ++ be 4 (g.limited.getD 0)

/-- An entry read: none where FREE. -/
def parseGuest (bs : Bytes) : Option Guest :=
  if fieldAt bs 6 1 = 1 then
    some { device := fieldAt bs 0 6, admitted := fieldAt bs 7 4, lastActive := fieldAt bs 11 4, tokens := fieldAt bs 15 2,
           up := fieldAt bs 17 4, down := fieldAt bs 21 4, drops := fieldAt bs 25 2,
           limited := if fieldAt bs 27 1 = 1 then some (fieldAt bs 28 4) else none }
  else none

/-! ### the store header (R192) -/

def validityMark : Bytes := [0xA5, 0x5A, 0xC3]

def HeaderCopy.bytes (h : HeaderCopy) : Bytes :=
  withCrc (validityMark ++ be 1 (match h.active with | .a => 0 | .b => 1) ++ be 4 h.activeGen ++ be 2 h.activeCount ++
    be 4 h.stagingGen ++ be 1 h.stagingState.code ++ be 2 (h.n.getD 0) ++ be 2 h.effDay ++ be 2 h.effMinute ++
    [markByte h.fileCheck.isSome] ++ be 4 (h.fileCheck.getD 0) ++ be 4 h.release)

/-- A store header read: none where the validity mark or the CRC fails (R41). In one that passes both, a staging state byte of no
known code is taken as EMPTY, an active bank byte other than 1 as bank A, and a file check mark other than 1 as not known (DESIGN
CHOICE, unsafe; assumption 77). -/
def parseHeader (bs : Bytes) : Option HeaderCopy :=
  if sub bs 0 3 = validityMark ∧ bs.length = 32 ∧ crcGood bs then
    some { active := if fieldAt bs 3 1 = 1 then .b else .a, activeGen := fieldAt bs 4 4, activeCount := fieldAt bs 8 2,
           stagingGen := fieldAt bs 10 4, stagingState := (StagingState.ofCode (fieldAt bs 14 1)).getD .empty,
           n := if fieldAt bs 15 2 = 0 then none else some (fieldAt bs 15 2), effDay := fieldAt bs 17 2,
           effMinute := fieldAt bs 19 2, fileCheck := if fieldAt bs 21 1 = 1 then some (fieldAt bs 22 4) else none,
           release := fieldAt bs 26 4 }
  else none

/-! ### the configuration block (R37) -/

/-- The upper `len` bits of a 32-bit value, the rest 0 (R54). -/
def maskTo (len v : Nat) : Nat := v / 2 ^ (32 - len) * 2 ^ (32 - len)

/-- One static entry of 7 bytes; none where its length or exit is out of range. -/
def parseStatic (bs : Bytes) : Option StaticRoute :=
  let len := fieldAt bs 4 1
  let exit : Option Exit := match fieldAt bs 5 1 with
    | 0 => some .localGuest
    | 1 => some .trunk
    | 2 => if h : fieldAt bs 6 1 < 16 then some (.station ⟨fieldAt bs 6 1, h⟩) else none
    | 3 => some .discard
    | _ => none
  if len ≤ 32 then exit.map fun e => { value := maskTo len (fieldAt bs 0 4), len := len, exit := e } else none

/-- The first `n` static entries; none where one of them fails. -/
def parseStatics : Nat → Bytes → Option (List StaticRoute)
  | 0, _ => some []
  | n + 1, bs =>
    match parseStatic (bs.take 7), parseStatics n (bs.drop 7) with
    | some s, some rest => some (s :: rest)
    | _, _ => none

/-- The block passes when its CRC ends at the residue and every field lies within its range (R37). -/
def parseConfig (bs : Bytes) : Option ConfigBlock :=
  let start := fieldAt bs 14 2
  let length := fieldAt bs 16 2
  let hold := fieldAt bs 18 1
  let level := fieldAt bs 19 1
  let count := fieldAt bs 20 1
  let rate := fieldAt bs 5 1
  if h : bs.length = 256 ∧ crcGood bs = true ∧ fieldAt bs 0 1 < 16 ∧ (rate = 1 ∨ rate = 2) ∧ start ≤ 1439 ∧
      (30 ≤ length ∧ length ≤ 480) ∧ (1 ≤ hold ∧ hold ≤ 168) ∧ level ≤ 15 ∧ count ≤ 8 then
    (parseStatics count (bs.drop 21)).map fun statics =>
      { station := ⟨fieldAt bs 0 1, h.2.2.1⟩, zone := fieldAt bs 1 2, branchCode := fieldAt bs 3 2,
        fastLine := decide (rate = 2), trunkFitted := (byteAt bs 6).getLsbD 0, labelFitted := (byteAt bs 6).getLsbD 1,
        guestFitted := (byteAt bs 6).getLsbD 2, enableMask := byteAt bs 7, supervisorMask := byteAt bs 8,
        guestPrefix := fieldAt bs 9 3 / 16, gDay := fieldAt bs 12 1, gNight := fieldAt bs 13 1, nightStart := start,
        nightLength := length, holdLimit := hold, supplyLevel := level, statics := statics }
  else none

/-! ### till frames (R94, R95) -/

def stx : Byte := 0x02
def etx : Byte := 0x03
def dle : Byte := 0x10

/-- Content bytes as sent between STX and ETX (R94). -/
def escape : Bytes → Bytes
  | [] => []
  | b :: bs => if b = stx ∨ b = etx ∨ b = dle then dle :: (b ^^^ 0x20#8) :: escape bs else b :: escape bs

/-- A whole frame on a till line: STX, content, ETX. -/
def tillFrame (content : Bytes) : Bytes := stx :: escape content ++ [etx]

/-- Content bytes a frame may gather (R95). -/
def contentMost : Nat := 64

/-- Characters read up to the ETX (R95): how many frames were dropped on the way, and the content of the frame the ETX
closes. `acc` is what an open frame holds, newest first, and none where no frame is open. -/
def gather : Option Bytes → Nat → Bytes → Nat × Option Bytes
  | acc, bad, [] => (bad, acc.map List.reverse)
  | none, bad, b :: rest => gather (if b = stx then some [] else none) bad rest
  | some acc, bad, b :: rest =>
    if b = stx then gather (some []) bad rest
    else if b = etx then (bad, some acc.reverse)
    else if b = dle then
      match rest with
      | [] => (bad + 1, none)
      | c :: rest' =>
        if c = stx then gather (some []) (bad + 1) rest'
        else if c = etx then (bad + 1, none)
        else if acc.length < contentMost then gather (some ((c ^^^ 0x20#8) :: acc)) bad rest'
        else gather none (bad + 1) rest'
    else if acc.length < contentMost then gather (some (b :: acc)) bad rest
    else gather none (bad + 1) rest

/-- The request kinds of a till (chapter 12). -/
inductive TillKind where
  | lookup | openSale | line | void | tender | close | abandon | status | bind | unbind | query | retry
  deriving DecidableEq, Repr

def TillKind.ofCode : Nat → Option TillKind
  | 1 => some .lookup | 2 => some .openSale | 3 => some .line | 4 => some .void | 5 => some .tender | 6 => some .close
  | 7 => some .abandon | 8 => some .status | 9 => some .bind | 10 => some .unbind | 11 => some .query | 12 => some .retry
  | _ => none

/-- The length of a request's body (chapter 12). -/
def TillKind.bodyLength : TillKind → Nat
  | .lookup | .line => 9
  | .openSale | .close | .abandon | .status => 0
  | .void => 2
  | .tender => 5
  | .bind => 10
  | .unbind | .query | .retry => 3

/-- The result codes (chapter 12). -/
inductive Result where
  | ok | wrongState | busy | notFound | overLimit | limit | full | short | notReady | badRequest | notPermitted
  deriving DecidableEq, Repr

def Result.code : Result → Nat
  | .ok => 0 | .wrongState => 1 | .busy => 2 | .notFound => 3 | .overLimit => 4 | .limit => 5 | .full => 6 | .short => 7
  | .notReady => 8 | .badRequest => 9 | .notPermitted => 10

/-! ### packets and the link frames -/

/-- The header of a packet: its length field, destination and source. -/
def packetLength (p : Bytes) : Nat := fieldAt p 0 2
def packetDest (p : Bytes) : Nat := fieldAt p 2 4
def packetSource (p : Bytes) : Nat := fieldAt p 6 4

/-- The packet with this source address in its header (R159). -/
def withSource (a : Nat) (p : Bytes) : Bytes := p.take 6 ++ be 4 a ++ p.drop 10

/-- Frame kinds of the three links: the first body byte. -/
def linkOrder : Nat := 1
def linkReport : Nat := 2
def linkNotice : Nat := 3
def linkHeadStatus : Nat := 4
def guestUpKind : Nat := 1
def guestDownKind : Nat := 2
def guestNoticeKind : Nat := 3
def radioStatusKind : Nat := 4
def trunkPacketKind : Nat := 1
def trunkExchangeKind : Nat := 2

def orderBytes (tag : Byte) (id : Nat) (c : LabelContent) : Bytes := be 1 linkOrder ++ [tag] ++ be 3 id ++ c.bytes

/-- The guest notices (R161). -/
inductive GuestNotice where
  | admitted | refusedFull | limited | ended | endedAll
  deriving DecidableEq, Repr

def GuestNotice.code : GuestNotice → Nat
  | .admitted => 1 | .refusedFull => 2 | .limited => 3 | .ended => 4 | .endedAll => 5

/-- Why a guest was ended (R162, R163). -/
inductive EndReason where
  | idle | replaced | night | radio
  deriving DecidableEq, Repr

def EndReason.code : EndReason → Nat
  | .idle => 1 | .replaced => 2 | .night => 3 | .radio => 0

/-- The reason of ENDED ALL. -/
def reasonReset : Nat := 4

def noticeBytes (n : GuestNotice) (device index address reason up down drops : Nat) : Bytes :=
  be 1 guestNoticeKind ++ be 1 n.code ++ be 6 device ++ be 1 index ++ be 4 address ++ be 1 reason ++ be 4 up ++ be 4 down ++
    be 2 drops

/-! ### EXCHANGE messages (R166) -/

/-- The messages of head office that a holder can take, with their fields. -/
inductive Message where
  | welcome (day minute second : Nat) (follows : Bool)
  | blockAck (station : Nat) (seq : Nat)
  | fileHead (payload : Bytes)
  | filePart (payload : Bytes)
  | fileEnd (payload : Bytes)
  deriving DecidableEq, Repr

/-- The fields of an EXCHANGE body after its frame kind; none where the message or its length is none of those. The station of
a BLOCK ACK is the number its byte holds: one of 16 or more has no upload entry (R180). -/
def parseMessage (bs : Bytes) : Option Message :=
  let f := bs.drop 1
  match fieldAt bs 0 1 with
  | 2 =>
    if f.length = 6 ∧ fieldAt f 2 2 ≤ 1439 ∧ fieldAt f 4 1 ≤ 59 ∧ fieldAt f 5 1 ≤ 1 then
      some (.welcome (fieldAt f 0 2) (fieldAt f 2 2) (fieldAt f 4 1) (decide (fieldAt f 5 1 = 1)))
    else none
  | 4 =>
    if f.length = 5 then some (.blockAck (fieldAt f 0 1) (fieldAt f 1 4)) else none
  | 6 => some (.fileHead f)
  | 7 => some (.filePart f)
  | 8 => some (.fileEnd f)
  | _ => none

def exchangeBytes (message : Nat) (fields : Bytes) : Bytes := be 1 trunkExchangeKind ++ be 1 message ++ fields

def helloBytes (branchCode station activeGen firstUnreleased : Nat) (cold : Bool) (nightDay : Nat) : Bytes :=
  exchangeBytes 1 (be 2 branchCode ++ be 1 station ++ be 4 activeGen ++ be 4 firstUnreleased ++ [markByte cold] ++ be 2 nightDay)

def uploadEndBytes (done skipped failed : Nat) : Bytes := exchangeBytes 5 (be 1 done ++ be 1 skipped ++ be 1 failed)

/-- BYE: outcome DONE 1 or CUT 3. -/
def byeBytes (done : Bool) : Bytes := exchangeBytes 9 (be 1 (if done then 1 else 3))

/-- The front of a BLOCK: message, station, first sequence, real count. -/
def blockFront (station first count : Nat) : Bytes := exchangeBytes 3 (be 1 station ++ be 4 first ++ be 1 count)

/-- Where the record places of a BLOCK begin in its buffer. -/
def blockFrontBytes : Nat := 8

end Sys2Proof.Machine
end

