-- ==== Sys2Proof/Machine/Flags.lean ====
section
/-! DEFINITION. What the blocks read of each other without changing anything: the serving level and the permissions of each
joining state (R48), the flags of a PRESENCE (R49), the derived journal counts (R119), the night window (R167) and the
clock comparisons. -/

namespace Sys2Proof.Machine

/-! ### the clock (R52; chapter 00, "the station clock") -/

/-- Seconds from the start of day 0. -/
def clockSeconds (day minute second : Nat) : Nat := day * 86400 + minute * 60 + second

/-- A time is at or past another (chapter 00). -/
def Clock.atOrPast (c : Clock) (day minute second : Nat) : Bool :=
  decide (day < c.day) ||
    (decide (c.day = day) && (decide (minute < c.minute) || (decide (c.minute = minute) && decide (second ≤ c.second))))

/-- One second further (R52). -/
def Clock.advance (c : Clock) : Clock :=
  if c.second < 59 then { c with second := c.second + 1 }
  else if c.minute < 1439 then { c with second := 0, minute := c.minute + 1 }
  else { c with second := 0, minute := 0, day := (c.day + 1) % 65536 }

/-! ### the joining state (R48) -/

/-- The till serving level; `noReply` where the till ports answer nothing. -/
inductive Serving where
  | noReply | none | stale | full
  deriving DecidableEq, Repr

/-- STALE where the start was warm, NONE where it was cold. -/
def servingByStart (cold : Bool) : Serving := if cold then .none else .stale

/-- The till serving level of the table of R48. -/
def Part.serving (p : Part) : Serving :=
  match p.pres.joining with
  | .start | .config | .configFault => .noReply
  | .selfTest | .memory | .journalScan | .duplicate => .none
  | .lineFault | .listen | .announcing => servingByStart p.pres.coldStarted
  | .sync => if p.pres.switched then .stale else servingByStart p.pres.coldStarted
  | .ready => .full

def Serving.code : Serving → Nat
  | .full => 0 | .stale => 1 | .none => 2 | .noReply => 2

/-- Replies carry STALE (R48). -/
def Part.staleServed (p : Part) : Bool := decide (p.serving = .stale)

/-- The branch filter keeps frames (R48). -/
def Joining.filterKeeps : Joining → Bool
  | .listen | .duplicate | .announcing | .sync | .ready => true
  | .start | .config | .configFault | .selfTest | .memory | .journalScan | .lineFault => false

/-- A PRESENCE is sent at each tick (R48). -/
def Joining.sendsPresence : Joining → Bool
  | .announcing | .sync | .ready => true
  | .start | .config | .configFault | .selfTest | .memory | .journalScan | .lineFault | .listen | .duplicate => false

/-- Label orders are sent (R48). -/
def Joining.labelOrders : Joining → Bool
  | .lineFault | .listen | .announcing | .sync | .ready => true
  | .start | .config | .configFault | .selfTest | .memory | .journalScan | .duplicate => false

/-- Guests are admitted (R48). -/
def Joining.guestAdmission (j : Joining) : Bool := j.sendsPresence

/-- The station takes part in the night exchange (R48), and serves calls (R34, R35). -/
def Joining.nightExchange : Joining → Bool
  | .sync | .ready => true
  | .start | .config | .configFault | .selfTest | .memory | .journalScan | .lineFault | .listen | .duplicate
  | .announcing => false

/-- The part is past CONFIG: the configuration block stands. -/
def Part.ownStation (p : Part) : StationNo := (p.cfg.map (·.station)).getD 0

/-- The branch transmitter is enabled (R11). -/
def Part.txEnabled (p : Part) : Bool := decide (p.branch.tx ≠ .disabled)

/-- A conf mark, clear before the block passes. -/
def Part.trunkFitted (p : Part) : Bool := (p.cfg.map (·.trunkFitted)).getD false
def Part.labelFitted (p : Part) : Bool := (p.cfg.map (·.labelFitted)).getD false
def Part.guestFitted (p : Part) : Bool := (p.cfg.map (·.guestFitted)).getD false

/-- A till port is enabled by the mask (R37). -/
def Part.portEnabled (p : Part) (n : PortNo) : Bool := (p.cfg.map fun c => c.enableMask.getLsbD n.val).getD false
/-- A supervisor port: its mark has no effect where the port is disabled (R37). -/
def Part.supervisor (p : Part) (n : PortNo) : Bool :=
  (p.cfg.map fun c => c.supervisorMask.getLsbD n.val && c.enableMask.getLsbD n.val).getD false

/-- The supply threshold level in use: the first level until the configuration block passes and in CONFIG FAULT, then the
configured one (R193). -/
def Part.supplyThreshold (p : Part) : Nat := (p.cfg.map (·.supplyLevel)).getD Config.firstThreshold

/-! ### the journal's derived counts (R119) -/

def Journal.occupied (j : Journal) : Nat := j.next - 1 - j.release
def Journal.free (j : Journal) : Nat := Config.ringSlots - j.occupied
/-- The journal high condition. -/
def Journal.high (j : Journal) : Bool := decide (Config.journalHigh ≤ j.occupied)
/-- The highest release already taken (R129). -/
def Journal.highestTaken (j : Journal) : Nat := j.pending.getD j.release

/-! ### peers -/

def Part.peer (p : Part) (n : StationNo) : Peer := p.pres.peers[n.val]

/-- The sixteen station numbers in rising order. -/
def stations : List StationNo :=
  [0, 1, 2, 3, 4, 5, 6, 7, 8, 9, 10, 11, 12, 13, 14, 15]

/-- The contents shown by a peer in PRESENT. -/
def Part.shown (p : Part) (n : StationNo) : Option PresenceData :=
  if (p.peer n).state = .present then (p.peer n).last else none

/-- The branch generation: the highest active generation of a PRESENT peer (R45). -/
def Part.branchGeneration (p : Part) : Option Nat :=
  (stations.filterMap p.shown).foldl (fun best d => some (max (best.getD 0) d.activeGen)) none

/-- A presence that shows generation g as active, or staged in COMPLETE or ACTIVATING (R46). -/
def PresenceData.shows (d : PresenceData) (g : Nat) : Bool :=
  decide (d.activeGen = g) ||
    (decide (d.stagingGen = g) && (decide (d.stagingState = .complete) || decide (d.stagingState = .activating)))

/-- The source peers of a generation (R46, R84). -/
def Part.sources (p : Part) (g : Nat) : List StationNo :=
  stations.filter fun n => ((p.shown n).map (·.shows g)).getD false

/-! ### the flags of a PRESENCE (R49) -/

def Part.presenceFlags (p : Part) : Byte :=
  BitVec.ofNat 8
    (bit p.trunkFitted + 2 * bit (decide (p.trk.line = .up)) + 4 * bit (p.labelFitted && p.lab.headUp) +
      8 * bit (p.guestFitted && p.gst.radioUp) + 16 * bit p.pres.coldStarted + 32 * bit p.pres.dupSeen +
      64 * bit p.jrn.high + 128 * bit p.pres.clock.valid)

/-- The trunk up flag of a presence (R57). -/
def PresenceData.trunkUp (d : PresenceData) : Bool := d.flags.getLsbD 1
/-- The trunk fitted flag. -/
def PresenceData.trunkFitted (d : PresenceData) : Bool := d.flags.getLsbD 0
/-- The time valid flag. -/
def PresenceData.timeValid (d : PresenceData) : Bool := d.flags.getLsbD 7

/-- The contents of a PRESENCE built now (R49). -/
def Part.presenceData (p : Part) : PresenceData :=
  { station := p.ownStation.val
    zone := (p.cfg.map (·.zone)).getD 0
    joining := p.pres.joining
    flags := p.presenceFlags
    activeGen := p.price.activeGen
    stagingGen := if p.price.staging.state = .empty then 0 else p.price.staging.generation
    stagingState := p.price.staging.state
    night := p.trk.night
    nightDay := p.trk.nightDay
    firstUnreleased := p.jrn.release + 1
    nextSeq := p.jrn.next
    day := if p.pres.clock.valid then p.pres.clock.day else 0
    minute := if p.pres.clock.valid then p.pres.clock.minute else 0
    second := if p.pres.clock.valid then p.pres.clock.second else 0 }

/-! ### who may act -/

/-- The part takes events: RUNNING, no stop under way, the reset pin not asserted (R194, R196; assumption 14). -/
def Supply.takesEvents (s : Supply) : Bool := decide (s.watch = .running) && !s.stopping && !s.pin

end Sys2Proof.Machine
end

