-- ==== Sys2Proof/Machine/Ops.lean ====
section
/-! DEFINITION. The operations every family shares: setting one block of the part, memory bursts, buffers, the transmit queues
of the four lines, turn frames, the store header, appends to the journal, the arbiter, and how a command is run. -/

namespace Sys2Proof.Machine

/-! ### setting one block -/

def Part.modBranch (f : Branch → Branch) (p : Part) : Part := { p with branch := f p.branch }
def Part.modFwd (f : Forwarding → Forwarding) (p : Part) : Part := { p with fwd := f p.fwd }
def Part.modCall (f : Calls → Calls) (p : Part) : Part := { p with call := f p.call }
def Part.modPres (f : Presence → Presence) (p : Part) : Part := { p with pres := f p.pres }
def Part.modPrice (f : Pricing → Pricing) (p : Part) : Part := { p with price := f p.price }
def Part.modTill (f : Tills → Tills) (p : Part) : Part := { p with till := f p.till }
def Part.modJrn (f : Journal → Journal) (p : Part) : Part := { p with jrn := f p.jrn }
def Part.modLab (f : Labels → Labels) (p : Part) : Part := { p with lab := f p.lab }
def Part.modGst (f : Guests → Guests) (p : Part) : Part := { p with gst := f p.gst }
def Part.modTrk (f : Trunk → Trunk) (p : Part) : Part := { p with trk := f p.trk }
def Part.modHdr (f : HeaderUnit → HeaderUnit) (p : Part) : Part := { p with hdr := f p.hdr }
def Part.modMem (f : MemCounters → MemCounters) (p : Part) : Part := { p with memCtr := f p.memCtr }
def Part.modAsks (f : Asks → Asks) (p : Part) : Part := { p with asks := f p.asks }
def Part.modDram (f : Mem → Mem) (p : Part) : Part := { p with dram := f p.dram }
def Part.modWritten (f : Mem → Mem) (p : Part) : Part := { p with written := f p.written }

/-- The framer of a line. -/
def Part.framer (p : Part) : Line → Framer
  | .branch => p.branch.framer | .trunk => p.trunkFramer | .label => p.labelFramer | .guest => p.guestFramer

def Part.modFramer (l : Line) (f : Framer → Framer) (p : Part) : Part :=
  match l with
  | .branch => p.modBranch fun b => { b with framer := f b.framer }
  | .trunk => { p with trunkFramer := f p.trunkFramer }
  | .label => { p with labelFramer := f p.labelFramer }
  | .guest => { p with guestFramer := f p.guestFramer }

/-- The sending half of a line's framer. -/
def Part.sender (p : Part) : Line → Sender
  | .branch => p.branch.sender | .trunk => p.links.trunk | .label => p.links.label | .guest => p.links.guest

def Part.modSender (l : Line) (f : Sender → Sender) (p : Part) : Part :=
  match l with
  | .branch => p.modBranch fun b => { b with sender := f b.sender }
  | .trunk => { p with links := { p.links with trunk := f p.links.trunk } }
  | .label => { p with links := { p.links with label := f p.links.label } }
  | .guest => { p with links := { p.links with guest := f p.links.guest } }

def Part.countLine (l : Line) (f : LineCounters → LineCounters) (p : Part) : Part :=
  p.modFramer l fun fr => { fr with ctr := f fr.ctr }

def Part.countFwd (f : FwdCounters → FwdCounters) (p : Part) : Part := p.modFwd fun x => { x with ctr := f x.ctr }
def Part.countCall (f : CallCounters → CallCounters) (p : Part) : Part := p.modCall fun x => { x with ctr := f x.ctr }
def Part.countPres (f : PresCounters → PresCounters) (p : Part) : Part := p.modPres fun x => { x with ctr := f x.ctr }
def Part.countPrice (f : PriceCounters → PriceCounters) (p : Part) : Part := p.modPrice fun x => { x with ctr := f x.ctr }
def Part.countTill (f : TillCounters → TillCounters) (p : Part) : Part := p.modTill fun x => { x with ctr := f x.ctr }
def Part.countJrn (f : JournalCounters → JournalCounters) (p : Part) : Part := p.modJrn fun x => { x with ctr := f x.ctr }
def Part.countLab (f : LabelCounters → LabelCounters) (p : Part) : Part := p.modLab fun x => { x with ctr := f x.ctr }
def Part.countGst (f : GuestCounters → GuestCounters) (p : Part) : Part := p.modGst fun x => { x with ctr := f x.ctr }
def Part.countTrk (f : TrunkCounters → TrunkCounters) (p : Part) : Part := p.modTrk fun x => { x with ctr := f x.ctr }

/-! ### bursts presented (R188) -/

def Asks.of (a : Asks) : Req → List Asked
  | .line => a.line | .trunk => a.trunk | .till => a.till | .price => a.price | .label => a.label | .guest => a.guest

def Asks.set (a : Asks) (r : Req) (l : List Asked) : Asks :=
  match r with
  | .line => { a with line := l } | .trunk => { a with trunk := l } | .till => { a with till := l }
  | .price => { a with price := l } | .label => { a with label := l } | .guest => { a with guest := l }

/-- The requester a user presents its bursts at: the table of R188. -/
def BurstUser.req : BurstUser → Req
  | .lineReceive | .lineSend | .lineBuild | .pull => .line
  | .trunkReceive | .trunkSend | .trunkBlock => .trunk
  | .lookup _ | .journal | .journalHeader => .till
  | .staging | .bank | .fetchService | .pricingHeader | .memory => .price
  | .labelReceive | .labelSend | .labelTable | .labelContent => .label
  | .guestReceive | .guestSend | .guestTable | .rewrite => .guest

/-- The user that empties the receive FIFO of a line (R14). -/
def Line.receiver : Line → BurstUser
  | .branch => .lineReceive | .trunk => .trunkReceive | .label => .labelReceive | .guest => .guestReceive

/-- The user that fills the transmit staging area of a line (R6, R12). -/
def Line.transmitter : Line → BurstUser
  | .branch => .lineSend | .trunk => .trunkSend | .label => .labelSend | .guest => .guestSend

/-- The bursts a user has not finished, but for one that has the port. -/
def Asked.toks (x : Asked) : List Tok := x.now.toList ++ x.later

/-- A user's bursts in order: the first is asked now. -/
def askedBy (u : BurstUser) : List Tok → List Asked
  | [] => []
  | t :: rest => [⟨u, some t, rest⟩]

/-- One more burst of a user: behind those asked before where it has none to make, else after its own (R188). -/
def joinAsked (u : BurstUser) (t : Tok) : List Asked → List Asked
  | [] => askedBy u [t]
  | x :: xs => if x.user = u then { x with later := x.later ++ [t] } :: xs else x :: joinAsked u t xs

/-- A user asks for a burst (R188). -/
def Part.ask (u : BurstUser) (t : Tok) (p : Part) : Part := p.modAsks fun a => a.set u.req (joinAsked u t (a.of u.req))

/-- Bursts that write are asked, where there are any. -/
def Part.askStore (u : BurstUser) (parts : List (Nat × Bytes)) (p : Part) : Part :=
  match parts with
  | [] => p
  | _ :: _ => p.ask u (.store parts)

/-- Burst `t` leaves a user's bursts. -/
def Asked.drop (t : Tok) (x : Asked) : List Asked :=
  match x.now with
  | none => [{ x with later := x.later.filter fun k => decide (k ≠ t) }]
  | some _ => askedBy x.user (x.toks.filter fun k => decide (k ≠ t))

/-- A burst that no longer has an owner is not asked any more. -/
def Part.unask (u : BurstUser) (t : Tok) (p : Part) : Part :=
  p.modAsks fun a => a.set u.req ((a.of u.req).flatMap fun x => if x.user = u then x.drop t else [x])

/-- A user is to make this burst, and it does not have the port yet. -/
def Asks.has (a : Asks) (u : BurstUser) (t : Tok) : Bool :=
  (a.of u.req).any fun x => decide (x.user = u) && decide (t ∈ x.toks)

/-- A user has no burst to make, and none of its bursts has the port. -/
def Asks.idle (a : Asks) (u : BurstUser) : Bool := (a.of u.req).all fun x => decide (x.user ≠ u)

/-- The burst a requester presents: the one asked first (R188). -/
def Asks.presented (a : Asks) (r : Req) : Option (BurstUser × Tok) :=
  (a.of r).findSome? fun x => x.now.map fun t => (x.user, t)

/-- The first burst asked has the port. -/
def grantFirst : List Asked → List Asked
  | [] => []
  | x :: xs => if x.now.isSome then { x with now := none } :: xs else x :: grantFirst xs

/-- A user's burst has finished: it asks its next one, first what is left of the same store, wipe or read; behind those asked
before (R188). -/
def Part.released (u : BurstUser) (more : List Tok) (p : Part) : Part :=
  p.modAsks fun a =>
    let own := (a.of u.req).filter fun x => decide (x.user = u)
    let others := (a.of u.req).filter fun x => decide (x.user ≠ u)
    a.set u.req (others ++ askedBy u (more ++ own.flatMap Asked.toks))

/-! ### memory (R187) -/

def Part.read (p : Part) (a n : Nat) : Bytes := Mem.readBytes p.dram a n

/-- Bytes a block writes: seen by the block at once, and asked at its requester as bursts that follow one another (R187,
R188). -/
def Part.write (u : BurstUser) (a : Nat) (bs : Bytes) (p : Part) : Part :=
  (p.modDram fun m => Mem.writeBytes m a bs).askStore u (cutBlocks bs.length a bs)

/-- Every byte from `lo` up to `hi` made 0, block by block. -/
def Part.wipe (u : BurstUser) (lo hi : Nat) (p : Part) : Part := (p.modDram fun m => Mem.wipe m lo hi).ask u (.wipe lo hi)

/-- The bytes of a burst that finishes reach the DRAM. -/
def Part.put (a : Nat) (bs : Bytes) (p : Part) : Part :=
  (p.modDram fun m => Mem.writeBytes m a bs).modWritten fun m => Mem.writeBytes m a bs

/-- `n` bursts that read are asked, one after the other. -/
def Part.loads (u : BurstUser) (n : Nat) (p : Part) : Part := if n = 0 then p else p.ask u (.load n)

/-- Where buffer `n` lies. -/
def bufAddr (n : Nat) : Nat := Config.poolBase + Config.bufferBytes * n
def bankBase : BankName → Nat
  | .a => Config.bankABase | .b => Config.bankBBase
def BankName.other : BankName → BankName
  | .a => .b | .b => .a
/-- Where entry `i` of a bank lies (R71). -/
def entryAddr (bank : BankName) (i : Nat) : Nat := bankBase bank + Config.entryBytes * i
/-- Where the record of a sequence lies (R118). -/
def slotAddr (s : Nat) : Nat := Config.journalBase + Config.recordBytes * (s % Config.ringSlots)
def labelAddr (i : Nat) : Nat := Config.labelBase + Config.labelBytes * i
def guestAddr (i : Nat) : Nat := Config.guestBase + Config.guestBytes * i

/-- The bytes of the frame in a buffer. -/
def Part.bufBytes (p : Part) (b : Buf) : Bytes := p.read (bufAddr b.num) b.len

/-! ### buffers (R66 to R69) -/

/-- Why a request is refused (R67). -/
inductive Refused where
  | empty | reserve | guestLimit | relayLimit
  deriving DecidableEq, Repr

/-- The checks of R67, the first that applies. -/
def Forwarding.refusal (f : Forwarding) (u : User) : Option Refused :=
  if f.free.length = 0 then some .empty
  else if f.free.length ≤ Config.controlReserve ∧ u ≠ .control then some .reserve
  else if Config.guestLimit ≤ f.guestCount ∧ u = .guest then some .guestLimit
  else if Config.relayLimit ≤ f.relayCount ∧ u = .relay then some .relayLimit
  else none

def User.mark : User → Mark
  | .guest => .guest | .relay => .relay | .control => .plain | .other => .plain

def Refused.count (r : Refused) (c : FwdCounters) : FwdCounters :=
  match r with
  | .empty => { c with empty := bump c.empty }
  | .reserve => { c with reserve := bump c.reserve }
  | .guestLimit => { c with guestLimit := bump c.guestLimit }
  | .relayLimit => { c with relayLimit := bump c.relayLimit }

/-- A request for a buffer: the head of the free list, or a refusal counted under its cause (R66 to R68). -/
def Forwarding.take (f : Forwarding) (u : User) : Option Buf × Forwarding :=
  match f.refusal u, f.free with
  | some r, _ => (none, { f with ctr := r.count f.ctr })
  | none, [] => (none, f)
  | none, n :: rest =>
    (some ⟨n, u.mark, 0⟩,
      { f with
        free := rest
        guestCount := f.guestCount + bit (decide (u.mark = .guest))
        relayCount := f.relayCount + bit (decide (u.mark = .relay))
        ctr := { f.ctr with lowestFree := min f.ctr.lowestFree rest.length } })

/-- A buffer returned: it joins the tail of the free list and its mark no longer counts (R66, R68). -/
def Forwarding.giveBack (f : Forwarding) (b : Buf) : Forwarding :=
  { f with
    free := f.free ++ [b.num]
    guestCount := f.guestCount - bit (decide (b.mark = .guest))
    relayCount := f.relayCount - bit (decide (b.mark = .relay)) }

def Part.takeBuffer (u : User) (p : Part) : Option Buf × Part :=
  let r := p.fwd.take u
  (r.1, { p with fwd := r.2 })

def Part.giveBack (b : Buf) (p : Part) : Part := p.modFwd (·.giveBack b)

def Part.giveBackAll (bs : List Buf) (p : Part) : Part := bs.foldl (fun q b => q.giveBack b) p

/-- The front of a buffer written over; the length recorded. -/
def Part.fill (w : BurstUser) (b : Buf) (bs : Bytes) (p : Part) : Buf × Part :=
  ({ b with len := bs.length }, p.write w (bufAddr b.num) bs)

/-- A frame built by `w` in a fresh buffer; none where the buffer is refused. -/
def Part.build (w : BurstUser) (u : User) (bs : Bytes) (p : Part) : Option Buf × Part :=
  match p.takeBuffer u with
  | (none, q) => (none, q)
  | (some b, q) => let f := q.fill w b bs; (some f.1, f.2)

/-- The buffer count of the free list becomes the lowest free count (R70). -/
def Forwarding.resetLowest (f : Forwarding) : Forwarding := { f with ctr := { lowestFree := f.free.length } }

/-! ### the receive queue (R62) -/

/-- Where the forwarding engine dispatches a WAITING frame. -/
inductive Goes where
  | engine | pricing | block (d : Dispatch)
  deriving DecidableEq, Repr

/-- A branch frame by its kind. One that carries a chain and is no DATAGRAM is of no known kind (R62, R199). -/
def goesBranch (b : BranchBody) : Goes :=
  if b.chained then .engine
  else if b.kind = kindPriceHead ∨ b.kind = kindPricePart ∨ b.kind = kindPriceEnd then .pricing
  else if b.kind = kindRelease then .block .journal
  else if b.kind = kindClaim then .block .trunk
  else if kindCall ≤ b.kind ∧ b.kind ≤ kindRecall then .block .calls
  else .engine

/-- The table of R62; what it does not dispatch stays with the engine. -/
def goesTo (l : Line) (bs : Bytes) : Goes :=
  match l with
  | .branch => goesBranch (parseBody bs)
  | .trunk => if fieldAt bs 0 1 = trunkExchangeKind then .block .trunk else .engine
  | .label => .block .label
  | .guest => .block .guest

/-- WAITING frames are taken in order and dispatched, up to one that the engine keeps until its own event (R62). -/
def Part.dispatchUpTo : Nat → Part → Part
  | 0, p => p
  | n + 1, p =>
    match p.fwd.waiting with
    | [] => p
    | it :: rest =>
      match goesTo it.line (p.bufBytes it.buf) with
      | .engine => p
      | .pricing =>
        Part.dispatchUpTo n ((p.modFwd fun f => { f with waiting := rest }).modPrice fun x =>
          { x with inbox := x.inbox ++ [.frame it] })
      | .block d => Part.dispatchUpTo n (p.modFwd fun f => { f with waiting := rest, taken := f.taken ++ [(d, it)] })

def Part.dispatch (p : Part) : Part := p.dispatchUpTo p.fwd.waiting.length

/-- A frame the engine kept leaves the WAITING frames, and the engine goes on (R62). -/
def Part.engineTakes (it : RxItem) (p : Part) : Part :=
  (p.modFwd fun f => { f with waiting := f.waiting.filter fun x => decide (x.buf.num ≠ it.buf.num) }).dispatch

/-- A frame a block has been dispatched leaves the receive queue (R62). -/
def Part.leaveReceive (it : RxItem) (p : Part) : Part :=
  p.modFwd fun f => { f with taken := f.taken.filter fun x => decide (x.2.buf.num ≠ it.buf.num) }

/-- Its block returns its buffer (R62, R69). -/
def Part.consume (it : RxItem) (p : Part) : Part := (p.leaveReceive it).giveBack it.buf

/-- The oldest frame a block has been dispatched. -/
def Part.takenBy (p : Part) (d : Dispatch) : Option RxItem := (p.fwd.taken.find? fun x => decide (x.1 = d)).map (·.2)

/-- The oldest frame of a block, where it is a branch frame of this kind. -/
def Part.branchFrame (p : Part) (d : Dispatch) (kind : Nat) : Option (RxItem × BranchBody) :=
  match p.takenBy d with
  | none => none
  | some it =>
    if it.line = .branch then
      let b := parseBody (p.bufBytes it.buf)
      if b.kind = kind then some (it, b) else none
    else none

/-- The oldest frame of a block, where it came on this link, with its bytes. -/
def Part.linkFrame (p : Part) (d : Dispatch) (l : Line) : Option (RxItem × Bytes) :=
  match p.takenBy d with
  | none => none
  | some it => if it.line = l then some (it, p.bufBytes it.buf) else none

/-- The frame the engine keeps at the head of the WAITING frames, where it came on this line, with its bytes. -/
def Part.engineFrame (p : Part) (l : Line) : Option (RxItem × Bytes) :=
  match p.fwd.waiting with
  | [] => none
  | it :: _ => if it.line = l then some (it, p.bufBytes it.buf) else none

/-! ### the class queues and the branch transmitter (R4, R6, R10, R63) -/

def Forwarding.queue (f : Forwarding) : Cls → List QFrame
  | .control => f.control | .till => f.till | .price => f.price | .guest => f.guest

def Forwarding.setQueue (f : Forwarding) (c : Cls) (q : List QFrame) : Forwarding :=
  match c with
  | .control => { f with control := q } | .till => { f with till := q }
  | .price => { f with price := q } | .guest => { f with guest := q }

/-- The highest-priority class whose queue is not empty (R4). -/
def Forwarding.bestClass (f : Forwarding) : Option Cls :=
  [Cls.control, .till, .price, .guest].find? fun c => !(f.queue c).isEmpty

/-- The class whose head is the frame in hand. -/
def Tx.inHand : Tx → Option Cls
  | .contending c => some c
  | .sending c => some c
  | .disabled | .idle | .waiting | .sendingTurn => none

/-- The buffer the branch transmit staging area is filled from (R6). -/
def Part.staged (p : Part) : Option Buf :=
  match p.branch.tx with
  | .sendingTurn => p.branch.turn.map (·.buf)
  | .contending c | .sending c => (p.fwd.queue c).head?.map (·.buf)
  | .waiting => p.fwd.bestClass.bind fun c => (p.fwd.queue c).head?.map (·.buf)
  | .disabled | .idle => none

/-- The buffer a line's framer reads the frame it sends from: on a link, that of the frame begun (R6, R12, R64). -/
def Part.txBuf (p : Part) (l : Line) : Option Buf :=
  match l with
  | .branch => p.staged
  | .trunk => ((p.fwd.exchange ++ p.fwd.packets).find? (·.begun)).map (·.buf)
  | .label => (p.fwd.labels.find? (·.begun)).map (·.buf)
  | .guest => (p.fwd.radio.find? (·.begun)).map (·.buf)

/-- A burst that fills the staging area is asked where it has room and the frame has bytes left (R6). -/
def Part.kickRead (l : Line) (p : Part) : Part :=
  match p.txBuf l with
  | none => p
  | some b =>
    if (p.sender l).wants b.len then (p.modSender l fun s => { s with reading := true }).ask (Line.transmitter l) (.txRead l) else p

/-- What is left of a fill flag being driven (R12). -/
def Sender.fillLeft (s : Sender) : List Bool :=
  match s.shift with
  | some x => if x.stage = .fill then x.bits else []
  | none => []

/-- A link framer turns to the frame begun: its opening flag follows at once, on the trunk line after the fill flag it is
driving (R12). -/
def Part.opens (l : Line) (p : Part) : Part :=
  match l with
  | .branch => p
  | .trunk =>
    p.modSender l fun s =>
      { s with shift := if (p.txBuf l).isSome then some (openingShift s.fillLeft) else none }
  | .label | .guest =>
    p.modSender l fun s => { s with shift := if (p.txBuf l).isSome then some (openingShift []) else none }

/-- The staging area is filled anew where another frame is now to be sent. -/
def Part.restage (l : Line) (before : Option Buf) (p : Part) : Part :=
  (if p.txBuf l = before then p else (p.modSender l Sender.fresh).opens l).kickRead l

/-- A burst for the staging area has finished (R6); one asked for a frame that is no longer sent brings nothing. -/
def Part.txReadDone (l : Line) (p : Part) : Part :=
  let idle := p.modSender l fun s => { s with reading := false, stale := false }
  (match p.txBuf l with
   | none => idle
   | some b =>
     if (p.sender l).stale then idle
     else
       let n := min Config.burst (b.len - (p.sender l).fetched)
       p.modSender l fun s => s.fill (p.read (bufAddr b.num + s.fetched) n)).kickRead l

/-- CONTENDING is entered with the head of class `c`, with the own start bit or after another station's (R4, R5). -/
def Part.contend (start : List Bool) (c : Cls) (p : Part) : Part :=
  p.modBranch fun b =>
    { b with tx := .contending c, gapCount := 0,
             sender := { b.sender with shift := some (contendingShift start c p.ownStation) } }

/-- A frame to offer: WAITING while the line is not free, CONTENDING at once while it is (R4). -/
def Part.offer (p : Part) : Part :=
  match p.branch.tx, p.fwd.bestClass with
  | .idle, some c | .waiting, some c =>
    if p.branch.gapCount = Config.releaseGap then p.contend [startBit] c
    else p.modBranch fun b => { b with tx := .waiting }
  | .waiting, none => p.modBranch fun b => { b with tx := .idle }
  | _, _ => p

/-- A frame joins the tail of a class queue with collision count 0 (R63). -/
def Part.enqueue (c : Cls) (o : FrameOwner) (b : Buf) (p : Part) : Part :=
  let before := p.staged
  ((p.modFwd fun f => f.setQueue c (f.queue c ++ [⟨b, 0, o, false⟩])).offer).restage .branch before

/-- A frame built and queued; the answer says whether a buffer was had. -/
def Part.sendFrame (u : User) (c : Cls) (o : FrameOwner) (bs : Bytes) (p : Part) : Bool × Part :=
  match p.build .lineBuild u bs with
  | (none, q) => (false, q)
  | (some b, q) => (true, q.enqueue c o b)

/-- The transmitter is idle again: WAITING where a class queue holds a frame, IDLE otherwise (R6). -/
def Part.txRest (p : Part) : Part :=
  p.modBranch fun b =>
    { b with tx := if p.fwd.bestClass.isSome then .waiting else .idle, turn := none, sender := b.sender.rest }

/-- The head of a class queue leaves it and its buffer returns. -/
def Part.dequeue (c : Cls) (p : Part) : Part :=
  match p.fwd.queue c with
  | [] => p
  | q :: rest => (p.modFwd fun f => f.setQueue c rest).giveBack q.buf

/-- The queued frame of this owner is in contention. -/
def Part.inContention (c : Cls) (o : FrameOwner) (p : Part) : Bool :=
  decide (p.branch.tx.inHand = some c) && (((p.fwd.queue c).head?.map fun q => decide (q.owner = o)).getD false)

/-- Frames of this owner that are not in contention leave the queue, and their buffers return (R10). -/
def Part.removeQueued (c : Cls) (o : FrameOwner) (p : Part) : Part :=
  let before := p.staged
  let q := p.fwd.queue c
  let hand := if p.branch.tx.inHand = some c then q.take 1 else []
  let rest := if p.branch.tx.inHand = some c then q.drop 1 else q
  let gone := rest.filter fun x => decide (x.owner = o)
  let kept := rest.filter fun x => decide (x.owner ≠ o)
  (((p.modFwd fun f => f.setQueue c (hand ++ kept)).giveBackAll (gone.map (·.buf))).offer).restage .branch before

/-- How a withdrawal went (R10). -/
inductive Withdrawal where
  | notQueued | taken | refused
  deriving DecidableEq, Repr

/-- The owner withdraws its frame: refused where it is in contention, and then marked (R10). -/
def Part.withdraw (c : Cls) (o : FrameOwner) (p : Part) : Withdrawal × Part :=
  if p.inContention c o then
    (.refused, p.modFwd fun f => f.setQueue c
      (match f.queue c with
       | [] => []
       | q :: rest => { q with withdrawn := true } :: rest))
  else if (p.fwd.queue c).any fun x => decide (x.owner = o) then (.taken, p.removeQueued c o)
  else (.notQueued, p)

/-! ### turn frames (R9) -/

/-- A turn frame built and handed over: true where the interface drives its start bit, false where it ends not sent, for want
of a buffer, of an open turn gap or of a resting transmitter. -/
def Part.sendTurn (what : TurnWhat) (dest : StationNo) (kind : Nat) (payload : Bytes) (p : Part) : Bool × Part :=
  match p.build .lineBuild .other (plainBody dest.val kind payload) with
  | (none, q) => (false, q)
  | (some b, q) =>
    if q.branch.turnGap = true ∧ (q.branch.tx = .idle ∨ q.branch.tx = .waiting) then
      let before := q.staged
      (true, (q.modBranch fun x =>
        { x with turn := some ⟨b, what⟩, tx := .sendingTurn, turnGap := false, gapCount := 0,
                 sender := { x.sender with shift := some (turnShift q.ownStation) } }).restage .branch before)
    else (false, q.giveBack b)

/-! ### the queues of the links (R64, R65) -/

/-- The trunk framer begins the head of the queue where the line is UP and no frame is begun (R64). -/
def Part.kickTrunk (p : Part) : Part :=
  if p.trk.line = .up ∧ !((p.fwd.exchange ++ p.fwd.packets).any (·.begun)) then
    let before := p.txBuf .trunk
    match p.fwd.exchange, p.fwd.packets with
    | x :: rest, _ => (p.modFwd fun f => { f with exchange := { x with begun := true } :: rest }).restage .trunk before
    | [], x :: rest => (p.modFwd fun f => { f with packets := { x with begun := true } :: rest }).restage .trunk before
    | [], [] => p
  else p

def beginHead : List LFrame → List LFrame
  | [] => []
  | x :: rest => { x with begun := true } :: rest

def Part.joinExchange (what : TrunkFrame) (b : Buf) (p : Part) : Part :=
  (p.modFwd fun f => { f with exchange := f.exchange ++ [⟨b, what, false⟩] }).kickTrunk

def Part.joinPackets (b : Buf) (p : Part) : Part :=
  (p.modFwd fun f => { f with packets := f.packets ++ [⟨b, .packet, false⟩] }).kickTrunk

/-- The guest radio queue changed; its head is begun at once (R65; assumption 39). -/
def Part.modRadio (f : List LFrame → List LFrame) (p : Part) : Part :=
  let before := p.txBuf .guest
  (p.modFwd fun x => { x with radio := beginHead (f x.radio) }).restage .guest before

/-- The label link queue changed; its head is begun at once (R65; assumption 39). -/
def Part.modLabelQueue (f : List LFrame → List LFrame) (p : Part) : Part :=
  let before := p.txBuf .label
  (p.modFwd fun x => { x with labels := beginHead (f x.labels) }).restage .label before

def Part.joinRadio (b : Buf) (p : Part) : Part := p.modRadio fun q => q ++ [⟨b, 0, false⟩]

def Part.joinLabels (tag : Byte) (b : Buf) (p : Part) : Part := p.modLabelQueue fun q => q ++ [⟨b, tag, false⟩]

/-! ### the store header (R192) -/

def HeaderUser.writer : HeaderUser → BurstUser
  | .journal => .journalHeader | .pricing => .pricingHeader | .start => .memory

/-- The whole copy is presented as one burst for these users. -/
def Part.presentHeader (us : List HeaderUser) (p : Part) : Part :=
  match us with
  | [] => p
  | u :: _ =>
    (p.modHdr fun h => { h with inFlight := some (h.copy, us), finished := false }).ask u.writer .headerWrite

/-- A block asks a header write: its fields go into the copy first (R192). -/
def Part.askHeader (u : HeaderUser) (f : HeaderCopy → HeaderCopy) (p : Part) : Part :=
  let q := p.modHdr fun h => { h with copy := f h.copy }
  match q.hdr.inFlight with
  | none => q.presentHeader [u]
  | some _ => q.modHdr fun h => { h with waiting := if u ∈ h.waiting then h.waiting else h.waiting ++ [u] }

/-- The burst of a header write has finished (R192, R197). -/
def Part.headerWriteBurst (p : Part) : Part :=
  match p.hdr.inFlight with
  | none => p
  | some (h, _) =>
    ((p.put Config.headerBase h.bytes).modHdr fun h => { h with finished := true }).modMem fun m =>
      { m with headerWrites := bump m.headerWrites }

/-! ### appends (R120 to R123) -/

/-- What each kind of record needs of the free count before it takes its slot (R121). -/
def Content.fits (c : Content) (free : Nat) : Bool :=
  match c with
  | .saleOpen _ | .holdReleased .. | .priceActivated .. | .stationReport .. => decide (256 < free)
  | .item .. | .discount .. | .reversal .. | .void .. | .tender .. => decide (8 < free)
  | .saleClose .. | .saleAbandon .. => decide (1 ≤ free)

/-- Every record of a list passes, each with the slots the records before it have left. -/
def allFit : List Content → Nat → Bool
  | [], _ => true
  | c :: cs, free => c.fits free && allFit cs (free - 1)

/-- An append is accepted where every record fits and the sequences do not run out (R120 to R122). -/
def Journal.accepts (j : Journal) (cs : List Content) : Bool :=
  allFit cs j.free && !j.exhausted && decide (j.next + cs.length ≤ Config.sequenceMax)

/-- The records of an append, numbered from `seq` up and stamped with the clock (R120). -/
def stampRecords (till : Nat) (c : Clock) : Nat → List Content → List QueuedRecord
  | _, [] => []
  | seq, x :: xs =>
    ⟨seq, recordBytes seq till (if c.valid then c.day else 0) (if c.valid then c.minute else 0) c.valid x⟩ ::
      stampRecords till c (seq + 1) xs

/-- The counter of a refused append (R120, R132). -/
def Requester.refusedCount (r : Requester) (c : JournalCounters) : JournalCounters :=
  match r with
  | .till _ | .portEvent => { c with saleRefused := bump c.saleRefused }
  | .pricing | .report => { c with stationNotWritten := bump c.stationNotWritten }
  | .scan => { c with powerNotWritten := bump c.powerNotWritten }

/-- An append decided: accepted with its first sequence, or refused FULL and counted (R120). -/
def Part.appendNow (r : Requester) (till : Nat) (cs : List Content) (p : Part) : Option Nat × Part :=
  if p.jrn.accepts cs then
    let first := p.jrn.next
    let recs := stampRecords till p.pres.clock first cs
    let q := p.modJrn fun j =>
      { j with
        next := first + cs.length
        exhausted := decide (first + cs.length = Config.sequenceMax)
        queue := j.queue ++ recs
        appends := j.appends ++ [⟨first + cs.length - 1, r⟩] }
    (some first, if p.jrn.queue.isEmpty then q.ask .journal .journalFirst else q)
  else (none, p.countJrn r.refusedCount)

/-- An append handed over: it waits while the scan runs (R120). -/
def Part.append (r : Requester) (till : Nat) (cs : List Content) (p : Part) : Option Nat × Part :=
  if p.jrn.scan.isSome ∧ r ≠ .scan then
    (none, p.modJrn fun j => { j with waiting := j.waiting ++ [⟨r, till, cs⟩] })
  else p.appendNow r till cs

/-- The till number of the station kinds (R118). -/
def stationTill : Nat := 255

/-! ### reading the journal (R126) -/

inductive ReadAnswer where
  | beyond | notCommitted | gone | damaged | record (bs : Bytes)
  deriving DecidableEq, Repr

/-- The answer for one sequence, the first that applies. -/
def Part.readAnswer (p : Part) (s : Nat) : ReadAnswer :=
  if s = 0 ∨ p.jrn.next ≤ s then .beyond
  else if p.jrn.commit ≤ s then .notCommitted
  else
    let bs := p.read (slotAddr s) Config.recordBytes
    if (parseRecord bs).seq ≠ s then .gone else if crcGood bs then .record bs else .damaged

/-- The bursts a read takes: the two of the slot where it is looked at. -/
def ReadAnswer.bursts : ReadAnswer → Nat
  | .beyond | .notCommitted => 0
  | .gone | .damaged | .record _ => 2

/-- A read by `u`: a DAMAGED answer is counted. -/
def Part.readJournal (u : BurstUser) (s : Nat) (p : Part) : ReadAnswer × Part :=
  let a := p.readAnswer s
  let q := p.loads u a.bursts
  match a with
  | .damaged => (.damaged, q.countJrn fun c => { c with damagedReads := bump c.damagedReads })
  | .beyond | .notCommitted | .gone | .record _ => (a, q)

/-! ### releases (R127 to R129) -/

def Part.ignoreRelease (p : Part) : Part := p.countJrn fun c => { c with releasesIgnored := bump c.releasesIgnored }

/-- A header write for the journal is in flight; a request that still waits behind another block's write is not (R129,
R192). -/
def HeaderUnit.carriesRelease (h : HeaderUnit) : Bool :=
  match h.inFlight with
  | some (_, users) => decide (HeaderUser.journal ∈ users)
  | none => false

/-- A header write for the pending release is asked where none for the journal is in flight (R129). -/
def Part.writeRelease (p : Part) : Part :=
  match p.jrn.pending with
  | some s => if p.hdr.carriesRelease then p else p.askHeader .journal fun h => { h with release := s }
  | none => p

/-- A release taken or ignored (R129). -/
def Part.release (s : Nat) (p : Part) : Part :=
  if p.jrn.highestTaken < s ∧ s < p.jrn.next then
    ((p.modJrn fun j =>
      { j with pending := some s, ctr := { j.ctr with releasesTaken := bump j.ctr.releasesTaken } })).writeRelease
  else p.ignoreRelease

/-! ### the arbiter (R189 to R191) -/

def Req.all : List Req := [.line, .trunk, .till, .price, .label, .guest]

def Passed.of (c : Passed) : Req → Nat
  | .line => c.line | .trunk => c.trunk | .till => c.till | .price => c.price | .label => c.label | .guest => c.guest

/-- What the port is granted to. -/
inductive Choice where
  | urgent | requester (r : Req) | refresh
  deriving DecidableEq, Repr

/-- The order of R189: URGENT REFRESH, the promoted requesters, the others in order, REFRESH. `blocks`: grants to the
blocks are allowed (R196). -/
def Arb.choose (a : Arb) (asks : Asks) (blocks : Bool) : Option Choice :=
  let presenting := if blocks then Req.all.filter fun r => (asks.presented r).isSome else []
  if 4 ≤ a.postponed then some .urgent
  else
    match presenting.find? fun r => decide (a.passed.of r = Config.starvation), presenting.head? with
    | some r, _ => some (.requester r)
    | none, some r => some (.requester r)
    | none, none => if 1 ≤ a.postponed then some .refresh else none

/-- The passed-over count of one requester after a grant (R190). -/
def passedAfter (granted presenting : Bool) (n : Nat) : Nat :=
  if granted ∨ !presenting then 0 else min Config.starvation (n + 1)

def Arb.passedOver (a : Arb) (asks : Asks) (c : Choice) : Passed :=
  let one := fun r => passedAfter (decide (c = .requester r)) (asks.presented r).isSome (a.passed.of r)
  ⟨one .line, one .trunk, one .till, one .price, one .label, one .guest⟩

/-- How many requesters a grant promotes (R190). -/
def promotions (old new : Passed) : Nat :=
  (Req.all.filter fun r => decide (old.of r < Config.starvation) && decide (new.of r = Config.starvation)).length

/-- `n` events counted, up to 65,535. -/
def bumpBy (n c : Nat) : Nat := max c (min Config.counterMax (c + n))

/-- The port taken (R189 to R191). -/
def State.grant (c : Choice) (s : State) : State :=
  let passed := s.arb.passedOver s.part.asks c
  let up := promotions s.arb.passed passed
  let p := s.part.modMem fun m =>
    { m with promotions := bumpBy up m.promotions, urgent := if c = .urgent then bump m.urgent else m.urgent }
  match c with
  | .urgent | .refresh =>
    { s with
      part := p
      arb := { port := some .refresh, passed := passed, row := (s.arb.row + 1) % Config.refreshRows,
               postponed := s.arb.postponed - 1 } }
  | .requester r =>
    match s.part.asks.presented r with
    | none => s
    | some (u, t) =>
      { s with
        part := p.modAsks fun a => a.set r (grantFirst (a.of r))
        arb := { s.arb with port := some (.burst u t), passed := passed } }

/-- An idle port is granted where a burst is presented and grants go on (R189, R194, R196). -/
def State.settle (s : State) : State :=
  if s.arb.port = none ∧ s.supply.watch = .running ∧ s.supply.stopping = false then
    match s.arb.choose s.part.asks (!s.supply.pin) with
    | some c => s.grant c
    | none => s
  else s

/-! ### running a command -/

/-- A command that acts on the blocks: taken where the part takes events, and the port settled after it. -/
def State.run (f : Part → Part) (s : State) : Host.Outcome State Fault Refusal :=
  if s.supply.takesEvents then .next { s with part := f s.part }.settle else .next s

end Sys2Proof.Machine
end

