-- ==== Sys2Proof/Machine/Arith.lean ====
section
/-! DEFINITION. The arithmetic unit (R73 to R78) and the entries of the banks (R71, R72). -/

namespace Sys2Proof.Machine

/-! ### the pricing stages -/

/-- Round half up (chapter 00). -/
def rhu (a b : Nat) : Nat := (2 * a + b) / (2 * b)

def promoPercent : Nat := 1
def promoMultibuy : Nat := 2
def sellEach : Nat := 0

/-- Stage 1: the effective price (R73). -/
def BankEntry.effective (e : BankEntry) : Nat :=
  if e.promo = promoPercent then
    let r := e.p - rhu (e.p * e.value) 100
    if 1 ≤ e.p ∧ r = 0 then 1 else r
  else e.p

/-- Stage 2: the charged price (R74). -/
def BankEntry.charged (e : BankEntry) : Nat := if e.hold then min e.effective e.held else e.effective

/-- The answer of stage 3 (R75). -/
inductive LineAmount where
  | badRequest
  | overLimit (charged : Nat)
  | amount (charged a : Nat)
  deriving DecidableEq, Repr

/-- Stage 3: the line amount for a quantity (R75). -/
def BankEntry.lineAmount (e : BankEntry) (q : Nat) : LineAmount :=
  let most := if e.kind = sellEach then 999 else 99999
  if q < 1 ∨ most < q then .badRequest
  else
    let a := if e.kind = sellEach then e.charged * q else rhu (e.charged * q) 1000
    if Config.amountMax < a then .overLimit e.charged else .amount e.charged a

/-- What stage 4 gives for a sale line (R76). -/
structure GroupDiscount where
  count : Nat
  g : Nat
  v : Nat
  d : Nat
  deriving DecidableEq, Repr

/-- Stage 4: the group discount (R76). -/
def groupDiscount (n m charged told q total : Nat) : GroupDiscount :=
  let g := (told + q) / n - told / n
  let v := n * charged - m
  { count := told + q, g := g, v := v, d := if g = 0 then 0 else min (g * v) total }

/-- `k` groups taken from the records, the newest first (the list newest first): what they earned and what is left (R77). -/
def takeGroups : Nat → List GroupRecord → Nat × List GroupRecord
  | _, [] => (0, [])
  | k, r :: rest =>
    if k = 0 then (0, r :: rest)
    else
      let j := min k r.g
      let keep := min r.d ((r.g - j) * r.v)
      let more := if r.g ≤ k then takeGroups (k - j) rest else (0, rest)
      (r.d - keep + more.1, if r.g ≤ k then more.2 else ⟨r.g - j, r.v, keep⟩ :: rest)

/-- What stage 4 gives for a VOID (R77). -/
structure Reversal where
  entry : TallyEntry
  k : Nat
  r : Nat
  deriving DecidableEq, Repr

/-- Stage 4 on the VOID of a tallied line of quantity `q` (R77). -/
def reversal (t : TallyEntry) (q : Nat) : Reversal :=
  let k := t.count / t.n - (t.count - q) / t.n
  let taken := takeGroups k t.groups.reverse
  { entry := { t with count := t.count - q, groups := taken.2.reverse }, k := k, r := taken.1 }

/-- A value a label shows (R78). -/
def shownOf (n : Nat) : Shown := if Config.labelValueMax < n then .over else .value n

/-- Stage 5: main price, unit price and promotion mark (R78). References: PER 1000 1, PER 100 2, PER PIECE 3. -/
def BankEntry.stage5 (e : BankEntry) : Shown × Shown × PromoMark :=
  let main :=
    if e.kind = sellEach then e.effective
    else if e.ref = 1 then rhu (e.effective * 1000) 1000
    else if e.ref = 2 then rhu (e.effective * 100) 1000
    else e.effective
  let r := if e.ref = 1 then 1000 else if e.ref = 2 then 100 else 1
  let unit := if e.kind = sellEach ∧ 1 ≤ e.c ∧ e.ref ≠ 0 then shownOf (rhu (e.effective * r) e.c) else .none
  let mark :=
    if e.promo = promoPercent then .was (shownOf e.p)
    else if e.promo = promoMultibuy then .nFor e.value (shownOf e.m)
    else .none
  (shownOf main, unit, mark)

/-! ### entries of the banks -/

def Part.entryBytes (p : Part) (bank : BankName) (i : Nat) : Bytes := p.read (entryAddr bank i) Config.entryBytes

/-- An entry of a bank, where its CRC is good. -/
def Part.goodEntry (p : Part) (bank : BankName) (i : Nat) : Option BankEntry :=
  let bs := p.entryBytes bank i
  if crcGood bs then some (parseEntry bs) else none

def Part.setEntry (u : BurstUser) (bank : BankName) (i : Nat) (e : BankEntry) (p : Part) : Part :=
  p.write u (entryAddr bank i) e.bytes

/-- Slots of a bank made not valid: every byte 0 (R71; assumption 11). -/
def Part.wipeSlots (u : BurstUser) (bank : BankName) (lo hi : Nat) (p : Part) : Part :=
  if lo < hi then p.wipe u (entryAddr bank lo) (entryAddr bank hi) else p

/-- The index whose item code the lookup copy holds (R72). -/
def copyIndex : Nat := 16384

/-- The item code at index 16,384 of a bank of N entries, or none (R72). The code is taken as it is stored, its entry's CRC not
checked (DESIGN CHOICE, unsafe; assumption 62). -/
def Part.copyOf (p : Part) (bank : BankName) (n : Nat) : Option Nat :=
  if n ≤ copyIndex then none else some (parseEntry (p.entryBytes bank copyIndex)).code

/-- What a search ends in. -/
inductive Found where
  | entry (i : Nat) (e : BankEntry) | notFound | fault
  deriving DecidableEq, Repr

/-- The most entries a lookup reads (R72). -/
def lookupMost : Nat := 15

/-- A lookup begins: its bank is fixed, and the first comparison is made against the copy, without a read (R72). -/
def Part.beginSearch (code : Nat) (p : Part) : Search :=
  match p.price.copy with
  | none => ⟨p.price.active, code, 0, p.price.activeCount, lookupMost⟩
  | some c =>
    if code < c then ⟨p.price.active, code, 0, copyIndex, lookupMost⟩
    else ⟨p.price.active, code, copyIndex, p.price.activeCount, lookupMost⟩

/-- A search has an entry to read. -/
def Search.reads (s : Search) : Bool := decide (s.lo < s.hi) && decide (0 < s.left)

/-- A search ended, or gone on to what is left of it. -/
inductive Looked where
  | ended (f : Found) | goesOn (s : Search)
  deriving DecidableEq, Repr

/-- One entry of a search is read (R72; midpoint: assumption 9). -/
def Part.searchStep (s : Search) (p : Part) : Looked :=
  let mid := (s.lo + s.hi) / 2
  match p.goodEntry s.bank mid with
  | none => .ended .fault
  | some e =>
    if e.code = s.code then .ended (if e.valid then .entry mid e else .notFound)
    else
      let rest : Search :=
        if s.code < e.code then { s with hi := mid, left := s.left - 1 } else { s with lo := mid + 1, left := s.left - 1 }
      if rest.reads then .goesOn rest else .ended .notFound

/-- A search to its end, and the entries it reads. -/
def Part.search (p : Part) : Nat → Search → Found × Nat
  | 0, _ => (.notFound, 0)
  | fuel + 1, s =>
    if s.reads then
      match p.searchStep s with
      | .ended f => (f, 1)
      | .goesOn rest => let r := p.search fuel rest; (r.1, r.2 + 1)
    else (.notFound, 0)

/-- A lookup to its end (R72). -/
def Part.find (p : Part) (code : Nat) : Found × Nat := p.search lookupMost (p.beginSearch code)

/-- The answer of a lookup; an entry fault is counted (R72). -/
def Part.foundEntry (f : Found) (p : Part) : Option (Nat × BankEntry) × Part :=
  match f with
  | .entry i e => (some (i, e), p)
  | .notFound => (none, p)
  | .fault => (none, p.countPrice fun c => { c with entryFaults := bump c.entryFaults })

/-- A lookup of a block (R72). -/
def Part.lookupEntry (u : BurstUser) (code : Nat) (p : Part) : Option (Nat × BankEntry) × Part :=
  let f := p.find code
  (p.loads u f.2).foundEntry f.1

/-- One entry of a pass through the active bank: read, and changed where its CRC is good and `f` gives a change. -/
def Part.passEntry (f : BankEntry → Part → Option BankEntry × Part) (i : Nat) (p : Part) : Part :=
  match p.goodEntry p.price.active i with
  | none => p
  | some e =>
    match f e p with
    | (none, q) => q
    | (some e', q) => q.setEntry .bank q.price.active i e'

/-- Every entry of the active bank, in index order. -/
def Part.passEntries (f : BankEntry → Part → Option BankEntry × Part) (p : Part) : Part :=
  (List.range p.price.activeCount).foldl (fun q i => (q.loads .bank 1).passEntry f i) p

end Sys2Proof.Machine
end

