-- ==== Sys2Proof/Machine/CallBase.lean ====
section
/-! DEFINITION. The part of the call controller that other blocks use: placing a call, asking it to end early, completion
records, and the deferred list (R20, R25, R29, R33, R35). -/

namespace Sys2Proof.Machine

/-- The first tag from `t` on that is not in use; at most `n` are passed over (R20). -/
def freshTag (used : List Byte) : Nat → Byte → Byte
  | 0, t => t
  | n + 1, t => if t ∈ used then freshTag used n (t + 1) else t

/-- A handed buffer or completion record joins its owner's inbox, in order (R25, R33). -/
def Part.hand (o : CallOwner) (h : Handed) (p : Part) : Part :=
  match o with
  | .trunk => p.modTrk fun t => { t with inbox := t.inbox ++ [h] }
  | .pricing => p.modPrice fun x => { x with inbox := x.inbox ++ [h] }

def CallEnd.count (x : CallEnd) (c : CallCounters) : CallCounters :=
  match x with
  | .complete => { c with complete := bump c.complete }
  | .endedEarly => { c with endedEarly := bump c.endedEarly }
  | .noAnswer => { c with noAnswer := bump c.noAnswer }
  | .busy => { c with busy := bump c.busy }
  | .refused _ => { c with refused := bump c.refused }
  | .recallTimeout => { c with recallTimeout := bump c.recallTimeout }
  | .broken => { c with broken := bump c.broken }

def Part.openCall (p : Part) (tag : Byte) : Option OpenCall := p.call.opens.find? fun e => decide (e.tag = tag)

def Part.setOpen (e : OpenCall) (p : Part) : Part :=
  p.modCall fun c => { c with opens := c.opens.map fun x => if x.tag = e.tag then e else x }

/-- A call ends at the caller: its entry is removed, counted under its outcome, and its completion record delivered (R33). -/
def Part.endCallWith (e : OpenCall) (x : CallEnd) (tail : Option Nat) (p : Part) : Part :=
  ((p.modCall fun c => { c with opens := c.opens.filter fun o => decide (o.tag ≠ e.tag) }).countCall x.count).hand e.owner
    (.completion { peer := e.peer, request := e.request, tag := e.tag, ending := x, stage := e.stage, received := e.received,
                   tail := tail })

def Part.endCall (e : OpenCall) (x : CallEnd) (p : Part) : Part := p.endCallWith e x none

/-- An owner places a call (R20): none where it is refused LIST FULL or NOT ENABLED, else its tag. Where the CALL finds no
buffer the call has ended NO ANSWER and its completion record stands in the owner's inbox. -/
def Part.placeCall (o : CallOwner) (peer : StationNo) (r : Request) (p : Part) : Option Byte × Part :=
  if Config.callSlots ≤ p.call.opens.length ∨ p.txEnabled = false then (none, p)
  else
    let tag := freshTag (p.call.opens.map (·.tag)) Config.callSlots p.call.callTag
    let e : OpenCall :=
      { owner := o, peer := peer, tag := tag, request := r, state := .queued, stage := 0, received := 0, expect := none, recallTag := 0,
        recallTimer := false, enough := false, endEarly := false }
    let q := p.modCall fun c => { c with callTag := tag + 1, opens := c.opens ++ [e] }
    match q.sendFrame .other .till (.call tag) (plainBody peer.val kindCall (callPayload tag r)) with
    | (true, q') => (some tag, q')
    | (false, q') => (some tag, q'.endCall e .noAnswer)

/-- The owner asks that its call end early, which it may while the entry is CONNECTED or WAITING RECALL (R25). R81 and R185 ask it
of any open call; one that is still QUEUED goes on, and the request is dropped (DESIGN CHOICE, unsafe; assumption 75). -/
def Part.endEarly (tag : Byte) (p : Part) : Part :=
  p.modCall fun c => { c with opens := c.opens.map fun e =>
    if e.tag = tag ∧ e.state ≠ .queued then { e with endEarly := true } else e }

/-! ### generations held and the deferred list -/

/-- A generation is held (R35). -/
def Part.holds (p : Part) (g : Nat) : Bool :=
  decide (p.price.activeGen = g) ||
    (decide (p.price.staging.generation = g) &&
      (decide (p.price.staging.state = .complete) || decide (p.price.staging.state = .activating)))

/-- The condition of a deferred request is met (R29): the generation it asks for is held. -/
def Part.conditionMet (p : Part) (d : Deferred) : Bool :=
  match d.request with
  | .pull _ _ => false
  | .fetch g _ _ => p.holds g

def Part.setDeferred (d : Deferred) (p : Part) : Part :=
  p.modCall fun c => { c with deferred := c.deferred.map fun x => if x.recallTag = d.recallTag then d else x }

/-- A deferred entry is removed, its RECALL withdrawn where one is queued (R29). -/
def Part.removeDeferred (d : Deferred) (p : Part) : Part :=
  let q := p.modCall fun c => { c with deferred := c.deferred.filter fun x => decide (x.recallTag ≠ d.recallTag) }
  if d.state = .recallQueued then (q.withdraw .till (.recall d.recallTag)).2 else q

/-- A RECALL is queued for a WAITING entry; it stays WAITING where no buffer is had (R29). -/
def Part.queueRecall (d : Deferred) (p : Part) : Part :=
  match p.sendFrame .other .till (.recall d.recallTag)
      (plainBody d.caller.val kindRecall (recallPayload d.callTag d.recallTag d.request)) with
  | (true, q) => q.setDeferred { d with state := .recallQueued }
  | (false, q) => q

/-- RECALLs for every WAITING entry whose condition is met, in the order the entries were made (R29). -/
def Part.queueRecalls (p : Part) : Part :=
  p.call.deferred.foldl
    (fun q d => if d.state = .waiting ∧ q.conditionMet d = true then q.queueRecall d else q) p

/-- Every deferred PRICE FETCH for a generation is removed (R35). -/
def Part.dropDeferredFor (g : Nat) (p : Part) : Part :=
  p.call.deferred.foldl
    (fun q d => match d.request with
      | .pull _ _ => q
      | .fetch g' _ _ => if g' = g then q.removeDeferred d else q) p

end Sys2Proof.Machine
end

