-- ==== Sys2Proof/Machine/Pricing.lean ====
section
/-! DEFINITION. The pricing unit (chapter 05): staging, fetching, activation, the merge walk, the switch, the count events and
the hold sweep. -/

namespace Sys2Proof.Machine

/-! ### the staging map (R79) -/

def mapByte (i : Nat) : Nat := Config.mapBase + i / 8

/-- The map mark of index `i`: bit i mod 8 of byte i / 8 (assumption 11). -/
def Part.marked (p : Part) (i : Nat) : Bool := (Mem.read p.dram (mapByte i)).getLsbD (i % 8)

/-- The map bursts that hold the marks of the indices from `lo` up to `hi` (R72, R188): one burst holds 256 marks. -/
def mapBursts (lo hi : Nat) : Nat :=
  if lo < hi then (hi - 1) / (8 * Config.burst) - lo / (8 * Config.burst) + 1 else 0

def Part.setMark (i : Nat) (p : Part) : Part :=
  p.write .staging (mapByte i) [Mem.read p.dram (mapByte i) ||| BitVec.ofNat 8 (2 ^ (i % 8))]

def Part.clearMap (u : BurstUser) (p : Part) : Part := p.wipe u Config.mapBase (Config.mapBase + Config.mapSize)

/-- The inactive bank. -/
def Part.inactive (p : Part) : BankName := p.price.active.other

/-- The map marks every index from 0 to N - 1. -/
def Part.mapFull (p : Part) (n : Nat) : Bool := (List.range n).all p.marked

/-- The bursts that read the map from index 0 up to the first index below N that it does not mark, or to N - 1. -/
def Part.fullBursts (p : Part) (n : Nat) : Nat :=
  match (List.range n).find? fun i => !p.marked i with
  | some i => mapBursts 0 (i + 1)
  | none => mapBursts 0 n

/-- The map is read through PRICE for its first N marks: whether they are all set (R72, R80, R83). -/
def Part.readFull (n : Nat) (p : Part) : Bool × Part := (p.mapFull n, p.loads .staging (p.fullBursts n))

/-! ### the staging record (R79) -/

/-- The staging's fields in the store header; EMPTY is written with generation 0 (R79). -/
def Staging.toHeader (s : Staging) (h : HeaderCopy) : HeaderCopy :=
  { h with stagingGen := if s.state = .empty then 0 else s.generation, stagingState := s.state, n := s.n,
           effDay := s.effDay, effMinute := s.effMinute, fileCheck := s.fileCheck }

def Part.modStaging (f : Staging → Staging) (p : Part) : Part := p.modPrice fun x => { x with staging := f x.staging }

/-- The staging changes state and the header write is asked (R79). The receive pause runs while RECEIVING, the fetch timer
while GAPS (R83, R85). -/
def Part.stagingTo (st : StagingState) (p : Part) : Part :=
  let q := (p.modStaging fun s => { s with state := st }).modPrice fun x =>
    { x with pauseTimer := decide (st = .receiving), fetchTimer := decide (st = .gaps) }
  q.askHeader .pricing q.price.staging.toHeader

/-- The causes of a discard (R93). -/
inductive Discard where
  | newerHead | check | entries | order | sync
  deriving DecidableEq, Repr

def Discard.count (d : Discard) (c : PriceCounters) : PriceCounters :=
  match d with
  | .newerHead => { c with newerHead := bump c.newerHead }
  | .check => { c with check := bump c.check }
  | .entries => { c with entries := bump c.entries }
  | .order => { c with order := bump c.order }
  | .sync => { c with sync := bump c.sync }

/-- The present staging is removed: map cleared, walk stopped, trigger disarmed, deferred fetches for it dropped (R80, R81,
R35). Open fetches stay until their calls end. The staging record is left EMPTY; no header is asked here. -/
def Part.removeStaging (p : Part) : Part :=
  let g := p.price.staging.generation
  let was := p.price.staging.state
  let q := ((p.modPrice fun x =>
    { x with staging := { fetches := x.staging.fetches }, trigger := .disarmed, walk := none, recount := false,
             pauseTimer := false, fetchTimer := false }).unask .staging .mergeStep).clearMap .staging
  if was = .empty then q else q.dropDeferredFor g

/-- A staging discarded to EMPTY with its cause (R80, R83, R89). -/
def Part.discard (d : Discard) (p : Part) : Part := (p.removeStaging.countPrice d.count).stagingTo .empty

/-! ### the activation trigger (R88) -/

/-- The condition of the trigger. -/
def Part.triggerHolds (p : Part) : Bool :=
  let s := p.price.staging
  (decide (s.effDay = 0) && decide (s.effMinute = 0)) ||
    (p.pres.clock.valid && p.pres.clock.atOrPast s.effDay s.effMinute 0)

/-- The check of an armed trigger; once it has fired, ACTIVATION_TRIGGER takes it (assumption 24). -/
def Part.checkTrigger (p : Part) : Part :=
  if p.price.trigger = .armed ∧ p.triggerHolds = true then p.modPrice fun x => { x with trigger := .fired } else p

/-- The staging becomes COMPLETE: the trigger is armed and checked, and deferred fetches for it are recalled (R80, R88,
R29). -/
def Part.complete (p : Part) : Part :=
  (((p.stagingTo .complete).modPrice fun x => { x with trigger := .armed }).checkTrigger).queueRecalls

/-- A staging whose map is full is decided (R80, R83). -/
def Part.decideStaging (p : Part) : Part :=
  match p.price.staging.fileCheck with
  | some c => if p.price.staging.check = c then p.complete else p.discard .check
  | none => p.complete

/-- The map is read, and the staging decided, where N is known and every index below it is marked (R80, R87). -/
def Part.decideFull (p : Part) : Part :=
  match p.price.staging.n with
  | some n => let r := p.readFull n; if r.1 then r.2.decideStaging else r.2
  | none => p

/-! ### staging a record (R80) -/

/-- The clamps of R80. A selling kind of no known code is taken as EACH first, so that a MULTIBUY on it keeps its promotion: the
table gives both rows and no order (DESIGN CHOICE, unsafe; assumption 64). -/
def PriceRecord.clamp (r : PriceRecord) : PriceRecord :=
  let kind := if 3 < r.kind then 0 else r.kind
  let ref := if 3 < r.ref then 0 else r.ref
  let m := min r.m Config.priceMax
  let bare := { r with p := min r.p Config.priceMax, kind := kind, ref := ref, m := m, c := min r.c Config.packMax }
  let none_ := { bare with promo := 0, value := 0, m := 0 }
  if r.promo = promoPercent then
    if r.value = 0 then none_ else { bare with value := min r.value 90 }
  else if r.promo = promoMultibuy then
    if r.value ≤ 1 ∨ r.m = 0 ∨ kind ≠ sellEach then none_ else { bare with value := min r.value 9 }
  else if r.promo = 0 then bare
  else none_

/-- The entry a record is staged as (R80 steps 4 and 5). -/
def PriceRecord.toEntry (r : PriceRecord) (lineCrc : Nat) : BankEntry :=
  if r.code = 0 ∨ Config.itemMax < r.code then
    { code := 0, p := 0, kind := 0, ref := 0, promo := 0, value := 0, m := 0, c := 0, recCrc := lineCrc, held := 0,
      valid := false, hold := false, startKnown := false, count := 0, startDay := 0, startMinute := 0 }
  else
    let c := r.clamp
    { code := c.code, p := c.p, kind := c.kind, ref := c.ref, promo := c.promo, value := c.value, m := c.m, c := c.c,
      recCrc := crcValue c.bytes, held := 0, valid := true, hold := false, startKnown := false, count := 0, startDay := 0,
      startMinute := 0 }

/-- Steps 2 to 6 of R80 for a record in range. -/
def Part.stageAt (i : Nat) (bs : Bytes) (p : Part) : Part :=
  if crcGood bs then
    let p := p.loads .staging 1
    if p.marked i then p
    else
      let r := parsePriceRecord bs
      let valid := r.code ≠ 0 ∧ r.code ≤ Config.itemMax
      let e := r.toEntry (crcField bs 22)
      let q := if valid ∧ r.clamp ≠ r then p.countPrice fun c => { c with recordsClamped := bump c.recordsClamped } else p
      (((q.setEntry .staging q.inactive i e).setMark i).modStaging fun s =>
        { s with received := s.received + 1, check := (s.check + e.recCrc) % 4294967296 }).decideFull
  else p.countPrice fun c => { c with recordsBad := bump c.recordsBad }

/-- One record that reaches the staging at index `i` (R80). While N is not known, a record at an index beyond the last the map and the
bank have is discarded without a count (DESIGN CHOICE, safe; assumption 83). -/
def Part.stageRecord (gen i : Nat) (bs : Bytes) (p : Part) : Part :=
  let s := p.price.staging
  if (s.state = .receiving ∨ s.state = .gaps) ∧ s.generation = gen ∧ i < Config.bankSlots ∧
      (match s.n with | some n => decide (i < n) | none => true) = true then p.stageAt i bs
  else p

/-- Records at consecutive indices. -/
def Part.stageRecords (gen : Nat) : Nat → List Bytes → Part → Part
  | _, [], p => p
  | i, r :: rs, p => Part.stageRecords gen (i + 1) rs (p.stageRecord gen i r)

/-! ### fetching (R84, R85) -/

/-- The sources of the staging without a skip mark (R84). -/
def Part.fetchSources (p : Part) : List StationNo :=
  (p.sources p.price.staging.generation).filter fun n => decide (n ∉ p.price.staging.skips)

/-- The next source by ascending number after the last one used, wrapping (R85). -/
def nextSource (after : StationNo) (l : List StationNo) : Option StationNo :=
  match l.find? fun n => decide (after.val < n.val) with
  | some n => some n
  | none => l.head?

/-- An index lies in the range of an open fetch, of whatever generation (R85). -/
def Staging.covered (s : Staging) (i : Nat) : Bool :=
  s.fetches.any fun f => decide (f.first ≤ i) && decide (i < f.first + f.count)

def Part.wanted (p : Part) (i : Nat) : Bool := !p.marked i && !p.price.staging.covered i

/-- The run of wanted indices from `f` on, `most` at the longest. -/
def Part.runFrom (p : Part) (limit f : Nat) : Nat → Nat
  | 0 => 0
  | most + 1 => if f < limit ∧ p.wanted f = true then 1 + p.runFrom limit (f + 1) most else 0

/-- The indices in range of the staging end here (R85). -/
def Staging.limit (s : Staging) : Nat := s.n.getD Config.bankSlots

/-- A further fetch may be open, and a source for it is known (R85). -/
def Part.fetchFrom (p : Part) : Option StationNo :=
  let s := p.price.staging
  if s.state = .gaps ∧ p.price.recount = false ∧
      (if s.n.isSome then decide (s.fetches.length < 2) else s.fetches.isEmpty) = true then
    nextSource p.price.lastSource p.fetchSources
  else none

/-- The conditions of R85, and the request and source they give. -/
def Part.nextFetch (p : Part) : Option (StationNo × Nat × Nat) :=
  match p.fetchFrom, (List.range p.price.staging.limit).find? p.wanted with
  | some src, some f => some (src, f, p.runFrom p.price.staging.limit f Config.fetchMax)
  | _, _ => none

/-- The map bursts the conditions of R85 take: none where no fetch may be placed; else up to the end of the run asked, or of the
range where no index is wanted. -/
def Part.fetchBursts (p : Part) : Nat :=
  match p.fetchFrom, p.nextFetch with
  | none, _ => 0
  | some _, none => mapBursts 0 p.price.staging.limit
  | some _, some (_, f, n) => mapBursts 0 (min p.price.staging.limit (f + n + 1))

/-- A completion record of a fetch taken: the fetch leaves, and its source may get a skip mark (R86). -/
def Part.takeFetchEnd (c : Completion) (p : Part) : Part :=
  match p.price.staging.fetches.find? fun f => decide (f.tag = c.tag) with
  | none => p
  | some f =>
    let q := p.modStaging fun s => { s with fetches := s.fetches.filter fun x => decide (x.tag ≠ c.tag) }
    let skip := q.modStaging fun s => { s with skips := if f.source ∈ s.skips then s.skips else f.source :: s.skips }
    if f.generation = q.price.staging.generation ∧ q.price.staging.state ≠ .empty then
      match c.ending with
      | .complete | .endedEarly => if c.received < f.count then skip else q
      | .refused (some .noSuchGen) | .refused (some .unknownKind) => skip
      | .refused _ | .noAnswer | .busy | .broken | .recallTimeout => q
    else q

/-- Completion records at the head of the inbox are taken; the answer says whether a fetch ended (R33, R86). -/
def Part.drainFetchEnds : Nat → Part → Bool × Part
  | 0, p => (false, p)
  | n + 1, p =>
    match p.price.inbox with
    | .completion c :: rest =>
      (true, (Part.drainFetchEnds n ((p.modPrice fun x => { x with inbox := rest }).takeFetchEnd c)).2)
    | _ => (false, p)

/-- The conditions are checked, and one fetch placed where they hold; false where none is placed (R85). -/
def Part.placeFetch (p : Part) : Bool × Part :=
  let r := p.loads .staging p.fetchBursts
  match p.nextFetch with
  | none => (false, r)
  | some (src, first, count) =>
    match r.placeCall .pricing src (.fetch p.price.staging.generation first count) with
    | (none, _) => (false, r)
    | (some tag, q) =>
      (true, (q.modStaging fun s =>
          { s with fetches := s.fetches ++ [⟨tag, s.generation, first, count, src⟩] }).modPrice fun x =>
        { x with lastSource := src })

/-- The conditions are checked and up to two fetches placed. A call that ended at once for want of a buffer leaves the open
fetches without a further check in this step (assumption 13). -/
def Part.checkFetch (p : Part) : Part :=
  match p.placeFetch with
  | (false, q) => q
  | (true, q) =>
    let q := (q.drainFetchEnds q.price.inbox.length).2
    match q.placeFetch with
    | (false, r) => r
    | (true, r) => (r.drainFetchEnds r.price.inbox.length).2

/-- Completion records at the head of the inbox, and the check that follows an ended fetch (R85, R86). -/
def Part.fetchesEnded (p : Part) : Part :=
  let r := p.drainFetchEnds p.price.inbox.length
  if r.1 then r.2.checkFetch else r.2

/-- The staging enters GAPS (R83, R85). -/
def Part.enterGaps (p : Part) : Part := (p.stagingTo .gaps).checkFetch

/-! ### heads, parts and ends (R81 to R83) -/

/-- The pricing unit takes a frame or record now: not while a switch is being made or the recount pass runs
(assumption 15). -/
def Part.pricingTakes (p : Part) : Bool := p.price.switching.isNone && !p.price.recount

/-- A lookup of a till runs in this bank (R72). -/
def Part.lookupIn (p : Part) (bank : BankName) : Bool :=
  p.till.ports.toList.any fun x =>
    match x.req with
    | some { work := .looking s, .. } => decide (s.bank = bank)
    | _ => false

/-- The pricing unit takes records now: not while a lookup that began before a switch runs in the bank they go to (R72). -/
def Part.recordsTake (p : Part) : Bool := p.pricingTakes && !p.lookupIn p.inactive

/-- A PRICE HEAD or FILE HEAD payload (R81). One that finds the staging EMPTY discards none and counts none (DESIGN CHOICE, unsafe;
assumption 79). Every open fetch is asked to end early, one placed for a generation discarded earlier too (DESIGN CHOICE, unsafe;
assumption 82). -/
def Part.takeHead (b : Bytes) (p : Part) : Part :=
  let g := fieldAt b 0 4
  let n := fieldAt b 4 2
  let ignored := p.countPrice fun c => { c with headsIgnored := bump c.headsIgnored }
  if b.length ≠ 10 ∨ n = 0 ∨ Config.bankSlots < n ∨ 1439 < fieldAt b 8 2 then ignored
  else if g ≤ p.price.activeGen ∨ (p.price.staging.state ≠ .empty ∧ g ≤ p.price.staging.generation) then ignored
  else
    let old := p.price.staging
    let q := if old.state = .empty then p.removeStaging else p.removeStaging.countPrice Discard.newerHead.count
    let q := old.fetches.foldl (fun r f => r.endEarly f.tag) q
    let q := q.modStaging fun s =>
      { s with generation := g, n := some n, effDay := fieldAt b 6 2, effMinute := fieldAt b 8 2 }
    q.stagingTo .receiving

/-- A PRICE PART or FILE PART payload (R82). -/
def Part.takePart (b : Bytes) (p : Part) : Part :=
  let g := fieldAt b 0 4
  let count := fieldAt b 6 1
  let s := p.price.staging
  if b.length ≠ 7 + priceRecordBytes * count ∨ count = 0 ∨ Config.fetchPerData < count ∨ s.generation ≠ g ∨
      (s.state ≠ .receiving ∧ s.state ≠ .gaps) then
    p.countPrice fun c => { c with partsIgnored := bump c.partsIgnored }
  else Part.stageRecords g (fieldAt b 4 2) (cutRecords priceRecordBytes count (b.drop 7)) p

/-- A PRICE END or FILE END payload (R83). An N it brings where none was known is recorded as it comes (DESIGN CHOICE, unsafe;
assumption 84). -/
def Part.takeEnd (b : Bytes) (p : Part) : Part :=
  let s := p.price.staging
  let n := fieldAt b 4 2
  if b.length = 10 ∧ s.generation = fieldAt b 0 4 ∧ (s.state = .receiving ∨ s.state = .gaps) then
    if s.n ≠ none ∧ s.n ≠ some n then p.discard .entries
    else
      let r := (p.modStaging fun s => { s with fileCheck := some (fieldAt b 6 4), n := some n }).readFull n
      if r.1 then r.2.decideStaging else if s.state = .gaps then r.2 else r.2.enterGaps
  else p

/-! ### sync orders (R87) -/

/-- A sync order for a target; it waits while a switch is being made (assumption 15). One that finds the staging EMPTY discards none
and counts none (R87; DESIGN CHOICE, unsafe; assumption 79). -/
def Part.syncOrder (g : Nat) (p : Part) : Part :=
  if p.price.switching.isSome then p.modPrice fun x => { x with syncWaits := some g }
  else if g ≤ p.price.activeGen then p
  else if p.price.staging.state ≠ .empty ∧ g ≤ p.price.staging.generation then p
  else
    let q := if p.price.staging.state = .empty then p.removeStaging else p.removeStaging.countPrice Discard.sync.count
    (q.modStaging fun s => { s with generation := g }).enterGaps

/-! ### the merge walk and the switch (R89, R90) -/

/-- The cursor moved in the active bank until its item code is not below `code`; entries that fail their CRC are passed. -/
def Part.cursorTo (p : Part) (code : Nat) : Nat → Nat → Nat
  | 0, c => c
  | fuel + 1, c =>
    if c < p.price.activeCount then
      match p.goodEntry p.price.active c with
      | none => p.cursorTo code fuel (c + 1)
      | some e => if e.code < code then p.cursorTo code fuel (c + 1) else c
    else c

/-- The old charged price of an item in the active bank (R89). -/
def BankEntry.oldCharged (e : BankEntry) : Nat := e.charged

/-- The staged entry as the walk writes it (R89). -/
def BankEntry.merged (e : BankEntry) (old : Option BankEntry) (c : Clock) : BankEntry :=
  let clear := { e with hold := false, held := 0, startKnown := false, startDay := 0, startMinute := 0, count := 0 }
  match old with
  | none => clear
  | some o =>
    if o.oldCharged < e.effective then
      { clear with hold := true, held := o.oldCharged, startKnown := c.valid,
                   startDay := if c.valid then c.day else 0, startMinute := if c.valid then c.minute else 0 }
    else clear

/-- The walk goes on with its next index; after index N - 1 the slots from N on are written not valid (R89). -/
def Part.walkOn (ended : Bool) (p : Part) : Part :=
  if ended then p.wipeSlots .staging p.inactive (p.price.staging.n.getD 0) Config.bankSlots
  else if p.asks.has .staging .mergeStep then p
  else p.ask .staging .mergeStep

/-- The walk begins, or begins again, from index 0 (R88, R79). -/
def Part.beginWalk (p : Part) : Part :=
  let ended := decide (p.price.staging.n.getD 0 = 0)
  (p.modPrice fun x => { x with walk := some ⟨0, 0, 0, 0, ended⟩ }).walkOn ended

/-- One staged entry of the walk (R89), and what it reads of the map and of the active bank. -/
def Part.mergeStep (p : Part) : Part :=
  match p.price.walk with
  | none => p
  | some w =>
    if w.ended then p
    else
      match p.goodEntry p.inactive w.index with
      | none => p.discard .order
      | some e =>
        if e.valid = false ∨ p.marked w.index = false ∨ e.code ≤ w.before then p.discard .order
        else
          let cur := p.cursorTo e.code p.price.activeCount w.cursor
          let old := match p.goodEntry p.price.active cur with
            | some o => if cur < p.price.activeCount ∧ o.code = e.code then some o else none
            | none => none
          let e' := e.merged old p.pres.clock
          let i := w.index + 1
          let ended := decide (p.price.staging.n.getD 0 ≤ i)
          (((p.loads .staging (mapBursts w.index i + (cur - w.cursor) + 1)).setEntry .staging p.inactive w.index e').modPrice
            fun x => { x with walk := some ⟨i, cur, e.code, w.holds + bit e'.hold, ended⟩ }).walkOn ended

/-- The walk has reached its end, every slot of the bank written: the switch's header write is asked (R89, R90 step 1). Before the
bursts of the walk have finished it has not. -/
def Part.walkDone (p : Part) : Part :=
  match p.price.walk with
  | some w =>
    if w.ended = true ∧ p.asks.idle .staging = true then
      let n := p.price.staging.n.getD 0
      let other := p.inactive
      let g := p.price.staging.generation
      let q := p.modPrice fun x => { x with walk := none, switching := some w.holds }
      q.askHeader .pricing fun h =>
        ({ fetches := [] } : Staging).toHeader { h with active := other, activeGen := g, activeCount := n }
    else p
  | none => p

/-- The switch takes effect on its header notice (R90 steps 2 to 4); a hold sweep due or under way stops (R92). -/
def Part.switchBank (holds : Nat) (p : Part) : Part :=
  let g := p.price.staging.generation
  let previous := p.price.activeGen
  let n := p.price.staging.n.getD 0
  let bank := p.inactive
  let q := ((p.modPrice fun x =>
    { x with active := bank, activeGen := g, activeCount := n, copy := p.copyOf bank n,
             staging := { fetches := x.staging.fetches }, trigger := .disarmed, switching := none, pauseTimer := false,
             fetchTimer := false, sweep := none, sweepDue := false,
             ctr := { x.ctr with switches := bump x.ctr.switches } }).unask .bank .sweepStep).clearMap .staging
  (q.append .pricing stationTill [.priceActivated g previous n holds]).2

/-- A sync order that waited for the switch is taken (assumption 15). -/
def Part.takeWaitingSync (p : Part) : Part :=
  match p.price.syncWaits with
  | none => p
  | some g => (p.modPrice fun x => { x with syncWaits := none }).syncOrder g

/-! ### holds and outstanding counts (R91) -/

/-- HOLD cleared on every entry with HOLD set and count 0 (R91). -/
def Part.holdPass (p : Part) : Part :=
  p.passEntries fun e q =>
    if e.hold ∧ e.count = 0 then
      (some { e with hold := false }, q.countPrice fun c => { c with holdsCleared := bump c.holdsCleared })
    else (none, q)

/-- The outstanding count of every entry of the active bank set to 0 (R145). -/
def Part.countPass (p : Part) : Part := p.passEntries fun e q => (some { e with count := 0 }, q)

/-- A walk end at the head of what the label service sent is taken (assumption 16). -/
def Part.takeWalkEnds : Nat → Part → Part
  | 0, p => p
  | n + 1, p =>
    match p.price.events with
    | .walkEnd :: rest => Part.takeWalkEnds n ((p.modPrice fun x => { x with events := rest }).holdPass)
    | _ => p

/-- The label service sends an event (R135, R145, R148). -/
def Part.sendEvent (e : LabelEvent) (p : Part) : Part :=
  let q := p.modPrice fun x => { x with events := x.events ++ [e] }
  q.takeWalkEnds q.price.events.length

/-- The event at the head of the list leaves it. -/
def Part.dropEvent (p : Part) : Part := p.modPrice fun x => { x with events := x.events.drop 1 }

def Part.countFault (p : Part) : Part := p.countPrice fun c => { c with countFaults := bump c.countFaults }

/-- "label not current" (R91). -/
def Part.labelNotCurrent (item : Nat) (p : Part) : Part :=
  match p.lookupEntry .bank item with
  | (none, q) => q
  | (some (i, e), q) =>
    if e.count < Config.countMax then q.setEntry .bank q.price.active i { e with count := e.count + 1 } else q.countFault

/-- "label current" (R91). -/
def Part.labelCurrent (item : Nat) (p : Part) : Part :=
  match p.lookupEntry .bank item with
  | (none, q) => q
  | (some (i, e), q) =>
    if e.count = 0 then q.countFault
    else if e.count = 1 ∧ e.hold = true then
      (q.setEntry .bank q.price.active i { e with count := 0, hold := false }).countPrice fun c =>
        { c with holdsCleared := bump c.holdsCleared }
    else q.setEntry .bank q.price.active i { e with count := e.count - 1 }

/-! ### the hold sweep (R92) -/

/-- One entry of the sweep. -/
def sweepOne (limit : Nat) (c : Clock) (e : BankEntry) (p : Part) : Option BankEntry × Part :=
  if e.valid ∧ e.hold then
    if e.startKnown = false then (some { e with startKnown := true, startDay := c.day, startMinute := c.minute }, p)
    else if e.startDay * 1440 + e.startMinute + limit * 60 ≤ c.day * 1440 + c.minute then
      (some { e with hold := false },
        ((p.append .pricing stationTill [.holdReleased e.code e.held e.count]).2).countPrice fun k =>
          { k with holdsReleased := bump k.holdsReleased })
    else (none, p)
  else (none, p)

/-- The burst of the next entry of the sweep is asked. -/
def Part.askSweep (p : Part) : Part := if p.asks.has .bank .sweepStep then p else p.ask .bank .sweepStep

/-- A sweep begins at index 0. -/
def Part.beginSweep (p : Part) : Part :=
  if p.price.activeCount = 0 then p else (p.modPrice fun x => { x with sweep := some 0 }).askSweep

/-- The entry of the sweep's burst is acted on, and the next one read (R92). -/
def Part.sweepStep (p : Part) : Part :=
  match p.price.sweep with
  | none => p
  | some i =>
    let q := p.passEntry (sweepOne ((p.cfg.map (·.holdLimit)).getD 0) p.pres.clock) i
    if i + 1 < q.price.activeCount then (q.modPrice fun x => { x with sweep := some (i + 1) }).askSweep
    else q.modPrice fun x => { x with sweep := none }

/-! ### peer notices (R84, R85) -/

/-- Skip marks of a peer: cleared by a presence that still shows the generation, and by ABSENT (R84). -/
def Part.pricingNotice (n : StationNo) (p : Part) : Part :=
  let clear : Bool := match (p.peer n).state with
    | .absent => true
    | .present => ((p.shown n).map (·.shows p.price.staging.generation)).getD false
    | .unknown => false
  let q := if clear then p.modStaging fun s => { s with skips := s.skips.filter fun x => decide (x ≠ n) } else p
  q.checkFetch

/-! ### serving a fetch (R35) -/

/-- The record of one index of the bank that holds a generation. -/
def Part.fetchRecord (p : Part) (g i : Nat) : Bytes :=
  if p.price.activeGen = g then
    if i < p.price.activeCount then (parseEntry (p.entryBytes p.price.active i)).record else withCrc (List.replicate 22 0)
  else if p.marked i then (parseEntry (p.entryBytes p.inactive i)).record
  else withCrc (List.replicate 22 0)

/-- The map bursts that serving `n` records from index `pos` of a generation takes: those of their marks, where it is staged. -/
def Part.fetchMapBursts (p : Part) (g pos n : Nat) : Nat := if p.price.activeGen = g then 0 else mapBursts pos (pos + n)

/-- The entries N of a generation held. -/
def Part.entriesOf (p : Part) (g : Nat) : Nat :=
  if p.price.activeGen = g then p.price.activeCount else p.price.staging.n.getD 0

/-! ### the commands -/

/-- A PRICE frame of this kind, first of what has reached the pricing unit (R79), where the unit takes it now; its buffer returns
once it has been taken. -/
def Part.takePriceFrame (takes : Bool) (kind : Nat) (f : Bytes → Part → Part) (p : Part) : Part :=
  if takes then
    match p.price.inbox with
    | .frame it :: rest =>
      let b := parseBody (p.bufBytes it.buf)
      if b.kind = kind then
        ((f b.payload (p.modPrice fun x => { x with inbox := rest })).giveBack it.buf).fetchesEnded
      else p
    | _ => p
  else p

def Part.priceHead (p : Part) : Part := p.takePriceFrame p.pricingTakes kindPriceHead Part.takeHead
def Part.pricePart (p : Part) : Part := p.takePriceFrame p.recordsTake kindPricePart Part.takePart
def Part.priceEnd (p : Part) : Part := p.takePriceFrame p.pricingTakes kindPriceEnd Part.takeEnd

/-- The receive pause (R83). -/
def Part.receivePause (p : Part) : Part :=
  if p.price.pauseTimer = true ∧ p.price.staging.state = .receiving then p.enterGaps else p

/-- The recount pass: the received count and the check accumulator from the map and the bank (R79). -/
def Part.recountDone (p : Part) : Part :=
  if p.price.recount then
    let marks := (List.range Config.bankSlots).filter p.marked
    let q := p.modStaging fun s =>
      { s with received := marks.length
               check := (marks.foldl (fun acc i => acc + (parseEntry (p.entryBytes p.inactive i)).recCrc) 0) % 4294967296 }
    ((q.modPrice fun x => { x with recount := false }).loads .staging (mapBursts 0 Config.bankSlots + marks.length)).checkFetch
  else p

def Part.fetchTick (p : Part) : Part := if p.price.fetchTimer then p.checkFetch else p

/-- N of a staging has become known from a DATA, whose records may all have been marked before: one that is still open for the
generation, with every index below N marked, is completed, once the DATA's records have been taken (R80, R87; the moment is a DESIGN
CHOICE, safe; assumption 84). -/
def Part.nowKnown (gen : Nat) (p : Part) : Part :=
  let s := p.price.staging
  if (s.state = .receiving ∨ s.state = .gaps) ∧ s.generation = gen then p.decideFull else p

/-- A fetch DATA buffer handed over by the call controller (R86). An N that the DATA brings where none was known is recorded as it
comes: R81 gives a range for a head's alone (DESIGN CHOICE, unsafe; assumption 84). -/
def Part.fetchData (p : Part) : Part :=
  if p.recordsTake then
    match p.price.inbox with
    | .data buf _ tag _ :: rest =>
      let b := (parseBody (p.bufBytes buf)).payload
      let q := p.modPrice fun x => { x with inbox := rest }
      let n := fieldAt b 4 2
      let records := cutRecords priceRecordBytes (fieldAt b 1 1) (b.drop 6)
      let done := fun (r : Part) => (r.giveBack buf).fetchesEnded
      match q.price.staging.fetches.find? fun f => decide (f.tag = tag) with
      | none => done q
      | some f =>
        if f.generation = q.price.staging.generation ∧ q.price.staging.state ≠ .empty then
          match q.price.staging.n with
          | some k =>
            if k = n then done (Part.stageRecords f.generation (fieldAt b 2 2) records q)
            else done (q.modStaging fun s => { s with skips := if f.source ∈ s.skips then s.skips else f.source :: s.skips })
          | none =>
            done ((Part.stageRecords f.generation (fieldAt b 2 2) records
              (q.modStaging fun s => { s with n := some n })).nowKnown f.generation)
        else done q
    | _ => p
  else p

/-- The armed trigger has fired: ACTIVATING, and the merge walk begins (R88). -/
def Part.activate (p : Part) : Part :=
  if p.price.trigger = .fired ∧ p.price.staging.state = .complete then
    (p.stagingTo .activating).beginWalk
  else p

/-- The event at the head is "label not current". -/
def Part.takeNotCurrent (p : Part) : Part :=
  match p.price.events with
  | .notCurrent item :: rest =>
    ((p.modPrice fun x => { x with events := rest }).labelNotCurrent item).takeWalkEnds rest.length
  | _ => p

/-- The event at the head is "label current". -/
def Part.takeCurrent (p : Part) : Part :=
  match p.price.events with
  | .current item :: rest =>
    ((p.modPrice fun x => { x with events := rest }).labelCurrent item).takeWalkEnds rest.length
  | _ => p

/-- The sweep of the minute that changed begins (R92); one still under way goes on first (assumption 24). -/
def Part.sweepNow (p : Part) : Part :=
  if p.pres.clock.valid = true ∧ p.price.sweepDue = true ∧ p.price.sweep = none then
    (p.modPrice fun x => { x with sweepDue := false }).beginSweep
  else p

def execPriceHeadReceived (s : State) : Host.Outcome State Fault Refusal := s.run Part.priceHead
def execPricePartReceived (s : State) : Host.Outcome State Fault Refusal := s.run Part.pricePart
def execPriceEndReceived (s : State) : Host.Outcome State Fault Refusal := s.run Part.priceEnd
def execReceivePauseExpiry (s : State) : Host.Outcome State Fault Refusal := s.run Part.receivePause
def execRecountPassDone (s : State) : Host.Outcome State Fault Refusal := s.run Part.recountDone
def execFetchTimerTick (s : State) : Host.Outcome State Fault Refusal := s.run Part.fetchTick
def execFetchDataTaken (s : State) : Host.Outcome State Fault Refusal := s.run Part.fetchData
def execActivationTrigger (s : State) : Host.Outcome State Fault Refusal := s.run Part.activate
def execMergeWalkEnd (s : State) : Host.Outcome State Fault Refusal := s.run Part.walkDone
def execLabelNotCurrent (s : State) : Host.Outcome State Fault Refusal := s.run Part.takeNotCurrent
def execLabelCurrent (s : State) : Host.Outcome State Fault Refusal := s.run Part.takeCurrent
def execHoldSweep (s : State) : Host.Outcome State Fault Refusal := s.run Part.sweepNow

end Sys2Proof.Machine
end

