-- ==== Sys2Proof/Machine/Labels.lean ====
section
/-! DEFINITION. The label service (chapter 08): table, queues, orders, reports, notices, the label walk and the supervisor
requests. -/

namespace Sys2Proof.Machine

/-! ### the table and its tallies (R133, R153) -/

def Part.labelBytes (p : Part) (i : Nat) : Bytes := p.read (labelAddr i) Config.labelBytes

/-- Entry `i`, where it is in use: its label id is not 0. -/
def Part.labelAt (p : Part) (i : Nat) : Option LabelEntry :=
  let bs := p.labelBytes i
  if fieldAt bs 0 3 = 0 then none else some (parseLabel bs)

/-- The indices in use, in table order. -/
def Part.labelsInUse (p : Part) : List Nat := (List.range Config.labelSlots).filter fun i => (p.labelAt i).isSome

def Part.findLabel (p : Part) (id : Nat) : Option (Nat × LabelEntry) :=
  (List.range Config.labelSlots).findSome? fun i =>
    match p.labelAt i with
    | some e => if e.id = id then some (i, e) else none
    | none => none

/-- The bursts that read one entry (R187). -/
def labelBursts : Nat := 2

/-- An entry is read through the LABEL requester. -/
def Part.loadLabel (p : Part) : Part := p.loads .labelTable labelBursts

/-- The whole table is read. -/
def Part.loadLabels (p : Part) : Part := p.loads .labelTable (labelBursts * Config.labelSlots)

/-- The table is read in order for the entry of a label id. -/
def Part.searchLabel (id : Nat) (p : Part) : Option (Nat × LabelEntry) × Part :=
  match p.findLabel id with
  | some (i, e) => (some (i, e), p.loads .labelTable (labelBursts * (i + 1)))
  | none => (none, p.loadLabels)

def LabelTallies.add (t : LabelTallies) (e : LabelEntry) : LabelTallies :=
  { inUse := t.inUse + 1, unreachable := t.unreachable + bit (decide (e.state = .unreachable)),
    low := t.low + bit (decide (e.battery = .low)), critical := t.critical + bit (decide (e.battery = .critical)) }

def LabelTallies.remove (t : LabelTallies) (e : LabelEntry) : LabelTallies :=
  { inUse := t.inUse - 1, unreachable := t.unreachable - bit (decide (e.state = .unreachable)),
    low := t.low - bit (decide (e.battery = .low)), critical := t.critical - bit (decide (e.battery = .critical)) }

def Part.retally (old new : Option LabelEntry) (p : Part) : Part :=
  p.modLab fun l =>
    let t := match old with | some e => l.tallies.remove e | none => l.tallies
    { l with tallies := match new with | some e => t.add e | none => t }

/-- An entry written, its first burst asked before its second (R187, R188), and the tallies kept (R153). -/
def Part.putLabel (i : Nat) (e : LabelEntry) (p : Part) : Part :=
  (p.retally (p.labelAt i) (some e)).write .labelTable (labelAddr i) e.bytes

/-- The bytes of an entry made 0. -/
def Part.wipeLabel (i : Nat) (p : Part) : Part := p.wipe .labelTable (labelAddr i) (labelAddr i + Config.labelBytes)

/-- An entry freed: every byte 0. -/
def Part.freeLabel (i : Nat) (p : Part) : Part :=
  (p.retally (p.labelAt i) none).wipeLabel i

/-- The push queues and the tallies of a table that is about to be read anew, or is empty. -/
def Labels.unread (l : Labels) : Labels := { l with urgent := [], routine := [], tallies := {} }

/-- The table is emptied at a cold start, through the PRICE requester (R41, R133, R188). -/
def Part.emptyLabels (p : Part) : Part :=
  (p.wipe .memory Config.labelBase (Config.labelBase + Config.labelSize)).modLab Labels.unread

/-- The start has been decided warm or cold: the joining state is past MEMORY (R41). -/
def Joining.pastMemory : Joining → Bool
  | .start | .config | .configFault | .selfTest | .memory => false
  | .journalScan | .lineFault | .listen | .duplicate | .announcing | .sync | .ready => true

/-- The label service takes notices and requests, and retries come due: not before MEMORY has decided whether the start is warm, and
not until a warm-start pass that is still to be made is done (R149; assumption 28). -/
def Part.labelsReady (p : Part) : Bool := decide (p.lab.warm = .none) && p.pres.joining.pastMemory

/-! ### content (R134) -/

/-- The fields a layout keeps. -/
def Layout.cut (l : Layout) (main unit : Shown) (mark : PromoMark) : LabelContent :=
  match l with
  | .price => .priced main .none .none
  | .priceUnit => .priced main unit .none
  | .priceUnitPromo => .priced main unit mark

/-- The target of an entry, from the active bank as it stands (R134). -/
def Part.target (e : LabelEntry) (p : Part) : LabelContent × Part :=
  match p.lookupEntry .labelContent e.item with
  | (none, q) => (.blank, q)
  | (some (_, x), q) => (e.layout.cut x.stage5.1 x.stage5.2.1 x.stage5.2.2, q)

/-- The shown content equals the target; UNKNOWN equals nothing (R134). -/
def LabelContent.matchesTarget (shown target : LabelContent) : Bool := decide (shown ≠ .unknown) && decide (shown = target)

/-! ### count events (R135) -/

/-- Events are sent for this entry: outside a label walk, or where its walk mark is set. -/
def Part.accounts (p : Part) (e : LabelEntry) : Bool := decide (p.lab.walk = .none) || e.walked

/-- An event of an entry, withheld where the walk has not reached it (R135, R147). -/
def Part.countEvent (e : LabelEntry) (ev : LabelEvent) (p : Part) : Part := if p.accounts e then p.sendEvent ev else p

/-! ### the push queues (R136) -/

def Labels.queue (l : Labels) : PushQueue → List Nat
  | .urgent => l.urgent | .routine => l.routine

def Labels.setQueue (l : Labels) (u : PushQueue) (q : List Nat) : Labels :=
  match u with
  | .urgent => { l with urgent := q } | .routine => { l with routine := q }

def Part.leaveQueue (i : Nat) (p : Part) : Part :=
  p.modLab fun l => { l with urgent := l.urgent.filter fun x => decide (x ≠ i), routine := l.routine.filter fun x => decide (x ≠ i) }

/-- The entry becomes QUEUED and joins the tail of its queue: URGENT where its item stands in HOLD (R136). -/
def Part.queueLabel (i : Nat) (e : LabelEntry) (p : Part) : Part :=
  let r := p.lookupEntry .labelContent e.item
  let u : PushQueue := match r.1 with
    | some (_, x) => if x.hold then .urgent else .routine
    | none => .routine
  (r.2.putLabel i { e with state := .queued, queue := some u, tag := none, due := none }).modLab fun l =>
    l.setQueue u (l.queue u ++ [i])

/-! ### orders (R139) -/

/-- An order is taken now (R139). -/
def Part.ordersGo (p : Part) : Bool :=
  p.labelFitted && p.lab.headUp && p.pres.joining.labelOrders && decide (p.lab.window.length < Config.orderWindow) &&
    decide (p.lab.warm = .none)

/-- The head of URGENT, or of ROUTINE where URGENT is empty. -/
def Labels.nextInQueue (l : Labels) : Option (PushQueue × Nat) :=
  match l.urgent, l.routine with
  | i :: _, _ => some (.urgent, i)
  | [], i :: _ => some (.routine, i)
  | [], [] => none

/-- Steps 4 to 6 of R139 with the buffer granted. -/
def Part.sendOrder (i : Nat) (e : LabelEntry) (target : LabelContent) (b : Buf) (p : Part) : Part :=
  let tag := freshTag (p.lab.window.map (·.tag)) Config.orderWindow p.lab.orderTag
  let f := p.fill .labelContent b (orderBytes tag e.id target)
  ((f.2.joinLabels tag f.1).putLabel i
      { e with state := .sent, queue := none, sent := some target, tag := some tag, due := none }).modLab fun l =>
    { l with orderTag := tag + 1, window := l.window ++ [⟨tag, i, e.id, target, false, false⟩] }

/-- Orders are taken while the conditions of R139 hold, `n` at the most. -/
def Part.takeOrders : Nat → Part → Part
  | 0, p => p
  | n + 1, p =>
    if p.ordersGo then
      match p.lab.nextInQueue with
      | none => p
      | some (u, i) =>
        let q := (p.modLab fun l => l.setQueue u ((l.queue u).drop 1)).loadLabel
        match q.labelAt i with
        | none => Part.takeOrders n q
        | some e =>
          let t := q.target e
          if e.shown.matchesTarget t.1 then
            Part.takeOrders n ((t.2.putLabel i { e with state := .current, queue := none }).countEvent e (.current e.item))
          else
            match t.2.takeBuffer .other with
            | (none, r) => r.modLab fun l => l.setQueue u (i :: l.queue u)
            | (some b, r) => Part.takeOrders n (r.sendOrder i e t.1 b)
    else p

/-- The check of R139. -/
def Part.checkOrders (p : Part) : Part := p.takeOrders (p.lab.urgent.length + p.lab.routine.length)

/-- The entry becomes QUEUED, joins its queue, and the orders are checked. -/
def Part.queueAndCheck (i : Nat) (e : LabelEntry) (p : Part) : Part := (p.queueLabel i e).checkOrders

/-! ### the radio head (R137, R138) -/

/-- A good frame of the label link: the head timer restarts and the head is UP (R137). -/
def Part.headHeard (p : Part) : Part :=
  let q := p.modLab fun l => { l with headUp := true, headTimer := true }
  if p.lab.headUp then q else q.checkOrders

/-- One order of a window that is emptied (R138). -/
def Part.recallOrder (o : Order) (p : Part) : Part :=
  let q := p.loadLabel
  match q.labelAt o.index with
  | some e => if e.state = .sent ∧ e.tag = some o.tag then q.queueLabel o.index e else q
  | none => q

/-- The head goes DOWN (R138, R65). -/
def Part.headDown (p : Part) : Part :=
  let orders := p.lab.window
  let q := p.modLab fun l =>
    { l with headUp := false, headTimer := false, window := [], ctr := { l.ctr with headLosses := bump l.ctr.headLosses } }
  let q := orders.foldl (fun r o => r.recallOrder o) q
  let gone := q.fwd.labels.filter fun x => !x.begun
  (q.modFwd fun f => { f with labels := f.labels.filter (·.begun) }).giveBackAll (gone.map (·.buf))

/-- The sent notice of a LABEL ORDER: its report timer starts (R139). -/
def Part.orderSent (tag : Byte) (p : Part) : Part :=
  if p.lab.window.any fun o => decide (o.tag = tag) then
    p.modLab fun l =>
      { l with
        window := l.window.map fun o => if o.tag = tag then { o with sentNotice := true } else o
        ctr := { l.ctr with ordersSent := bump l.ctr.ordersSent } }
  else p

/-! ### reports (R140 to R143) -/

def Part.dropOrder (tag : Byte) (p : Part) : Part :=
  p.modLab fun l => { l with window := l.window.filter fun o => decide (o.tag ≠ tag) }

/-- A report SHOWN (R141). -/
def Part.reportShown (o : Order) (e : LabelEntry) (p : Part) : Part :=
  let q := p.countLab fun c => { c with shown := bump c.shown }
  let e := { e with shown := o.content, attempts := 0, tag := none }
  let t := q.target e
  if e.shown.matchesTarget t.1 then
    (t.2.putLabel o.index { e with state := .current }).countEvent e (.current e.item)
  else t.2.queueAndCheck o.index e

/-- An entry becomes UNREACHABLE (R142, R143). -/
def Part.unreachable (i : Nat) (e : LabelEntry) (p : Part) : Part :=
  (p.putLabel i { e with state := .unreachable, queue := none, tag := none, due := none }).countLab fun c =>
    { c with unreachable := bump c.unreachable }

/-- A failed attempt (R142). -/
def Part.failedAttempt (i : Nat) (e : LabelEntry) (p : Part) : Part :=
  let n := e.attempts + 1
  if n = Config.attemptsMax then p.unreachable i { e with attempts := n }
  else p.putLabel i { e with state := .retryWait, attempts := n, tag := none, due := some (p.lab.retrySeconds + n * 30) }

/-- The outcomes of a LABEL REPORT. -/
inductive ReportOutcome where
  | shown | noAnswer | refused
  deriving DecidableEq, Repr

def ReportOutcome.ofCode : Nat → Option ReportOutcome
  | 0 => some .shown | 1 => some .noAnswer | 2 => some .refused | _ => none

/-- A report treated by its outcome (R140 to R143). -/
def Part.report (o : Order) (e : LabelEntry) (out : ReportOutcome) (battery : Battery) (signal : Nat) (p : Part) : Part :=
  match out with
  | .shown => p.reportShown o { e with battery := battery, signal := signal }
  | .refused =>
    (p.countLab fun c => { c with refused := bump c.refused }).unreachable o.index
      { e with battery := battery, signal := signal }
  | .noAnswer => (p.countLab fun c => { c with noAnswer := bump c.noAnswer }).failedAttempt o.index e

def Part.strayReport (p : Part) : Part := p.countLab fun c => { c with strayReports := bump c.strayReports }

/-- A LABEL REPORT read (R140). -/
def Part.takeReport (b : Bytes) (p : Part) : Part :=
  match ReportOutcome.ofCode (fieldAt b 5 1), Battery.ofCode (fieldAt b 6 1) with
  | some out, some battery =>
    if b.length = 8 then
      match p.lab.window.find? fun o => decide (o.tag = byteAt b 1) && decide (o.id = fieldAt b 2 3) && o.sentNotice with
      | none => p.strayReport
      | some o =>
        let q := p.dropOrder o.tag
        if o.orphan then q.checkOrders
        else
          let q := q.loadLabel
          match q.labelAt o.index with
          | some e => (q.report o e out battery (fieldAt b 7 1)).checkOrders
          | none => q.checkOrders
    else p.strayReport
  | _, _ => p.strayReport

/-- The report timer of an order expires: one report timeout is counted (R142, R153). The timeout of an orphaned order frees its
place in the window and touches no entry (R150). -/
def Part.reportExpiry (tag : Byte) (p : Part) : Part :=
  match p.lab.window.find? fun o => decide (o.tag = tag) && o.sentNotice with
  | none => p
  | some o =>
    let q := (p.dropOrder o.tag).countLab fun c => { c with timeouts := bump c.timeouts }
    if o.orphan then q.checkOrders
    else
      let q := q.loadLabel
      match q.labelAt o.index with
      | some e => (q.failedAttempt o.index e).checkOrders
      | none => q.checkOrders

/-! ### notices (R144) -/

def Part.strayNotice (p : Part) : Part := p.countLab fun c => { c with strayNotices := bump c.strayNotices }

/-- A notice with the refresh mark (R144). -/
def Part.refreshLabel (i : Nat) (e : LabelEntry) (p : Part) : Part :=
  match e.state with
  | .current => ((p.queueLabel i { e with shown := .unknown }).countEvent e (.notCurrent e.item)).checkOrders
  | .queued | .sent => p.putLabel i e
  | .retryWait => p.queueAndCheck i e
  | .unreachable => p.queueAndCheck i { e with attempts := 0 }

/-- A LABEL NOTICE read (R144). -/
def Part.takeNotice (b : Bytes) (p : Part) : Part :=
  match p.searchLabel (fieldAt b 1 3), Battery.ofCode (fieldAt b 4 1) with
  | (some (i, e), q), some battery =>
    if b.length = 6 ∧ fieldAt b 5 1 ≤ 1 ∧ fieldAt b 1 3 ≠ 0 then
      let e := { e with battery := battery }
      if fieldAt b 5 1 = 1 then q.refreshLabel i e else q.putLabel i e
    else q.strayNotice
  | (none, q), _ => q.strayNotice
  | (_, q), none => q.strayNotice

/-! ### the label walk (R145 to R149) -/

/-- A label walk begins: walk marks cleared, the count pass asked (R145). -/
def Part.startWalk (p : Part) : Part :=
  let q := p.labelsInUse.foldl
    (fun r i => match r.labelAt i with
      | some e => if e.walked then r.putLabel i { e with walked := false } else r
      | none => r) p.loadLabels
  (q.modLab fun l => { l with walk := .counting }).sendEvent .countPass

/-- The notice of a bank switch (R145, R149). The warm-start walk is taken to have begun its count pass once it has asked for it, at the
end of its own pass: a switch from then on restarts it (DESIGN CHOICE, safe; assumption 86). -/
def Part.switchNotice (p : Part) : Part := if p.lab.warm = .none then p.startWalk else p

/-- The count pass at the head of the events is made and reported done (R145 step 3); a walk begun again since waits for its
own pass. -/
def Part.countPassDone (p : Part) : Part :=
  match p.price.events with
  | .countPass :: rest =>
    let q := (p.modPrice fun x => { x with events := rest }).countPass
    let q := if p.lab.walk = .counting ∧ LabelEvent.countPass ∉ rest then q.modLab fun l => { l with walk := .walking 0 } else q
    q.takeWalkEnds rest.length
  | _ => p

/-- One entry brought into step with the new bank (R146). -/
def Part.walkEntry (i : Nat) (e : LabelEntry) (p : Part) : Part :=
  let t := p.target e
  let same := e.shown.matchesTarget t.1
  let q := t.2
  let w := { e with walked := true }
  match e.state, same with
  | .current, true => q.putLabel i w
  | .current, false => ((q.queueLabel i w).sendEvent (.notCurrent e.item)).checkOrders
  | .queued, true => (q.leaveQueue i).putLabel i { w with state := .current, queue := none }
  | .queued, false => (q.putLabel i w).sendEvent (.notCurrent e.item)
  | .sent, _ => (q.putLabel i w).sendEvent (.notCurrent e.item)
  | .retryWait, true | .unreachable, true => q.putLabel i { w with state := .current, attempts := 0, due := none }
  | .retryWait, false | .unreachable, false => (q.putLabel i w).sendEvent (.notCurrent e.item)

/-- The cursor passes the last index: the walk has ended (R148). -/
def Part.walkEnd (p : Part) : Part :=
  ((p.modLab fun l => { l with walk := .none }).countLab fun c => { c with walks := bump c.walks }).sendEvent .walkEnd

/-- The walk takes the entry at its cursor (R146). -/
def Part.walkStep (p : Part) : Part :=
  match p.lab.walk with
  | .walking i =>
    let q := (p.modLab fun l => { l with walk := .walking (i + 1) }).loadLabel
    let q := match p.labelAt i with
      | some e => if e.walked then q else q.walkEntry i e
      | none => q
    if Config.labelSlots ≤ i + 1 then q.walkEnd else q
  | .none | .counting => p

/-- One entry of the warm-start pass (R149). -/
def Part.warmEntry (i : Nat) (p : Part) : Part :=
  match p.labelAt i with
  | none => p
  | some e =>
    if crcGood (p.labelBytes i) then
      let q := p.retally none (some e)
      match e.state with
      | .queued | .sent | .retryWait => q.queueLabel i e
      | .current | .unreachable => q
    else
      (p.wipeLabel i).modMem fun m => { m with labelsLost := bump m.labelsLost }

/-- The warm-start pass is done, from empty queues and tallies, and the label walk begins (R149). -/
def Part.warmPassDone (p : Part) : Part :=
  if p.lab.warm = .pass then
    let q := (List.range Config.labelSlots).foldl (fun r i => r.warmEntry i) ((p.modLab Labels.unread).loadLabels)
    ((q.modLab fun l => { l with warm := .none }).startWalk).checkOrders
  else p

/-! ### supervisor requests (R150 to R152) -/

/-- The window entry of a label is orphaned. -/
def Part.orphan (e : LabelEntry) (p : Part) : Part :=
  p.modLab fun l => { l with window := l.window.map fun o => if some o.tag = e.tag then { o with orphan := true } else o }

/-- The entry's former state is left behind (R150, R151). -/
def Part.uproot (i : Nat) (e : LabelEntry) (p : Part) : Part :=
  match e.state with
  | .sent => p.orphan e
  | .queued => p.leaveQueue i
  | .current | .retryWait | .unreachable => p

def Part.bindLabel (id item : Nat) (layout : Layout) (p : Part) : Result × Part :=
  let fresh : LabelEntry :=
    { id := id, item := item, layout := layout, state := .queued, queue := none, shown := .unknown, sent := none, tag := none,
      attempts := 0, due := none, battery := .ok, signal := 0, walked := true }
  match p.searchLabel id with
  | (some (i, e), p) =>
    let q := ((p.uproot i e).queueLabel i { fresh with battery := e.battery, signal := e.signal }).sendEvent (.notCurrent item)
    let q := if e.state ≠ .current ∧ p.accounts e = true then q.sendEvent (.current e.item) else q
    (.ok, q.checkOrders)
  | (none, p) =>
    match (List.range Config.labelSlots).find? fun i => (p.labelAt i).isNone with
    | none => (.full, p)
    | some i => (.ok, ((p.queueLabel i fresh).sendEvent (.notCurrent item)).checkOrders)

def Part.unbindLabel (id : Nat) (p : Part) : Result × Part :=
  match p.searchLabel id with
  | (none, p) => (.notFound, p)
  | (some (i, e), p) =>
    let q := p.uproot i e
    let q := if e.state ≠ .current ∧ p.accounts e = true then q.sendEvent (.current e.item) else q
    (.ok, q.freeLabel i)

def Part.retryLabel (id : Nat) (p : Part) : Result × Part :=
  match p.searchLabel id with
  | (none, p) => (.notFound, p)
  | (some (i, e), p) =>
    if e.state = .unreachable then (.ok, p.queueAndCheck i { e with attempts := 0 }) else (.wrongState, p)

/-- The fields of a LABEL QUERY reply (R152; widths: assumption 20). -/
def LabelEntry.queryBody (e : LabelEntry) : Bytes :=
  be 6 e.item ++ be 1 e.layout.code ++ be 1 e.state.code ++ be 2 e.attempts ++ be 1 e.battery.code ++ be 1 e.signal

/-! ### the commands -/

/-- A frame of the label link of one of these kinds is taken (R137). -/
def Part.takeLabelFrame (kind : Nat → Bool) (f : Bytes → Part → Part) (p : Part) : Part :=
  match p.linkFrame .label .label with
  | some (it, b) => if kind (fieldAt b 0 1) then f b ((p.consume it).headHeard) else p
  | none => p

def Part.headStatus (p : Part) : Part := p.takeLabelFrame (fun k => decide (k = linkHeadStatus)) fun _ q => q

/-- A good frame of no kind that the head sends (R137). LABEL ORDER is among them: the station alone sends it (DESIGN CHOICE, unsafe;
assumption 87). -/
def Part.labelUnknown (p : Part) : Part :=
  p.takeLabelFrame (fun k => decide (k ≠ linkHeadStatus) && decide (k ≠ linkReport) && decide (k ≠ linkNotice)) fun _ q =>
    q.countLab fun c => { c with unknown := bump c.unknown }

def Part.labelReport (p : Part) : Part := p.takeLabelFrame (fun k => decide (k = linkReport)) Part.takeReport

def Part.labelNotice (p : Part) : Part :=
  if p.labelsReady then p.takeLabelFrame (fun k => decide (k = linkNotice)) Part.takeNotice else p

def Part.headExpiry (p : Part) : Part := if p.lab.headUp = true ∧ p.lab.headTimer = true then p.headDown else p

/-- Entries in RETRY WAIT that are due become QUEUED, in table order (R142). -/
def Part.retryDue (p : Part) : Part :=
  p.labelsInUse.foldl
    (fun q i => match q.labelAt i with
      | some e =>
        if e.state = .retryWait ∧ e.due.getD 0 ≤ q.lab.retrySeconds then q.queueAndCheck i e else q
      | none => q) p.loadLabels

def Part.retryTick (p : Part) : Part :=
  let q := p.modLab fun l => { l with retrySeconds := l.retrySeconds + 1 }
  if q.labelsReady then q.retryDue else q

def execHeadStatusReceived (s : State) : Host.Outcome State Fault Refusal := s.run Part.headStatus
def execLabelFrameUnknown (s : State) : Host.Outcome State Fault Refusal := s.run Part.labelUnknown
def execLabelReportReceived (s : State) : Host.Outcome State Fault Refusal := s.run Part.labelReport
def execLabelNoticeReceived (s : State) : Host.Outcome State Fault Refusal := s.run Part.labelNotice
def execHeadTimerExpiry (s : State) : Host.Outcome State Fault Refusal := s.run Part.headExpiry
def execOrderTimerTick (s : State) : Host.Outcome State Fault Refusal := s.run Part.checkOrders
def execReportTimerExpiry (tag : Byte) (s : State) : Host.Outcome State Fault Refusal := s.run (Part.reportExpiry tag)
def execRetryTimerTick (s : State) : Host.Outcome State Fault Refusal := s.run Part.retryTick
def execCountPassDone (s : State) : Host.Outcome State Fault Refusal := s.run Part.countPassDone
def execLabelWalkEntry (s : State) : Host.Outcome State Fault Refusal := s.run Part.walkStep
def execWarmWalkPassDone (s : State) : Host.Outcome State Fault Refusal := s.run Part.warmPassDone

end Sys2Proof.Machine
end

