-- ==== Sys2Proof/Machine/Forwarding.lean ====
section
/-! DEFINITION. The route table and what each exit does (R54 to R61), and the removals of R64 and R65. -/

namespace Sys2Proof.Machine

/-! ### the night window (R158) -/

/-- The night window is in force (R158). -/
def Part.windowInForce (p : Part) : Bool :=
  match p.cfg with
  | none => false
  | some c => p.pres.clock.valid && decide ((p.pres.clock.minute + 1440 - c.nightStart) % 1440 < c.nightLength)

/-! ### the table (R54 to R57) -/

def guestPrefixValue (c : ConfigBlock) : Nat := c.guestPrefix * 4096
/-- The /24 of a station's guests. -/
def stationBlock (c : ConfigBlock) (n : StationNo) : Nat := guestPrefixValue c + n.val * 256
/-- The address of guest `i` of a station. -/
def guestAddress (c : ConfigBlock) (n : StationNo) (i : Nat) : Nat := stationBlock c n + i

def Part.setRoute (i : Fin 32) (e : RouteEntry) (p : Part) : Part :=
  p.modFwd fun f => { f with routes := f.routes.set i.val e }

/-- The static entry `k` of a configuration, at index 2 + k. -/
def staticEntry (c : ConfigBlock) (k : Nat) : RouteEntry :=
  match c.statics[k]? with
  | some s => ⟨s.value, s.len, s.exit, .static, true⟩
  | none => RouteEntry.blank

/-- What index `i` holds when the block passes (R54, R55). -/
def initialRoute (c : ConfigBlock) (i : Nat) : RouteEntry :=
  if i = 0 then ⟨guestPrefixValue c, 20, .discard, .builtIn, true⟩
  else if i = 1 then ⟨stationBlock c c.station, 24, .localGuest, .own, true⟩
  else if i < 10 then staticEntry c (i - 2)
  else if i = 31 then ⟨0, 0, .discard, .default, true⟩
  else RouteEntry.blank

def Part.initRoutes (c : ConfigBlock) (p : Part) : Part :=
  p.modFwd fun f => { f with routes := Vector.ofFn fun i => initialRoute c i.val }

/-- The exit of the default entry (R57). -/
def Part.defaultExit (p : Part) : Exit :=
  if p.trk.line = .up then .trunk
  else
    match stations.find? fun n => ((p.shown n).map (·.trunkUp)).getD false with
    | some n => .station n
    | none => .discard

/-- The default entry recomputed (R57): index 31, from configuration onward. -/
def Part.recomputeDefault (p : Part) : Part :=
  if p.cfg.isSome then p.setRoute 31 ⟨0, 0, p.defaultExit, .default, true⟩ else p

/-- A peer notice at the forwarding engine (R56). -/
def Part.routeNotice (n : StationNo) (p : Part) : Part :=
  match p.cfg with
  | none => p
  | some c =>
    let e : RouteEntry :=
      if (p.peer n).state = .present ∧ n ≠ c.station then ⟨stationBlock c n, 24, .station n, .learned, true⟩
      else { RouteEntry.blank with origin := .learned }
    (p.modFwd fun f => { f with routes := f.routes.set (10 + n.val) e }).recomputeDefault

/-! ### lookup (R58) -/

def RouteEntry.matchesAddr (e : RouteEntry) (a : Nat) : Bool :=
  e.valid && decide (a / 2 ^ (32 - e.len) = e.value / 2 ^ (32 - e.len))

/-- The valid entry with the greatest prefix length, the lower index among equals (R58). -/
def Forwarding.lookup (f : Forwarding) (a : Nat) : Option RouteEntry :=
  f.routes.toList.foldl
    (fun best e =>
      if e.matchesAddr a then
        match best with
        | none => some e
        | some b => if b.len < e.len then some e else best
      else best) none

/-- An address lies in the guest block of the branch. -/
def Part.inGuestBlock (p : Part) (a : Nat) : Bool :=
  match p.cfg with
  | some c => decide (a / 4096 = c.guestPrefix)
  | none => false

/-! ### what each exit does (R59) -/

def Cause.count (x : Cause) (c : FwdCounters) : FwdCounters :=
  match x with
  | .isolated => { c with isolated := bump c.isolated }
  | .noExit => { c with noExit := bump c.noExit }
  | .static => { c with static := bump c.static }
  | .oversize => { c with oversize := bump c.oversize }
  | .malformed => { c with malformed := bump c.malformed }
  | .collision => { c with collision := bump c.collision }

/-- The cause of the exit DISCARD (R59). No lookup ends in an OWN or LEARNED entry with that exit. -/
def Origin.cause : Origin → Cause
  | .builtIn => .isolated
  | .static => .static
  | .default | .own | .learned => .noExit

/-- What became of a packet. `localGuest`: its buffer is handed to the guest meter. -/
inductive Routed where
  | moved | discarded (c : Cause) | localGuest
  deriving DecidableEq, Repr

/-- A discard: the buffer returns and one discard is counted (R59). -/
def Part.discardPacket (x : Cause) (b : Buf) (p : Part) : Routed × Part := (.discarded x, (p.giveBack b).countFwd x.count)

/-- Where a packet came from: its own guest, the trunk, or a DATAGRAM with the header's station and, for hop count 1, the
origin station (R60, R61). -/
inductive Source where
  | guest | trunk | datagram (header : StationNo) (origin : Option StationNo)
  deriving DecidableEq, Repr

/-- The stations an exit may not name (R59, R60). -/
def Source.cameFrom : Source → List StationNo
  | .guest | .trunk => []
  | .datagram h none => [h]
  | .datagram h (some o) => [h, o]

/-- A packet that crosses the branch line to station `n` (R59 to R61). -/
def Part.toStation (n : StationNo) (src : Source) (packet : Bytes) (b : Buf) (p : Part) : Routed × Part :=
  if n = p.ownStation ∨ n ∈ src.cameFrom then p.discardPacket .noExit b
  else
    match src with
    | .datagram _ (some _) => p.discardPacket .noExit b
    | .datagram h none =>
      if Config.maxPayload < packet.length then p.discardPacket .oversize b
      else
        let r := p.fill .rewrite b (datagramBody n (some h) packet)
        (.moved, (r.2.enqueue .guest .datagram r.1).countFwd fun c => { c with forwarded := bump c.forwarded })
    | .guest | .trunk =>
      if Config.maxPayload < packet.length then p.discardPacket .oversize b
      else
        let r := p.fill .rewrite b (datagramBody n none packet)
        (.moved, (r.2.enqueue .guest .datagram r.1).countFwd fun c => { c with forwarded := bump c.forwarded })

/-- A packet routed: isolation check, lookup, exit (R58, R59). -/
def Part.route (src : Source) (packet : Bytes) (b : Buf) (p : Part) : Routed × Part :=
  if p.inGuestBlock (packetDest packet) ∧ p.inGuestBlock (packetSource packet) then p.discardPacket .isolated b
  else
    match p.fwd.lookup (packetDest packet) with
    | none => p.discardPacket .noExit b
    | some e =>
      match e.exit with
      | .localGuest =>
        if src = .guest then p.discardPacket .isolated b
        else (.localGuest, p.countFwd fun c => { c with delivered := bump c.delivered })
      | .trunk =>
        if p.trk.line = .up then
          let r := p.fill .rewrite b (be 1 trunkPacketKind ++ packet)
          (.moved, (r.2.joinPackets r.1).countFwd fun c => { c with toTrunk := bump c.toTrunk })
        else p.discardPacket .noExit b
      | .station n => p.toStation n src packet b
      | .discard => p.discardPacket e.origin.cause b

/-! ### removals (R64, R65) -/

/-- The trunk line leaves UP: the PACKETs not begun go, one NO EXIT discard each (R64). -/
def Part.dropPackets (p : Part) : Part :=
  let gone := p.fwd.packets.filter fun x => !x.begun
  ((p.modFwd fun f => { f with packets := f.packets.filter (·.begun) }).giveBackAll (gone.map (·.buf))).countFwd fun c =>
    { c with noExit := bumpBy gone.length c.noExit }

/-- The guest radio is down: the frames not begun go, one NO EXIT discard each (R65). -/
def Part.dropRadio (p : Part) : Part :=
  let gone := p.fwd.radio.filter fun x => !x.begun
  ((p.modFwd fun f => { f with radio := f.radio.filter (·.begun) }).giveBackAll (gone.map (·.buf))).countFwd fun c =>
    { c with noExit := bumpBy gone.length c.noExit }

end Sys2Proof.Machine
end

