-- ==== Sys2Proof/Machine/Guests.lean ====
section
/-! DEFINITION. The guest meter (chapter 09): the guest table, admission, tokens, notices, endings and the radio state. -/

namespace Sys2Proof.Machine

/-- Meter times are held modulo 2^32 (chapter 12). -/
def meterModulus : Nat := 4294967296

/-! ### the table (R155) -/

/-- Entry `i`, where it is ADMITTED; every entry is taken as FREE until all have been written FREE (R155). -/
def Part.guestAt (p : Part) (i : Nat) : Option Guest :=
  if p.gst.cleared < Config.guestSlots then none else parseGuest (p.read (guestAddr i) Config.guestBytes)

def Part.setGuest (i : Nat) (g : Guest) (p : Part) : Part := p.write .guestTable (guestAddr i) g.bytes

def Part.freeGuest (i : Nat) (p : Part) : Part := p.wipe .guestTable (guestAddr i) (guestAddr i + Config.guestBytes)

/-- Entries of the table are read through the GUEST requester. Until all have been written FREE nothing of the region is read: every
entry is taken as FREE without a burst (R155). -/
def Part.readGuests (n : Nat) (p : Part) : Part :=
  if p.gst.cleared < Config.guestSlots then p else p.loads .guestTable n

/-- The whole table is read. -/
def Part.loadGuests (p : Part) : Part := p.readGuests Config.guestSlots

/-- The indices of the ADMITTED entries, in order. -/
def Part.admitted (p : Part) : List Nat := (List.range Config.guestSlots).filter fun i => (p.guestAt i).isSome

def Part.findGuest (p : Part) (device : Nat) : Option (Nat × Guest) :=
  (List.range Config.guestSlots).findSome? fun i =>
    match p.guestAt i with
    | some g => if g.device = device then some (i, g) else none
    | none => none

/-- One entry written FREE at a start, by its own burst (R155). -/
def Part.clearGuestBurst (p : Part) : Part :=
  if p.gst.cleared < Config.guestSlots then
    let q := (p.put (guestAddr p.gst.cleared) (List.replicate Config.guestBytes 0)).modGst fun g =>
      { g with cleared := g.cleared + 1 }
    if q.gst.cleared < Config.guestSlots then q.ask .guestTable .guestClear else q
  else p

/-! ### the budget (R158) -/

/-- The budget B a tick works; it is in force until the next (R157, R158). -/
def Part.budget (p : Part) : Nat :=
  match p.cfg with
  | some c => 10 * (if p.windowInForce then c.gNight else c.gDay)
  | none => 0

/-- The idle time of a guest, in milliseconds. -/
def Part.idle (p : Part) (g : Guest) : Nat := (p.gst.meterTime + meterModulus - g.lastActive) % meterModulus

/-- A guest is active (R155). -/
def Part.active (p : Part) (g : Guest) : Bool := decide (p.idle g < 1000)

def Part.activeCount (p : Part) : Nat :=
  (p.admitted.filter fun i => ((p.guestAt i).map p.active).getD false).length

/-! ### notices (R161) -/

/-- A notice is built, or lost for want of a buffer; while the radio is DOWN it is not built at all (R161). -/
def Part.notice (n : GuestNotice) (device index address reason up down drops : Nat) (p : Part) : Part :=
  if p.gst.radioUp then
    match p.build .rewrite .guest (noticeBytes n device index address reason up down drops) with
    | (none, q) => q.countGst fun c => { c with noticesLost := bump c.noticesLost }
    | (some b, q) => q.joinRadio b
  else p

/-- A good frame of the guest link: the timer restarts, and the radio comes UP with ENDED ALL (R154). -/
def Part.radioHeard (p : Part) : Part :=
  let q := p.modGst fun g => { g with radioUp := true, radioTimer := true }
  if p.gst.radioUp then q else q.notice .endedAll 0 0 0 reasonReset 0 0 0

/-! ### ending guests (R162, R163) -/

def EndReason.count (r : EndReason) (c : GuestCounters) : GuestCounters :=
  match r with
  | .idle => { c with endedIdle := bump c.endedIdle }
  | .replaced => { c with endedReplaced := bump c.endedReplaced }
  | .night => { c with endedNight := bump c.endedNight }
  | .radio => { c with endedRadio := bump c.endedRadio }

/-- A guest is ended: its notice, its entry FREE, one ending counted (R162). -/
def Part.endGuest (r : EndReason) (i : Nat) (g : Guest) (p : Part) : Part :=
  ((p.notice .ended g.device i 0 r.code g.up g.down g.drops).freeGuest i).countGst r.count

/-- Every guest that `cond` names is ended, in index order. -/
def Part.endGuests (r : EndReason) (cond : Part → Guest → Bool) (p : Part) : Part :=
  p.admitted.foldl
    (fun q i => match q.guestAt i with
      | some g => if cond q g then q.endGuest r i g else q
      | none => q) p.loadGuests

/-- The night window comes into force with g_n of 0: every guest is ended, and B is 0 from then on (R162). -/
def Part.endNight (p : Part) : Part :=
  if (p.cfg.map (·.gNight)).getD 1 = 0 then (p.modGst fun g => { g with budget := 0 }).endGuests .night fun _ _ => true else p

/-- The radio goes DOWN: every entry FREE without a notice (R163). -/
def Part.radioDown (p : Part) : Part :=
  let q := (p.modGst fun g =>
    { g with radioUp := false, radioTimer := false, ctr := { g.ctr with radioLosses := bump g.ctr.radioLosses } }).dropRadio
  let q := q.admitted.foldl (fun r i => (r.freeGuest i).countGst EndReason.radio.count) q.loadGuests
  let old := fun (it : RxItem) => if it.line = .guest then { it with stale := true } else it
  q.modFwd fun f => { f with waiting := f.waiting.map old, taken := f.taken.map fun x => (x.1, old x.2) }

/-! ### policing (R159, R160) -/

/-- LIMITED is sent at most once a second (R159). -/
def Part.limitedDue (p : Part) (g : Guest) : Bool :=
  match g.limited with
  | none => true
  | some t => decide (1000 ≤ (p.gst.meterTime + meterModulus - t) % meterModulus)

/-- A packet is dropped BUDGET (R159, R160). The last LIMITED time is set wherever a LIMITED is due, with the radio DOWN too, when the
notice is not built (DESIGN CHOICE, unsafe; assumption 89). -/
def Part.dropBudget (i : Nat) (g : Guest) (b : Buf) (p : Part) : Part :=
  let q := (p.giveBack b).countGst fun c => { c with dropsBudget := bump c.dropsBudget }
  let g := { g with drops := bump g.drops }
  if p.limitedDue g then
    (q.notice .limited g.device i 0 0 0 0 0).setGuest i { g with limited := some p.gst.meterTime }
  else q.setGuest i g

/-- The greatest value of a byte count (R155). -/
def bytesMost : Nat := 4294967295

/-- A drop of cause NO EXIT (R156, R160). -/
def Part.dropNoExit (b : Buf) (p : Part) : Part :=
  (p.giveBack b).countGst fun c => { c with dropsNoExit := bump c.dropsNoExit }

/-- The engine's discard of a passed packet (R159); the entry is read again. -/
def Part.forwardDiscard (device i : Nat) (p : Part) : Part :=
  let q := (p.countGst fun c => { c with dropsNoExit := bump c.dropsNoExit }).readGuests 1
  match q.guestAt i with
  | some g => if g.device = device then q.setGuest i { g with drops := bump g.drops } else q
  | none => q

/-- An upstream packet policed (R159). -/
def Part.policeUp (i : Nat) (g : Guest) (packet : Bytes) (b : Buf) (p : Part) : Part :=
  if packet.length ≤ g.tokens then
    let g := { g with tokens := g.tokens - packet.length, up := capAdd bytesMost g.up packet.length }
    let address := match p.cfg with | some c => guestAddress c c.station i | none => 0
    match (p.setGuest i g).route .guest (withSource address packet) b with
    | (.discarded _, q) => q.forwardDiscard g.device i
    | (.moved, q) => q
    | (.localGuest, q) => q.giveBack b
  else p.dropBudget i g b

/-- A downstream packet, given LOCAL GUEST by the lookup (R160). The low 8 bits of its destination name the entry, where a static route
gave LOCAL GUEST to a destination outside the own /24 too (DESIGN CHOICE, unsafe; assumption 90). -/
def Part.deliver (packet : Bytes) (b : Buf) (p : Part) : Part :=
  let i := packetDest packet % 256
  if p.gst.radioUp = true ∧ packet.length ≤ Config.guestPacketMax then
    let p := p.readGuests 1
    match p.guestAt i with
    | none => p.dropNoExit b
    | some g =>
      if packet.length ≤ g.tokens then
        let q := p.setGuest i { g with tokens := g.tokens - packet.length, down := capAdd bytesMost g.down packet.length }
        let r := q.fill .rewrite b (be 1 guestDownKind ++ be 6 g.device ++ be 1 i ++ packet)
        (r.2.joinRadio r.1).countGst fun c => { c with delivered := bump c.delivered }
      else p.dropBudget i g b
  else p.dropNoExit b

/-! ### admission (R156, R157) -/

/-- The better of two candidates for replacement: greater idle time, then earlier admission, then lower index (R157). -/
def Part.idler (p : Part) (x y : Nat × Guest) : Nat × Guest :=
  if p.idle x.2 < p.idle y.2 then y
  else if p.idle y.2 < p.idle x.2 then x
  else if (p.gst.meterTime + meterModulus - x.2.admitted) % meterModulus <
      (p.gst.meterTime + meterModulus - y.2.admitted) % meterModulus then y
  else x

/-- The entry an admission takes: a FREE one, or the idlest where it is idle for more than 60 s (R157). -/
def Part.admissionEntry (p : Part) : Option (Nat × Option Guest) :=
  match (List.range Config.guestSlots).find? fun i => (p.guestAt i).isNone with
  | some i => some (i, none)
  | none =>
    match (p.admitted.filterMap fun i => (p.guestAt i).map fun g => (i, g)).foldl
        (fun best x => some (match best with | none => x | some y => p.idler y x)) none with
    | some (i, g) => if 60000 < p.idle g then some (i, some g) else none
    | none => none

/-- An unknown device that may be admitted (R157); B is the budget the last tick worked (assumption 71). -/
def Part.admitGuest (device : Nat) (packet : Bytes) (b : Buf) (p : Part) : Part :=
  match p.admissionEntry with
  | none =>
    ((p.notice .refusedFull device 0 0 0 0 0 0).giveBack b).countGst fun c =>
      { c with refusals := bump c.refusals, dropsFull := bump c.dropsFull }
  | some (i, old) =>
    let q := match old with
      | some g =>
        (p.endGuest .replaced i g).countGst fun c => { c with replacements := bump c.replacements }
      | none => p
    let g : Guest :=
      { device := device, admitted := p.gst.meterTime, lastActive := p.gst.meterTime,
        tokens := if q.gst.budget = 0 then 0 else Config.guestTokens, up := 0, down := 0, drops := 0, limited := none }
    let address := match p.cfg with | some c => guestAddress c c.station i | none => 0
    let q := (q.setGuest i g).notice .admitted device i address 0 0 0 0
    (q.countGst fun c => { c with admissions := bump c.admissions }).policeUp i g packet b

/-- A GUEST UP frame's packet in its buffer (R156). No entry is written before all have been written FREE (assumption 29). -/
def Part.guestPacket (frame : Bytes) (b : Buf) (p : Part) : Part :=
  let device := fieldAt frame 1 6
  let packet := frame.drop 7
  if device = 0 ∨ device = 2 ^ 48 - 1 ∨ packet.length < Config.packetHeader ∨ Config.guestPacketMax < packet.length ∨
      packetLength packet ≠ packet.length then
    (p.giveBack b).countGst fun c => { c with malformed := bump c.malformed }
  else
    let p := p.loadGuests
    match p.findGuest device with
    | some (i, g) => p.policeUp i { g with lastActive := p.gst.meterTime } packet b
    | none =>
      if p.pres.joining.guestAdmission = true ∧ p.gst.cleared = Config.guestSlots then p.admitGuest device packet b
      else p.dropNoExit b

/-! ### the meter (R158) -/

/-- One entry at a tick, given the share and the cap (R158). -/
def Part.meterEntry (share cap : Nat) (i : Nat) (p : Part) : Part :=
  match p.guestAt i with
  | none => p
  | some g =>
    let t := min g.tokens cap
    let t := if p.active g then min cap (t + share) else t
    if t = g.tokens then p else p.setGuest i { g with tokens := t }

def Part.meterShares (p : Part) : Part :=
  let k := p.activeCount
  let share := if k = 0 then 0 else p.budget / k
  let cap := max (4 * share) Config.guestTokens
  let q := p.modGst fun g => { g with budget := p.budget, cap := cap }
  q.admitted.foldl (fun r i => r.meterEntry share cap i) q.loadGuests

def Part.meterTick (p : Part) : Part :=
  let q := p.modGst fun g => { g with meterTime := (g.meterTime + 10) % meterModulus }
  (q.endGuests .idle fun r g => decide (600000 ≤ r.idle g)).meterShares

/-! ### the commands -/

/-- A frame of the guest link of one of these kinds is taken (R154); a stale one does not bring the radio UP (R163). -/
def Part.takeGuestFrame (kind : Nat → Bool) (f : RxItem → Bytes → Part → Part) (p : Part) : Part :=
  match p.linkFrame .guest .guest with
  | some (it, b) =>
    if kind (fieldAt b 0 1) then
      let q := p.leaveReceive it
      f it b (if it.stale then q else q.radioHeard)
    else p
  | none => p

def Part.guestUp (p : Part) : Part :=
  p.takeGuestFrame (fun k => decide (k = guestUpKind)) fun it b q => q.guestPacket b it.buf

/-- RADIO STATUS only tells that the radio is there (R154). The buffer of the ENDED ALL it may bring is asked before its own returns
(DESIGN CHOICE, unsafe; assumption 91). -/
def Part.radioStatus (p : Part) : Part :=
  p.takeGuestFrame (fun k => decide (k = radioStatusKind)) fun it _ q => q.giveBack it.buf

def Part.guestUnknown (p : Part) : Part :=
  p.takeGuestFrame (fun k => decide (k ≠ guestUpKind) && decide (k ≠ radioStatusKind)) fun it _ q =>
    (q.giveBack it.buf).countGst fun c => { c with unknown := bump c.unknown }

def Part.radioExpiry (p : Part) : Part := if p.gst.radioUp = true ∧ p.gst.radioTimer = true then p.radioDown else p

def execGuestUpReceived (s : State) : Host.Outcome State Fault Refusal := s.run Part.guestUp
def execRadioStatusReceived (s : State) : Host.Outcome State Fault Refusal := s.run Part.radioStatus
def execGuestFrameUnknown (s : State) : Host.Outcome State Fault Refusal := s.run Part.guestUnknown
def execRadioTimerExpiry (s : State) : Host.Outcome State Fault Refusal := s.run Part.radioExpiry
def execMeterTick (s : State) : Host.Outcome State Fault Refusal := s.run Part.meterTick

end Sys2Proof.Machine
end

