-- ==== Sys2Proof/Machine/Packets.lean ====
section
/-! DEFINITION. What the forwarding engine takes from the receive queue itself: DATAGRAMs, PACKETs of the trunk line, branch
frames of no known kind (R60 to R62). -/

namespace Sys2Proof.Machine

/-- A packet routed from the branch line or the trunk line (R59, R160). -/
def Part.forward (src : Source) (packet : Bytes) (b : Buf) (p : Part) : Part :=
  match p.route src packet b with
  | (.localGuest, q) => q.deliver packet b
  | (.moved, q) => q
  | (.discarded _, q) => q

/-- The station number an origin byte carries: bits 1 to 4. -/
def originStation (b : Byte) : StationNo := ⟨b.toNat / 2 % 16, Nat.mod_lt _ (by decide)⟩

/-- The origin a DATAGRAM carries, where its form is good (R60). -/
def BranchBody.datagramOrigin (b : BranchBody) : Option (Option StationNo) :=
  match b.hop, b.chain with
  | some 0, [] => if b.chained then none else some none
  | some 1, [o] => some (some (originStation o))
  | _, _ => none

/-- The payload is one whole packet (R60). -/
def wholePacket (b : Bytes) : Bool := decide (Config.packetHeader ≤ b.length) && decide (packetLength b = b.length)

def Part.datagram (p : Part) : Part :=
  match p.engineFrame .branch with
  | none => p
  | some (it, bs) =>
    let b := parseBody bs
    if b.kind = kindDatagram then
      let q := p.engineTakes it
      match b.datagramOrigin with
      | some o => if wholePacket b.payload then q.forward (.datagram it.station o) b.payload it.buf
                  else (q.discardPacket .malformed it.buf).2
      | none => (q.discardPacket .malformed it.buf).2
    else p

/-- A PACKET of the trunk line (R61). -/
def Part.trunkPacket (p : Part) : Part :=
  match p.engineFrame .trunk with
  | none => p
  | some (it, b) =>
    if fieldAt b 0 1 = trunkPacketKind then
      let q := p.engineTakes it
      if p.trk.line = .up then q.forward .trunk (b.drop 1) it.buf else (q.discardPacket .noExit it.buf).2
    else p

/-- A branch frame of no known kind, or one that carries a chain and is no DATAGRAM (R62, R199). -/
def Part.unknownKind (p : Part) : Part :=
  match p.engineFrame .branch with
  | none => p
  | some (it, bs) =>
    if (parseBody bs).kind = kindDatagram then p
    else ((p.engineTakes it).giveBack it.buf).countFwd fun c => { c with unknownKind := bump c.unknownKind }

def execDatagramReceived (s : State) : Host.Outcome State Fault Refusal := s.run Part.datagram
def execPacketReceived (s : State) : Host.Outcome State Fault Refusal := s.run Part.trunkPacket
def execUnknownKind (s : State) : Host.Outcome State Fault Refusal := s.run Part.unknownKind

end Sys2Proof.Machine
end

