-- ==== Sys2Proof/Machine/Trunk.lean ====
section
/-! DEFINITION. The trunk controller (chapter 10): claims and the holder record, the session, the upload and its BLOCKs, the
download, and the ends of a session. What the clock sets off stands in Night.lean. -/

namespace Sys2Proof.Machine

/-! ### the night (R167, R170) -/

/-- The night day number of the window in force (R167). -/
def Part.nightNow (p : Part) : Option Nat :=
  match p.cfg with
  | none => none
  | some c =>
    if p.windowInForce then
      some (if c.nightStart ≤ p.pres.clock.minute then p.pres.clock.day else (p.pres.clock.day + 65535) % 65536)
    else none

/-- The station the holder record names for night `d` (R170). -/
def Trunk.holderFor (t : Trunk) (d : Nat) : Option StationNo :=
  match t.holder with
  | some (s, d') => if d' = d then some s else none
  | none => none

/-- A claim or a presence of station `s` for night `d` (R170). -/
def Part.takeHolder (s : StationNo) (d : Nat) (p : Part) : Part :=
  match p.trk.holderFor d with
  | some x => if s.val < x.val then p.modTrk fun t => { t with holder := some (s, d) } else p
  | none => p.modTrk fun t => { t with holder := some (s, d) }

/-! ### messages (R166) -/

/-- The bytes of a message the holder builds. -/
def Part.messageBytes (p : Part) (what : TrunkFrame) : Bytes :=
  match what with
  | .hello =>
    helloBytes ((p.cfg.map (·.branchCode)).getD 0) p.ownStation.val p.price.activeGen (p.jrn.release + 1) p.pres.coldStarted
      p.trk.nightDay
  | .uploadEnd =>
    let count := fun st => (p.trk.table.filter fun e => decide (e.status = st)).length
    uploadEndBytes (count .done) (count .skipped) (count .failed)
  | .bye done => byeBytes done
  | .packet | .block _ => []

/-- HELLO, UPLOAD END or BYE built and queued; owed where the buffer is refused (R166). -/
def Part.message (what : TrunkFrame) (p : Part) : Part :=
  match p.build .trunkBlock .other (p.messageBytes what) with
  | (some b, q) => q.joinExchange what b
  | (none, q) => q.modTrk fun t => { t with owed := t.owed ++ [what] }

/-! ### the ends of a session (R185) -/

inductive Ending where
  | logon | carrier | ack | file | windowEnd | lowerHolder
  deriving DecidableEq, Repr

/-- The night state a session ends in: FAILED, CUT, or STANDBY for a step-down (R185). -/
def Ending.night : Ending → Night
  | .logon | .carrier | .ack | .file => .failed
  | .windowEnd => .cut
  | .lowerHolder => .standby

def Ending.count (x : Ending) (c : TrunkCounters) : TrunkCounters :=
  match x with
  | .logon => { c with failedLogon := bump c.failedLogon }
  | .carrier => { c with failedCarrier := bump c.failedCarrier }
  | .ack => { c with failedAck := bump c.failedAck }
  | .file => { c with failedFile := bump c.failedFile }
  | .windowEnd => { c with cutWindow := bump c.cutWindow }
  | .lowerHolder => { c with cutLower := bump c.cutLower }

/-- BYE is sent at this ending (R185). -/
def Ending.bye (x : Ending) (helloSent : Bool) : Bool :=
  match x with
  | .logon | .carrier | .ack | .file => false
  | .windowEnd => true
  | .lowerHolder => helloSent

/-- The frame is a BLOCK. -/
def TrunkFrame.isBlock : TrunkFrame → Bool
  | .block _ => true
  | .packet | .hello | .uploadEnd | .bye _ => false

/-- The block list holds a BLOCK with this buffer. -/
def Trunk.lists (t : Trunk) (b : Buf) : Bool := t.blocks.any fun x => decide (x.buf.num = b.num)

/-- EXCHANGE frames not begun go (R185 step 1). The buffer of a BLOCK of the block list is held by it until step 4; one that has
left the list, a BLOCK begun when an earlier session ended and sent again since (R12), returns like any other (R66). -/
def Part.dropExchange (p : Part) : Part :=
  let gone := p.fwd.exchange.filter fun x => !x.begun && !(x.what.isBlock && p.trk.lists x.buf)
  (p.modFwd fun f => { f with exchange := f.exchange.filter (·.begun) }).giveBackAll (gone.map (·.buf))

/-- A BLOCK stands in the trunk queue begun by the framer. -/
def Part.blockBegun (p : Part) (b : Block) : Bool :=
  p.fwd.exchange.any fun x => x.what.isBlock && x.begun && decide (x.buf.num = b.buf.num)

/-- Buffers of the block list and of open BLOCKs return; one begun returns at its sent notice (R185 step 4). They join the free list
in the order of the block list, then the open BLOCKs in table order (DESIGN CHOICE, unsafe; assumption 81). -/
def Part.dropBlocks (p : Part) : Part :=
  let opens := p.trk.table.filterMap (·.openBlock)
  let back := (p.trk.blocks ++ opens).filter fun b => !p.blockBegun b
  (p.modTrk fun t =>
    { t with blocks := [], table := t.table.map fun e => { e with openBlock := none } }).giveBackAll (back.map (·.buf))

/-- An open pull is asked to end early, and its records are discarded (R185 step 3, R180 step 6). -/
def Part.stopPull (p : Part) : Part :=
  match p.trk.pull with
  | .opened tag _ => (p.modTrk fun t => { t with pull := .opened tag true }).endEarly tag
  | .idle | .delay | .noRelay => p.modTrk fun t => { t with pull := .idle }

/-- A session that has not reached DONE ends (R185). -/
def Part.endSession (x : Ending) (p : Part) : Part :=
  let q := p.dropExchange
  let q := if x.bye p.trk.helloSent then
      match q.build .trunkBlock .other (byeBytes false) with
      | (some b, r) => r.joinExchange (.bye false) b
      | (none, r) => r
    else q
  (q.stopPull.dropBlocks.modTrk fun t =>
    { t with night := x.night, logonTimer := false, ackTimer := false, downloadTimer := false, sessionTimer := false,
             owed := [], own := .idle, turn := none }).countTrk x.count

/-! ### claims (R171, R172) -/

/-- The check for a claim (R171). -/
def Part.claimCheck (p : Part) : Part :=
  match p.nightNow with
  | none => p
  | some d =>
    if p.trk.line = .up ∧ p.pres.joining.nightExchange = true ∧ (p.trk.night = .none ∨ p.trk.night = .standby) ∧
        p.trk.holderFor d = none then
      match p.sendFrame .control .control (.claim d) (plainBody allStations kindClaim (be 2 d)) with
      | (true, q) => q.modTrk fun t => { t with night := .claiming, nightDay := d }
      | (false, q) => q
    else p

/-- The holder record is emptied, and the check follows (R170, R171). -/
def Part.emptyHolder (p : Part) : Part := (p.modTrk fun t => { t with holder := none }).claimCheck

/-- A HOLDING station steps down (R172). -/
def Part.stepDown (p : Part) : Part := p.endSession .lowerHolder

/-- The station becomes the holder in phase LOGON, or steps down at once (R171, R173). -/
def Part.enterHolding (p : Part) : Part :=
  let d := p.trk.nightDay
  let lower := match p.trk.holderFor d with
    | some s => decide (s.val < p.ownStation.val)
    | none => false
  let q := p.modTrk fun t =>
    { t with night := .holding, phase := .logon, helloSent := false, fileFollows := false, owed := [], expiries := 0 }
  if lower then q.stepDown
  else
    (q.modTrk fun t =>
      { t with holder := some (p.ownStation, d), logonTimer := true, sessionTimer := true }).message .hello

/-- The sent notice of a claim for night `d` (R171). -/
def Part.claimSent (d : Nat) (p : Part) : Part :=
  let q := p.countTrk fun c => { c with claimsSent := bump c.claimsSent }
  if p.trk.night = .claiming ∧ p.trk.nightDay = d ∧ p.nightNow = some d then q.enterHolding else q

/-- The dropped notice of a claim; the check follows whenever a claim leaves unsent (R171). -/
def Part.claimDropped (d : Nat) (p : Part) : Part :=
  (if p.trk.night = .claiming ∧ p.trk.nightDay = d then p.modTrk fun t => { t with night := .none } else p).claimCheck

/-- The withdrawal of a claim is taken, or its withdrawn notice arrives (R171, R172). -/
def Part.claimWithdrawn (d : Nat) (p : Part) : Part :=
  (if p.trk.night = .claiming ∧ p.trk.nightDay = d then
    (p.modTrk fun t => { t with night := .standby }).countTrk fun c => { c with claimsWithdrawn := bump c.claimsWithdrawn }
  else p).claimCheck

/-- A claim, or a presence showing HOLDING, for night `d` from another station `s` (R172). -/
def Part.rivalHeard (s : StationNo) (d : Nat) (p : Part) : Part :=
  if s = p.ownStation ∨ p.trk.nightDay ≠ d then p
  else
    match p.trk.night with
    | .claiming =>
      match p.withdraw .control (.claim d) with
      | (.taken, q) => q.claimWithdrawn d
      | (.refused, q) => q
      | (.notQueued, q) => q
    | .holding => if s.val < p.ownStation.val then p.stepDown else p
    | .none | .standby | .done | .failed | .cut => p

def Part.takeClaim (s : StationNo) (d : Nat) (p : Part) : Part := (p.takeHolder s d).rivalHeard s d

/-! ### the upload table (R175, R176) -/

def Part.entry (p : Part) (n : StationNo) : Option Upload := p.trk.table.find? fun e => decide (e.station = n)

def Part.setEntryOf (e : Upload) (p : Part) : Part :=
  p.modTrk fun t => { t with table := t.table.map fun x => if x.station = e.station then e else x }

/-- Every record below the snapshot is packed. -/
def Upload.packed (e : Upload) : Bool := match e.snapshot with | some s => decide (s ≤ e.nextPack) | none => false

/-- The entry is acknowledged through its snapshot (R175). -/
def Upload.acknowledged (e : Upload) : Bool := match e.snapshot with | some s => decide (s ≤ e.acked + 1) | none => false

def Upload.ended (e : Upload) : Bool :=
  match e.status with
  | .done | .skipped | .failed => true
  | .pending | .pulling => false

/-- An open BLOCK of its station is closed: its front and its null records are written, and it joins the block list (R176). -/
def Part.closeBlock (e : Upload) (p : Part) : Part :=
  match e.openBlock with
  | none => p
  | some b =>
    let nulls := List.replicate (Config.recordBytes * (Config.blockRecords - b.count)) 0
    let q := (p.write .trunkBlock (bufAddr b.buf.num) (blockFront b.station.val b.first b.count)).write .trunkBlock
      (bufAddr b.buf.num + blockFrontBytes + Config.recordBytes * b.count) nulls
    let b := { b with buf := { b.buf with len := blockFrontBytes + Config.recordBytes * Config.blockRecords } }
    (q.setEntryOf { e with openBlock := none }).modTrk fun t => { t with blocks := t.blocks ++ [b] }

/-- A record packed; none where the RELAY buffer is refused (R176). The part is returned in both cases. -/
def Part.pack (n : StationNo) (seq : Nat) (record : Bytes) (p : Part) : Bool × Part :=
  match p.entry n with
  | none => (false, p)
  | some e =>
    let start : Option Block × Part := match e.openBlock with
      | some b => (some b, p)
      | none =>
        match p.takeBuffer .relay with
        | (none, q) => (none, q)
        | (some b, q) =>
          (some { station := n, first := seq, last := seq, count := 0, buf := b, queued := false, inRelay := true, sentOnce := false }, q)
    match start with
    | (none, q) => (false, q)
    | (some b, q) =>
      let q := q.write .trunkBlock (bufAddr b.buf.num + blockFrontBytes + Config.recordBytes * b.count) record
      let e := { e with openBlock := some { b with count := b.count + 1, last := seq }, nextPack := seq + 1 }
      let q := q.setEntryOf e
      (true, if b.count + 1 = Config.blockRecords then q.closeBlock e else q)

/-! ### the block window (R179) -/

def Part.outstanding (p : Part) : Nat := (p.trk.blocks.filter (·.queued)).length

/-- A BLOCK joins the EXCHANGE part. -/
def Part.sendBlock (b : Block) (p : Part) : Part :=
  (p.modTrk fun t => { t with blocks := t.blocks.map fun x =>
    if x.buf.num = b.buf.num then { x with queued := true, inRelay := false } else x }).joinExchange (.block !b.sentOnce) b.buf

/-- Closed BLOCKs join the queue while fewer than 4 are outstanding, the oldest first (R179). -/
def Part.queueBlocks : Nat → Part → Part
  | 0, p => p
  | n + 1, p =>
    if p.outstanding < Config.blockWindow then
      match p.trk.blocks.find? fun b => !b.queued with
      | some b => Part.queueBlocks n (p.sendBlock b)
      | none => p
    else p

/-- CLOSING is entered and BYE built (R183, R184). -/
def Part.enterClosing (p : Part) : Part :=
  (p.modTrk fun t => { t with phase := .closing, downloadTimer := false }).message (.bye true)

/-- UPLOAD END, where every entry has ended and the block list is empty (R183). -/
def Part.checkUploadEnd (p : Part) : Part :=
  if p.trk.night = .holding ∧ p.trk.phase = .upload ∧ p.trk.blocks.isEmpty = true ∧ p.trk.table.all (·.ended) = true then
    let q := p.message .uploadEnd
    if p.trk.fileFollows then q.modTrk fun t => { t with phase := .download } else q.enterClosing
  else p

/-- What follows a change of the upload: BLOCKs queued, and UPLOAD END where all is done. -/
def Part.pump (p : Part) : Part := (p.queueBlocks Config.blockWindow).checkUploadEnd

/-! ### pulls (R178) and turns (R175) -/

/-- The records the relay set can still take for an entry (R178). -/
def Part.relayRoom (p : Part) (e : Upload) : Nat :=
  (Config.relayLimit - p.fwd.relayCount) * Config.blockRecords +
    (match e.openBlock with | some b => Config.blockRecords - b.count | none => 0)

/-- The next pull of the peer in turn is placed, where none is open or delayed (R178). -/
def Part.placePull (e : Upload) (p : Part) : Part :=
  if p.trk.pull = .idle ∨ p.trk.pull = .noRelay then
    let room := p.relayRoom e
    let most := min Config.pullMax (match e.snapshot with | some s => min room (s - e.nextPack) | none => room)
    if room = 0 then p.modTrk fun t => { t with pull := .noRelay }
    else if most = 0 then p
    else
      match p.placeCall .trunk e.station (.pull e.nextPack most) with
      | (none, q) => q.modTrk fun t => { t with pull := .delay }
      | (some tag, q) => q.modTrk fun t => { t with pull := .opened tag false }
  else p

/-- An entry ends SKIPPED or FAILED: its open BLOCK is closed short (R176, R178). -/
def Part.endEntry (e : Upload) (st : UploadStatus) (p : Part) : Part :=
  let e := { e with status := st }
  ((p.setEntryOf e).closeBlock e).countTrk fun c =>
    match st with
    | .skipped => { c with skipped := bump c.skipped }
    | .failed => { c with failed := bump c.failed }
    | .pending | .pulling | .done => c

/-- The entry is tested for DONE (R175). -/
def Part.testDone (e : Upload) (p : Part) : Part :=
  if e.acknowledged = true ∧ e.ended = false then p.setEntryOf { e with status := .done } else p

/-- The turn passes on while the entry in turn has nothing more to read or pull (R175). A pull that is open goes on to its own
end (R178). -/
def Part.passTurn : Nat → Part → Part
  | 0, p => p
  | n + 1, p =>
    if p.trk.night = .holding ∧ p.trk.phase = .upload then
      match p.trk.turn.bind p.entry with
      | some e =>
        if e.packed = true ∨ e.ended = true then
          let q := (p.closeBlock e).modTrk fun t => { t with turn := none, own := .idle }
          let q := match q.entry e.station with | some x => q.testDone x | none => q
          Part.passTurn n (q.modTrk fun t =>
            { t with pull := match t.pull with
                | .opened tag d => .opened tag d
                | .idle | .delay | .noRelay => .idle })
        else if e.station = p.ownStation then p else p.placePull e
      | none =>
        match p.trk.table.find? fun e => decide (e.status = .pending) with
        | none => p
        | some e =>
          if (p.peer e.station).state = .present then
            Part.passTurn n ((p.setEntryOf { e with status := .pulling }).modTrk fun t => { t with turn := some e.station })
          else Part.passTurn n (p.endEntry e .skipped)
    else p

/-- Turns pass, BLOCKs are queued and the end of the upload is looked for. The fuel covers two visits of each of the 16
entries. -/
def Part.advance (p : Part) : Part := (p.passTurn 40).pump

/-- A completion record of a pull taken by its outcome (R178). -/
def Part.takePullEnd (c : Completion) (p : Part) : Part :=
  let mine : Bool := match p.trk.pull with
    | .opened tag _ => decide (tag = c.tag)
    | .idle | .delay | .noRelay => false
  if mine then
    let q := p.modTrk fun t => { t with pull := .idle }
    if p.trk.night = .holding ∧ p.trk.phase = .upload ∧ p.trk.turn = some c.peer then
      match q.entry c.peer with
      | none => q
      | some e =>
        let e := { e with snapshot := match e.snapshot with | some s => some s | none => c.tail }
        let q := q.setEntryOf e
        let again := fun (e : Upload) (r : Part) => (r.setEntryOf e).modTrk fun t => { t with pull := .delay }
        match c.ending with
        | .complete | .endedEarly =>
          if c.received ≠ 0 then q.setEntryOf { e with retries := 0, shorts := 0 }
          else if e.packed then q
          else if e.shorts + 1 = 3 then q.endEntry { e with shorts := 3 } .failed
          else again { e with shorts := e.shorts + 1 } q
        | .noAnswer | .busy | .broken | .recallTimeout =>
          if e.retries + 1 = 4 then q.endEntry { e with retries := 4 } .skipped
          else again { e with retries := e.retries + 1 } q
        | .refused _ => q.endEntry e .skipped
    else q
  else p

/-- Completion records at the head of the inbox are taken. -/
def Part.drainPullEnds : Nat → Part → Part
  | 0, p => p
  | n + 1, p =>
    match p.trk.inbox with
    | .completion c :: rest => Part.drainPullEnds n ((p.modTrk fun t => { t with inbox := rest }).takePullEnd c)
    | _ => p

/-- Completion records at the head of the inbox, and what follows them; a pull that ended at once for want of a buffer is
taken in the same step. -/
def Part.settlePulls : Nat → Part → Part
  | 0, p => p
  | n + 1, p =>
    let q := (p.drainPullEnds p.trk.inbox.length).advance
    match q.trk.inbox with
    | .completion _ :: _ => Part.settlePulls n q
    | _ => q

/-- The pulls brought forward. The fuel covers one ended pull for each of the 16 entries. -/
def Part.pullsEnded (p : Part) : Part := p.settlePulls 20

/-- A relay buffer has returned: reading and pulling resume (R177, R178). -/
def Part.relayReturned (p : Part) : Part :=
  let q := p.modTrk fun t =>
    { t with own := if t.own = .paused then .reading else t.own, pull := if t.pull = .noRelay then .idle else t.pull }
  q.pullsEnded

/-- UPLOAD is entered: the table is made and the own entry is in turn (R175). -/
def Part.startUpload (p : Part) : Part :=
  let first := p.jrn.release + 1
  let mk := fun (n : StationNo) (f : Nat) (snap : Option Nat) (st : UploadStatus) =>
    ({ station := n, first := f, snapshot := snap, acked := f - 1, nextPack := f, retries := 0, shorts := 0, status := st,
       openBlock := none } : Upload)
  let peers := stations.filterMap fun n => (p.shown n).map fun d => mk n d.firstUnreleased none .pending
  (p.modTrk fun t =>
    { t with phase := .upload, expiries := 0, table := mk p.ownStation first (some p.jrn.next) .pulling :: peers,
             turn := some p.ownStation, own := .reading }).pullsEnded

/-! ### taking pull DATA and own records (R177, R178) -/

/-- The records of one DATA, packed in order; false where the rest of the call's records are to be discarded. -/
def Part.packRecords (n : StationNo) : List Bytes → Part → Bool × Part
  | [], p => (true, p)
  | r :: rs, p =>
    match p.entry n with
    | none => (false, p)
    | some e =>
      let seq := (parseRecord r).seq
      if seq < e.nextPack then Part.packRecords n rs p
      else if (match e.snapshot with | some s => decide (s ≤ seq) | none => false) = true then (false, p)
      else
        match p.pack n seq r with
        | (true, q) => Part.packRecords n rs q
        | (false, q) => (false, q)

/-- A pull DATA of the peer in turn (R178 steps 1 to 5). -/
def Part.takePullData (n : StationNo) (tag : Byte) (b : Bytes) (p : Part) : Part :=
  match p.entry n with
  | none => p
  | some e =>
    let records := cutRecords Config.recordBytes (fieldAt b 1 1) (b.drop 6)
    let first := match records with | r :: _ => (parseRecord r).seq | [] => 0
    let q := p.setEntryOf
      { e with snapshot := match e.snapshot with | some s => some s | none => some (fieldAt b 2 4),
               nextPack := max e.nextPack first }
    match q.packRecords n records with
    | (true, r) => r
    | (false, r) => (r.modTrk fun t => { t with pull := .opened tag true }).endEarly tag

/-- The next DATA of the trunk controller's inbox (R178); one of a call whose records are discarded is only returned. The turn
may have passed on once every record below the snapshot was packed. -/
def Part.pullData (p : Part) : Part :=
  match p.trk.inbox with
  | .data buf peer tag _ :: rest =>
    let q := p.modTrk fun t => { t with inbox := rest }
    let b := (parseBody (p.bufBytes buf)).payload
    let live := decide (p.trk.night = .holding) && decide (p.trk.phase = .upload) && decide (p.trk.pull = .opened tag false)
    let q := if live then q.takePullData peer tag b else q
    (q.giveBack buf).pullsEnded
  | _ => p

/-- One read of the holder's own journal (R177). -/
def Part.ownRead (p : Part) : Part :=
  if p.trk.own = .reading ∧ p.trk.night = .holding ∧ p.trk.phase = .upload then
    match p.entry p.ownStation with
    | none => p
    | some e =>
      if e.packed then p.pullsEnded
      else
        match p.readJournal .trunkBlock e.nextPack with
        | (.record bs, q) =>
          match q.pack p.ownStation e.nextPack bs with
          | (true, r) => r.pullsEnded
          | (false, r) => r.modTrk fun t => { t with own := .paused }
        | (.notCommitted, q) => q.modTrk fun t => { t with own := .retryTimer }
        | (.beyond, q) | (.gone, q) | (.damaged, q) => (q.endEntry e .failed).pullsEnded
  else p

/-! ### acknowledgements (R180 to R182) -/

/-- An acknowledged BLOCK is freed where it stands (R180 step 2). -/
def Part.freeBlock (b : Block) (p : Part) : Part :=
  let q := p.modTrk fun t => { t with blocks := t.blocks.filter fun x => decide (x.buf.num ≠ b.buf.num) }
  if p.blockBegun b then q
  else
    let other := fun (x : TFrame) => !x.what.isBlock || decide (x.buf.num ≠ b.buf.num)
    (q.modFwd fun f => { f with exchange := f.exchange.filter other }).giveBack b.buf

/-- A RELEASE to a peer is built and queued in place of one still waiting (R181). -/
def Part.sendRelease (n : StationNo) (s : Nat) (p : Part) : Bool × Part :=
  (p.removeQueued .control (.release n)).sendFrame .control .control (.release n)
    (plainBody n.val kindRelease (be 2 p.trk.nightDay ++ be 4 s))

/-- The release is passed on (R180 step 5). -/
def Part.passRelease (n : StationNo) (s : Nat) (p : Part) : Part :=
  if n = p.ownStation then p.release s
  else
    match p.sendRelease n s with
    | (true, q) => q.countTrk fun c => { c with releasesSent := bump c.releasesSent }
    | (false, q) => q

/-- An acknowledgement of station `n` through `s` (R180); reading resumes where it returns a RELAY buffer (R177). -/
def Part.takeAck (n : StationNo) (s : Nat) (p : Part) : Part :=
  let ignored := p.countTrk fun c => { c with acksIgnored := bump c.acksIgnored }
  match p.entry n with
  | none => ignored
  | some e =>
    if s ≤ e.acked then ignored
    else
      let e := { e with acked := s }
      let acked := p.trk.blocks.filter fun b => decide (b.station = n) && decide (b.last ≤ s)
      let q := acked.foldl (fun r b => r.freeBlock b) (p.setEntryOf e)
      let passed := decide (e.nextPack ≤ s)
      let q := if passed then
          match e.openBlock with
          | some b => q.giveBack b.buf
          | none => q
        else q
      let e := if passed then { e with nextPack := s + 1, openBlock := none } else e
      let q := (q.setEntryOf e).passRelease n s
      let q := q.testDone e
      let q := if e.acknowledged = true ∧ p.trk.turn = some n then q.stopPull else q
      let q := q.modTrk fun t => { t with ackTimer := decide (0 < q.outstanding), expiries := 0 }
      if q.fwd.relayCount < p.fwd.relayCount then q.relayReturned else q.pullsEnded

/-- The acknowledgement timer expires (R182). -/
def Part.ackExpiry (p : Part) : Part :=
  if p.trk.ackTimer = true ∧ p.trk.night = .holding then
    let n := p.trk.expiries + 1
    let q := (p.modTrk fun t => { t with expiries := n }).countTrk fun c => { c with ackExpiries := bump c.ackExpiries }
    if n = 3 then q.endSession .ack
    else
      (q.trk.blocks.filter fun b => b.queued && b.inRelay).foldl
        (fun r b => (r.sendBlock b).countTrk fun c => { c with blocksResent := bump c.blocksResent }) q
  else p

/-! ### sent notices of the trunk line (R64, R179, R183, R184) -/

/-- A BLOCK's sent notice: counted where it is the first, whatever became of the BLOCK meanwhile (R179); back to the relay set,
or returned where it was acknowledged or its session ended (R64, R180, R185). -/
def Part.blockSent (b : Buf) (first : Bool) (p : Part) : Part :=
  let q := if first then p.countTrk fun c => { c with blocksSent := bump c.blocksSent } else p
  if q.trk.lists b then
    q.modTrk fun t =>
      { t with
        blocks := t.blocks.map fun y => if y.buf.num = b.num then { y with inRelay := true, sentOnce := true } else y
        ackTimer := true }
  else (q.giveBack b).relayReturned

/-- What the sent notice of a trunk frame does. -/
def Part.trunkSent (f : TFrame) (p : Part) : Part :=
  match f.what with
  | .packet => p.giveBack f.buf
  | .hello => (p.giveBack f.buf).modTrk fun t => { t with helloSent := decide (t.night = .holding) }
  | .uploadEnd =>
    (p.giveBack f.buf).modTrk fun t =>
      { t with downloadTimer := t.downloadTimer || (decide (t.night = .holding) && decide (t.phase = .download)) }
  | .bye done =>
    let q := p.giveBack f.buf
    if done = true ∧ p.trk.night = .holding ∧ p.trk.phase = .closing then
      (q.modTrk fun t => { t with night := .done, sessionTimer := false }).countTrk fun c =>
        { c with sessionsDone := bump c.sessionsDone }
    else q
  | .block first => p.blockSent f.buf first

/-! ### the download (R183) -/

/-- The pricing unit takes what the trunk controller hands it now: all that reached it before has been taken (R79). -/
def Part.fileTakes (p : Part) (takes : Bool) : Bool := takes && p.price.inbox.isEmpty

/-- A FILE message taken: staged, rebroadcast, and the download timer restarted (R183). -/
def Part.takeFile (kind : Nat) (stage : Bytes → Part → Part) (b : Bytes) (p : Part) : Part :=
  let q := stage b (p.modTrk fun t => { t with downloadTimer := true })
  match q.sendFrame .other .price .price (plainBody allStations kind b) with
  | (true, r) => r
  | (false, r) => r.countTrk fun c => { c with rebroadcastsLost := bump c.rebroadcastsLost }

/-! ### what is taken from the trunk line (R166) -/

/-- A message is acted on: HOLDING, in the phase that expects it (R166). -/
def Trunk.expects (t : Trunk) (m : Message) : Bool :=
  decide (t.night = .holding) &&
    (match m, t.phase with
     | .welcome .., .logon => true
     | .blockAck .., .upload => true
     | .fileHead _, .download | .filePart _, .download | .fileEnd _, .download => true
     | _, _ => false)

/-- The message of the EXCHANGE frame at the head of the receive queue, where it is expected. -/
def Part.expectedMessage (p : Part) : Option (RxItem × Message) :=
  match p.linkFrame .trunk .trunk with
  | none => none
  | some (it, b) =>
    if fieldAt b 0 1 = trunkExchangeKind then
      match parseMessage (b.drop 1) with
      | some m => if p.trk.expects m then some (it, m) else none
      | none => none
    else none

def Part.trunkUnknown (p : Part) : Part :=
  match p.engineFrame .trunk with
  | some (it, b) =>
    if fieldAt b 0 1 ≠ trunkPacketKind ∧ fieldAt b 0 1 ≠ trunkExchangeKind then
      ((p.engineTakes it).giveBack it.buf).countTrk fun c => { c with framesUnknown := bump c.framesUnknown }
    else p
  | none => p

/-- An EXCHANGE frame that is not expected (R166). -/
def Part.unexpected (p : Part) : Part :=
  match p.linkFrame .trunk .trunk with
  | some (it, b) =>
    if fieldAt b 0 1 = trunkExchangeKind ∧ p.expectedMessage.isNone = true then
      (p.consume it).countTrk fun c => { c with unexpected := bump c.unexpected }
    else p
  | none => p

def Part.blockAck (p : Part) : Part :=
  match p.expectedMessage with
  | some (it, .blockAck n s) =>
    if h : n < 16 then (p.consume it).takeAck ⟨n, h⟩ s
    else (p.consume it).countTrk fun c => { c with acksIgnored := bump c.acksIgnored }
  | _ => p

def Part.fileHead (p : Part) : Part :=
  match p.expectedMessage with
  | some (it, .fileHead b) => if p.fileTakes p.pricingTakes then (p.consume it).takeFile kindPriceHead Part.takeHead b else p
  | _ => p

def Part.filePart (p : Part) : Part :=
  match p.expectedMessage with
  | some (it, .filePart b) => if p.fileTakes p.recordsTake then (p.consume it).takeFile kindPricePart Part.takePart b else p
  | _ => p

def Part.fileEnd (p : Part) : Part :=
  match p.expectedMessage with
  | some (it, .fileEnd b) =>
    if p.fileTakes p.pricingTakes then ((p.consume it).takeFile kindPriceEnd Part.takeEnd b).enterClosing else p
  | _ => p

/-! ### the other commands -/

/-- A TRUNK CLAIM taken (R170, R172). -/
def Part.trunkClaim (p : Part) : Part :=
  match p.branchFrame .trunk kindClaim with
  | some (it, b) =>
    let q := p.consume it
    if b.payload.length = 2 then q.takeClaim it.station (fieldAt b.payload 0 2) else q
  | none => p

/-- The trunk line enters UP (R165). -/
def Part.carrierUp (p : Part) : Part :=
  if p.trk.line = .down ∧ p.trunkFitted = true then
    (((p.modTrk fun t => { t with line := .up }).recomputeDefault).kickTrunk).claimCheck
  else p

/-- The trunk line leaves UP (R165, R185). -/
def Part.carrierLoss (p : Part) : Part :=
  if p.trk.line = .up then
    let q := ((p.modTrk fun t =>
      { t with line := .down, ctr := { t.ctr with carrierLosses := bump t.ctr.carrierLosses } }).dropPackets).recomputeDefault
    if q.trk.night = .holding then q.endSession .carrier else q
  else p

/-- The session timer ticks: what is owed is built again (R166). -/
def Part.sessionTick (p : Part) : Part :=
  if p.trk.sessionTimer = true ∧ p.trk.night = .holding then
    p.trk.owed.foldl (fun q m => q.message m) (p.modTrk fun t => { t with owed := [] })
  else p

def Part.logonExpiry (p : Part) : Part :=
  if p.trk.logonTimer = true ∧ p.trk.night = .holding ∧ p.trk.phase = .logon then p.endSession .logon else p

def Part.ownRetry (p : Part) : Part :=
  if p.trk.own = .retryTimer then (p.modTrk fun t => { t with own := .reading }).ownRead else p

def Part.pullRetry (p : Part) : Part :=
  if p.trk.pull = .delay then (p.modTrk fun t => { t with pull := .idle }).pullsEnded else p

def Part.downloadExpiry (p : Part) : Part :=
  if p.trk.downloadTimer = true ∧ p.trk.night = .holding ∧ p.trk.phase = .download then p.endSession .file else p

def execTrunkCarrierUp (s : State) : Host.Outcome State Fault Refusal := s.run Part.carrierUp
def execTrunkCarrierLoss (s : State) : Host.Outcome State Fault Refusal := s.run Part.carrierLoss
def execTrunkFrameUnknown (s : State) : Host.Outcome State Fault Refusal := s.run Part.trunkUnknown
def execExchangeUnexpected (s : State) : Host.Outcome State Fault Refusal := s.run Part.unexpected
def execTrunkClaimReceived (s : State) : Host.Outcome State Fault Refusal := s.run Part.trunkClaim
def execSessionTimerTick (s : State) : Host.Outcome State Fault Refusal := s.run Part.sessionTick
def execLogonTimerExpiry (s : State) : Host.Outcome State Fault Refusal := s.run Part.logonExpiry
def execOwnRecordRead (s : State) : Host.Outcome State Fault Refusal := s.run Part.ownRead
def execOwnReadRetry (s : State) : Host.Outcome State Fault Refusal := s.run Part.ownRetry
def execPullDataTaken (s : State) : Host.Outcome State Fault Refusal := s.run Part.pullData
def execPullRetryTimer (s : State) : Host.Outcome State Fault Refusal := s.run Part.pullRetry
def execBlockAckReceived (s : State) : Host.Outcome State Fault Refusal := s.run Part.blockAck
def execAckTimerExpiry (s : State) : Host.Outcome State Fault Refusal := s.run Part.ackExpiry
def execFileHeadReceived (s : State) : Host.Outcome State Fault Refusal := s.run Part.fileHead
def execFilePartReceived (s : State) : Host.Outcome State Fault Refusal := s.run Part.filePart
def execFileEndReceived (s : State) : Host.Outcome State Fault Refusal := s.run Part.fileEnd
def execDownloadTimerExpiry (s : State) : Host.Outcome State Fault Refusal := s.run Part.downloadExpiry

end Sys2Proof.Machine
end

