-- ==== Sys2Proof/Machine/Night.lean ====
section
/-! DEFINITION. The station clock and what it sets off: the STATION REPORT, the night window's start and end, the trigger, the
sweep, the ending of guests (R52, R88, R92, R125, R162, R167 to R169, R173). -/

namespace Sys2Proof.Machine

/-! ### the STATION REPORT (R125, R168; chapter 12) -/

def be2s (l : List Nat) : Bytes := (l.map (be 2)).flatten

/-- Counters of one byte show 255 when they stand at 255 or more. -/
def be1s (l : List Nat) : Bytes := (l.map fun n => be 1 (min 255 n)).flatten

/-- The counters of the trunk or label framer in the order of R18. -/
def LineCounters.linkList (c : LineCounters) : List Nat :=
  [c.sent, c.kept, c.crc, c.residue, c.long, c.aborted, c.overrun, c.noBuffer, c.underruns]

/-- The guest framer has no NO BUFFER counter (R18). -/
def LineCounters.guestList (c : LineCounters) : List Nat :=
  [c.sent, c.kept, c.crc, c.residue, c.long, c.aborted, c.overrun, c.underruns]

def Branch.counterList (b : Branch) : List Nat :=
  let c := b.framer.ctr
  [c.sent, c.kept, c.crc, c.residue, c.long, c.aborted, c.overrun, c.noBuffer, b.contentionLost, b.collisions,
   b.collisionDrops, c.underruns]

def PortCounters.list (c : PortCounters) : List Nat := [c.good, c.crc, c.badLength, c.framing, c.breaks, c.lineDowns]

def TillCounters.list (c : TillCounters) : List Nat :=
  [c.busyRefusals, c.refusalsDropped, c.repeats, c.notReady, c.full, c.closed, c.abandonedTill, c.abandonedRestart,
   c.abandonedLost, c.notWritten]

def TrunkCounters.list (c : TrunkCounters) : List Nat :=
  [c.carrierLosses, c.framesUnknown, c.unexpected, c.claimsSent, c.claimsWithdrawn, c.sessionsDone, c.failedLogon,
   c.failedCarrier, c.failedAck, c.failedFile, c.cutWindow, c.cutLower, c.blocksSent, c.blocksResent, c.ackExpiries,
   c.acksIgnored, c.releasesSent, c.lateReleases, c.skipped, c.failed, c.rebroadcastsLost]

def GuestCounters.list (c : GuestCounters) : List Nat :=
  [c.admissions, c.replacements, c.refusals, c.dropsFull, c.dropsBudget, c.dropsNoExit, c.dropsNoBuffer, c.malformed,
   c.delivered, c.endedIdle, c.endedReplaced, c.endedNight, c.endedRadio, c.noticesLost, c.unknown, c.radioLosses]

def JournalCounters.list (c : JournalCounters) : List Nat :=
  [c.written, c.saleRefused, c.stationNotWritten, c.releasesTaken, c.releasesIgnored, c.damagedReads, c.powerWritten,
   c.powerNotWritten, c.scanEnds]

def CallCounters.list (c : CallCounters) : List Nat :=
  [c.complete, c.endedEarly, c.noAnswer, c.busy, c.refused, c.recallTimeout, c.broken, c.gaveAccept, c.gaveDefer,
   c.gaveBusy, c.gaveRefuse, c.servedBroken, c.deferredExpired, c.recallsStale, c.strayFrames]

def FwdCounters.list (c : FwdCounters) : List Nat :=
  [c.forwarded, c.toTrunk, c.delivered, c.isolated, c.noExit, c.static, c.oversize, c.malformed, c.collision, c.unknownKind,
   c.empty, c.reserve, c.guestLimit, c.relayLimit, c.lowestFree]

def PresCounters.list (c : PresCounters) : List Nat := [c.taken, c.malformed, c.skipped, c.ownHeard, c.peersLost]

def PriceCounters.list (c : PriceCounters) : List Nat :=
  [c.headsIgnored, c.partsIgnored, c.recordsBad, c.recordsClamped, c.newerHead, c.check, c.entries, c.order, c.sync,
   c.switches, c.holdsReleased, c.holdsCleared, c.countFaults, c.entryFaults]

def LabelCounters.list (c : LabelCounters) : List Nat :=
  [c.ordersSent, c.shown, c.noAnswer, c.timeouts, c.refused, c.unreachable, c.strayReports, c.strayNotices, c.unknown,
   c.headLosses, c.walks]

def MemCounters.list (c : MemCounters) : List Nat := [c.urgent, c.promotions, c.headerWrites, c.labelsLost]

/-- The fields of part 1, by their offsets (chapter 12). -/
def Part.reportFirst (night : Nat) (p : Part) : Bytes :=
  let t := p.lab.tallies
  be 1 p.ownStation.val ++ be 2 night ++ be 4 p.price.activeGen ++ be 1 p.price.staging.state.code ++
    be 4 (if p.price.staging.state = .empty then 0 else p.price.staging.generation) ++ be 4 p.jrn.next ++
    be 4 p.jrn.release ++ [markByte p.pres.dupSeen] ++ be 1 p.trk.night.code ++ be 2 p.trk.nightDay ++
    be 2 p.jrn.lastScan ++ be2s [t.inUse, t.unreachable, t.low, t.critical, p.admitted.length, p.activeCount] ++
    be2s p.memCtr.list

/-- The fields of the eight parts (chapter 12). -/
def Part.reportFields (night : Nat) (p : Part) : List Bytes :=
  [ p.reportFirst night,
    be2s p.branch.counterList ++ be1s (p.trunkFramer.ctr.linkList ++ p.labelFramer.ctr.linkList ++ p.guestFramer.ctr.guestList),
    (p.till.ports.toList.map fun x => be1s x.ctr.list).flatten,
    be2s p.trk.ctr.list,
    be2s (p.gst.ctr.list ++ p.jrn.ctr.list),
    be2s (p.call.ctr.list ++ p.till.ctr.list),
    be2s (p.fwd.ctr.list ++ p.pres.ctr.list),
    be2s (p.price.ctr.list ++ p.lab.ctr.list) ]

/-- The eight records, parts 1 to 8 in order (R125). -/
def Part.reportContents (night : Nat) (p : Part) : List Content :=
  let zone := (p.cfg.map (·.zone)).getD 0
  (p.reportFields night).zipIdx.map fun (f, i) => .stationReport (i + 1) zone f

/-- Every counter carried into the report returns to 0, the lowest free count to the free count, the duplicate-seen mark is
cleared (R168). -/
def Part.clearCounters (p : Part) : Part :=
  { p with
    branch := { p.branch with framer := { p.branch.framer with ctr := {} }, contentionLost := 0, collisions := 0,
                              collisionDrops := 0 }
    trunkFramer := { p.trunkFramer with ctr := {} }
    labelFramer := { p.labelFramer with ctr := {} }
    guestFramer := { p.guestFramer with ctr := {} }
    fwd := p.fwd.resetLowest
    call := { p.call with ctr := {} }
    pres := { p.pres with ctr := {}, dupSeen := false }
    price := { p.price with ctr := {} }
    till := { p.till with ctr := {}, ports := p.till.ports.map fun x => { x with ctr := {} } }
    jrn := { p.jrn with ctr := {} }
    lab := { p.lab with ctr := {} }
    gst := { p.gst with ctr := {} }
    trk := { p.trk with ctr := {} }
    memCtr := {} }

/-- The STATION REPORT of a night (R168); its counts of guests are read from the guest table (R155). -/
def Part.stationReport (night : Nat) (p : Part) : Part :=
  match p.loadGuests.append .report stationTill (p.reportContents night) with
  | (some _, q) => q.clearCounters
  | (none, q) => q

/-! ### the window (R167, R169) -/

/-- A window start for a night (R167): the report, the session, the claim check. -/
def Part.windowStart (night : Nat) (p : Part) : Part :=
  ((p.stationReport night).modTrk fun t => { t with night := .none, nightDay := night, table := [] }).claimCheck

/-- A window end (R169). -/
def Part.windowEnd (p : Part) : Part :=
  match p.trk.night with
  | .claiming => ((p.withdraw .control (.claim p.trk.nightDay)).2).modTrk fun t => { t with night := .none }
  | .standby => p.modTrk fun t => { t with night := .none }
  | .holding => p.endSession .windowEnd
  | .none | .done | .failed | .cut => p

/-- The window's changes between two clocks (R167; order: assumption 23). -/
def Part.windowChange (before after : Option Nat) (p : Part) : Part :=
  let q := if before.isSome = true ∧ after ≠ before then p.windowEnd else p
  match after with
  | some d =>
    if before = some d then q
    else
      let r := q.windowStart d
      if before.isNone then r.endNight else r
  | none => q

/-! ### the clock (R52) -/

/-- The clock takes a new value: the window's changes, the sweep at a change of minute, the trigger (R52, R88, R92,
R167). -/
def Part.clockTo (c : Clock) (p : Part) : Part :=
  let before := p.nightNow
  let minute := decide (p.pres.clock.minute ≠ c.minute) || decide (p.pres.clock.day ≠ c.day)
  let q := p.modPres fun x => { x with clock := c }
  let q := q.windowChange before q.nightNow
  let q := if minute then q.modPrice fun x => { x with sweepDue := true } else q
  q.checkTrigger

/-- A setting of the clock (R52). -/
def Part.setClock (day minute second : Nat) (p : Part) : Part :=
  p.clockTo { valid := true, day := day, minute := minute, second := second }

def Part.clockTick (p : Part) : Part := if p.pres.clock.valid then p.clockTo p.pres.clock.advance else p

/-- A WELCOME taken in LOGON: the clock, and the upload where the session still stands (R173, R175; assumption 23). -/
def Part.welcome (p : Part) : Part :=
  match p.expectedMessage with
  | some (it, .welcome day minute second follows) =>
    let q := (p.consume it).modTrk fun t => { t with logonTimer := false, fileFollows := follows }
    let q := q.setClock day minute second
    if q.trk.night = .holding ∧ q.trk.phase = .logon then q.startUpload else q
  | _ => p

def execClockTick (s : State) : Host.Outcome State Fault Refusal := s.run Part.clockTick
def execWelcomeReceived (s : State) : Host.Outcome State Fault Refusal := s.run Part.welcome

end Sys2Proof.Machine
end

