-- ==== Sys2Proof/Machine/Presence.lean ====
section
/-! DEFINITION. The presence unit (chapter 03): starting and joining, PRESENCE frames, the peer table, SYNC; with it the header
notices and the warm-start scan, which move the joining state (R129 to R131, R192). -/

namespace Sys2Proof.Machine

/-! ### changes of joining state (R48) -/

/-- The joining state changes and the other blocks take it: label orders are checked, the claim is checked, the warm-start
walk begins with LISTEN or LINE FAULT (R48, R139, R149, R171). -/
def Part.setJoining (j : Joining) (p : Part) : Part :=
  let q := p.modPres fun x => { x with joining := j }
  let q :=
    if q.lab.warm = .due ∧ (j = .listen ∨ j = .lineFault) then q.modLab fun l => { l with warm := .pass } else q
  q.checkOrders.claimCheck

/-- LISTEN with its timer, or LINE FAULT where the mark is set (R41 to R43). -/
def Part.enterListen (p : Part) : Part :=
  if p.pres.lineFault then p.setJoining .lineFault
  else (p.modPres fun x => { x with listenTimer := true }).setJoining .listen

/-! ### PRESENCE frames (R45, R49) -/

/-- A new PRESENCE is built and queued, or the tick is skipped (R49). The first PRESENCE, built on entering ANNOUNCING without a tick,
counts one presence skipped as well where it is refused its buffer (DESIGN CHOICE, unsafe; assumption 78). -/
def Part.sendPresence (p : Part) : Part :=
  match p.sendFrame .control .control (.presence (decide (p.pres.joining = .announcing)))
      (plainBody allStations kindPresence (presencePayload p.presenceData)) with
  | (true, q) => q
  | (false, q) => q.countPres fun c => { c with skipped := bump c.skipped }

/-- The PRESENCE of the previous tick that still stands in the CONTROL queue. -/
def Part.queuedPresence (p : Part) : Option FrameOwner :=
  (p.fwd.control.map (·.owner)).find? fun o => decide (o = .presence true) || decide (o = .presence false)

/-- One tick of the presence timer: the PRESENCE is built before the check for a claim is made, and shows the night state before
it (R49, R171; DESIGN CHOICE, unsafe; assumption 61). -/
def Part.presenceTick (p : Part) : Part :=
  if p.pres.presenceTimer = true ∧ p.pres.joining.sendsPresence = true then
    let q := match p.queuedPresence with
      | none => p.sendPresence
      | some o =>
        match p.withdraw .control o with
        | (.taken, r) => r.sendPresence
        | (.notQueued, r) => r.sendPresence
        | (.refused, r) => r
    q.claimCheck
  else p

/-! ### SYNC (R45 to R47) -/

/-- SYNC is entered with the branch generation as its target, and the sync order given (R46). -/
def Part.enterSync (p : Part) : Part :=
  let target := match p.branchGeneration with
    | some 0 => none
    | t => t
  let q := (p.modPres fun x => { x with syncTarget := target }).setJoining .sync
  match target with
  | some g => q.syncOrder g
  | none => q

/-- The station may leave SYNC (R46). -/
def Part.syncOver (p : Part) : Bool :=
  (!p.pres.coldStarted || p.pres.switched) &&
    (match p.branchGeneration with | some g => decide (g ≤ p.price.activeGen) | none => true)

/-- The SYNC checks of R46: leaving for READY, or a higher target. -/
def Part.syncCheck (p : Part) : Part :=
  if p.pres.joining = .sync then
    if p.syncOver then (p.modPres fun x => { x with syncTarget := none }).setJoining .ready
    else
      match p.branchGeneration with
      | some g =>
        if p.pres.syncTarget.getD 0 < g then (p.modPres fun x => { x with syncTarget := some g }).syncOrder g else p
      | none => p
  else p

/-- The end of ANNOUNCING (R45). -/
def Part.endAnnouncing (p : Part) : Part :=
  if p.pres.joining = .announcing then
    if p.pres.coldStarted = true ∨ p.price.activeGen < p.branchGeneration.getD 0 then p.enterSync else p.setJoining .ready
  else p

/-- A READY station takes a presence of a newer peer (R47). -/
def Part.readyCheck (g : Nat) (p : Part) : Part :=
  let s := p.price.staging
  if p.pres.joining = .ready ∧ p.price.activeGen < g ∧
      ¬ ((s.state = .receiving ∨ s.state = .complete) ∧ g ≤ s.generation) then p.enterSync
  else p

/-! ### the peer table (R51) -/

def Part.setPeer (n : StationNo) (x : Peer) (p : Part) : Part := p.modPres fun y => { y with peers := y.peers.set n.val x }

/-- The holder record names station `n`, for whatever night (R170). -/
def Trunk.namesHolder (t : Trunk) (n : StationNo) : Bool :=
  match t.holder with
  | some (s, _) => decide (s = n)
  | none => false

/-- The holder record at a presence of station `n` (R170, R172). -/
def Part.holderNotice (n : StationNo) (d : PresenceData) (p : Part) : Part :=
  match d.night with
  | .holding => p.takeClaim n d.nightDay
  | .done => p.takeHolder n d.nightDay
  | .none | .failed | .cut => if p.trk.namesHolder n then p.emptyHolder else p
  | .claiming | .standby => p

/-- The RELEASE sent again to a peer that shows a release behind its acknowledgement (R181). -/
def Part.lateRelease (n : StationNo) (d : PresenceData) (p : Part) : Part :=
  match p.entry n with
  | none => p
  | some e =>
    if (p.trk.night = .holding ∨ p.trk.night = .done) ∧ p.nightNow = some p.trk.nightDay ∧
        d.firstUnreleased < e.acked + 1 ∧ (p.fwd.control.any fun x => decide (x.owner = .release n)) = false then
      match p.sendRelease n e.acked with
      | (true, q) => q.countTrk fun c => { c with lateReleases := bump c.lateReleases }
      | (false, q) => q
    else p

/-- The peer notice of station `n`, in the order forwarding engine, trunk controller, pricing unit, SYNC checks (R51; order:
assumption 23). -/
def Part.peerNotice (n : StationNo) (taken : Option PresenceData) (p : Part) : Part :=
  let q := p.routeNotice n
  let q := match taken with
    | some d => (q.holderNotice n d).lateRelease n d
    | none => if q.trk.namesHolder n then q.emptyHolder else q
  let q := q.pricingNotice n
  let q := q.syncCheck
  match taken with
  | some d => q.readyCheck d.activeGen
  | none => q

/-- The shorter way round the cycle of 65,536 days, in seconds (R174). -/
def clockDistance (x y : Nat) : Nat :=
  let cycle := 65536 * 86400
  let d := (x + cycle - y % cycle) % cycle
  min d (cycle - d)

/-- A time a clock can hold (assumption 30). -/
def PresenceData.timeInRange (d : PresenceData) : Bool := decide (d.minute ≤ 1439) && decide (d.second ≤ 59)

/-- The clock takes a presence's time: where it is not valid (R52), or where the night's holder is more than 120 s away
(R174). -/
def Part.clockFrom (n : StationNo) (d : PresenceData) (p : Part) : Part :=
  if d.timeValid = true ∧ d.timeInRange = true then
    if p.pres.clock.valid = false then p.setClock d.day d.minute d.second
    else
      match p.nightNow with
      | some night =>
        if p.trk.holderFor night = some n ∧ d.night = .holding ∧
            120 < clockDistance (clockSeconds d.day d.minute d.second)
              (clockSeconds p.pres.clock.day p.pres.clock.minute p.pres.clock.second) then
          p.setClock d.day d.minute d.second
        else p
      | none => p
  else p

/-- A presence of another station (R50, R51). -/
def Part.takePeer (n : StationNo) (d : PresenceData) (p : Part) : Part :=
  ((p.setPeer n { state := .present, last := some d, silence := true }).peerNotice n (some d)).clockFrom n d

/-- A presence that carries the station's own number (R43, R50). -/
def Part.takeOwn (p : Part) : Part :=
  let q := p.countPres fun c => { c with ownHeard := bump c.ownHeard }
  match p.pres.joining with
  | .listen => (q.modPres fun x => { x with listenTimer := false }).setJoining .duplicate
  | .announcing | .sync | .ready => q.modPres fun x => { x with dupSeen := true }
  | .start | .config | .configFault | .selfTest | .memory | .journalScan | .lineFault | .duplicate => q

/-- The checks of R50 on a kept PRESENCE. -/
def KeptPresence.read (k : KeptPresence) : Option PresenceData :=
  if k.body.length = presenceBodyLength then
    match parsePresence (parseBody (k.body.take 33)).payload with
    | some d => if d.station = k.station.val then some d else none
    | none => none
  else none

/-- The oldest kept PRESENCE is taken (R50). -/
def Part.presence (p : Part) : Part :=
  match p.pres.inbox with
  | [] => p
  | k :: rest =>
    let q := p.modPres fun x => { x with inbox := rest }
    match k.read with
    | none => q.countPres fun c => { c with malformed := bump c.malformed }
    | some d =>
      let q := q.countPres fun c => { c with taken := bump c.taken }
      if k.station = p.ownStation then q.takeOwn else q.takePeer k.station d

def Part.peerSilence (n : StationNo) (p : Part) : Part :=
  let e := p.peer n
  if e.state = .present ∧ e.silence = true then
    ((p.setPeer n { e with state := .absent, silence := false }).countPres fun c =>
      { c with peersLost := bump c.peersLost }).peerNotice n none
  else p

/-! ### configuration and self test (R37 to R40) -/

/-- The test frame of SELF TEST, with its CRC (R40). -/
def Part.testFrame (p : Part) : Bytes :=
  withCrc (plainBody p.ownStation.val kindPresence ((List.range 16).map (BitVec.ofNat 8)))

/-- The block passes: every field to its block, routes written, SELF TEST entered with the framer in internal loop (R37,
R40, R55). What the receiver had read of a frame on the line stands through the loop, and so do its seven-bit wait and the gap count:
R15 says nothing of them (DESIGN CHOICE, unsafe; assumption 80). -/
def Part.configPassed (c : ConfigBlock) (p : Part) : Part :=
  let q := { p with cfg := some c }
  let q := (q.initRoutes c).modTrk fun t => { t with line := if c.trunkFitted then .down else .absent }
  (q.modBranch fun b => { b with loop := true }).setJoining .selfTest

def Part.configRead (block : Bytes) (p : Part) : Part :=
  if p.pres.joining = .config then
    match parseConfig block with
    | some c => p.configPassed c
    | none => p.setJoining .configFault
  else p

/-- The loop test ends, and MEMORY asks for the store header (R40, R41). Reception goes on where it stood when the loop began
(assumption 80). -/
def Part.loopEnd (passed : Bool) (p : Part) : Part :=
  if p.pres.joining = .selfTest ∧ p.branch.loop = true then
    let q := (p.modBranch fun b => { b with loop := false }).modPres fun x => { x with lineFault := !passed }
    (q.setJoining .memory).ask .memory .headerRead
  else p

/-- The looped frame read from its start bit on: its body with the CRC, where it is closed by its flag and no bit is left over
(R13, R15). -/
def loopedBody (front frame : List Bool) : Option Bytes :=
  let d := ({} : Deframe).feeds (openingWithin .branch) frame
  if front.head? = some startBit ∧ front.length = frontBits ∧ d.reached = .closed ∧ d.odd = 0 then some d.body
  else none

/-- The looped frame is good and its body equals the body sent (R15). -/
def Part.loopResult (front frame : List Bool) (p : Part) : Part :=
  p.loopEnd (match loopedBody front frame with
    | some body => crcGood body && decide (body = p.testFrame)
    | none => false)

/-! ### MEMORY (R41) -/

def Part.headerReadBurst (p : Part) : Part :=
  let bs := p.read Config.headerBase Config.burst
  p.modHdr fun h => { h with readData := some bs }

/-- What the pricing unit does with the staging fields of a valid header (R79). The received count and the check accumulator of a
staging found COMPLETE or ACTIVATING are left at 0: the header does not hold them, and nothing reads them any more
(DESIGN CHOICE, safe; assumption 63). -/
def Part.warmStaging (h : HeaderCopy) (p : Part) : Part :=
  let q := p.modStaging fun s =>
    { s with state := h.stagingState, generation := h.stagingGen, n := h.n, effDay := h.effDay, effMinute := h.effMinute,
             fileCheck := h.fileCheck }
  match h.stagingState with
  | .empty => p
  | .receiving => (q.modPrice fun x => { x with recount := true }).stagingTo .gaps
  | .gaps => q.modPrice fun x => { x with recount := true, fetchTimer := true }
  | .complete => (q.modPrice fun x => { x with trigger := .armed }).checkTrigger
  | .activating => (q.modPrice fun x => { x with trigger := .fired }).beginWalk

/-- A warm start: the header's fields to their owners, and the journal scan begins (R41, R130). -/
def Part.warmStart (h : HeaderCopy) (p : Part) : Part :=
  let q := p.modHdr fun x => { x with copy := h }
  let q := (q.modPrice fun x =>
    { x with active := h.active, activeGen := h.activeGen, activeCount := h.activeCount,
             copy := p.copyOf h.active h.activeCount }).loads .bank (bit (decide (copyIndex < h.activeCount)))
  let q := q.modJrn fun j =>
    { j with release := h.release, next := h.release + 1, commit := h.release + 1,
             scan := some { stage := .reading, e := h.release + 1, marks := [], aside := [], read := 0 } }
  let q := q.modLab fun l => { l with warm := .due }
  ((q.warmStaging h).setJoining .journalScan).ask .journal .scanFirst

/-- A cold start: the stores made empty, and a new header written once they are (R41, R118, R192). The bursts that clear them
stand before the header's at the PRICE requester. -/
def Part.coldStart (p : Part) : Part :=
  let q := p.modPres fun x => { x with coldStarted := true }
  let q := ((q.wipeSlots .memory .a 0 Config.bankSlots).wipeSlots .memory .b 0 Config.bankSlots).clearMap .memory
  let q := (q.wipe .memory Config.journalBase (Config.journalBase + Config.journalSize)).emptyLabels
  q.askHeader .start fun _ => {}

def Part.headerRead (p : Part) : Part :=
  if p.pres.joining = .memory then
    match p.hdr.readData with
    | none => p
    | some bs =>
      let q := p.modHdr fun h => { h with readData := none }
      match parseHeader bs with
      | some h => q.warmStart h
      | none => q.coldStart
  else p

/-! ### header notices (R90, R129, R192) -/

/-- The notice of a bank switch to the label service and the presence unit (R46, R90 step 5). -/
def Part.bankSwitched (p : Part) : Part :=
  (((p.switchNotice).modPres fun x => { x with switched := true }).syncCheck).takeWaitingSync

def Part.pricingHeaderNotice (p : Part) : Part :=
  match p.price.switching with
  | some holds => (p.switchBank holds).bankSwitched
  | none => p

/-- The release sequence takes the value the write carried (R129). -/
def Part.journalHeaderNotice (carried : Nat) (p : Part) : Part :=
  (p.modJrn fun j =>
    { j with release := carried, pending := if j.pending = some carried then none else j.pending }).writeRelease

def Part.startHeaderNotice (p : Part) : Part := if p.pres.joining = .memory then p.enterListen else p

/-- The notice of a write of `h` to a block whose request it carried. -/
def Part.headerNotice (h : HeaderCopy) (u : HeaderUser) (p : Part) : Part :=
  match u with
  | .pricing => p.pricingHeaderNotice
  | .journal => p.journalHeaderNotice h.release
  | .start => p.startHeaderNotice

/-- A finished header write: a further write where requests wait, and a notice to each block whose latest request it carried
(R192). -/
def Part.headerWritten (p : Part) : Part :=
  match p.hdr.inFlight with
  | none => p
  | some (h, users) =>
    if p.hdr.finished then
      let waiting := p.hdr.waiting
      let q := p.modHdr fun x => { x with inFlight := none, finished := false, waiting := [] }
      let q := q.presentHeader waiting
      (users.filter fun u => decide (u ∉ waiting)).foldl (fun r u => r.headerNotice h u) q
    else p

/-! ### the warm-start scan (R130, R131) -/

/-- The sale number a record of the sale kinds names. -/
def StoredRecord.sale (r : StoredRecord) : Nat := if r.kind = 0 then r.seq else fieldAt r.content 0 4

/-- A subtraction from a running total: a total summed from a sale's later records only is held at 0 (R131). -/
def SaleMark.lower (m : SaleMark) (n : Nat) : SaleMark :=
  { m with running := if m.fromOpen then m.running - n else max 0 (m.running - n) }

/-- What a record does to the totals of its sale. -/
def SaleMark.follow (m : SaleMark) (r : StoredRecord) : SaleMark :=
  if r.kind = 1 then { m with running := m.running + fieldAt r.content 18 4 }
  else if r.kind = 2 then m.lower (fieldAt r.content 14 4)
  else if r.kind = 3 then { m with running := m.running + fieldAt r.content 14 4 }
  else if r.kind = 4 then m.lower (fieldAt r.content 15 4)
  else if r.kind = 5 then { m with tenders := m.tenders + fieldAt r.content 5 4 }
  else m

def Scan.mark (s : Scan) (till : Nat) : Option SaleMark := s.marks.find? fun m => decide (m.port = till)

/-- The mark of a till replaced; a sale it held that is another's is set aside. -/
def Scan.hold (s : Scan) (m : SaleMark) : Scan :=
  let aside := match s.mark m.port with
    | some o => if o.sale = m.sale then [] else [o]
    | none => []
  { s with marks := (s.marks.filter fun x => decide (x.port ≠ m.port)) ++ [m], aside := s.aside ++ aside }

/-- One record read whole acts on the mark of its till (R131). -/
def Scan.take (s : Scan) (r : StoredRecord) : Scan :=
  if 7 < r.till ∨ 7 < r.kind then s
  else
    let fresh : SaleMark := { port := r.till, sale := r.sale, running := 0, tenders := 0, fromOpen := decide (r.kind = 0) }
    if r.kind = 0 then s.hold fresh
    else if r.kind ≤ 5 then
      match s.mark r.till with
      | some m => if m.sale = r.sale then s.hold (m.follow r) else s.hold (fresh.follow r)
      | none => s.hold (fresh.follow r)
    else
      match s.mark r.till with
      | some m => if m.sale = r.sale then { s with marks := s.marks.filter fun x => decide (x.port ≠ r.till) } else s
      | none => s

/-- The second burst of a slot is read, and the slot decided (R130). -/
def Part.scanSlot (p : Part) : Part :=
  match p.jrn.scan with
  | none => p
  | some s =>
    if s.stage = .reading then
      let bs := p.read (slotAddr s.e) Config.recordBytes
      let r := parseRecord bs
      if crcGood bs = true ∧ r.seq = s.e then
        let s := s.take r
        (p.modJrn fun j => { j with scan := some { s with e := s.e + 1, read := s.read + 1 } }).ask .journal .scanFirst
      else p.modJrn fun j => { j with scan := some { s with stage := .failed } }
    else p

/-- A POWER abandon (R131). -/
def Part.powerAbandon (m : SaleMark) (p : Part) : Part :=
  match p.appendNow .scan m.port [.saleAbandon m.sale .power m.running.toNat m.tenders m.fromOpen] with
  | (some _, q) => q.countJrn fun c => { c with powerWritten := bump c.powerWritten }
  | (none, q) => q

/-- The scan stops at a failing slot (R130, R131). -/
def Part.scanStop (p : Part) : Part :=
  match p.jrn.scan with
  | none => p
  | some s =>
    if s.stage = .failed then
      let marks := (List.range 8).filterMap s.mark
      let q := p.modJrn fun j =>
        { j with next := s.e, commit := s.e, exhausted := decide (s.e = Config.sequenceMax), lastScan := s.read,
                 scan := some { s with stage := .abandoning, marks := [], aside := [] },
                 ctr := { j.ctr with scanEnds := bump j.ctr.scanEnds } }
      (s.aside ++ marks).foldl (fun r m => r.powerAbandon m) q
    else p

/-- The scan is complete: the appends that waited are taken, and the station enters LISTEN or LINE FAULT (R42, R120, R130). -/
def Part.scanComplete (p : Part) : Part :=
  match p.jrn.scan with
  | none => p
  | some s =>
    if s.stage = .abandoning ∧ (p.jrn.appends.any fun a => decide (a.requester = .scan)) = false then
      let waiting := p.jrn.waiting
      let q := p.modJrn fun j => { j with scan := none, waiting := [] }
      let q := waiting.foldl (fun r w => (r.appendNow w.requester w.till w.contents).2) q
      if q.pres.joining = .journalScan then q.enterListen else q
    else p

/-! ### LISTEN and ANNOUNCING (R43, R45) -/

/-- The transmitter is enabled (R11): WAITING where a class queue holds a frame. -/
def Part.enableTx (p : Part) : Part :=
  if p.branch.tx = .disabled then ((p.modBranch fun b => { b with tx := .idle }).offer).restage .branch none else p

def Part.listenExpiry (p : Part) : Part :=
  if p.pres.joining = .listen ∧ p.pres.listenTimer = true then
    let q := p.modPres fun x => { x with listenTimer := false, presenceTimer := true }
    ((q.enableTx).setJoining .announcing).sendPresence
  else p

/-! ### the commands -/

def execConfigReadDone (block : Bytes) (s : State) : Host.Outcome State Fault Refusal := s.run (Part.configRead block)
def execLoopTestResult (front frame : List Bool) (s : State) : Host.Outcome State Fault Refusal :=
  s.run (Part.loopResult front frame)
def execLoopTestTimeout (s : State) : Host.Outcome State Fault Refusal := s.run (Part.loopEnd false)
def execHeaderReadDone (s : State) : Host.Outcome State Fault Refusal := s.run Part.headerRead
def execJournalScanStop (s : State) : Host.Outcome State Fault Refusal := s.run Part.scanStop
def execJournalScanComplete (s : State) : Host.Outcome State Fault Refusal := s.run Part.scanComplete
def execListenTimerExpiry (s : State) : Host.Outcome State Fault Refusal := s.run Part.listenExpiry
def execPresenceTimerTick (s : State) : Host.Outcome State Fault Refusal := s.run Part.presenceTick
def execPresenceReceived (s : State) : Host.Outcome State Fault Refusal := s.run Part.presence
def execPeerSilenceExpiry (station : StationNo) (s : State) : Host.Outcome State Fault Refusal :=
  s.run (Part.peerSilence station)
def execHeaderWriteDone (s : State) : Host.Outcome State Fault Refusal := s.run Part.headerWritten

end Sys2Proof.Machine
end

