-- ==== Sys2Proof/Machine/Calls.lean ====
section
/-! DEFINITION. The call controller (chapter 02): verdicts, the data phase, the turn rule, deferral and recall. -/

namespace Sys2Proof.Machine

/-! ### owners and the connection -/

def headIsCompletion : List Handed → Bool
  | .completion _ :: _ => true
  | _ => false

/-- The owners take the completion records at the head of their inboxes (R33, R86, R178). -/
def Part.ownersTake (p : Part) : Part :=
  let q := if headIsCompletion p.price.inbox then p.fetchesEnded else p
  if headIsCompletion q.trk.inbox then q.pullsEnded else q

def Part.setConn (c : Option Conn) (p : Part) : Part := p.modCall fun x => { x with conn := c }

def Part.stray (p : Part) : Part := p.countCall fun c => { c with strayFrames := bump c.strayFrames }

/-- A served connection ends BROKEN (R24, R26, R28). -/
def Part.servedBroken (p : Part) : Part :=
  (p.setConn none).countCall fun c => { c with servedBroken := bump c.servedBroken }

/-- The caller's connection is closed and its call ends (R23, R25, R27, R28). -/
def Part.closeCaller (tag : Byte) (x : CallEnd) (tail : Option Nat) (p : Part) : Part :=
  let q := p.setConn none
  match q.openCall tag with
  | some e => (q.endCallWith e x tail).ownersTake
  | none => q

/-- The deferred entry a RECALL was sent for (R28, R30). -/
def Part.dropRecalling (c : Conn) (p : Part) : Part :=
  let keep := fun (d : Deferred) => decide (d.state ≠ .recalling) || decide (d.caller ≠ c.peer) || decide (d.callTag ≠ c.tag)
  p.modCall fun x => { x with deferred := x.deferred.filter keep }

/-! ### turn frames not sent (R9, R22, R24, R25, R31) -/

/-- What a turn frame that ends not sent does. An ANSWER ACCEPT, DATA or END whose connection a turn-lost notice has already closed
while it was being sent counts one served connection BROKEN again (DESIGN CHOICE, unsafe; assumption 76). -/
def Part.turnNotSent (what : TurnWhat) (p : Part) : Part :=
  match what with
  | .answerAccept | .data | .endFrame => p.servedBroken
  | .answerDefer tag =>
    p.modCall fun c => { c with deferred := c.deferred.filter fun d => decide (d.recallTag ≠ tag) }
  | .answerBusy | .answerRefuse | .recallStale => p
  | .recallAccept | .receipt _ =>
    match p.call.conn with
    | some c => p.closeCaller c.tag .broken none
    | none => p

/-- A turn frame is handed over; where it is not sent, that is taken at once. -/
def Part.turn (what : TurnWhat) (dest : StationNo) (kind : Nat) (payload : Bytes) (p : Part) : Part :=
  match p.sendTurn what dest kind payload with
  | (true, q) => q
  | (false, q) => q.turnNotSent what

/-! ### the callee's frames (R24, R34, R35) -/

/-- Committed records from sequence `s` on that the slots still hold, `n` at the most (R34). -/
def Part.pullRecords (p : Part) : Nat → Nat → List Bytes × Part
  | 0, _ => ([], p)
  | n + 1, s =>
    match p.readJournal .pull s with
    | (.record bs, q) => let r := q.pullRecords n (s + 1); (bs :: r.1, r.2)
    | (_, q) => ([], q)

/-- The records of one DATA: its first position and how many it may hold (R34, R35). -/
def Part.serveRecords (req : Request) (pos most : Nat) (p : Part) : List Bytes × Part :=
  match req with
  | .pull _ _ => p.pullRecords (min most Config.pullPerData) pos
  | .fetch g _ _ =>
    if p.holds g then
      let n := min (min most Config.fetchPerData) (Config.bankSlots - pos)
      ((List.range n).map fun i => p.fetchRecord g (pos + i), p.loads .fetchService (n + p.fetchMapBursts g pos n))
    else ([], p)

/-- What a frame carries beside its records: the callee's next sequence, or N of the generation, a free value where that
generation is no longer held (R35; assumption 52). -/
def Part.serveTail (req : Request) (p : Part) : Nat :=
  match req with
  | .pull _ _ => p.jrn.next
  | .fetch g _ _ => if p.holds g then p.entriesOf g else Config.absentCalleeN g

def Part.dataPayload (tag : Byte) (req : Request) (pos : Nat) (records : List Bytes) (p : Part) : Bytes :=
  match req with
  | .pull _ _ => pullDataPayload tag (p.serveTail req) records
  | .fetch _ _ _ => fetchDataPayload tag pos (p.serveTail req) records

/-- END is handed over (R24). -/
def Part.sendEnd (c : Conn) (p : Part) : Part :=
  let times := if c.phase = .awaitSilence then c.times + 1 else 1
  (p.setConn (some { c with phase := .awaitSilence, times := times })).turn .endFrame c.peer kindEnd
    (endPayload c.tag c.sent c.request (p.serveTail c.request))

/-- A DATA of `most` records from `pos` is built and handed over, or END where there is no record (R24). `again`: the frame
last sent is built again. -/
def Part.sendData (c : Conn) (pos most : Nat) (again : Bool) (p : Part) : Part :=
  if (p.fwd.refusal .other).isSome then ((p.takeBuffer .other).2).turnNotSent .data
  else
    let r := p.serveRecords c.request pos most
    if r.1.isEmpty then r.2.sendEnd { c with phase := .awaitReceipt }
    else
      (r.2.setConn (some { c with phase := .awaitReceipt, position := pos, count := r.1.length,
                                  times := if again then c.times + 1 else 1 })).turn .data c.peer kindData
        (r.2.dataPayload c.tag c.request pos r.1)

/-- The position after the records acknowledged. -/
def Conn.nextPosition (c : Conn) : Nat := c.position + c.count

/-- The next DATA, or END where the maximum is reached (R24). -/
def Part.sendNext (c : Conn) (p : Part) : Part :=
  if c.request.maximum ≤ c.sent then p.sendEnd c else p.sendData c c.nextPosition (c.request.maximum - c.sent) false

/-- The first frame of a served connection, from its starting point (R24, R34). -/
def Part.sendFirst (c : Conn) (p : Part) : Part :=
  let start := match c.request with
    | .pull first _ => max first (p.jrn.release + 1)
    | .fetch _ first _ => first
  p.sendNext { c with position := start, count := 0, sent := 0 }

/-! ### sent notices of turn frames (R22, R24, R25) -/

/-- The sent notice of a turn frame. A deferred entry whose condition was met while it was still RESERVED becomes WAITING like any
other; its RECALL is left to the next 10 ms tick of its lifetime (R29; DESIGN CHOICE, unsafe; assumption 59). -/
def Part.turnSent (what : TurnWhat) (p : Part) : Part :=
  match what with
  | .answerAccept =>
    let q := p.countCall fun c => { c with gaveAccept := bump c.gaveAccept }
    match q.call.conn with
    | some c => if c.phase = .awaitSend then q.sendFirst c else q
    | none => q
  | .answerDefer tag =>
    let q := p.countCall fun c => { c with gaveDefer := bump c.gaveDefer }
    let waits := fun (d : Deferred) =>
      if d.recallTag = tag ∧ d.state = .reserved then { d with state := .waiting, lifetime := true } else d
    q.modCall fun c => { c with deferred := c.deferred.map waits }
  | .answerBusy => p.countCall fun c => { c with gaveBusy := bump c.gaveBusy }
  | .answerRefuse => p.countCall fun c => { c with gaveRefuse := bump c.gaveRefuse }
  | .receipt true =>
    match p.call.conn with
    | some c =>
      p.modCall fun x => { x with opens := x.opens.map fun e => if e.tag = c.tag then { e with enough := true } else e }
    | none => p
  | .recallAccept | .recallStale | .receipt false | .data | .endFrame => p

/-! ### the caller's receipts (R25) -/

def Part.sendReceipt (c : Conn) (good : Bool) (p : Part) : Part :=
  let enough := match p.openCall c.tag with | some e => e.endEarly | none => false
  p.turn (.receipt enough) c.peer kindReceipt (receiptPayload c.tag good enough)

/-- RECEIPT BAD, or BROKEN at the second for one frame (R25). -/
def Part.receiptBad (c : Conn) (p : Part) : Part :=
  if c.bad = 0 then (p.setConn (some { c with bad := 1 })).sendReceipt c false else p.closeCaller c.tag .broken none

/-! ### the turn rule (R28) -/

/-- A turn-lost notice. -/
def Part.turnLost (p : Part) : Part :=
  match p.call.conn with
  | none => p
  | some c =>
    match c.phase with
    | .awaitAnswer => p.closeCaller c.tag .noAnswer none
    | .awaitData => p.receiptBad c
    | .awaitSend => p
    | .awaitReceipt => p.servedBroken
    | .awaitSilence => p.setConn none
    | .awaitRecallAnswer => (p.dropRecalling c).setConn none

/-- A turn expiry. -/
def Part.turnExpired (p : Part) : Part :=
  match p.call.conn with
  | none => p
  | some c =>
    match c.phase with
    | .awaitAnswer => p.closeCaller c.tag .noAnswer none
    | .awaitData => p.closeCaller c.tag .broken none
    | .awaitSend => p
    | .awaitReceipt => p.servedBroken
    | .awaitSilence => p.setConn none
    | .awaitRecallAnswer => (p.dropRecalling c).setConn none

/-- A connection frame that the open connection does not act on: stray, and turn-lost where a connection is open (R28). -/
def Part.strayTurn (it : RxItem) (p : Part) : Part := ((p.consume it).stray).turnLost

/-- The open connection, where this frame is from its peer with its tag and the phase is one of these. A connection frame with an
empty payload has no tag; it is read as 0 (DESIGN CHOICE, unsafe; assumption 60). -/
def Part.connFor (p : Part) (it : RxItem) (tag : Byte) (phases : List Phase) : Option Conn :=
  match p.call.conn with
  | some c => if c.peer = it.station ∧ c.tag = tag ∧ c.phase ∈ phases then some c else none
  | none => none

/-! ### CALL (R22) -/

/-- A verdict as the callee decides it. -/
inductive CalleeVerdict where
  | accept (r : Request) | defer (r : Request) | refuse (r : Reason)
  deriving DecidableEq, Repr

/-- Cases 2 to 4 of R22 (R34, R35). -/
def Part.verdict (payload : Bytes) (p : Part) : CalleeVerdict :=
  match parseRequest payload with
  | none => .refuse .unknownKind
  | some r =>
    if p.pres.joining.nightExchange = false then .refuse .notReady
    else
      match r with
      | .pull _ _ => .accept r
      | .fetch g _ _ =>
        if p.holds g then .accept r
        else if p.price.staging.generation = g ∧
            (p.price.staging.state = .receiving ∨ p.price.staging.state = .gaps) then .defer r
        else .refuse .noSuchGen

/-- The entry a new CALL of the same caller and tag replaces (R22 case 4). -/
def Part.replaceDeferred (caller : StationNo) (tag : Byte) (p : Part) : Part :=
  match p.call.deferred.find? fun d => decide (d.caller = caller) && decide (d.callTag = tag) with
  | some d => p.removeDeferred d
  | none => p

/-- A DEFER, or BUSY where the deferred list is full (R22 case 4). -/
def Part.deferCall (caller : StationNo) (tag : Byte) (r : Request) (p : Part) : Part :=
  let q := p.replaceDeferred caller tag
  if Config.callSlots ≤ q.call.deferred.length then q.turn .answerBusy caller kindAnswer (answerPayload tag 2 0)
  else
    let rt := freshTag (q.call.deferred.map (·.recallTag)) Config.callSlots q.call.recallTag
    let d : Deferred :=
      { caller := caller, callTag := tag, recallTag := rt, request := r, state := .reserved, lifetime := false, lapsed := false }
    (q.modCall fun c => { c with recallTag := rt + 1, deferred := c.deferred ++ [d] }).turn (.answerDefer rt) caller
      kindAnswer (answerPayload tag 1 rt)

def Part.callReceived (p : Part) : Part :=
  match p.branchFrame .calls kindCall with
  | none => p
  | some (it, b) =>
    let q := p.consume it
    if q.call.conn.isSome then q.stray
    else
      let tag := callTagOf b.payload
      match q.verdict b.payload with
      | .refuse r => q.turn .answerRefuse it.station kindAnswer (answerPayload tag 3 (BitVec.ofNat 8 r.code))
      | .defer r => q.deferCall it.station tag r
      | .accept r =>
        (q.setConn (some { role := .callee, peer := it.station, tag := tag, request := r, phase := .awaitSend, position := 0,
                           count := 0, sent := 0, times := 0, bad := 0, enough := false })).turn .answerAccept it.station
          kindAnswer (answerPayload tag 0 0)

/-! ### ANSWER (R23, R30) -/

def Part.setStage (tag : Byte) (n : Nat) (p : Part) : Part :=
  p.modCall fun c => { c with opens := c.opens.map fun e => if e.tag = tag then { e with stage := max n e.stage } else e }

/-- The caller acts on a verdict (R23). -/
def Part.takeVerdict (c : Conn) (v : Verdict) (p : Part) : Part :=
  let q := p.setStage c.tag 1
  match v with
  | .accept => q.setConn (some { c with phase := .awaitData })
  | .defer rt =>
    let waits := fun (e : OpenCall) =>
      if e.tag = c.tag then { e with state := .waitingRecall, recallTag := rt, recallTimer := true } else e
    (q.setConn none).modCall fun x => { x with opens := x.opens.map waits }
  | .busy => q.closeCaller c.tag .busy none
  | .refuse r => q.closeCaller c.tag (.refused r) none

/-- The phase of the open connection. -/
def Part.phase (p : Part) : Option Phase := p.call.conn.map (·.phase)

def Part.answerReceived (p : Part) : Part :=
  match p.branchFrame .calls kindAnswer with
  | none => p
  | some (it, b) =>
    if p.phase = some .awaitRecallAnswer then p
    else
      match p.connFor it (byteAt b.payload 0) [.awaitAnswer], parseVerdict b.payload with
      | some c, some v => (p.consume it).takeVerdict c v
      | _, _ => p.strayTurn it

/-- The caller's ANSWER to a RECALL (R30). One whose length is not that of an ANSWER, or whose verdict is no known code, is taken as
any other verdict (DESIGN CHOICE, unsafe; assumption 32). -/
def Part.recallAnswered (c : Conn) (v : Option Verdict) (p : Part) : Part :=
  let q := p.dropRecalling c
  match v with
  | some .accept => (q.setConn (some { c with phase := .awaitSend })).sendFirst { c with phase := .awaitSend }
  | _ => (q.setConn none).countCall fun x => { x with recallsStale := bump x.recallsStale }

def Part.recallAnswerReceived (p : Part) : Part :=
  match p.branchFrame .calls kindAnswer with
  | none => p
  | some (it, b) =>
    if p.phase = some .awaitRecallAnswer then
      match p.connFor it (byteAt b.payload 0) [.awaitRecallAnswer] with
      | some c => (p.consume it).recallAnswered c (parseVerdict b.payload)
      | none => p.strayTurn it
    else p

/-! ### DATA, RECEIPT, END (R25 to R27) -/

/-- The records of a JOURNAL PULL DATA run on from `s` (R34). -/
def consecutive : Nat → List Bytes → Bool
  | _, [] => true
  | s, r :: rs => decide ((parseRecord r).seq = s) && consecutive (s + 1) rs

/-- An acceptable DATA gives its record count and, in a JOURNAL PULL, the sequence after its last record (R25, R34, R35). One whose
length does not agree with its record count is not acceptable: RECEIPT BAD answers it (DESIGN CHOICE, unsafe;
assumption 57). -/
def OpenCall.accepts (e : OpenCall) (b : Bytes) : Option (Nat × Option Nat) :=
  let n := fieldAt b 1 1
  if n = 0 ∨ e.request.maximum < e.received + n then none
  else
    match e.request with
    | .pull first _ =>
      let records := cutRecords Config.recordBytes n (b.drop 6)
      let seq := match records with | r :: _ => (parseRecord r).seq | [] => 0
      if n ≤ Config.pullPerData ∧ b.length = 6 + Config.recordBytes * n ∧ consecutive seq records = true ∧
          (match e.expect with | some x => decide (seq = x) | none => decide (first ≤ seq)) = true then
        some (n, some (seq + n))
      else none
    | .fetch _ first _ =>
      if n ≤ Config.fetchPerData ∧ b.length = 6 + priceRecordBytes * n ∧ fieldAt b 2 2 = first + e.received then
        some (n, none)
      else none

/-- A DATA from the peer with the call's tag (R25). -/
def Part.takeData (it : RxItem) (c : Conn) (e : OpenCall) (b : Bytes) (p : Part) : Part :=
  match e.accepts b with
  | some (n, next) =>
    let q := (p.leaveReceive it).setOpen { e with received := e.received + n, stage := max 3 e.stage, expect := next }
    let c := { c with bad := 0 }
    ((q.hand e.owner (.data it.buf c.peer c.tag c.request)).setConn (some c)).sendReceipt c true
  | none => (p.consume it).receiptBad c

def Part.dataReceived (p : Part) : Part :=
  match p.branchFrame .calls kindData with
  | none => p
  | some (it, b) =>
    match p.connFor it (byteAt b.payload 0) [.awaitData] with
    | some c =>
      match p.openCall c.tag with
      | some e => p.takeData it c e b.payload
      | none => p.strayTurn it
    | none => p.strayTurn it

/-- A RECEIPT in AWAIT RECEIPT (R26). -/
def Part.takeReceipt (c : Conn) (good enough : Bool) (p : Part) : Part :=
  let c := { c with enough := c.enough || enough }
  if good then
    let c := { c with sent := c.sent + c.count }
    if c.enough then p.sendEnd c else p.sendNext c
  else if 2 ≤ c.times then p.servedBroken
  else p.sendData c c.position c.count true

/-- A RECEIPT in AWAIT SILENCE (R26). -/
def Part.receiptAfterEnd (c : Conn) (good : Bool) (p : Part) : Part :=
  if good = true ∨ 2 ≤ c.times then p.setConn none else p.sendEnd c

def Part.receiptReceived (p : Part) : Part :=
  match p.branchFrame .calls kindReceipt with
  | none => p
  | some (it, b) =>
    match p.connFor it (byteAt b.payload 0) [.awaitReceipt, .awaitSilence], parseReceipt b.payload with
    | some c, some (good, enough) =>
      if c.phase = .awaitReceipt then (p.consume it).takeReceipt c good enough else (p.consume it).receiptAfterEnd c good
    | _, _ => p.strayTurn it

/-- The END of a call at the caller (R27). -/
def Part.takeCallEnd (c : Conn) (sent tail : Nat) (p : Part) : Part :=
  let q := p.setStage c.tag 4
  match q.openCall c.tag with
  | none => q.setConn none
  | some e =>
    let x : CallEnd := if sent = e.received then (if e.enough then .endedEarly else .complete) else .broken
    q.closeCaller c.tag x (some tail)

def Request.endLength : Request → Nat
  | .pull _ _ => 7 | .fetch _ _ _ => 5

def Part.endReceived (p : Part) : Part :=
  match p.branchFrame .calls kindEnd with
  | none => p
  | some (it, b) =>
    match p.connFor it (byteAt b.payload 0) [.awaitData] with
    | some c =>
      if b.payload.length = c.request.endLength then
        (p.consume it).takeCallEnd c (fieldAt b.payload 1 2) (fieldAt b.payload 3 4)
      else p.strayTurn it
    | none => p.strayTurn it

/-! ### RECALL (R30 to R32) -/

/-- The open call a RECALL names (R31). -/
def Part.recalled (p : Part) (peer : StationNo) (tag rt : Byte) : Option OpenCall :=
  p.call.opens.find? fun e =>
    decide (e.peer = peer) && decide (e.tag = tag) && decide (e.state = .waitingRecall) && decide (e.recallTag = rt)

def Part.takeRecall (e : OpenCall) (p : Part) : Part :=
  let q := p.setOpen { e with state := .connected, recallTimer := false, stage := max 2 e.stage }
  (q.setConn (some { role := .caller, peer := e.peer, tag := e.tag, request := e.request, phase := .awaitData, position := 0,
                     count := 0, sent := 0, times := 0, bad := 0, enough := false })).turn .recallAccept e.peer kindAnswer
    (answerPayload e.tag 0 0)

/-- A RECALL taken (R31). Its tags are read from the first two bytes of its payload, as 0 where they are missing, and nothing
more of it is read (DESIGN CHOICE, unsafe; assumption 60). -/
def Part.recallReceived (p : Part) : Part :=
  match p.branchFrame .calls kindRecall with
  | none => p
  | some (it, b) =>
    let q := p.consume it
    if q.call.conn.isSome then q.stray
    else
      match q.recalled it.station (byteAt b.payload 0) (byteAt b.payload 1) with
      | some e => q.takeRecall e
      | none =>
        q.turn .recallStale it.station kindAnswer
          (answerPayload (byteAt b.payload 0) 3 (BitVec.ofNat 8 Reason.stale.code))

def Part.recallTimeout (tag : Byte) (p : Part) : Part :=
  match p.openCall tag with
  | some e => if e.state = .waitingRecall ∧ e.recallTimer = true then (p.endCall e .recallTimeout).ownersTake else p
  | none => p

/-- A deferred entry whose lifetime has run out goes (R29). -/
def Part.expireDeferred (d : Deferred) (p : Part) : Part :=
  (p.modCall fun c => { c with deferred := c.deferred.filter fun x => decide (x.recallTag ≠ d.recallTag) }).countCall fun c =>
    { c with deferredExpired := bump c.deferredExpired }

def Part.deferredEntry (p : Part) (tag : Byte) : Option Deferred :=
  p.call.deferred.find? fun d => decide (d.recallTag = tag)

def Part.lifetimeExpiry (tag : Byte) (p : Part) : Part :=
  match p.deferredEntry tag with
  | none => p
  | some d =>
    if d.lifetime then
      match d.state with
      | .waiting => p.expireDeferred d
      | .recallQueued =>
        match p.withdraw .till (.recall tag) with
        | (.refused, q) => q.setDeferred { d with lapsed := true, lifetime := false }
        | (_, q) => q.expireDeferred d
      | .reserved | .recalling => p
    else p

def Part.recallRetry (tag : Byte) (p : Part) : Part :=
  match p.deferredEntry tag with
  | none => p
  | some d => if d.state = .waiting ∧ d.lifetime = true ∧ p.conditionMet d = true then p.queueRecall d else p

/-! ### notices of queued CALLs and RECALLs (R21, R29, R30) -/

def Part.callSent (tag : Byte) (p : Part) : Part :=
  match p.openCall tag with
  | none => p
  | some e =>
    if p.call.conn.isNone then
      (p.setOpen { e with state := .connected }).setConn
        (some { role := .caller, peer := e.peer, tag := tag, request := e.request, phase := .awaitAnswer, position := 0,
                count := 0, sent := 0, times := 0, bad := 0, enough := false })
    else p

def Part.callDropped (tag : Byte) (p : Part) : Part :=
  match p.openCall tag with
  | some e => (p.endCall e .noAnswer).ownersTake
  | none => p

def Part.recallSent (tag : Byte) (p : Part) : Part :=
  match p.deferredEntry tag with
  | none => p
  | some d =>
    (p.setDeferred { d with state := .recalling }).setConn
      (some { role := .callee, peer := d.caller, tag := d.callTag, request := d.request, phase := .awaitRecallAnswer,
              position := 0, count := 0, sent := 0, times := 0, bad := 0, enough := false })

def Part.recallDropped (tag : Byte) (p : Part) : Part :=
  match p.deferredEntry tag with
  | some d => p.modCall fun c => { c with deferred := c.deferred.filter fun x => decide (x.recallTag ≠ d.recallTag) }
  | none => p

/-- The withdrawn notice of a RECALL whose entry's lifetime ran out in contention (R29). -/
def Part.recallWithdrawn (tag : Byte) (p : Part) : Part :=
  match p.deferredEntry tag with
  | some d => if d.lapsed then p.expireDeferred d else p
  | none => p

/-! ### the commands -/

def execCallReceived (s : State) : Host.Outcome State Fault Refusal := s.run Part.callReceived
def execAnswerReceived (s : State) : Host.Outcome State Fault Refusal := s.run Part.answerReceived
def execRecallAnswerReceived (s : State) : Host.Outcome State Fault Refusal := s.run Part.recallAnswerReceived
def execDataReceived (s : State) : Host.Outcome State Fault Refusal := s.run Part.dataReceived
def execReceiptReceived (s : State) : Host.Outcome State Fault Refusal := s.run Part.receiptReceived
def execEndReceived (s : State) : Host.Outcome State Fault Refusal := s.run Part.endReceived
def execRecallReceived (s : State) : Host.Outcome State Fault Refusal := s.run Part.recallReceived
def execRecallTimerExpiry (tag : Byte) (s : State) : Host.Outcome State Fault Refusal := s.run (Part.recallTimeout tag)
def execDeferredLifetimeExpiry (tag : Byte) (s : State) : Host.Outcome State Fault Refusal := s.run (Part.lifetimeExpiry tag)
def execDeferredRecallRetry (tag : Byte) (s : State) : Host.Outcome State Fault Refusal := s.run (Part.recallRetry tag)

end Sys2Proof.Machine
end

