-- ==== Sys2Proof/Machine/Till.lean ====
section
/-! DEFINITION. The till port controller (chapter 06): frames and line measurement, port states, requests one at a time, the
open sale, and the supervisor requests handed to the label service. -/

namespace Sys2Proof.Machine

/-! ### ports -/

def Part.port (p : Part) (n : PortNo) : Port := p.till.ports[n.val]

def Part.setPort (n : PortNo) (x : Port) (p : Part) : Part := p.modTill fun t => { t with ports := t.ports.set n.val x }

def Part.modPort (n : PortNo) (f : Port → Port) (p : Part) : Part := p.setPort n (f (p.port n))

def Part.countPort (n : PortNo) (f : PortCounters → PortCounters) (p : Part) : Part :=
  p.modPort n fun x => { x with ctr := f x.ctr }

/-- The port is busy (R102). -/
def Port.isBusy (x : Port) : Bool := x.req.isSome || x.out.isSome || !x.busy.isEmpty

/-- The work of a request has not ended (R98, R99, R102). -/
def Port.working (x : Port) : Bool :=
  match x.req with
  | none => false
  | some r => decide (r.work ≠ .replying)

/-! ### replies (R94, R104) -/

/-- The four flags of a reply built now. -/
def Part.replyFlags (p : Part) (hold noTally : Bool) : Byte :=
  BitVec.ofNat 8 (bit p.staleServed + 2 * bit hold + 4 * bit p.jrn.high + 8 * bit noTally)

/-- The content of a reply built now, CRC included. -/
def Part.replyContent (p : Part) (seq kind : Byte) (r : Result) (hold noTally : Bool) (body : Bytes) : Bytes :=
  withCrc ([seq, kind, BitVec.ofNat 8 r.code, p.replyFlags hold noTally] ++ body)

/-! ### a sale ended by a port event (R107) -/

/-- SALE ABANDON for a port event; where it is refused, one abandon not written is counted. -/
def Part.abandonByEvent (n : PortNo) (s : Sale) (reason : AbandonReason) (p : Part) : Part :=
  match p.append .portEvent n.val [.saleAbandon s.number reason s.running s.tenders false] with
  | (some _, q) => q
  | (none, q) => q.countTill fun c => { c with notWritten := bump c.notWritten }

/-! ### BREAK and LINE DOWN (R98, R99) -/

/-- Nothing is sent any more and no request is in progress. -/
def Port.silenced (x : Port) : Port := { x with req := none, out := none, outBusy := false, busy := [] }

/-- A BREAK is taken (R98). -/
def Part.breakNow (n : PortNo) (p : Part) : Part :=
  let q := match (p.port n).sale with
    | none => p
    | some s => (p.abandonByEvent n s .tillRestart).countTill fun c => { c with abandonedRestart := bump c.abandonedRestart }
  q.modPort n fun x =>
    { x.silenced with sale := none, last := none, state := .idle, grace := false, silence := true,
                      ctr := { x.ctr with breaks := bump x.ctr.breaks } }

/-- A low has reached 1 s on an enabled port: one LINE DOWN is counted (R99). -/
def PortCounters.countLineDown (c : PortCounters) : PortCounters := { c with lineDowns := bump c.lineDowns }

/-- A LINE DOWN is taken (R99). -/
def Part.lineDownNow (n : PortNo) (p : Part) : Part :=
  p.modPort n fun x =>
    { x.silenced with state := .offline, silence := false, grace := x.sale.isSome, ctr := x.ctr.countLineDown }

def Part.takeLow (n : PortNo) (p : Part) (l : Low) : Part :=
  match l with
  | .breakLow => p.breakNow n
  | .lineDown => p.lineDownNow n

/-- The lows that waited for the work of the request are taken (R98, R99). -/
def Part.takeLows (n : PortNo) (p : Part) : Part :=
  (p.port n).lows.foldl (fun q l => q.takeLow n l) (p.modPort n fun x => { x with lows := [] })

/-! ### the end of a request's work (R102, R103) -/

/-- The reply of the request in progress is built, stored and sent, and the lows that waited are taken. -/
def Part.reply (n : PortNo) (r : Result) (hold noTally : Bool) (body : Bytes) (p : Part) : Part :=
  match (p.port n).req with
  | none => p
  | some q =>
    let content := p.replyContent q.seq q.kind r hold noTally body
    (p.modPort n fun x =>
      { x with last := some ⟨q.seq, q.kind, content⟩, req := some { q with work := .replying },
               out := some (tillFrame content), outBusy := false }).takeLows n

/-- A reply with an empty body. -/
def Part.refuse (n : PortNo) (r : Result) (p : Part) : Part := p.reply n r false false []

/-- FULL, counted (R106, R117). -/
def Part.refuseFull (n : PortNo) (p : Part) : Part :=
  (p.countTill fun c => { c with full := bump c.full }).refuse n .full

/-- What the open sale becomes when the records stand (R109, R113, R114). A port that went OFFLINE meanwhile stays OFFLINE
(assumption 19). -/
def Port.settleSale (x : Port) (o : OnCommit) : Port :=
  match o with
  | .keep => x
  | .opens number =>
    { x with sale := some { number := number, lines := [], running := 0, tenders := 0, tally := [] }
             state := if x.state = .offline then .offline else .inSale
             grace := decide (x.state = .offline) }
  | .closes | .abandons =>
    { x with sale := none, state := if x.state = .offline then .offline else .idle, grace := false }

def OnCommit.count (o : OnCommit) (c : TillCounters) : TillCounters :=
  match o with
  | .closes => { c with closed := bump c.closed }
  | .abandons => { c with abandonedTill := bump c.abandonedTill }
  | .keep | .opens _ => c

/-- The append of a port's request stands: its reply is built (R106). -/
def Part.appendStands (n : PortNo) (p : Part) : Part :=
  match (p.port n).req with
  | some { work := .appended o body hold noTally, .. } =>
    (((p.modPort n fun x => x.settleSale o).countTill o.count).reply n .ok hold noTally body)
  | _ => p

/-- The records of a request are accepted: the sale takes its changes, and the reply waits (R106). -/
def Part.appended (n : PortNo) (sale : Option Sale) (o : OnCommit) (body : Bytes) (hold noTally : Bool) (p : Part) : Part :=
  p.modPort n fun x =>
    { x with sale := sale, req := x.req.map fun r => { r with work := .appended o body hold noTally } }

/-! ### frames (R95, R96, R100 to R103) -/

/-- The length of a good frame's content (R96). -/
def contentFits (bs : Bytes) : Bool :=
  decide (4 ≤ bs.length) &&
    (match TillKind.ofCode (byteAt bs 1).toNat with
     | some k => decide (bs.length = 4 + k.bodyLength)
     | none => true)

/-- What a good frame does to the port's state and timers (R100, R101). -/
def Port.heard (x : Port) : Port :=
  { x with state := if x.state = .offline then (if x.sale.isSome then .inSale else .idle) else x.state
           silence := true, grace := false }

/-- A good frame on a busy port (R102). -/
def Part.refuseBusy (n : PortNo) (seq kind : Byte) (p : Part) : Part :=
  if (p.port n).busy.length < Config.busySlots then
    (p.modPort n fun x => { x with busy := x.busy ++ [tillFrame (p.replyContent seq kind .busy false false [])] }).countTill
      fun c => { c with busyRefusals := bump c.busyRefusals }
  else p.countTill fun c => { c with refusalsDropped := bump c.refusalsDropped }

/-- The stored reply is sent again (R103). -/
def Part.answerRepeat (n : PortNo) (l : StoredReply) (p : Part) : Part :=
  (p.modPort n fun x =>
    { x with req := some ⟨l.seq, l.kind, [], .replying⟩, out := some (tillFrame l.content), outBusy := false }).countTill
    fun c => { c with repeats := bump c.repeats }

/-- A new request (R102); one of no known kind is answered at once (R104). -/
def Part.newRequest (n : PortNo) (seq kind : Byte) (body : Bytes) (p : Part) : Part :=
  let q := p.modPort n fun x => { x with req := some ⟨seq, kind, body, .taken⟩ }
  match TillKind.ofCode kind.toNat with
  | some _ => q
  | none => q.refuse n .badRequest

/-- A request of an enabled port, after the change of state its frame causes (R100, R102, R103). -/
def Part.takeRequest (n : PortNo) (seq kind : Byte) (body : Bytes) (p : Part) : Part :=
  let x := p.port n
  if x.isBusy then p.refuseBusy n seq kind
  else
    match x.last with
    | some l => if l.seq = seq ∧ l.kind = kind then p.answerRepeat n l else p.newRequest n seq kind body
    | none => p.newRequest n seq kind body

/-- A good frame (R96, R100). -/
def Part.goodFrame (n : PortNo) (bs : Bytes) (p : Part) : Part :=
  let q := p.countPort n fun c => { c with good := bump c.good }
  if q.serving = .noReply ∨ q.portEnabled n = false then q
  else (q.modPort n Port.heard).takeRequest n (byteAt bs 0) (byteAt bs 1) ((bs.drop 2).take (bs.length - 4))

/-- A frame closed by ETX (R96). One that fails both the CRC and the length counts one CRC error alone: R96 gives both checks and no
order (DESIGN CHOICE, unsafe; assumption 74). -/
def Part.closedFrame (n : PortNo) (bs : Bytes) (p : Part) : Part :=
  if crcGood bs = false then p.countPort n fun c => { c with crc := bump c.crc }
  else if contentFits bs = false then p.countPort n fun c => { c with badLength := bump c.badLength }
  else p.goodFrame n bs

/-- The characters of a frame from the one after its STX up to its ETX. A port that takes no character (R97) reads none. -/
def Part.tillFrame (n : PortNo) (chars : Bytes) (p : Part) : Part :=
  if (p.port n).held then p
  else
    let r := gather (some []) 0 chars
    let q := p.modPort n fun x =>
      { x with ignoring := r.2.isNone, ctr := { x.ctr with badLength := bumpBy r.1 x.ctr.badLength } }
    match r.2 with
    | some bs => q.closedFrame n bs
    | none => q

def Part.tillLong (n : PortNo) (p : Part) : Part :=
  if (p.port n).held then p
  else p.modPort n fun x => { x with ignoring := true, ctr := { x.ctr with badLength := bump x.ctr.badLength } }

def Part.tillBadEscape (n : PortNo) (stx : Bool) (p : Part) : Part :=
  if (p.port n).held then p
  else p.modPort n fun x => { x with ignoring := !stx, ctr := { x.ctr with badLength := bump x.ctr.badLength } }

/-! ### line measurement (R97 to R99) -/

/-- A stop bit reads low: counted once for a low (R97). -/
def Part.tillFramingError (n : PortNo) (p : Part) : Part :=
  if (p.port n).held then p
  else p.modPort n fun x =>
    { x with held := true, errCounted := true, ignoring := true, ctr := { x.ctr with framing := bump x.ctr.framing } }

/-- The low has lasted 2 character times: the count of its framing error is withdrawn (R97). No event marks a rising edge that is
followed by another low within one bit time: a BREAK or LINE DOWN of that later low withdraws the count of the earlier one
(DESIGN CHOICE, unsafe; assumption 73). -/
def Port.withdrawFraming (x : Port) : Port :=
  if x.errCounted then { x with errCounted := false, ctr := { x.ctr with framing := x.ctr.framing - 1 } } else x

/-- A low of one of the two longer classes, taken now or when the request's work has ended (R98, R99). One that reaches 1 s on a
port already OFFLINE is counted at once and changes nothing. Where a request is in progress on such a port (its silence timer has
expired meanwhile), R99 says both this and that the reply is discarded; the model changes nothing, and the reply is sent (DESIGN
CHOICE, unsafe; assumption 72). -/
def Part.longLow (n : PortNo) (l : Low) (p : Part) : Part :=
  let q := p.modPort n Port.withdrawFraming
  if q.portEnabled n = false then q
  else if l = .lineDown ∧ (q.port n).state = .offline then q.countPort n PortCounters.countLineDown
  else if (q.port n).working then q.modPort n fun x => { x with lows := x.lows ++ [l] }
  else q.takeLow n l

def Part.tillHigh (n : PortNo) (p : Part) : Part := p.modPort n fun x => { x with held := false, errCounted := false }

/-! ### timers and the end of a reply (R101, R102) -/

def Part.silenceExpiry (n : PortNo) (p : Part) : Part :=
  if (p.port n).silence = true ∧ (p.port n).state ≠ .offline then
    p.modPort n fun x => { x with state := .offline, silence := false, grace := x.sale.isSome }
  else p

def Part.graceExpiry (n : PortNo) (p : Part) : Part :=
  let x := p.port n
  if x.grace = true ∧ x.state = .offline then
    match x.sale with
    | none => p
    | some s =>
      ((p.abandonByEvent n s .tillLost).countTill fun c => { c with abandonedLost := bump c.abandonedLost }).modPort n
        fun y => { y with sale := none, grace := false }
  else p

/-- The next BUSY reply that waits is sent (R102). -/
def Port.nextBusy (x : Port) : Port :=
  match x.busy with
  | [] => { x with out := none, outBusy := false }
  | b :: rest => { x with out := some b, outBusy := true, busy := rest }

/-- The last character of a reply is sent (R102). -/
def Part.replySent (n : PortNo) (p : Part) : Part :=
  let x := p.port n
  match x.out with
  | none => p
  | some _ => if x.outBusy then p.modPort n Port.nextBusy else p.modPort n fun x => { x with req := none }.nextBusy

/-! ### the checks of a request (R104, R105) -/

def TillKind.supervisor : TillKind → Bool
  | .bind | .unbind | .query | .retry => true
  | .lookup | .openSale | .line | .void | .tender | .close | .abandon | .status => false

/-- Not served at level NONE (R105). -/
def TillKind.needsLevel : TillKind → Bool
  | .lookup | .openSale | .line | .bind | .unbind | .query | .retry => true
  | .void | .tender | .close | .abandon | .status => false

/-- The port state is one the kind requires: IN SALE holds an open sale, IDLE holds none. -/
def TillKind.stateFits (k : TillKind) (inSale : Bool) : Bool :=
  match k with
  | .lookup | .status => true
  | .openSale | .bind | .unbind | .query | .retry => !inSale
  | .line | .void | .tender | .close | .abandon => inSale

/-- Checks 2 to 4 of R104. -/
def Part.tillRefusal (n : PortNo) (k : TillKind) (p : Part) : Option Result :=
  if k.supervisor = true ∧ p.supervisor n = false then some .notPermitted
  else if k.needsLevel = true ∧ p.serving = .none then some .notReady
  else if k.stateFits (p.port n).sale.isSome = false then some .wrongState
  else none

/-- The body of the port's request, where it is of this kind and not yet executed. -/
def Part.requestBody (p : Part) (n : PortNo) (k : TillKind) : Option Bytes :=
  match (p.port n).req with
  | some r => if TillKind.ofCode r.kind.toNat = some k ∧ r.work = .taken then some r.body else none
  | none => none

/-- The port's request of this kind is executed: refused at a check of R104, or worked by `f`. -/
def Part.executeRequest (n : PortNo) (k : TillKind) (f : Bytes → Part → Part) (p : Part) : Part :=
  match p.requestBody n k with
  | none => p
  | some body =>
    match p.tillRefusal n k with
    | none => f body p
    | some .notReady => (p.countTill fun c => { c with notReady := bump c.notReady }).refuse n .notReady
    | some r => p.refuse n r

/-- The same for a kind that needs an open sale. -/
def Part.executeInSale (n : PortNo) (k : TillKind) (f : Sale → Bytes → Part → Part) (p : Part) : Part :=
  p.executeRequest n k fun body q =>
    match (q.port n).sale with
    | some s => f s body q
    | none => q.refuse n .wrongState

/-! ### LOOKUP and LINE (R72, R108, R110) -/

/-- The field ranges of LOOKUP and LINE (R108). -/
def itemFieldsFit (body : Bytes) : Bool :=
  decide (1 ≤ fieldAt body 0 6) && decide (fieldAt body 0 6 ≤ Config.itemMax) && decide (1 ≤ fieldAt body 6 3)

/-- The search of a request goes on with what is left of it: its next entry is asked at TILL (R72). -/
def Part.lookFor (n : PortNo) (x : Search) (p : Part) : Part :=
  (p.modPort n fun y => { y with req := y.req.map fun r => { r with work := .looking x } }).ask (.lookup n) (.lookup n)

/-- How a line meets the tally (R110): the entry it is tallied in, or none; and the NO TALLY mark. -/
def Sale.tallyPlan (s : Sale) (code : Nat) (e : BankEntry) : Option TallyEntry × Bool :=
  if e.promo = promoMultibuy then
    match s.tally.find? fun t => decide (t.item = code) with
    | some t => (some t, false)
    | none => if s.tally.length < Config.tallyMax then (some ⟨code, e.value, 0, []⟩, false) else (none, true)
  else (none, false)

/-- The tally after a tallied line (R110). -/
def Sale.tallyAfter (s : Sale) (t : TallyEntry) (d : GroupDiscount) : List TallyEntry :=
  let t' := { t with count := d.count, groups := t.groups ++ (if 1 ≤ d.g then [⟨d.g, d.v, d.d⟩] else []) }
  if s.tally.any fun x => decide (x.item = t.item) then s.tally.map fun x => if x.item = t.item then t' else x
  else s.tally ++ [t']

/-- The sale with a line added (R110). -/
def Sale.addLine (s : Sale) (line : SaleLine) (d : Nat) (tally : List TallyEntry) : Sale :=
  { s with lines := s.lines ++ [line], running := s.running + line.amount - d, tally := tally }

/-- Steps 4 and 5 of R110, the append and the sale's changes. -/
def Part.sellLine (n : PortNo) (s : Sale) (code qty : Nat) (e : BankEntry) (charged a : Nat) (p : Part) : Part :=
  let total := s.running + a
  if Config.totalMax < total then p.refuse n .limit
  else
    let plan := s.tallyPlan code e
    let number := s.lines.length + 1
    let disc := plan.1.map fun t => groupDiscount t.n e.m charged t.count qty total
    let d := (disc.map (·.d)).getD 0
    let g := (disc.map (·.g)).getD 0
    let marks : ItemMarks := { hold := e.hold, noTally := plan.2, stale := p.staleServed }
    let records := Content.item s.number number code qty charged a p.price.activeGen marks ::
      (if 1 ≤ d then [Content.discount s.number number code g d] else [])
    match p.append (.till n) n.val records with
    | (none, r) => r.refuseFull n
    | (some _, r) =>
      let tally := match plan.1, disc with
        | some t, some x => s.tallyAfter t x
        | _, _ => s.tally
      let s' := s.addLine ⟨code, qty, charged, a, plan.1.isSome, false⟩ d tally
      r.appended n (some s') .keep (be 2 number ++ be 3 charged ++ be 4 a ++ be 4 d ++ be 4 s'.running) e.hold plan.2

/-- LOOKUP and LINE go on with the entry found: stages 1 to 3, then the reply of a LOOKUP, or the line of the open sale. A LINE
whose sale the grace timer has abandoned while it searched meets WRONG STATE (DESIGN CHOICE, unsafe; assumption 69). -/
def Part.priced (n : PortNo) (r : TillRequest) (e : BankEntry) (p : Part) : Part :=
  let q := fieldAt r.body 6 3
  match e.lineAmount q with
  | .badRequest => p.refuse n .badRequest
  | .overLimit charged => p.reply n .overLimit e.hold false (be 3 charged)
  | .amount charged a =>
    if TillKind.ofCode r.kind.toNat = some .line then
      match (p.port n).sale with
      | some s => p.sellLine n s (fieldAt r.body 0 6) q e charged a
      | none => p.refuse n .wrongState
    else p.reply n .ok e.hold false (be 1 e.kind ++ be 3 charged ++ be 4 a)

/-- The lookup of a port's request has ended (R72). -/
def Part.lookedUp (n : PortNo) (f : Found) (p : Part) : Part :=
  match (p.port n).req with
  | none => p
  | some r =>
    match p.foundEntry f with
    | (none, q) => q.refuse n .notFound
    | (some (_, e), q) => q.priced n r e

/-- The lookup of a request begins; one without an entry to read ends at once (R72). -/
def Part.lookUp (n : PortNo) (code : Nat) (p : Part) : Part :=
  let x := p.beginSearch code
  if x.reads then p.lookFor n x else p.lookedUp n .notFound

/-- The burst of a search has read its entry (R72). -/
def Part.lookupBurst (n : PortNo) (p : Part) : Part :=
  match (p.port n).req with
  | some { work := .looking x, .. } =>
    match p.searchStep x with
    | .goesOn rest => p.lookFor n rest
    | .ended f => p.lookedUp n f
  | _ => p

def Part.tillLookup (n : PortNo) (p : Part) : Part :=
  p.executeRequest n .lookup fun body q =>
    if itemFieldsFit body then q.lookUp n (fieldAt body 0 6) else q.refuse n .badRequest

def Part.tillLine (n : PortNo) (p : Part) : Part :=
  p.executeInSale n .line fun s body q =>
    if itemFieldsFit body = false then q.refuse n .badRequest
    else if Config.lineMax ≤ s.lines.length then q.refuse n .limit
    else q.lookUp n (fieldAt body 0 6)

/-! ### VOID (R111) -/

/-- The reversal of a line: its tally entry's, where the line is tallied. -/
def Sale.reversalOf (s : Sale) (l : SaleLine) : Option Reversal :=
  if l.tallied then (s.tally.find? fun t => decide (t.item = l.item)).map fun t => reversal t l.q else none

/-- The tally after a VOID: an entry whose count falls to 0 is removed. -/
def Sale.tallyVoided (s : Sale) (r : Option Reversal) : List TallyEntry :=
  match r with
  | none => s.tally
  | some x =>
    (s.tally.map fun t => if t.item = x.entry.item then x.entry else t).filter fun t =>
      decide (t.item ≠ x.entry.item) || decide (0 < t.count)

def Part.voidSaleLine (n : PortNo) (s : Sale) (number : Nat) (l : SaleLine) (p : Part) : Part :=
  let rev := s.reversalOf l
  let back := (rev.map (·.r)).getD 0
  let k := (rev.map (·.k)).getD 0
  if s.running + back < l.amount ∨ Config.totalMax + l.amount < s.running + back then p.refuse n .limit
  else
    let records := Content.void s.number number l.item l.q l.amount ::
      (if 1 ≤ back then [Content.reversal s.number number l.item k back] else [])
    match p.append (.till n) n.val records with
    | (none, r) => r.refuseFull n
    | (some _, r) =>
      let running := s.running + back - l.amount
      let s' := { s with lines := s.lines.set (number - 1) { l with voided := true }, running := running,
                         tally := s.tallyVoided rev }
      r.appended n (some s') .keep (be 4 back ++ be 4 running) false false

def Part.tillVoid (n : PortNo) (p : Part) : Part :=
  p.executeInSale n .void fun s body q =>
    let number := fieldAt body 0 2
    if number = 0 then q.refuse n .badRequest
    else
      match s.lines[number - 1]? with
      | none => q.refuse n .badRequest
      | some l => if l.voided then q.refuse n .wrongState else q.voidSaleLine n s number l

/-! ### the other requests of a sale (R109, R112 to R115) -/

def Part.tillOpen (n : PortNo) (p : Part) : Part :=
  p.executeRequest n .openSale fun _ q =>
    match q.append (.till n) n.val [.saleOpen q.price.activeGen] with
    | (none, r) => r.refuseFull n
    | (some seq, r) => r.appended n none (.opens seq) (be 4 seq) false false

def Part.tillTender (n : PortNo) (p : Part) : Part :=
  p.executeInSale n .tender fun s body q =>
    let amount := fieldAt body 1 4
    match Method.ofCode (fieldAt body 0 1) with
    | none => q.refuse n .badRequest
    | some m =>
      if amount = 0 ∨ Config.totalMax < amount then q.refuse n .badRequest
      else if Config.totalMax < s.tenders + amount then q.refuse n .limit
      else
        match q.append (.till n) n.val [.tender s.number m amount] with
        | (none, r) => r.refuseFull n
        | (some _, r) =>
          r.appended n (some { s with tenders := s.tenders + amount }) .keep (be 4 (s.tenders + amount) ++ be 4 s.running)
            false false

def Part.tillClose (n : PortNo) (p : Part) : Part :=
  p.executeInSale n .close fun s _ q =>
    if s.tenders < s.running then q.reply n .short false false (be 4 s.running ++ be 4 s.tenders)
    else
      let change := s.tenders - s.running
      match q.append (.till n) n.val [.saleClose s.number s.running s.tenders change] with
      | (none, r) => r.refuseFull n
      | (some _, r) =>
        r.appended n (some s) .closes (be 4 s.running ++ be 4 s.tenders ++ be 4 change) false false

def Part.tillAbandon (n : PortNo) (p : Part) : Part :=
  p.executeInSale n .abandon fun s _ q =>
    match q.append (.till n) n.val [.saleAbandon s.number .till s.running s.tenders false] with
    | (none, r) => r.refuseFull n
    | (some _, r) => r.appended n (some s) .abandons [] false false

def PortState.code : PortState → Nat
  | .offline => 0 | .idle => 1 | .inSale => 2

/-- The body of a STATUS reply (R115). -/
def Part.statusBody (p : Part) (x : Port) : Bytes :=
  let sale := x.sale.getD { number := 0, lines := [], running := 0, tenders := 0, tally := [] }
  be 1 x.state.code ++ be 1 p.serving.code ++ be 4 sale.number ++ be 2 sale.lines.length ++ be 4 sale.running ++
    be 4 sale.tenders ++ be 2 sale.tally.length

def Part.tillStatus (n : PortNo) (p : Part) : Part :=
  p.executeRequest n .status fun _ q => q.reply n .ok false false (q.statusBody (q.port n))

/-! ### the supervisor requests (R116) -/

def labelIdFits (id : Nat) : Bool := decide (1 ≤ id) && decide (id ≤ Config.labelIdMax)

/-- The label id a supervisor request names. -/
def labelIdOf (body : Bytes) : Nat := fieldAt body 0 3

/-- The field ranges of BIND (R116). -/
def bindFits (body : Bytes) : Bool :=
  labelIdFits (labelIdOf body) && decide (1 ≤ fieldAt body 3 6) && decide (fieldAt body 3 6 ≤ Config.itemMax) &&
    (Layout.ofCode (fieldAt body 9 1)).isSome

/-- The body of a supervisor request of this kind that has passed its checks and waits for the label service. -/
def Part.handedBody (p : Part) (n : PortNo) (k : TillKind) : Option Bytes :=
  match (p.port n).req with
  | some r => if TillKind.ofCode r.kind.toNat = some k ∧ r.work = .handed then some r.body else none
  | none => none

/-- A supervisor request: its fields checked, then handed to the label service, whose answer `f` gives once it takes requests; one
that waits for that has passed its checks and is not checked again (R102, R105, R116; assumption 28). -/
def Part.executeLabel (n : PortNo) (k : TillKind) (fits : Bytes → Bool) (f : Bytes → Part → Part) (p : Part) : Part :=
  match p.handedBody n k with
  | some body => if p.labelsReady then f body p else p
  | none =>
    p.executeRequest n k fun body q =>
      if fits body = false then q.refuse n .badRequest
      else if q.labelsReady then f body q
      else q.modPort n fun x => { x with req := x.req.map fun r => { r with work := .handed } }

def Part.tillBind (n : PortNo) (p : Part) : Part :=
  p.executeLabel n .bind bindFits fun body q =>
    let r := q.bindLabel (labelIdOf body) (fieldAt body 3 6) ((Layout.ofCode (fieldAt body 9 1)).getD .price)
    r.2.refuse n r.1

def Part.tillUnbind (n : PortNo) (p : Part) : Part :=
  p.executeLabel n .unbind (fun b => labelIdFits (labelIdOf b)) fun body q =>
    let r := q.unbindLabel (labelIdOf body); r.2.refuse n r.1

def Part.tillQuery (n : PortNo) (p : Part) : Part :=
  p.executeLabel n .query (fun b => labelIdFits (labelIdOf b)) fun body q =>
    match q.searchLabel (labelIdOf body) with
    | (none, r) => r.refuse n .notFound
    | (some (_, e), r) => r.reply n .ok false false e.queryBody

def Part.tillRetry (n : PortNo) (p : Part) : Part :=
  p.executeLabel n .retry (fun b => labelIdFits (labelIdOf b)) fun body q =>
    let r := q.retryLabel (labelIdOf body); r.2.refuse n r.1

/-! ### the commands -/

def execTillFrameReceived (port : PortNo) (chars : Bytes) (s : State) : Host.Outcome State Fault Refusal :=
  s.run (Part.tillFrame port chars)
def execFramingError (port : PortNo) (s : State) : Host.Outcome State Fault Refusal := s.run (Part.tillFramingError port)
def execLineBreak (port : PortNo) (s : State) : Host.Outcome State Fault Refusal := s.run (Part.longLow port .breakLow)
def execLineDown (port : PortNo) (s : State) : Host.Outcome State Fault Refusal := s.run (Part.longLow port .lineDown)
def execSilenceTimerExpiry (port : PortNo) (s : State) : Host.Outcome State Fault Refusal := s.run (Part.silenceExpiry port)
def execGraceTimerExpiry (port : PortNo) (s : State) : Host.Outcome State Fault Refusal := s.run (Part.graceExpiry port)
def execReplySent (port : PortNo) (s : State) : Host.Outcome State Fault Refusal := s.run (Part.replySent port)
def execLookup (port : PortNo) (s : State) : Host.Outcome State Fault Refusal := s.run (Part.tillLookup port)
def execOpenSale (port : PortNo) (s : State) : Host.Outcome State Fault Refusal := s.run (Part.tillOpen port)
def execSaleLine (port : PortNo) (s : State) : Host.Outcome State Fault Refusal := s.run (Part.tillLine port)
def execVoidLine (port : PortNo) (s : State) : Host.Outcome State Fault Refusal := s.run (Part.tillVoid port)
def execTender (port : PortNo) (s : State) : Host.Outcome State Fault Refusal := s.run (Part.tillTender port)
def execCloseSale (port : PortNo) (s : State) : Host.Outcome State Fault Refusal := s.run (Part.tillClose port)
def execAbandonSale (port : PortNo) (s : State) : Host.Outcome State Fault Refusal := s.run (Part.tillAbandon port)
def execStatus (port : PortNo) (s : State) : Host.Outcome State Fault Refusal := s.run (Part.tillStatus port)
def execBind (port : PortNo) (s : State) : Host.Outcome State Fault Refusal := s.run (Part.tillBind port)
def execUnbind (port : PortNo) (s : State) : Host.Outcome State Fault Refusal := s.run (Part.tillUnbind port)
def execLabelQuery (port : PortNo) (s : State) : Host.Outcome State Fault Refusal := s.run (Part.tillQuery port)
def execLabelRetry (port : PortNo) (s : State) : Host.Outcome State Fault Refusal := s.run (Part.tillRetry port)
def execDroppedAsLong (port : PortNo) (s : State) : Host.Outcome State Fault Refusal := s.run (Part.tillLong port)
def execBadEscape (port : PortNo) (stx : Bool) (s : State) : Host.Outcome State Fault Refusal :=
  s.run (Part.tillBadEscape port stx)
def execLineHighForOneBitTime (port : PortNo) (s : State) : Host.Outcome State Fault Refusal := s.run (Part.tillHigh port)

end Sys2Proof.Machine
end

