-- ==== Sys2Proof/Machine/Journal.lean ====
section
/-! DEFINITION. The journal unit's own events (chapter 07): the two bursts of a record, the commitment of records, RELEASE
frames. Appends, reads and releases stand in Ops.lean, the warm-start scan in Presence.lean. -/

namespace Sys2Proof.Machine

/-- The first burst of the record at the head is written; the one that carries its CRC is asked next (R123, R188). -/
def Part.journalFirst (p : Part) : Part :=
  match p.jrn.queue with
  | [] => p
  | r :: _ => (p.put (slotAddr r.seq) (r.bytes.take Config.burst)).ask .journal .journalSecond

/-- The second burst of the record at the head is written, and the next record's first burst is asked (R123). -/
def Part.journalSecond (p : Part) : Part :=
  match p.jrn.queue with
  | [] => p
  | r :: rest =>
    let q := (p.put (slotAddr r.seq + Config.burst) (r.bytes.drop Config.burst)).modJrn fun j =>
      { j with queue := rest, crcWritten := j.crcWritten + 1 }
    if rest.isEmpty then q else q.ask .journal .journalFirst

/-- The requester of an append that stands is told; only a till port acts on it (R123). -/
def Part.requesterTold (r : Requester) (p : Part) : Part :=
  match r with
  | .till n => p.appendStands n
  | .portEvent | .pricing | .report | .scan => p

/-- One record whose CRC burst is written is committed; the append it ends stands (R123). -/
def Part.committed (p : Part) : Part :=
  if p.jrn.crcWritten = 0 then p
  else
    let done := p.jrn.commit
    let q := p.modJrn fun j =>
      { j with crcWritten := j.crcWritten - 1, commit := j.commit + 1, ctr := { j.ctr with written := bump j.ctr.written } }
    match p.jrn.appends with
    | [] => q
    | a :: rest => if a.last = done then (q.modJrn fun j => { j with appends := rest }).requesterTold a.requester else q

/-- The length of a RELEASE payload (chapter 12). -/
def releaseLength : Nat := 6

/-- A RELEASE frame (R128); one of another length names no release and is ignored (assumption 30). One that another transmitter sends
under this station's own number is kept and judged like any other (DESIGN CHOICE, unsafe; assumption 85). -/
def Part.releaseFrame (p : Part) : Part :=
  match p.branchFrame .journal kindRelease with
  | none => p
  | some (it, b) =>
    let q := p.consume it
    if b.payload.length = releaseLength ∧ p.pres.joining ≠ .duplicate ∧
        p.trk.holderFor (fieldAt b.payload 0 2) = some it.station then q.release (fieldAt b.payload 2 4)
    else q.ignoreRelease

def execAppendCommitted (s : State) : Host.Outcome State Fault Refusal := s.run Part.committed
def execReleaseReceived (s : State) : Host.Outcome State Fault Refusal := s.run Part.releaseFrame

end Sys2Proof.Machine
end

