-- ==== Sys2Proof/Machine/Line.lean ====
section
/-! DEFINITION. The branch line interface and the four framers (chapter 01): contention, sending, collisions, turn frames,
reception, and the notices that follow. -/

namespace Sys2Proof.Machine

/-! ### notices of queued frames (R6, R7, R10) -/

/-- The sent notice to the block that queued a frame. -/
def Part.sentNotice (o : FrameOwner) (p : Part) : Part :=
  match o with
  | .presence true => p.endAnnouncing
  | .claim d => p.claimSent d
  | .call t => p.callSent t
  | .recall t => p.recallSent t
  | .presence false | .release _ | .price | .datagram => p

/-- The dropped notice after the fourth collision. -/
def Part.droppedNotice (o : FrameOwner) (p : Part) : Part :=
  match o with
  | .presence true => p.endAnnouncing
  | .claim d => p.claimDropped d
  | .call t => p.callDropped t
  | .recall t => p.recallDropped t
  | .datagram => p.countFwd fun c => { c with collision := bump c.collision }
  | .presence false | .release _ | .price => p

/-- The withdrawn notice of a frame whose withdrawal was refused (R10). -/
def Part.withdrawnNotice (o : FrameOwner) (p : Part) : Part :=
  match o with
  | .claim d => p.claimWithdrawn d
  | .recall t => p.recallWithdrawn t
  | .datagram => p.countFwd fun c => { c with collision := bump c.collision }
  | .presence _ | .call _ | .release _ | .price => p

/-! ### contention and sending (R4 to R8) -/

/-- The frame in hand leaves its queue and the transmitter rests. -/
def Part.handLeaves (c : Cls) (p : Part) : Part :=
  let before := p.staged
  ((p.dequeue c).txRest).restage .branch before

/-- The frame in hand stays queued and the transmitter returns to WAITING; one whose withdrawal was refused leaves, with its
withdrawn notice (R10). -/
def Part.handBack (c : Cls) (p : Part) : Part :=
  match p.fwd.queue c with
  | [] => p.txRest
  | q :: _ =>
    if q.withdrawn then (p.handLeaves c).withdrawnNotice q.owner
    else (p.txRest).restage .branch p.staged

/-- The turn frame in hand ends: its buffer returns and the transmitter rests (R9). -/
def Part.turnLeaves (t : TurnFrame) (p : Part) : Part :=
  ((p.giveBack t.buf).txRest).restage .branch p.staged

/-- A closing flag has been read: the turn gap opens (R3). -/
def Part.closingFlag (p : Part) : Part := p.modBranch fun b => { b with turnGap := true, gapCount := 0 }

/-- The own transmitter has a frame on the line. -/
def Tx.onLine : Tx → Bool
  | .contending _ | .sending _ | .sendingTurn => true
  | .disabled | .idle | .waiting => false

/-- A frame is on the line: the own one, or one being received. -/
def Part.lineBusy (p : Part) : Bool := p.branch.tx.onLine || p.branch.framer.rx.isSome

/-- The gap count reaches 32 (R2, R4): not while a frame is on the line, and after the turn gap has closed. -/
def Part.releaseGap (p : Part) : Part :=
  if p.lineBusy = true ∨ p.branch.turnGap = true then p
  else (p.modBranch fun b => { b with gapCount := Config.releaseGap }).offer

/-- The receiver's record of a frame whose start bit has been read; its destination has not come (R16). -/
def RxFrame.begun (inTurn : Bool) : RxFrame :=
  { front := [], frame := {}, passed := true, inTurn := inTurn, asked := false, buf := none, overrun := false }

/-- The own transmitter has stopped within a frame; the receiver reads what is on the line, from its start bit on, like any other
frame (R1, R5, R16; assumption 66). `inTurn`: the start bit was that of a turn frame. -/
def Part.readOn (inTurn : Bool) (p : Part) : Part :=
  p.modFramer .branch fun f => { f with rx := some (RxFrame.begun inTurn) }

def Part.lostContention (p : Part) : Part :=
  match p.branch.tx with
  | .contending c => ((p.modBranch fun b => { b with contentionLost := bump b.contentionLost }).readOn false).handBack c
  | .disabled | .idle | .waiting | .sending _ | .sendingTurn => p

/-- The header is won; the opening flag follows (R5). -/
def Part.wonContention (p : Part) : Part :=
  match p.branch.tx with
  | .contending c =>
    p.modBranch fun b => { b with tx := .sending c, sender := { b.sender with shift := some (openingShift []) } }
  | .disabled | .idle | .waiting | .sending _ | .sendingTurn => p

def LineCounters.countSent (c : LineCounters) : LineCounters := { c with sent := bump c.sent }
def LineCounters.countUnderrun (c : LineCounters) : LineCounters := { c with underruns := bump c.underruns }

/-- The closing flag of an own frame is read without collision (R6, R9). -/
def Part.frameSent (p : Part) : Part :=
  match p.branch.tx with
  | .sending c =>
    match p.fwd.queue c with
    | [] => p
    | q :: _ => (((p.countLine .branch LineCounters.countSent).handLeaves c).closingFlag).sentNotice q.owner
  | .sendingTurn =>
    match p.branch.turn with
    | none => p
    | some t => (((p.countLine .branch LineCounters.countSent).turnLeaves t).closingFlag).turnSent t.what
  | .disabled | .idle | .waiting | .contending _ => p

/-- The collision count of the head of a class queue rises (R7). -/
def Part.raiseCollisions (c : Cls) (p : Part) : Part :=
  p.modFwd fun f => f.setQueue c
    (match f.queue c with
     | [] => []
     | q :: rest => { q with collisions := q.collisions + 1 } :: rest)

/-- A queued frame has collided (R7, R10). -/
def Part.collided (c : Cls) (q : QFrame) (p : Part) : Part :=
  if q.withdrawn then p.handBack c
  else if q.collisions < Config.maxCollisions then (p.raiseCollisions c).handBack c
  else
    ((p.modBranch fun b => { b with collisionDrops := bump b.collisionDrops }).handLeaves c).droppedNotice q.owner

def Part.collision (p : Part) : Part :=
  let counted := p.modBranch fun b => { b with collisions := bump b.collisions }
  match p.branch.tx with
  | .sending c =>
    match p.fwd.queue c with
    | [] => p
    | q :: _ => (counted.readOn false).collided c q
  | .sendingTurn =>
    match p.branch.turn with
    | none => p
    | some t => ((counted.readOn true).turnLeaves t).turnNotSent t.what
  | .disabled | .idle | .waiting | .contending _ => p

def Part.underrun (p : Part) : Part :=
  let counted := p.countLine .branch LineCounters.countUnderrun
  match p.branch.tx with
  | .sending c => (counted.readOn false).handBack c
  | .sendingTurn =>
    match p.branch.turn with
    | none => p
    | some t => ((counted.readOn true).turnLeaves t).turnNotSent t.what
  | .disabled | .idle | .waiting | .contending _ => p

/-- 16 bt of recessive line after a closing flag (R3). -/
def Part.turnExpiry (p : Part) : Part :=
  if p.branch.turnGap then (p.modBranch fun b => { b with turnGap := false, gapCount := Config.turnGap }).turnExpired else p

/-! ### reception (R13 to R17) -/

/-- The line's framer receives: the branch framer outside internal loop, a link framer where it is fitted (R15, R137, R154,
R165). -/
def Part.receives (p : Part) (l : Line) : Bool :=
  match l with
  | .branch => !p.branch.loop
  | .trunk => p.trunkFitted
  | .label => p.labelFitted
  | .guest => p.guestFitted

/-- A frame can begin on this line: none is being received, and on the branch line the receiver accepts a start bit and the
own transmitter has no frame on the line (R13, R16). -/
def Part.canBegin (p : Part) (l : Line) : Bool :=
  (p.framer l).rx.isNone &&
    (match l with
     | .branch => p.branch.rxReady && !p.branch.tx.onLine
     | .trunk | .label | .guest => true)

/-- The destination passes the filter of R16. -/
def Part.destPasses (p : Part) (dest : Byte) : Bool :=
  decide (dest.toNat = p.ownStation.val) || decide (dest.toNat = allStations)

/-- The user a received frame's buffer is asked for (R67, R68). -/
def rxUser (l : Line) (cls : Cls) (kind : Byte) : User :=
  match l with
  | .branch => Cls.user cls
  | .trunk => if kind.toNat = trunkPacketKind then .guest else .other
  | .label => .other
  | .guest => .guest

/-- A PRESENCE without a chain takes no buffer (R16, R17). -/
def bufferless (l : Line) (kind : Byte) : Bool := decide (l = .branch) && decide (kind.toNat = kindPresence)

/-- Where the kind byte of a body stands. -/
def kindAt : Line → Nat
  | .branch => 1
  | .trunk => 0
  | .label => 0
  | .guest => 0

/-- A start bit was read: the turn gap closes and the gap count returns to 0 (R2, R3). -/
def Part.startBit (l : Line) (p : Part) : Part :=
  match l with
  | .branch => p.modBranch fun b => { b with turnGap := false, gapCount := 0 }
  | .trunk | .label | .guest => p

/-- The receiver holds a frame from here on (R13). -/
def Part.beginRx (l : Line) (p : Part) : Part :=
  let rx := match l with
    | .branch => RxFrame.begun p.branch.turnGap
    | .trunk | .label | .guest => RxFrame.begun false
  (p.startBit l).modFramer l fun f => { f with rx := some rx }

/-- The buffer of a frame that is not kept leaves the receive queue and returns (R17, R62). -/
def Part.dropFilling (b : Option Buf) (p : Part) : Part :=
  match b with
  | none => p
  | some x => (p.modFwd fun f => { f with filling := f.filling.filter fun it => decide (it.buf.num ≠ x.num) }).giveBack x

/-- The frame of a buffer is whole: WAITING, and dispatched where the engine can (R62). -/
def Part.bufferWhole (b : Buf) (p : Part) : Part :=
  (p.modFwd fun f =>
    { f with
      filling := f.filling.filter fun it => decide (it.buf.num ≠ b.num)
      waiting := f.waiting ++ (f.filling.filter fun it => decide (it.buf.num = b.num)).map fun it => { it with buf := b } }).dispatch

/-! #### the receive FIFO (R14) -/

/-- Bytes a receive FIFO holds. -/
def fifoBytes (f : List Chunk) : Nat := (f.map fun c => c.bytes.length).sum

/-- A byte joins the FIFO, behind those of its frame. -/
def pushByte (b : Byte) : List Chunk → List Chunk
  | [] => [⟨none, 0, [b], false⟩]
  | [c] => if c.whole then [c, ⟨none, 0, [b], false⟩] else [{ c with bytes := c.bytes ++ [b] }]
  | c :: rest => c :: pushByte b rest

/-- The bytes of the frame still arriving are dropped. -/
def dropOpen (f : List Chunk) : List Chunk := f.filter fun c => c.whole

/-- The frame still arriving is given its buffer. -/
def openTo (b : Buf) (f : List Chunk) : List Chunk := f.map fun c => if c.whole then c else { c with buf := some b }

/-- The frame still arriving is complete: what is past its `b.len` bytes, its CRC, goes no further (R17). -/
def closeOpen (b : Buf) (f : List Chunk) : List Chunk :=
  f.map fun c => if c.whole then c else { buf := some b, at_ := c.at_, bytes := c.bytes.take (b.len - c.at_), whole := true }

/-- The CRC of a body (R13). -/
def crcLength : Nat := 2

/-- What is left of the aligned block of 32 bytes that a chunk has come to. -/
def Chunk.room (c : Chunk) : Nat := Config.burst - c.at_ % Config.burst

/-- A burst can be written: the rest of a complete frame, or a whole block of a frame still arriving, whose last two bytes may
yet be its CRC (assumption 6). -/
def Chunk.ready (c : Chunk) : Bool := c.buf.isSome && (c.whole || decide (c.room + crcLength ≤ c.bytes.length))

/-- Complete frames at the head of a receive FIFO that have all their bytes in their buffers. -/
def Part.drainEmpty (l : Line) : Nat → Part → Part
  | 0, p => p
  | n + 1, p =>
    match (p.framer l).fifo with
    | { buf := some b, bytes := [], whole := true, .. } :: rest =>
      Part.drainEmpty l n ((p.modFramer l fun f => { f with fifo := rest }).bufferWhole b)
    | _ => p

/-- The next burst of a receive FIFO is asked where it can be written and none is asked (R14, R188). -/
def Part.kickWrite (l : Line) (p : Part) : Part :=
  match (p.framer l).fifo with
  | [] => p
  | c :: _ =>
    if c.ready = true ∧ (p.framer l).draining = false then
      (p.modFramer l fun f => { f with draining := true }).ask (Line.receiver l) (.rxWrite l)
    else p

/-- What a receive FIFO goes on to. -/
def Part.drain (l : Line) (p : Part) : Part := (p.drainEmpty l (p.framer l).fifo.length).kickWrite l

/-- A burst of the receive FIFO reaches its buffer: up to 32 bytes within one aligned block (R14, R187). One asked for bytes that
have since been dropped brings nothing. -/
def Part.rxWriteBurst (l : Line) (p : Part) : Part :=
  let q := p.modFramer l fun f => { f with draining := false }
  match (q.framer l).fifo with
  | { buf := some b, at_ := a, bytes := bs, whole := w } :: rest =>
    let c : Chunk := ⟨some b, a, bs, w⟩
    if c.ready then
      let n := min bs.length c.room
      ((q.put (bufAddr b.num + a) (bs.take n)).modFramer l fun f =>
        { f with fifo := ⟨some b, a + n, bs.drop n, w⟩ :: rest }).drain l
    else q
  | _ => q

/-! #### the bytes of a frame (R13, R14, R16, R17) -/

/-- A frame is LONG (R13, R199). -/
def frameLong (l : Line) (body : Bytes) : Bool :=
  match l with
  | .branch =>
    let b := parseBody (body.take (body.length - crcLength))
    if b.kind = kindPresence then decide (Config.maxPresenceBody < body.length)
    else decide (Config.maxPayload < b.payload.length)
  | .trunk | .label | .guest => decide (Config.maxLinkBody < body.length)

/-- The kind byte of a frame, 0 before it has come. -/
def RxFrame.kind (r : RxFrame) (l : Line) : Byte := byteAt r.frame.got (kindAt l)

/-- Bytes of the frame are stored: it may be kept, none of them was lost, and a buffer it needs was not refused. -/
def RxFrame.storing (r : RxFrame) (l : Line) : Bool :=
  r.passed && !r.overrun && (!r.asked || r.buf.isSome || bufferless l (r.kind l))

def Part.setRx (l : Line) (r : RxFrame) (p : Part) : Part := p.modFramer l fun f => { f with rx := some r }

/-- The kind byte has come: a buffer is asked where its kind needs one, and joins the receive queue in FILLING (R17, R62). A
frame whose buffer is refused is stored no further. -/
def Part.askRxBuffer (l : Line) (r : RxFrame) (p : Part) : Part :=
  if bufferless l (r.kind l) then p.setRx l { r with asked := true }
  else
    match p.takeBuffer (rxUser l (frontClass r.front) (r.kind l)) with
    | (some b, q) =>
      ((q.modFwd fun f =>
        { f with
          filling := f.filling ++
            [({ buf := b, line := l, cls := frontClass r.front, station := frontStation r.front, stale := false } : RxItem)] }).modFramer l
          fun f => { f with fifo := openTo b f.fifo }).setRx l { r with asked := true, buf := some b }
    | (none, q) => (q.modFramer l fun f => { f with fifo := dropOpen f.fifo }).setRx l { r with asked := true }

/-- A byte is lost to a full receive FIFO: its frame is marked, and what the FIFO holds of it dropped (R14). -/
def Part.overrun (l : Line) (r : RxFrame) (p : Part) : Part :=
  (p.modFramer l fun f => { f with fifo := dropOpen f.fifo }).setRx l { r with overrun := true }

/-- Byte `i` of the body of the frame being received; the branch filter is applied at its first, the destination (R16, R48). A body
can outgrow its buffer without being LONG, where its address chain does; its bytes past the buffer's last are not stored (DESIGN
CHOICE, unsafe; assumption 54). -/
def Part.bodyByte (l : Line) (i : Nat) (b : Byte) (p : Part) : Part :=
  match (p.framer l).rx with
  | none => p
  | some r =>
    if r.storing l = false then p
    else if l = .branch ∧ i = 0 ∧ (p.pres.joining.filterKeeps && p.destPasses b) = false then p.setRx l { r with passed := false }
    else if frameLong l (r.frame.got.take (i + 1)) = true ∨ Config.bufferBytes ≤ i then p
    else if Config.fifoSize ≤ fifoBytes (p.framer l).fifo then p.overrun l r
    else
      let q := p.modFramer l fun f => { f with fifo := pushByte b f.fifo }
      if i = kindAt l then q.askRxBuffer l r else q

/-- Bytes of the body in order, the first of them byte `i`. -/
def Part.bodyBytes (l : Line) : Nat → Bytes → Part → Part
  | _, [], p => p
  | i, b :: bs, p => Part.bodyBytes l (i + 1) bs (p.bodyByte l i b)

/-- Consecutive recessive bit times at the end of these bits (R2). -/
def gapAfter (g : Nat) (bits : List Bool) : Nat := bits.foldl (fun g b => if b then min (Config.releaseGap - 1) (g + 1) else 0) g

/-- Bits of the branch line are read. -/
def Part.countGap (l : Line) (bits : List Bool) (p : Part) : Part :=
  match l with
  | .branch => p.modBranch fun b => { b with gapCount := gapAfter b.gapCount bits }
  | .trunk | .label | .guest => p

/-- Bits of the frame being received are read (R1, R5, R13, R14). -/
def Part.readBits (l : Line) (bits : List Bool) (p : Part) : Part :=
  match (p.framer l).rx with
  | none => p
  | some r =>
    let n := frontOf l - r.front.length
    let d := r.frame.feeds (openingWithin l) (bits.drop n)
    let q := (p.countGap l bits).setRx l { r with front := r.front ++ bits.take n, frame := d }
    (q.bodyBytes l r.frame.got.length (d.got.drop r.frame.got.length)).drain l

/-- Bits open a frame: on the branch line the first of them is dominant (R1). -/
def opensFrame (l : Line) (bits : List Bool) : Bool :=
  match l with
  | .branch => decide (bits.head? = some startBit)
  | .trunk | .label | .guest => true

/-- Bits of a frame, from its start on where the receiver has not begun it. -/
def Part.readFrame (l : Line) (bits : List Bool) (p : Part) : Part :=
  (if p.canBegin l = true ∧ opensFrame l bits = true then p.beginRx l else p).readBits l bits

/-- The start bit alone. -/
def startAlone : List Bool := [startBit]

/-- Another station's start bit (R3, R4): a station that waits with a frame joins the contention it opens, unless it falls in an
open turn gap, where it is a turn frame's; any other reads the frame. -/
def Part.foreignStart (p : Part) : Part :=
  match p.branch.tx, p.fwd.bestClass with
  | .waiting, some c => if p.branch.turnGap then p.readFrame .branch startAlone else p.contend [] c
  | _, _ => p.readFrame .branch startAlone

/-- How far the frame being received has come. -/
def Part.reached (p : Part) (l : Line) : Option Reached := (p.framer l).rx.map (·.frame.reached)

/-- The frame being received is still arriving. -/
def Reached.arriving : Reached → Bool
  | .hunting _ | .body => true
  | .closed | .aborted => false

/-- What has been read so far is no end of the frame; bits that end it are reported as FRAME_RECEIVED or FRAME_ABORT. -/
def Part.stillArriving (l : Line) (before p : Part) : Part :=
  match p.reached l with
  | some x => if x.arriving then p else before
  | none => before

/-- KIND_BYTE_RECEIVED: bits of a frame that is still arriving (assumption 66). -/
def Part.kindByte (l : Line) (bits : List Bool) (p : Part) : Part :=
  if p.receives l = false then p
  else if l = .branch ∧ p.canBegin .branch = true ∧ bits = startAlone then p.foreignStart
  else (p.readFrame l bits).stillArriving l p

/-! #### the end of a frame (R13, R16, R17) -/

/-- The shortest body of a line (R13). -/
def shortestBody : Line → Nat
  | .branch => 5
  | .trunk => 3
  | .label => 3
  | .guest => 3

/-- The first cause of R13 that applies to a frame closed by its flag, as its counter; `odd` body bits are left over. -/
def discardCause (l : Line) (overrun : Bool) (body : Bytes) (odd : Nat) : Option (LineCounters → LineCounters) :=
  if overrun then some fun c => { c with overrun := bump c.overrun }
  else if frameLong l body then some fun c => { c with long := bump c.long }
  else if odd ≠ 0 then some fun c => { c with residue := bump c.residue }
  else if body.length < shortestBody l ∨ crcGood body = false then some fun c => { c with crc := bump c.crc }
  else none

/-- A good frame is lost for want of a buffer (R17, R18, R164). -/
def Part.noBuffer (l : Line) (p : Part) : Part :=
  match l with
  | .guest => p.countGst fun c => { c with dropsNoBuffer := bump c.dropsNoBuffer }
  | .branch | .trunk | .label => p.countLine l fun c => { c with noBuffer := bump c.noBuffer }

def LineCounters.countKept (c : LineCounters) : LineCounters := { c with kept := bump c.kept }

/-- A frame not kept that began in an open turn gap (R16). -/
def Part.lostTurn (inTurn : Bool) (p : Part) : Part := if inTurn then p.turnLost else p

/-- Nothing of a frame stays in its line's framer or in a buffer. -/
def Part.dropFrame (l : Line) (r : RxFrame) (p : Part) : Part :=
  ((p.modFramer l fun f => { f with fifo := dropOpen f.fifo }).dropFilling r.buf).drain l

/-- A good frame that is kept goes on to its buffer: its length is recorded with it, and the CRC is dropped (R17). -/
def Part.keepFrame (l : Line) (b : Buf) (body : Bytes) (p : Part) : Part :=
  let b : Buf := { b with len := min Config.bufferBytes (body.length - crcLength) }
  (p.modFramer l fun f => { f with fifo := closeOpen b f.fifo }).drain l

/-- A frame with this body may be the station's: on the branch line as the filter found at its destination, or where no
destination has come, as the filter stands at its end (R16, R48). -/
def Part.mayKeep (l : Line) (body : Bytes) (r : RxFrame) (p : Part) : Bool :=
  if l = .branch ∧ body = [] then p.pres.joining.filterKeeps else r.passed

/-- A frame closed by its flag, its record taken out of the receiver (R13, R16, R17). -/
def Part.endFrame (l : Line) (r : RxFrame) (p : Part) : Part :=
  let body := r.frame.body
  if p.mayKeep l body r = false then (p.dropFrame l r).lostTurn r.inTurn
  else
    match discardCause l r.overrun body r.frame.odd with
    | some f => ((p.dropFrame l r).countLine l f).lostTurn r.inTurn
    | none =>
      if bufferless l (r.kind l) then
        ((p.dropFrame l r).countLine l LineCounters.countKept).modPres fun x =>
          { x with inbox := x.inbox ++ [⟨frontStation r.front, body⟩] }
      else
        match r.buf with
        | none => (p.noBuffer l).lostTurn r.inTurn
        | some b => (p.countLine l LineCounters.countKept).keepFrame l b body

/-- The closing flag of a received frame: on the branch line the turn gap opens (R3). -/
def Part.flagRead (l : Line) (p : Part) : Part :=
  match l with
  | .branch => p.closingFlag
  | .trunk | .label | .guest => p

/-- The receiver is done with a frame. -/
def Part.clearRx (l : Line) (p : Part) : Part := p.modFramer l fun f => { f with rx := none }

/-- FRAME_RECEIVED: the bits end in a closing flag. -/
def Part.received (l : Line) (bits : List Bool) (p : Part) : Part :=
  if p.receives l then
    let q := p.readFrame l bits
    match (q.framer l).rx with
    | some r => if r.frame.reached = .closed then ((q.clearRx l).flagRead l).endFrame l r else p
    | none => p
  else p

/-- The record of an aborted frame, taken out of the receiver (R13): counted where its destination is not another's. -/
def Part.abortFrame (l : Line) (r : RxFrame) (p : Part) : Part :=
  let q := p.dropFrame l r
  let q := if p.mayKeep l r.frame.got r then q.countLine l fun c => { c with aborted := bump c.aborted } else q
  match l with
  | .branch => (q.modBranch fun b => { b with rxReady := false }).lostTurn r.inTurn
  | .trunk | .label | .guest => q

/-- FRAME_ABORT: the bits end in seven 1 bits, or are no opening flag. -/
def Part.aborted (l : Line) (bits : List Bool) (p : Part) : Part :=
  if p.receives l then
    let q := p.readFrame l bits
    match (q.framer l).rx with
    | some r => if r.frame.reached = .aborted then (q.clearRx l).abortFrame l r else p
    | none => p
  else p

/-- RECEIVE_FIFO_OVERRUN: a byte of the frame being stored completes while the FIFO holds 64 bytes (R14). -/
def Part.fifoOverrun (l : Line) (p : Part) : Part :=
  match (p.framer l).rx with
  | none => p
  | some r => if r.storing l = true ∧ Config.fifoSize ≤ fifoBytes (p.framer l).fifo then p.overrun l r else p

/-- Seven consecutive recessive bits (R13): none are read within a frame. -/
def Part.sevenRecessive (p : Part) : Part :=
  if p.lineBusy then p else p.modBranch fun b => { b with rxReady := true, gapCount := max 7 b.gapCount }

/-! ### the links (R12, R64, R65) -/

def dropBegunT : List TFrame → List TFrame := List.filter fun x => !x.begun

/-- The trunk framer completes its frame (R64). -/
def Part.trunkFrameSent (p : Part) : Part :=
  match (p.fwd.exchange ++ p.fwd.packets).find? (·.begun) with
  | none => p
  | some x =>
    let before := p.txBuf .trunk
    let q := p.modFwd fun f => { f with exchange := dropBegunT f.exchange, packets := dropBegunT f.packets }
    (((q.countLine .trunk LineCounters.countSent).restage .trunk before).trunkSent x).kickTrunk

/-- The label framer completes its frame (R65, R139). -/
def Part.labelFrameSent (p : Part) : Part :=
  match p.fwd.labels with
  | x :: rest =>
    if x.begun then
      (((p.modLabelQueue fun _ => rest).giveBack x.buf).countLine .label LineCounters.countSent).orderSent x.tag
    else p
  | [] => p

/-- The guest framer completes its frame (R65). -/
def Part.radioFrameSent (p : Part) : Part :=
  match p.fwd.radio with
  | x :: rest =>
    if x.begun then ((p.modRadio fun _ => rest).giveBack x.buf).countLine .guest LineCounters.countSent else p
  | [] => p

def Part.linkSent (k : Link) (p : Part) : Part :=
  match k with
  | .trunk => p.trunkFrameSent
  | .label => p.labelFrameSent
  | .guest => p.radioFrameSent

def Link.line : Link → Line
  | .trunk => .trunk | .label => .label | .guest => .guest

/-- The framer aborts the frame it sends, and sends it again at once from its first byte (R12). -/
def Part.sendAgain (l : Line) (p : Part) : Part :=
  (p.modSender l fun s => { s.fresh with shift := some (openingShift (abortBits l)) }).kickRead l

/-- No trunk frame is begun any more; the abort is driven to its end (R12, R64). -/
def Part.trunkUnbegun (p : Part) : Part :=
  (p.modFwd fun f =>
    { f with exchange := f.exchange.map fun x => { x with begun := false }
             packets := f.packets.map fun x => { x with begun := false } }).modSender .trunk fun s =>
      { s.fresh with shift := some { bits := abortBits .trunk, stage := .closing } }

/-- A frame of a link underruns: counted, and sent again at once (R12), but by a trunk framer whose line is not UP, which begins
no frame (R64, R165). -/
def Part.linkUnderrun (k : Link) (p : Part) : Part :=
  if (p.txBuf (Link.line k)).isSome then
    let q := p.countLine (Link.line k) LineCounters.countUnderrun
    if k = .trunk ∧ p.trk.line ≠ .up then q.trunkUnbegun else q.sendAgain (Link.line k)
  else p

/-! ### bit times (R2, R6, R12) -/

/-- The gap count a recessive bit time can bring it to: the 7th after an abort, the 16th after a closing flag and the 32nd are
reported as events of their own. -/
def Branch.gapMost (b : Branch) : Nat :=
  if b.rxReady = false then 6 else if b.turnGap then Config.turnGap - 1 else Config.releaseGap - 1

/-- The gap count after a bit time in which only the own transmitter can drive the line (R2). -/
def Branch.countBit (b : Branch) : Branch :=
  if b.framer.rx.isSome = true ∨ b.loop = true then b
  else if b.sender.level = false then { b with gapCount := 0 }
  else { b with gapCount := max b.gapCount (min b.gapMost (b.gapCount + 1)) }

/-- The trunk framer has no frame: on a fitted station it fills the line with flags, whether the line is UP or DOWN (R12, R165). A
station is fitted once its configuration has passed and says so: before, in CONFIG FAULT and without a trunk the framer holds the
line at a steady 1 (R38, R165; before the block passes DEDUCED, safe; assumption 65). -/
def Part.fillTrunk (p : Part) : Part :=
  if (p.txBuf .trunk).isNone = true ∧ (((p.sender .trunk).shift.map (·.bits)).getD []).isEmpty = true then
    p.modSender .trunk fun s => { s with shift := if p.trunkFitted then some fillShift else none }
  else p

/-- A transmitter drives one bit, and its staging area is filled on (R6, R12). -/
def Part.tickSender (l : Line) (p : Part) : Part :=
  (p.modSender l fun s => s.tick (((p.txBuf l).map (·.len)).getD 0)).kickRead l

/-- One bit time of every line in which nothing is reported (assumption 65). -/
def Part.bitTime (p : Part) : Part :=
  let q := (p.tickSender .branch).modBranch Branch.countBit
  ((q.fillTrunk.tickSender .trunk).tickSender .label).tickSender .guest

/-- The part idles for one bit time: nothing is waiting in the queue of commands. -/
def State.idle (s : State) : State :=
  if s.supply.takesEvents then { s with part := s.part.bitTime }.settle else s

/-! ### the commands -/

def execReleaseGap (s : State) : Host.Outcome State Fault Refusal := s.run Part.releaseGap
def execContentionLost (s : State) : Host.Outcome State Fault Refusal := s.run Part.lostContention
def execContentionWon (s : State) : Host.Outcome State Fault Refusal := s.run Part.wonContention
def execFrameSent (s : State) : Host.Outcome State Fault Refusal := s.run Part.frameSent
def execCollision (s : State) : Host.Outcome State Fault Refusal := s.run Part.collision
def execTransmitUnderrun (s : State) : Host.Outcome State Fault Refusal := s.run Part.underrun
def execTurnExpiry (s : State) : Host.Outcome State Fault Refusal := s.run Part.turnExpiry
def execFrameAbort (line : Line) (bits : List Bool) (s : State) : Host.Outcome State Fault Refusal :=
  s.run (Part.aborted line bits)
def execFrameReceived (line : Line) (start header opening body closing : List Bool) (s : State) :
    Host.Outcome State Fault Refusal :=
  s.run (Part.received line (start ++ header ++ opening ++ body ++ closing))
def execReceiveFifoOverrun (line : Line) (s : State) : Host.Outcome State Fault Refusal := s.run (Part.fifoOverrun line)
def execKindByteReceived (line : Line) (start header opening body : List Bool) (s : State) :
    Host.Outcome State Fault Refusal :=
  s.run (Part.kindByte line (start ++ header ++ opening ++ body))
def execLinkFrameSent (link : Link) (s : State) : Host.Outcome State Fault Refusal := s.run (Part.linkSent link)
def execLinkUnderrun (link : Link) (s : State) : Host.Outcome State Fault Refusal := s.run (Part.linkUnderrun link)
def execSevenRecessiveBitsRead (s : State) : Host.Outcome State Fault Refusal := s.run Part.sevenRecessive

end Sys2Proof.Machine
end

