-- ==== Sys2Proof/Machine/Supply.lean ====
section
/-! DEFINITION. External memory, supply and reset (chapter 11): what each burst does when it finishes, refresh, SUPPLY LOW,
the return of the supply and the reset pin. -/

namespace Sys2Proof.Machine

/-! ### bursts (R188, R189) -/

/-- The first burst of a slot of the warm-start scan is read; the second is asked (R130). -/
def Part.scanFirst (p : Part) : Part := if p.jrn.scan.isSome then p.ask .journal .scanSecond else p

/-- One burst of a store is written (R188; assumption 53). -/
def Part.storeBurst (parts : List (Nat × Bytes)) (p : Part) : Part :=
  match parts with
  | [] => p
  | x :: _ => p.modWritten fun m => Mem.writeBytes m x.1 x.2

/-- The end of the aligned block an address lies in. -/
def blockEnd (a : Nat) : Nat := (a / Config.burst + 1) * Config.burst

/-- One block is made 0 (R41, R188). -/
def Part.wipeBurst (lo hi : Nat) (p : Part) : Part := p.modWritten fun m => Mem.wipe m lo (min hi (blockEnd lo))

/-- What is left of several bursts once the first has finished. -/
def Tok.rest : Tok → List Tok
  | .store (_ :: x :: parts) => [.store (x :: parts)]
  | .wipe lo hi => if blockEnd lo < hi then [.wipe (blockEnd lo) hi] else []
  | .load (n + 2) => [.load (n + 1)]
  | _ => []

/-- What a finished burst does. The data of one that reads were taken in the step that asked it (assumption 5). -/
def Part.burstEffect (t : Tok) (p : Part) : Part :=
  match t with
  | .store parts => p.storeBurst parts
  | .wipe lo hi => p.wipeBurst lo hi
  | .load _ => p
  | .lookup n => p.lookupBurst n
  | .sweepStep => p.sweepStep
  | .rxWrite l => p.rxWriteBurst l
  | .txRead l => p.txReadDone l
  | .journalFirst => p.journalFirst
  | .journalSecond => p.journalSecond
  | .scanFirst => p.scanFirst
  | .scanSecond => p.scanSlot
  | .headerRead => p.headerReadBurst
  | .headerWrite => p.headerWriteBurst
  | .mergeStep => p.mergeStep
  | .guestClear => p.clearGuestBurst

/-- A finished burst of user `u` gives it its data or its write notice, and the user asks its next one (R188, R189). -/
def Part.finishBurst (u : BurstUser) (t : Tok) (p : Part) : Part := (p.burstEffect t).released u t.rest

/-- What a finished grant does to the part; a refresh does nothing to it. -/
def Grant.finish (g : Grant) (p : Part) : Part :=
  match g with
  | .burst u t => p.finishBurst u t
  | .refresh => p

/-- The port idle again. -/
def State.freePort (s : State) : State :=
  match s.arb.port with
  | none => s
  | some g => { s with part := g.finish s.part, arb := { s.arb with port := none } }

/-- After a finished burst: self-refresh where SUPPLY LOW waited for it (R194), else the next grant (R189). -/
def State.afterBurst (s : State) : State :=
  if s.supply.stopping then { s with supply := { s.supply with watch := .held, stopping := false } } else s.settle

def State.burstDone (s : State) : State := if s.arb.port.isSome then s.freePort.afterBurst else s

/-! ### refresh (R191) -/

/-- The memory controller refreshes: RUNNING, and SUPPLY LOW not taken (R191, R194). -/
def Supply.refreshes (s : Supply) : Bool := decide (s.watch = .running) && !s.stopping

def State.refreshDue (s : State) : State :=
  if s.supply.refreshes then { s with arb := { s.arb with postponed := s.arb.postponed + 1 } }.settle else s

/-! ### the stop of the framers (R11, R194) -/

/-- The frame being received on a line is discarded without being counted. -/
def Part.stopReceiver (l : Line) (p : Part) : Part :=
  (p.dropFilling ((p.framer l).rx.bind (·.buf))).modFramer l fun f => { f with rx := none, fifo := dropOpen f.fifo }

/-- The frame being sent on the branch line is aborted, and a turn frame's buffer returns. -/
def Part.stopTransmitter (p : Part) : Part :=
  let q := match p.branch.turn with
    | some t => p.giveBack t.buf
    | none => p
  q.modBranch fun b => { b with tx := .disabled, turn := none, sender := {}, turnGap := false, loop := false }

/-- The links stop driving: no frame is begun any more. -/
def Part.stopLinks (p : Part) : Part :=
  (((p.modFwd fun f =>
    { f with exchange := f.exchange.map fun x => { x with begun := false }
             packets := f.packets.map fun x => { x with begun := false }
             radio := f.radio.map fun x => { x with begun := false }
             labels := f.labels.map fun x => { x with begun := false } }).modSender .trunk fun _ => {}).modSender .label
    fun _ => {}).modSender .guest fun _ => {}

/-- A reply being sent is cut off on every till port. -/
def Part.cutReplies (p : Part) : Part :=
  p.modTill fun t => { t with ports := t.ports.map fun x => { x with out := none, outBusy := false } }

/-- Step 2 of R194. -/
def Part.stopFramers (p : Part) : Part :=
  ((((p.stopTransmitter.stopReceiver .branch).stopReceiver .trunk).stopReceiver .label).stopReceiver .guest).stopLinks.cutReplies

/-! ### supply and reset (R193 to R196) -/

/-- The supply-sense input has stood below the threshold in use, `Part.supplyThreshold`, for 20 µs (R193): SUPPLY LOW is taken
while RUNNING (R194); in HELD and WAITING it only starts the 100 ms again (R195). -/
def State.supplyLow (s : State) : State :=
  if s.supply.refreshes then
    { s with
      part := s.part.stopFramers
      supply := { s.supply with framersStopped := true, stopping := s.arb.port.isSome,
                                watch := if s.arb.port.isSome then .running else .held } }
  else s

/-- START: every block at its start values, the DRAM as finished bursts have left it, no burst pending, no requester passed over
(R39, R190). -/
def State.start (s : State) : State :=
  { s with
    part := Part.started s.part.written
    arb := { s.arb with passed := {} }
    supply := { s.supply with framersStopped := false, pin := false } }

/-- The refresh counters when the supply has been good for 100 ms (R191, R195). -/
def Arb.resumed (a : Arb) (w : Watch) : Arb :=
  { port := none, passed := {}, postponed := 0,
    row := match w with
      | .held => a.row
      | .waiting => 0
      | .running => a.row }

/-- The supply has been good for 100 ms (R195); a pin still asserted holds the start back (R196). -/
def State.supplyGood (s : State) : State :=
  if s.supply.watch = .running then s
  else
    let t := { s with arb := s.arb.resumed s.supply.watch, supply := { s.supply with watch := .running, stopping := false } }
    if s.supply.pin then t else t.start.settle

/-- The reset pin is asserted (R196); in HELD and WAITING it does nothing until the supply is good. -/
def State.resetAssert (s : State) : State :=
  if s.supply.pin then s
  else if s.supply.refreshes then
    { s with part := s.part.stopFramers, supply := { s.supply with pin := true, framersStopped := true } }
  else { s with supply := { s.supply with pin := true } }

/-- A burst of a block still in hand is finished (R196); a refresh goes on. -/
def State.finishInHand (s : State) : State :=
  match s.arb.port with
  | some (.burst _ _) => s.freePort
  | some .refresh => s
  | none => s

/-- The reset pin is released (R196). -/
def State.resetRelease (s : State) : State :=
  if s.supply.pin then
    if s.supply.refreshes then s.finishInHand.start.settle else { s with supply := { s.supply with pin := false } }
  else s

/-! ### the commands -/

def execDramBurstDone (s : State) : Host.Outcome State Fault Refusal := .next s.burstDone
def execRefreshDue (s : State) : Host.Outcome State Fault Refusal := .next s.refreshDue
def execSupplyLow (s : State) : Host.Outcome State Fault Refusal := .next s.supplyLow
def execSupplyGood (s : State) : Host.Outcome State Fault Refusal := .next s.supplyGood
def execResetAssert (s : State) : Host.Outcome State Fault Refusal := .next s.resetAssert
def execResetRelease (s : State) : Host.Outcome State Fault Refusal := .next s.resetRelease

end Sys2Proof.Machine
end

