-- ==== Sys2Proof/Machine/Dispatch.lean ====
section
/-! DEFINITION. `exec`: one arm for each command, each a direct call of its meaning. -/

namespace Sys2Proof.Machine

def exec (i : Instr) (s : State) : Host.Outcome State Fault Refusal :=
  match i with
  | .releaseGap => Sys2Proof.Machine.execReleaseGap s
  | .contentionLost => Sys2Proof.Machine.execContentionLost s
  | .contentionWon => Sys2Proof.Machine.execContentionWon s
  | .frameSent => Sys2Proof.Machine.execFrameSent s
  | .collision => Sys2Proof.Machine.execCollision s
  | .transmitUnderrun => Sys2Proof.Machine.execTransmitUnderrun s
  | .turnExpiry => Sys2Proof.Machine.execTurnExpiry s
  | .frameAbort line bits => Sys2Proof.Machine.execFrameAbort line bits s
  | .frameReceived line start header opening body closing => Sys2Proof.Machine.execFrameReceived line start header opening body closing s
  | .receiveFifoOverrun line => Sys2Proof.Machine.execReceiveFifoOverrun line s
  | .kindByteReceived line start header opening body => Sys2Proof.Machine.execKindByteReceived line start header opening body s
  | .loopTestResult front frame => Sys2Proof.Machine.execLoopTestResult front frame s
  | .loopTestTimeout => Sys2Proof.Machine.execLoopTestTimeout s
  | .linkFrameSent link => Sys2Proof.Machine.execLinkFrameSent link s
  | .linkUnderrun link => Sys2Proof.Machine.execLinkUnderrun link s
  | .unknownKind => Sys2Proof.Machine.execUnknownKind s
  | .callReceived => Sys2Proof.Machine.execCallReceived s
  | .answerReceived => Sys2Proof.Machine.execAnswerReceived s
  | .recallAnswerReceived => Sys2Proof.Machine.execRecallAnswerReceived s
  | .dataReceived => Sys2Proof.Machine.execDataReceived s
  | .receiptReceived => Sys2Proof.Machine.execReceiptReceived s
  | .endReceived => Sys2Proof.Machine.execEndReceived s
  | .recallReceived => Sys2Proof.Machine.execRecallReceived s
  | .recallTimerExpiry callTag => Sys2Proof.Machine.execRecallTimerExpiry callTag s
  | .deferredLifetimeExpiry recallTag => Sys2Proof.Machine.execDeferredLifetimeExpiry recallTag s
  | .deferredRecallRetry recallTag => Sys2Proof.Machine.execDeferredRecallRetry recallTag s
  | .supplyGood => Sys2Proof.Machine.execSupplyGood s
  | .configReadDone block => Sys2Proof.Machine.execConfigReadDone block s
  | .headerReadDone => Sys2Proof.Machine.execHeaderReadDone s
  | .journalScanStop => Sys2Proof.Machine.execJournalScanStop s
  | .journalScanComplete => Sys2Proof.Machine.execJournalScanComplete s
  | .listenTimerExpiry => Sys2Proof.Machine.execListenTimerExpiry s
  | .presenceTimerTick => Sys2Proof.Machine.execPresenceTimerTick s
  | .presenceReceived => Sys2Proof.Machine.execPresenceReceived s
  | .peerSilenceExpiry station => Sys2Proof.Machine.execPeerSilenceExpiry station s
  | .clockTick => Sys2Proof.Machine.execClockTick s
  | .datagramReceived => Sys2Proof.Machine.execDatagramReceived s
  | .packetReceived => Sys2Proof.Machine.execPacketReceived s
  | .priceHeadReceived => Sys2Proof.Machine.execPriceHeadReceived s
  | .pricePartReceived => Sys2Proof.Machine.execPricePartReceived s
  | .priceEndReceived => Sys2Proof.Machine.execPriceEndReceived s
  | .receivePauseExpiry => Sys2Proof.Machine.execReceivePauseExpiry s
  | .recountPassDone => Sys2Proof.Machine.execRecountPassDone s
  | .fetchTimerTick => Sys2Proof.Machine.execFetchTimerTick s
  | .fetchDataTaken => Sys2Proof.Machine.execFetchDataTaken s
  | .activationTrigger => Sys2Proof.Machine.execActivationTrigger s
  | .mergeWalkEnd => Sys2Proof.Machine.execMergeWalkEnd s
  | .headerWriteDone => Sys2Proof.Machine.execHeaderWriteDone s
  | .labelNotCurrent => Sys2Proof.Machine.execLabelNotCurrent s
  | .labelCurrent => Sys2Proof.Machine.execLabelCurrent s
  | .holdSweep => Sys2Proof.Machine.execHoldSweep s
  | .tillFrameReceived port chars => Sys2Proof.Machine.execTillFrameReceived port chars s
  | .framingError port => Sys2Proof.Machine.execFramingError port s
  | .lineBreak port => Sys2Proof.Machine.execLineBreak port s
  | .lineDown port => Sys2Proof.Machine.execLineDown port s
  | .silenceTimerExpiry port => Sys2Proof.Machine.execSilenceTimerExpiry port s
  | .graceTimerExpiry port => Sys2Proof.Machine.execGraceTimerExpiry port s
  | .replySent port => Sys2Proof.Machine.execReplySent port s
  | .lookup port => Sys2Proof.Machine.execLookup port s
  | .openSale port => Sys2Proof.Machine.execOpenSale port s
  | .saleLine port => Sys2Proof.Machine.execSaleLine port s
  | .voidLine port => Sys2Proof.Machine.execVoidLine port s
  | .tender port => Sys2Proof.Machine.execTender port s
  | .closeSale port => Sys2Proof.Machine.execCloseSale port s
  | .abandonSale port => Sys2Proof.Machine.execAbandonSale port s
  | .status port => Sys2Proof.Machine.execStatus port s
  | .bind port => Sys2Proof.Machine.execBind port s
  | .unbind port => Sys2Proof.Machine.execUnbind port s
  | .labelQuery port => Sys2Proof.Machine.execLabelQuery port s
  | .labelRetry port => Sys2Proof.Machine.execLabelRetry port s
  | .appendCommitted => Sys2Proof.Machine.execAppendCommitted s
  | .releaseReceived => Sys2Proof.Machine.execReleaseReceived s
  | .headStatusReceived => Sys2Proof.Machine.execHeadStatusReceived s
  | .labelFrameUnknown => Sys2Proof.Machine.execLabelFrameUnknown s
  | .labelReportReceived => Sys2Proof.Machine.execLabelReportReceived s
  | .labelNoticeReceived => Sys2Proof.Machine.execLabelNoticeReceived s
  | .headTimerExpiry => Sys2Proof.Machine.execHeadTimerExpiry s
  | .orderTimerTick => Sys2Proof.Machine.execOrderTimerTick s
  | .reportTimerExpiry orderTag => Sys2Proof.Machine.execReportTimerExpiry orderTag s
  | .retryTimerTick => Sys2Proof.Machine.execRetryTimerTick s
  | .countPassDone => Sys2Proof.Machine.execCountPassDone s
  | .labelWalkEntry => Sys2Proof.Machine.execLabelWalkEntry s
  | .warmWalkPassDone => Sys2Proof.Machine.execWarmWalkPassDone s
  | .guestUpReceived => Sys2Proof.Machine.execGuestUpReceived s
  | .radioStatusReceived => Sys2Proof.Machine.execRadioStatusReceived s
  | .guestFrameUnknown => Sys2Proof.Machine.execGuestFrameUnknown s
  | .radioTimerExpiry => Sys2Proof.Machine.execRadioTimerExpiry s
  | .meterTick => Sys2Proof.Machine.execMeterTick s
  | .trunkCarrierUp => Sys2Proof.Machine.execTrunkCarrierUp s
  | .trunkCarrierLoss => Sys2Proof.Machine.execTrunkCarrierLoss s
  | .trunkFrameUnknown => Sys2Proof.Machine.execTrunkFrameUnknown s
  | .exchangeUnexpected => Sys2Proof.Machine.execExchangeUnexpected s
  | .trunkClaimReceived => Sys2Proof.Machine.execTrunkClaimReceived s
  | .sessionTimerTick => Sys2Proof.Machine.execSessionTimerTick s
  | .welcomeReceived => Sys2Proof.Machine.execWelcomeReceived s
  | .logonTimerExpiry => Sys2Proof.Machine.execLogonTimerExpiry s
  | .ownRecordRead => Sys2Proof.Machine.execOwnRecordRead s
  | .ownReadRetry => Sys2Proof.Machine.execOwnReadRetry s
  | .pullDataTaken => Sys2Proof.Machine.execPullDataTaken s
  | .pullRetryTimer => Sys2Proof.Machine.execPullRetryTimer s
  | .blockAckReceived => Sys2Proof.Machine.execBlockAckReceived s
  | .ackTimerExpiry => Sys2Proof.Machine.execAckTimerExpiry s
  | .fileHeadReceived => Sys2Proof.Machine.execFileHeadReceived s
  | .filePartReceived => Sys2Proof.Machine.execFilePartReceived s
  | .fileEndReceived => Sys2Proof.Machine.execFileEndReceived s
  | .downloadTimerExpiry => Sys2Proof.Machine.execDownloadTimerExpiry s
  | .dramBurstDone => Sys2Proof.Machine.execDramBurstDone s
  | .refreshDue => Sys2Proof.Machine.execRefreshDue s
  | .supplyLow => Sys2Proof.Machine.execSupplyLow s
  | .resetAssert => Sys2Proof.Machine.execResetAssert s
  | .resetRelease => Sys2Proof.Machine.execResetRelease s
  | .sevenRecessiveBitsRead => Sys2Proof.Machine.execSevenRecessiveBitsRead s
  | .droppedAsLong port => Sys2Proof.Machine.execDroppedAsLong port s
  | .badEscape port stx => Sys2Proof.Machine.execBadEscape port stx s
  | .lineHighForOneBitTime port => Sys2Proof.Machine.execLineHighForOneBitTime port s

end Sys2Proof.Machine
end

