-- ==== Sys2Proof/Safety.lean ====
section
/-! DEFINITION. The vocabulary of the statements: which block of the state a command leaves as it was, and the invariants the
statements rest on. -/

namespace Sys2Proof.Machine

/-! ### frames -/

/-- The pieces of a state that a frame speaks of. Outside them stand only what the arbiter moves at any grant (R189, R190):
the port, the passed-over counts, the refresh counters, the bursts asked, and the promotion and urgent-refresh counters. -/
inductive Piece where
  | cfg | branch | trunkFramer | labelFramer | guestFramer | links | fwd | call | pres | price | till | jrn | lab | gst | trk | hdr
  | memory | written | memoryCounters | supply | queue
  deriving DecidableEq, Repr

/-- A block of `t` is as it was in `s`. `memory` is every byte of the DRAM as the blocks read it, `written` every byte as finished
bursts have left it. -/
def Piece.same (b : Piece) (s t : State) : Prop :=
  match b with
  | .cfg => t.part.cfg = s.part.cfg
  | .branch => t.part.branch = s.part.branch
  | .trunkFramer => t.part.trunkFramer = s.part.trunkFramer
  | .labelFramer => t.part.labelFramer = s.part.labelFramer
  | .guestFramer => t.part.guestFramer = s.part.guestFramer
  | .links => t.part.links = s.part.links
  | .fwd => t.part.fwd = s.part.fwd
  | .call => t.part.call = s.part.call
  | .pres => t.part.pres = s.part.pres
  | .price => t.part.price = s.part.price
  | .till => t.part.till = s.part.till
  | .jrn => t.part.jrn = s.part.jrn
  | .lab => t.part.lab = s.part.lab
  | .gst => t.part.gst = s.part.gst
  | .trk => t.part.trk = s.part.trk
  | .hdr => t.part.hdr = s.part.hdr
  | .memory => ∀ a, Mem.read t.part.dram a = Mem.read s.part.dram a
  | .written => ∀ a, Mem.read t.part.written a = Mem.read s.part.written a
  | .memoryCounters =>
    t.part.memCtr.headerWrites = s.part.memCtr.headerWrites ∧ t.part.memCtr.labelsLost = s.part.memCtr.labelsLost
  | .supply => t.supply = s.supply
  | .queue => t.pending = s.pending

/-- Every block but those named is as it was. -/
def Unchanged (but : List Piece) (s t : State) : Prop := ∀ b, b ∉ but → b.same s t

/-- Every till port but `n` is as it was. -/
def OtherPorts (n : PortNo) (s t : State) : Prop := ∀ m, m ≠ n → t.part.port m = s.part.port m

/-- The owner does nothing with its sent notice (R6). -/
def FrameOwner.deaf : FrameOwner → Bool
  | .presence announcing => !announcing
  | .release _ | .price | .datagram => true
  | .claim _ | .call _ | .recall _ => false

/-- The owner does nothing with its dropped notice (R7). -/
def FrameOwner.mute : FrameOwner → Bool
  | .presence announcing => !announcing
  | .release _ | .price => true
  | .claim _ | .call _ | .recall _ | .datagram => false

/-- The receive FIFO of a line has gone as far as it can: no complete frame without bytes at its head, and its burst asked where
one can be written (R14). -/
def Part.fifoSettled (p : Part) (l : Line) : Prop :=
  ∀ c rest, (p.framer l).fifo = c :: rest →
    (c.whole = true → c.buf.isSome = true → c.bytes ≠ []) ∧ (c.ready = true → (p.framer l).draining = true)

/-- Frame `r` is being received, its start bit and header read; these bits bring it to `d`; its kind byte has come or no further
byte comes; and the receive FIFO has room for its bytes (R13, R14, R17). -/
def Part.reads (p : Part) (l : Line) (r : RxFrame) (bits : List Bool) (d : Deframe) : Prop :=
  (p.framer l).rx = some r ∧ r.front.length = frontOf l ∧ d = r.frame.feeds (openingWithin l) bits ∧
    ((r.asked = true ∧ kindAt l < r.frame.got.length) ∨ d.got = r.frame.got) ∧
    fifoBytes (p.framer l).fifo + (d.got.length - r.frame.got.length) ≤ Config.fifoSize ∧ p.fifoSettled l

/-- The start bit of a frame, where its line has one (R1). -/
def startOf (l : Line) : List Bool := if l = .branch then [startBit] else []

/-- The header of a frame, where its line has one (R5). -/
def headerOf (l : Line) (c : Cls) (n : StationNo) : List Bool := if l = .branch then headerBits c n else []

/-- The branch interface after an own frame has been sent: counted, the transmitter at rest, the turn gap open (R3, R6, R9). -/
def Branch.sentOne (b : Branch) (tx : Tx) (sender : Sender) : Branch :=
  { b with
    tx := tx, turn := none, turnGap := true, gapCount := 0, sender := sender
    framer := { b.framer with ctr := { b.framer.ctr with sent := bump b.framer.ctr.sent } } }

/-- The transmitter at rest with these queues: WAITING where a class queue holds a frame, IDLE otherwise (R6). -/
def Forwarding.restTx (f : Forwarding) : Tx := if f.bestClass.isSome then .waiting else .idle

/-- The head of class queue `c` has been sent: it has left the queue, its buffer has returned, and the branch interface shows it
(R6). -/
def State.headSent (c : Cls) (q : QFrame) (rest : List QFrame) (s t : State) : Prop :=
  t.part.fwd = (s.part.fwd.setQueue c rest).giveBack q.buf ∧
    t.part.branch = s.part.branch.sentOne t.part.fwd.restTx t.part.branch.sender

/-- What a turn-lost notice does to the connection `c` (R28); in AWAIT DATA the receipt that answers it stands in a statement of
its own. -/
def State.turnLostTo (c : Conn) (s t : State) : Prop :=
  (c.phase = .awaitReceipt →
      t.part.call =
        { s.part.call with conn := none, ctr := { s.part.call.ctr with servedBroken := bump s.part.call.ctr.servedBroken } }) ∧
    (c.phase = .awaitSilence → t.part.call = { s.part.call with conn := none }) ∧
    (c.phase = .awaitSend → t.part.call = s.part.call) ∧
    (c.phase = .awaitRecallAnswer →
      t.part.call =
        { s.part.call with
          conn := none
          deferred := s.part.call.deferred.filter fun d =>
            !(decide (d.state = .recalling) && decide (d.caller = c.peer) && decide (d.callTag = c.tag)) }) ∧
    (∀ e, c.phase = .awaitAnswer → s.part.call.opens = [e] → e.tag = c.tag →
      t.part.call.conn = none ∧ t.part.call.ctr.noAnswer = bump s.part.call.ctr.noAnswer)

/-- A turn frame of this kind, with these bytes, is being sent (R9). -/
def Part.sends (p : Part) (what : TurnWhat) (bytes : Bytes) : Prop :=
  p.branch.tx = .sendingTurn ∧ p.branch.turnGap = false ∧
    ∃ b : Buf, p.branch.turn = some ⟨b, what⟩ ∧ p.bufBytes b = bytes

/-- The records a DATA of a JOURNAL PULL carries: those from sequence `pos` on, `most` and 15 at most, that are committed, good and
still in their slots, without a gap (R34). -/
def Part.pullServes (p : Part) (pos most : Nat) (recs : List Bytes) : Prop :=
  recs.length ≤ min most 15 ∧ (∀ i, ∀ h : i < recs.length, p.readAnswer (pos + i) = .record recs[i]) ∧
    (recs.length = min most 15 ∨ ∀ bs, p.readAnswer (pos + recs.length) ≠ .record bs)

/-- The journal unit once those records have been read: a DAMAGED slot that ended them is counted (R126). -/
def Part.pullReads (p : Part) (pos most : Nat) (recs : List Bytes) : Journal :=
  if recs.length < min most 15 ∧ p.readAnswer (pos + recs.length) = .damaged then
    { p.jrn with ctr := { p.jrn.ctr with damagedReads := bump p.jrn.ctr.damagedReads } }
  else p.jrn

/-- The callee of connection `c`, with the call lists `call` beside it, has handed over what it serves from `pos`, `most` records at
the most: of a JOURNAL PULL the records its journal holds, or END with the count sent where there is none; of a PRICE FETCH of a
generation held as many entries as one DATA and the bank allow (R24, R34, R35). `times`: how often this DATA has now been sent. -/
def State.handsOver (call : Calls) (c : Conn) (pos most times : Nat) (s t : State) : Prop :=
  (∀ f m recs, c.request = .pull f m → s.part.pullServes pos most recs →
    t.part.jrn = s.part.pullReads pos most recs ∧
    (recs ≠ [] →
      t.part.call =
          { call with
            conn := some { c with phase := .awaitReceipt, position := pos, count := recs.length, times := times } } ∧
        t.part.sends .data (plainBody c.peer.val kindData (pullDataPayload c.tag s.part.jrn.next recs))) ∧
    (recs = [] →
      t.part.call = { call with conn := some { c with phase := .awaitSilence, times := 1 } } ∧
        t.part.sends .endFrame (plainBody c.peer.val kindEnd (endPayload c.tag c.sent c.request s.part.jrn.next)))) ∧
  (∀ g f m n, c.request = .fetch g f m → s.part.holds g = true → 1 ≤ most → pos < Config.bankSlots →
    n = min (min most 42) (Config.bankSlots - pos) →
    t.part.jrn = s.part.jrn ∧
      t.part.call =
        { call with conn := some { c with phase := .awaitReceipt, position := pos, count := n, times := times } } ∧
      t.part.sends .data
        (plainBody c.peer.val kindData
          (fetchDataPayload c.tag pos (s.part.entriesOf g) ((List.range n).map fun i => s.part.fetchRecord g (pos + i)))))

/-- Where a callee begins to serve a request: a JOURNAL PULL from no released record (R34). -/
def Request.start (r : Request) (p : Part) : Nat :=
  match r with
  | .pull first _ => max first (p.jrn.release + 1)
  | .fetch _ first _ => first

/-- What a frame lost in the turn of the open connection changes beside the call lists: the blocks an ended call's owner acts
on (R28, R33). -/
def turnPieces : List Piece := [.branch, .links, .fwd, .call, .price, .trk, .memory]

/-- The frames a block has been dispatched, without this one (R62). -/
def Forwarding.without (f : Forwarding) (it : RxItem) : Forwarding :=
  { f with taken := f.taken.filter fun x => decide (x.2.buf.num ≠ it.buf.num) }

/-- The trunk framer begins the head of the trunk queue where it has no frame: the EXCHANGE part goes before the PACKET part
(R64). -/
def Forwarding.trunkBegins (f : Forwarding) : Forwarding :=
  if (f.exchange ++ f.packets).any (·.begun) then f
  else
    match f.exchange, f.packets with
    | x :: rest, _ => { f with exchange := { x with begun := true } :: rest }
    | [], x :: rest => { f with packets := { x with begun := true } :: rest }
    | [], [] => f

/-- A turn frame can be had and sent: an open turn gap, the transmitter at rest, and a buffer beyond the reserve (R9, R67). -/
def State.turnOpen (s : State) : Prop :=
  s.part.branch.turnGap = true ∧ (s.part.branch.tx = .idle ∨ s.part.branch.tx = .waiting) ∧
    Config.controlReserve < s.part.fwd.free.length ∧ ∀ n ∈ s.part.fwd.free, n < Config.poolSize

/-- A buffer can be had by any requester but the guest link and the relay set (R67). -/
def State.bufferFree (s : State) : Prop :=
  Config.controlReserve < s.part.fwd.free.length ∧ ∀ n ∈ s.part.fwd.free, n < Config.poolSize

/-- A frame with these bytes has joined the tail of a class queue with collision count 0 (R63). -/
def State.queues (c : Cls) (o : FrameOwner) (bytes : Bytes) (s t : State) : Prop :=
  ∃ q : QFrame, t.part.fwd.queue c = s.part.fwd.queue c ++ [q] ∧ q.owner = o ∧ q.collisions = 0 ∧ q.withdrawn = false ∧
    t.part.bufBytes q.buf = bytes

/-- The service rules of a request give ACCEPT to a station in SYNC or READY (R34, R35). -/
def Request.serves (r : Request) (p : Part) : Bool :=
  match r with
  | .pull _ _ => true
  | .fetch g _ _ => p.holds g

/-- The staging has the generation of a PRICE FETCH in RECEIVING or GAPS (R35). -/
def Request.staged (r : Request) (p : Part) : Bool :=
  match r with
  | .pull _ _ => false
  | .fetch g _ _ =>
    decide (p.price.staging.generation = g) &&
      (decide (p.price.staging.state = .receiving) || decide (p.price.staging.state = .gaps))

/-- The exit R57 gives the default entry: TRUNK while the own trunk line is UP, else the lowest PRESENT peer that shows trunk
up, else DISCARD. -/
def Part.defaultRule (p : Part) (x : Exit) : Prop :=
  (p.trk.line = .up → x = .trunk) ∧
    (∀ n d, p.trk.line ≠ .up → p.shown n = some d → d.trunkUp = true →
      (∀ m, m < n → ∀ d', p.shown m = some d' → d'.trunkUp = false) → x = .station n) ∧
    (p.trk.line ≠ .up → (∀ n d, p.shown n = some d → d.trunkUp = false) → x = .discard)

/-- No frame is begun on a link. -/
def Forwarding.noneBegun (f : Forwarding) : Prop :=
  (∀ x ∈ f.exchange ++ f.packets, x.begun = false) ∧ ∀ x ∈ f.radio ++ f.labels, x.begun = false

/-- The records of an append have been accepted (R120): numbered from the next sequence up, stamped with the clock, queued to
be written, and their append outstanding. -/
def State.appends (r : Requester) (till : Nat) (cs : List Content) (s t : State) : Prop :=
  t.part.jrn =
    { s.part.jrn with
      next := s.part.jrn.next + cs.length
      exhausted := decide (s.part.jrn.next + cs.length = Config.sequenceMax)
      queue := s.part.jrn.queue ++ stampRecords till s.part.pres.clock s.part.jrn.next cs
      appends := s.part.jrn.appends ++ [⟨s.part.jrn.next + cs.length - 1, r⟩] }

/-- Port `n` holds a request of this kind not yet executed, and no low waits for its work (R102). -/
def State.asked (n : PortNo) (r : TillRequest) (k : TillKind) (s : State) : Prop :=
  s.supply.takesEvents = true ∧ (s.part.port n).req = some r ∧ TillKind.ofCode r.kind.toNat = some k ∧ r.work = .taken ∧
    (s.part.port n).lows = []

/-- This user is to make this burst, or it has the port (R188). -/
def State.awaits (u : BurstUser) (k : Tok) (t : State) : Prop := t.part.asks.has u k = true ∨ t.arb.port = some (.burst u k)

/-- The entry of the search `x` of port `n`'s request of this kind has just been read, and no low waits for its work (R72). -/
def State.looks (n : PortNo) (r : TillRequest) (k : TillKind) (x : Search) (s : State) : Prop :=
  s.supply.takesEvents = true ∧ s.arb.port = some (.burst (.lookup n) (.lookup n)) ∧ (s.part.port n).req = some r ∧
    TillKind.ofCode r.kind.toNat = some k ∧ r.work = .looking x ∧ (s.part.port n).lows = []

/-- Port `n`'s request goes on with the search `x`: its next entry is asked at TILL, and the other ports are as they were (R72). -/
def State.searches (n : PortNo) (r : TillRequest) (x : Search) (s t : State) : Prop :=
  t.part.port n = { s.part.port n with req := some { r with work := .looking x } } ∧ t.part.till.ctr = s.part.till.ctr ∧
    OtherPorts n s t ∧ t.awaits (.lookup n) (.lookup n)

/-- The entry in the middle of a search, where its CRC is good. -/
def Part.middle (p : Part) (x : Search) : Option BankEntry := p.goodEntry x.bank ((x.lo + x.hi) / 2)

/-- The reply of the request has been built, stored and begun, and the other ports are as they were (R102 to R104). -/
def State.answers (n : PortNo) (r : TillRequest) (res : Result) (hold : Bool) (body : Bytes) (s t : State) : Prop :=
  (let content := s.part.replyContent r.seq r.kind res hold false body
   t.part.port n =
    { s.part.port n with
      last := some ⟨r.seq, r.kind, content⟩, req := some { r with work := .replying }
      out := some (tillFrame content), outBusy := false }) ∧ OtherPorts n s t

/-- The records of the request have been accepted: the sale takes its changes and the reply waits for them (R106). -/
def State.works (n : PortNo) (r : TillRequest) (sale : Option Sale) (o : OnCommit) (body : Bytes) (hold noTally : Bool)
    (s t : State) : Prop :=
  t.part.port n =
      { s.part.port n with sale := sale, req := some { r with work := .appended o body hold noTally } } ∧
    t.part.till.ctr = s.part.till.ctr ∧ OtherPorts n s t

/-- The command that executes a request of this kind of port `n`. -/
def TillKind.command (k : TillKind) (n : PortNo) : Instr :=
  match k with
  | .lookup => .lookup n
  | .openSale => .openSale n
  | .line => .saleLine n
  | .void => .voidLine n
  | .tender => .tender n
  | .close => .closeSale n
  | .abandon => .abandonSale n
  | .status => .status n
  | .bind => .bind n
  | .unbind => .unbind n
  | .query => .labelQuery n
  | .retry => .labelRetry n

/-- A field of a request of this kind lies outside its range, where the open sale has `lines` lines (R108, R110 to R112, R116). -/
def TillKind.outOfRange (k : TillKind) (lines : Nat) (b : Bytes) : Prop :=
  match k with
  | .lookup | .line => fieldAt b 0 6 = 0 ∨ 99999999999999 < fieldAt b 0 6 ∨ fieldAt b 6 3 = 0
  | .void => fieldAt b 0 2 = 0 ∨ lines < fieldAt b 0 2
  | .tender => fieldAt b 0 1 = 0 ∨ 3 < fieldAt b 0 1 ∨ fieldAt b 1 4 = 0 ∨ 999999999 < fieldAt b 1 4
  | .bind =>
    fieldAt b 0 3 = 0 ∨ 16777214 < fieldAt b 0 3 ∨ fieldAt b 3 6 = 0 ∨ 99999999999999 < fieldAt b 3 6 ∨ fieldAt b 9 1 = 0 ∨
      3 < fieldAt b 9 1
  | .unbind | .query | .retry => fieldAt b 0 3 = 0 ∨ 16777214 < fieldAt b 0 3
  | .openSale | .close | .abandon | .status => False

/-- The outcome of a fetch that gives its source a skip mark, with `asked` records asked and `received` received (R86). -/
def CallEnd.skips (x : CallEnd) (asked received : Nat) : Bool :=
  match x with
  | .complete | .endedEarly => decide (received < asked)
  | .refused r => decide (r = some .noSuchGen) || decide (r = some .unknownKind)
  | .busy | .noAnswer | .broken | .recallTimeout => false

/-- The one open fetch has ended with this outcome: it leaves the open fetches, its source gets a skip mark where the outcome gives
one and the fetch was placed for the staging's generation, and its call leaves the open calls (R33, R86). -/
def State.fetchOver (f : Fetch) (x : CallEnd) (received : Nat) (s t : State) : Prop :=
  t.part.price =
      { s.part.price with
        staging :=
          { s.part.price.staging with
            fetches := []
            skips :=
              if f.generation = s.part.price.staging.generation ∧ s.part.price.staging.state ≠ .empty ∧
                  x.skips f.count received = true then
                f.source :: s.part.price.staging.skips
              else s.part.price.staging.skips } } ∧
    t.part.call.opens = []

/-- The peer in turn has ended with entry `y`, beside the own entry `o`: the turn passes, and no other entry is left to take it
(R175, R178). -/
def State.turnEnds (o y : Upload) (count : TrunkCounters → TrunkCounters) (s t : State) : Prop :=
  t.part.trk =
    { s.part.trk with pull := .idle, turn := none, own := .idle, table := [o, y], ctr := count s.part.trk.ctr }

/-- The peer in turn, with entry `y` beside the own entry `o`, is pulled again after 5 s (R178). -/
def State.pullsLater (o y : Upload) (s t : State) : Prop :=
  t.part.trk = { s.part.trk with pull := .delay, table := [o, y] }

/-- The pull of the peer in turn, with entry `y` beside the own entry `o`, has failed and is a retry: it is pulled again after 5 s, or
SKIPPED at its fourth (R178). -/
def State.pullFails (o y : Upload) (s t : State) : Prop :=
  (y.retries < 3 → s.pullsLater o { y with retries := y.retries + 1 } t) ∧
    (y.retries = 3 →
      s.turnEnds o { y with retries := 4, status := .skipped } (fun c => { c with skipped := bump c.skipped }) t)

/-- A session that has not reached DONE has ended FAILED or CUT with its timers stopped, its blocks dropped and its ending counted
(R185). -/
def Trunk.over (k : Trunk) (night : Night) (expiries : Nat) (ctr : TrunkCounters) : Trunk :=
  { k with
    night := night, logonTimer := false, ackTimer := false, downloadTimer := false, sessionTimer := false, owed := []
    own := .idle, turn := none, expiries := expiries, blocks := [], ctr := ctr
    table := k.table.map fun e => { e with openBlock := none } }

/-- The buffers of these BLOCKs have returned, in this order. -/
def Forwarding.giveBlocks (f : Forwarding) (bs : List Block) : Forwarding := bs.foldl (fun f b => f.giveBack b.buf) f

/-! ### invariants -/

/-- The counts of the arbiter lie in their ranges (R190, R191). -/
def Arb.inRange (a : Arb) : Prop :=
  a.row < Config.refreshRows ∧ ∀ r, a.passed.of r ≤ Config.starvation

/-- The supply watch and the port agree: SUPPLY LOW waits only for a burst in hand while RUNNING, and nothing holds the port
in HELD or WAITING (R194, R195). -/
def State.portAgrees (s : State) : Prop :=
  (s.supply.stopping = true → s.supply.watch = .running ∧ s.arb.port.isSome = true) ∧
    (s.supply.watch ≠ .running → s.arb.port = none)

/-- What every step keeps of the memory controller and the supply watch. -/
def State.memoryController (s : State) : Prop := s.arb.inRange ∧ s.portAgrees

end Sys2Proof.Machine
end

