-- ==== Sys2Proof/Certificates/Slice0/Obligations.lean ====
section
/-! DEFINITION. The statements for the provers: one proposition for each, over `exec` and `step`. -/

open Sys2Proof Sys2Proof.Machine

/-! ### a step, and what every step keeps -/

/-- For every command and every state, a step of the state with that command at the front of its queue is the command
executed on the state with the rest of the queue. (The queue is the model's own, not the spec's.) -/
def Obligations.StepTakesTheFront : Prop :=
  ∀ (c : Instr) (rest : List Instr) (s : State), step { s with pending := c :: rest } = exec c { s with pending := rest }

/-- Every command answers a next state in every state, without fault or refusal, and leaves the queue of commands as it
was. A step on an empty queue is one bit time of the lines: the transmitters drive a bit each and the branch line's gap
count runs on, and no receiver, no transmitter state and nothing else changes (the model's choice, assumptions 4 and
65). Where the part takes no events (HELD, WAITING, a stop under way, or the reset pin asserted; the pin is the model's
choice, assumption 14), every command but those of the memory controller, the supply watch and the reset pin changes
nothing. -/
def Obligations.EveryCommandAnswers : Prop :=
  (∀ (c : Instr) (s : State), ∃ t, exec c s = .next t ∧ t.pending = s.pending) ∧
    (∀ s : State, s.pending = [] →
      ∃ t, step s = .next t ∧ t.part.branch.tx = s.part.branch.tx ∧ t.part.branch.framer = s.part.branch.framer ∧
        t.part.branch.turnGap = s.part.branch.turnGap ∧ t.part.branch.rxReady = s.part.branch.rxReady ∧
        (s.part.branch.gapCount ≤ 32 → t.part.branch.gapCount ≤ 32) ∧ Unchanged [.branch, .links] s t ∧
        (s.supply.takesEvents = false → t = s)) ∧
    ∀ (c : Instr) (s : State), s.supply.takesEvents = false →
      c ∉ [Instr.dramBurstDone, .refreshDue, .supplyLow, .supplyGood, .resetAssert, .resetRelease] → exec c s = .next s

/-- Where the refresh row counter lies below 4,096, every passed-over count is at most 16, a stop under way is RUNNING
with a burst in hand, and the port is idle in HELD and WAITING, the same holds after any step. -/
def Obligations.MemoryControllerKept : Prop :=
  ∀ s t : State, s.memoryController → step s = .next t → t.memoryController

/-- Where the listed addresses of the DRAM rise strictly, lie within its 4 MiB and list no byte 0, both as the blocks
read it and as finished bursts have left it, the same holds after any step: equal memories stay equal data. (That an
unlisted address reads as 0 is the model's choice, assumption 2; the two memories are assumption 53.) -/
def Obligations.MemoryStaysCanonical : Prop :=
  ∀ s t : State, Mem.wf s.part.dram = true → Mem.wf s.part.written = true → step s = .next t →
    Mem.wf t.part.dram = true ∧ Mem.wf t.part.written = true

/-- Right after a start from power-up the memory controller invariant holds, both memories are in their canonical form,
the queue is empty, and the part takes events. (That this is the state after reset is the model's choice, assumption 1;
so is the empty memory, assumption 2.) -/
def Obligations.ResetMeetsTheInvariants : Prop :=
  State.reset.memoryController ∧ Mem.wf State.reset.part.dram = true ∧ Mem.wf State.reset.part.written = true ∧
    State.reset.pending = [] ∧
    State.reset.supply.takesEvents = true

/-! ### the branch line and the framers -/

/-- RELEASE_GAP with a frame offered and nothing on the line takes the head of the highest class into contention and
drives the start bit and the header; with nothing to offer it frees the line. The start bit of another station, read
while a frame waits and no turn gap is open, is taken as the own one, and the header driven from bit 1; read while
nothing waits, or in an open turn gap, it begins a frame to be read, and the turn gap closes. CONTENTION_WON enters
SENDING with the opening flag. CONTENTION_LOST counts one loss, returns to WAITING, leaves the frame and its collision
count as they were and reads the winner's frame on. (The gap count after a driven start bit is 0, and the start bit a
waiting station joins is reported by itself: assumption 7. What is driven is driven bit by bit: assumption 65.) -/
def Obligations.ContendingStation : Prop :=
  ∀ (s : State) (c : Cls), s.supply.takesEvents = true →
    (s.part.branch.tx = .waiting → s.part.fwd.bestClass = some c → s.part.branch.framer.rx = none →
      s.part.branch.turnGap = false →
      ∃ t, exec .releaseGap s = .next t ∧
        t.part.branch =
          { s.part.branch with
            tx := .contending c, gapCount := 0
            sender := { s.part.branch.sender with shift := some (contendingShift [false] c s.part.ownStation) } } ∧
        Unchanged [.branch] s t) ∧
    (s.part.branch.tx = .idle → s.part.fwd.bestClass = none → s.part.branch.framer.rx = none →
      s.part.branch.turnGap = false →
      ∃ t, exec .releaseGap s = .next t ∧ t.part.branch = { s.part.branch with gapCount := 32 } ∧
        Unchanged [.branch] s t) ∧
    (s.part.branch.loop = false → s.part.branch.framer.rx = none → s.part.branch.rxReady = true →
      (s.part.branch.tx = .waiting → s.part.fwd.bestClass = some c → s.part.branch.turnGap = false →
        ∃ t, exec (.kindByteReceived .branch [false] [] [] []) s = .next t ∧
          t.part.branch =
            { s.part.branch with
              tx := .contending c, gapCount := 0
              sender := { s.part.branch.sender with shift := some (contendingShift [] c s.part.ownStation) } } ∧
          Unchanged [.branch] s t) ∧
      ((s.part.branch.tx = .disabled ∨ s.part.branch.tx = .idle ∨
          (s.part.branch.tx = .waiting ∧ (s.part.branch.turnGap = true ∨ s.part.fwd.bestClass = none))) →
        s.part.fifoSettled .branch →
        ∃ t, exec (.kindByteReceived .branch [false] [] [] []) s = .next t ∧
          t.part.branch =
            { s.part.branch with
              turnGap := false, gapCount := 0
              framer :=
                { s.part.branch.framer with
                  rx := some { RxFrame.begun s.part.branch.turnGap with front := [false] } } } ∧
          Unchanged [.branch] s t)) ∧
    (s.part.branch.tx = .contending c →
      ∃ t, exec .contentionWon s = .next t ∧
        t.part.branch =
          { s.part.branch with
            tx := .sending c, sender := { s.part.branch.sender with shift := some (openingShift []) } } ∧
        Unchanged [.branch] s t) ∧
    (∀ q rest, s.part.branch.tx = .contending c → s.part.fwd.queue c = q :: rest → q.withdrawn = false →
      ∃ t, exec .contentionLost s = .next t ∧
        t.part.branch =
          { s.part.branch with
            tx := .waiting, turn := none, sender := t.part.branch.sender,
            contentionLost := bump s.part.branch.contentionLost
            framer :=
              { s.part.branch.framer with rx := some (RxFrame.begun false) } } ∧
        Unchanged [.branch] s t)

/-- FRAME_SENT in SENDING: the frame leaves the head of its queue, its buffer joins the tail of the free list, one frame
sent is counted, the transmitter is WAITING where a class queue still holds a frame and IDLE otherwise, and the turn gap
opens. For an owner that does nothing with its sent notice nothing else changes. A CALL sent connects its open call in
AWAIT ANSWER; a RECALL sent makes its entry RECALLING and opens the callee's connection in AWAIT RECALL ANSWER; a TRUNK
CLAIM sent for the night in force, by a CLAIMING station with no lower holder known, makes the station HOLDING in phase
LOGON and the holder on record, with the logon and session timers running. FRAME_SENT of a turn frame returns its
buffer, counts one frame sent and opens the turn gap: BUSY and REFUSE are counted as given, a DEFER's entry becomes
WAITING and its lifetime runs, a RECEIPT with ENOUGH marks its call, and after ANSWER ACCEPT the first DATA follows: of
a JOURNAL PULL the committed records from its starting sequence on, as many as the request, one DATA and the journal
allow, or END where there is none; of a PRICE FETCH of a generation held as many entries as the request, one DATA and
the bank allow. -/
def Obligations.FrameSentLeavesItsQueue : Prop :=
  (∀ (s : State) (c : Cls) (q : QFrame) (rest : List QFrame), s.supply.takesEvents = true →
    s.part.branch.tx = .sending c → s.part.fwd.queue c = q :: rest →
    (q.owner.deaf = true →
      ∃ t, exec .frameSent s = .next t ∧ s.headSent c q rest t ∧ Unchanged [.branch, .fwd] s t) ∧
    (∀ tag e, q.owner = .call tag → s.part.call.opens = [e] → e.tag = tag → s.part.call.conn = none →
      ∃ t, exec .frameSent s = .next t ∧ s.headSent c q rest t ∧
        t.part.call =
          { s.part.call with
            opens := [{ e with state := .connected }]
            conn := some ⟨.caller, e.peer, tag, e.request, .awaitAnswer, 0, 0, 0, 0, 0, false⟩ } ∧
        Unchanged [.branch, .fwd, .call] s t) ∧
    (∀ tag d, q.owner = .recall tag → s.part.call.deferred = [d] → d.recallTag = tag →
      ∃ t, exec .frameSent s = .next t ∧ s.headSent c q rest t ∧
        t.part.call =
          { s.part.call with
            deferred := [{ d with state := .recalling }]
            conn := some ⟨.callee, d.caller, d.callTag, d.request, .awaitRecallAnswer, 0, 0, 0, 0, 0, false⟩ } ∧
        Unchanged [.branch, .fwd, .call] s t) ∧
    (∀ d, q.owner = .claim d → s.part.trk.night = .claiming → s.part.trk.nightDay = d → s.part.nightNow = some d →
      (∀ n, s.part.trk.holderFor d = some n → s.part.ownStation.val ≤ n.val) →
      ∃ t, exec .frameSent s = .next t ∧ t.part.fwd.queue c = rest ∧
        t.part.branch = s.part.branch.sentOne t.part.fwd.restTx t.part.branch.sender ∧
        t.part.trk.night = .holding ∧ t.part.trk.phase = .logon ∧ t.part.trk.holder = some (s.part.ownStation, d) ∧
        t.part.trk.logonTimer = true ∧ t.part.trk.sessionTimer = true ∧
        t.part.trk.ctr = { s.part.trk.ctr with claimsSent := bump s.part.trk.ctr.claimsSent } ∧
        Unchanged [.branch, .links, .fwd, .trk, .memory] s t)) ∧
  ∀ (s : State) (x : TurnFrame), s.supply.takesEvents = true → s.part.branch.tx = .sendingTurn →
    s.part.branch.turn = some x →
    (x.what ≠ .answerAccept →
      ∃ t, exec .frameSent s = .next t ∧ t.part.fwd = s.part.fwd.giveBack x.buf ∧
        t.part.branch = s.part.branch.sentOne s.part.fwd.restTx t.part.branch.sender ∧
        t.part.call =
          (match x.what with
           | .answerBusy => { s.part.call with ctr := { s.part.call.ctr with gaveBusy := bump s.part.call.ctr.gaveBusy } }
           | .answerRefuse =>
             { s.part.call with ctr := { s.part.call.ctr with gaveRefuse := bump s.part.call.ctr.gaveRefuse } }
           | .answerDefer tag =>
             { s.part.call with
               deferred := s.part.call.deferred.map fun d =>
                 if d.recallTag = tag ∧ d.state = .reserved then { d with state := .waiting, lifetime := true } else d
               ctr := { s.part.call.ctr with gaveDefer := bump s.part.call.ctr.gaveDefer } }
           | .receipt true =>
             (match s.part.call.conn with
              | some c =>
                { s.part.call with
                  opens := s.part.call.opens.map fun e => if e.tag = c.tag then { e with enough := true } else e }
              | none => s.part.call)
           | .answerAccept | .recallAccept | .recallStale | .receipt false | .data | .endFrame => s.part.call) ∧
        Unchanged [.branch, .fwd, .call] s t) ∧
    (∀ c, x.what = .answerAccept → s.part.call.conn = some c → c.phase = .awaitSend → s.bufferFree →
      ∃ t, exec .frameSent s = .next t ∧
        s.handsOver { s.part.call with ctr := { s.part.call.ctr with gaveAccept := bump s.part.call.ctr.gaveAccept } }
          { c with position := c.request.start s.part, count := 0, sent := 0 } (c.request.start s.part) c.request.maximum 1 t ∧
        Unchanged [.branch, .fwd, .call, .jrn, .memory] s t)

/-- COLLISION in SENDING counts one collision, and the frame left on the line is read on. A frame whose collision count
is below 3 stays at the head of its queue with the count raised by 1 and the transmitter waits; one whose count is 3
leaves its queue, its buffer returns to the free list and one collision drop is counted. (For an owner that does nothing
with its dropped notice, and a frame whose withdrawal was not refused.) -/
def Obligations.CollisionRetriesThenDrops : Prop :=
  ∀ (s : State) (c : Cls) (q : QFrame) (rest : List QFrame), s.supply.takesEvents = true →
    s.part.branch.tx = .sending c → s.part.fwd.queue c = q :: rest → q.withdrawn = false → q.owner.mute = true →
    ∃ t, exec .collision s = .next t ∧ Unchanged [.branch, .fwd] s t ∧
      (q.collisions < 3 →
        t.part.fwd = s.part.fwd.setQueue c ({ q with collisions := q.collisions + 1 } :: rest) ∧
        t.part.branch =
          { s.part.branch with
            tx := .waiting, turn := none, sender := t.part.branch.sender
            collisions := bump s.part.branch.collisions
            framer :=
              { s.part.branch.framer with rx := some (RxFrame.begun false) } }) ∧
      (q.collisions = 3 →
        t.part.fwd = (s.part.fwd.setQueue c rest).giveBack q.buf ∧
        t.part.branch =
          { s.part.branch with
            tx := t.part.fwd.restTx
            turn := none, sender := t.part.branch.sender
            collisions := bump s.part.branch.collisions
            collisionDrops := bump s.part.branch.collisionDrops
            framer :=
              { s.part.branch.framer with rx := some (RxFrame.begun false) } })

/-- TRANSMIT_UNDERRUN in SENDING counts one underrun, leaves the frame in hand at the head of its queue with its
collision count unchanged and returns the transmitter to WAITING, its receiver reading the line on. LINK_UNDERRUN on a
link with a frame begun counts one underrun of that line; the frame stays begun at the head of its queue and the framer
drives the abort, then its opening flag again, with an empty staging area (on the label and guest lines the abort is
seven 1 bits, the model's choice: assumption 70). On a trunk line that is not UP the frame stays in its queue and is
begun no more. -/
def Obligations.UnderrunKeepsTheFrame : Prop :=
  (∀ (s : State) (c : Cls) (q : QFrame) (rest : List QFrame), s.supply.takesEvents = true →
    s.part.branch.tx = .sending c → s.part.fwd.queue c = q :: rest → q.withdrawn = false →
    ∃ t, exec .transmitUnderrun s = .next t ∧
      t.part.branch =
        { s.part.branch with
          tx := .waiting, turn := none, sender := t.part.branch.sender
          framer :=
            { s.part.branch.framer with
              rx := some (RxFrame.begun false)
              ctr := { s.part.branch.framer.ctr with underruns := bump s.part.branch.framer.ctr.underruns } } } ∧
      Unchanged [.branch] s t) ∧
  (∀ (s : State) (k : Link), s.supply.takesEvents = true → (s.part.txBuf (Link.line k)).isSome = true →
    ∃ t, exec (.linkUnderrun k) s = .next t ∧
      (t.part.framer (Link.line k)).ctr =
        { (s.part.framer (Link.line k)).ctr with underruns := bump (s.part.framer (Link.line k)).ctr.underruns } ∧
      (t.part.sender (Link.line k)).staging = [] ∧ (t.part.sender (Link.line k)).fetched = 0 ∧
      (k ≠ .trunk ∨ s.part.trk.line = .up →
        (t.part.sender (Link.line k)).shift =
          some ⟨List.replicate (if k = .trunk then 8 else 7) true ++ flagBits, .body, 0, 0xFFFF, 0⟩ ∧
        Unchanged [.trunkFramer, .labelFramer, .guestFramer, .links] s t) ∧
      (k = .trunk → s.part.trk.line ≠ .up →
        t.part.fwd =
          { s.part.fwd with
            exchange := s.part.fwd.exchange.map fun x => { x with begun := false }
            packets := s.part.fwd.packets.map fun x => { x with begun := false } } ∧
        Unchanged [.trunkFramer, .links, .fwd] s t))

/-- TURN_EXPIRY closes the turn gap. With no connection open it touches nothing else; with one open it ends it as the
turn rule says: in AWAIT ANSWER the call ends NO ANSWER, in AWAIT DATA it ends BROKEN, in AWAIT RECEIPT a served
connection ends BROKEN, in AWAIT SILENCE the connection closes, in AWAIT RECALL ANSWER the deferred entry goes with it.
SEVEN_RECESSIVE_BITS_READ with nothing on the line lets the branch receiver accept a start bit again. (The gap count
each leaves is what the event shows of it, assumption 7.) -/
def Obligations.TurnGapAndReceiverReady : Prop :=
  ∀ s : State, s.supply.takesEvents = true →
    (s.part.branch.turnGap = true → s.part.call.conn = none →
      ∃ t, exec .turnExpiry s = .next t ∧ t.part.branch = { s.part.branch with turnGap := false, gapCount := 16 } ∧
        Unchanged [.branch] s t) ∧
    (∀ c, s.part.branch.turnGap = true → s.part.call.conn = some c →
      ∃ t, exec .turnExpiry s = .next t ∧ t.part.branch.turnGap = false ∧ s.turnLostTo c t ∧ Unchanged turnPieces s t ∧
        ∀ e, c.phase = .awaitData → s.part.call.opens = [e] → e.tag = c.tag →
          t.part.call.conn = none ∧ t.part.call.ctr.broken = bump s.part.call.ctr.broken) ∧
    (s.part.lineBusy = false →
      ∃ t, exec .sevenRecessiveBitsRead s = .next t ∧
        t.part.branch = { s.part.branch with rxReady := true, gapCount := max 7 s.part.branch.gapCount } ∧
        Unchanged [.branch] s t)

/-- KIND_BYTE_RECEIVED with the bits of a frame from its start up to its kind byte, where the receiver can begin a frame
and, on the branch line, the filter is on and the destination is the own number or 255: the bytes stand in the receive
FIFO; a PRESENCE takes no buffer; any other kind takes the head of the free list by the class of its header and joins
the receive queue in FILLING, or is refused, and the frame is stored no further. The start bit has closed the turn gap,
and the gap count is that of the recessive bits read last. On a link the buffer is asked in the same way. (A PRESENCE
kind byte with the chain bit set is no PRESENCE: assumption 33. The events a reception is given in: assumption 66. The
gap count at an event: assumption 7.) -/
def Obligations.KindByteAsksABuffer : Prop :=
  ∀ (s : State) (l : Line) (cls : Cls) (st : StationNo) (dest kind : Byte) (opening body : List Bool) (d : Deframe),
    s.supply.takesEvents = true → s.part.receives l = true → s.part.canBegin l = true → (s.part.framer l).fifo = [] →
    (l = .branch → s.part.pres.joining.filterKeeps = true ∧ (dest.toNat = s.part.ownStation.val ∨ dest.toNat = 255)) →
    d = ({} : Deframe).feeds (openingWithin l) (opening ++ body) → d.reached = .body →
    d.got = (if l = .branch then [dest, kind] else [kind]) →
    ∃ t, exec (.kindByteReceived l (startOf l) (headerOf l cls st) opening body) s = .next t ∧
      Unchanged [.branch, .trunkFramer, .labelFramer, .guestFramer, .fwd] s t ∧
      (l = .branch →
        t.part.branch.turnGap = false ∧
        t.part.branch.gapCount = gapAfter 0 (startOf l ++ headerOf l cls st ++ opening ++ body)) ∧
      (let r := fun b : Option Buf =>
        (⟨startOf l ++ headerOf l cls st, d, true, decide (l = .branch) && s.part.branch.turnGap, true, b, false⟩ : RxFrame)
       ((l = .branch ∧ kind.toNat = kindPresence) →
        t.part.fwd = s.part.fwd ∧ (t.part.framer l).rx = some (r none) ∧
        (t.part.framer l).fifo = [⟨none, 0, d.got, false⟩]) ∧
       (¬ (l = .branch ∧ kind.toNat = kindPresence) →
        (∀ b f, s.part.fwd.take (rxUser l cls kind) = (some b, f) →
          t.part.fwd = { f with filling := f.filling ++ [⟨b, l, if l = .branch then cls else .control,
            if l = .branch then st else 0, false⟩] } ∧
          (t.part.framer l).rx = some (r (some b)) ∧ (t.part.framer l).fifo = [⟨some b, 0, d.got, false⟩]) ∧
        (∀ f, s.part.fwd.take (rxUser l cls kind) = (none, f) →
          t.part.fwd = f ∧ (t.part.framer l).rx = some (r none) ∧ (t.part.framer l).fifo = [])))

/-- FRAME_RECEIVED for a frame in reception, on any line: where it may be kept and was overrun, else too long, else left
odd bits, else was too short or failed the CRC, the counter of that cause goes up by one, every other receive counter
stands, its buffer returns to the free list, it leaves the receive queue, and its bytes leave the receive FIFO; nothing
is kept. One that another station is meant to have is not counted at all; nor is one that ends before its destination
while the filter keeps nothing (assumption 18). A frame that began in an open turn gap gives the open connection its
turn-lost notice either way. -/
def Obligations.BadFrameDiscardedOnce : Prop :=
  ∀ (s : State) (l : Line) (r : RxFrame) (start header opening body closing : List Bool) (d : Deframe),
    s.supply.takesEvents = true → s.part.receives l = true →
    s.part.reads l r (start ++ header ++ opening ++ body ++ closing) d → d.reached = .closed →
    ∃ t, exec (.frameReceived l start header opening body closing) s = .next t ∧
      ∀ count : LineCounters → LineCounters,
        (if (if l = .branch ∧ d.body = [] then s.part.pres.joining.filterKeeps else r.passed) = false then count = id
         else if r.overrun = true then count = fun c => { c with overrun := bump c.overrun }
         else if frameLong l d.body = true then count = fun c => { c with long := bump c.long }
         else if d.odd ≠ 0 then count = fun c => { c with residue := bump c.residue }
         else if d.body.length < (if l = .branch then 5 else 3) ∨ crcGood d.body = false then
           count = fun c => { c with crc := bump c.crc }
         else False) →
        (t.part.framer l).ctr = count (s.part.framer l).ctr ∧ (t.part.framer l).rx = none ∧
        (t.part.framer l).fifo = (s.part.framer l).fifo.filter (·.whole) ∧
        (r.inTurn = false ∨ s.part.call.conn = none →
          (∀ b, r.buf = some b →
            t.part.fwd =
              { s.part.fwd with filling := s.part.fwd.filling.filter fun it => decide (it.buf.num ≠ b.num) }.giveBack b) ∧
          (r.buf = none → t.part.fwd = s.part.fwd) ∧
          Unchanged [.branch, .trunkFramer, .labelFramer, .guestFramer, .fwd] s t) ∧
        ∀ c, r.inTurn = true → s.part.call.conn = some c →
          s.turnLostTo c t ∧ Unchanged ([.trunkFramer, .labelFramer, .guestFramer] ++ turnPieces) s t

/-- FRAME_RECEIVED for a good frame that may be kept: a PRESENCE goes to the presence unit whole and without a buffer;
any other kind with a buffer is counted as kept, the rest of its bytes joins the receive FIFO, its CRC dropped, and a
burst to write them is asked; without a buffer it is counted as NO BUFFER (on the guest link by the guest meter). On the
branch line the turn gap opens, and only a frame lost in an open turn gap gives a turn-lost notice. When the burst with
the last of its bytes finishes, they stand in its buffer and in no other byte of memory, and the frame is dispatched by
its kind: to a block, to the pricing unit, or WAITING for the forwarding engine. A PRESENCE not announced by an event
before is read from its first bit, every byte of it as it was sent. (The burst that empties a FIFO, and when: assumption
6. Bytes past a buffer's last: assumption 54.) -/
def Obligations.GoodFrameKept : Prop :=
  (∀ (s : State) (l : Line) (r : RxFrame) (start header opening body closing : List Bool) (d : Deframe),
    s.supply.takesEvents = true → s.part.receives l = true →
    s.part.reads l r (start ++ header ++ opening ++ body ++ closing) d → d.reached = .closed →
    r.passed = true → r.overrun = false → r.asked = true → d.odd = 0 → frameLong l d.body = false →
    (if l = .branch then 5 else 3) ≤ d.body.length → crcGood d.body = true →
    ∃ t, exec (.frameReceived l start header opening body closing) s = .next t ∧ (t.part.framer l).rx = none ∧
      (l = .branch → t.part.branch.turnGap = true) ∧
      (bufferless l (byteAt d.body (kindAt l)) = true → r.buf = none →
        t.part.pres = { s.part.pres with inbox := s.part.pres.inbox ++ [⟨frontStation r.front, d.body⟩] } ∧
        (t.part.framer l).ctr = { (s.part.framer l).ctr with kept := bump (s.part.framer l).ctr.kept } ∧
        Unchanged [.branch, .pres] s t) ∧
      (bufferless l (byteAt d.body (kindAt l)) = false → r.buf = none →
        (l = .guest →
          t.part.gst = { s.part.gst with ctr := { s.part.gst.ctr with dropsNoBuffer := bump s.part.gst.ctr.dropsNoBuffer } } ∧
          (t.part.framer l).ctr = (s.part.framer l).ctr) ∧
        (l ≠ .guest →
          t.part.gst = s.part.gst ∧
          (t.part.framer l).ctr = { (s.part.framer l).ctr with noBuffer := bump (s.part.framer l).ctr.noBuffer }) ∧
        (r.inTurn = false ∨ s.part.call.conn = none →
          Unchanged [.branch, .trunkFramer, .labelFramer, .guestFramer, .gst] s t) ∧
        ∀ c, r.inTurn = true → s.part.call.conn = some c →
          s.turnLostTo c t ∧ Unchanged ([.trunkFramer, .labelFramer, .guestFramer, .gst] ++ turnPieces) s t) ∧
      (∀ b a bs, bufferless l (byteAt d.body (kindAt l)) = false → r.buf = some b →
        (s.part.framer l).fifo = [⟨some b, a, bs, false⟩] → a + bs.length = r.frame.got.length →
        a < d.body.length - 2 → d.body.length ≤ Config.bufferBytes →
        t.part.framer l =
          { s.part.framer l with
            rx := none, draining := true
            fifo := [⟨some { b with len := d.body.length - 2 }, a,
              (bs ++ d.body.drop r.frame.got.length).take (d.body.length - 2 - a), true⟩]
            ctr := { (s.part.framer l).ctr with kept := bump (s.part.framer l).ctr.kept } } ∧
        Unchanged [.branch, .trunkFramer, .labelFramer, .guestFramer] s t)) ∧
  (∀ (s : State) (l : Line) (b : Buf) (a : Nat) (bs : Bytes) (it : RxItem), bs ≠ [] →
    s.arb.port = some (.burst (Line.receiver l) (.rxWrite l)) → (s.part.framer l).fifo = [⟨some b, a, bs, true⟩] →
    bs.length ≤ 32 - a % 32 → bufAddr b.num + a + bs.length ≤ Config.dramSize → s.part.fwd.filling = [it] →
    it.buf.num = b.num → s.part.fwd.waiting = [] →
    ∃ t, exec .dramBurstDone s = .next t ∧ (t.part.framer l).fifo = [] ∧
      Mem.readBytes t.part.dram (bufAddr b.num + a) bs.length = bs ∧
      Mem.readBytes t.part.written (bufAddr b.num + a) bs.length = bs ∧
      (∀ x, x < bufAddr b.num + a ∨ bufAddr b.num + a + bs.length ≤ x →
        Mem.read t.part.dram x = Mem.read s.part.dram x ∧ Mem.read t.part.written x = Mem.read s.part.written x) ∧
      (match goesTo it.line (t.part.bufBytes b) with
       | .engine =>
         t.part.fwd = { s.part.fwd with filling := [], waiting := [{ it with buf := b }] } ∧ t.part.price = s.part.price
       | .block x =>
         t.part.fwd = { s.part.fwd with filling := [], taken := s.part.fwd.taken ++ [(x, { it with buf := b })] } ∧
           t.part.price = s.part.price
       | .pricing =>
         t.part.fwd = { s.part.fwd with filling := [] } ∧
           t.part.price = { s.part.price with inbox := s.part.price.inbox ++ [.frame { it with buf := b }] }) ∧
      Unchanged [.branch, .trunkFramer, .labelFramer, .guestFramer, .fwd, .price, .memory, .written, .supply] s t) ∧
  ∀ (s : State) (cls : Cls) (st : StationNo) (body : Bytes), s.supply.takesEvents = true →
    s.part.receives .branch = true → s.part.canBegin .branch = true → s.part.branch.framer.fifo = [] →
    s.part.pres.joining.filterKeeps = true → s.part.destPasses (byteAt body 0) = true →
    (byteAt body 1).toNat = kindPresence → 3 ≤ body.length → body.length ≤ 62 →
    ∃ t, exec (.frameReceived .branch [false] (headerBits cls st) flagBits (stuff 0 (bytesBits (withCrc body))).1 flagBits) s =
        .next t ∧
      t.part.pres = { s.part.pres with inbox := s.part.pres.inbox ++ [⟨st, withCrc body⟩] } ∧
      t.part.branch =
        { s.part.branch with
          turnGap := true, gapCount := 0
          framer :=
            { s.part.branch.framer with
              ctr := { s.part.branch.framer.ctr with kept := bump s.part.branch.framer.ctr.kept } } } ∧
      Unchanged [.branch, .pres] s t

/-- RECEIVE_FIFO_OVERRUN while a frame is being stored and the receive FIFO holds 64 bytes marks the frame OVERRUN,
drops its bytes from the FIFO and changes nothing else. FRAME_ABORT ends the frame in reception, returns its buffer,
counts it ABORTED where it may be kept, and on the branch line makes the receiver wait for seven recessive bits; a frame
that began in an open turn gap gives the open connection its turn-lost notice. (A frame aborted before its destination
has come counts as the filter stands at its end, and one the filter keeps none of is not counted: assumption 18.) -/
def Obligations.FrameSpoiled : Prop :=
  ∀ (s : State) (l : Line) (r : RxFrame), s.supply.takesEvents = true →
    ((s.part.framer l).rx = some r → r.storing l = true → 64 ≤ fifoBytes (s.part.framer l).fifo →
      ∃ t, exec (.receiveFifoOverrun l) s = .next t ∧
        t.part.framer l =
          { s.part.framer l with
            rx := some { r with overrun := true }, fifo := (s.part.framer l).fifo.filter (·.whole) } ∧
        (l = .branch → t.part.branch = { s.part.branch with framer := t.part.branch.framer }) ∧
        Unchanged [.branch, .trunkFramer, .labelFramer, .guestFramer] s t ∧
        ∀ m, m ≠ l → t.part.framer m = s.part.framer m) ∧
    (∀ (bits : List Bool) (d : Deframe), s.part.receives l = true → s.part.reads l r bits d → d.reached = .aborted →
      ∃ t, exec (.frameAbort l bits) s = .next t ∧ (t.part.framer l).rx = none ∧
        (t.part.framer l).fifo = (s.part.framer l).fifo.filter (·.whole) ∧
        (t.part.framer l).ctr =
          (if (if l = .branch ∧ d.got = [] then s.part.pres.joining.filterKeeps else r.passed) = true then
             { (s.part.framer l).ctr with aborted := bump (s.part.framer l).ctr.aborted }
           else (s.part.framer l).ctr) ∧
        (l = .branch → t.part.branch.rxReady = false) ∧
        (r.inTurn = false ∨ s.part.call.conn = none →
          (∀ b, r.buf = some b →
            t.part.fwd =
              { s.part.fwd with filling := s.part.fwd.filling.filter fun it => decide (it.buf.num ≠ b.num) }.giveBack b) ∧
          (r.buf = none → t.part.fwd = s.part.fwd) ∧
          Unchanged [.branch, .trunkFramer, .labelFramer, .guestFramer, .fwd] s t) ∧
        ∀ c, l = .branch → r.inTurn = true → s.part.call.conn = some c →
          s.turnLostTo c t ∧ Unchanged ([.trunkFramer, .labelFramer, .guestFramer] ++ turnPieces) s t)

/-! ### calls between stations -/

/-- CALL_RECEIVED with no connection open, in an open turn gap and with a buffer to be had: a malformed request is
answered REFUSE UNKNOWN KIND; outside SYNC and READY a request is answered REFUSE NOT READY; a JOURNAL PULL, and a PRICE
FETCH for a generation held, is answered ACCEPT and opens a callee connection in AWAIT SEND; a PRICE FETCH for a
generation in RECEIVING or GAPS, of a caller with no deferred entry under that tag, is answered BUSY where four entries
stand deferred, else DEFER, and an entry in RESERVED is made; any other PRICE FETCH is answered REFUSE NO SUCH GEN. The
frame handed over carries the verdict, and the CALL's buffer has returned. (A CALL of another length than its kind's is
of no known kind: assumption 55; its entry for a caller and tag already deferred: the statement leaves it out.) With a
connection open the CALL is counted as a stray frame and nothing is answered. -/
def Obligations.CallGetsItsVerdict : Prop :=
  ∀ (s : State) (it : RxItem) (b : BranchBody), s.supply.takesEvents = true → s.part.branchFrame .calls kindCall = some (it, b) →
    ∃ t, exec .callReceived s = .next t ∧ Unchanged [.branch, .fwd, .call, .memory] s t ∧
      t.part.fwd.taken = (s.part.fwd.without it).taken ∧
      (s.part.call.conn.isSome = true →
        t.part.call = { s.part.call with ctr := { s.part.call.ctr with strayFrames := bump s.part.call.ctr.strayFrames } } ∧
        t.part.fwd = (s.part.fwd.without it).giveBack it.buf) ∧
      (s.part.call.conn = none → s.turnOpen → 2 ≤ b.payload.length →
        match parseRequest b.payload with
        | none =>
          t.part.call = s.part.call ∧
            t.part.sends .answerRefuse (plainBody it.station.val kindAnswer [byteAt b.payload 1, 3, 1])
        | some r =>
          if ¬ (s.part.pres.joining = .sync ∨ s.part.pres.joining = .ready) then
            t.part.call = s.part.call ∧
              t.part.sends .answerRefuse (plainBody it.station.val kindAnswer [byteAt b.payload 1, 3, 3])
          else if r.serves s.part = true then
            t.part.call =
                { s.part.call with
                  conn := some ⟨.callee, it.station, byteAt b.payload 1, r, .awaitSend, 0, 0, 0, 0, 0, false⟩ } ∧
              t.part.sends .answerAccept (plainBody it.station.val kindAnswer [byteAt b.payload 1, 0, 0])
          else if r.staged s.part = true then
            (∀ d ∈ s.part.call.deferred, ¬ (d.caller = it.station ∧ d.callTag = byteAt b.payload 1)) →
              if 4 ≤ s.part.call.deferred.length then
                t.part.call = s.part.call ∧
                  t.part.sends .answerBusy (plainBody it.station.val kindAnswer [byteAt b.payload 1, 2, 0])
              else
                ∃ rt : Byte, (∀ d ∈ s.part.call.deferred, d.recallTag ≠ rt) ∧
                  t.part.call =
                    { s.part.call with
                      recallTag := rt + 1
                      deferred := s.part.call.deferred ++
                        [⟨it.station, byteAt b.payload 1, rt, r, .reserved, false, false⟩] } ∧
                  t.part.sends (.answerDefer rt) (plainBody it.station.val kindAnswer [byteAt b.payload 1, 1, rt])
          else
            t.part.call = s.part.call ∧
              t.part.sends .answerRefuse (plainBody it.station.val kindAnswer [byteAt b.payload 1, 3, 2]))

/-- ANSWER_RECEIVED from the peer with the tag of a connection in AWAIT ANSWER: ACCEPT puts the connection in AWAIT
DATA; DEFER closes it, puts the entry in WAITING RECALL with the recall tag and its timer running; BUSY and REFUSE close
it and count the call under its outcome. The stage is then at least 1. An ANSWER taken with no connection open has its
buffer returned and is counted as a stray frame. -/
def Obligations.AnswerMovesTheCall : Prop :=
  ∀ (s : State) (it : RxItem) (b : BranchBody), s.supply.takesEvents = true →
    s.part.branchFrame .calls kindAnswer = some (it, b) →
    (s.part.call.conn = none →
      ∃ t, exec .answerReceived s = .next t ∧
        t.part.fwd = (s.part.fwd.without it).giveBack it.buf ∧
        t.part.call = { s.part.call with ctr := { s.part.call.ctr with strayFrames := bump s.part.call.ctr.strayFrames } } ∧
        Unchanged [.fwd, .call] s t) ∧
    (∀ c e v, s.part.call.conn = some c → c.phase = .awaitAnswer → c.peer = it.station → c.tag = byteAt b.payload 0 →
      s.part.call.opens = [e] → e.tag = c.tag → parseVerdict b.payload = some v →
      ∃ t, exec .answerReceived s = .next t ∧
        match v with
        | .accept =>
          t.part.call =
              { s.part.call with conn := some { c with phase := .awaitData }, opens := [{ e with stage := max 1 e.stage }] } ∧
            Unchanged [.fwd, .call] s t
        | .defer rt =>
          t.part.call =
              { s.part.call with
                conn := none
                opens := [{ e with stage := max 1 e.stage, state := .waitingRecall, recallTag := rt, recallTimer := true }] } ∧
            Unchanged [.fwd, .call] s t
        | .busy =>
          t.part.call.conn = none ∧ t.part.call.ctr.busy = bump s.part.call.ctr.busy ∧
            Unchanged turnPieces s t
        | .refuse _ =>
          t.part.call.conn = none ∧ t.part.call.ctr.refused = bump s.part.call.ctr.refused ∧
            Unchanged turnPieces s t)

/-- DATA_RECEIVED from the peer with the tag of a connection in AWAIT DATA, in an open turn gap with a buffer to be had:
an acceptable DATA adds its records to those received, raises the stage to 3, joins its owner's inbox, its buffer still
held, and is answered RECEIPT GOOD, with ENOUGH where the owner asked for an early end; one that is not acceptable
returns its buffer to the tail of the free list, and is answered RECEIPT BAD where no BAD was sent for the frame
expected. A frame of the turn that is not kept answers a connection in AWAIT DATA in the same way: RECEIPT BAD at the
first such frame, the call ends BROKEN at the second; after an abort, which opens no turn gap, the receipt cannot be
sent and the call ends BROKEN at once. A DATA leaves the receive queue either way, and the receipt takes the buffer at
the head of the free list. (A DATA whose length does not agree with its record count is not acceptable: assumption 57.)
-/
def Obligations.DataIsReceipted : Prop :=
  (∀ (s : State) (it : RxItem) (b : BranchBody) (c : Conn) (e : OpenCall), s.supply.takesEvents = true →
    s.part.branchFrame .calls kindData = some (it, b) → s.part.call.conn = some c → c.phase = .awaitData → c.peer = it.station →
    c.tag = byteAt b.payload 0 → s.part.call.opens = [e] → e.tag = c.tag → s.turnOpen →
    (∀ n x, e.accepts b.payload = some (n, x) →
      ∃ t, exec .dataReceived s = .next t ∧
        t.part.call =
          { s.part.call with
            conn := some { c with bad := 0 }
            opens := [{ e with received := e.received + n, stage := max 3 e.stage, expect := x }] } ∧
        t.part.fwd.taken = (s.part.fwd.without it).taken ∧ t.part.fwd.free = s.part.fwd.free.drop 1 ∧
        t.part.sends (.receipt e.endEarly) (plainBody it.station.val kindReceipt [c.tag, 0, markByte e.endEarly]) ∧
        (e.owner = .trunk →
          t.part.trk = { s.part.trk with inbox := s.part.trk.inbox ++ [.data it.buf c.peer c.tag c.request] } ∧
          Unchanged [.branch, .fwd, .call, .trk, .memory] s t) ∧
        (e.owner = .pricing →
          t.part.price = { s.part.price with inbox := s.part.price.inbox ++ [.data it.buf c.peer c.tag c.request] } ∧
          Unchanged [.branch, .fwd, .call, .price, .memory] s t)) ∧
    (e.accepts b.payload = none → c.bad = 0 →
      ∃ t, exec .dataReceived s = .next t ∧
        t.part.call = { s.part.call with conn := some { c with bad := 1 } } ∧
        t.part.fwd.taken = (s.part.fwd.without it).taken ∧ t.part.fwd.free = s.part.fwd.free.drop 1 ++ [it.buf.num] ∧
        t.part.sends (.receipt e.endEarly) (plainBody it.station.val kindReceipt [c.tag, 1, markByte e.endEarly]) ∧
        Unchanged [.branch, .fwd, .call, .memory] s t)) ∧
  ∀ (s : State) (r : RxFrame) (d : Deframe) (c : Conn) (e : OpenCall), s.supply.takesEvents = true →
    s.part.receives .branch = true → r.inTurn = true → s.part.call.conn = some c → c.phase = .awaitData →
    s.part.call.opens = [e] → e.tag = c.tag →
    (∀ start header opening body closing, s.part.reads .branch r (start ++ header ++ opening ++ body ++ closing) d →
      d.reached = .closed → d.body ≠ [] → (r.passed = false ∨ crcGood d.body = false) → s.bufferFree →
      s.part.branch.tx = .idle ∨ s.part.branch.tx = .waiting →
      ∃ t, exec (.frameReceived .branch start header opening body closing) s = .next t ∧
        (c.bad = 0 →
          t.part.call = { s.part.call with conn := some { c with bad := 1 } } ∧
          t.part.sends (.receipt e.endEarly) (plainBody c.peer.val kindReceipt [c.tag, 1, markByte e.endEarly]) ∧
          Unchanged [.branch, .fwd, .call, .memory] s t) ∧
        (c.bad ≠ 0 →
          t.part.call.conn = none ∧ t.part.call.ctr.broken = bump s.part.call.ctr.broken ∧ Unchanged turnPieces s t)) ∧
    (∀ bits, s.part.reads .branch r bits d → d.reached = .aborted → s.part.branch.turnGap = false →
      ∃ t, exec (.frameAbort .branch bits) s = .next t ∧ t.part.call.conn = none ∧
        t.part.call.ctr.broken = bump s.part.call.ctr.broken ∧ Unchanged turnPieces s t)

/-- RECEIPT_RECEIVED at the callee in AWAIT RECEIPT, in an open turn gap with a buffer to be had: GOOD with records
still to be sent is followed by the next DATA, from the record after the last one sent, or by END where the journal
gives no further record; GOOD when the records sent reach the maximum, or with ENOUGH, is followed by END with the count
of records sent, in AWAIT SILENCE (the callee's N of a generation no longer held is a free value, assumption 52); BAD
for a frame sent once is followed by that frame again, from the same position and with the same count; BAD for a frame
already sent twice closes the connection and counts a served connection BROKEN. In AWAIT SILENCE a BAD for an END sent
once is followed by the END again; a second BAD, or a GOOD, closes the connection. -/
def Obligations.ReceiptMovesTheService : Prop :=
  ∀ (s : State) (it : RxItem) (b : BranchBody) (c : Conn) (good enough : Bool), s.supply.takesEvents = true →
    s.part.branchFrame .calls kindReceipt = some (it, b) → s.part.call.conn = some c → c.peer = it.station →
    c.tag = byteAt b.payload 0 → parseReceipt b.payload = some (good, enough) → s.turnOpen →
    (c.phase = .awaitReceipt → good = true → (c.enough = true ∨ enough = true ∨ c.request.maximum ≤ c.sent + c.count) →
      ∃ t, exec .receiptReceived s = .next t ∧
        t.part.call =
          { s.part.call with
            conn := some { c with enough := c.enough || enough, sent := c.sent + c.count, phase := .awaitSilence, times := 1 } } ∧
        t.part.sends .endFrame
          (plainBody it.station.val kindEnd
            (endPayload c.tag (c.sent + c.count) c.request
              (match c.request with
               | .pull _ _ => s.part.jrn.next
               | .fetch g _ _ => if s.part.holds g then s.part.entriesOf g else Config.absentCalleeN g))) ∧
        Unchanged [.branch, .fwd, .call, .memory] s t) ∧
    (c.phase = .awaitReceipt → good = true → c.enough = false → enough = false → c.sent + c.count < c.request.maximum →
      ∃ t, exec .receiptReceived s = .next t ∧
        s.handsOver s.part.call { c with sent := c.sent + c.count } (c.position + c.count)
          (c.request.maximum - (c.sent + c.count)) 1 t ∧
        Unchanged [.branch, .fwd, .call, .jrn, .memory] s t) ∧
    (c.phase = .awaitReceipt → good = false → c.times ≤ 1 →
      ∃ t, exec .receiptReceived s = .next t ∧
        s.handsOver s.part.call { c with enough := c.enough || enough } c.position c.count (c.times + 1) t ∧
        Unchanged [.branch, .fwd, .call, .jrn, .memory] s t) ∧
    (c.phase = .awaitReceipt → good = false → 2 ≤ c.times →
      ∃ t, exec .receiptReceived s = .next t ∧
        t.part.call =
          { s.part.call with
            conn := none, ctr := { s.part.call.ctr with servedBroken := bump s.part.call.ctr.servedBroken } } ∧
        Unchanged [.fwd, .call] s t) ∧
    (c.phase = .awaitSilence → good = false → c.times ≤ 1 →
      ∃ t, exec .receiptReceived s = .next t ∧
        t.part.call = { s.part.call with conn := some { c with times := c.times + 1 } } ∧
        t.part.sends .endFrame
          (plainBody it.station.val kindEnd
            (endPayload c.tag c.sent c.request
              (match c.request with
               | .pull _ _ => s.part.jrn.next
               | .fetch g _ _ => if s.part.holds g then s.part.entriesOf g else Config.absentCalleeN g))) ∧
        Unchanged [.branch, .fwd, .call, .memory] s t) ∧
    (c.phase = .awaitSilence → good = true ∨ 2 ≤ c.times →
      ∃ t, exec .receiptReceived s = .next t ∧ t.part.call = { s.part.call with conn := none } ∧
        Unchanged [.fwd, .call] s t)

/-- END_RECEIVED from the peer with the tag of a connection in AWAIT DATA closes the connection; where its count equals
the records received the call ends ENDED EARLY with ENOUGH sent and COMPLETE without, and BROKEN where it differs; the
outcome is counted once. -/
def Obligations.EndEndsTheCall : Prop :=
  ∀ (s : State) (it : RxItem) (b : BranchBody) (c : Conn) (e : OpenCall), s.supply.takesEvents = true →
    s.part.branchFrame .calls kindEnd = some (it, b) → s.part.call.conn = some c → c.phase = .awaitData → c.peer = it.station →
    c.tag = byteAt b.payload 0 → b.payload.length = c.request.endLength → s.part.call.opens = [e] → e.tag = c.tag →
    ∃ t, exec .endReceived s = .next t ∧ t.part.call.conn = none ∧
      (fieldAt b.payload 1 2 = e.received → e.enough = true →
        t.part.call.ctr.endedEarly = bump s.part.call.ctr.endedEarly ∧ t.part.call.ctr.complete = s.part.call.ctr.complete ∧
        t.part.call.ctr.broken = s.part.call.ctr.broken) ∧
      (fieldAt b.payload 1 2 = e.received → e.enough = false →
        t.part.call.ctr.complete = bump s.part.call.ctr.complete ∧
        t.part.call.ctr.endedEarly = s.part.call.ctr.endedEarly ∧ t.part.call.ctr.broken = s.part.call.ctr.broken) ∧
      (fieldAt b.payload 1 2 ≠ e.received →
        t.part.call.ctr.broken = bump s.part.call.ctr.broken ∧ t.part.call.ctr.complete = s.part.call.ctr.complete ∧
        t.part.call.ctr.endedEarly = s.part.call.ctr.endedEarly) ∧
      Unchanged turnPieces s t

/-- RECALL_RECEIVED with no connection open, in an open turn gap with a buffer to be had: where an open call waits for a
recall of this peer, tag and recall tag, its timer stops, it becomes CONNECTED at stage 2 or higher, the caller
connection opens in AWAIT DATA and ANSWER ACCEPT is handed over; otherwise ANSWER REFUSE STALE is handed over and the
call lists stand. RECALL_ANSWER_RECEIVED removes the deferred entry: with ACCEPT, in an open turn gap, the first DATA is
handed over: of a generation held, as many records as the request, one DATA and the bank allow, and of a JOURNAL PULL
the committed records from its starting sequence on, or END where there is none; with any other verdict the connection
closes and one recall refused stale is counted (a malformed or unknown verdict is taken as no ACCEPT: assumption 32; a
RECALL's length: assumption 60). -/
def Obligations.RecallFindsItsCall : Prop :=
  (∀ (s : State) (it : RxItem) (b : BranchBody), s.supply.takesEvents = true →
    s.part.branchFrame .calls kindRecall = some (it, b) → s.part.call.conn = none → s.turnOpen →
    (∀ e, s.part.call.opens = [e] → e.peer = it.station → e.tag = byteAt b.payload 0 → e.state = .waitingRecall →
      e.recallTag = byteAt b.payload 1 →
      ∃ t, exec .recallReceived s = .next t ∧
        t.part.call =
          { s.part.call with
            opens := [{ e with state := .connected, recallTimer := false, stage := max 2 e.stage }]
            conn := some ⟨.caller, it.station, e.tag, e.request, .awaitData, 0, 0, 0, 0, 0, false⟩ } ∧
        t.part.sends .recallAccept (plainBody it.station.val kindAnswer [e.tag, 0, 0]) ∧
        Unchanged [.branch, .fwd, .call, .memory] s t) ∧
    ((∀ e ∈ s.part.call.opens, ¬ (e.peer = it.station ∧ e.tag = byteAt b.payload 0 ∧ e.state = .waitingRecall ∧
        e.recallTag = byteAt b.payload 1)) →
      ∃ t, exec .recallReceived s = .next t ∧ t.part.call = s.part.call ∧
        t.part.sends .recallStale (plainBody it.station.val kindAnswer [byteAt b.payload 0, 3, 4]) ∧
        Unchanged [.branch, .fwd, .memory] s t)) ∧
  (∀ (s : State) (it : RxItem) (b : BranchBody) (c : Conn), s.supply.takesEvents = true →
    s.part.branchFrame .calls kindAnswer = some (it, b) → s.part.call.conn = some c → c.phase = .awaitRecallAnswer →
    c.peer = it.station → c.tag = byteAt b.payload 0 →
    (let kept := s.part.call.deferred.filter fun d =>
       !(decide (d.state = .recalling) && decide (d.caller = c.peer) && decide (d.callTag = c.tag))
     (parseVerdict b.payload ≠ some .accept →
      ∃ t, exec .recallAnswerReceived s = .next t ∧
        t.part.call =
          { s.part.call with
            conn := none, deferred := kept
            ctr := { s.part.call.ctr with recallsStale := bump s.part.call.ctr.recallsStale } } ∧
        t.part.fwd = (s.part.fwd.without it).giveBack it.buf ∧ Unchanged [.fwd, .call] s t) ∧
     (parseVerdict b.payload = some .accept → s.turnOpen →
      ∃ t, exec .recallAnswerReceived s = .next t ∧
        s.handsOver { s.part.call with deferred := kept }
          { c with position := c.request.start s.part, count := 0, sent := 0 } (c.request.start s.part) c.request.maximum 1 t ∧
        Unchanged [.branch, .fwd, .call, .jrn, .memory] s t)))

/-- RECALL_TIMER_EXPIRY of an open call in WAITING RECALL ends it RECALL TIMEOUT and counts it. DEFERRED_LIFETIME_EXPIRY
of a WAITING entry removes it and counts one deferred entry expired. DEFERRED_RECALL_RETRY of a WAITING entry whose
generation is now held queues its RECALL at the tail of the TILL class queue and makes the entry RECALL QUEUED; where no
buffer is had the entry stays WAITING. -/
def Obligations.CallTimersRunOut : Prop :=
  (∀ (s : State) (e : OpenCall), s.supply.takesEvents = true → s.part.call.opens = [e] → e.state = .waitingRecall →
    e.recallTimer = true →
    ∃ t, exec (.recallTimerExpiry e.tag) s = .next t ∧
      t.part.call.ctr.recallTimeout = bump s.part.call.ctr.recallTimeout ∧ t.part.call.conn = s.part.call.conn ∧
      Unchanged turnPieces s t) ∧
  (∀ (s : State) (d : Deferred), s.supply.takesEvents = true → s.part.call.deferred = [d] → d.state = .waiting →
    d.lifetime = true →
    (∃ t, exec (.deferredLifetimeExpiry d.recallTag) s = .next t ∧
      t.part.call =
        { s.part.call with
          deferred := [], ctr := { s.part.call.ctr with deferredExpired := bump s.part.call.ctr.deferredExpired } } ∧
      Unchanged [.call] s t) ∧
    (∀ g first count, d.request = .fetch g first count → s.part.holds g = true →
      (8 < s.part.fwd.free.length →
        ∃ t q, exec (.deferredRecallRetry d.recallTag) s = .next t ∧
          t.part.call = { s.part.call with deferred := [{ d with state := .recallQueued }] } ∧
          t.part.fwd.till = s.part.fwd.till ++ [q] ∧ q.owner = .recall d.recallTag ∧ q.collisions = 0 ∧
          Unchanged [.branch, .fwd, .call, .memory] s t) ∧
      (s.part.fwd.free = [] →
        ∃ t, exec (.deferredRecallRetry d.recallTag) s = .next t ∧ Unchanged [.fwd] s t)))

/-! ### presence, peers and joining -/

/-- CONFIG_READ_DONE in CONFIG: a block that passes is handed to the other blocks (the route table as R55 gives, the
trunk line DOWN or ABSENT by its fitted mark), the framer goes into internal loop and SELF TEST is entered; a block that
fails leaves no field in use and enters CONFIG FAULT. -/
def Obligations.ConfigurationDecides : Prop :=
  ∀ (s : State) (block : Bytes), s.supply.takesEvents = true → s.part.pres.joining = .config →
    (∀ c, parseConfig block = some c →
      ∃ t, exec (.configReadDone block) s = .next t ∧ t.part.cfg = some c ∧
        t.part.pres = { s.part.pres with joining := .selfTest } ∧ t.part.branch = { s.part.branch with loop := true } ∧
        t.part.trk = { s.part.trk with line := if c.trunkFitted = true then .down else .absent } ∧
        t.part.fwd = { s.part.fwd with routes := Vector.ofFn fun i => initialRoute c i.val } ∧
        Unchanged [.cfg, .pres, .branch, .trk, .fwd] s t) ∧
    (parseConfig block = none →
      ∃ t, exec (.configReadDone block) s = .next t ∧ t.part.pres = { s.part.pres with joining := .configFault } ∧
        Unchanged [.pres] s t)

/-- In SELF TEST with the framer in internal loop, LOOP_TEST_RESULT ends the loop and enters MEMORY; the line fault mark
is clear where the looped bits, read as a receiver reads them, are a frame closed by its flag with no bit left over, a
good CRC and the body sent, and set otherwise. The test frame read back bit by bit as the framer builds it leaves the
mark clear. LOOP_TEST_TIMEOUT sets it. The store header read is asked. -/
def Obligations.SelfTestEndsInMemory : Prop :=
  ∀ s : State, s.supply.takesEvents = true → s.part.pres.joining = .selfTest → s.part.branch.loop = true →
    (∀ (front frame : List Bool),
      ∃ t, exec (.loopTestResult front frame) s = .next t ∧ t.part.branch = { s.part.branch with loop := false } ∧
        t.part.pres =
          { s.part.pres with
            joining := .memory
            lineFault :=
              (match loopedBody front frame with
               | some body => !(crcGood body && decide (body = s.part.testFrame))
               | none => true) } ∧
        (t.awaits .memory .headerRead) ∧
        Unchanged [.branch, .pres] s t) ∧
    (∀ c n,
      ∃ t,
        exec (.loopTestResult (false :: headerBits c n)
          (frameBits (plainBody s.part.ownStation.val 0x01 ((List.range 16).map (BitVec.ofNat 8))))) s = .next t ∧
        t.part.pres.joining = .memory ∧ t.part.pres.lineFault = false) ∧
    (∃ t, exec .loopTestTimeout s = .next t ∧ t.part.branch = { s.part.branch with loop := false } ∧
      t.part.pres = { s.part.pres with joining := .memory, lineFault := true } ∧
      (t.awaits .memory .headerRead) ∧
      Unchanged [.branch, .pres] s t)

/-- HEADER_READ_DONE in MEMORY. A header that fails makes the start cold: the cold-started mark is set, the banks, the
journal, the label table and the staging map are made empty, no other byte of memory changes, and a header write of the
cold values is asked behind the bursts that clear them. A valid header with an EMPTY staging makes it warm: the pricing
unit takes the active bank, the journal its release sequence, the scan begins at the sequence after it, and JOURNAL SCAN
is entered; no byte of memory changes. (That an emptied byte reads 0, and next sequence in step with release during the
scan, are the model's choices, assumptions 11 and 31.) -/
def Obligations.HeaderDecidesTheStart : Prop :=
  ∀ (s : State) (bs : Bytes), s.supply.takesEvents = true → s.part.pres.joining = .memory → s.part.hdr.readData = some bs →
    s.part.hdr.inFlight = none →
    (parseHeader bs = none →
      ∃ t, exec .headerReadDone s = .next t ∧ t.part.pres = { s.part.pres with coldStarted := true } ∧
        t.part.hdr =
          { s.part.hdr with
            readData := none, copy := {}, inFlight := some ({}, [.start]), finished := false } ∧
        t.part.lab = { s.part.lab with urgent := [], routine := [], tallies := {} } ∧
        (∃ x ∈ t.part.asks.price, x.user = .memory ∧ x.toks.getLast? = some .headerWrite) ∧
        (∀ a, Mem.read t.part.dram a =
          if a < 0x300000 ∨ (0x3C0000 ≤ a ∧ a < 0x3F0000) ∨ (0x3F2000 ≤ a ∧ a < 0x3F3000) then 0
          else Mem.read s.part.dram a) ∧
        Unchanged [.pres, .hdr, .lab, .memory] s t) ∧
    (∀ h, parseHeader bs = some h → h.stagingState = .empty →
      ∃ t, exec .headerReadDone s = .next t ∧ t.part.pres = { s.part.pres with joining := .journalScan } ∧
        t.part.hdr = { s.part.hdr with readData := none, copy := h } ∧
        t.part.price =
          { s.part.price with
            active := h.active, activeGen := h.activeGen, activeCount := h.activeCount
            copy := s.part.copyOf h.active h.activeCount } ∧
        t.part.jrn =
          { s.part.jrn with
            release := h.release, next := h.release + 1, commit := h.release + 1
            scan := some { stage := .reading, e := h.release + 1, marks := [], aside := [], read := 0 } } ∧
        t.part.lab = { s.part.lab with warm := .due } ∧
        Unchanged [.pres, .hdr, .price, .jrn, .lab] s t)

/-- JOURNAL_SCAN_STOP at a slot that failed sets the next and the commit sequence to the sequence expected there; with
no sale mark left it appends nothing, and with one it appends SALE ABANDON with reason POWER for that till under the
next sequence. JOURNAL_SCAN_COMPLETE, with no abandon outstanding and no append waiting, ends the scan and enters LISTEN
with its timer running, or LINE FAULT where the mark is set. (A total below 0 is written as 0 and the POWER abandon
counted when it is accepted: assumptions 44 and 47.) -/
def Obligations.ScanStopsAndCompletes : Prop :=
  ∀ (s : State) (sc : Scan), s.supply.takesEvents = true → s.part.jrn.scan = some sc →
    (sc.stage = .failed → sc.aside = [] →
      (sc.marks = [] →
        ∃ t, exec .journalScanStop s = .next t ∧
          t.part.jrn =
            { s.part.jrn with
              next := sc.e, commit := sc.e, exhausted := decide (sc.e = Config.sequenceMax), lastScan := sc.read
              scan := some { sc with stage := .abandoning, marks := [], aside := [] }
              ctr := { s.part.jrn.ctr with scanEnds := bump s.part.jrn.ctr.scanEnds } } ∧
          Unchanged [.jrn] s t) ∧
      (∀ m, sc.marks = [m] → m.port < 8 → sc.e + 1 ≤ Config.sequenceMax →
        sc.e - 1 - s.part.jrn.release < Config.ringSlots →
        ∃ t, exec .journalScanStop s = .next t ∧
          t.part.jrn =
            { s.part.jrn with
              next := sc.e + 1, commit := sc.e, exhausted := decide (sc.e + 1 = Config.sequenceMax), lastScan := sc.read
              scan := some { sc with stage := .abandoning, marks := [], aside := [] }
              queue := s.part.jrn.queue ++
                stampRecords m.port s.part.pres.clock sc.e
                  [.saleAbandon m.sale .power m.running.toNat m.tenders m.fromOpen]
              appends := s.part.jrn.appends ++ [⟨sc.e, .scan⟩]
              ctr :=
                { s.part.jrn.ctr with
                  scanEnds := bump s.part.jrn.ctr.scanEnds, powerWritten := bump s.part.jrn.ctr.powerWritten } } ∧
          Unchanged [.jrn] s t)) ∧
    (sc.stage = .abandoning → (∀ a ∈ s.part.jrn.appends, a.requester ≠ .scan) → s.part.jrn.waiting = [] →
      s.part.pres.joining = .journalScan → s.part.lab.warm = .due →
      ∃ t, exec .journalScanComplete s = .next t ∧ t.part.jrn = { s.part.jrn with scan := none } ∧
        t.part.lab = { s.part.lab with warm := .pass } ∧
        t.part.pres =
          (if s.part.pres.lineFault = true then { s.part.pres with joining := .lineFault }
           else { s.part.pres with joining := .listen, listenTimer := true }) ∧
        Unchanged [.jrn, .lab, .pres] s t)

/-- LISTEN_TIMER_EXPIRY in LISTEN enables the transmitter, enters ANNOUNCING with the presence timer running and queues
a PRESENCE to 255 in class CONTROL. PRESENCE_TIMER_TICK, where no PRESENCE stands in the CONTROL queue, queues one built
from the state as it stands, or counts one presence skipped where no buffer is had; where an earlier one stands in the
CONTROL queue and is not in contention it leaves the queue, its buffer returns to the tail of the free list, and a new
one joins the tail of the queue; where the earlier one is in contention it is marked withdrawn and none is built. The
first PRESENCE built in ANNOUNCING that is sent, or dropped at its fourth collision, ends ANNOUNCING: in READY after a
warm start where no peer shows a generation above the active one, else in SYNC, its target the highest generation shown,
absent where that is 0 or none is shown; with a target above the active generation and no staging a staging for it opens
in GAPS. A presence of a newer peer brings a READY station to SYNC and raises the target of one in SYNC, a staging for
the target replacing an EMPTY or older one, unless its staging is RECEIVING or COMPLETE for that generation or a later
one. SYNC ends in READY when the last newer peer goes ABSENT, after a warm start or a switch, and at a switch to a
generation no peer is above; a switch below that leaves it in SYNC. (The label head DOWN and the trunk line not UP, so
that neither orders nor a claim follow; a staging that goes has no deferred call, and one that finds the staging EMPTY
discards none: assumption 79.) -/
def Obligations.PresenceIsSent : Prop :=
  ∀ s : State, s.supply.takesEvents = true →
    (s.part.pres.joining = .listen → s.part.pres.listenTimer = true → s.part.branch.tx = .disabled → s.bufferFree →
      s.part.lab.headUp = false →
      ∃ t, exec .listenTimerExpiry s = .next t ∧
        t.part.pres = { s.part.pres with joining := .announcing, listenTimer := false, presenceTimer := true } ∧
        t.part.branch.tx ≠ .disabled ∧
        s.queues .control (.presence true) (plainBody 255 0x01 (presencePayload t.part.presenceData)) t ∧
        Unchanged [.pres, .branch, .fwd, .memory] s t) ∧
    (s.part.pres.presenceTimer = true → s.part.pres.joining.sendsPresence = true → s.part.trk.line ≠ .up →
      ((∀ q ∈ s.part.fwd.control, ∀ b, q.owner ≠ .presence b) → s.bufferFree →
        ∃ t, exec .presenceTimerTick s = .next t ∧
          s.queues .control (.presence (decide (s.part.pres.joining = .announcing)))
            (plainBody 255 0x01 (presencePayload s.part.presenceData)) t ∧
          Unchanged [.branch, .fwd, .memory] s t) ∧
      ((∀ q ∈ s.part.fwd.control, ∀ b, q.owner ≠ .presence b) → s.part.fwd.free = [] →
        ∃ t, exec .presenceTimerTick s = .next t ∧
          t.part.pres =
            { s.part.pres with ctr := { s.part.pres.ctr with skipped := bump s.part.pres.ctr.skipped } } ∧
          t.part.fwd = { s.part.fwd with ctr := { s.part.fwd.ctr with empty := bump s.part.fwd.ctr.empty } } ∧
          Unchanged [.pres, .fwd] s t) ∧
      (∀ before q behind b, s.part.fwd.control = before ++ q :: behind → q.owner = .presence b →
        (∀ x ∈ before ++ behind, ∀ b, x.owner ≠ .presence b) →
        (before = [] → s.part.branch.tx.inHand ≠ some .control) → s.bufferFree →
        ∃ t new, exec .presenceTimerTick s = .next t ∧ t.part.fwd.control = before ++ behind ++ [new] ∧
          new.owner = .presence (decide (s.part.pres.joining = .announcing)) ∧ new.collisions = 0 ∧
          new.withdrawn = false ∧ t.part.bufBytes new.buf = plainBody 255 0x01 (presencePayload s.part.presenceData) ∧
          t.part.fwd.free = s.part.fwd.free.drop 1 ++ [q.buf.num] ∧ Unchanged [.branch, .fwd, .memory] s t) ∧
      (∀ q rest b, s.part.fwd.control = q :: rest → q.owner = .presence b → s.part.branch.tx.inHand = some .control →
        ∃ t, exec .presenceTimerTick s = .next t ∧
          t.part.fwd = { s.part.fwd with control := { q with withdrawn := true } :: rest } ∧ Unchanged [.fwd] s t)) ∧
    (s.part.lab.headUp = false → s.part.trk.line ≠ .up →
      (∀ i c q rest, s.part.branch.tx = .sending c → s.part.fwd.queue c = q :: rest → q.owner = .presence true →
        s.part.pres.joining = .announcing →
        (i = .frameSent ∨ (i = .collision ∧ q.collisions = 3 ∧ q.withdrawn = false)) →
        (s.part.pres.coldStarted = false → s.part.branchGeneration.getD 0 ≤ s.part.price.activeGen →
          ∃ t, exec i s = .next t ∧ t.part.pres = { s.part.pres with joining := .ready } ∧
            t.part.fwd = (s.part.fwd.setQueue c rest).giveBack q.buf ∧ Unchanged [.branch, .fwd, .pres] s t) ∧
        (∀ g, g = s.part.branchGeneration.getD 0 → (s.part.pres.coldStarted = true ∨ s.part.price.activeGen < g) →
          s.part.price.switching = none →
          ((g ≤ s.part.price.activeGen ∨
              (s.part.price.staging.state ≠ .empty ∧ g ≤ s.part.price.staging.generation)) →
            ∃ t, exec i s = .next t ∧
              t.part.pres =
                { s.part.pres with joining := .sync, syncTarget := if g = 0 then none else some g } ∧
              t.part.fwd = (s.part.fwd.setQueue c rest).giveBack q.buf ∧ Unchanged [.branch, .fwd, .pres] s t) ∧
          (s.part.price.activeGen < g → s.part.price.staging = {} → s.bufferFree →
            ∃ t, exec i s = .next t ∧ t.part.pres = { s.part.pres with joining := .sync, syncTarget := some g } ∧
              t.part.price.staging.state = .gaps ∧ t.part.price.staging.generation = g ∧
              t.part.price.staging.n = none ∧ t.part.price.fetchTimer = true ∧
              t.part.hdr.copy = t.part.price.staging.toHeader s.part.hdr.copy ∧
              Unchanged [.branch, .fwd, .call, .pres, .price, .hdr, .memory] s t))) ∧
      (∀ k rest d cfg n, s.part.pres.inbox = k :: rest → k.read = some d → n = k.station → s.part.cfg = some cfg →
        n ≠ cfg.station → s.part.pres.clock.valid = true → (d.night = .claiming ∨ d.night = .standby) →
        s.part.trk.table = [] → s.part.price.activeGen < d.activeGen → s.part.price.staging.fetches = [] →
        (∀ m x, m ≠ n → s.part.shown m = some x → x.activeGen ≤ d.activeGen) →
        ((s.part.pres.joining = .ready ∨
            (s.part.pres.joining = .sync ∧ s.part.pres.syncTarget.getD 0 < d.activeGen)) →
          (s.part.price.staging.state = .empty ∨
            (s.part.price.staging.state = .receiving ∧ s.part.price.staging.generation < d.activeGen ∧
              s.part.call.deferred = [])) →
          s.part.price.switching = none → s.bufferFree →
          ∃ t, exec .presenceReceived s = .next t ∧
            t.part.pres =
              { s.part.pres with
                inbox := rest, joining := .sync, syncTarget := some d.activeGen
                peers := s.part.pres.peers.set n.val { state := .present, last := some d, silence := true }
                ctr := { s.part.pres.ctr with taken := bump s.part.pres.ctr.taken } } ∧
            t.part.price.staging.state = .gaps ∧ t.part.price.staging.generation = d.activeGen ∧
            t.part.price.staging.n = none ∧ t.part.price.fetchTimer = true ∧
            t.part.price.ctr =
              (if s.part.price.staging.state = .empty then s.part.price.ctr
               else { s.part.price.ctr with sync := bump s.part.price.ctr.sync }) ∧
            t.part.hdr.copy = t.part.price.staging.toHeader s.part.hdr.copy ∧
            Unchanged [.branch, .fwd, .call, .pres, .price, .hdr, .memory] s t) ∧
        (s.part.pres.joining = .ready →
          (s.part.price.staging.state = .receiving ∨ s.part.price.staging.state = .complete) →
          d.activeGen ≤ s.part.price.staging.generation →
          ∃ t, exec .presenceReceived s = .next t ∧
            t.part.pres =
              { s.part.pres with
                inbox := rest
                peers := s.part.pres.peers.set n.val { state := .present, last := some d, silence := true }
                ctr := { s.part.pres.ctr with taken := bump s.part.pres.ctr.taken } } ∧
            Unchanged [.fwd, .pres, .price] s t)) ∧
      (s.part.pres.joining = .sync →
        (∀ n cfg, s.part.cfg = some cfg → (s.part.peer n).state = .present → (s.part.peer n).silence = true →
          s.part.trk.holder = none → s.part.price.staging.state = .empty →
          (s.part.pres.coldStarted = false ∨ s.part.pres.switched = true) →
          (∀ m x, m ≠ n → s.part.shown m = some x → x.activeGen ≤ s.part.price.activeGen) →
          ∃ t, exec (.peerSilenceExpiry n) s = .next t ∧
            t.part.pres =
              { s.part.pres with
                joining := .ready, syncTarget := none
                peers := s.part.pres.peers.set n.val { s.part.peer n with state := .absent, silence := false }
                ctr := { s.part.pres.ctr with peersLost := bump s.part.pres.ctr.peersLost } } ∧
            Unchanged [.fwd, .pres, .price] s t) ∧
        (∀ h holds g n, s.part.hdr.inFlight = some (h, [.pricing]) → s.part.hdr.finished = true →
          s.part.hdr.waiting = [] → s.part.price.switching = some holds → g = s.part.price.staging.generation →
          s.part.price.staging.n = some n → s.part.price.events = [] → s.part.price.syncWaits = none →
          s.part.jrn.scan = none → s.part.jrn.accepts [.priceActivated g s.part.price.activeGen n holds] = true →
          s.part.lab.warm = .none → (∀ i, i < 4096 → s.part.labelAt i = none) →
          (s.part.branchGeneration.getD 0 ≤ g →
            ∃ t, exec .headerWriteDone s = .next t ∧
              t.part.pres = { s.part.pres with joining := .ready, syncTarget := none, switched := true } ∧
              t.part.price.activeGen = g ∧ Unchanged [.price, .hdr, .pres, .lab, .jrn, .memory] s t) ∧
          (g < s.part.branchGeneration.getD 0 → s.part.pres.syncTarget = s.part.branchGeneration →
            ∃ t, exec .headerWriteDone s = .next t ∧ t.part.pres = { s.part.pres with switched := true } ∧
              t.part.price.activeGen = g ∧ Unchanged [.price, .hdr, .pres, .lab, .jrn, .memory] s t))))

/-- PRESENCE_RECEIVED takes the oldest kept PRESENCE: one that fails the checks of R50 is counted malformed; one with
the own number in LISTEN ends in DUPLICATE, and in READY sets the duplicate-seen mark; one of another station in LISTEN
stores its contents, makes the entry PRESENT with its silence timer running and puts its /24 into the route table, and
where it carries a valid time and the clock is not valid the clock takes that time. PEER_SILENCE_EXPIRY of a PRESENT
entry makes it ABSENT, keeps its contents, stops its timer, counts one peer lost and takes its /24 out of the table.
(With no staging, no sweep of the clock into the night window, and a night state that moves no claim.) -/
def Obligations.PeersComeAndGo : Prop :=
  (∀ (s : State) (k : KeptPresence) (rest : List KeptPresence), s.supply.takesEvents = true →
    s.part.pres.inbox = k :: rest →
    (k.read = none →
      ∃ t, exec .presenceReceived s = .next t ∧
        t.part.pres =
          { s.part.pres with
            inbox := rest, ctr := { s.part.pres.ctr with malformed := bump s.part.pres.ctr.malformed } } ∧
        Unchanged [.pres] s t) ∧
    (∀ d, k.read = some d → k.station = s.part.ownStation →
      (s.part.pres.joining = .listen ∨ s.part.pres.joining = .ready) →
      ∃ t, exec .presenceReceived s = .next t ∧
        t.part.pres =
          { s.part.pres with
            inbox := rest
            joining := if s.part.pres.joining = .listen then .duplicate else .ready
            listenTimer := if s.part.pres.joining = .listen then false else s.part.pres.listenTimer
            dupSeen := if s.part.pres.joining = .ready then true else s.part.pres.dupSeen
            ctr :=
              { s.part.pres.ctr with
                taken := bump s.part.pres.ctr.taken, ownHeard := bump s.part.pres.ctr.ownHeard } } ∧
        Unchanged [.pres] s t) ∧
    (∀ d c, k.read = some d → s.part.cfg = some c → k.station ≠ c.station → s.part.pres.joining = .listen →
      (d.night = .claiming ∨ d.night = .standby) → s.part.trk.table = [] → s.part.price.staging.state = .empty →
      ∃ t, exec .presenceReceived s = .next t ∧
        t.part.peer k.station = { state := .present, last := some d, silence := true } ∧
        (∀ m, m ≠ k.station → t.part.peer m = s.part.peer m) ∧
        t.part.pres.inbox = rest ∧ t.part.pres.joining = .listen ∧
        t.part.fwd.routes[10 + k.station.val] = ⟨stationBlock c k.station, 24, .station k.station, .learned, true⟩ ∧
        (s.part.pres.clock.valid = true →
          t.part.pres.clock = s.part.pres.clock ∧
            t.part.pres.ctr = { s.part.pres.ctr with taken := bump s.part.pres.ctr.taken } ∧ Unchanged [.pres, .fwd, .price] s t) ∧
        (s.part.pres.clock.valid = false → d.timeValid = true → d.minute ≤ 1439 → d.second ≤ 59 →
          t.part.pres.clock = ⟨true, d.day, d.minute, d.second⟩))) ∧
  (∀ (s : State) (n : StationNo) (c : ConfigBlock), s.supply.takesEvents = true → s.part.cfg = some c →
    (s.part.peer n).state = .present → (s.part.peer n).silence = true → s.part.pres.joining ≠ .sync →
    s.part.trk.holder = none → s.part.price.staging.state = .empty →
    ∃ t, exec (.peerSilenceExpiry n) s = .next t ∧
      t.part.pres =
        { s.part.pres with
          peers := s.part.pres.peers.set n.val { s.part.peer n with state := .absent, silence := false }
          ctr := { s.part.pres.ctr with peersLost := bump s.part.pres.ctr.peersLost } } ∧
      (t.part.fwd.routes[10 + n.val]).valid = false ∧ Unchanged [.pres, .fwd, .price] s t)

/-- CLOCK_TICK with the clock valid adds one second, second 59 giving way to the next minute, minute 1,439 to the next
day and day 65,535 to day 0; while the clock is not valid it changes nothing. Every change of minute, that of a day too,
makes the hold sweep due (a mark that HOLD_SWEEP takes: assumption 24). (Outside the night window, before and after, and
with no trigger armed.) -/
def Obligations.ClockAdvances : Prop :=
  ∀ s : State, s.supply.takesEvents = true →
    (s.part.pres.clock.valid = false → ∃ t, exec .clockTick s = .next t ∧ Unchanged [] s t) ∧
    (∀ c, c = s.part.pres.clock → c.valid = true → s.part.nightNow = none →
      (s.part.modPres fun x => { x with clock := x.clock.advance }).nightNow = none → s.part.price.trigger = .disarmed →
      ∃ t, exec .clockTick s = .next t ∧ t.part.pres = { s.part.pres with clock := t.part.pres.clock } ∧
        (c.second < 59 → t.part.pres.clock = { c with second := c.second + 1 } ∧ t.part.price = s.part.price) ∧
        (c.second = 59 → c.minute < 1439 →
          t.part.pres.clock = { c with second := 0, minute := c.minute + 1 } ∧
            t.part.price = { s.part.price with sweepDue := true }) ∧
        (c.second = 59 → c.minute = 1439 → c.day < 65535 →
          t.part.pres.clock = { c with second := 0, minute := 0, day := c.day + 1 } ∧
            t.part.price = { s.part.price with sweepDue := true }) ∧
        (c.second = 59 → c.minute = 1439 → c.day = 65535 →
          t.part.pres.clock = { c with second := 0, minute := 0, day := 0 } ∧
            t.part.price = { s.part.price with sweepDue := true }) ∧
        Unchanged [.pres, .price] s t)

/-! ### routes, queues and the buffer pool -/

/-- A request is refused EMPTY on an empty free list, RESERVE to every user but CONTROL at 8 free buffers or fewer,
GUEST LIMIT to GUEST at a guest count of 192, RELAY LIMIT to RELAY at a relay count of 32, each counted under its cause
and nothing else changed, and the requester told the cause; otherwise it takes the head of the free list and its mark
counts. A received branch frame names CONTROL for class 0, GUEST for class 3 and OTHER for the classes between. A
returned buffer joins the tail and its mark counts no more. The guest count never passes 192. (The order of the free
list and the marks, which grant and return show too, are parts of R66 and R68.) -/
def Obligations.PoolDecidesEachRequest : Prop :=
  ∀ (f : Forwarding) (u : User),
    (f.free = [] →
      f.refusal u = some .empty ∧ f.take u = (none, { f with ctr := { f.ctr with empty := bump f.ctr.empty } })) ∧
    (f.free ≠ [] → f.free.length ≤ 8 → u ≠ .control →
      f.refusal u = some .reserve ∧
        f.take u = (none, { f with ctr := { f.ctr with reserve := bump f.ctr.reserve } })) ∧
    (8 < f.free.length → u = .guest → 192 ≤ f.guestCount →
      f.refusal u = some .guestLimit ∧
        f.take u = (none, { f with ctr := { f.ctr with guestLimit := bump f.ctr.guestLimit } })) ∧
    (8 < f.free.length → u = .relay → 32 ≤ f.relayCount →
      f.refusal u = some .relayLimit ∧
        f.take u = (none, { f with ctr := { f.ctr with relayLimit := bump f.ctr.relayLimit } })) ∧
    (∀ kind, rxUser .branch .control kind = .control ∧ rxUser .branch .guest kind = .guest ∧
      rxUser .branch .till kind = .other ∧ rxUser .branch .price kind = .other) ∧
    (∀ n rest, f.free = n :: rest →
      (u = .control ∨
        (8 < f.free.length ∧ (u = .guest → f.guestCount < 192) ∧ (u = .relay → f.relayCount < 32))) →
      f.take u =
        (some ⟨n, u.mark, 0⟩,
          { f with
            free := rest
            guestCount := if u = .guest then f.guestCount + 1 else f.guestCount
            relayCount := if u = .relay then f.relayCount + 1 else f.relayCount
            ctr := { f.ctr with lowestFree := min f.ctr.lowestFree rest.length } })) ∧
    (∀ b : Buf,
      f.giveBack b =
        { f with
          free := f.free ++ [b.num]
          guestCount := if b.mark = .guest then f.guestCount - 1 else f.guestCount
          relayCount := if b.mark = .relay then f.relayCount - 1 else f.relayCount }) ∧
    (f.guestCount ≤ 192 → (f.take u).2.guestCount ≤ 192)

/-- A lookup gives an entry that matches the address; every entry that matches has at most its prefix length, and one of
the same length stands at no lower index. It gives none only where no entry matches. -/
def Obligations.LookupGivesTheLongestPrefix : Prop :=
  ∀ (f : Forwarding) (a : Nat),
    (∀ e, f.lookup a = some e →
      ∃ i : Fin 32, f.routes[i.val] = e ∧ e.matchesAddr a = true ∧
        ∀ j : Fin 32, (f.routes[j.val]).matchesAddr a = true →
          (f.routes[j.val]).len ≤ e.len ∧ ((f.routes[j.val]).len = e.len → i ≤ j)) ∧
    (f.lookup a = none → ∀ j : Fin 32, (f.routes[j.val]).matchesAddr a = false)

/-- In a configured station, a peer notice and a change of the trunk line into or out of UP leave index 31 valid, of
length 0 and origin DEFAULT (whose discards count as NO EXIT), with the first exit of R57 that applies, read from the
PRESENT peers only: the peer notice of a PRESENCE that is taken, and of a peer gone silent, as steps. TRUNK_CARRIER_UP
makes the line UP and the default exit TRUNK, and the framer begins the head of the trunk queue where it has no frame;
where the station may claim the night in force it then queues a TRUNK CLAIM, and otherwise nothing else changes.
TRUNK_CARRIER_LOSS makes the line DOWN, counts one carrier loss and takes the PACKETs not begun out of the trunk queue,
one NO EXIT discard each; what is queued for other lines stays. Outside a session the EXCHANGE frames stay too; in a
session it ends FAILED, the EXCHANGE frames not begun and its blocks go, and its timers stop. (The steps with a
PRESENCE: in LISTEN, with no staging and the clock valid. The framer begins the head of its queue in the step of
TRUNK_CARRIER_UP: assumption 39.) -/
def Obligations.DefaultRouteFollowsTheTrunk : Prop :=
  Origin.cause .default = .noExit ∧
  (∀ (s : State) (k : KeptPresence) (rest : List KeptPresence) (d : PresenceData) (c : ConfigBlock),
    s.supply.takesEvents = true → s.part.pres.inbox = k :: rest → k.read = some d → s.part.cfg = some c →
    k.station ≠ c.station → s.part.pres.joining = .listen → (d.night = .claiming ∨ d.night = .standby) →
    s.part.trk.table = [] → s.part.price.staging.state = .empty → s.part.pres.clock.valid = true →
    ∃ t x, exec .presenceReceived s = .next t ∧ t.part.defaultRule x ∧
      t.part.fwd.routes[31] = ⟨0, 0, x, .default, true⟩ ∧
      t.part.fwd = { s.part.fwd with routes := t.part.fwd.routes }) ∧
  (∀ (s : State) (n : StationNo), s.supply.takesEvents = true → s.part.cfg.isSome = true →
    (s.part.peer n).state = .present → (s.part.peer n).silence = true → s.part.pres.joining ≠ .sync →
    s.part.trk.holder = none → s.part.price.staging.state = .empty →
    ∃ t x, exec (.peerSilenceExpiry n) s = .next t ∧ t.part.defaultRule x ∧
      t.part.fwd.routes[31] = ⟨0, 0, x, .default, true⟩ ∧
      t.part.fwd = { s.part.fwd with routes := t.part.fwd.routes }) ∧
  (∀ s : State, s.supply.takesEvents = true → s.part.cfg.isSome = true → s.part.trunkFitted = true →
    s.part.trk.line = .down →
    ((∀ d, s.part.nightNow = some d → s.part.pres.joining.nightExchange = true →
        (s.part.trk.night = .none ∨ s.part.trk.night = .standby) → s.part.trk.holderFor d ≠ none) →
      ∃ t, exec .trunkCarrierUp s = .next t ∧ t.part.trk = { s.part.trk with line := .up } ∧
        t.part.fwd =
          { s.part.fwd with routes := s.part.fwd.routes.set 31 ⟨0, 0, .trunk, .default, true⟩ }.trunkBegins ∧
        Unchanged [.links, .trk, .fwd] s t) ∧
    (∀ d, s.part.nightNow = some d → s.part.pres.joining.nightExchange = true →
      (s.part.trk.night = .none ∨ s.part.trk.night = .standby) → s.part.trk.holderFor d = none → s.bufferFree →
      ∃ t, exec .trunkCarrierUp s = .next t ∧
        t.part.trk = { s.part.trk with line := .up, night := .claiming, nightDay := d } ∧
        s.queues .control (.claim d) (plainBody 255 kindClaim (be 2 d)) t ∧
        t.part.fwd.routes[31] = ⟨0, 0, .trunk, .default, true⟩ ∧
        t.part.fwd.exchange = s.part.fwd.trunkBegins.exchange ∧ t.part.fwd.packets = s.part.fwd.trunkBegins.packets ∧
        Unchanged [.branch, .links, .trk, .fwd, .memory] s t)) ∧
  (∀ s : State, s.supply.takesEvents = true → s.part.cfg.isSome = true → s.part.trk.line = .up →
    ∃ t, exec .trunkCarrierLoss s = .next t ∧ t.part.trk.line = .down ∧
      (∃ x, t.part.defaultRule x ∧ t.part.fwd.routes[31] = ⟨0, 0, x, .default, true⟩) ∧
      t.part.fwd.packets = s.part.fwd.packets.filter (·.begun) ∧
      t.part.fwd.ctr =
        { s.part.fwd.ctr with
          noExit := bumpBy (s.part.fwd.packets.filter fun x => !x.begun).length s.part.fwd.ctr.noExit } ∧
      t.part.fwd.guest = s.part.fwd.guest ∧ t.part.fwd.radio = s.part.fwd.radio ∧
      (s.part.trk.night ≠ .holding →
        t.part.trk =
          { s.part.trk with
            line := .down, ctr := { s.part.trk.ctr with carrierLosses := bump s.part.trk.ctr.carrierLosses } } ∧
        t.part.fwd.exchange = s.part.fwd.exchange ∧ Unchanged [.trk, .fwd] s t) ∧
      (s.part.trk.night = .holding →
        t.part.trk =
          { s.part.trk with
            line := .down, night := .failed, logonTimer := false, ackTimer := false, downloadTimer := false
            sessionTimer := false, owed := [], own := .idle, turn := none, blocks := []
            pull := t.part.trk.pull
            table := s.part.trk.table.map fun e => { e with openBlock := none }
            ctr :=
              { s.part.trk.ctr with
                carrierLosses := bump s.part.trk.ctr.carrierLosses
                failedCarrier := bump s.part.trk.ctr.failedCarrier } } ∧
        t.part.fwd.exchange = s.part.fwd.exchange.filter (·.begun) ∧ Unchanged [.call, .trk, .fwd] s t))

/-- PACKET_RECEIVED while the trunk line is UP, and DATAGRAM_RECEIVED of a whole packet with hop count 0 or 1: both
addresses in the guest block discard it ISOLATED; an entry of exit DISCARD discards it under the cause of its origin; an
entry of exit STATION n, n neither the own station nor, for a DATAGRAM, one it came from, queues a DATAGRAM to n in the
same buffer at the tail of the GUEST class queue (hop count 0 from the trunk, hop count 1 with the header's station as
origin from a DATAGRAM of hop count 0), or discards it OVERSIZE beyond 1,024 bytes; n the own station or one it came
from, and any STATION exit of a DATAGRAM of hop count 1, discards it NO EXIT. A PACKET or DATAGRAM whose entry is TRUNK
joins the PACKET part of the trunk queue while the line is UP, and a DATAGRAM is discarded NO EXIT otherwise. (The exit
LOCAL GUEST stands in GuestsAreAdmittedAndPoliced.) A PACKET taken while the line is not UP is discarded NO EXIT, and a
DATAGRAM of bad form MALFORMED. The frame leaves the WAITING frames, and those behind it are dispatched. (A PACKET that
is no whole packet is routed by the bytes it has: assumption 34. The head of the trunk queue is begun at once:
assumption 39.) -/
def Obligations.PacketsAreRouted : Prop :=
  (∀ (s : State) (it : RxItem) (b : Bytes) (p : Part), s.supply.takesEvents = true →
    s.part.engineFrame .trunk = some (it, b) → fieldAt b 0 1 = 1 → it.buf.num < Config.poolSize →
    p = s.part.engineTakes it →
    (s.part.trk.line ≠ .up →
      ∃ t, exec .packetReceived s = .next t ∧
        t.part.fwd = { (p.fwd.giveBack it.buf) with ctr := { s.part.fwd.ctr with noExit := bump s.part.fwd.ctr.noExit } } ∧
        t.part.price = p.price ∧ Unchanged [.fwd, .price] s t) ∧
    (s.part.trk.line = .up →
      s.part.inGuestBlock (packetDest (b.drop 1)) = true → s.part.inGuestBlock (packetSource (b.drop 1)) = true →
      ∃ t, exec .packetReceived s = .next t ∧
        t.part.fwd =
          { (p.fwd.giveBack it.buf) with ctr := { s.part.fwd.ctr with isolated := bump s.part.fwd.ctr.isolated } } ∧
        t.part.price = p.price ∧ Unchanged [.fwd, .price] s t) ∧
    (∀ e, s.part.trk.line = .up →
      ¬ (s.part.inGuestBlock (packetDest (b.drop 1)) = true ∧ s.part.inGuestBlock (packetSource (b.drop 1)) = true) →
      s.part.fwd.lookup (packetDest (b.drop 1)) = some e →
      (e.exit = .discard →
        ∃ t, exec .packetReceived s = .next t ∧
          t.part.fwd = { (p.fwd.giveBack it.buf) with ctr := e.origin.cause.count s.part.fwd.ctr } ∧
          t.part.price = p.price ∧ Unchanged [.fwd, .price] s t) ∧
      (e.exit = .trunk → s.part.fwd.exchange = [] → s.part.fwd.packets = [] →
        ∃ t x, exec .packetReceived s = .next t ∧ t.part.fwd.packets = [⟨x, .packet, true⟩] ∧ x.num = it.buf.num ∧
          t.part.bufBytes x = 1 :: b.drop 1 ∧ t.part.fwd.free = s.part.fwd.free ∧ t.part.fwd.waiting = p.fwd.waiting ∧
          t.part.fwd.taken = p.fwd.taken ∧ t.part.price = p.price ∧
          t.part.fwd.ctr = { s.part.fwd.ctr with toTrunk := bump s.part.fwd.ctr.toTrunk } ∧
          Unchanged [.links, .fwd, .price, .memory] s t) ∧
      (e.exit = .station s.part.ownStation →
        ∃ t, exec .packetReceived s = .next t ∧
          t.part.fwd =
            { (p.fwd.giveBack it.buf) with ctr := { s.part.fwd.ctr with noExit := bump s.part.fwd.ctr.noExit } } ∧
          t.part.price = p.price ∧ Unchanged [.fwd, .price] s t) ∧
      (∀ n, e.exit = .station n → n ≠ s.part.ownStation →
        ((b.drop 1).length ≤ 1024 →
          ∃ t, exec .packetReceived s = .next t ∧
            s.queues .guest .datagram (plainBody n.val 0x02 (b.drop 1)) t ∧
            t.part.fwd.free = s.part.fwd.free ∧ t.part.fwd.guestCount = s.part.fwd.guestCount ∧
            t.part.fwd.waiting = p.fwd.waiting ∧ t.part.fwd.taken = p.fwd.taken ∧ t.part.price = p.price ∧
            t.part.fwd.ctr = { s.part.fwd.ctr with forwarded := bump s.part.fwd.ctr.forwarded } ∧
            Unchanged [.branch, .fwd, .price, .memory] s t) ∧
        (1024 < (b.drop 1).length →
          ∃ t, exec .packetReceived s = .next t ∧
            t.part.fwd =
              { (p.fwd.giveBack it.buf) with ctr := { s.part.fwd.ctr with oversize := bump s.part.fwd.ctr.oversize } } ∧
            t.part.price = p.price ∧ Unchanged [.fwd, .price] s t)))) ∧
  (∀ (s : State) (it : RxItem) (bs : Bytes) (b : BranchBody) (p : Part), s.supply.takesEvents = true →
    s.part.engineFrame .branch = some (it, bs) → b = parseBody bs → b.kind = 0x02 → it.buf.num < Config.poolSize →
    p = s.part.engineTakes it →
    ((b.datagramOrigin = none ∨ wholePacket b.payload = false) →
      ∃ t, exec .datagramReceived s = .next t ∧
        t.part.fwd =
          { (p.fwd.giveBack it.buf) with ctr := { s.part.fwd.ctr with malformed := bump s.part.fwd.ctr.malformed } } ∧
        t.part.price = p.price ∧ Unchanged [.fwd, .price] s t) ∧
    (∀ o, b.datagramOrigin = some o → wholePacket b.payload = true →
      (s.part.inGuestBlock (packetDest b.payload) = true → s.part.inGuestBlock (packetSource b.payload) = true →
        ∃ t, exec .datagramReceived s = .next t ∧
          t.part.fwd =
            { (p.fwd.giveBack it.buf) with ctr := { s.part.fwd.ctr with isolated := bump s.part.fwd.ctr.isolated } } ∧
          t.part.price = p.price ∧ Unchanged [.fwd, .price] s t) ∧
      (∀ e, ¬ (s.part.inGuestBlock (packetDest b.payload) = true ∧ s.part.inGuestBlock (packetSource b.payload) = true) →
        s.part.fwd.lookup (packetDest b.payload) = some e →
        (e.exit = .discard →
          ∃ t, exec .datagramReceived s = .next t ∧
            t.part.fwd = { (p.fwd.giveBack it.buf) with ctr := e.origin.cause.count s.part.fwd.ctr } ∧
            t.part.price = p.price ∧ Unchanged [.fwd, .price] s t) ∧
        (e.exit = .trunk → s.part.trk.line ≠ .up →
          ∃ t, exec .datagramReceived s = .next t ∧
            t.part.fwd =
              { (p.fwd.giveBack it.buf) with ctr := { s.part.fwd.ctr with noExit := bump s.part.fwd.ctr.noExit } } ∧
            t.part.price = p.price ∧ Unchanged [.fwd, .price] s t) ∧
        (e.exit = .trunk → s.part.trk.line = .up → s.part.fwd.exchange = [] → s.part.fwd.packets = [] →
          ∃ t x, exec .datagramReceived s = .next t ∧ t.part.fwd.packets = [⟨x, .packet, true⟩] ∧ x.num = it.buf.num ∧
            t.part.bufBytes x = 1 :: b.payload ∧ t.part.fwd.free = s.part.fwd.free ∧
            t.part.fwd.ctr = { s.part.fwd.ctr with toTrunk := bump s.part.fwd.ctr.toTrunk } ∧
            Unchanged [.links, .fwd, .price, .memory] s t) ∧
        (∀ n, e.exit = .station n →
          ((n = s.part.ownStation ∨ n = it.station ∨ o ≠ none) →
            ∃ t, exec .datagramReceived s = .next t ∧
              t.part.fwd =
                { (p.fwd.giveBack it.buf) with ctr := { s.part.fwd.ctr with noExit := bump s.part.fwd.ctr.noExit } } ∧
              t.part.price = p.price ∧ Unchanged [.fwd, .price] s t) ∧
          (n ≠ s.part.ownStation → n ≠ it.station → o = none →
            (1024 < b.payload.length →
              ∃ t, exec .datagramReceived s = .next t ∧
                t.part.fwd =
                  { (p.fwd.giveBack it.buf) with
                    ctr := { s.part.fwd.ctr with oversize := bump s.part.fwd.ctr.oversize } } ∧
                t.part.price = p.price ∧ Unchanged [.fwd, .price] s t) ∧
            (b.payload.length ≤ 1024 →
              ∃ t, exec .datagramReceived s = .next t ∧
                s.queues .guest .datagram
                  (BitVec.ofNat 8 n.val :: 0x82#8 :: originByte it.station :: 1 :: b.payload) t ∧
                t.part.fwd.free = s.part.fwd.free ∧ t.part.fwd.waiting = p.fwd.waiting ∧ t.part.price = p.price ∧
                t.part.fwd.ctr = { s.part.fwd.ctr with forwarded := bump s.part.fwd.ctr.forwarded } ∧
                Unchanged [.branch, .fwd, .price, .memory] s t))))))

/-- LINK_FRAME_SENT for a begun PACKET of the trunk queue, for the begun head of the label link queue, and for the begun
head of the guest radio queue: the frame leaves, its buffer returns, one frame sent is counted on that line, the next
frame is begun (on the trunk while its line is UP), and the order whose tag the label frame carries has its report timer
started and is counted as sent. UNKNOWN_KIND returns the buffer of a branch frame of no known kind, or of one with a
chain that is no DATAGRAM, and counts it. The frame waiting behind it is dispatched: to its block, TAKEN; to the pricing
unit's inbox; or it stays for the engine. (The next frame of a queue is begun at once: assumption 39.) -/
def Obligations.LinkFrameSentAndUnknownKind : Prop :=
  (∀ (s : State) (x : TFrame) (rest : List TFrame) (f : Forwarding), s.supply.takesEvents = true →
    s.part.fwd.exchange = [] → s.part.fwd.packets = x :: rest → x.begun = true → (∀ y ∈ rest, y.begun = false) →
    x.what = .packet → f = { s.part.fwd with packets := rest }.giveBack x.buf →
    ∃ t, exec (.linkFrameSent .trunk) s = .next t ∧
      t.part.fwd = (if s.part.trk.line = .up then f.trunkBegins else f) ∧
      t.part.trunkFramer =
        { s.part.trunkFramer with
          ctr := { s.part.trunkFramer.ctr with sent := bump s.part.trunkFramer.ctr.sent } } ∧
      Unchanged [.links, .fwd, .trunkFramer] s t) ∧
  (∀ (s : State) (x : LFrame) (rest : List LFrame), s.supply.takesEvents = true → x.begun = true →
    (s.part.fwd.labels = x :: rest →
      ∃ t, exec (.linkFrameSent .label) s = .next t ∧
        t.part.fwd = { s.part.fwd with labels := beginHead rest }.giveBack x.buf ∧
        t.part.labelFramer =
          { s.part.labelFramer with
            ctr := { s.part.labelFramer.ctr with sent := bump s.part.labelFramer.ctr.sent } } ∧
        (∀ o, s.part.lab.window = [o] → o.tag = x.tag →
          t.part.lab =
            { s.part.lab with
              window := [{ o with sentNotice := true }]
              ctr := { s.part.lab.ctr with ordersSent := bump s.part.lab.ctr.ordersSent } }) ∧
        Unchanged [.links, .fwd, .labelFramer, .lab] s t) ∧
    (s.part.fwd.radio = x :: rest →
      ∃ t, exec (.linkFrameSent .guest) s = .next t ∧
        t.part.fwd = { s.part.fwd with radio := beginHead rest }.giveBack x.buf ∧
        t.part.guestFramer =
          { s.part.guestFramer with
            ctr := { s.part.guestFramer.ctr with sent := bump s.part.guestFramer.ctr.sent } } ∧
        Unchanged [.links, .fwd, .guestFramer] s t)) ∧
  (∀ (s : State) (it y : RxItem), s.supply.takesEvents = true → it.line = .branch → it.buf.num ≠ y.buf.num →
    (knownKind (parseBody (s.part.bufBytes it.buf)).kind = false ∨
      ((parseBody (s.part.bufBytes it.buf)).chained = true ∧ (parseBody (s.part.bufBytes it.buf)).kind ≠ 0x02)) →
    (s.part.fwd.waiting = [it] →
      ∃ t, exec .unknownKind s = .next t ∧
        t.part.fwd =
          { ({ s.part.fwd with waiting := [] }.giveBack it.buf) with
            ctr := { s.part.fwd.ctr with unknownKind := bump s.part.fwd.ctr.unknownKind } } ∧
        Unchanged [.fwd] s t) ∧
    (s.part.fwd.waiting = [it, y] →
      (goesTo y.line (s.part.bufBytes y.buf) = .engine →
        ∃ t, exec .unknownKind s = .next t ∧ t.part.fwd.waiting = [y] ∧ t.part.fwd.taken = s.part.fwd.taken ∧
          Unchanged [.fwd] s t) ∧
      (∀ d, goesTo y.line (s.part.bufBytes y.buf) = .block d →
        ∃ t, exec .unknownKind s = .next t ∧ t.part.fwd.waiting = [] ∧ t.part.fwd.taken = s.part.fwd.taken ++ [(d, y)] ∧
          Unchanged [.fwd] s t) ∧
      (goesTo y.line (s.part.bufBytes y.buf) = .pricing →
        ∃ t, exec .unknownKind s = .next t ∧ t.part.fwd.waiting = [] ∧ t.part.fwd.taken = s.part.fwd.taken ∧
          t.part.price = { s.part.price with inbox := s.part.price.inbox ++ [.frame y] } ∧
          Unchanged [.fwd, .price] s t)))

/-! ### price banks and price arithmetic -/

/-- The effective price of an entry is its base price for promotion kind NONE (0) or MULTIBUY (2); for PERCENT (1) with
value d it is P less P × d / 100 rounded half up, and 1 where P is at least 1 and that is 0. With d of 1 to 90 it is
never above P; it lies between 1 and 9,999,999 when P does, and is 0 when P is 0. -/
def Obligations.EffectivePrice : Prop :=
  ∀ e : BankEntry,
    ((e.promo = 0 ∨ e.promo = 2) → e.effective = e.p) ∧
    (e.promo = 1 →
      (1 ≤ e.p → e.p - (2 * (e.p * e.value) + 100) / 200 = 0 → e.effective = 1) ∧
      ((e.p = 0 ∨ e.p - (2 * (e.p * e.value) + 100) / 200 ≠ 0) →
        e.effective = e.p - (2 * (e.p * e.value) + 100) / 200)) ∧
    ((e.promo = 0 ∨ e.promo = 2 ∨ (e.promo = 1 ∧ 1 ≤ e.value ∧ e.value ≤ 90)) → e.p ≤ 9999999 →
      e.effective ≤ e.p ∧ (1 ≤ e.p → 1 ≤ e.effective ∧ e.effective ≤ 9999999) ∧ (e.p = 0 → e.effective = 0))

/-- The charged price is the lower of effective and held price with HOLD set, the effective price otherwise. A quantity
outside 1 to 999 (EACH) or 1 to 99,999 (the others) is BAD REQUEST; an amount above 99,999,999 is OVER LIMIT; the amount
is E′ × q, or that over 1,000 rounded half up. The group discount counts the groups completed and is at most the running
total. The reversal of a voided line drops the groups its quantity completed, newest first: groups taken from a record
earn what its discount exceeds the discount that is left, a record left with none goes, and their sum is the reversal;
the tally entry of the line's item takes the count and records left, and goes at count 0; a line not tallied has none. A
label shows the main price (of a measured item for the 1,000 or 100 its reference names), the unit price of an EACH item
with a pack content and a reference, and the promotion mark, each as OVER above 999,999. -/
def Obligations.ChargedPriceAndAmounts : Prop :=
  (∀ e : BankEntry,
    (e.hold = true → e.charged = min e.effective e.held) ∧ (e.hold = false → e.charged = e.effective) ∧
    (∀ q : Nat,
      ((q = 0 ∨ (e.kind = 0 ∧ 999 < q) ∨ (e.kind ≠ 0 ∧ 99999 < q)) → e.lineAmount q = .badRequest) ∧
      (e.kind = 0 → 1 ≤ q → q ≤ 999 →
        e.lineAmount q =
          if 99999999 < e.charged * q then .overLimit e.charged else .amount e.charged (e.charged * q)) ∧
      (e.kind ≠ 0 → 1 ≤ q → q ≤ 99999 →
        e.lineAmount q =
          if 99999999 < (2 * (e.charged * q) + 1000) / 2000 then .overLimit e.charged
          else .amount e.charged ((2 * (e.charged * q) + 1000) / 2000))) ∧
    (∀ n m told q total : Nat, 2 ≤ n →
      (groupDiscount n m e.charged told q total).count = told + q ∧
        (groupDiscount n m e.charged told q total).g = (told + q) / n - told / n ∧
        (groupDiscount n m e.charged told q total).v = n * e.charged - m ∧
        (groupDiscount n m e.charged told q total).d =
          min (((told + q) / n - told / n) * (n * e.charged - m)) total) ∧
    (∀ x, x = (if e.kind ≠ 0 ∧ e.ref = 1 then (2 * (e.effective * 1000) + 1000) / 2000
          else if e.kind ≠ 0 ∧ e.ref = 2 then (2 * (e.effective * 100) + 1000) / 2000 else e.effective) →
      (x ≤ 999999 → e.stage5.1 = .value x) ∧ (999999 < x → e.stage5.1 = .over)) ∧
    ((e.kind ≠ 0 ∨ e.c = 0 ∨ e.ref = 0) → e.stage5.2.1 = .none) ∧
    (∀ r u, ((e.ref = 1 ∧ r = 1000) ∨ (e.ref = 2 ∧ r = 100) ∨ (e.ref = 3 ∧ r = 1)) → e.kind = 0 → 1 ≤ e.c →
      u = (2 * (e.effective * r) + e.c) / (2 * e.c) →
      (u ≤ 999999 → e.stage5.2.1 = .value u) ∧ (999999 < u → e.stage5.2.1 = .over)) ∧
    ((e.promo ≠ 1 ∧ e.promo ≠ 2) → e.stage5.2.2 = .none) ∧
    (e.promo = 1 →
      (e.p ≤ 999999 → e.stage5.2.2 = .was (.value e.p)) ∧ (999999 < e.p → e.stage5.2.2 = .was .over)) ∧
    (e.promo = 2 →
      (e.m ≤ 999999 → e.stage5.2.2 = .nFor e.value (.value e.m)) ∧
        (999999 < e.m → e.stage5.2.2 = .nFor e.value .over))) ∧
  (∀ (t : TallyEntry) (q : Nat),
    (reversal t q).k = t.count / t.n - (t.count - q) / t.n ∧
      (reversal t q).r = (takeGroups (reversal t q).k t.groups.reverse).1 ∧
      (reversal t q).entry =
        { t with count := t.count - q, groups := (takeGroups (reversal t q).k t.groups.reverse).2.reverse }) ∧
  (∀ l : List GroupRecord, takeGroups 0 l = (0, l)) ∧ (∀ k : Nat, takeGroups k [] = (0, [])) ∧
  (∀ (k g v d : Nat) (rest : List GroupRecord), 1 ≤ k →
    (k < g →
      takeGroups k (⟨g, v, d⟩ :: rest) = (d - min d ((g - k) * v), ⟨g - k, v, min d ((g - k) * v)⟩ :: rest)) ∧
    (g ≤ k →
      takeGroups k (⟨g, v, d⟩ :: rest) = (d + (takeGroups (k - g) rest).1, (takeGroups (k - g) rest).2))) ∧
  (∀ (x : Sale) (l : SaleLine),
    (l.tallied = false → x.reversalOf l = none) ∧ x.tallyVoided none = x.tally ∧
    ∀ t before behind, l.tallied = true → x.tally = before ++ t :: behind → t.item = l.item →
      (∀ u ∈ before ++ behind, u.item ≠ l.item) →
      x.reversalOf l = some (reversal t l.q) ∧
        x.tallyVoided (some (reversal t l.q)) =
          before ++ (if t.count - l.q = 0 then behind else (reversal t l.q).entry :: behind))

/-- PRICE_HEAD_RECEIVED for a generation above the active one and that of the staging, if there is one, discards that
staging, counted under NEWER HEAD, its walk stopped, its trigger disarmed and its open fetches asked to end early, and
begins one in RECEIVING with its N, its effective time and an empty map, starts the receive pause and asks the header
write; a head at or below the active generation or that of the staging, or malformed, is counted and ignored.
PRICE_PART_RECEIVED with one record of good CRC for an unmarked index below N, other indices still missing, writes the
staged entry into the inactive bank, marks its index, raises the received count and the check accumulator and changes no
other byte; a record that its clamps change is counted as clamped and staged as the table of R80 gives, one of an item
code out of range as not valid; a record of bad CRC is counted and nothing is staged; a part that does not fit the
staging is counted and ignored. The frame, oldest of what has reached the pricing unit, leaves its inbox and its buffer
returns each time. (A head or part whose payload has another length is ignored and counted: assumption 30. No completion
record stands behind the frame, and no deferred call where a staging is discarded. A head that finds the staging EMPTY
counts no discard: assumption 79. Every open fetch is asked to end early: assumption 82. A promotion clamped to NONE is
staged with value and price 0: assumption 12. A MULTIBUY on a selling kind of no code keeps its promotion: assumption
64.) -/
def Obligations.HeadsAndPartsAreStaged : Prop :=
  (∀ (s : State) (it : RxItem) (rest : List Handed) (b : BranchBody), s.supply.takesEvents = true →
    s.part.pricingTakes = true → s.part.price.inbox = .frame it :: rest → (∀ c, rest.head? ≠ some (.completion c)) →
    b = parseBody (s.part.bufBytes it.buf) → b.kind = kindPriceHead →
    (b.payload.length = 10 → 1 ≤ fieldAt b.payload 4 2 → fieldAt b.payload 4 2 ≤ 32768 → fieldAt b.payload 8 2 ≤ 1439 →
      s.part.price.activeGen < fieldAt b.payload 0 4 →
      (s.part.price.staging.state = .empty ∨
        (s.part.price.staging.generation < fieldAt b.payload 0 4 ∧ s.part.call.deferred = [])) →
      s.part.hdr.inFlight = none →
      ∃ t, exec .priceHeadReceived s = .next t ∧
        t.part.price =
          { s.part.price with
            staging :=
              { state := .receiving, generation := fieldAt b.payload 0 4, n := some (fieldAt b.payload 4 2)
                effDay := fieldAt b.payload 6 2, effMinute := fieldAt b.payload 8 2
                fetches := s.part.price.staging.fetches }
            inbox := rest, trigger := .disarmed, walk := none, recount := false, pauseTimer := true
            fetchTimer := false
            ctr :=
              if s.part.price.staging.state = .empty then s.part.price.ctr
              else { s.part.price.ctr with newerHead := bump s.part.price.ctr.newerHead } } ∧
        t.part.call =
          { s.part.call with
            opens := s.part.call.opens.map fun e =>
              if (∃ f ∈ s.part.price.staging.fetches, f.tag = e.tag) ∧ e.state ≠ .queued then { e with endEarly := true }
              else e } ∧
        t.part.hdr.copy = t.part.price.staging.toHeader s.part.hdr.copy ∧
        t.part.hdr.inFlight = some (t.part.hdr.copy, [.pricing]) ∧
        (∀ i, i < 32768 → t.part.marked i = false) ∧
        (∀ a, a < 0x3F2000 ∨ 0x3F3000 ≤ a → Mem.read t.part.dram a = Mem.read s.part.dram a) ∧
        t.part.fwd = s.part.fwd.giveBack it.buf ∧
        Unchanged [.price, .hdr, .fwd, .call, .memory] s t) ∧
    ((b.payload.length ≠ 10 ∨ fieldAt b.payload 4 2 = 0 ∨ 32768 < fieldAt b.payload 4 2 ∨
        1439 < fieldAt b.payload 8 2 ∨ fieldAt b.payload 0 4 ≤ s.part.price.activeGen ∨
        (s.part.price.staging.state ≠ .empty ∧ fieldAt b.payload 0 4 ≤ s.part.price.staging.generation)) →
      ∃ t, exec .priceHeadReceived s = .next t ∧
        t.part.price =
          { s.part.price with
            inbox := rest, ctr := { s.part.price.ctr with headsIgnored := bump s.part.price.ctr.headsIgnored } } ∧
        t.part.fwd = s.part.fwd.giveBack it.buf ∧
        Unchanged [.price, .fwd] s t)) ∧
  (∀ (s : State) (it : RxItem) (rest : List Handed) (b : BranchBody), s.supply.takesEvents = true →
    s.part.recordsTake = true → s.part.price.inbox = .frame it :: rest → (∀ c, rest.head? ≠ some (.completion c)) →
    b = parseBody (s.part.bufBytes it.buf) → b.kind = kindPricePart →
    ((fieldAt b.payload 0 4 ≠ s.part.price.staging.generation ∨
        b.payload.length ≠ 7 + 24 * fieldAt b.payload 6 1 ∨ fieldAt b.payload 6 1 = 0 ∨ 42 < fieldAt b.payload 6 1 ∨
        s.part.price.staging.state = .empty ∨ s.part.price.staging.state = .complete ∨
        s.part.price.staging.state = .activating) →
      ∃ t, exec .pricePartReceived s = .next t ∧
        t.part.price =
          { s.part.price with
            inbox := rest, ctr := { s.part.price.ctr with partsIgnored := bump s.part.price.ctr.partsIgnored } } ∧
        t.part.fwd = s.part.fwd.giveBack it.buf ∧
        Unchanged [.price, .fwd] s t) ∧
    (∀ n i bs, s.part.price.staging.generation = fieldAt b.payload 0 4 →
      (s.part.price.staging.state = .receiving ∨ s.part.price.staging.state = .gaps) →
      s.part.price.staging.n = some n → n ≤ 32768 → fieldAt b.payload 4 2 = i → i < n → fieldAt b.payload 6 1 = 1 →
      b.payload.length = 31 → bs = sub b.payload 7 24 →
      (crcGood bs = false →
        ∃ t, exec .pricePartReceived s = .next t ∧
          t.part.price =
            { s.part.price with
              inbox := rest, ctr := { s.part.price.ctr with recordsBad := bump s.part.price.ctr.recordsBad } } ∧
          t.part.fwd = s.part.fwd.giveBack it.buf ∧
          Unchanged [.price, .fwd] s t) ∧
      (∀ j e, crcGood bs = true → s.part.marked i = false → j < n → j ≠ i → s.part.marked j = false →
        e = (parsePriceRecord bs).toEntry (crcField bs 22) →
        ∃ t, exec .pricePartReceived s = .next t ∧
          t.part.price =
            { s.part.price with
              inbox := rest
              staging :=
                { s.part.price.staging with
                  received := s.part.price.staging.received + 1
                  check := (s.part.price.staging.check + e.recCrc) % 4294967296 }
              ctr :=
                if e.valid = true ∧ (parsePriceRecord bs).clamp ≠ parsePriceRecord bs then
                  { s.part.price.ctr with recordsClamped := bump s.part.price.ctr.recordsClamped }
                else s.part.price.ctr } ∧
          t.part.entryBytes s.part.inactive i = e.bytes ∧ t.part.marked i = true ∧
          (∀ k, k < 32768 → k ≠ i → t.part.marked k = s.part.marked k) ∧
          (∀ a, a < entryAddr s.part.inactive i ∨ entryAddr s.part.inactive i + 32 ≤ a → a ≠ mapByte i →
            Mem.read t.part.dram a = Mem.read s.part.dram a) ∧
          t.part.fwd = s.part.fwd.giveBack it.buf ∧
          Unchanged [.price, .fwd, .memory] s t))) ∧
  (∀ (r : PriceRecord) (crc : Nat) (e : BankEntry), e = r.toEntry crc →
    ((r.code = 0 ∨ 99999999999999 < r.code) → e.valid = false ∧ e.recCrc = crc) ∧
    (1 ≤ r.code → r.code ≤ 99999999999999 →
      e.valid = true ∧ e.code = r.code ∧ e.hold = false ∧ e.held = 0 ∧ e.count = 0 ∧ e.startKnown = false ∧
        e.p = min r.p 9999999 ∧ e.c = min r.c 99999 ∧ e.kind = (if r.kind ≤ 3 then r.kind else 0) ∧
        e.ref = (if r.ref ≤ 3 then r.ref else 0) ∧ e.recCrc = crcValue r.clamp.bytes ∧
        ((r.promo = 0 ∨ 2 < r.promo) → e.promo = 0) ∧
        (r.promo = 1 → 1 ≤ r.value → e.promo = 1 ∧ e.value = min r.value 90) ∧
        (r.promo = 1 → r.value = 0 → e.promo = 0 ∧ e.value = 0 ∧ e.m = 0) ∧
        (r.promo = 2 → 2 ≤ r.value → 1 ≤ r.m → (r.kind = 0 ∨ 3 < r.kind) →
          e.promo = 2 ∧ e.value = min r.value 9 ∧ e.m = min r.m 9999999) ∧
        (r.promo = 2 → (r.value ≤ 1 ∨ r.m = 0 ∨ (1 ≤ r.kind ∧ r.kind ≤ 3)) → e.promo = 0 ∧ e.value = 0 ∧ e.m = 0)))

/-- PRICE_END_RECEIVED for the staging's generation and N: with indices missing the staging goes to GAPS with its file
check known and the fetch timer running; with none missing it is COMPLETE with its trigger armed where the check
accumulator equals the file check, and discarded, counted under CHECK, where it does not; an N that differs discards it
under ENTRIES. The frame's buffer returns. RECEIVE_PAUSE_EXPIRY takes a staging in RECEIVING to GAPS. RECOUNT_PASS_DONE
counts the marks and sums the record CRCs of the marked entries. (With no peer on the line to fetch from, no deferred
call, no completion record behind the frame, and a trigger time not reached.) -/
def Obligations.EndDecidesTheStaging : Prop :=
  ∀ s : State, s.supply.takesEvents = true → (∀ m, s.part.shown m = none) → s.part.call.deferred = [] →
    s.part.hdr.inFlight = none →
    (∀ it rest b st n c, s.part.pricingTakes = true → s.part.price.inbox = .frame it :: rest →
      (∀ x, rest.head? ≠ some (.completion x)) → b = parseBody (s.part.bufBytes it.buf) → b.kind = kindPriceEnd →
      st = s.part.price.staging → st.state = .receiving → b.payload.length = 10 → st.generation = fieldAt b.payload 0 4 →
      n = fieldAt b.payload 4 2 → c = fieldAt b.payload 6 4 →
      (st.n = some n → s.part.mapFull n = false →
        ∃ t, exec .priceEndReceived s = .next t ∧
          t.part.price =
            { s.part.price with
              inbox := rest, staging := { st with state := .gaps, fileCheck := some c }, pauseTimer := false
              fetchTimer := true } ∧
          t.part.hdr.copy = t.part.price.staging.toHeader s.part.hdr.copy ∧
          t.part.fwd = s.part.fwd.giveBack it.buf ∧
          Unchanged [.price, .hdr, .fwd] s t) ∧
      (st.n = some n → s.part.mapFull n = true → st.check = c → s.part.triggerHolds = false →
        ∃ t, exec .priceEndReceived s = .next t ∧
          t.part.price =
            { s.part.price with
              inbox := rest, staging := { st with state := .complete, fileCheck := some c }, pauseTimer := false
              fetchTimer := false, trigger := .armed } ∧
          t.part.hdr.copy = t.part.price.staging.toHeader s.part.hdr.copy ∧
          t.part.fwd = s.part.fwd.giveBack it.buf ∧
          Unchanged [.price, .hdr, .fwd] s t) ∧
      (((st.n = some n ∧ s.part.mapFull n = true ∧ st.check ≠ c) ∨ (∃ k, st.n = some k ∧ k ≠ n)) →
        ∃ t, exec .priceEndReceived s = .next t ∧ t.part.price.staging = { fetches := st.fetches } ∧
          t.part.price.trigger = .disarmed ∧ t.part.price.walk = none ∧ t.part.price.inbox = rest ∧
          (st.n = some n →
            t.part.price.ctr = { s.part.price.ctr with check := bump s.part.price.ctr.check }) ∧
          (st.n ≠ some n →
            t.part.price.ctr = { s.part.price.ctr with entries := bump s.part.price.ctr.entries }) ∧
          t.part.hdr.copy = t.part.price.staging.toHeader s.part.hdr.copy ∧
          (∀ i, i < 32768 → t.part.marked i = false) ∧
          (∀ a, a < 0x3F2000 ∨ 0x3F3000 ≤ a → Mem.read t.part.dram a = Mem.read s.part.dram a) ∧
          t.part.fwd = s.part.fwd.giveBack it.buf ∧
          Unchanged [.price, .hdr, .fwd, .memory] s t)) ∧
    (s.part.price.pauseTimer = true → s.part.price.staging.state = .receiving →
      ∃ t, exec .receivePauseExpiry s = .next t ∧
        t.part.price =
          { s.part.price with
            staging := { s.part.price.staging with state := .gaps }, pauseTimer := false, fetchTimer := true } ∧
        t.part.hdr.copy = t.part.price.staging.toHeader s.part.hdr.copy ∧ Unchanged [.price, .hdr] s t) ∧
    (s.part.price.recount = true →
      ∃ t, exec .recountPassDone s = .next t ∧
        t.part.price =
          { s.part.price with
            recount := false
            staging :=
              { s.part.price.staging with
                received := ((List.range 32768).filter s.part.marked).length
                check :=
                  (((List.range 32768).filter s.part.marked).map fun i =>
                    (parseEntry (s.part.entryBytes s.part.inactive i)).recCrc).sum % 4294967296 } } ∧
        Unchanged [.price] s t)

/-- FETCH_TIMER_TICK in GAPS with no fetch open, N at most 336 and nothing yet marked places one PRICE FETCH for all N
indices with the next source after the last one used: the call is QUEUED under a fresh tag, its CALL stands at the tail
of the TILL class queue, and the fetch is open in the staging. FETCH_DATA_TAKEN returns the buffer each time. A DATA of
an open fetch, of the staging's N or of one not yet known (which it then gives), with one record of good CRC for an
unmarked index below N, other indices still missing, writes the staged entry into the inactive bank, marks its index,
raises the received count and the check accumulator and changes no other byte; a record of bad CRC is counted and
nothing is staged; a DATA of no open fetch stages nothing; one whose N differs from the staging's gives its source a
skip mark; and where the N it gives leaves every index below it marked, the staging is COMPLETE, its trigger armed, or
fired where its time is past. When the call of the fetch ends, by END_RECEIVED, ANSWER_RECEIVED, TURN_EXPIRY or
RECALL_TIMER_EXPIRY, the fetch leaves the open fetches, and its source gets a skip mark at COMPLETE or ENDED EARLY with
fewer records than asked and at REFUSED NO SUCH GEN or UNKNOWN KIND, and none at any other outcome or where the staging
is for another generation. (A check of the conditions of R85 reads the map, and the bursts it asks for that are no part
of the frame. Where a call ends, no source is left to fetch from. A staging whose N a DATA brings is decided after its
records: assumption 84.) -/
def Obligations.MissingRecordsAreFetched : Prop :=
  (∀ (s : State) (st : Staging) (n : Nat) (src : StationNo), s.supply.takesEvents = true → s.bufferFree →
    s.part.price.fetchTimer = true → st = s.part.price.staging → st.state = .gaps → st.fetches = [] → st.n = some n →
    1 ≤ n → n ≤ 336 → (∀ i, i < n → s.part.marked i = false) → s.part.price.recount = false →
    nextSource s.part.price.lastSource s.part.fetchSources = some src → s.part.price.inbox = [] →
    s.part.call.opens = [] → s.part.txEnabled = true →
    ∃ t, exec .fetchTimerTick s = .next t ∧
      t.part.call =
        { s.part.call with
          callTag := s.part.call.callTag + 1
          opens :=
            [{ owner := .pricing, peer := src, tag := s.part.call.callTag, request := .fetch st.generation 0 n
               state := .queued, stage := 0, received := 0, expect := none, recallTag := 0, recallTimer := false
               enough := false, endEarly := false }] } ∧
      t.part.price =
        { s.part.price with
          staging := { st with fetches := [⟨s.part.call.callTag, st.generation, 0, n, src⟩] }, lastSource := src } ∧
      s.queues .till (.call s.part.call.callTag)
        (plainBody src.val 0x08 (callPayload s.part.call.callTag (.fetch st.generation 0 n))) t ∧
      Unchanged [.branch, .fwd, .call, .price, .memory] s t) ∧
  (∀ (s : State) (buf : Buf) (peer : StationNo) (tag : Byte) (r : Request), s.supply.takesEvents = true →
    s.part.recordsTake = true → s.part.price.inbox = [.data buf peer tag r] →
    ((∀ f ∈ s.part.price.staging.fetches, f.tag ≠ tag) →
      ∃ t, exec .fetchDataTaken s = .next t ∧ t.part.price = { s.part.price with inbox := [] } ∧
        t.part.fwd = s.part.fwd.giveBack buf ∧ Unchanged [.price, .fwd] s t) ∧
    (∀ f k, s.part.price.staging.fetches = [f] → f.tag = tag → f.generation = s.part.price.staging.generation →
      s.part.price.staging.state ≠ .empty → s.part.price.staging.n = some k →
      fieldAt (parseBody (s.part.bufBytes buf)).payload 4 2 ≠ k → f.source ∉ s.part.price.staging.skips →
      ∃ t, exec .fetchDataTaken s = .next t ∧
        t.part.price =
          { s.part.price with
            inbox := []
            staging := { s.part.price.staging with skips := f.source :: s.part.price.staging.skips } } ∧
        t.part.fwd = s.part.fwd.giveBack buf ∧ Unchanged [.price, .fwd] s t) ∧
    (∀ f st b k i bs, st = s.part.price.staging → b = (parseBody (s.part.bufBytes buf)).payload → st.fetches = [f] →
      f.tag = tag → f.generation = st.generation → (st.state = .receiving ∨ st.state = .gaps) → fieldAt b 4 2 = k →
      (st.n = some k ∨ st.n = none) → k ≤ 32768 → b.length = 30 → fieldAt b 1 1 = 1 → fieldAt b 2 2 = i → i < k →
      bs = sub b 6 24 →
      (crcGood bs = false →
        (st.n = none → ∃ j, j < k ∧ s.part.marked j = false) →
        ∃ t, exec .fetchDataTaken s = .next t ∧
          t.part.price =
            { s.part.price with
              inbox := [], staging := { st with n := some k }
              ctr := { s.part.price.ctr with recordsBad := bump s.part.price.ctr.recordsBad } } ∧
          t.part.fwd = s.part.fwd.giveBack buf ∧ Unchanged [.price, .fwd] s t) ∧
      (∀ j e, crcGood bs = true → s.part.marked i = false → j < k → j ≠ i → s.part.marked j = false →
        e = (parsePriceRecord bs).toEntry (crcField bs 22) →
        ∃ t, exec .fetchDataTaken s = .next t ∧
          t.part.price =
            { s.part.price with
              inbox := []
              staging :=
                { st with n := some k, received := st.received + 1, check := (st.check + e.recCrc) % 4294967296 }
              ctr :=
                if e.valid = true ∧ (parsePriceRecord bs).clamp ≠ parsePriceRecord bs then
                  { s.part.price.ctr with recordsClamped := bump s.part.price.ctr.recordsClamped }
                else s.part.price.ctr } ∧
          t.part.entryBytes s.part.inactive i = e.bytes ∧ t.part.marked i = true ∧
          (∀ m, m < 32768 → m ≠ i → t.part.marked m = s.part.marked m) ∧
          (∀ a, a < entryAddr s.part.inactive i ∨ entryAddr s.part.inactive i + 32 ≤ a → a ≠ mapByte i →
            Mem.read t.part.dram a = Mem.read s.part.dram a) ∧
          t.part.fwd = s.part.fwd.giveBack buf ∧
          Unchanged [.price, .fwd, .memory] s t) ∧
      (crcGood bs = true → st.n = none → (∀ j, j < k → s.part.marked j = true) → st.fileCheck = none →
        s.part.call.deferred = [] → s.part.hdr.inFlight = none →
        ∃ t, exec .fetchDataTaken s = .next t ∧
          t.part.price =
            { s.part.price with
              inbox := [], staging := { st with n := some k, state := .complete }, pauseTimer := false
              fetchTimer := false, trigger := if s.part.triggerHolds = true then .fired else .armed } ∧
          t.part.hdr.copy = t.part.price.staging.toHeader s.part.hdr.copy ∧
          t.part.hdr.inFlight = some (t.part.hdr.copy, [.pricing]) ∧
          t.part.fwd = s.part.fwd.giveBack buf ∧ Unchanged [.price, .hdr, .fwd] s t))) ∧
  (∀ (s : State) (f : Fetch) (e : OpenCall), s.supply.takesEvents = true → s.part.price.staging.fetches = [f] →
    f.tag = e.tag → s.part.call.opens = [e] → e.owner = .pricing → s.part.price.inbox = [] → s.part.trk.inbox = [] →
    (∀ m, s.part.shown m = none) → f.source ∉ s.part.price.staging.skips →
    (∀ it b c x, s.part.branchFrame .calls kindEnd = some (it, b) → s.part.call.conn = some c → c.phase = .awaitData →
      c.peer = it.station → c.tag = byteAt b.payload 0 → e.tag = c.tag → b.payload.length = c.request.endLength →
      x = (if fieldAt b.payload 1 2 = e.received then (if e.enough = true then CallEnd.endedEarly else .complete)
           else .broken) →
      ∃ t, exec .endReceived s = .next t ∧ s.fetchOver f x e.received t ∧ Unchanged [.fwd, .call, .price] s t) ∧
    (∀ it b c v x, s.part.branchFrame .calls kindAnswer = some (it, b) → s.part.call.conn = some c →
      c.phase = .awaitAnswer → c.peer = it.station → c.tag = byteAt b.payload 0 → e.tag = c.tag →
      parseVerdict b.payload = some v →
      ((v = .busy ∧ x = CallEnd.busy) ∨ ∃ r, v = .refuse r ∧ x = .refused r) →
      ∃ t, exec .answerReceived s = .next t ∧ s.fetchOver f x e.received t ∧ Unchanged [.fwd, .call, .price] s t) ∧
    (∀ c x, s.part.branch.turnGap = true → s.part.call.conn = some c → e.tag = c.tag →
      ((c.phase = .awaitAnswer ∧ x = CallEnd.noAnswer) ∨ (c.phase = .awaitData ∧ x = .broken)) →
      ∃ t, exec .turnExpiry s = .next t ∧ s.fetchOver f x e.received t ∧ Unchanged [.branch, .call, .price] s t) ∧
    (e.state = .waitingRecall → e.recallTimer = true →
      ∃ t, exec (.recallTimerExpiry e.tag) s = .next t ∧ s.fetchOver f .recallTimeout e.received t ∧
        Unchanged [.call, .price] s t))

/-- ACTIVATION_TRIGGER takes a COMPLETE staging to ACTIVATING and begins the merge walk at index 0, its first step asked
at PRICE, or ends it at once, every slot cleared, where N is 0. DRAM_BURST_DONE of a step of the walk takes the staged
entry at its index: with an entry of the same item in the active bank, whose charged price lies below the staged
effective price, it is written back with HOLD set, that price held and the clock as its start where the clock is valid;
without, or with one not below, its HOLD is clear; its outstanding count is 0 each time, and the walk goes on to the
next index, or, after the last one, ends with the slots of the inactive bank from N on cleared. A staged entry that is
bad, not valid, not marked or out of order discards the staging under ORDER. MERGE_WALK_END, once the bursts of the walk
have finished, asks the header write that names the new bank, generation and count with an EMPTY staging.
HEADER_WRITE_DONE of that write makes the inactive bank the active one with its generation and count, empties the
staging and the map, counts one switch, appends PRICE ACTIVATED and begins a label walk with its count pass asked. (With
an empty label table, and the append accepted. A cleared slot and the cleared map read as 0: assumption 11. The fired
trigger is a mark that ACTIVATION_TRIGGER takes: assumption 24. The count pass is asked as an event of the pricing unit:
assumption 16.) -/
def Obligations.ActivationWalksAndSwitches : Prop :=
  ∀ s : State, s.supply.takesEvents = true →
    (s.part.price.trigger = .fired → s.part.price.staging.state = .complete → s.part.hdr.inFlight = none →
      ∃ t, exec .activationTrigger s = .next t ∧
        t.part.price =
          { s.part.price with
            staging := { s.part.price.staging with state := .activating }, pauseTimer := false, fetchTimer := false
            walk := some ⟨0, 0, 0, 0, decide (s.part.price.staging.n.getD 0 = 0)⟩ } ∧
        t.part.hdr.copy = t.part.price.staging.toHeader s.part.hdr.copy ∧
        t.part.hdr.inFlight = some (t.part.hdr.copy, [.pricing]) ∧
        (s.part.price.staging.n.getD 0 ≠ 0 → t.awaits .staging .mergeStep) ∧
        (∀ a, Mem.read t.part.dram a =
          if s.part.price.staging.n.getD 0 = 0 ∧ entryAddr s.part.inactive 0 ≤ a ∧ a < entryAddr s.part.inactive 32768 then 0
          else Mem.read s.part.dram a) ∧
        Unchanged [.price, .hdr, .memory] s t) ∧
    (∀ w, s.arb.port = some (.burst .staging .mergeStep) → s.part.price.walk = some w → w.ended = false → w.index < 32768 →
      (∀ e n cur, s.part.goodEntry s.part.inactive w.index = some e → e.valid = true → s.part.marked w.index = true →
        w.before < e.code → s.part.price.staging.n = some n → w.index < n →
        cur = s.part.cursorTo e.code s.part.price.activeCount w.cursor →
        ∃ t e', exec .dramBurstDone s = .next t ∧
          (∀ o, cur < s.part.price.activeCount → s.part.goodEntry s.part.price.active cur = some o → o.code = e.code →
            o.charged < e.effective →
            e' =
              { e with
                hold := true, held := o.charged, startKnown := s.part.pres.clock.valid, count := 0
                startDay := if s.part.pres.clock.valid = true then s.part.pres.clock.day else 0
                startMinute := if s.part.pres.clock.valid = true then s.part.pres.clock.minute else 0 }) ∧
          ((∀ o, cur < s.part.price.activeCount → s.part.goodEntry s.part.price.active cur = some o → o.code = e.code →
              e.effective ≤ o.charged) →
            e' = { e with hold := false, held := 0, startKnown := false, startDay := 0, startMinute := 0, count := 0 }) ∧
          t.part.entryBytes s.part.inactive w.index = e'.bytes ∧
          t.part.price =
            { s.part.price with
              walk := some ⟨w.index + 1, cur, e.code, w.holds + bit e'.hold, decide (n ≤ w.index + 1)⟩ } ∧
          (∀ a, a < entryAddr s.part.inactive w.index ∨ entryAddr s.part.inactive w.index + 32 ≤ a →
            Mem.read t.part.dram a =
              if n ≤ w.index + 1 ∧ entryAddr s.part.inactive n ≤ a ∧ a < entryAddr s.part.inactive 32768 then 0
              else Mem.read s.part.dram a) ∧
          (w.index + 1 < n → t.awaits .staging .mergeStep) ∧
          Unchanged [.price, .memory] s t) ∧
      ((∀ e, s.part.goodEntry s.part.inactive w.index = some e →
          e.valid = false ∨ s.part.marked w.index = false ∨ e.code ≤ w.before) →
        s.part.call.deferred = [] →
        ∃ t, exec .dramBurstDone s = .next t ∧
          t.part.price.staging = { fetches := s.part.price.staging.fetches } ∧ t.part.price.walk = none ∧
          t.part.price.trigger = .disarmed ∧
          t.part.price.ctr = { s.part.price.ctr with order := bump s.part.price.ctr.order } ∧
          t.part.hdr.copy = t.part.price.staging.toHeader s.part.hdr.copy ∧
          (∀ i, i < 32768 → t.part.marked i = false) ∧
          (∀ a, a < 0x3F2000 ∨ 0x3F3000 ≤ a → Mem.read t.part.dram a = Mem.read s.part.dram a) ∧
          Unchanged [.price, .hdr, .memory] s t)) ∧
    (∀ w n, s.part.price.walk = some w → w.ended = true → s.part.asks.idle .staging = true →
      s.part.price.staging.n = some n → s.part.hdr.inFlight = none →
      ∃ t, exec .mergeWalkEnd s = .next t ∧
        t.part.price = { s.part.price with walk := none, switching := some w.holds } ∧
        t.part.hdr.copy =
          { s.part.hdr.copy with
            active := s.part.inactive, activeGen := s.part.price.staging.generation, activeCount := n, stagingGen := 0
            stagingState := .empty, n := none, effDay := 0, effMinute := 0, fileCheck := none } ∧
        t.part.hdr.inFlight = some (t.part.hdr.copy, [.pricing]) ∧
        Unchanged [.price, .hdr] s t) ∧
    (∀ h holds g n, s.part.hdr.inFlight = some (h, [.pricing]) → s.part.hdr.finished = true → s.part.hdr.waiting = [] →
      s.part.price.switching = some holds → g = s.part.price.staging.generation → s.part.price.staging.n = some n →
      s.part.price.events = [] → s.part.price.syncWaits = none → s.part.pres.joining = .ready → s.part.jrn.scan = none →
      s.part.jrn.accepts [.priceActivated g s.part.price.activeGen n holds] = true → s.part.lab.warm = .none →
      (∀ i, i < 4096 → s.part.labelAt i = none) →
      ∃ t, exec .headerWriteDone s = .next t ∧
        t.part.price =
          { s.part.price with
            active := s.part.inactive, activeGen := g, activeCount := n, copy := s.part.copyOf s.part.inactive n
            staging := { fetches := s.part.price.staging.fetches }, trigger := .disarmed, switching := none
            pauseTimer := false, fetchTimer := false, sweep := none, sweepDue := false, events := [.countPass]
            ctr := { s.part.price.ctr with switches := bump s.part.price.ctr.switches } } ∧
        t.part.hdr = { s.part.hdr with inFlight := none, finished := false } ∧
        t.part.pres = { s.part.pres with switched := true } ∧ t.part.lab = { s.part.lab with walk := .counting } ∧
        s.appends .pricing 255 [.priceActivated g s.part.price.activeGen n holds] t ∧
        (∀ a, Mem.read t.part.dram a =
          if 0x3F2000 ≤ a ∧ a < 0x3F3000 then 0 else Mem.read s.part.dram a) ∧
        Unchanged [.price, .hdr, .pres, .lab, .jrn, .memory] s t)

/-- LABEL_NOT_CURRENT of an item with an entry raises its outstanding count by 1; LABEL_CURRENT lowers it by 1, clearing
HOLD and counting one hold cleared where it falls to 0 with HOLD set, and counts one count fault where it is 0 already.
HOLD_SWEEP, with the clock valid and a sweep due, begins the pass at index 0; DRAM_BURST_DONE of a step of it takes the
entry at its index, fixes an unknown hold start, releases a hold at or past its limit with a HOLD RELEASED record,
leaves a younger one and an entry without HOLD, and goes on to the next index. No other byte of memory changes. (A sweep
due is a mark that HOLD_SWEEP takes: assumption 24. An entry whose CRC fails is passed over as one without HOLD:
assumption 36.) -/
def Obligations.HoldsAreCountedAndReleased : Prop :=
  (∀ (s : State) (item i : Nat) (e : BankEntry), s.supply.takesEvents = true → (s.part.find item).1 = .entry i e → i < 32768 →
    (s.part.price.events = [.notCurrent item] → e.count < 4096 →
      ∃ t, exec .labelNotCurrent s = .next t ∧ t.part.price = { s.part.price with events := [] } ∧
        t.part.entryBytes s.part.price.active i = ({ e with count := e.count + 1 } : BankEntry).bytes ∧
        (∀ a, a < entryAddr s.part.price.active i ∨ entryAddr s.part.price.active i + 32 ≤ a →
          Mem.read t.part.dram a = Mem.read s.part.dram a) ∧
        Unchanged [.price, .memory] s t) ∧
    (s.part.price.events = [.current item] →
      (e.count = 0 →
        ∃ t, exec .labelCurrent s = .next t ∧
          t.part.price =
            { s.part.price with
              events := [], ctr := { s.part.price.ctr with countFaults := bump s.part.price.ctr.countFaults } } ∧
          Unchanged [.price] s t) ∧
      (1 ≤ e.count →
        ∃ t, exec .labelCurrent s = .next t ∧
          t.part.entryBytes s.part.price.active i =
            ({ e with count := e.count - 1, hold := e.hold && decide (e.count ≠ 1) } : BankEntry).bytes ∧
          t.part.price =
            { s.part.price with
              events := []
              ctr :=
                if e.count = 1 ∧ e.hold = true then
                  { s.part.price.ctr with holdsCleared := bump s.part.price.ctr.holdsCleared }
                else s.part.price.ctr } ∧
          (∀ a, a < entryAddr s.part.price.active i ∨ entryAddr s.part.price.active i + 32 ≤ a →
            Mem.read t.part.dram a = Mem.read s.part.dram a) ∧
          Unchanged [.price, .memory] s t))) ∧
  (∀ s : State, s.supply.takesEvents = true → s.part.pres.clock.valid = true → s.part.price.sweepDue = true →
    s.part.price.sweep = none →
    ∃ t, exec .holdSweep s = .next t ∧
      t.part.price =
        { s.part.price with sweepDue := false, sweep := if s.part.price.activeCount = 0 then none else some 0 } ∧
      (s.part.price.activeCount ≠ 0 →
        t.awaits .bank .sweepStep) ∧
      Unchanged [.price] s t) ∧
  (∀ (s : State) (i : Nat) (next : Option Nat) (cfg : ConfigBlock) (c : Clock), s.supply.takesEvents = true →
    s.arb.port = some (.burst .bank .sweepStep) → s.part.price.sweep = some i → i < 32768 → s.part.cfg = some cfg →
    c = s.part.pres.clock → next = (if i + 1 < s.part.price.activeCount then some (i + 1) else none) →
    ((∀ e, s.part.goodEntry s.part.price.active i = some e → e.valid = false ∨ e.hold = false) →
      ∃ t, exec .dramBurstDone s = .next t ∧ t.part.price = { s.part.price with sweep := next } ∧
        Unchanged [.price] s t) ∧
    (∀ e, s.part.goodEntry s.part.price.active i = some e → e.valid = true → e.hold = true →
      (e.startKnown = false →
        ∃ t, exec .dramBurstDone s = .next t ∧ t.part.price = { s.part.price with sweep := next } ∧
          t.part.entryBytes s.part.price.active i =
            ({ e with startKnown := true, startDay := c.day, startMinute := c.minute } : BankEntry).bytes ∧
          (∀ a, a < entryAddr s.part.price.active i ∨ entryAddr s.part.price.active i + 32 ≤ a →
            Mem.read t.part.dram a = Mem.read s.part.dram a) ∧
          Unchanged [.price, .memory] s t) ∧
      (e.startKnown = true → e.startDay * 1440 + e.startMinute + cfg.holdLimit * 60 ≤ c.day * 1440 + c.minute →
        s.part.jrn.scan = none → s.part.jrn.accepts [.holdReleased e.code e.held e.count] = true →
        ∃ t, exec .dramBurstDone s = .next t ∧
          t.part.price =
            { s.part.price with
              sweep := next
              ctr := { s.part.price.ctr with holdsReleased := bump s.part.price.ctr.holdsReleased } } ∧
          t.part.entryBytes s.part.price.active i = ({ e with hold := false } : BankEntry).bytes ∧
          s.appends .pricing 255 [.holdReleased e.code e.held e.count] t ∧
          (∀ a, a < entryAddr s.part.price.active i ∨ entryAddr s.part.price.active i + 32 ≤ a →
            Mem.read t.part.dram a = Mem.read s.part.dram a) ∧
          Unchanged [.price, .jrn, .memory] s t) ∧
      (e.startKnown = true → c.day * 1440 + c.minute < e.startDay * 1440 + e.startMinute + cfg.holdLimit * 60 →
        ∃ t, exec .dramBurstDone s = .next t ∧ t.part.price = { s.part.price with sweep := next } ∧
          Unchanged [.price] s t)))

/-! ### till ports and sales -/

/-- TILL_FRAME_RECEIVED of characters that gather one content and drop none, on a port that takes characters: a bad CRC,
and a bad length, are counted; a good frame is counted good, and on a disabled port, or while the till ports answer
nothing, nothing more. On an enabled port it starts the silence timer, stops the grace timer and brings an OFFLINE port
to IDLE, or to IN SALE with its sale; on a port not busy it becomes the request in progress, but where its sequence and
kind equal those of the stored last reply that reply is sent again and one repeat is counted; on a busy port a BUSY
reply joins the list, or with four waiting one refusal is dropped. The other ports are as they were. (A frame that fails
both its CRC and its length counts one CRC error alone: assumption 74.) -/
def Obligations.TillFrameIsTaken : Prop :=
  ∀ (s : State) (n : PortNo) (chars bs : Bytes) (x : Port), s.supply.takesEvents = true → x = s.part.port n →
    x.held = false → gather (some []) 0 chars = (0, some bs) →
    (crcGood bs = false →
      ∃ t, exec (.tillFrameReceived n chars) s = .next t ∧
        t.part.port n = { x with ignoring := false, ctr := { x.ctr with crc := bump x.ctr.crc } } ∧
        t.part.till.ctr = s.part.till.ctr ∧ OtherPorts n s t ∧ Unchanged [.till] s t) ∧
    (crcGood bs = true →
      (bs.length < 4 ∨ ∃ k, TillKind.ofCode (byteAt bs 1).toNat = some k ∧ bs.length ≠ 4 + k.bodyLength) →
      ∃ t, exec (.tillFrameReceived n chars) s = .next t ∧
        t.part.port n = { x with ignoring := false, ctr := { x.ctr with badLength := bump x.ctr.badLength } } ∧
        t.part.till.ctr = s.part.till.ctr ∧ OtherPorts n s t ∧ Unchanged [.till] s t) ∧
    (crcGood bs = true → contentFits bs = true → (s.part.serving = .noReply ∨ s.part.portEnabled n = false) →
      ∃ t, exec (.tillFrameReceived n chars) s = .next t ∧
        t.part.port n = { x with ignoring := false, ctr := { x.ctr with good := bump x.ctr.good } } ∧
        t.part.till.ctr = s.part.till.ctr ∧ OtherPorts n s t ∧ Unchanged [.till] s t) ∧
    (∀ y, crcGood bs = true → contentFits bs = true → s.part.serving ≠ .noReply → s.part.portEnabled n = true →
      y =
        { x with
          ignoring := false, ctr := { x.ctr with good := bump x.ctr.good }, silence := true, grace := false
          state := if x.state = .offline then (if x.sale.isSome = true then .inSale else .idle) else x.state } →
      (x.req = none → x.out = none → x.busy = [] →
        (∀ l, x.last = some l → ¬ (l.seq = byteAt bs 0 ∧ l.kind = byteAt bs 1)) →
        TillKind.ofCode (byteAt bs 1).toNat ≠ none →
        ∃ t, exec (.tillFrameReceived n chars) s = .next t ∧
          t.part.port n =
            { y with req := some ⟨byteAt bs 0, byteAt bs 1, (bs.drop 2).take (bs.length - 4), .taken⟩ } ∧
          t.part.till.ctr = s.part.till.ctr ∧ OtherPorts n s t ∧ Unchanged [.till] s t) ∧
      (∀ l, x.req = none → x.out = none → x.busy = [] → x.last = some l → l.seq = byteAt bs 0 → l.kind = byteAt bs 1 →
        ∃ t, exec (.tillFrameReceived n chars) s = .next t ∧
          t.part.port n =
            { y with req := some ⟨l.seq, l.kind, [], .replying⟩, out := some (tillFrame l.content), outBusy := false } ∧
          t.part.till.ctr = { s.part.till.ctr with repeats := bump s.part.till.ctr.repeats } ∧ OtherPorts n s t ∧
          Unchanged [.till] s t) ∧
      ((x.req ≠ none ∨ x.out ≠ none ∨ x.busy ≠ []) → x.busy.length < 4 →
        ∃ t, exec (.tillFrameReceived n chars) s = .next t ∧
          t.part.port n =
            { y with
              busy := x.busy ++ [tillFrame (s.part.replyContent (byteAt bs 0) (byteAt bs 1) .busy false false [])] } ∧
          t.part.till.ctr = { s.part.till.ctr with busyRefusals := bump s.part.till.ctr.busyRefusals } ∧
          OtherPorts n s t ∧ Unchanged [.till] s t) ∧
      (4 ≤ x.busy.length →
        ∃ t, exec (.tillFrameReceived n chars) s = .next t ∧ t.part.port n = y ∧
          t.part.till.ctr = { s.part.till.ctr with refusalsDropped := bump s.part.till.ctr.refusalsDropped } ∧
          OtherPorts n s t ∧ Unchanged [.till] s t))

/-- On a port that takes characters FRAMING_ERROR counts one and holds characters back until LINE_HIGH_FOR_ONE_BIT_TIME;
DROPPED_AS_LONG and BAD_ESCAPE count one bad length. On an enabled port with no request being worked LINE_BREAK with no
sale withdraws the framing count, clears the stored reply and everything sent or waiting, enters IDLE with its silence
timer and counts one BREAK; with a sale it ends the sale with SALE ABANDON, reason TILL RESTART; LINE_DOWN from IDLE or
IN SALE enters OFFLINE, keeps the sale and starts the grace timer with one; on a port OFFLINE already it is counted at
once and changes nothing more. A low while a request is being worked otherwise waits. SILENCE_TIMER_EXPIRY enters
OFFLINE; GRACE_TIMER_EXPIRY ends the sale, reason TILL LOST. REPLY_SENT ends the request, or sends the next BUSY reply.
(The framing count withdrawn is lowered by 1: assumption 45. A LINE DOWN on an OFFLINE port with a request in progress
changes nothing: assumption 72. A low cuts off the reply being sent: assumption 37.) -/
def Obligations.TillLineAndTimers : Prop :=
  ∀ (s : State) (n : PortNo) (x : Port), s.supply.takesEvents = true → x = s.part.port n →
    (x.held = false →
      (∃ t, exec (.framingError n) s = .next t ∧
        t.part.port n =
          { x with held := true, errCounted := true, ignoring := true
                   ctr := { x.ctr with framing := bump x.ctr.framing } } ∧
        t.part.till.ctr = s.part.till.ctr ∧ OtherPorts n s t ∧ Unchanged [.till] s t) ∧
      (∃ t, exec (.droppedAsLong n) s = .next t ∧
        t.part.port n = { x with ignoring := true, ctr := { x.ctr with badLength := bump x.ctr.badLength } } ∧
        t.part.till.ctr = s.part.till.ctr ∧ OtherPorts n s t ∧ Unchanged [.till] s t) ∧
      (∀ stx, ∃ t, exec (.badEscape n stx) s = .next t ∧
        t.part.port n = { x with ignoring := !stx, ctr := { x.ctr with badLength := bump x.ctr.badLength } } ∧
        t.part.till.ctr = s.part.till.ctr ∧ OtherPorts n s t ∧ Unchanged [.till] s t)) ∧
    (∃ t, exec (.lineHighForOneBitTime n) s = .next t ∧
      t.part.port n = { x with held := false, errCounted := false } ∧ t.part.till.ctr = s.part.till.ctr ∧
      OtherPorts n s t ∧ Unchanged [.till] s t) ∧
    (∀ framing, s.part.portEnabled n = true →
      framing = (if x.errCounted = true then x.ctr.framing - 1 else x.ctr.framing) →
      (x.working = false → x.sale = none →
        ∃ t, exec (.lineBreak n) s = .next t ∧
          t.part.port n =
            { x with
              state := .idle, sale := none, last := none, req := none, out := none, outBusy := false, busy := []
              silence := true, grace := false, errCounted := false
              ctr := { x.ctr with framing := framing, breaks := bump x.ctr.breaks } } ∧
          t.part.till.ctr = s.part.till.ctr ∧ OtherPorts n s t ∧ Unchanged [.till] s t) ∧
      (∀ y, x.working = false → x.sale = some y → s.part.jrn.scan = none →
        s.part.jrn.accepts [.saleAbandon y.number .tillRestart y.running y.tenders false] = true →
        ∃ t, exec (.lineBreak n) s = .next t ∧ (t.part.port n).state = .idle ∧ (t.part.port n).sale = none ∧
          (t.part.port n).last = none ∧ (t.part.port n).grace = false ∧ (t.part.port n).silence = true ∧
          (t.part.port n).ctr = { x.ctr with framing := framing, breaks := bump x.ctr.breaks } ∧
          s.appends .portEvent n.val [.saleAbandon y.number .tillRestart y.running y.tenders false] t ∧
          t.part.till.ctr = { s.part.till.ctr with abandonedRestart := bump s.part.till.ctr.abandonedRestart } ∧
          OtherPorts n s t ∧ Unchanged [.till, .jrn] s t) ∧
      (x.working = false → x.state ≠ .offline →
        ∃ t, exec (.lineDown n) s = .next t ∧
          t.part.port n =
            { x with
              state := .offline, req := none, out := none, outBusy := false, busy := [], silence := false
              grace := x.sale.isSome, errCounted := false
              ctr := { x.ctr with framing := framing, lineDowns := bump x.ctr.lineDowns } } ∧
          t.part.till.ctr = s.part.till.ctr ∧ OtherPorts n s t ∧ Unchanged [.till] s t) ∧
      (x.state = .offline →
        ∃ t, exec (.lineDown n) s = .next t ∧
          t.part.port n =
            { x with errCounted := false, ctr := { x.ctr with framing := framing, lineDowns := bump x.ctr.lineDowns } } ∧
          t.part.till.ctr = s.part.till.ctr ∧ OtherPorts n s t ∧ Unchanged [.till] s t) ∧
      (x.working = true → x.state ≠ .offline →
        ∃ t, exec (.lineDown n) s = .next t ∧
          t.part.port n =
            { x with lows := x.lows ++ [.lineDown], errCounted := false, ctr := { x.ctr with framing := framing } } ∧
          t.part.till.ctr = s.part.till.ctr ∧ OtherPorts n s t ∧ Unchanged [.till] s t) ∧
      (x.working = true →
        ∃ t, exec (.lineBreak n) s = .next t ∧
          t.part.port n =
            { x with lows := x.lows ++ [.breakLow], errCounted := false, ctr := { x.ctr with framing := framing } } ∧
          t.part.till.ctr = s.part.till.ctr ∧ OtherPorts n s t ∧ Unchanged [.till] s t)) ∧
    (x.silence = true → x.state ≠ .offline →
      ∃ t, exec (.silenceTimerExpiry n) s = .next t ∧
        t.part.port n = { x with state := .offline, silence := false, grace := x.sale.isSome } ∧
        t.part.till.ctr = s.part.till.ctr ∧ OtherPorts n s t ∧ Unchanged [.till] s t) ∧
    (∀ y, x.grace = true → x.state = .offline → x.sale = some y → s.part.jrn.scan = none →
      s.part.jrn.accepts [.saleAbandon y.number .tillLost y.running y.tenders false] = true →
      ∃ t, exec (.graceTimerExpiry n) s = .next t ∧ t.part.port n = { x with sale := none, grace := false } ∧
        s.appends .portEvent n.val [.saleAbandon y.number .tillLost y.running y.tenders false] t ∧
        t.part.till.ctr = { s.part.till.ctr with abandonedLost := bump s.part.till.ctr.abandonedLost } ∧
        OtherPorts n s t ∧ Unchanged [.till, .jrn] s t) ∧
    (∀ o, x.out = some o → x.outBusy = false →
      ∃ t, exec (.replySent n) s = .next t ∧
        (x.busy = [] → t.part.port n = { x with req := none, out := none, outBusy := false }) ∧
        (∀ b rest, x.busy = b :: rest →
          t.part.port n = { x with req := none, out := some b, outBusy := true, busy := rest }) ∧
        t.part.till.ctr = s.part.till.ctr ∧ OtherPorts n s t ∧ Unchanged [.till] s t)

/-- LINE begins the search for its item, reading at TILL, or with nothing to read answers NOT FOUND. With the entry
found by the burst that read it, within every limit, an item not MULTIBUY appends one ITEM and adds the line and its
amount to the sale; a MULTIBUY item with an empty tally makes the tally entry, and appends the DISCOUNT where it is at
least 1. VOID of a line not voided appends VOID, and DISCOUNT REVERSAL where the reversal is at least 1, marks the line
and takes the new total; of one voided already it is answered WRONG STATE, and of one whose new total would lie below 0
or above 999,999,999 LIMIT. A refused append answers FULL and leaves the sale. The reply waits for the records. (The
entry a burst reads is the middle of the range left: assumption 9. The ITEM carries the generation active at its append,
whatever bank was searched: assumption 69. What a reversal computes stands in the statement of the pricing stages.) -/
def Obligations.LinesAreSoldAndVoided : Prop :=
  ∀ (s : State) (n : PortNo) (r : TillRequest) (x : Sale), (s.part.port n).sale = some x → s.part.jrn.scan = none →
    (∀ y, s.asked n r .line → s.part.serving ≠ .none → itemFieldsFit r.body = true → x.lines.length < 500 →
      y = s.part.beginSearch (fieldAt r.body 0 6) →
      (y.reads = true → ∃ t, exec (.saleLine n) s = .next t ∧ s.searches n r y t ∧ Unchanged [.till] s t) ∧
      (y.reads = false →
        ∃ t, exec (.saleLine n) s = .next t ∧ s.answers n r .notFound false [] t ∧ Unchanged [.till] s t)) ∧
    (∀ y code q e charged a, s.looks n r .line y → s.part.middle y = some e → e.code = y.code → e.valid = true →
      code = fieldAt r.body 0 6 → q = fieldAt r.body 6 3 → e.lineAmount q = .amount charged a → x.running + a ≤ 999999999 →
      (∀ x' rec, e.promo ≠ 2 →
        rec =
          [Content.item x.number (x.lines.length + 1) code q charged a s.part.price.activeGen
            ⟨e.hold, false, s.part.staleServed⟩] →
        x' = { x with lines := x.lines ++ [⟨code, q, charged, a, false, false⟩], running := x.running + a } →
        (s.part.jrn.accepts rec = true →
          ∃ t, exec .dramBurstDone s = .next t ∧ s.appends (.till n) n.val rec t ∧
            s.works n r (some x') .keep
              (be 2 (x.lines.length + 1) ++ be 3 charged ++ be 4 a ++ be 4 0 ++ be 4 (x.running + a)) e.hold false t ∧
            Unchanged [.till, .jrn] s t) ∧
        (s.part.jrn.accepts rec = false →
          ∃ t, exec .dramBurstDone s = .next t ∧ s.answers n r .full false [] t ∧
            t.part.till.ctr = { s.part.till.ctr with full := bump s.part.till.ctr.full } ∧
            t.part.jrn =
              { s.part.jrn with
                ctr := { s.part.jrn.ctr with saleRefused := bump s.part.jrn.ctr.saleRefused } } ∧
            Unchanged [.till, .jrn] s t)) ∧
      (∀ g d x' rec, e.promo = 2 → x.tally = [] → g = q / e.value →
        d = min (g * (e.value * charged - e.m)) (x.running + a) →
        rec =
          Content.item x.number (x.lines.length + 1) code q charged a s.part.price.activeGen
              ⟨e.hold, false, s.part.staleServed⟩ ::
            (if 1 ≤ d then [Content.discount x.number (x.lines.length + 1) code g d] else []) →
        x' =
          { x with
            lines := x.lines ++ [⟨code, q, charged, a, true, false⟩], running := x.running + a - d
            tally := [⟨code, e.value, q, if 1 ≤ g then [⟨g, e.value * charged - e.m, d⟩] else []⟩] } →
        s.part.jrn.accepts rec = true →
          ∃ t, exec .dramBurstDone s = .next t ∧ s.appends (.till n) n.val rec t ∧
            s.works n r (some x') .keep
              (be 2 (x.lines.length + 1) ++ be 3 charged ++ be 4 a ++ be 4 d ++ be 4 (x.running + a - d)) e.hold false
              t ∧
            Unchanged [.till, .jrn] s t)) ∧
    (∀ k l back rec, s.asked n r .void → k = fieldAt r.body 0 2 → 1 ≤ k → x.lines[k - 1]? = some l → l.voided = false →
      back = ((x.reversalOf l).map (·.r)).getD 0 → l.amount ≤ x.running + back →
      x.running + back - l.amount ≤ 999999999 →
      rec =
        Content.void x.number k l.item l.q l.amount ::
          (if 1 ≤ back then [Content.reversal x.number k l.item (((x.reversalOf l).map (·.k)).getD 0) back] else []) →
      s.part.jrn.accepts rec = true →
      ∃ t, exec (.voidLine n) s = .next t ∧ s.appends (.till n) n.val rec t ∧
        s.works n r
          (some
            { x with
              lines := x.lines.set (k - 1) { l with voided := true }, running := x.running + back - l.amount
              tally := x.tallyVoided (x.reversalOf l) })
          .keep (be 4 back ++ be 4 (x.running + back - l.amount)) false false t ∧
        Unchanged [.till, .jrn] s t) ∧
    (∀ k l back, s.asked n r .void → k = fieldAt r.body 0 2 → 1 ≤ k → x.lines[k - 1]? = some l →
      back = ((x.reversalOf l).map (·.r)).getD 0 →
      (l.voided = true →
        ∃ t, exec (.voidLine n) s = .next t ∧ s.answers n r .wrongState false [] t ∧ t.part.till.ctr = s.part.till.ctr ∧
          Unchanged [.till] s t) ∧
      (l.voided = false → (x.running + back < l.amount ∨ 999999999 + l.amount < x.running + back) →
        ∃ t, exec (.voidLine n) s = .next t ∧ s.answers n r .limit false [] t ∧ t.part.till.ctr = s.part.till.ctr ∧
          Unchanged [.till] s t))

/-- OPEN in IDLE appends SALE OPEN, and its reply will carry the record's sequence as the sale number. TENDER of a known
method and an amount in range appends TENDER and raises the tender total. CLOSE with the tenders below the running total
answers SHORT with both totals; otherwise it appends SALE CLOSE with the change. ABANDON appends SALE ABANDON, reason
TILL. Each reply waits for the record, and the sale ends when it stands. (SHORT gives the running total first:
assumption 38.) -/
def Obligations.SalesOpenTenderAndClose : Prop :=
  ∀ (s : State) (n : PortNo) (r : TillRequest), s.part.jrn.scan = none →
    (s.asked n r .openSale → s.part.serving ≠ .none → (s.part.port n).sale = none →
      s.part.jrn.accepts [.saleOpen s.part.price.activeGen] = true →
      ∃ t, exec (.openSale n) s = .next t ∧ s.appends (.till n) n.val [.saleOpen s.part.price.activeGen] t ∧
        s.works n r none (.opens s.part.jrn.next) (be 4 s.part.jrn.next) false false t ∧ Unchanged [.till, .jrn] s t) ∧
    (∀ x m a, s.asked n r .tender → (s.part.port n).sale = some x → Method.ofCode (fieldAt r.body 0 1) = some m →
      a = fieldAt r.body 1 4 → 1 ≤ a → x.tenders + a ≤ 999999999 →
      s.part.jrn.accepts [.tender x.number m a] = true →
      ∃ t, exec (.tender n) s = .next t ∧ s.appends (.till n) n.val [.tender x.number m a] t ∧
        s.works n r (some { x with tenders := x.tenders + a }) .keep (be 4 (x.tenders + a) ++ be 4 x.running) false false
          t ∧
        Unchanged [.till, .jrn] s t) ∧
    (∀ x, s.asked n r .close → (s.part.port n).sale = some x →
      (x.tenders < x.running →
        ∃ t, exec (.closeSale n) s = .next t ∧ s.answers n r .short false (be 4 x.running ++ be 4 x.tenders) t ∧
          t.part.till.ctr = s.part.till.ctr ∧ Unchanged [.till] s t) ∧
      (x.running ≤ x.tenders →
        s.part.jrn.accepts [.saleClose x.number x.running x.tenders (x.tenders - x.running)] = true →
        ∃ t, exec (.closeSale n) s = .next t ∧
          s.appends (.till n) n.val [.saleClose x.number x.running x.tenders (x.tenders - x.running)] t ∧
          s.works n r (some x) .closes (be 4 x.running ++ be 4 x.tenders ++ be 4 (x.tenders - x.running)) false false t ∧
          Unchanged [.till, .jrn] s t)) ∧
    (∀ x, s.asked n r .abandon → (s.part.port n).sale = some x →
      s.part.jrn.accepts [.saleAbandon x.number .till x.running x.tenders false] = true →
      ∃ t, exec (.abandonSale n) s = .next t ∧
        s.appends (.till n) n.val [.saleAbandon x.number .till x.running x.tenders false] t ∧
        s.works n r (some x) .abandons [] false false t ∧ Unchanged [.till, .jrn] s t)

/-- LOOKUP begins the search for its item, the first entry read at TILL, or answers NOT FOUND with nothing to read. A
burst of the search of a LOOKUP or LINE that reads an entry of another item halves the range and reads on, or answers
NOT FOUND where nothing is left; an entry of the item that is not valid is NOT FOUND; a bad entry is NOT FOUND and
counts one entry fault. With the entry found LOOKUP answers OK with the kind, the charged price and the amount and HOLD
APPLIED by the entry, OVER LIMIT with the charged price, or BAD REQUEST. STATUS answers OK with the port state, the
serving level, and the open sale's number, ITEM count, running total, tender total and tally entries, each 0 with no
sale open. A request of any kind is refused at the first check that fails: a supervisor kind on a port without the mark
NOT PERMITTED, a kind the level does not serve NOT READY, counted, a kind that needs an open sale with none, or none
with one, WRONG STATE, and one with a field out of its range BAD REQUEST; the frame of a kind of no code is answered BAD
REQUEST at once. Each reply is built, stored and begun, and nothing else changes. (The midpoint of a range is assumption
9, the widths of the STATUS reply assumption 20.) -/
def Obligations.RequestsAnsweredAtOnce : Prop :=
  ∀ (s : State) (n : PortNo) (r : TillRequest),
    (∀ y, s.asked n r .lookup → s.part.serving ≠ .none → itemFieldsFit r.body = true →
      y = s.part.beginSearch (fieldAt r.body 0 6) →
      (y.reads = true → ∃ t, exec (.lookup n) s = .next t ∧ s.searches n r y t ∧ Unchanged [.till] s t) ∧
      (y.reads = false →
        ∃ t, exec (.lookup n) s = .next t ∧ s.answers n r .notFound false [] t ∧ t.part.till.ctr = s.part.till.ctr ∧
          Unchanged [.till] s t)) ∧
    (∀ y k, s.looks n r k y →
      (s.part.middle y = none →
        ∃ t, exec .dramBurstDone s = .next t ∧ s.answers n r .notFound false [] t ∧
          t.part.price =
            { s.part.price with
              ctr := { s.part.price.ctr with entryFaults := bump s.part.price.ctr.entryFaults } } ∧
          Unchanged [.till, .price] s t) ∧
      (∀ e, s.part.middle y = some e → e.code = y.code → e.valid = false →
        ∃ t, exec .dramBurstDone s = .next t ∧ s.answers n r .notFound false [] t ∧ Unchanged [.till] s t) ∧
      (∀ e z, s.part.middle y = some e → e.code ≠ y.code →
        z = (if y.code < e.code then { y with hi := (y.lo + y.hi) / 2, left := y.left - 1 }
             else { y with lo := (y.lo + y.hi) / 2 + 1, left := y.left - 1 }) →
        (z.lo < z.hi ∧ 0 < z.left →
          ∃ t, exec .dramBurstDone s = .next t ∧ s.searches n r z t ∧ Unchanged [.till] s t) ∧
        (¬ (z.lo < z.hi ∧ 0 < z.left) →
          ∃ t, exec .dramBurstDone s = .next t ∧ s.answers n r .notFound false [] t ∧ Unchanged [.till] s t)) ∧
      (∀ e, s.part.middle y = some e → e.code = y.code → e.valid = true → k = .lookup →
        ∃ t, exec .dramBurstDone s = .next t ∧
          (match e.lineAmount (fieldAt r.body 6 3) with
           | .amount charged a => s.answers n r .ok e.hold (be 1 e.kind ++ be 3 charged ++ be 4 a) t
           | .overLimit charged => s.answers n r .overLimit e.hold (be 3 charged) t
           | .badRequest => s.answers n r .badRequest false [] t) ∧
          t.part.till.ctr = s.part.till.ctr ∧ Unchanged [.till] s t)) ∧
    (∀ st lv body, s.asked n r .status →
      st = (if (s.part.port n).state = .offline then 0 else if (s.part.port n).state = .idle then 1 else 2) →
      lv = (if s.part.serving = .full then 0 else if s.part.serving = .stale then 1 else 2) →
      body =
        (match (s.part.port n).sale with
         | some x =>
           be 4 x.number ++ be 2 x.lines.length ++ be 4 x.running ++ be 4 x.tenders ++ be 2 x.tally.length
         | none => List.replicate 16 0) →
      ∃ t, exec (.status n) s = .next t ∧ s.answers n r .ok false ([BitVec.ofNat 8 st, BitVec.ofNat 8 lv] ++ body) t ∧
        t.part.till.ctr = s.part.till.ctr ∧ Unchanged [.till] s t) ∧
    (∀ (k : TillKind) (misfit : Prop), s.asked n r k →
      misfit =
        ((k ∈ [TillKind.openSale, .bind, .unbind, .query, .retry] ∧ (s.part.port n).sale ≠ none) ∨
          (k ∈ [TillKind.line, .void, .tender, .close, .abandon] ∧ (s.part.port n).sale = none)) →
      (k ∈ [TillKind.bind, .unbind, .query, .retry] → s.part.supervisor n = false →
        ∃ t, exec (k.command n) s = .next t ∧ s.answers n r .notPermitted false [] t ∧
          t.part.till.ctr = s.part.till.ctr ∧ Unchanged [.till] s t) ∧
      ((k ∈ [TillKind.bind, .unbind, .query, .retry] → s.part.supervisor n = true) →
        (k ∈ [TillKind.lookup, .openSale, .line, .bind, .unbind, .query, .retry] → s.part.serving = .none →
          ∃ t, exec (k.command n) s = .next t ∧ s.answers n r .notReady false [] t ∧
            t.part.till.ctr = { s.part.till.ctr with notReady := bump s.part.till.ctr.notReady } ∧
            Unchanged [.till] s t) ∧
        ((k ∈ [TillKind.lookup, .openSale, .line, .bind, .unbind, .query, .retry] → s.part.serving ≠ .none) →
          (misfit →
            ∃ t, exec (k.command n) s = .next t ∧ s.answers n r .wrongState false [] t ∧
              t.part.till.ctr = s.part.till.ctr ∧ Unchanged [.till] s t) ∧
          (¬ misfit → k.outOfRange (((s.part.port n).sale.map (·.lines.length)).getD 0) r.body →
            ∃ t, exec (k.command n) s = .next t ∧ s.answers n r .badRequest false [] t ∧
              t.part.till.ctr = s.part.till.ctr ∧ Unchanged [.till] s t)))) ∧
    (∀ chars bs x content, s.supply.takesEvents = true → x = s.part.port n → x.held = false →
      gather (some []) 0 chars = (0, some bs) → crcGood bs = true → 4 ≤ bs.length →
      TillKind.ofCode (byteAt bs 1).toNat = none → s.part.serving ≠ .noReply → s.part.portEnabled n = true →
      x.req = none → x.out = none → x.busy = [] → x.lows = [] →
      (∀ l, x.last = some l → ¬ (l.seq = byteAt bs 0 ∧ l.kind = byteAt bs 1)) →
      content = s.part.replyContent (byteAt bs 0) (byteAt bs 1) .badRequest false false [] →
      ∃ t, exec (.tillFrameReceived n chars) s = .next t ∧
        t.part.port n =
          { x with
            ignoring := false, ctr := { x.ctr with good := bump x.ctr.good }, silence := true, grace := false
            state := if x.state = .offline then (if x.sale.isSome = true then .inSale else .idle) else x.state
            last := some ⟨byteAt bs 0, byteAt bs 1, content⟩
            req := some ⟨byteAt bs 0, byteAt bs 1, (bs.drop 2).take (bs.length - 4), .replying⟩
            out := some (tillFrame content), outBusy := false } ∧
        t.part.till.ctr = s.part.till.ctr ∧ OtherPorts n s t ∧ Unchanged [.till] s t)

/-- From a supervisor port in IDLE at a level that serves it: BIND of a new label takes the first free place with an
UNKNOWN content, queues it (ROUTINE for an item without an entry), sends "label not current" and answers OK; BIND of a
label in the table binds its place anew, UNKNOWN, keeping its battery and signal: a queued entry leaves its queue, the
order of a SENT one is an orphan, and "label not current" of the new item is followed by "label current" of the old one
where the entry was not CURRENT and is accounted for; UNBIND takes the entry out the same way, frees its place and
answers OK; LABEL QUERY answers its item, layout, state, attempts, battery and signal; LABEL RETRY of an UNREACHABLE
label sets its attempts to 0 and queues it. An unknown label is NOT FOUND, and a retry of any other state WRONG STATE.
While the label service takes no requests, one that has passed its checks is handed over and waits; a LABEL QUERY that
waited is answered without being checked again. (The radio head DOWN, so that no order follows; the label service takes
no requests before its warm-start pass, assumption 28; the widths of LABEL QUERY are assumption 20; that a label bound
anew keeps its battery and signal level is assumption 49.) -/
def Obligations.SupervisorRequestsReachTheLabels : Prop :=
  (∀ (s : State) (n : PortNo) (r : TillRequest) (id : Nat), s.part.supervisor n = true → s.part.serving ≠ .none →
    (s.part.port n).sale = none → s.part.labelsReady = true → s.part.lab.headUp = false → id = fieldAt r.body 0 3 →
    1 ≤ id → id ≤ 16777214 →
    (∀ item l i e, s.asked n r .bind → s.part.findLabel id = none → item = fieldAt r.body 3 6 → 1 ≤ item →
      item ≤ 99999999999999 → Layout.ofCode (fieldAt r.body 9 1) = some l →
      ((List.range 4096).find? fun j => (s.part.labelAt j).isNone) = some i → (s.part.find item).1 = .notFound →
      s.part.price.events = [] →
      e =
        ({ id := id, item := item, layout := l, state := .queued, queue := some .routine, shown := .unknown, sent := none
           tag := none, attempts := 0, due := none, battery := .ok, signal := 0, walked := true } : LabelEntry) →
      ∃ t, exec (.bind n) s = .next t ∧ s.answers n r .ok false [] t ∧
        t.part.lab =
          { s.part.lab with routine := s.part.lab.routine ++ [i], tallies := s.part.lab.tallies.add e } ∧
        t.part.price = { s.part.price with events := [.notCurrent item] } ∧ t.part.labelBytes i = e.bytes ∧
        (∀ a, a < labelAddr i ∨ labelAddr i + 48 ≤ a → Mem.read t.part.dram a = Mem.read s.part.dram a) ∧
        Unchanged [.till, .lab, .price, .memory] s t) ∧
    (∀ i e w u v gone, s.part.findLabel id = some (i, e) → s.part.price.events = [] →
      w = (if e.state = .sent then
          s.part.lab.window.map fun o => if some o.tag = e.tag then { o with orphan := true } else o
        else s.part.lab.window) →
      u = (if e.state = .queued then s.part.lab.urgent.filter fun x => decide (x ≠ i) else s.part.lab.urgent) →
      v = (if e.state = .queued then s.part.lab.routine.filter fun x => decide (x ≠ i) else s.part.lab.routine) →
      gone = (if e.state ≠ .current ∧ s.part.accounts e = true then [LabelEvent.current e.item] else []) →
      (∀ item l e', s.asked n r .bind → item = fieldAt r.body 3 6 → 1 ≤ item → item ≤ 99999999999999 →
        Layout.ofCode (fieldAt r.body 9 1) = some l → (s.part.find item).1 = .notFound →
        e' =
          ({ id := id, item := item, layout := l, state := .queued, queue := some .routine, shown := .unknown, sent := none
             tag := none, attempts := 0, due := none, battery := e.battery, signal := e.signal, walked := true } :
            LabelEntry) →
        ∃ t, exec (.bind n) s = .next t ∧ s.answers n r .ok false [] t ∧
          t.part.lab =
            { s.part.lab with
              window := w, urgent := u, routine := v ++ [i], tallies := (s.part.lab.tallies.remove e).add e' } ∧
          t.part.price = { s.part.price with events := .notCurrent item :: gone } ∧ t.part.labelBytes i = e'.bytes ∧
          (∀ a, a < labelAddr i ∨ labelAddr i + 48 ≤ a → Mem.read t.part.dram a = Mem.read s.part.dram a) ∧
          Unchanged [.till, .lab, .price, .memory] s t) ∧
      (s.asked n r .unbind →
        ∃ t, exec (.unbind n) s = .next t ∧ s.answers n r .ok false [] t ∧ t.part.labelAt i = none ∧
          t.part.lab =
            { s.part.lab with window := w, urgent := u, routine := v, tallies := s.part.lab.tallies.remove e } ∧
          t.part.price = { s.part.price with events := gone } ∧
          (∀ a, a < labelAddr i ∨ labelAddr i + 48 ≤ a → Mem.read t.part.dram a = Mem.read s.part.dram a) ∧
          Unchanged [.till, .lab, .price, .memory] s t)) ∧
    (∀ i e body, s.asked n r .query → s.part.findLabel id = some (i, e) →
      body =
        be 6 e.item ++ be 1 (match e.layout with | .price => 1 | .priceUnit => 2 | .priceUnitPromo => 3) ++
          be 1 (match e.state with | .current => 0 | .queued => 1 | .sent => 2 | .retryWait => 3 | .unreachable => 4) ++
          be 2 e.attempts ++ be 1 (match e.battery with | .ok => 0 | .low => 1 | .critical => 2) ++ be 1 e.signal →
      ∃ t, exec (.labelQuery n) s = .next t ∧ s.answers n r .ok false body t ∧ Unchanged [.till] s t) ∧
    (∀ i e, s.asked n r .retry → s.part.findLabel id = some (i, e) →
      (e.state = .unreachable → (s.part.find e.item).1 = .notFound →
        ∃ t, exec (.labelRetry n) s = .next t ∧ s.answers n r .ok false [] t ∧
          t.part.lab =
            { s.part.lab with
              routine := s.part.lab.routine ++ [i]
              tallies := (s.part.lab.tallies.remove e).add { e with state := .queued } } ∧
          t.part.labelBytes i =
            ({ e with state := .queued, queue := some .routine, tag := none, due := none, attempts := 0 } :
              LabelEntry).bytes ∧
          (∀ a, a < labelAddr i ∨ labelAddr i + 48 ≤ a → Mem.read t.part.dram a = Mem.read s.part.dram a) ∧
          Unchanged [.till, .lab, .memory] s t) ∧
      (e.state ≠ .unreachable →
        ∃ t, exec (.labelRetry n) s = .next t ∧ s.answers n r .wrongState false [] t ∧ Unchanged [.till] s t)) ∧
    (s.part.findLabel id = none →
      (s.asked n r .unbind →
        ∃ t, exec (.unbind n) s = .next t ∧ s.answers n r .notFound false [] t ∧ Unchanged [.till] s t) ∧
      (s.asked n r .query →
        ∃ t, exec (.labelQuery n) s = .next t ∧ s.answers n r .notFound false [] t ∧ Unchanged [.till] s t) ∧
      (s.asked n r .retry →
        ∃ t, exec (.labelRetry n) s = .next t ∧ s.answers n r .notFound false [] t ∧ Unchanged [.till] s t))) ∧
  (∀ (s : State) (n : PortNo) (r : TillRequest) (id : Nat), id = fieldAt r.body 0 3 → 1 ≤ id → id ≤ 16777214 →
    (∀ k c, (k, c) ∈ [(TillKind.bind, Instr.bind n), (.unbind, .unbind n), (.query, .labelQuery n), (.retry, .labelRetry n)] →
      s.asked n r k → s.part.supervisor n = true → s.part.serving ≠ .none → (s.part.port n).sale = none →
      (k = .bind → 1 ≤ fieldAt r.body 3 6 ∧ fieldAt r.body 3 6 ≤ 99999999999999 ∧ 1 ≤ fieldAt r.body 9 1 ∧ fieldAt r.body 9 1 ≤ 3) →
      s.part.labelsReady = false →
      ∃ t, exec c s = .next t ∧ t.part.port n = { s.part.port n with req := some { r with work := .handed } } ∧
        t.part.till.ctr = s.part.till.ctr ∧ OtherPorts n s t ∧ Unchanged [.till] s t) ∧
    (∀ i e body, s.supply.takesEvents = true → (s.part.port n).req = some r →
      TillKind.ofCode r.kind.toNat = some .query → r.work = .handed → (s.part.port n).lows = [] →
      s.part.labelsReady = true → s.part.findLabel id = some (i, e) →
      body =
        be 6 e.item ++ be 1 (match e.layout with | .price => 1 | .priceUnit => 2 | .priceUnitPromo => 3) ++
          be 1 (match e.state with | .current => 0 | .queued => 1 | .sent => 2 | .retryWait => 3 | .unreachable => 4) ++
          be 2 e.attempts ++ be 1 (match e.battery with | .ok => 0 | .low => 1 | .critical => 2) ++ be 1 e.signal →
      ∃ t, exec (.labelQuery n) s = .next t ∧ s.answers n r .ok false body t ∧ Unchanged [.till] s t))

/-! ### the sales journal -/

/-- The reserve of each kind of record is measured before it takes its slot: 256 free for SALE OPEN and the station
kinds, 8 for the records of an open sale, 1 for SALE CLOSE and SALE ABANDON; an exhausted journal accepts nothing. An
accepted append takes consecutive sequences; a refused one takes none and is counted. DRAM_BURST_DONE of the first burst
of the oldest record writes its first 32 bytes to its slot and asks its second; of the second, writes the other 32 and
asks the next record's first; no other byte changes. APPEND_COMMITTED commits the next record; where it ends a till's
append the sale is opened, kept or ended and the reply is built, stored and begun. A read answers BEYOND, NOT COMMITTED,
GONE, DAMAGED or the record. -/
def Obligations.RecordsAreAcceptedCommittedAndRead : Prop :=
  (∀ (c : Content) (free : Nat),
    c.fits free =
      match c with
      | .saleOpen _ | .holdReleased .. | .priceActivated .. | .stationReport .. => decide (256 < free)
      | .item .. | .discount .. | .reversal .. | .void .. | .tender .. => decide (8 < free)
      | .saleClose .. | .saleAbandon .. => decide (1 ≤ free)) ∧
  (∀ (j : Journal) (a b : Content), j.release < j.next →
    (j.accepts [a, b] = true ↔
      a.fits (16384 - (j.next - 1 - j.release)) = true ∧ b.fits (16384 - (j.next - 1 - j.release) - 1) = true ∧
        j.exhausted = false ∧ j.next + 2 ≤ 4294967295)) ∧
  (∀ (p : Part) (r : Requester) (till : Nat) (cs : List Content),
    (p.jrn.accepts cs = true → (p.appendNow r till cs).1 = some p.jrn.next ∧
      (p.appendNow r till cs).2.jrn.next = p.jrn.next + cs.length) ∧
    (p.jrn.accepts cs = false → (p.appendNow r till cs).1 = none ∧
      (p.appendNow r till cs).2 = { p with jrn := { p.jrn with ctr := r.refusedCount p.jrn.ctr } })) ∧
  (∀ (s : State) (q : QueuedRecord) (rest : List QueuedRecord) (slot : Nat), s.supply.takesEvents = true →
    s.part.jrn.queue = q :: rest → q.bytes.length = 64 → slot = 0x200000 + 64 * (q.seq % 16384) →
    (s.arb.port = some (.burst .journal .journalFirst) →
      ∃ t, exec .dramBurstDone s = .next t ∧ Mem.readBytes t.part.written slot 32 = q.bytes.take 32 ∧
        t.part.read slot 32 = q.bytes.take 32 ∧
        (∀ a, a < slot ∨ slot + 32 ≤ a →
          Mem.read t.part.written a = Mem.read s.part.written a ∧ Mem.read t.part.dram a = Mem.read s.part.dram a) ∧
        (t.awaits .journal .journalSecond) ∧
        Unchanged [.memory, .written] s t) ∧
    (s.arb.port = some (.burst .journal .journalSecond) →
      ∃ t, exec .dramBurstDone s = .next t ∧ Mem.readBytes t.part.written (slot + 32) 32 = q.bytes.drop 32 ∧
        t.part.read (slot + 32) 32 = q.bytes.drop 32 ∧
        (∀ a, a < slot + 32 ∨ slot + 64 ≤ a →
          Mem.read t.part.written a = Mem.read s.part.written a ∧ Mem.read t.part.dram a = Mem.read s.part.dram a) ∧
        t.part.jrn = { s.part.jrn with queue := rest, crcWritten := s.part.jrn.crcWritten + 1 } ∧
        (rest ≠ [] → t.awaits .journal .journalFirst) ∧
        Unchanged [.jrn, .memory, .written] s t)) ∧
  (∀ s : State, s.supply.takesEvents = true →
    (∀ k, s.part.jrn.crcWritten = k + 1 → s.part.jrn.appends = [] →
      ∃ t, exec .appendCommitted s = .next t ∧
        t.part.jrn =
          { s.part.jrn with
            crcWritten := k, commit := s.part.jrn.commit + 1
            ctr := { s.part.jrn.ctr with written := bump s.part.jrn.ctr.written } } ∧
        Unchanged [.jrn] s t) ∧
    (∀ k n r x o body hold noTally, s.part.jrn.crcWritten = k + 1 →
      s.part.jrn.appends = [⟨s.part.jrn.commit, .till n⟩] → x = s.part.port n → x.req = some r →
      r.work = .appended o body hold noTally → x.lows = [] → x.state ≠ .offline →
      ∃ t, exec .appendCommitted s = .next t ∧
        t.part.jrn =
          { s.part.jrn with
            crcWritten := k, commit := s.part.jrn.commit + 1, appends := []
            ctr := { s.part.jrn.ctr with written := bump s.part.jrn.ctr.written } } ∧
        t.part.port n =
          { x with
            sale :=
              match o with
              | .keep => x.sale
              | .opens number => some { number := number, lines := [], running := 0, tenders := 0, tally := [] }
              | .closes | .abandons => none
            state :=
              match o with
              | .keep => x.state
              | .opens _ => .inSale
              | .closes | .abandons => .idle
            grace :=
              match o with
              | .keep => x.grace
              | .opens _ | .closes | .abandons => false
            last := some ⟨r.seq, r.kind, s.part.replyContent r.seq r.kind .ok hold noTally body⟩
            req := some { r with work := .replying }
            out := some (tillFrame (s.part.replyContent r.seq r.kind .ok hold noTally body)), outBusy := false } ∧
        t.part.till.ctr = o.count s.part.till.ctr ∧ OtherPorts n s t ∧ Unchanged [.jrn, .till] s t)) ∧
  (∀ (p : Part) (q : Nat),
    ((q = 0 ∨ p.jrn.next ≤ q) → p.readAnswer q = .beyond) ∧
    (1 ≤ q → q < p.jrn.next → p.jrn.commit ≤ q → p.readAnswer q = .notCommitted) ∧
    (∀ bs, 1 ≤ q → q < p.jrn.next → q < p.jrn.commit → bs = p.read (0x200000 + 64 * (q % 16384)) 64 →
      (fieldAt bs 0 4 ≠ q → p.readAnswer q = .gone) ∧
      (fieldAt bs 0 4 = q → crcGood bs = false → p.readAnswer q = .damaged) ∧
      (fieldAt bs 0 4 = q → crcGood bs = true → p.readAnswer q = .record bs)))

/-- RELEASE_RECEIVED from the holder of the night it names, outside DUPLICATE: a sequence above the highest release
taken and below the next sequence becomes the pending release and is counted; with no header write in flight a header
write with it is asked; with one in flight that carries the journal's request it waits for that one's notice; with one
in flight for others only, its value joins the header copy and the journal waits for the further write. Any other is
counted as ignored; the release sequence stands. From any other station it is ignored and counted. HEADER_WRITE_DONE of
a header write for the journal moves the release sequence to the value the header written carried, clears an equal
pending release and asks a further write for a higher one. -/
def Obligations.ReleasesMoveWithTheHeader : Prop :=
  (∀ (s : State) (it : RxItem) (b : BranchBody) (q : Nat), s.supply.takesEvents = true →
    s.part.branchFrame .journal kindRelease = some (it, b) → b.payload.length = 6 → q = fieldAt b.payload 2 4 →
    (s.part.trk.holderFor (fieldAt b.payload 0 2) = some it.station → s.part.pres.joining ≠ .duplicate →
      (s.part.jrn.pending.getD s.part.jrn.release < q → q < s.part.jrn.next →
        ∃ t, exec .releaseReceived s = .next t ∧
          t.part.jrn =
            { s.part.jrn with
              pending := some q
              ctr := { s.part.jrn.ctr with releasesTaken := bump s.part.jrn.ctr.releasesTaken } } ∧
          (s.part.hdr.inFlight = none →
            t.part.hdr.copy = { s.part.hdr.copy with release := q } ∧
              t.part.hdr.inFlight = some (t.part.hdr.copy, [.journal])) ∧
          (∀ h users, s.part.hdr.inFlight = some (h, users) →
            (HeaderUser.journal ∈ users → t.part.hdr = s.part.hdr) ∧
              (HeaderUser.journal ∉ users →
                t.part.hdr =
                  { s.part.hdr with
                    copy := { s.part.hdr.copy with release := q }
                    waiting :=
                      if HeaderUser.journal ∈ s.part.hdr.waiting then s.part.hdr.waiting
                      else s.part.hdr.waiting ++ [.journal] })) ∧
          t.part.fwd = (s.part.fwd.without it).giveBack it.buf ∧ Unchanged [.jrn, .hdr, .fwd] s t) ∧
      ((q ≤ s.part.jrn.pending.getD s.part.jrn.release ∨ s.part.jrn.next ≤ q) →
        ∃ t, exec .releaseReceived s = .next t ∧
          t.part.jrn =
            { s.part.jrn with
              ctr := { s.part.jrn.ctr with releasesIgnored := bump s.part.jrn.ctr.releasesIgnored } } ∧
          t.part.fwd = (s.part.fwd.without it).giveBack it.buf ∧ Unchanged [.jrn, .fwd] s t)) ∧
    ((s.part.trk.holderFor (fieldAt b.payload 0 2) ≠ some it.station ∨ s.part.pres.joining = .duplicate) →
      ∃ t, exec .releaseReceived s = .next t ∧
        t.part.jrn =
          { s.part.jrn with
            ctr := { s.part.jrn.ctr with releasesIgnored := bump s.part.jrn.ctr.releasesIgnored } } ∧
        t.part.fwd = (s.part.fwd.without it).giveBack it.buf ∧ Unchanged [.jrn, .fwd] s t)) ∧
  (∀ (s : State) (h : HeaderCopy), s.supply.takesEvents = true → s.part.hdr.inFlight = some (h, [.journal]) →
    s.part.hdr.finished = true → s.part.hdr.waiting = [] →
    (s.part.jrn.pending = some h.release →
      ∃ t, exec .headerWriteDone s = .next t ∧
        t.part.jrn = { s.part.jrn with release := h.release, pending := none } ∧
        t.part.hdr = { s.part.hdr with inFlight := none, finished := false } ∧ Unchanged [.jrn, .hdr] s t) ∧
    (∀ q, s.part.jrn.pending = some q → q ≠ h.release →
      ∃ t, exec .headerWriteDone s = .next t ∧
        t.part.jrn = { s.part.jrn with release := h.release } ∧
        t.part.hdr.copy = { s.part.hdr.copy with release := q } ∧
        t.part.hdr.inFlight = some (t.part.hdr.copy, [.journal]) ∧ Unchanged [.jrn, .hdr] s t))

/-! ### the shelf label service -/

/-- HEAD_STATUS_RECEIVED, and LABEL_FRAME_UNKNOWN of a frame of no known kind, which is counted, return the frame's
buffer, restart the head timer and make the head UP (with nothing queued, so that no order follows). HEAD_TIMER_EXPIRY
makes the head DOWN, counts one loss, takes the frames not begun out of the label link queue with their buffers
returned, and queues the entry of an order of the window again (here of an item without an entry, so ROUTINE). -/
def Obligations.LabelHeadComesAndGoes : Prop :=
  (∀ (s : State) (it : RxItem) (b : Bytes), s.supply.takesEvents = true → s.part.linkFrame .label .label = some (it, b) →
    s.part.lab.urgent = [] → s.part.lab.routine = [] →
    (fieldAt b 0 1 = 4 →
      ∃ t, exec .headStatusReceived s = .next t ∧ t.part.lab = { s.part.lab with headUp := true, headTimer := true } ∧
        t.part.fwd = (s.part.fwd.without it).giveBack it.buf ∧
        Unchanged [.lab, .fwd] s t) ∧
    (fieldAt b 0 1 ≠ 2 → fieldAt b 0 1 ≠ 3 → fieldAt b 0 1 ≠ 4 →
      ∃ t, exec .labelFrameUnknown s = .next t ∧
        t.part.lab =
          { s.part.lab with
            headUp := true, headTimer := true, ctr := { s.part.lab.ctr with unknown := bump s.part.lab.ctr.unknown } } ∧
        t.part.fwd = (s.part.fwd.without it).giveBack it.buf ∧
        Unchanged [.lab, .fwd] s t)) ∧
  (∀ s : State, s.supply.takesEvents = true → s.part.lab.headUp = true → s.part.lab.headTimer = true →
    (s.part.lab.window = [] →
      ∃ t, exec .headTimerExpiry s = .next t ∧
        t.part.lab =
          { s.part.lab with
            headUp := false, headTimer := false
            ctr := { s.part.lab.ctr with headLosses := bump s.part.lab.ctr.headLosses } } ∧
        t.part.fwd.labels = s.part.fwd.labels.filter (·.begun) ∧
        t.part.fwd.free = s.part.fwd.free ++ (s.part.fwd.labels.filter fun x => !x.begun).map (·.buf.num) ∧
        t.part.fwd.ctr = s.part.fwd.ctr ∧ Unchanged [.lab, .fwd] s t) ∧
    (∀ o e, s.part.lab.window = [o] → s.part.labelAt o.index = some e → o.index < 4096 → e.state = .sent →
      e.tag = some o.tag → (s.part.find e.item).1 = .notFound →
      ∃ t, exec .headTimerExpiry s = .next t ∧ t.part.lab.headUp = false ∧ t.part.lab.window = [] ∧
        t.part.lab.routine = s.part.lab.routine ++ [o.index] ∧ t.part.lab.urgent = s.part.lab.urgent ∧
        t.part.labelBytes o.index =
          ({ e with state := .queued, queue := some .routine, tag := none, due := none } : LabelEntry).bytes ∧
        (∀ a, a < labelAddr o.index ∨ labelAddr o.index + 48 ≤ a →
          Mem.read t.part.dram a = Mem.read s.part.dram a) ∧
        Unchanged [.lab, .fwd, .memory] s t))

/-- ORDER_TIMER_TICK with the head UP, room in the window and one entry queued whose shown content is not its target:
the entry leaves the queue, becomes SENT with a fresh order tag and the target as its sent content, and a LABEL ORDER
with both joins the label link queue. LABEL_REPORT_RECEIVED for that order: SHOWN stores the content shown and makes the
entry CURRENT where that is still its target, and QUEUED again, with no event, where it is not and no further order
goes; NO ANSWER makes a failed attempt, RETRY WAIT for 30 s times the attempts; REFUSED makes it UNREACHABLE; a report
of no order is counted stray. REPORT_TIMER_EXPIRY counts one report timeout and makes a failed attempt, and the fifth
makes it UNREACHABLE; that of an order whose entry has gone is counted all the same, and the order leaves the window.
(Outside a label walk, nothing else queued. The order is begun at once where nothing stands before it: assumption 39.)
-/
def Obligations.OrdersAndReports : Prop :=
  (∀ (s : State) (i b : Nat) (free : List Nat) (e : LabelEntry) (c : LabelContent), s.supply.takesEvents = true →
    s.part.ordersGo = true → s.part.lab.urgent = [] → s.part.lab.routine = [i] → s.part.labelAt i = some e → i < 4096 →
    (((s.part.find e.item).1 = .notFound ∧ c = .blank) ∨
      ∃ k x, (s.part.find e.item).1 = .entry k x ∧ c = e.layout.cut x.stage5.1 x.stage5.2.1 x.stage5.2.2) →
    (e.shown = .unknown ∨ e.shown ≠ c) → s.part.lab.window = [] → s.part.fwd.free = b :: free → s.bufferFree →
    ∃ t, exec .orderTimerTick s = .next t ∧
      t.part.lab =
        { s.part.lab with
          routine := [], orderTag := s.part.lab.orderTag + 1
          window := [⟨s.part.lab.orderTag, i, e.id, c, false, false⟩]
          tallies := (s.part.lab.tallies.remove e).add { e with state := .sent } } ∧
      t.part.labelBytes i =
        ({ e with state := .sent, queue := none, sent := some c, tag := some s.part.lab.orderTag, due := none } :
          LabelEntry).bytes ∧
      t.part.fwd.free = free ∧
      (∃ x, t.part.fwd.labels = beginHead (s.part.fwd.labels ++ [x]) ∧ x.tag = s.part.lab.orderTag ∧ x.buf.num = b ∧
        t.part.bufBytes x.buf = orderBytes s.part.lab.orderTag e.id c) ∧
      (∀ a, (a < labelAddr i ∨ labelAddr i + 48 ≤ a) → (a < bufAddr b ∨ bufAddr b + 2048 ≤ a) →
        Mem.read t.part.dram a = Mem.read s.part.dram a) ∧
      Unchanged [.links, .lab, .fwd, .memory] s t) ∧
  (∀ (s : State) (o : Order) (e : LabelEntry), s.supply.takesEvents = true → s.part.lab.headUp = true →
    s.part.lab.urgent = [] → s.part.lab.routine = [] → s.part.lab.walk = .none → s.part.lab.window = [o] →
    s.part.labelAt o.index = some e → o.index < 4096 → o.sentNotice = true → o.orphan = false →
    s.part.price.events = [] →
    (∀ it b bat, s.part.linkFrame .label .label = some (it, b) → fieldAt b 0 1 = 2 → b.length = 8 →
      Battery.ofCode (fieldAt b 6 1) = some bat →
      ((o.tag ≠ byteAt b 1 ∨ o.id ≠ fieldAt b 2 3) → fieldAt b 5 1 ≤ 2 →
        ∃ t, exec .labelReportReceived s = .next t ∧
          t.part.lab =
            { s.part.lab with
              headTimer := true, ctr := { s.part.lab.ctr with strayReports := bump s.part.lab.ctr.strayReports } } ∧
          t.part.fwd = (s.part.fwd.without it).giveBack it.buf ∧ Unchanged [.lab, .fwd] s t) ∧
      (o.tag = byteAt b 1 → o.id = fieldAt b 2 3 →
        (∀ c, fieldAt b 5 1 = 0 →
          (((s.part.find e.item).1 = .notFound ∧ c = .blank) ∨
            ∃ k x, (s.part.find e.item).1 = .entry k x ∧ c = e.layout.cut x.stage5.1 x.stage5.2.1 x.stage5.2.2) →
          o.content = c →
          ∃ t, exec .labelReportReceived s = .next t ∧ t.part.lab.window = [] ∧
            t.part.lab.ctr = { s.part.lab.ctr with shown := bump s.part.lab.ctr.shown } ∧
            t.part.labelBytes o.index =
              ({ e with battery := bat, signal := fieldAt b 7 1, shown := c, attempts := 0, tag := none
                        state := .current } : LabelEntry).bytes ∧
            t.part.price = { s.part.price with events := [.current e.item] } ∧
            t.part.fwd = (s.part.fwd.without it).giveBack it.buf ∧
            (∀ a, a < labelAddr o.index ∨ labelAddr o.index + 48 ≤ a →
              Mem.read t.part.dram a = Mem.read s.part.dram a) ∧
            Unchanged [.lab, .fwd, .price, .memory] s t) ∧
        (∀ c w u, fieldAt b 5 1 = 0 →
          (((s.part.find e.item).1 = .notFound ∧ c = .blank ∧ u = PushQueue.routine) ∨
            ∃ k x, (s.part.find e.item).1 = .entry k x ∧ c = e.layout.cut x.stage5.1 x.stage5.2.1 x.stage5.2.2 ∧
              u = if x.hold = true then .urgent else .routine) →
          (o.content ≠ c ∨ o.content = .unknown) → s.part.ordersGo = false →
          w =
            { e with
              battery := bat, signal := fieldAt b 7 1, shown := o.content, attempts := 0, tag := none, due := none
              state := .queued, queue := some u } →
          ∃ t, exec .labelReportReceived s = .next t ∧
            t.part.lab =
              { s.part.lab with
                headTimer := true, window := []
                urgent := if u = .urgent then [o.index] else [], routine := if u = .routine then [o.index] else []
                tallies := (s.part.lab.tallies.remove e).add w
                ctr := { s.part.lab.ctr with shown := bump s.part.lab.ctr.shown } } ∧
            t.part.labelBytes o.index = w.bytes ∧ t.part.fwd = (s.part.fwd.without it).giveBack it.buf ∧
            (∀ a, a < labelAddr o.index ∨ labelAddr o.index + 48 ≤ a →
              Mem.read t.part.dram a = Mem.read s.part.dram a) ∧
            Unchanged [.lab, .fwd, .memory] s t) ∧
        (fieldAt b 5 1 = 1 → e.attempts + 1 < 5 →
          ∃ t, exec .labelReportReceived s = .next t ∧ t.part.lab.window = [] ∧
            t.part.lab.ctr = { s.part.lab.ctr with noAnswer := bump s.part.lab.ctr.noAnswer } ∧
            t.part.labelBytes o.index =
              ({ e with state := .retryWait, attempts := e.attempts + 1, tag := none
                        due := some (s.part.lab.retrySeconds + (e.attempts + 1) * 30) } : LabelEntry).bytes ∧
            t.part.fwd = (s.part.fwd.without it).giveBack it.buf ∧
            (∀ a, a < labelAddr o.index ∨ labelAddr o.index + 48 ≤ a →
              Mem.read t.part.dram a = Mem.read s.part.dram a) ∧
            Unchanged [.lab, .fwd, .memory] s t) ∧
        (fieldAt b 5 1 = 2 →
          ∃ t, exec .labelReportReceived s = .next t ∧ t.part.lab.window = [] ∧
            t.part.lab.ctr =
              { s.part.lab.ctr with
                refused := bump s.part.lab.ctr.refused, unreachable := bump s.part.lab.ctr.unreachable } ∧
            t.part.labelBytes o.index =
              ({ e with battery := bat, signal := fieldAt b 7 1, state := .unreachable, queue := none, tag := none
                        due := none } : LabelEntry).bytes ∧
            t.part.fwd = (s.part.fwd.without it).giveBack it.buf ∧
            (∀ a, a < labelAddr o.index ∨ labelAddr o.index + 48 ≤ a →
              Mem.read t.part.dram a = Mem.read s.part.dram a) ∧
            Unchanged [.lab, .fwd, .memory] s t))) ∧
    (e.attempts + 1 < 5 →
      ∃ t, exec (.reportTimerExpiry o.tag) s = .next t ∧ t.part.lab.window = [] ∧
        t.part.lab.ctr = { s.part.lab.ctr with timeouts := bump s.part.lab.ctr.timeouts } ∧
        t.part.labelBytes o.index =
          ({ e with state := .retryWait, attempts := e.attempts + 1, tag := none
                    due := some (s.part.lab.retrySeconds + (e.attempts + 1) * 30) } : LabelEntry).bytes ∧
        (∀ a, a < labelAddr o.index ∨ labelAddr o.index + 48 ≤ a →
          Mem.read t.part.dram a = Mem.read s.part.dram a) ∧
        Unchanged [.lab, .memory] s t) ∧
    (e.attempts + 1 = 5 →
      ∃ t, exec (.reportTimerExpiry o.tag) s = .next t ∧ t.part.lab.window = [] ∧
        t.part.lab.ctr =
          { s.part.lab.ctr with
            timeouts := bump s.part.lab.ctr.timeouts, unreachable := bump s.part.lab.ctr.unreachable } ∧
        t.part.labelBytes o.index =
          ({ e with state := .unreachable, queue := none, attempts := 5, tag := none, due := none } :
            LabelEntry).bytes ∧
        (∀ a, a < labelAddr o.index ∨ labelAddr o.index + 48 ≤ a →
          Mem.read t.part.dram a = Mem.read s.part.dram a) ∧
        Unchanged [.lab, .memory] s t)) ∧
  (∀ (s : State) (o : Order), s.supply.takesEvents = true → s.part.lab.urgent = [] → s.part.lab.routine = [] →
    s.part.lab.window = [o] → o.sentNotice = true → o.orphan = true →
    ∃ t, exec (.reportTimerExpiry o.tag) s = .next t ∧
      t.part.lab =
        { s.part.lab with
          window := [], ctr := { s.part.lab.ctr with timeouts := bump s.part.lab.ctr.timeouts } } ∧
      Unchanged [.lab] s t)

/-- LABEL_NOTICE_RECEIVED of a known label without the refresh mark stores its battery, and of an unknown one is counted
stray; with the refresh mark it queues the entry again: a CURRENT one UNKNOWN, with "label not current" where it is
accounted for, one in RETRY WAIT, an UNREACHABLE one with its attempts at 0; a QUEUED or SENT one stays.
RETRY_TIMER_TICK counts a second and queues the entry that is due. COUNT_PASS_DONE sets the outstanding counts to 0 and
lets the walk take index 0. LABEL_WALK_ENTRY passes over a free place and an entry already walked, and walks any other:
where its content is its target, a CURRENT entry stays, a QUEUED one leaves its queue, one in RETRY WAIT or UNREACHABLE
is cleared, and each is CURRENT; where it is not, or the entry is SENT, "label not current" is sent and a CURRENT entry
is queued; at the last index the walk ends and is counted. WARM_WALK_PASS_DONE reads the table: it frees the entry whose
CRC fails and counts it lost, queues one found QUEUED, SENT or in RETRY WAIT, makes the tallies, and begins a label
walk. No other byte of memory changes. (Items without an entry in the active bank, so that the target is BLANK and the
queue ROUTINE; no order goes; no events waiting; one entry, or none, in a table read whole; an empty active bank where a
walk ends. The count pass is asked as an event, and the walk's end taken at once: assumption 16.) -/
def Obligations.NoticesRetriesAndWalks : Prop :=
  ∀ s : State, s.supply.takesEvents = true → s.part.price.events = [] → s.part.ordersGo = false →
    (∀ it b, s.part.linkFrame .label .label = some (it, b) → fieldAt b 0 1 = 3 → b.length = 6 →
      s.part.labelsReady = true → s.part.lab.headUp = true →
      (∀ i e e' bat, s.part.findLabel (fieldAt b 1 3) = some (i, e) → Battery.ofCode (fieldAt b 4 1) = some bat →
        fieldAt b 1 3 ≠ 0 → e' = { e with battery := bat } →
        ((fieldAt b 5 1 = 0 ∨ (fieldAt b 5 1 = 1 ∧ (e.state = .queued ∨ e.state = .sent))) →
          ∃ t, exec .labelNoticeReceived s = .next t ∧ t.part.labelBytes i = e'.bytes ∧
            t.part.lab =
              { s.part.lab with headTimer := true, tallies := (s.part.lab.tallies.remove e).add e' } ∧
            t.part.fwd = (s.part.fwd.without it).giveBack it.buf ∧
            (∀ a, a < labelAddr i ∨ labelAddr i + 48 ≤ a → Mem.read t.part.dram a = Mem.read s.part.dram a) ∧
            Unchanged [.lab, .fwd, .memory] s t) ∧
        (∀ w, fieldAt b 5 1 = 1 → (e.state = .current ∨ e.state = .retryWait ∨ e.state = .unreachable) →
          (s.part.find e.item).1 = .notFound →
          w =
            { e' with
              state := .queued, queue := some .routine, tag := none, due := none
              shown := if e.state = .current then .unknown else e.shown
              attempts := if e.state = .unreachable then 0 else e.attempts } →
          ∃ t, exec .labelNoticeReceived s = .next t ∧ t.part.labelBytes i = w.bytes ∧
            t.part.lab =
              { s.part.lab with
                headTimer := true, routine := s.part.lab.routine ++ [i], tallies := (s.part.lab.tallies.remove e).add w } ∧
            t.part.price =
              { s.part.price with
                events := if e.state = .current ∧ s.part.accounts e = true then [.notCurrent e.item] else [] } ∧
            t.part.fwd = (s.part.fwd.without it).giveBack it.buf ∧
            (∀ a, a < labelAddr i ∨ labelAddr i + 48 ≤ a → Mem.read t.part.dram a = Mem.read s.part.dram a) ∧
            Unchanged [.lab, .fwd, .price, .memory] s t)) ∧
      (s.part.findLabel (fieldAt b 1 3) = none →
        ∃ t, exec .labelNoticeReceived s = .next t ∧
          t.part.lab =
            { s.part.lab with
              headTimer := true, ctr := { s.part.lab.ctr with strayNotices := bump s.part.lab.ctr.strayNotices } } ∧
          t.part.fwd = (s.part.fwd.without it).giveBack it.buf ∧ Unchanged [.lab, .fwd] s t)) ∧
    (s.part.labelsReady = true →
      (s.part.labelsInUse = [] →
        ∃ t, exec .retryTimerTick s = .next t ∧
          t.part.lab = { s.part.lab with retrySeconds := s.part.lab.retrySeconds + 1 } ∧ Unchanged [.lab] s t) ∧
      (∀ i e d, s.part.labelsInUse = [i] → s.part.labelAt i = some e → e.state = .retryWait → e.due = some d →
        d ≤ s.part.lab.retrySeconds + 1 → (s.part.find e.item).1 = .notFound →
        ∃ t, exec .retryTimerTick s = .next t ∧
          t.part.lab =
            { s.part.lab with
              retrySeconds := s.part.lab.retrySeconds + 1, routine := s.part.lab.routine ++ [i]
              tallies := (s.part.lab.tallies.remove e).add { e with state := .queued } } ∧
          t.part.labelBytes i =
            ({ e with state := .queued, queue := some .routine, tag := none, due := none } : LabelEntry).bytes ∧
          (∀ a, a < labelAddr i ∨ labelAddr i + 48 ≤ a → Mem.read t.part.dram a = Mem.read s.part.dram a) ∧
          Unchanged [.lab, .memory] s t)) ∧
    (∀ i, s.part.lab.walk = .walking i →
      ((s.part.labelAt i = none ∨ ∃ e, s.part.labelAt i = some e ∧ e.walked = true) → i + 1 < 4096 →
        ∃ t, exec .labelWalkEntry s = .next t ∧ t.part.lab = { s.part.lab with walk := .walking (i + 1) } ∧
          Unchanged [.lab] s t) ∧
      (∀ e, s.part.labelAt i = some e → i + 1 < 4096 → e.walked = false → (s.part.find e.item).1 = .notFound →
        (∀ w, e.shown = .blank → e.state ≠ .sent →
          w =
            { e with
              walked := true, state := .current, queue := if e.state = .queued then none else e.queue
              attempts := if e.state = .retryWait ∨ e.state = .unreachable then 0 else e.attempts
              due := if e.state = .retryWait ∨ e.state = .unreachable then none else e.due } →
          ∃ t, exec .labelWalkEntry s = .next t ∧ t.part.labelBytes i = w.bytes ∧
            t.part.lab =
              { s.part.lab with
                walk := .walking (i + 1), tallies := (s.part.lab.tallies.remove e).add w
                urgent := if e.state = .queued then s.part.lab.urgent.filter fun x => decide (x ≠ i) else s.part.lab.urgent
                routine :=
                  if e.state = .queued then s.part.lab.routine.filter fun x => decide (x ≠ i) else s.part.lab.routine } ∧
            (∀ a, a < labelAddr i ∨ labelAddr i + 48 ≤ a → Mem.read t.part.dram a = Mem.read s.part.dram a) ∧
            Unchanged [.lab, .memory] s t) ∧
        (∀ w, (e.shown ≠ .blank ∨ e.state = .sent) →
          w =
            (if e.state = .current then
              { e with walked := true, state := .queued, queue := some .routine, tag := none, due := none }
            else { e with walked := true }) →
          ∃ t, exec .labelWalkEntry s = .next t ∧ t.part.labelBytes i = w.bytes ∧
            t.part.lab =
              { s.part.lab with
                walk := .walking (i + 1), tallies := (s.part.lab.tallies.remove e).add w
                routine := if e.state = .current then s.part.lab.routine ++ [i] else s.part.lab.routine } ∧
            t.part.price = { s.part.price with events := [.notCurrent e.item] } ∧
            (∀ a, a < labelAddr i ∨ labelAddr i + 48 ≤ a → Mem.read t.part.dram a = Mem.read s.part.dram a) ∧
            Unchanged [.lab, .price, .memory] s t)) ∧
      (s.part.labelAt i = none → i = 4095 → s.part.price.activeCount = 0 →
        ∃ t, exec .labelWalkEntry s = .next t ∧
          t.part.lab =
            { s.part.lab with walk := .none, ctr := { s.part.lab.ctr with walks := bump s.part.lab.ctr.walks } } ∧
          Unchanged [.lab] s t)) ∧
    (s.part.lab.warm = .pass → s.part.lab.headUp = false →
      ((∀ j, j < 4096 → s.part.labelAt j = none) →
        ∃ t, exec .warmWalkPassDone s = .next t ∧
          t.part.lab =
            { s.part.lab with warm := .none, walk := .counting, urgent := [], routine := [], tallies := {} } ∧
          t.part.price = { s.part.price with events := [.countPass] } ∧ Unchanged [.lab, .price] s t) ∧
      (∀ i e, i < 4096 → s.part.labelAt i = some e → (∀ j, j < 4096 → j ≠ i → s.part.labelAt j = none) →
        (crcGood (s.part.labelBytes i) = false →
          ∃ t, exec .warmWalkPassDone s = .next t ∧
            t.part.lab =
              { s.part.lab with warm := .none, walk := .counting, urgent := [], routine := [], tallies := {} } ∧
            t.part.labelAt i = none ∧ t.part.memCtr.labelsLost = bump s.part.memCtr.labelsLost ∧
            t.part.memCtr.headerWrites = s.part.memCtr.headerWrites ∧
            t.part.price = { s.part.price with events := [.countPass] } ∧
            (∀ a, a < labelAddr i ∨ labelAddr i + 48 ≤ a → Mem.read t.part.dram a = Mem.read s.part.dram a) ∧
            Unchanged [.lab, .price, .memory, .memoryCounters] s t) ∧
        (crcGood (s.part.labelBytes i) = true → e.walked = false → (s.part.find e.item).1 = .notFound →
          ((e.state = .current ∨ e.state = .unreachable) →
            ∃ t, exec .warmWalkPassDone s = .next t ∧
              t.part.lab =
                { s.part.lab with
                  warm := .none, walk := .counting, urgent := [], routine := [], tallies := ({} : LabelTallies).add e } ∧
              t.part.price = { s.part.price with events := [.countPass] } ∧ Unchanged [.lab, .price] s t) ∧
          (∀ w, e.state ≠ .current → e.state ≠ .unreachable →
            w = { e with state := .queued, queue := some .routine, tag := none, due := none } →
            ∃ t, exec .warmWalkPassDone s = .next t ∧ t.part.labelBytes i = w.bytes ∧
              t.part.lab =
                { s.part.lab with
                  warm := .none, walk := .counting, urgent := [], routine := [i]
                  tallies := ({} : LabelTallies).add w } ∧
              t.part.price = { s.part.price with events := [.countPass] } ∧
              (∀ a, a < labelAddr i ∨ labelAddr i + 48 ≤ a → Mem.read t.part.dram a = Mem.read s.part.dram a) ∧
              Unchanged [.lab, .price, .memory] s t)))) ∧
    (∀ u : State, u = { s with part := { s.part with price := { s.part.price with events := [.countPass] } } } →
      s.part.lab.walk = .counting →
      (∀ e, s.part.price.activeCount = 1 → s.part.goodEntry s.part.price.active 0 = some e →
        ∃ t, exec .countPassDone u = .next t ∧ t.part.lab = { s.part.lab with walk := .walking 0 } ∧
          t.part.price = s.part.price ∧
          t.part.entryBytes s.part.price.active 0 = ({ e with count := 0 } : BankEntry).bytes ∧
          (∀ a, a < entryAddr s.part.price.active 0 ∨ entryAddr s.part.price.active 0 + 32 ≤ a →
            Mem.read t.part.dram a = Mem.read s.part.dram a) ∧
          Unchanged [.lab, .price, .memory] u t))

/-! ### guest wireless metering -/

/-- RADIO_STATUS_RECEIVED, and GUEST_FRAME_UNKNOWN of a frame of no known kind, which is counted, return the buffer and
restart the radio timer; on a radio that was DOWN the first makes it UP and queues ENDED ALL with reason RESET.
RADIO_TIMER_EXPIRY makes it DOWN, counts one loss, frees the guest admitted, counted RADIO, without a notice, and takes
the frames not begun out of the queue, each a NO EXIT discard; guest frames still waiting bring it UP no more.
METER_TICK moves the meter time on by 10 ms (assumption 25), works the budget for the window in force and sets the cap
from it and the guests active, gives the one active guest its share up to the cap, and ends one idle for 600 s, with its
notice. No other byte of memory changes. (That a guest frame of any kind still waiting brings the radio UP no more is
assumption 17. The buffer of the ENDED ALL is asked before the frame's own returns: assumption 91. A notice is begun at
once where nothing stands before it: assumption 39.) -/
def Obligations.RadioAndMeter : Prop :=
  (∀ (s : State) (it : RxItem) (b : Bytes), s.supply.takesEvents = true → s.part.linkFrame .guest .guest = some (it, b) →
    it.stale = false →
    (fieldAt b 0 1 = 4 → s.part.gst.radioUp = true →
      ∃ t, exec .radioStatusReceived s = .next t ∧ t.part.gst = { s.part.gst with radioTimer := true } ∧
        t.part.fwd = (s.part.fwd.without it).giveBack it.buf ∧
        Unchanged [.gst, .fwd] s t) ∧
    (∀ m rest, fieldAt b 0 1 = 4 → s.part.gst.radioUp = false → s.bufferFree → s.part.fwd.guestCount < 192 →
      s.part.fwd.free = m :: rest →
      ∃ t, exec .radioStatusReceived s = .next t ∧
        t.part.gst = { s.part.gst with radioUp := true, radioTimer := true } ∧
        (∃ x, t.part.fwd.radio = beginHead (s.part.fwd.radio ++ [x]) ∧
          t.part.bufBytes x.buf = noticeBytes .endedAll 0 0 0 4 0 0 0) ∧
        (∀ a, a < bufAddr m ∨ bufAddr m + 2048 ≤ a → Mem.read t.part.dram a = Mem.read s.part.dram a) ∧
        Unchanged [.links, .gst, .fwd, .memory] s t) ∧
    (fieldAt b 0 1 ≠ 1 → fieldAt b 0 1 ≠ 4 → s.part.gst.radioUp = true →
      ∃ t, exec .guestFrameUnknown s = .next t ∧
        t.part.gst =
          { s.part.gst with
            radioTimer := true, ctr := { s.part.gst.ctr with unknown := bump s.part.gst.ctr.unknown } } ∧
        t.part.fwd = (s.part.fwd.without it).giveBack it.buf ∧
        Unchanged [.gst, .fwd] s t)) ∧
  (∀ (s : State) (i : Nat), s.supply.takesEvents = true → s.part.gst.radioUp = true → s.part.gst.radioTimer = true →
    s.part.admitted = [i] →
    ∃ t, exec .radioTimerExpiry s = .next t ∧
      t.part.gst =
        { s.part.gst with
          radioUp := false, radioTimer := false
          ctr :=
            { s.part.gst.ctr with
              radioLosses := bump s.part.gst.ctr.radioLosses, endedRadio := bump s.part.gst.ctr.endedRadio } } ∧
      t.part.guestAt i = none ∧
      (∀ a, a < guestAddr i ∨ guestAddr i + 32 ≤ a → Mem.read t.part.dram a = Mem.read s.part.dram a) ∧
      t.part.fwd.radio = s.part.fwd.radio.filter (·.begun) ∧
      t.part.fwd.free = s.part.fwd.free ++ (s.part.fwd.radio.filter fun x => !x.begun).map (·.buf.num) ∧
      t.part.fwd.ctr =
        { s.part.fwd.ctr with
          noExit := bumpBy (s.part.fwd.radio.filter fun x => !x.begun).length s.part.fwd.ctr.noExit } ∧
      (∀ x ∈ t.part.fwd.taken, x.2.line = .guest → x.2.stale = true) ∧
      Unchanged [.gst, .fwd, .memory] s t) ∧
  (∀ (s : State) (now : Nat), s.supply.takesEvents = true → now = (s.part.gst.meterTime + 10) % 4294967296 →
    (s.part.admitted = [] →
      ∃ t, exec .meterTick s = .next t ∧ t.part.gst = { s.part.gst with meterTime := now, budget := s.part.budget, cap := 1536 } ∧
        Unchanged [.gst] s t) ∧
    (∀ i g share tokens, s.part.admitted = [i] → s.part.guestAt i = some g →
      (now + 4294967296 - g.lastActive) % 4294967296 < 1000 → share = s.part.budget →
      tokens = min (max (4 * share) 1536) (min g.tokens (max (4 * share) 1536) + share) → tokens ≠ g.tokens →
      ∃ t, exec .meterTick s = .next t ∧
        t.part.gst = { s.part.gst with meterTime := now, budget := share, cap := max (4 * share) 1536 } ∧
        t.part.read (guestAddr i) 32 = ({ g with tokens := tokens } : Guest).bytes ∧
        (∀ a, a < guestAddr i ∨ guestAddr i + 32 ≤ a → Mem.read t.part.dram a = Mem.read s.part.dram a) ∧
        Unchanged [.gst, .memory] s t) ∧
    (∀ i g m rest, s.part.admitted = [i] → s.part.guestAt i = some g →
      600000 ≤ (now + 4294967296 - g.lastActive) % 4294967296 → s.part.gst.radioUp = true → s.bufferFree →
      s.part.fwd.guestCount < 192 → s.part.fwd.free = m :: rest →
      ∃ t, exec .meterTick s = .next t ∧ t.part.guestAt i = none ∧
        t.part.gst =
          { s.part.gst with
            meterTime := now, budget := s.part.budget, cap := 1536
            ctr := { s.part.gst.ctr with endedIdle := bump s.part.gst.ctr.endedIdle } } ∧
        (∃ x, t.part.fwd.radio = beginHead (s.part.fwd.radio ++ [x]) ∧
          t.part.bufBytes x.buf = noticeBytes .ended g.device i 0 1 g.up g.down g.drops) ∧
        (∀ a, (a < guestAddr i ∨ guestAddr i + 32 ≤ a) → (a < bufAddr m ∨ bufAddr m + 2048 ≤ a) →
          Mem.read t.part.dram a = Mem.read s.part.dram a) ∧
        Unchanged [.links, .gst, .fwd, .memory] s t))

/-- GUEST_UP_RECEIVED with the radio UP: a malformed frame is counted and its buffer returned. A packet of an admitted
guest within its tokens, whose lookup gives TRUNK with the line UP, joins the PACKET part of the trunk queue with the
guest's own address as its source, and the guest pays its tokens; one above them is dropped BUDGET, the guest's drops
counted, and where LIMITED is due, a second after the last one or with none yet, it is sent and its time set. An unknown
device is dropped NO EXIT where guests are not admitted, and else takes a FREE entry with 1,536 tokens, the budget of
the last tick not being 0, is sent ADMITTED, and its packet is policed; with no FREE entry it replaces the guest idle
for longest, where that is more than 60 s, which is sent ENDED with reason REPLACED; with every entry taken and none
idle so long the device is refused, counted, and sent REFUSED FULL, and its packet is dropped FULL. PACKET_RECEIVED of a
packet whose lookup gives LOCAL GUEST: to an admitted guest with the tokens for it, it joins the guest radio queue as a
GUEST DOWN and the guest pays; above them it is dropped BUDGET, with LIMITED where due; to a FREE entry, with the radio
DOWN or above 1,536 bytes it is dropped NO EXIT. CLOCK_TICK into a night window of rate 0 ends the guest admitted with
reason NIGHT, the budget 0. (The head of a queue is begun at once: assumption 39.) -/
def Obligations.GuestsAreAdmittedAndPoliced : Prop :=
  (∀ (s : State) (it : RxItem) (b packet : Bytes), s.supply.takesEvents = true →
    s.part.linkFrame .guest .guest = some (it, b) → it.stale = false → fieldAt b 0 1 = 1 → s.part.gst.radioUp = true →
    packet = b.drop 7 → it.buf.num < Config.poolSize →
    ((fieldAt b 1 6 = 0 ∨ fieldAt b 1 6 = 281474976710655 ∨ packet.length < 10 ∨ 1536 < packet.length ∨
        packetLength packet ≠ packet.length) →
      ∃ t, exec .guestUpReceived s = .next t ∧
        t.part.gst =
          { s.part.gst with
            radioTimer := true, ctr := { s.part.gst.ctr with malformed := bump s.part.gst.ctr.malformed } } ∧
        t.part.fwd = (s.part.fwd.without it).giveBack it.buf ∧
        Unchanged [.gst, .fwd] s t) ∧
    (fieldAt b 1 6 ≠ 0 → fieldAt b 1 6 ≠ 281474976710655 → 10 ≤ packet.length → packet.length ≤ 1536 →
      packetLength packet = packet.length →
      (∀ i g, s.part.findGuest (fieldAt b 1 6) = some (i, g) →
        (∀ c e, s.part.cfg = some c → packet.length ≤ g.tokens → s.part.inGuestBlock (packetDest packet) = false →
          s.part.fwd.lookup (packetDest packet) = some e → e.exit = .trunk → s.part.trk.line = .up →
          s.part.fwd.exchange = [] → s.part.fwd.packets = [] →
          ∃ t, exec .guestUpReceived s = .next t ∧ t.part.gst = { s.part.gst with radioTimer := true } ∧
            t.part.read (guestAddr i) 32 =
              ({ g with
                  lastActive := s.part.gst.meterTime, tokens := g.tokens - packet.length
                  up := min 4294967295 (g.up + packet.length) } : Guest).bytes ∧
            (∃ buf, t.part.fwd.packets = [⟨buf, .packet, true⟩] ∧ buf.num = it.buf.num ∧ buf.mark = it.buf.mark ∧
              t.part.bufBytes buf = 1 :: withSource (guestAddress c c.station i) packet) ∧
            t.part.fwd.ctr = { s.part.fwd.ctr with toTrunk := bump s.part.fwd.ctr.toTrunk } ∧
            (∀ a, (a < guestAddr i ∨ guestAddr i + 32 ≤ a) →
              (a < bufAddr it.buf.num ∨ bufAddr it.buf.num + 2048 ≤ a) →
              Mem.read t.part.dram a = Mem.read s.part.dram a) ∧
            Unchanged [.links, .gst, .fwd, .memory] s t) ∧
        (g.tokens < packet.length → s.part.limitedDue g = false →
          ∃ t, exec .guestUpReceived s = .next t ∧
            t.part.gst =
              { s.part.gst with
                radioTimer := true, ctr := { s.part.gst.ctr with dropsBudget := bump s.part.gst.ctr.dropsBudget } } ∧
            t.part.read (guestAddr i) 32 =
              ({ g with lastActive := s.part.gst.meterTime, drops := bump g.drops } : Guest).bytes ∧
            (∀ a, a < guestAddr i ∨ guestAddr i + 32 ≤ a → Mem.read t.part.dram a = Mem.read s.part.dram a) ∧
            t.part.fwd = (s.part.fwd.without it).giveBack it.buf ∧
            Unchanged [.gst, .fwd, .memory] s t) ∧
        (∀ m rest, g.tokens < packet.length → s.part.limitedDue g = true → s.bufferFree → s.part.fwd.guestCount < 192 →
          s.part.fwd.free = m :: rest →
          ∃ t, exec .guestUpReceived s = .next t ∧
            t.part.gst =
              { s.part.gst with
                radioTimer := true, ctr := { s.part.gst.ctr with dropsBudget := bump s.part.gst.ctr.dropsBudget } } ∧
            t.part.read (guestAddr i) 32 =
              ({ g with
                  lastActive := s.part.gst.meterTime, drops := bump g.drops, limited := some s.part.gst.meterTime } :
                Guest).bytes ∧
            (∃ x, t.part.fwd.radio = beginHead (s.part.fwd.radio ++ [x]) ∧
              t.part.bufBytes x.buf = noticeBytes .limited g.device i 0 0 0 0 0) ∧
            t.part.fwd.free = rest ++ [it.buf.num] ∧
            (∀ a, (a < guestAddr i ∨ guestAddr i + 32 ≤ a) → (a < bufAddr m ∨ bufAddr m + 2048 ≤ a) →
              Mem.read t.part.dram a = Mem.read s.part.dram a) ∧
            Unchanged [.links, .gst, .fwd, .memory] s t)) ∧
      (s.part.findGuest (fieldAt b 1 6) = none →
        (∀ m rest, s.part.pres.joining.guestAdmission = true → s.part.gst.cleared = 256 → s.bufferFree →
          s.part.fwd.guestCount < 192 → s.part.fwd.free = m :: rest →
          (∀ j, j < 256 → ∃ g, s.part.guestAt j = some g ∧ s.part.idle g ≤ 60000) →
          ∃ t, exec .guestUpReceived s = .next t ∧
            t.part.gst =
              { s.part.gst with
                radioTimer := true
                ctr :=
                  { s.part.gst.ctr with
                    refusals := bump s.part.gst.ctr.refusals, dropsFull := bump s.part.gst.ctr.dropsFull } } ∧
            (∃ x, t.part.fwd.radio = beginHead (s.part.fwd.radio ++ [x]) ∧
              t.part.bufBytes x.buf = noticeBytes .refusedFull (fieldAt b 1 6) 0 0 0 0 0 0) ∧
            t.part.fwd.free = rest ++ [it.buf.num] ∧
            (∀ a, a < bufAddr m ∨ bufAddr m + 2048 ≤ a → Mem.read t.part.dram a = Mem.read s.part.dram a) ∧
            Unchanged [.links, .gst, .fwd, .memory] s t) ∧
        (s.part.pres.joining.guestAdmission = false →
          ∃ t, exec .guestUpReceived s = .next t ∧
            t.part.gst =
              { s.part.gst with
                radioTimer := true, ctr := { s.part.gst.ctr with dropsNoExit := bump s.part.gst.ctr.dropsNoExit } } ∧
            t.part.fwd = (s.part.fwd.without it).giveBack it.buf ∧
            Unchanged [.gst, .fwd] s t) ∧
        (∀ c e free, s.part.pres.joining.guestAdmission = true → s.part.gst.cleared = 256 → s.part.cfg = some c →
          s.part.gst.budget ≠ 0 → s.bufferFree → s.part.fwd.guestCount < 191 → it.buf.num ∉ s.part.fwd.free →
          s.part.inGuestBlock (packetDest packet) = false → s.part.fwd.lookup (packetDest packet) = some e →
          e.exit = .trunk → s.part.trk.line = .up → s.part.fwd.exchange = [] → s.part.fwd.packets = [] →
          (∀ i m, s.part.fwd.free = m :: free →
            ((List.range 256).find? fun j => (s.part.guestAt j).isNone) = some i →
            ∃ t, exec .guestUpReceived s = .next t ∧
              t.part.gst =
                { s.part.gst with
                  radioTimer := true, ctr := { s.part.gst.ctr with admissions := bump s.part.gst.ctr.admissions } } ∧
              t.part.read (guestAddr i) 32 =
                ({ device := fieldAt b 1 6, admitted := s.part.gst.meterTime, lastActive := s.part.gst.meterTime
                   tokens := 1536 - packet.length, up := packet.length, down := 0, drops := 0, limited := none } :
                  Guest).bytes ∧
              (∃ x, t.part.fwd.radio = beginHead (s.part.fwd.radio ++ [x]) ∧
                t.part.bufBytes x.buf =
                  noticeBytes .admitted (fieldAt b 1 6) i (guestAddress c c.station i) 0 0 0 0) ∧
              (∃ buf, t.part.fwd.packets = [⟨buf, .packet, true⟩] ∧ buf.num = it.buf.num) ∧
              (∀ a, (a < guestAddr i ∨ guestAddr i + 32 ≤ a) → (a < bufAddr m ∨ bufAddr m + 2048 ≤ a) →
                (a < bufAddr it.buf.num ∨ bufAddr it.buf.num + 2048 ≤ a) →
                Mem.read t.part.dram a = Mem.read s.part.dram a) ∧
              Unchanged [.links, .gst, .fwd, .memory] s t) ∧
          (∀ i g m n, s.part.fwd.free = m :: n :: free → s.part.fwd.free.Nodup → 10 ≤ s.part.fwd.free.length →
            (∀ j, j < 256 → s.part.guestAt j ≠ none) → i < 256 → s.part.guestAt i = some g → 60000 < s.part.idle g →
            (∀ j h, j < 256 → j ≠ i → s.part.guestAt j = some h → s.part.idle h < s.part.idle g) →
            ∃ t, exec .guestUpReceived s = .next t ∧
              t.part.gst =
                { s.part.gst with
                  radioTimer := true
                  ctr :=
                    { s.part.gst.ctr with
                      admissions := bump s.part.gst.ctr.admissions
                      replacements := bump s.part.gst.ctr.replacements
                      endedReplaced := bump s.part.gst.ctr.endedReplaced } } ∧
              t.part.read (guestAddr i) 32 =
                ({ device := fieldAt b 1 6, admitted := s.part.gst.meterTime, lastActive := s.part.gst.meterTime
                   tokens := 1536 - packet.length, up := packet.length, down := 0, drops := 0, limited := none } :
                  Guest).bytes ∧
              (∃ x y, t.part.fwd.radio = beginHead (s.part.fwd.radio ++ [x, y]) ∧
                t.part.bufBytes x.buf = noticeBytes .ended g.device i 0 2 g.up g.down g.drops ∧
                t.part.bufBytes y.buf =
                  noticeBytes .admitted (fieldAt b 1 6) i (guestAddress c c.station i) 0 0 0 0) ∧
              (∃ buf, t.part.fwd.packets = [⟨buf, .packet, true⟩] ∧ buf.num = it.buf.num) ∧
              (∀ a, (a < guestAddr i ∨ guestAddr i + 32 ≤ a) → (a < bufAddr m ∨ bufAddr m + 2048 ≤ a) →
                (a < bufAddr n ∨ bufAddr n + 2048 ≤ a) → (a < bufAddr it.buf.num ∨ bufAddr it.buf.num + 2048 ≤ a) →
                Mem.read t.part.dram a = Mem.read s.part.dram a) ∧
              Unchanged [.links, .gst, .fwd, .memory] s t))))) ∧
  (∀ (s : State) (it : RxItem) (b packet : Bytes) (p : Part) (e : RouteEntry) (i : Nat), s.supply.takesEvents = true →
    s.part.engineFrame .trunk = some (it, b) → fieldAt b 0 1 = 1 → it.buf.num < Config.poolSize →
    p = s.part.engineTakes it → packet = b.drop 1 → i = packetDest packet % 256 → s.part.trk.line = .up →
    s.part.inGuestBlock (packetSource packet) = false → s.part.fwd.lookup (packetDest packet) = some e →
    e.exit = .localGuest →
    ((s.part.gst.radioUp = false ∨ 1536 < packet.length ∨ s.part.guestAt i = none) →
      ∃ t, exec .packetReceived s = .next t ∧
        t.part.gst =
          { s.part.gst with ctr := { s.part.gst.ctr with dropsNoExit := bump s.part.gst.ctr.dropsNoExit } } ∧
        t.part.fwd =
          { (p.fwd.giveBack it.buf) with ctr := { s.part.fwd.ctr with delivered := bump s.part.fwd.ctr.delivered } } ∧
        t.part.price = p.price ∧ Unchanged [.gst, .fwd, .price] s t) ∧
    (∀ g, s.part.gst.radioUp = true → packet.length ≤ 1536 → s.part.guestAt i = some g →
      (packet.length ≤ g.tokens →
        ∃ t, exec .packetReceived s = .next t ∧
          t.part.gst =
            { s.part.gst with ctr := { s.part.gst.ctr with delivered := bump s.part.gst.ctr.delivered } } ∧
          t.part.read (guestAddr i) 32 =
            ({ g with tokens := g.tokens - packet.length, down := min 4294967295 (g.down + packet.length) } :
              Guest).bytes ∧
          (∃ x, t.part.fwd.radio = beginHead (s.part.fwd.radio ++ [x]) ∧ x.buf.num = it.buf.num ∧
            t.part.bufBytes x.buf = be 1 2 ++ be 6 g.device ++ be 1 i ++ packet) ∧
          t.part.fwd.ctr = { s.part.fwd.ctr with delivered := bump s.part.fwd.ctr.delivered } ∧
          (∀ a, (a < guestAddr i ∨ guestAddr i + 32 ≤ a) → (a < bufAddr it.buf.num ∨ bufAddr it.buf.num + 2048 ≤ a) →
            Mem.read t.part.dram a = Mem.read s.part.dram a) ∧
          Unchanged [.links, .gst, .fwd, .price, .memory] s t) ∧
      (g.tokens < packet.length → s.part.limitedDue g = false →
        ∃ t, exec .packetReceived s = .next t ∧
          t.part.gst =
            { s.part.gst with ctr := { s.part.gst.ctr with dropsBudget := bump s.part.gst.ctr.dropsBudget } } ∧
          t.part.read (guestAddr i) 32 = ({ g with drops := bump g.drops } : Guest).bytes ∧
          t.part.fwd =
            { (p.fwd.giveBack it.buf) with ctr := { s.part.fwd.ctr with delivered := bump s.part.fwd.ctr.delivered } } ∧
          (∀ a, a < guestAddr i ∨ guestAddr i + 32 ≤ a → Mem.read t.part.dram a = Mem.read s.part.dram a) ∧
          Unchanged [.gst, .fwd, .price, .memory] s t) ∧
      (∀ m rest, g.tokens < packet.length → s.part.limitedDue g = true → s.bufferFree → s.part.fwd.guestCount < 192 →
        s.part.fwd.free = m :: rest →
        ∃ t, exec .packetReceived s = .next t ∧
          t.part.gst =
            { s.part.gst with ctr := { s.part.gst.ctr with dropsBudget := bump s.part.gst.ctr.dropsBudget } } ∧
          t.part.read (guestAddr i) 32 =
            ({ g with drops := bump g.drops, limited := some s.part.gst.meterTime } : Guest).bytes ∧
          (∃ x, t.part.fwd.radio = beginHead (s.part.fwd.radio ++ [x]) ∧
            t.part.bufBytes x.buf = noticeBytes .limited g.device i 0 0 0 0 0) ∧
          t.part.fwd.free = rest ++ [it.buf.num] ∧
          (∀ a, (a < guestAddr i ∨ guestAddr i + 32 ≤ a) → (a < bufAddr m ∨ bufAddr m + 2048 ≤ a) →
            Mem.read t.part.dram a = Mem.read s.part.dram a) ∧
          Unchanged [.links, .gst, .fwd, .price, .memory] s t))) ∧
  (∀ (s : State) (c : Clock) (k : ConfigBlock) (d i m : Nat) (g : Guest) (rest : List Nat) (p : Part),
    s.supply.takesEvents = true → c = s.part.pres.clock.advance → s.part.pres.clock.valid = true →
    s.part.nightNow = none → p = (s.part.modPres fun x => { x with clock := c }) → p.nightNow = some d →
    s.part.trk.line ≠ .up → s.part.cfg = some k → k.gNight = 0 → s.part.price.trigger = .disarmed →
    s.part.jrn.scan = none → s.part.jrn.accepts (p.reportContents d) = false → s.part.admitted = [i] →
    s.part.guestAt i = some g → s.part.gst.radioUp = true → s.part.fwd.free = m :: rest → s.bufferFree →
    s.part.fwd.guestCount < 192 →
    ∃ t, exec .clockTick s = .next t ∧
      t.part.gst =
        { s.part.gst with budget := 0, ctr := { s.part.gst.ctr with endedNight := bump s.part.gst.ctr.endedNight } } ∧
      t.part.guestAt i = none ∧
      (∃ x, t.part.fwd.radio = beginHead (s.part.fwd.radio ++ [x]) ∧
        t.part.bufBytes x.buf = noticeBytes .ended g.device i 0 3 g.up g.down g.drops) ∧
      (∀ a, (a < guestAddr i ∨ guestAddr i + 32 ≤ a) → (a < bufAddr m ∨ bufAddr m + 2048 ≤ a) →
        Mem.read t.part.dram a = Mem.read s.part.dram a) ∧
      Unchanged [.jrn, .trk, .pres, .price, .links, .fwd, .gst, .memory] s t)

/-! ### the night exchange with head office -/

/-- CLOCK_TICK into a night window, with the append accepted: the eight records of the STATION REPORT are appended,
every counter carried into it returns to 0 (those of the arbiter are seen where it gives no new grant at once), the
lowest free count to the free count and the duplicate-seen mark is cleared, and the night state is NONE for the new
night with an empty upload table; with the append refused it is counted and no counter is cleared. The eight records
carry, in parts 1 to 8, the fields of chapter 12 in its order: 2 bytes for a counter, and 1 byte, 255 at the most, for
the counters of the links' framers and of the ports; the rest of each record's 50 bytes is 0. (The trunk line not UP, so
that no claim follows; the night rate not 0; no trigger armed.) -/
def Obligations.WindowStartReports : Prop :=
  (∀ (part zone : Nat) (fields : Bytes), fields.length ≤ 50 →
    (Content.stationReport part zone fields).bytes =
      be 1 part ++ be 2 zone ++ fields ++ List.replicate (50 - fields.length) 0) ∧
  (∀ (p : Part) (d zone state night : Nat) (twos ones : List Nat → Bytes) (two one : LineCounters → List Nat),
    (∀ l, twos l = (l.map (be 2)).flatten) → (∀ l, ones l = (l.map fun n => be 1 (min 255 n)).flatten) →
    (∀ x, two x = [x.sent, x.kept, x.crc, x.residue, x.long, x.aborted, x.overrun, x.noBuffer]) →
    (∀ x, one x = [x.sent, x.kept, x.crc, x.residue, x.long, x.aborted, x.overrun]) →
    (∀ c, p.cfg = some c → zone = c.zone) → (p.cfg = none → zone = 0) →
    state =
      (match p.price.staging.state with
       | .empty => 0 | .receiving => 1 | .gaps => 2 | .complete => 3 | .activating => 4) →
    night =
      (match p.trk.night with
       | .none => 0 | .claiming => 1 | .holding => 2 | .standby => 3 | .done => 4 | .failed => 5 | .cut => 6) →
    p.reportContents d =
      [ .stationReport 1 zone
          (be 1 p.ownStation.val ++ be 2 d ++ be 4 p.price.activeGen ++ be 1 state ++
            be 4 (if state = 0 then 0 else p.price.staging.generation) ++ be 4 p.jrn.next ++ be 4 p.jrn.release ++
            be 1 (if p.pres.dupSeen = true then 1 else 0) ++ be 1 night ++ be 2 p.trk.nightDay ++
            twos
              [p.jrn.lastScan, p.lab.tallies.inUse, p.lab.tallies.unreachable, p.lab.tallies.low, p.lab.tallies.critical,
                p.admitted.length, p.activeCount, p.memCtr.urgent, p.memCtr.promotions, p.memCtr.headerWrites,
                p.memCtr.labelsLost]),
        .stationReport 2 zone
          (twos
              (two p.branch.framer.ctr ++
                [p.branch.contentionLost, p.branch.collisions, p.branch.collisionDrops, p.branch.framer.ctr.underruns]) ++
            ones
              (two p.trunkFramer.ctr ++ [p.trunkFramer.ctr.underruns] ++ two p.labelFramer.ctr ++
                [p.labelFramer.ctr.underruns] ++ one p.guestFramer.ctr ++ [p.guestFramer.ctr.underruns])),
        .stationReport 3 zone
          (ones
            (((List.finRange 8).map fun n =>
              [(p.port n).ctr.good, (p.port n).ctr.crc, (p.port n).ctr.badLength, (p.port n).ctr.framing,
                (p.port n).ctr.breaks, (p.port n).ctr.lineDowns]).flatten)),
        .stationReport 4 zone
          (twos
            [p.trk.ctr.carrierLosses, p.trk.ctr.framesUnknown, p.trk.ctr.unexpected, p.trk.ctr.claimsSent,
              p.trk.ctr.claimsWithdrawn, p.trk.ctr.sessionsDone, p.trk.ctr.failedLogon, p.trk.ctr.failedCarrier,
              p.trk.ctr.failedAck, p.trk.ctr.failedFile, p.trk.ctr.cutWindow, p.trk.ctr.cutLower, p.trk.ctr.blocksSent,
              p.trk.ctr.blocksResent, p.trk.ctr.ackExpiries, p.trk.ctr.acksIgnored, p.trk.ctr.releasesSent,
              p.trk.ctr.lateReleases, p.trk.ctr.skipped, p.trk.ctr.failed, p.trk.ctr.rebroadcastsLost]),
        .stationReport 5 zone
          (twos
            [p.gst.ctr.admissions, p.gst.ctr.replacements, p.gst.ctr.refusals, p.gst.ctr.dropsFull, p.gst.ctr.dropsBudget,
              p.gst.ctr.dropsNoExit, p.gst.ctr.dropsNoBuffer, p.gst.ctr.malformed, p.gst.ctr.delivered,
              p.gst.ctr.endedIdle, p.gst.ctr.endedReplaced, p.gst.ctr.endedNight, p.gst.ctr.endedRadio,
              p.gst.ctr.noticesLost, p.gst.ctr.unknown, p.gst.ctr.radioLosses, p.jrn.ctr.written, p.jrn.ctr.saleRefused,
              p.jrn.ctr.stationNotWritten, p.jrn.ctr.releasesTaken, p.jrn.ctr.releasesIgnored, p.jrn.ctr.damagedReads,
              p.jrn.ctr.powerWritten, p.jrn.ctr.powerNotWritten, p.jrn.ctr.scanEnds]),
        .stationReport 6 zone
          (twos
            [p.call.ctr.complete, p.call.ctr.endedEarly, p.call.ctr.noAnswer, p.call.ctr.busy, p.call.ctr.refused,
              p.call.ctr.recallTimeout, p.call.ctr.broken, p.call.ctr.gaveAccept, p.call.ctr.gaveDefer,
              p.call.ctr.gaveBusy, p.call.ctr.gaveRefuse, p.call.ctr.servedBroken, p.call.ctr.deferredExpired,
              p.call.ctr.recallsStale, p.call.ctr.strayFrames, p.till.ctr.busyRefusals, p.till.ctr.refusalsDropped,
              p.till.ctr.repeats, p.till.ctr.notReady, p.till.ctr.full, p.till.ctr.closed, p.till.ctr.abandonedTill,
              p.till.ctr.abandonedRestart, p.till.ctr.abandonedLost, p.till.ctr.notWritten]),
        .stationReport 7 zone
          (twos
            [p.fwd.ctr.forwarded, p.fwd.ctr.toTrunk, p.fwd.ctr.delivered, p.fwd.ctr.isolated, p.fwd.ctr.noExit,
              p.fwd.ctr.static, p.fwd.ctr.oversize, p.fwd.ctr.malformed, p.fwd.ctr.collision, p.fwd.ctr.unknownKind,
              p.fwd.ctr.empty, p.fwd.ctr.reserve, p.fwd.ctr.guestLimit, p.fwd.ctr.relayLimit, p.fwd.ctr.lowestFree,
              p.pres.ctr.taken, p.pres.ctr.malformed, p.pres.ctr.skipped, p.pres.ctr.ownHeard, p.pres.ctr.peersLost]),
        .stationReport 8 zone
          (twos
            [p.price.ctr.headsIgnored, p.price.ctr.partsIgnored, p.price.ctr.recordsBad, p.price.ctr.recordsClamped,
              p.price.ctr.newerHead, p.price.ctr.check, p.price.ctr.entries, p.price.ctr.order, p.price.ctr.sync,
              p.price.ctr.switches, p.price.ctr.holdsReleased, p.price.ctr.holdsCleared, p.price.ctr.countFaults,
              p.price.ctr.entryFaults, p.lab.ctr.ordersSent, p.lab.ctr.shown, p.lab.ctr.noAnswer, p.lab.ctr.timeouts,
              p.lab.ctr.refused, p.lab.ctr.unreachable, p.lab.ctr.strayReports, p.lab.ctr.strayNotices,
              p.lab.ctr.unknown, p.lab.ctr.headLosses, p.lab.ctr.walks]) ]) ∧
  (∀ (s : State) (c : Clock) (d : Nat) (p : Part), s.supply.takesEvents = true → c = s.part.pres.clock.advance →
    s.part.pres.clock.valid = true → s.part.nightNow = none →
    p = (s.part.modPres fun x => { x with clock := c }) → p.nightNow = some d → s.part.trk.line ≠ .up →
    (∀ k, s.part.cfg = some k → k.gNight ≠ 0) → s.part.price.trigger = .disarmed → s.part.jrn.scan = none →
    (s.part.jrn.accepts (p.reportContents d) = true →
      ∃ t, exec .clockTick s = .next t ∧ t.part.jrn.next = s.part.jrn.next + 8 ∧
        t.part.jrn.queue = s.part.jrn.queue ++ stampRecords 255 c s.part.jrn.next (p.reportContents d) ∧
        t.part.jrn.ctr = {} ∧ t.part.pres = { s.part.pres with clock := c, dupSeen := false, ctr := {} } ∧
        t.part.trk = { s.part.trk with ctr := {}, night := .none, nightDay := d, table := [] } ∧
        t.part.fwd = { s.part.fwd with ctr := { lowestFree := s.part.fwd.free.length } } ∧
        t.part.call = { s.part.call with ctr := {} } ∧ t.part.lab = { s.part.lab with ctr := {} } ∧
        t.part.gst = { s.part.gst with ctr := {} } ∧ t.part.price.ctr = {} ∧ t.part.till.ctr = {} ∧
        (∀ n, t.part.port n = { s.part.port n with ctr := {} }) ∧
        (∀ l, t.part.framer l = { s.part.framer l with ctr := {} }) ∧
        t.part.branch =
          { s.part.branch with
            framer := { s.part.branch.framer with ctr := {} }, contentionLost := 0, collisions := 0
            collisionDrops := 0 } ∧
        t.part.memCtr.headerWrites = 0 ∧ t.part.memCtr.labelsLost = 0 ∧
        (s.arb.port.isSome = true → t.part.memCtr = {}) ∧ Unchanged [.jrn, .pres, .trk, .fwd, .call, .lab,
          .gst, .price, .till, .branch, .trunkFramer, .labelFramer, .guestFramer, .memoryCounters] s t) ∧
    (s.part.jrn.accepts (p.reportContents d) = false →
      ∃ t, exec .clockTick s = .next t ∧
        t.part.jrn =
          { s.part.jrn with
            ctr := { s.part.jrn.ctr with stationNotWritten := bump s.part.jrn.ctr.stationNotWritten } } ∧
        t.part.trk = { s.part.trk with night := .none, nightDay := d, table := [] } ∧
        t.part.pres = { s.part.pres with clock := c } ∧ Unchanged [.jrn, .trk, .pres, .price] s t))

/-- TRUNK_CLAIM_RECEIVED with no session names the claimant in the holder record where that record is empty for the
night, and the lower number where it is not; a CLAIMING station whose claim for that night waits in its queue withdraws
it, counted, and is STANDBY; a HOLDING station with a higher number steps down to STANDBY, counted, with BYE sent where
its HELLO has been. A trunk frame of no known kind, and a message with no session, are counted. SESSION_TIMER_TICK
builds a message that was owed. LOGON_TIMER_EXPIRY in LOGON, DOWNLOAD_TIMER_EXPIRY in DOWNLOAD and the third
ACK_TIMER_EXPIRY end the session FAILED under their cause with its timers stopped; at the last of these an open pull is
asked to end early, and the buffers of the block list, outstanding or not, and of the open BLOCKs return, but for a
BLOCK the framer has begun, which leaves the list and keeps its buffer; an earlier one sends an outstanding BLOCK of the
relay set again. CLOCK_TICK out of the night window makes STANDBY, and CLAIMING with its claim withdrawn from its queue,
NONE, leaves NONE, DONE, FAILED and CUT, and cuts a session, counted, with BYE sent. (With no frame of the session in a
queue, no pull open and no open BLOCK, but at the third ACK_TIMER_EXPIRY; no trigger armed. The order in which the
BLOCKs' buffers return is assumption 81. A frame is begun at once where nothing stands before it: assumption 39.) -/
def Obligations.SessionsBeginAndEnd : Prop :=
  (∀ (s : State) (it : RxItem) (b : BranchBody) (d : Nat), s.supply.takesEvents = true →
    s.part.branchFrame .trunk kindClaim = some (it, b) → b.payload.length = 2 → d = fieldAt b.payload 0 2 →
    ((s.part.trk.night = .none ∨ s.part.trk.night = .done) →
      ∃ t, exec .trunkClaimReceived s = .next t ∧
        (s.part.trk.holderFor d = none → t.part.trk = { s.part.trk with holder := some (it.station, d) }) ∧
        (∀ x, s.part.trk.holderFor d = some x → it.station < x →
          t.part.trk = { s.part.trk with holder := some (it.station, d) }) ∧
        (∀ x, s.part.trk.holderFor d = some x → ¬ it.station < x → t.part.trk = s.part.trk) ∧
        t.part.fwd = (s.part.fwd.without it).giveBack it.buf ∧ Unchanged [.trk, .fwd] s t) ∧
    (∀ q, s.part.trk.night = .claiming → s.part.trk.nightDay = d → it.station ≠ s.part.ownStation →
      s.part.trk.holderFor d = none → s.part.fwd.control = [q] → q.owner = .claim d →
      s.part.branch.tx.inHand ≠ some .control →
      ∃ t, exec .trunkClaimReceived s = .next t ∧
        t.part.trk =
          { s.part.trk with
            night := .standby, holder := some (it.station, d)
            ctr := { s.part.trk.ctr with claimsWithdrawn := bump s.part.trk.ctr.claimsWithdrawn } } ∧
        t.part.fwd = { ((s.part.fwd.without it).giveBack it.buf).giveBack q.buf with control := [] } ∧
        Unchanged [.branch, .trk, .fwd] s t) ∧
    (∀ m rest, s.part.trk.night = .holding → s.part.trk.nightDay = d →
      s.part.trk.holderFor d = some s.part.ownStation → it.station < s.part.ownStation → s.part.fwd.exchange = [] →
      s.part.trk.pull = .idle → (∀ e ∈ s.part.trk.table, e.openBlock = none) → s.part.trk.blocks = [] →
      s.part.trk.line = .up → s.part.fwd.packets = [] → s.bufferFree → s.part.fwd.free = m :: rest →
      ∃ t, exec .trunkClaimReceived s = .next t ∧
        t.part.trk =
          { s.part.trk with
            night := .standby, holder := some (it.station, d), logonTimer := false, ackTimer := false
            downloadTimer := false, sessionTimer := false, owed := [], own := .idle, turn := none
            ctr := { s.part.trk.ctr with cutLower := bump s.part.trk.ctr.cutLower } } ∧
        (s.part.trk.helloSent = false →
          t.part.fwd = (s.part.fwd.without it).giveBack it.buf ∧ Unchanged [.trk, .fwd] s t) ∧
        (s.part.trk.helloSent = true →
          (∃ buf, t.part.fwd.exchange = [⟨buf, .bye false, true⟩] ∧ t.part.bufBytes buf = byeBytes false) ∧
          (∀ a, a < bufAddr m ∨ bufAddr m + 2048 ≤ a → Mem.read t.part.dram a = Mem.read s.part.dram a) ∧
          Unchanged [.links, .trk, .fwd, .memory] s t))) ∧
  (∀ (s : State) (it : RxItem) (b : Bytes), s.supply.takesEvents = true →
    (∀ p, s.part.engineFrame .trunk = some (it, b) → p = s.part.engineTakes it → fieldAt b 0 1 ≠ 1 →
      fieldAt b 0 1 ≠ 2 →
      ∃ t, exec .trunkFrameUnknown s = .next t ∧
        t.part.trk =
          { s.part.trk with
            ctr := { s.part.trk.ctr with framesUnknown := bump s.part.trk.ctr.framesUnknown } } ∧
        t.part.fwd = p.fwd.giveBack it.buf ∧ t.part.price = p.price ∧ Unchanged [.trk, .fwd, .price] s t) ∧
    (s.part.linkFrame .trunk .trunk = some (it, b) → fieldAt b 0 1 = 2 → s.part.trk.night ≠ .holding →
      ∃ t, exec .exchangeUnexpected s = .next t ∧
        t.part.trk =
          { s.part.trk with ctr := { s.part.trk.ctr with unexpected := bump s.part.trk.ctr.unexpected } } ∧
        t.part.fwd = (s.part.fwd.without it).giveBack it.buf ∧ Unchanged [.trk, .fwd] s t)) ∧
  (∀ (s : State) (c : Clock) (d : Nat) (p : Part), s.supply.takesEvents = true → c = s.part.pres.clock.advance →
    s.part.pres.clock.valid = true → s.part.nightNow = some d → p = (s.part.modPres fun x => { x with clock := c }) →
    p.nightNow = none → s.part.price.trigger = .disarmed →
    ((s.part.trk.night = .none ∨ s.part.trk.night = .done ∨ s.part.trk.night = .failed ∨ s.part.trk.night = .cut) →
      ∃ t, exec .clockTick s = .next t ∧ t.part.pres = { s.part.pres with clock := c } ∧
        Unchanged [.pres, .price] s t) ∧
    (s.part.trk.night = .standby →
      ∃ t, exec .clockTick s = .next t ∧ t.part.pres = { s.part.pres with clock := c } ∧
        t.part.trk = { s.part.trk with night := .none } ∧ Unchanged [.pres, .trk, .price] s t) ∧
    (∀ q, s.part.trk.night = .claiming → s.part.fwd.control = [q] → q.owner = .claim s.part.trk.nightDay →
      s.part.branch.tx.inHand ≠ some .control →
      ∃ t, exec .clockTick s = .next t ∧ t.part.pres = { s.part.pres with clock := c } ∧
        t.part.trk = { s.part.trk with night := .none } ∧
        t.part.fwd = { (s.part.fwd.giveBack q.buf) with control := [] } ∧
        Unchanged [.branch, .fwd, .pres, .trk, .price] s t) ∧
    (∀ m rest, s.part.trk.night = .holding → s.part.fwd.exchange = [] → s.part.trk.pull = .idle →
      (∀ e ∈ s.part.trk.table, e.openBlock = none) → s.part.trk.blocks = [] → s.part.trk.line = .up →
      s.part.fwd.packets = [] → s.bufferFree → s.part.fwd.free = m :: rest →
      ∃ t, exec .clockTick s = .next t ∧ t.part.pres = { s.part.pres with clock := c } ∧
        t.part.trk =
          { s.part.trk with
            night := .cut, logonTimer := false, ackTimer := false, downloadTimer := false, sessionTimer := false
            owed := [], own := .idle, turn := none
            ctr := { s.part.trk.ctr with cutWindow := bump s.part.trk.ctr.cutWindow } } ∧
        (∃ buf, t.part.fwd.exchange = [⟨buf, .bye false, true⟩] ∧ t.part.bufBytes buf = byeBytes false) ∧
        (∀ a, a < bufAddr m ∨ bufAddr m + 2048 ≤ a → Mem.read t.part.dram a = Mem.read s.part.dram a) ∧
        Unchanged [.links, .pres, .trk, .fwd, .price, .memory] s t)) ∧
  (∀ s : State, s.supply.takesEvents = true → s.part.trk.night = .holding → s.part.fwd.exchange = [] →
    (∀ what m rest, s.part.trk.sessionTimer = true → s.part.trk.owed = [what] → s.bufferFree → s.part.trk.line = .up →
      s.part.fwd.free = m :: rest →
      s.part.fwd.packets = [] → (s.part.messageBytes what).length ≤ 2048 →
      ∃ t, exec .sessionTimerTick s = .next t ∧ t.part.trk = { s.part.trk with owed := [] } ∧
        (∃ buf, t.part.fwd.exchange = [⟨buf, what, true⟩] ∧ t.part.bufBytes buf = s.part.messageBytes what) ∧
        (∀ a, a < bufAddr m ∨ bufAddr m + 2048 ≤ a → Mem.read t.part.dram a = Mem.read s.part.dram a) ∧
        Unchanged [.links, .trk, .fwd, .memory] s t) ∧
    (s.part.trk.pull = .idle → (∀ e ∈ s.part.trk.table, e.openBlock = none) →
      (∀ b n, s.part.trk.ackTimer = true → n = s.part.trk.expiries + 1 → n < 3 → s.part.trk.blocks = [b] →
        b.queued = true → b.inRelay = true → s.part.trk.line = .up → s.part.fwd.packets = [] →
        ∃ t, exec .ackTimerExpiry s = .next t ∧
          t.part.trk =
            { s.part.trk with
              expiries := n, blocks := [{ b with inRelay := false }]
              ctr :=
                { s.part.trk.ctr with
                  ackExpiries := bump s.part.trk.ctr.ackExpiries
                  blocksResent := bump s.part.trk.ctr.blocksResent } } ∧
          t.part.fwd = { s.part.fwd with exchange := [⟨b.buf, .block (!b.sentOnce), true⟩] } ∧
          Unchanged [.links, .trk, .fwd] s t) ∧
      (s.part.trk.blocks = [] →
        (s.part.trk.logonTimer = true → s.part.trk.phase = .logon →
          ∃ t, exec .logonTimerExpiry s = .next t ∧
            t.part.trk =
              { s.part.trk with
                night := .failed, logonTimer := false, ackTimer := false, downloadTimer := false, sessionTimer := false
                owed := [], own := .idle, turn := none
                ctr := { s.part.trk.ctr with failedLogon := bump s.part.trk.ctr.failedLogon } } ∧
            Unchanged [.trk] s t) ∧
        (s.part.trk.downloadTimer = true → s.part.trk.phase = .download →
          ∃ t, exec .downloadTimerExpiry s = .next t ∧
            t.part.trk =
              { s.part.trk with
                night := .failed, logonTimer := false, ackTimer := false, downloadTimer := false, sessionTimer := false
                owed := [], own := .idle, turn := none
                ctr := { s.part.trk.ctr with failedFile := bump s.part.trk.ctr.failedFile } } ∧
            Unchanged [.trk] s t)))) ∧
  (∀ (s : State) (begun : Block → Bool) (k : Trunk) (f : Forwarding), s.supply.takesEvents = true →
    s.part.trk.night = .holding → s.part.trk.ackTimer = true → s.part.trk.expiries = 2 →
    (∀ x ∈ s.part.fwd.exchange, x.what.isBlock = true ∧ ∃ b ∈ s.part.trk.blocks, b.buf.num = x.buf.num) →
    (∀ b, begun b = s.part.fwd.exchange.any fun x => x.begun && decide (x.buf.num = b.buf.num)) →
    k =
      s.part.trk.over .failed 3
        { s.part.trk.ctr with
          ackExpiries := bump s.part.trk.ctr.ackExpiries, failedAck := bump s.part.trk.ctr.failedAck } →
    f =
      { s.part.fwd with exchange := s.part.fwd.exchange.filter (·.begun) }.giveBlocks
        ((s.part.trk.blocks ++ s.part.trk.table.filterMap Upload.openBlock).filter fun b => !begun b) →
    (s.part.trk.pull = .idle →
      ∃ t, exec .ackTimerExpiry s = .next t ∧ t.part.trk = k ∧ t.part.fwd = f ∧ Unchanged [.trk, .fwd] s t) ∧
    (∀ tag dropped, s.part.trk.pull = .opened tag dropped →
      ∃ t, exec .ackTimerExpiry s = .next t ∧ t.part.trk = { k with pull := .opened tag true } ∧ t.part.fwd = f ∧
        t.part.call =
          { s.part.call with
            opens := s.part.call.opens.map fun e =>
              if e.tag = tag ∧ e.state ≠ .queued then { e with endEarly := true } else e } ∧
        Unchanged [.trk, .fwd, .call] s t))

/-- WELCOME_RECEIVED in LOGON sets the clock, enters UPLOAD and makes the upload table, the own station first and in
turn, then the PRESENT peers in rising order. OWN_RECORD_READ packs the record into the open BLOCK; a record not yet
committed starts the retry timer, and OWN_READ_RETRY reads as OWN_RECORD_READ does. PULL_DATA_TAKEN packs the record of
a DATA of the pull open and returns its buffer; outside a session it only returns it. PULL_RETRY_TIMER places the next
pull of the peer in turn. When the call of the pull ends: after an END its entry has the END's snapshot if it had none,
and with records left and some received, the next pull is placed at once, its retries and shorts at 0; with none
received it is pulled again after 5 s, and FAILED at the third such END in a row; with no record left the turn passes,
the entry DONE where it is acknowledged. A BROKEN, BUSY, unanswered or timed-out call is a retry, pulled again after 5 s
and SKIPPED at the fourth, and a refused one is SKIPPED at once. (No change of night, no BLOCK closed; in the first
clauses records left to read, in the last the own entry not yet acknowledged and no further peer.) -/
def Obligations.UploadReadsAndPulls : Prop :=
  (∀ (s : State) (it : RxItem) (day minute second d n : Nat) (f : Bool) (p : Part), s.supply.takesEvents = true →
    s.part.expectedMessage = some (it, .welcome day minute second f) →
    p = (s.part.modPres fun x => { x with clock := ⟨true, day, minute, second⟩ }) → s.part.nightNow = some d →
    p.nightNow = some d → s.part.price.trigger = .disarmed → s.part.trk.blocks = [] → s.part.trk.inbox = [] →
    n = s.part.jrn.release + 1 → n < s.part.jrn.next →
    ∃ t, exec .welcomeReceived s = .next t ∧
      t.part.pres = { s.part.pres with clock := ⟨true, day, minute, second⟩ } ∧
      t.part.trk =
        { s.part.trk with
          logonTimer := false, fileFollows := f, phase := .upload, expiries := 0, turn := some s.part.ownStation
          own := .reading
          table :=
            ⟨s.part.ownStation, n, some s.part.jrn.next, n - 1, n, 0, 0, .pulling, none⟩ ::
              stations.filterMap fun m => (s.part.shown m).map fun x =>
                ⟨m, x.firstUnreleased, none, x.firstUnreleased - 1, x.firstUnreleased, 0, 0, .pending, none⟩ } ∧
      t.part.fwd = (s.part.fwd.without it).giveBack it.buf ∧
      Unchanged [.pres, .trk, .fwd, .price] s t) ∧
  (∀ (s : State) (e : Upload) (b : Block) (k : Nat), s.supply.takesEvents = true → s.part.trk.night = .holding →
    s.part.trk.phase = .upload → s.part.trk.table = [e] → s.part.trk.turn = some e.station → e.status = .pulling →
    s.part.trk.blocks = [] → e.snapshot = some k → e.nextPack + 1 < k → e.openBlock = some b → b.count + 1 < 16 →
    b.buf.num < Config.poolSize →
    (∀ bs, s.part.ownStation = e.station → s.part.trk.inbox = [] → s.part.readAnswer e.nextPack = .record bs →
      ∀ u t' : State, u = { s with part := { s.part with trk := { s.part.trk with own := .reading } } } →
        t' = { s with part := { s.part with trk := { s.part.trk with own := .retryTimer } } } →
        ∃ t, exec .ownRecordRead u = .next t ∧ exec .ownReadRetry t' = .next t ∧
          t.part.trk =
            { s.part.trk with
              own := .reading
              table :=
                [{ e with
                    openBlock := some { b with count := b.count + 1, last := e.nextPack }, nextPack := e.nextPack + 1 }] } ∧
          t.part.read (bufAddr b.buf.num + 8 + 64 * b.count) 64 = bs ∧
          (∀ a, a < bufAddr b.buf.num + 8 + 64 * b.count ∨ bufAddr b.buf.num + 8 + 64 * b.count + 64 ≤ a →
            Mem.read t.part.dram a = Mem.read s.part.dram a) ∧
          Unchanged [.trk, .memory] s t) ∧
    (s.part.ownStation = e.station → s.part.trk.own = .reading → s.part.readAnswer e.nextPack = .notCommitted →
      ∃ t, exec .ownRecordRead s = .next t ∧ t.part.trk = { s.part.trk with own := .retryTimer } ∧
        Unchanged [.trk] s t) ∧
    (∀ buf tag r bs, s.part.ownStation ≠ e.station → s.part.trk.inbox = [.data buf e.station tag r] →
      s.part.trk.pull = .opened tag false → bs = (parseBody (s.part.bufBytes buf)).payload → fieldAt bs 1 1 = 1 →
      fieldAt bs 6 4 = e.nextPack → bs.length = 70 →
      ∃ t, exec .pullDataTaken s = .next t ∧
        t.part.trk =
          { s.part.trk with
            inbox := []
            table :=
                [{ e with
                    openBlock := some { b with count := b.count + 1, last := e.nextPack }, nextPack := e.nextPack + 1 }] } ∧
        t.part.read (bufAddr b.buf.num + 8 + 64 * b.count) 64 = bs.drop 6 ∧
        (∀ a, a < bufAddr b.buf.num + 8 + 64 * b.count ∨ bufAddr b.buf.num + 8 + 64 * b.count + 64 ≤ a →
          Mem.read t.part.dram a = Mem.read s.part.dram a) ∧
        t.part.fwd = s.part.fwd.giveBack buf ∧ Unchanged [.trk, .fwd, .memory] s t) ∧
    (∀ m rest, s.part.ownStation ≠ e.station → s.part.trk.pull = .delay → s.part.trk.inbox = [] → s.bufferFree →
      s.part.fwd.free = m :: rest →
      s.part.call.opens = [] → s.part.txEnabled = true → s.part.fwd.relayCount = 1 →
      ∃ t, exec .pullRetryTimer s = .next t ∧
        t.part.trk = { s.part.trk with pull := .opened s.part.call.callTag false } ∧
        s.queues .till (.call s.part.call.callTag)
          (plainBody e.station.val 0x08
            (callPayload s.part.call.callTag (.pull e.nextPack (min 64 (k - e.nextPack))))) t ∧
        t.part.call.opens.length = 1 ∧
        (∀ a, a < bufAddr m ∨ bufAddr m + 2048 ≤ a → Mem.read t.part.dram a = Mem.read s.part.dram a) ∧
        Unchanged [.branch, .fwd, .call, .trk, .memory] s t)) ∧
  (∀ (s : State) (buf : Buf) (peer : StationNo) (tag : Byte) (r : Request), s.supply.takesEvents = true →
    s.part.trk.night ≠ .holding → s.part.trk.inbox = [.data buf peer tag r] → s.part.trk.blocks = [] →
    ∃ t, exec .pullDataTaken s = .next t ∧ t.part.trk = { s.part.trk with inbox := [] } ∧
      t.part.fwd = s.part.fwd.giveBack buf ∧ Unchanged [.trk, .fwd] s t) ∧
  (∀ (s : State) (o x : Upload) (e : OpenCall) (d : Bool), s.supply.takesEvents = true →
    s.part.trk.night = .holding → s.part.trk.phase = .upload → s.part.trk.table = [o, x] →
    o.station = s.part.ownStation → o.status = .pulling → x.station ≠ o.station → x.status = .pulling →
    s.part.trk.turn = some x.station → x.packed = false → x.openBlock = none →
    (∀ b ∈ s.part.trk.blocks, b.queued = true) → s.part.trk.pull = .opened e.tag d → s.part.trk.inbox = [] →
    s.part.price.inbox = [] → s.part.call.opens = [e] → e.owner = .trunk → e.peer = x.station →
    (∀ it b c y, s.part.branchFrame .calls kindEnd = some (it, b) → s.part.call.conn = some c → c.phase = .awaitData →
      c.peer = it.station → c.tag = byteAt b.payload 0 → e.tag = c.tag → b.payload.length = c.request.endLength →
      y = { x with snapshot := some (x.snapshot.getD (fieldAt b.payload 3 4)) } →
      (fieldAt b.payload 1 2 ≠ e.received → y.packed = false →
        ∃ t, exec .endReceived s = .next t ∧ s.pullFails o y t ∧ Unchanged [.fwd, .call, .trk] s t) ∧
      (fieldAt b.payload 1 2 = e.received →
        (e.received = 0 → y.packed = false →
          ∃ t, exec .endReceived s = .next t ∧
            (x.shorts < 2 → s.pullsLater o { y with shorts := y.shorts + 1 } t) ∧
            (x.shorts = 2 →
              s.turnEnds o { y with shorts := 3, status := .failed } (fun c => { c with failed := bump c.failed }) t) ∧
            Unchanged [.fwd, .call, .trk] s t) ∧
        (∀ k m rest, e.received ≠ 0 → y.packed = false → y.snapshot = some k → s.bufferFree →
          s.part.fwd.free = m :: rest → s.part.txEnabled = true → s.part.fwd.relayCount = 1 → it.buf.mark = .plain →
          ∃ t, exec .endReceived s = .next t ∧
            t.part.trk =
              { s.part.trk with
                pull := .opened s.part.call.callTag false, table := [o, { y with retries := 0, shorts := 0 }] } ∧
            s.queues .till (.call s.part.call.callTag)
              (plainBody x.station.val 0x08
                (callPayload s.part.call.callTag (.pull y.nextPack (min 64 (k - y.nextPack))))) t ∧
            (∀ a, a < bufAddr m ∨ bufAddr m + 2048 ≤ a → Mem.read t.part.dram a = Mem.read s.part.dram a) ∧
            Unchanged [.branch, .fwd, .call, .trk, .memory] s t) ∧
        (∀ z, y.packed = true → z = (if e.received = 0 then y else { y with retries := 0, shorts := 0 }) →
          ∃ t, exec .endReceived s = .next t ∧
            s.turnEnds o (if z.acknowledged = true then { z with status := .done } else z) id t ∧
            Unchanged [.fwd, .call, .trk] s t))) ∧
    (∀ it b c v, s.part.branchFrame .calls kindAnswer = some (it, b) → s.part.call.conn = some c →
      c.phase = .awaitAnswer → c.peer = it.station → c.tag = byteAt b.payload 0 → e.tag = c.tag →
      parseVerdict b.payload = some v →
      (v = .busy →
        ∃ t, exec .answerReceived s = .next t ∧ s.pullFails o x t ∧ Unchanged [.fwd, .call, .trk] s t) ∧
      (∀ r, v = .refuse r →
        ∃ t, exec .answerReceived s = .next t ∧
          s.turnEnds o { x with status := .skipped } (fun c => { c with skipped := bump c.skipped }) t ∧
          Unchanged [.fwd, .call, .trk] s t)) ∧
    (∀ c, s.part.branch.turnGap = true → s.part.call.conn = some c → e.tag = c.tag →
      (c.phase = .awaitAnswer ∨ c.phase = .awaitData) →
      ∃ t, exec .turnExpiry s = .next t ∧ s.pullFails o x t ∧ Unchanged [.branch, .call, .trk] s t) ∧
    (e.state = .waitingRecall → e.recallTimer = true →
      ∃ t, exec (.recallTimerExpiry e.tag) s = .next t ∧ s.pullFails o x t ∧ Unchanged [.call, .trk] s t))

/-- BLOCK_ACK_RECEIVED for a station that is none, and for a sequence already acknowledged, is counted and ignored; for
the holder's own BLOCK of the relay set it is stored, the BLOCK is freed, the release is passed to the journal unit and
the acknowledgement timer stops with nothing outstanding. For a peer's BLOCK a RELEASE with the night and the sequence
is built and joins the CONTROL class queue, in place of one to that peer still waiting there, counted; the entry is DONE
where that acknowledges it. A presence of a peer with an upload entry that shows a release behind its acknowledgement,
in HOLDING or DONE, has the RELEASE sent again, counted as late, where none waits, and one that does not has none.
FILE_HEAD_RECEIVED and FILE_PART_RECEIVED in DOWNLOAD restart the download timer and queue the same payload as a PRICE
frame to 255 at the tail of the PRICE class queue, staged as a PRICE frame is (here ignored, for a generation not above
the active one or staged); FILE_END_RECEIVED also enters CLOSING with BYE built. LINK_FRAME_SENT of the BYE with outcome
DONE in CLOSING makes the night DONE, stops the session timer and counts one session done. (BYE is begun at once where
nothing stands before it: assumption 39. The buffer of the BLOCK ACK returns before the BLOCK's, and before the
RELEASE's is asked: assumption 8. The presence: of a peer no newer than the station, in READY with no staging.) -/
def Obligations.AcksAndFilesAreTaken : Prop :=
  (∀ (s : State) (it : RxItem) (n : StationNo) (q : Nat) (e : Upload), s.supply.takesEvents = true →
    s.part.expectedMessage = some (it, .blockAck n.val q) → s.part.trk.table = [e] → e.station = n →
    (q ≤ e.acked →
      ∃ t, exec .blockAckReceived s = .next t ∧
        t.part.trk =
          { s.part.trk with ctr := { s.part.trk.ctr with acksIgnored := bump s.part.trk.ctr.acksIgnored } } ∧
        t.part.fwd = (s.part.fwd.without it).giveBack it.buf ∧
        Unchanged [.trk, .fwd] s t) ∧
    (∀ b k, e.acked < q → s.part.trk.blocks = [b] → b.station = n → b.last = q → b.queued = true →
      b.inRelay = true → s.part.fwd.exchange = [] → n = s.part.ownStation → e.nextPack = q + 1 → e.openBlock = none →
      e.snapshot = some k → q + 1 < k → e.status = .pulling → s.part.trk.turn = some n → s.part.trk.own = .reading →
      s.part.trk.pull = .idle → s.part.trk.inbox = [] → s.part.jrn.highestTaken < q → q < s.part.jrn.next →
      s.part.hdr.inFlight = none →
      ∃ t, exec .blockAckReceived s = .next t ∧
        t.part.trk =
          { s.part.trk with table := [{ e with acked := q }], blocks := [], ackTimer := false, expiries := 0 } ∧
        t.part.fwd = ((s.part.fwd.without it).giveBack it.buf).giveBack b.buf ∧
        t.part.jrn =
          { s.part.jrn with
            pending := some q
            ctr := { s.part.jrn.ctr with releasesTaken := bump s.part.jrn.ctr.releasesTaken } } ∧
        t.part.hdr.copy = { s.part.hdr.copy with release := q } ∧
        t.part.hdr.inFlight = some (t.part.hdr.copy, [.journal]) ∧ Unchanged [.trk, .fwd, .jrn, .hdr] s t)) ∧
  (∀ (s : State) (it : RxItem) (n : StationNo) (q k m : Nat) (o e : Upload) (b : Block) (rest : List Nat),
    s.supply.takesEvents = true → s.part.expectedMessage = some (it, .blockAck n.val q) → n ≠ s.part.ownStation →
    s.part.trk.table = [o, e] → e.station = n → o.station ≠ n → o.status = .pulling → e.status = .pulling →
    s.part.trk.turn = none → s.part.trk.own = .idle → s.part.trk.pull = .idle → s.part.trk.inbox = [] → e.acked < q →
    e.nextPack = q + 1 → e.openBlock = none → e.snapshot = some k → s.part.trk.blocks = [b] → b.station = n →
    b.last = q → b.queued = true → b.inRelay = true → s.part.fwd.exchange = [] → s.part.fwd.free = m :: rest →
    m < Config.poolSize →
    (∀ before r behind, s.part.fwd.control = before ++ r ++ behind →
      (∀ x ∈ before ++ behind, x.owner ≠ .release n) →
      (r = [] ∨
        ∃ x, r = [x] ∧ x.owner = .release n ∧ (before = [] → s.part.branch.tx.inHand ≠ some .control)) →
      ∃ t new, exec .blockAckReceived s = .next t ∧
        t.part.trk =
          { s.part.trk with
            table := [o, { e with acked := q, status := if k ≤ q + 1 then .done else .pulling }], blocks := []
            ackTimer := false, expiries := 0
            ctr := { s.part.trk.ctr with releasesSent := bump s.part.trk.ctr.releasesSent } } ∧
        t.part.fwd.control = before ++ behind ++ [new] ∧ new.owner = .release n ∧ new.collisions = 0 ∧
        new.withdrawn = false ∧
        t.part.bufBytes new.buf = plainBody n.val 0x06 (be 2 s.part.trk.nightDay ++ be 4 q) ∧
        t.part.fwd.free = rest ++ [it.buf.num, b.buf.num] ++ r.map (·.buf.num) ∧
        (∀ a, a < bufAddr m ∨ bufAddr m + 2048 ≤ a → Mem.read t.part.dram a = Mem.read s.part.dram a) ∧
        Unchanged [.trk, .branch, .fwd, .memory] s t)) ∧
  (∀ (s : State) (k : KeptPresence) (more : List KeptPresence) (d : PresenceData) (c : ConfigBlock) (n : StationNo)
      (e : Upload) (m : Nat) (rest : List Nat), s.supply.takesEvents = true → s.part.pres.inbox = k :: more →
    k.read = some d → n = k.station → s.part.cfg = some c → n ≠ c.station → s.part.pres.joining = .ready →
    s.part.pres.clock.valid = true → (d.night = .claiming ∨ d.night = .standby) →
    d.activeGen ≤ s.part.price.activeGen → s.part.price.staging.state = .empty →
    (s.part.trk.night = .holding ∨ s.part.trk.night = .done) → s.part.nightNow = some s.part.trk.nightDay →
    s.part.trk.table = [e] → e.station = n →
    (d.firstUnreleased < e.acked + 1 → (∀ x ∈ s.part.fwd.control, x.owner ≠ .release n) →
      s.part.fwd.free = m :: rest → m < Config.poolSize →
      ∃ t, exec .presenceReceived s = .next t ∧
        t.part.trk =
          { s.part.trk with
            ctr := { s.part.trk.ctr with lateReleases := bump s.part.trk.ctr.lateReleases } } ∧
        s.queues .control (.release n) (plainBody n.val 0x06 (be 2 s.part.trk.nightDay ++ be 4 e.acked)) t ∧
        (∀ a, a < bufAddr m ∨ bufAddr m + 2048 ≤ a → Mem.read t.part.dram a = Mem.read s.part.dram a) ∧
        Unchanged [.trk, .branch, .fwd, .pres, .price, .memory] s t) ∧
    (e.acked + 1 ≤ d.firstUnreleased →
      ∃ t, exec .presenceReceived s = .next t ∧ t.part.fwd.control = s.part.fwd.control ∧
        Unchanged [.fwd, .pres, .price] s t)) ∧
  (∀ (s : State) (it : RxItem) (n q : Nat), s.supply.takesEvents = true →
    s.part.expectedMessage = some (it, .blockAck n q) → 16 ≤ n →
    ∃ t, exec .blockAckReceived s = .next t ∧
      t.part.trk = { s.part.trk with ctr := { s.part.trk.ctr with acksIgnored := bump s.part.trk.ctr.acksIgnored } } ∧
      t.part.fwd = (s.part.fwd.without it).giveBack it.buf ∧ Unchanged [.trk, .fwd] s t) ∧
  (∀ (s : State) (x : TFrame), s.supply.takesEvents = true → s.part.fwd.exchange = [x] → s.part.fwd.packets = [] →
    x.begun = true → x.what = .bye true → s.part.trk.night = .holding → s.part.trk.phase = .closing →
    ∃ t, exec (.linkFrameSent .trunk) s = .next t ∧
      t.part.trk =
        { s.part.trk with
          night := .done, sessionTimer := false
          ctr := { s.part.trk.ctr with sessionsDone := bump s.part.trk.ctr.sessionsDone } } ∧
      t.part.fwd = { s.part.fwd with exchange := [] }.giveBack x.buf ∧
      t.part.trunkFramer =
        { s.part.trunkFramer with
          ctr := { s.part.trunkFramer.ctr with sent := bump s.part.trunkFramer.ctr.sent } } ∧
      Unchanged [.links, .trk, .fwd, .trunkFramer] s t) ∧
  (∀ (s : State) (it : RxItem) (b : Bytes) (m : Nat) (rest : List Nat), s.supply.takesEvents = true →
    s.part.recordsTake = true → s.part.price.inbox = [] → s.bufferFree → s.part.fwd.free = m :: rest →
    b.length ≤ 1024 → it.buf.num < Config.poolSize →
    (s.part.expectedMessage = some (it, .fileHead b) → fieldAt b 0 4 ≤ s.part.price.activeGen →
      ∃ t, exec .fileHeadReceived s = .next t ∧ t.part.trk = { s.part.trk with downloadTimer := true } ∧
        s.queues .price .price (plainBody 255 0x03 b) t ∧
        t.part.price =
          { s.part.price with
            ctr := { s.part.price.ctr with headsIgnored := bump s.part.price.ctr.headsIgnored } } ∧
        (∀ a, a < bufAddr m ∨ bufAddr m + 2048 ≤ a → Mem.read t.part.dram a = Mem.read s.part.dram a) ∧
        Unchanged [.trk, .price, .branch, .fwd, .memory] s t) ∧
    (s.part.expectedMessage = some (it, .filePart b) → fieldAt b 0 4 ≠ s.part.price.staging.generation →
      ∃ t, exec .filePartReceived s = .next t ∧ t.part.trk = { s.part.trk with downloadTimer := true } ∧
        s.queues .price .price (plainBody 255 0x04 b) t ∧
        t.part.price =
          { s.part.price with
            ctr := { s.part.price.ctr with partsIgnored := bump s.part.price.ctr.partsIgnored } } ∧
        (∀ a, a < bufAddr m ∨ bufAddr m + 2048 ≤ a → Mem.read t.part.dram a = Mem.read s.part.dram a) ∧
        Unchanged [.trk, .price, .branch, .fwd, .memory] s t) ∧
    (∀ n more, s.part.expectedMessage = some (it, .fileEnd b) → rest = n :: more → fieldAt b 0 4 ≠ s.part.price.staging.generation →
      10 ≤ s.part.fwd.free.length → s.part.fwd.free.Nodup → s.part.trk.line = .up → s.part.fwd.exchange = [] →
      s.part.fwd.packets = [] → it.buf.num ∉ s.part.fwd.free →
      ∃ t, exec .fileEndReceived s = .next t ∧
        t.part.trk = { s.part.trk with phase := .closing, downloadTimer := false } ∧
        s.queues .price .price (plainBody 255 0x05 b) t ∧
        (∃ buf, t.part.fwd.exchange = [⟨buf, .bye true, true⟩] ∧ t.part.bufBytes buf = byeBytes true) ∧
        (∀ a, (a < bufAddr m ∨ bufAddr m + 2048 ≤ a) → (a < bufAddr n ∨ bufAddr n + 2048 ≤ a) →
          Mem.read t.part.dram a = Mem.read s.part.dram a) ∧
        t.part.price = s.part.price ∧ Unchanged [.links, .trk, .branch, .fwd, .memory] s t))

/-! ### external memory, supply and reset -/

/-- URGENT REFRESH goes first, then the first promoted requester in the order LINE, TRUNK, TILL, PRICE, LABEL, GUEST,
then the first presenting one in that order, then REFRESH where a row is postponed. A grant brings the passed-over count
of every other presenting requester up by one to 16 at most and the others to 0, and counts each requester it promotes;
a grant to a requester takes the burst asked first of those its users ask now, and the next of that user is asked once
it has finished, behind those asked before; a refresh grant, urgent or not, moves the row on by one, wrapping at 4,096,
and lowers the postponement count, and only an urgent one is counted. REFRESH_DUE raises the postponement count, and on
a busy port does nothing else. DRAM_BURST_DONE of a refresh on a port nobody presents to leaves the port idle; with a
stop under way it enters HELD; of a store header write it writes the header in flight and counts one header write; of
the header read it hands over the 32 bytes; of a receive FIFO it writes up to 32 bytes within one block to their buffer;
of a staging area it adds up to 32 bytes of the frame; of a store it writes its bytes and the next of the store is
asked; of a clearing it makes one block 0; of a read the next is asked; of the guest table it makes one entry FREE; of
the scan it decides its slot. Each user asks at the requester of the table. (Steps of a search, of the merge walk, of
the hold sweep and of a journal record have statements of their own. The users, and the order of the bursts of one user,
are assumption 53; that the data of a read were taken by the step that asked it is assumption 5.) -/
def Obligations.BurstsAndRefresh : Prop :=
  (∀ (a : Arb) (k : Asks),
    (4 ≤ a.postponed → ∀ b, a.choose k b = some .urgent) ∧
    (∀ b, a.postponed < 4 → (b = false ∨ ∀ r, k.presented r = none) →
      a.choose k b = if 1 ≤ a.postponed then some .refresh else none) ∧
    (∀ r, a.postponed < 4 → (k.presented r).isSome = true →
      (a.passed.of r = 16 → (∀ q, Req.all.idxOf q < Req.all.idxOf r → (k.presented q).isSome = true → a.passed.of q ≠ 16) →
        a.choose k true = some (.requester r)) ∧
      ((∀ q, (k.presented q).isSome = true → a.passed.of q ≠ 16) →
        (∀ q, Req.all.idxOf q < Req.all.idxOf r → k.presented q = none) →
        a.choose k true = some (.requester r))) ∧
    (∀ c r, k.presented r = none → (a.passedOver k c).of r = 0) ∧
    (∀ r, (a.passedOver k (.requester r)).of r = 0) ∧
    (∀ c r, (k.presented r).isSome = true → c ≠ .requester r → (a.passedOver k c).of r = min 16 (a.passed.of r + 1))) ∧
  (∀ (k : Asks) (r : Req),
    (k.presented r = none ↔ ∀ x ∈ k.of r, x.now = none) ∧
    (∀ pre x post t, k.of r = pre ++ x :: post → (∀ y ∈ pre, y.now = none) → x.now = some t →
      k.presented r = some (x.user, t))) ∧
  (∀ u : BurstUser,
    u.req =
      match u with
      | .lineReceive | .lineSend | .lineBuild | .pull => .line
      | .trunkReceive | .trunkSend | .trunkBlock => .trunk
      | .lookup _ | .journal | .journalHeader => .till
      | .staging | .bank | .fetchService | .pricingHeader | .memory => .price
      | .labelReceive | .labelSend | .labelTable | .labelContent => .label
      | .guestReceive | .guestSend | .guestTable | .rewrite => .guest) ∧
  (∀ (p : Part) (u : BurstUser) (t : Tok),
    ((∀ x ∈ p.asks.of u.req, x.user ≠ u) → (p.ask u t).asks.of u.req = p.asks.of u.req ++ [⟨u, some t, []⟩]) ∧
    (∀ pre x post, p.asks.of u.req = pre ++ x :: post → (∀ y ∈ pre, y.user ≠ u) → x.user = u →
      (p.ask u t).asks.of u.req = pre ++ { x with later := x.later ++ [t] } :: post) ∧
    (∀ pre later post more, p.asks.of u.req = pre ++ ⟨u, none, later⟩ :: post → (∀ y ∈ pre ++ post, y.user ≠ u) →
      (p.released u more).asks.of u.req =
        pre ++ post ++
          match more ++ later with
          | [] => []
          | k :: ks => [⟨u, some k, ks⟩])) ∧
  (∀ (s : State) (c : Choice), (∀ r, c = .requester r → (s.part.asks.presented r).isSome = true) →
    (s.grant c).arb.passed = s.arb.passedOver s.part.asks c ∧
    (s.grant c).part.memCtr =
      { s.part.memCtr with
        promotions :=
          bumpBy
            (Req.all.filter fun r =>
              decide (s.arb.passed.of r < 16 ∧ (s.arb.passedOver s.part.asks c).of r = 16)).length
            s.part.memCtr.promotions
        urgent := if c = .urgent then bump s.part.memCtr.urgent else s.part.memCtr.urgent } ∧
    ((c = .urgent ∨ c = .refresh) →
      (s.grant c).arb.row = (s.arb.row + 1) % 4096 ∧ (s.grant c).arb.postponed = s.arb.postponed - 1 ∧
        (s.grant c).arb.port = some .refresh ∧ (s.grant c).part.asks = s.part.asks) ∧
    (∀ r pre x post k, c = .requester r → s.part.asks.of r = pre ++ x :: post → (∀ y ∈ pre, y.now = none) →
      x.now = some k →
      (s.grant c).arb.port = some (.burst x.user k) ∧
        (s.grant c).part.asks.of r = pre ++ { x with now := none } :: post ∧
        (∀ q, q ≠ r → (s.grant c).part.asks.of q = s.part.asks.of q) ∧ (s.grant c).arb.row = s.arb.row ∧
        (s.grant c).arb.postponed = s.arb.postponed)) ∧
  (∀ s : State,
    (s.supply.watch = .running → s.supply.stopping = false → s.arb.port.isSome = true →
      exec .refreshDue s = .next { s with arb := { s.arb with postponed := s.arb.postponed + 1 } }) ∧
    (s.supply.watch = .running → s.supply.stopping = false → s.arb.port = some .refresh → s.arb.postponed = 0 →
      (∀ r, s.part.asks.presented r = none) → exec .dramBurstDone s = .next { s with arb := { s.arb with port := none } }) ∧
    (s.supply.stopping = true → s.arb.port = some .refresh →
      exec .dramBurstDone s =
        .next
          { s with
            arb := { s.arb with port := none }, supply := { s.supply with watch := .held, stopping := false } })) ∧
  (∀ (s : State) (u : BurstUser) (k : Tok), s.supply.stopping = false → s.arb.port = some (.burst u k) →
    (∀ h us, k = .headerWrite → s.part.hdr.inFlight = some (h, us) →
      ∃ t, exec .dramBurstDone s = .next t ∧ t.part.read 0x3F3000 32 = h.bytes ∧
        Mem.readBytes t.part.written 0x3F3000 32 = h.bytes ∧ t.part.hdr = { s.part.hdr with finished := true } ∧
        t.part.memCtr.headerWrites = bump s.part.memCtr.headerWrites ∧
        t.part.memCtr.labelsLost = s.part.memCtr.labelsLost ∧
        (∀ a, a < 0x3F3000 ∨ 0x3F3020 ≤ a →
          Mem.read t.part.dram a = Mem.read s.part.dram a ∧ Mem.read t.part.written a = Mem.read s.part.written a) ∧
        Unchanged [.hdr, .memory, .written, .memoryCounters] s t) ∧
    (k = .headerRead →
      ∃ t, exec .dramBurstDone s = .next t ∧
        t.part.hdr = { s.part.hdr with readData := some (s.part.read 0x3F3000 32) } ∧ Unchanged [.hdr] s t) ∧
    (∀ l c b rest n lo, k = .rxWrite l → (s.part.framer l).fifo = c :: rest → c.buf = some b → c.ready = true →
      n = min c.bytes.length (32 - c.at_ % 32) → lo = bufAddr b.num + c.at_ → lo + n ≤ 0x400000 →
      ∃ t, exec .dramBurstDone s = .next t ∧ t.part.read lo n = c.bytes.take n ∧
        Mem.readBytes t.part.written lo n = c.bytes.take n ∧
        (∀ a, a < lo ∨ lo + n ≤ a →
          Mem.read t.part.dram a = Mem.read s.part.dram a ∧ Mem.read t.part.written a = Mem.read s.part.written a) ∧
        Unchanged [.branch, .trunkFramer, .labelFramer, .guestFramer, .fwd, .price, .memory, .written] s t) ∧
    (∀ l b n, k = .txRead l → s.part.txBuf l = some b → (s.part.sender l).stale = false →
      n = min 32 (b.len - (s.part.sender l).fetched) →
      ∃ t, exec .dramBurstDone s = .next t ∧
        (t.part.sender l).staging =
          (s.part.sender l).staging ++ s.part.read (bufAddr b.num + (s.part.sender l).fetched) n ∧
        (t.part.sender l).fetched = (s.part.sender l).fetched + n ∧ Unchanged [.branch, .links] s t) ∧
    (∀ lo bs more, k = .store ((lo, bs) :: more) → lo + bs.length ≤ 0x400000 →
      ∃ t, exec .dramBurstDone s = .next t ∧ Mem.readBytes t.part.written lo bs.length = bs ∧
        (∀ a, a < lo ∨ lo + bs.length ≤ a → Mem.read t.part.written a = Mem.read s.part.written a) ∧
        (more ≠ [] → t.awaits u (.store more)) ∧ Unchanged [.written] s t) ∧
    (∀ lo hi, k = .wipe lo hi → lo < hi →
      ∃ t, exec .dramBurstDone s = .next t ∧
        (∀ a, Mem.read t.part.written a =
          if lo ≤ a ∧ a < min hi (32 * (lo / 32 + 1)) then 0 else Mem.read s.part.written a) ∧
        (32 * (lo / 32 + 1) < hi → t.awaits u (.wipe (32 * (lo / 32 + 1)) hi)) ∧ Unchanged [.written] s t) ∧
    (∀ n, k = .load n →
      ∃ t, exec .dramBurstDone s = .next t ∧ (2 ≤ n → t.awaits u (.load (n - 1))) ∧ Unchanged [] s t) ∧
    (∀ n lo, k = .guestClear → s.part.gst.cleared = n → n < 256 → lo = 0x3F0000 + 32 * n →
      ∃ t, exec .dramBurstDone s = .next t ∧ t.part.gst = { s.part.gst with cleared := n + 1 } ∧
        (∀ a, Mem.read t.part.dram a = if lo ≤ a ∧ a < lo + 32 then 0 else Mem.read s.part.dram a) ∧
        (∀ a, Mem.read t.part.written a = if lo ≤ a ∧ a < lo + 32 then 0 else Mem.read s.part.written a) ∧
        (n + 1 < 256 → t.awaits .guestTable .guestClear) ∧ Unchanged [.gst, .memory, .written] s t) ∧
    (∀ sc, k = .scanFirst → s.part.jrn.scan = some sc →
      ∃ t, exec .dramBurstDone s = .next t ∧ t.awaits .journal .scanSecond ∧ Unchanged [] s t) ∧
    (∀ sc bs, k = .scanSecond → s.part.jrn.scan = some sc → sc.stage = .reading →
      bs = s.part.read (0x200000 + 64 * (sc.e % 16384)) 64 →
      (crcGood bs = true → fieldAt bs 0 4 = sc.e →
        ∃ t, exec .dramBurstDone s = .next t ∧
          t.part.jrn =
            { s.part.jrn with
              scan := some { sc.take (parseRecord bs) with e := sc.e + 1, read := sc.read + 1 } } ∧
          t.awaits .journal .scanFirst ∧ Unchanged [.jrn] s t) ∧
      ((crcGood bs = false ∨ fieldAt bs 0 4 ≠ sc.e) →
        ∃ t, exec .dramBurstDone s = .next t ∧
          t.part.jrn = { s.part.jrn with scan := some { sc with stage := .failed } } ∧ Unchanged [.jrn] s t)))

/-- The threshold in use is 15 until the configuration block passes, then the configured level. SUPPLY_LOW while RUNNING
stops the framers, the frames they send and receive, and every reply being sent, touches no byte of memory, and enters
HELD at once on an idle port or waits for the burst in hand. SUPPLY_GOOD from HELD or WAITING starts the part: every
block at its start values with the memory as finished bursts have left it, the postponement count 0, the row counter as
it stood (HELD) or 0 (WAITING), and the clearing of the guest table asked; with the reset pin asserted it only becomes
RUNNING. RESET_ASSERT while RUNNING stops the framers; RESET_RELEASE starts the part with both refresh counters as they
stand. (The state after reset is that of a start from power-up, assumption 1. SUPPLY_LOW carries no level, assumption
68; that the reset pin stops events is assumption 14.) -/
def Obligations.SupplyAndReset : Prop :=
  exec .supplyGood State.powerUp = .next State.reset ∧
  (∀ p : Part, (p.cfg = none → p.supplyThreshold = 15) ∧ ∀ c, p.cfg = some c → p.supplyThreshold = c.supplyLevel) ∧
  (∀ s : State,
    (s.supply.watch = .running → s.supply.stopping = false →
      ∃ t, exec .supplyLow s = .next t ∧
        t.supply =
          { s.supply with
            framersStopped := true, stopping := s.arb.port.isSome
            watch := if s.arb.port.isSome = true then .running else .held } ∧
        t.part.dram = s.part.dram ∧ t.arb = s.arb ∧ t.part.branch.tx = .disabled ∧ t.part.branch.turn = none ∧
        (∀ l, (t.part.framer l).rx = none ∧ (t.part.framer l).ctr = (s.part.framer l).ctr) ∧
        t.part.branch.sender = {} ∧ t.part.links = {} ∧ t.part.fwd.noneBegun ∧ (∀ n, (t.part.port n).out = none) ∧
        Unchanged [.supply, .branch, .trunkFramer, .labelFramer, .guestFramer, .links, .fwd, .till] s t) ∧
    (s.supply.watch ≠ .running → exec .supplyLow s = .next s) ∧
    (∀ w row, s.supply.watch = w → w ≠ .running → row = (if w = .held then s.arb.row else 0) →
      (s.supply.pin = false →
        exec .supplyGood s =
          .next
            { pending := s.pending
              supply := { watch := .running }
              arb := { port := some (.burst .guestTable .guestClear), row := row }
              part :=
                { dram := s.part.written, written := s.part.written, pres := { joining := .config }
                  asks := { guest := [⟨.guestTable, none, []⟩] } } }) ∧
      (s.supply.pin = true →
        ∃ t, exec .supplyGood s = .next t ∧
          t = { s with
                arb := { row := row }, supply := { s.supply with watch := .running, stopping := false } })) ∧
    (s.supply.watch = .running → s.supply.stopping = false → s.supply.pin = false →
      ∃ t, exec .resetAssert s = .next t ∧ t.supply = { s.supply with pin := true, framersStopped := true } ∧
        t.part.dram = s.part.dram ∧ t.arb = s.arb ∧ t.part.branch.tx = .disabled ∧
        (∀ l, (t.part.framer l).rx = none) ∧ t.part.branch.sender = {} ∧ t.part.links = {} ∧ t.part.fwd.noneBegun ∧
        Unchanged [.supply, .branch, .trunkFramer, .labelFramer, .guestFramer, .links, .fwd, .till] s t) ∧
    (s.supply.watch = .running → s.supply.stopping = false → s.supply.pin = true → s.arb.port = none →
      s.arb.postponed < 4 →
      exec .resetRelease s =
        .next
          { pending := s.pending
            supply := { watch := .running }
            arb := { port := some (.burst .guestTable .guestClear), row := s.arb.row, postponed := s.arb.postponed }
            part :=
              { dram := s.part.written, written := s.part.written, pres := { joining := .config }
                asks := { guest := [⟨.guestTable, none, []⟩] } } }))

/-! ### record and frame formats -/

/-- The register is preset to FFFF; each covered byte is divided in, least significant bit first, by x¹⁶ + x¹² + x⁵ + 1;
its complement is appended low byte first. Bytes that end in their CRC leave the residue F0B8, and the check accepts
exactly that. A record of all 0 bytes in any of the lengths the part stores fails it. The check stands on every frame of
the four lines, the content of a till frame, every stored entry and record, the price record on the line and the
configuration block. (That a till frame which fails its length too counts as a CRC error alone is assumption 74.) -/
def Obligations.CrcIsOneForAll : Prop :=
  crcRegister [] = 0xFFFF#16 ∧
  (∀ (bs : Bytes) (b : Byte),
    crcRegister (bs ++ [b]) =
      (List.range 8).foldl
        (fun (r : BitVec 16) (i : Nat) => if (r.getLsbD 0 ^^ b.getLsbD i) = true then (r >>> 1) ^^^ 0x8408#16 else r >>> 1)
        (crcRegister bs)) ∧
  (∀ bs : Bytes,
    withCrc bs = bs ++ [(~~~ crcRegister bs).setWidth 8, (~~~ crcRegister bs >>> 8).setWidth 8] ∧
      crcRegister (withCrc bs) = 0xF0B8#16) ∧
  (∀ bs : Bytes, crcGood bs = true ↔ crcRegister bs = 0xF0B8#16) ∧
  (∀ n ∈ [24, 32, 48, 64, 256], crcGood (List.replicate n 0) = false) ∧
  (∀ (l : Line) (overrun : Bool) (body : Bytes), crcGood body = false → discardCause l overrun body 0 ≠ none) ∧
  (∀ (p : Part) (n : PortNo) (bs : Bytes), crcGood bs = false →
    p.closedFrame n bs = p.countPort n fun c => { c with crc := bump c.crc }) ∧
  (∀ (p : Part) (bank : BankName) (i : Nat), crcGood (p.entryBytes bank i) = false → p.goodEntry bank i = none) ∧
  (∀ (p : Part) (q : Nat) (bs : Bytes), p.readAnswer q = .record bs → crcGood bs = true) ∧
  (∀ (p : Part) (i : Nat), crcGood (p.labelBytes i) = false → (p.labelAt i).isSome = true →
    (p.warmEntry i).labelAt i = none) ∧
  (∀ bs : Bytes, crcGood bs = false → parseHeader bs = none ∧ parseConfig bs = none) ∧
  (∀ (p : Part) (i : Nat) (bs : Bytes), crcGood bs = false →
    p.stageAt i bs = p.countPrice fun c => { c with recordsBad := bump c.recordsBad })
end

