-- ==== Sys2Proof/Laws/State.lean ====
section
/-! SUPPORT. One lemma for each field and each update of `Part` and `State`, true by definition. -/

namespace Sys2Proof.Machine

section modBranch
variable (f : Branch → Branch) (p : Part)
@[simp] theorem Part.modBranch_cfg : (p.modBranch f).cfg = p.cfg := rfl
@[simp] theorem Part.modBranch_branch : (p.modBranch f).branch = f p.branch := rfl
@[simp] theorem Part.modBranch_trunkFramer : (p.modBranch f).trunkFramer = p.trunkFramer := rfl
@[simp] theorem Part.modBranch_labelFramer : (p.modBranch f).labelFramer = p.labelFramer := rfl
@[simp] theorem Part.modBranch_guestFramer : (p.modBranch f).guestFramer = p.guestFramer := rfl
@[simp] theorem Part.modBranch_links : (p.modBranch f).links = p.links := rfl
@[simp] theorem Part.modBranch_fwd : (p.modBranch f).fwd = p.fwd := rfl
@[simp] theorem Part.modBranch_call : (p.modBranch f).call = p.call := rfl
@[simp] theorem Part.modBranch_pres : (p.modBranch f).pres = p.pres := rfl
@[simp] theorem Part.modBranch_price : (p.modBranch f).price = p.price := rfl
@[simp] theorem Part.modBranch_till : (p.modBranch f).till = p.till := rfl
@[simp] theorem Part.modBranch_jrn : (p.modBranch f).jrn = p.jrn := rfl
@[simp] theorem Part.modBranch_lab : (p.modBranch f).lab = p.lab := rfl
@[simp] theorem Part.modBranch_gst : (p.modBranch f).gst = p.gst := rfl
@[simp] theorem Part.modBranch_trk : (p.modBranch f).trk = p.trk := rfl
@[simp] theorem Part.modBranch_hdr : (p.modBranch f).hdr = p.hdr := rfl
@[simp] theorem Part.modBranch_memCtr : (p.modBranch f).memCtr = p.memCtr := rfl
@[simp] theorem Part.modBranch_asks : (p.modBranch f).asks = p.asks := rfl
@[simp] theorem Part.modBranch_dram : (p.modBranch f).dram = p.dram := rfl
@[simp] theorem Part.modBranch_written : (p.modBranch f).written = p.written := rfl
end modBranch

section modFwd
variable (f : Forwarding → Forwarding) (p : Part)
@[simp] theorem Part.modFwd_cfg : (p.modFwd f).cfg = p.cfg := rfl
@[simp] theorem Part.modFwd_branch : (p.modFwd f).branch = p.branch := rfl
@[simp] theorem Part.modFwd_trunkFramer : (p.modFwd f).trunkFramer = p.trunkFramer := rfl
@[simp] theorem Part.modFwd_labelFramer : (p.modFwd f).labelFramer = p.labelFramer := rfl
@[simp] theorem Part.modFwd_guestFramer : (p.modFwd f).guestFramer = p.guestFramer := rfl
@[simp] theorem Part.modFwd_links : (p.modFwd f).links = p.links := rfl
@[simp] theorem Part.modFwd_fwd : (p.modFwd f).fwd = f p.fwd := rfl
@[simp] theorem Part.modFwd_call : (p.modFwd f).call = p.call := rfl
@[simp] theorem Part.modFwd_pres : (p.modFwd f).pres = p.pres := rfl
@[simp] theorem Part.modFwd_price : (p.modFwd f).price = p.price := rfl
@[simp] theorem Part.modFwd_till : (p.modFwd f).till = p.till := rfl
@[simp] theorem Part.modFwd_jrn : (p.modFwd f).jrn = p.jrn := rfl
@[simp] theorem Part.modFwd_lab : (p.modFwd f).lab = p.lab := rfl
@[simp] theorem Part.modFwd_gst : (p.modFwd f).gst = p.gst := rfl
@[simp] theorem Part.modFwd_trk : (p.modFwd f).trk = p.trk := rfl
@[simp] theorem Part.modFwd_hdr : (p.modFwd f).hdr = p.hdr := rfl
@[simp] theorem Part.modFwd_memCtr : (p.modFwd f).memCtr = p.memCtr := rfl
@[simp] theorem Part.modFwd_asks : (p.modFwd f).asks = p.asks := rfl
@[simp] theorem Part.modFwd_dram : (p.modFwd f).dram = p.dram := rfl
@[simp] theorem Part.modFwd_written : (p.modFwd f).written = p.written := rfl
end modFwd

section modCall
variable (f : Calls → Calls) (p : Part)
@[simp] theorem Part.modCall_cfg : (p.modCall f).cfg = p.cfg := rfl
@[simp] theorem Part.modCall_branch : (p.modCall f).branch = p.branch := rfl
@[simp] theorem Part.modCall_trunkFramer : (p.modCall f).trunkFramer = p.trunkFramer := rfl
@[simp] theorem Part.modCall_labelFramer : (p.modCall f).labelFramer = p.labelFramer := rfl
@[simp] theorem Part.modCall_guestFramer : (p.modCall f).guestFramer = p.guestFramer := rfl
@[simp] theorem Part.modCall_links : (p.modCall f).links = p.links := rfl
@[simp] theorem Part.modCall_fwd : (p.modCall f).fwd = p.fwd := rfl
@[simp] theorem Part.modCall_call : (p.modCall f).call = f p.call := rfl
@[simp] theorem Part.modCall_pres : (p.modCall f).pres = p.pres := rfl
@[simp] theorem Part.modCall_price : (p.modCall f).price = p.price := rfl
@[simp] theorem Part.modCall_till : (p.modCall f).till = p.till := rfl
@[simp] theorem Part.modCall_jrn : (p.modCall f).jrn = p.jrn := rfl
@[simp] theorem Part.modCall_lab : (p.modCall f).lab = p.lab := rfl
@[simp] theorem Part.modCall_gst : (p.modCall f).gst = p.gst := rfl
@[simp] theorem Part.modCall_trk : (p.modCall f).trk = p.trk := rfl
@[simp] theorem Part.modCall_hdr : (p.modCall f).hdr = p.hdr := rfl
@[simp] theorem Part.modCall_memCtr : (p.modCall f).memCtr = p.memCtr := rfl
@[simp] theorem Part.modCall_asks : (p.modCall f).asks = p.asks := rfl
@[simp] theorem Part.modCall_dram : (p.modCall f).dram = p.dram := rfl
@[simp] theorem Part.modCall_written : (p.modCall f).written = p.written := rfl
end modCall

section modPres
variable (f : Presence → Presence) (p : Part)
@[simp] theorem Part.modPres_cfg : (p.modPres f).cfg = p.cfg := rfl
@[simp] theorem Part.modPres_branch : (p.modPres f).branch = p.branch := rfl
@[simp] theorem Part.modPres_trunkFramer : (p.modPres f).trunkFramer = p.trunkFramer := rfl
@[simp] theorem Part.modPres_labelFramer : (p.modPres f).labelFramer = p.labelFramer := rfl
@[simp] theorem Part.modPres_guestFramer : (p.modPres f).guestFramer = p.guestFramer := rfl
@[simp] theorem Part.modPres_links : (p.modPres f).links = p.links := rfl
@[simp] theorem Part.modPres_fwd : (p.modPres f).fwd = p.fwd := rfl
@[simp] theorem Part.modPres_call : (p.modPres f).call = p.call := rfl
@[simp] theorem Part.modPres_pres : (p.modPres f).pres = f p.pres := rfl
@[simp] theorem Part.modPres_price : (p.modPres f).price = p.price := rfl
@[simp] theorem Part.modPres_till : (p.modPres f).till = p.till := rfl
@[simp] theorem Part.modPres_jrn : (p.modPres f).jrn = p.jrn := rfl
@[simp] theorem Part.modPres_lab : (p.modPres f).lab = p.lab := rfl
@[simp] theorem Part.modPres_gst : (p.modPres f).gst = p.gst := rfl
@[simp] theorem Part.modPres_trk : (p.modPres f).trk = p.trk := rfl
@[simp] theorem Part.modPres_hdr : (p.modPres f).hdr = p.hdr := rfl
@[simp] theorem Part.modPres_memCtr : (p.modPres f).memCtr = p.memCtr := rfl
@[simp] theorem Part.modPres_asks : (p.modPres f).asks = p.asks := rfl
@[simp] theorem Part.modPres_dram : (p.modPres f).dram = p.dram := rfl
@[simp] theorem Part.modPres_written : (p.modPres f).written = p.written := rfl
end modPres

section modPrice
variable (f : Pricing → Pricing) (p : Part)
@[simp] theorem Part.modPrice_cfg : (p.modPrice f).cfg = p.cfg := rfl
@[simp] theorem Part.modPrice_branch : (p.modPrice f).branch = p.branch := rfl
@[simp] theorem Part.modPrice_trunkFramer : (p.modPrice f).trunkFramer = p.trunkFramer := rfl
@[simp] theorem Part.modPrice_labelFramer : (p.modPrice f).labelFramer = p.labelFramer := rfl
@[simp] theorem Part.modPrice_guestFramer : (p.modPrice f).guestFramer = p.guestFramer := rfl
@[simp] theorem Part.modPrice_links : (p.modPrice f).links = p.links := rfl
@[simp] theorem Part.modPrice_fwd : (p.modPrice f).fwd = p.fwd := rfl
@[simp] theorem Part.modPrice_call : (p.modPrice f).call = p.call := rfl
@[simp] theorem Part.modPrice_pres : (p.modPrice f).pres = p.pres := rfl
@[simp] theorem Part.modPrice_price : (p.modPrice f).price = f p.price := rfl
@[simp] theorem Part.modPrice_till : (p.modPrice f).till = p.till := rfl
@[simp] theorem Part.modPrice_jrn : (p.modPrice f).jrn = p.jrn := rfl
@[simp] theorem Part.modPrice_lab : (p.modPrice f).lab = p.lab := rfl
@[simp] theorem Part.modPrice_gst : (p.modPrice f).gst = p.gst := rfl
@[simp] theorem Part.modPrice_trk : (p.modPrice f).trk = p.trk := rfl
@[simp] theorem Part.modPrice_hdr : (p.modPrice f).hdr = p.hdr := rfl
@[simp] theorem Part.modPrice_memCtr : (p.modPrice f).memCtr = p.memCtr := rfl
@[simp] theorem Part.modPrice_asks : (p.modPrice f).asks = p.asks := rfl
@[simp] theorem Part.modPrice_dram : (p.modPrice f).dram = p.dram := rfl
@[simp] theorem Part.modPrice_written : (p.modPrice f).written = p.written := rfl
end modPrice

section modTill
variable (f : Tills → Tills) (p : Part)
@[simp] theorem Part.modTill_cfg : (p.modTill f).cfg = p.cfg := rfl
@[simp] theorem Part.modTill_branch : (p.modTill f).branch = p.branch := rfl
@[simp] theorem Part.modTill_trunkFramer : (p.modTill f).trunkFramer = p.trunkFramer := rfl
@[simp] theorem Part.modTill_labelFramer : (p.modTill f).labelFramer = p.labelFramer := rfl
@[simp] theorem Part.modTill_guestFramer : (p.modTill f).guestFramer = p.guestFramer := rfl
@[simp] theorem Part.modTill_links : (p.modTill f).links = p.links := rfl
@[simp] theorem Part.modTill_fwd : (p.modTill f).fwd = p.fwd := rfl
@[simp] theorem Part.modTill_call : (p.modTill f).call = p.call := rfl
@[simp] theorem Part.modTill_pres : (p.modTill f).pres = p.pres := rfl
@[simp] theorem Part.modTill_price : (p.modTill f).price = p.price := rfl
@[simp] theorem Part.modTill_till : (p.modTill f).till = f p.till := rfl
@[simp] theorem Part.modTill_jrn : (p.modTill f).jrn = p.jrn := rfl
@[simp] theorem Part.modTill_lab : (p.modTill f).lab = p.lab := rfl
@[simp] theorem Part.modTill_gst : (p.modTill f).gst = p.gst := rfl
@[simp] theorem Part.modTill_trk : (p.modTill f).trk = p.trk := rfl
@[simp] theorem Part.modTill_hdr : (p.modTill f).hdr = p.hdr := rfl
@[simp] theorem Part.modTill_memCtr : (p.modTill f).memCtr = p.memCtr := rfl
@[simp] theorem Part.modTill_asks : (p.modTill f).asks = p.asks := rfl
@[simp] theorem Part.modTill_dram : (p.modTill f).dram = p.dram := rfl
@[simp] theorem Part.modTill_written : (p.modTill f).written = p.written := rfl
end modTill

section modJrn
variable (f : Journal → Journal) (p : Part)
@[simp] theorem Part.modJrn_cfg : (p.modJrn f).cfg = p.cfg := rfl
@[simp] theorem Part.modJrn_branch : (p.modJrn f).branch = p.branch := rfl
@[simp] theorem Part.modJrn_trunkFramer : (p.modJrn f).trunkFramer = p.trunkFramer := rfl
@[simp] theorem Part.modJrn_labelFramer : (p.modJrn f).labelFramer = p.labelFramer := rfl
@[simp] theorem Part.modJrn_guestFramer : (p.modJrn f).guestFramer = p.guestFramer := rfl
@[simp] theorem Part.modJrn_links : (p.modJrn f).links = p.links := rfl
@[simp] theorem Part.modJrn_fwd : (p.modJrn f).fwd = p.fwd := rfl
@[simp] theorem Part.modJrn_call : (p.modJrn f).call = p.call := rfl
@[simp] theorem Part.modJrn_pres : (p.modJrn f).pres = p.pres := rfl
@[simp] theorem Part.modJrn_price : (p.modJrn f).price = p.price := rfl
@[simp] theorem Part.modJrn_till : (p.modJrn f).till = p.till := rfl
@[simp] theorem Part.modJrn_jrn : (p.modJrn f).jrn = f p.jrn := rfl
@[simp] theorem Part.modJrn_lab : (p.modJrn f).lab = p.lab := rfl
@[simp] theorem Part.modJrn_gst : (p.modJrn f).gst = p.gst := rfl
@[simp] theorem Part.modJrn_trk : (p.modJrn f).trk = p.trk := rfl
@[simp] theorem Part.modJrn_hdr : (p.modJrn f).hdr = p.hdr := rfl
@[simp] theorem Part.modJrn_memCtr : (p.modJrn f).memCtr = p.memCtr := rfl
@[simp] theorem Part.modJrn_asks : (p.modJrn f).asks = p.asks := rfl
@[simp] theorem Part.modJrn_dram : (p.modJrn f).dram = p.dram := rfl
@[simp] theorem Part.modJrn_written : (p.modJrn f).written = p.written := rfl
end modJrn

section modLab
variable (f : Labels → Labels) (p : Part)
@[simp] theorem Part.modLab_cfg : (p.modLab f).cfg = p.cfg := rfl
@[simp] theorem Part.modLab_branch : (p.modLab f).branch = p.branch := rfl
@[simp] theorem Part.modLab_trunkFramer : (p.modLab f).trunkFramer = p.trunkFramer := rfl
@[simp] theorem Part.modLab_labelFramer : (p.modLab f).labelFramer = p.labelFramer := rfl
@[simp] theorem Part.modLab_guestFramer : (p.modLab f).guestFramer = p.guestFramer := rfl
@[simp] theorem Part.modLab_links : (p.modLab f).links = p.links := rfl
@[simp] theorem Part.modLab_fwd : (p.modLab f).fwd = p.fwd := rfl
@[simp] theorem Part.modLab_call : (p.modLab f).call = p.call := rfl
@[simp] theorem Part.modLab_pres : (p.modLab f).pres = p.pres := rfl
@[simp] theorem Part.modLab_price : (p.modLab f).price = p.price := rfl
@[simp] theorem Part.modLab_till : (p.modLab f).till = p.till := rfl
@[simp] theorem Part.modLab_jrn : (p.modLab f).jrn = p.jrn := rfl
@[simp] theorem Part.modLab_lab : (p.modLab f).lab = f p.lab := rfl
@[simp] theorem Part.modLab_gst : (p.modLab f).gst = p.gst := rfl
@[simp] theorem Part.modLab_trk : (p.modLab f).trk = p.trk := rfl
@[simp] theorem Part.modLab_hdr : (p.modLab f).hdr = p.hdr := rfl
@[simp] theorem Part.modLab_memCtr : (p.modLab f).memCtr = p.memCtr := rfl
@[simp] theorem Part.modLab_asks : (p.modLab f).asks = p.asks := rfl
@[simp] theorem Part.modLab_dram : (p.modLab f).dram = p.dram := rfl
@[simp] theorem Part.modLab_written : (p.modLab f).written = p.written := rfl
end modLab

section modGst
variable (f : Guests → Guests) (p : Part)
@[simp] theorem Part.modGst_cfg : (p.modGst f).cfg = p.cfg := rfl
@[simp] theorem Part.modGst_branch : (p.modGst f).branch = p.branch := rfl
@[simp] theorem Part.modGst_trunkFramer : (p.modGst f).trunkFramer = p.trunkFramer := rfl
@[simp] theorem Part.modGst_labelFramer : (p.modGst f).labelFramer = p.labelFramer := rfl
@[simp] theorem Part.modGst_guestFramer : (p.modGst f).guestFramer = p.guestFramer := rfl
@[simp] theorem Part.modGst_links : (p.modGst f).links = p.links := rfl
@[simp] theorem Part.modGst_fwd : (p.modGst f).fwd = p.fwd := rfl
@[simp] theorem Part.modGst_call : (p.modGst f).call = p.call := rfl
@[simp] theorem Part.modGst_pres : (p.modGst f).pres = p.pres := rfl
@[simp] theorem Part.modGst_price : (p.modGst f).price = p.price := rfl
@[simp] theorem Part.modGst_till : (p.modGst f).till = p.till := rfl
@[simp] theorem Part.modGst_jrn : (p.modGst f).jrn = p.jrn := rfl
@[simp] theorem Part.modGst_lab : (p.modGst f).lab = p.lab := rfl
@[simp] theorem Part.modGst_gst : (p.modGst f).gst = f p.gst := rfl
@[simp] theorem Part.modGst_trk : (p.modGst f).trk = p.trk := rfl
@[simp] theorem Part.modGst_hdr : (p.modGst f).hdr = p.hdr := rfl
@[simp] theorem Part.modGst_memCtr : (p.modGst f).memCtr = p.memCtr := rfl
@[simp] theorem Part.modGst_asks : (p.modGst f).asks = p.asks := rfl
@[simp] theorem Part.modGst_dram : (p.modGst f).dram = p.dram := rfl
@[simp] theorem Part.modGst_written : (p.modGst f).written = p.written := rfl
end modGst

section modTrk
variable (f : Trunk → Trunk) (p : Part)
@[simp] theorem Part.modTrk_cfg : (p.modTrk f).cfg = p.cfg := rfl
@[simp] theorem Part.modTrk_branch : (p.modTrk f).branch = p.branch := rfl
@[simp] theorem Part.modTrk_trunkFramer : (p.modTrk f).trunkFramer = p.trunkFramer := rfl
@[simp] theorem Part.modTrk_labelFramer : (p.modTrk f).labelFramer = p.labelFramer := rfl
@[simp] theorem Part.modTrk_guestFramer : (p.modTrk f).guestFramer = p.guestFramer := rfl
@[simp] theorem Part.modTrk_links : (p.modTrk f).links = p.links := rfl
@[simp] theorem Part.modTrk_fwd : (p.modTrk f).fwd = p.fwd := rfl
@[simp] theorem Part.modTrk_call : (p.modTrk f).call = p.call := rfl
@[simp] theorem Part.modTrk_pres : (p.modTrk f).pres = p.pres := rfl
@[simp] theorem Part.modTrk_price : (p.modTrk f).price = p.price := rfl
@[simp] theorem Part.modTrk_till : (p.modTrk f).till = p.till := rfl
@[simp] theorem Part.modTrk_jrn : (p.modTrk f).jrn = p.jrn := rfl
@[simp] theorem Part.modTrk_lab : (p.modTrk f).lab = p.lab := rfl
@[simp] theorem Part.modTrk_gst : (p.modTrk f).gst = p.gst := rfl
@[simp] theorem Part.modTrk_trk : (p.modTrk f).trk = f p.trk := rfl
@[simp] theorem Part.modTrk_hdr : (p.modTrk f).hdr = p.hdr := rfl
@[simp] theorem Part.modTrk_memCtr : (p.modTrk f).memCtr = p.memCtr := rfl
@[simp] theorem Part.modTrk_asks : (p.modTrk f).asks = p.asks := rfl
@[simp] theorem Part.modTrk_dram : (p.modTrk f).dram = p.dram := rfl
@[simp] theorem Part.modTrk_written : (p.modTrk f).written = p.written := rfl
end modTrk

section modHdr
variable (f : HeaderUnit → HeaderUnit) (p : Part)
@[simp] theorem Part.modHdr_cfg : (p.modHdr f).cfg = p.cfg := rfl
@[simp] theorem Part.modHdr_branch : (p.modHdr f).branch = p.branch := rfl
@[simp] theorem Part.modHdr_trunkFramer : (p.modHdr f).trunkFramer = p.trunkFramer := rfl
@[simp] theorem Part.modHdr_labelFramer : (p.modHdr f).labelFramer = p.labelFramer := rfl
@[simp] theorem Part.modHdr_guestFramer : (p.modHdr f).guestFramer = p.guestFramer := rfl
@[simp] theorem Part.modHdr_links : (p.modHdr f).links = p.links := rfl
@[simp] theorem Part.modHdr_fwd : (p.modHdr f).fwd = p.fwd := rfl
@[simp] theorem Part.modHdr_call : (p.modHdr f).call = p.call := rfl
@[simp] theorem Part.modHdr_pres : (p.modHdr f).pres = p.pres := rfl
@[simp] theorem Part.modHdr_price : (p.modHdr f).price = p.price := rfl
@[simp] theorem Part.modHdr_till : (p.modHdr f).till = p.till := rfl
@[simp] theorem Part.modHdr_jrn : (p.modHdr f).jrn = p.jrn := rfl
@[simp] theorem Part.modHdr_lab : (p.modHdr f).lab = p.lab := rfl
@[simp] theorem Part.modHdr_gst : (p.modHdr f).gst = p.gst := rfl
@[simp] theorem Part.modHdr_trk : (p.modHdr f).trk = p.trk := rfl
@[simp] theorem Part.modHdr_hdr : (p.modHdr f).hdr = f p.hdr := rfl
@[simp] theorem Part.modHdr_memCtr : (p.modHdr f).memCtr = p.memCtr := rfl
@[simp] theorem Part.modHdr_asks : (p.modHdr f).asks = p.asks := rfl
@[simp] theorem Part.modHdr_dram : (p.modHdr f).dram = p.dram := rfl
@[simp] theorem Part.modHdr_written : (p.modHdr f).written = p.written := rfl
end modHdr

section modMem
variable (f : MemCounters → MemCounters) (p : Part)
@[simp] theorem Part.modMem_cfg : (p.modMem f).cfg = p.cfg := rfl
@[simp] theorem Part.modMem_branch : (p.modMem f).branch = p.branch := rfl
@[simp] theorem Part.modMem_trunkFramer : (p.modMem f).trunkFramer = p.trunkFramer := rfl
@[simp] theorem Part.modMem_labelFramer : (p.modMem f).labelFramer = p.labelFramer := rfl
@[simp] theorem Part.modMem_guestFramer : (p.modMem f).guestFramer = p.guestFramer := rfl
@[simp] theorem Part.modMem_links : (p.modMem f).links = p.links := rfl
@[simp] theorem Part.modMem_fwd : (p.modMem f).fwd = p.fwd := rfl
@[simp] theorem Part.modMem_call : (p.modMem f).call = p.call := rfl
@[simp] theorem Part.modMem_pres : (p.modMem f).pres = p.pres := rfl
@[simp] theorem Part.modMem_price : (p.modMem f).price = p.price := rfl
@[simp] theorem Part.modMem_till : (p.modMem f).till = p.till := rfl
@[simp] theorem Part.modMem_jrn : (p.modMem f).jrn = p.jrn := rfl
@[simp] theorem Part.modMem_lab : (p.modMem f).lab = p.lab := rfl
@[simp] theorem Part.modMem_gst : (p.modMem f).gst = p.gst := rfl
@[simp] theorem Part.modMem_trk : (p.modMem f).trk = p.trk := rfl
@[simp] theorem Part.modMem_hdr : (p.modMem f).hdr = p.hdr := rfl
@[simp] theorem Part.modMem_memCtr : (p.modMem f).memCtr = f p.memCtr := rfl
@[simp] theorem Part.modMem_asks : (p.modMem f).asks = p.asks := rfl
@[simp] theorem Part.modMem_dram : (p.modMem f).dram = p.dram := rfl
@[simp] theorem Part.modMem_written : (p.modMem f).written = p.written := rfl
end modMem

section modAsks
variable (f : Asks → Asks) (p : Part)
@[simp] theorem Part.modAsks_cfg : (p.modAsks f).cfg = p.cfg := rfl
@[simp] theorem Part.modAsks_branch : (p.modAsks f).branch = p.branch := rfl
@[simp] theorem Part.modAsks_trunkFramer : (p.modAsks f).trunkFramer = p.trunkFramer := rfl
@[simp] theorem Part.modAsks_labelFramer : (p.modAsks f).labelFramer = p.labelFramer := rfl
@[simp] theorem Part.modAsks_guestFramer : (p.modAsks f).guestFramer = p.guestFramer := rfl
@[simp] theorem Part.modAsks_links : (p.modAsks f).links = p.links := rfl
@[simp] theorem Part.modAsks_fwd : (p.modAsks f).fwd = p.fwd := rfl
@[simp] theorem Part.modAsks_call : (p.modAsks f).call = p.call := rfl
@[simp] theorem Part.modAsks_pres : (p.modAsks f).pres = p.pres := rfl
@[simp] theorem Part.modAsks_price : (p.modAsks f).price = p.price := rfl
@[simp] theorem Part.modAsks_till : (p.modAsks f).till = p.till := rfl
@[simp] theorem Part.modAsks_jrn : (p.modAsks f).jrn = p.jrn := rfl
@[simp] theorem Part.modAsks_lab : (p.modAsks f).lab = p.lab := rfl
@[simp] theorem Part.modAsks_gst : (p.modAsks f).gst = p.gst := rfl
@[simp] theorem Part.modAsks_trk : (p.modAsks f).trk = p.trk := rfl
@[simp] theorem Part.modAsks_hdr : (p.modAsks f).hdr = p.hdr := rfl
@[simp] theorem Part.modAsks_memCtr : (p.modAsks f).memCtr = p.memCtr := rfl
@[simp] theorem Part.modAsks_asks : (p.modAsks f).asks = f p.asks := rfl
@[simp] theorem Part.modAsks_dram : (p.modAsks f).dram = p.dram := rfl
@[simp] theorem Part.modAsks_written : (p.modAsks f).written = p.written := rfl
end modAsks

section modDram
variable (f : Mem → Mem) (p : Part)
@[simp] theorem Part.modDram_cfg : (p.modDram f).cfg = p.cfg := rfl
@[simp] theorem Part.modDram_branch : (p.modDram f).branch = p.branch := rfl
@[simp] theorem Part.modDram_trunkFramer : (p.modDram f).trunkFramer = p.trunkFramer := rfl
@[simp] theorem Part.modDram_labelFramer : (p.modDram f).labelFramer = p.labelFramer := rfl
@[simp] theorem Part.modDram_guestFramer : (p.modDram f).guestFramer = p.guestFramer := rfl
@[simp] theorem Part.modDram_links : (p.modDram f).links = p.links := rfl
@[simp] theorem Part.modDram_fwd : (p.modDram f).fwd = p.fwd := rfl
@[simp] theorem Part.modDram_call : (p.modDram f).call = p.call := rfl
@[simp] theorem Part.modDram_pres : (p.modDram f).pres = p.pres := rfl
@[simp] theorem Part.modDram_price : (p.modDram f).price = p.price := rfl
@[simp] theorem Part.modDram_till : (p.modDram f).till = p.till := rfl
@[simp] theorem Part.modDram_jrn : (p.modDram f).jrn = p.jrn := rfl
@[simp] theorem Part.modDram_lab : (p.modDram f).lab = p.lab := rfl
@[simp] theorem Part.modDram_gst : (p.modDram f).gst = p.gst := rfl
@[simp] theorem Part.modDram_trk : (p.modDram f).trk = p.trk := rfl
@[simp] theorem Part.modDram_hdr : (p.modDram f).hdr = p.hdr := rfl
@[simp] theorem Part.modDram_memCtr : (p.modDram f).memCtr = p.memCtr := rfl
@[simp] theorem Part.modDram_asks : (p.modDram f).asks = p.asks := rfl
@[simp] theorem Part.modDram_dram : (p.modDram f).dram = f p.dram := rfl
@[simp] theorem Part.modDram_written : (p.modDram f).written = p.written := rfl
end modDram

section modWritten
variable (f : Mem → Mem) (p : Part)
@[simp] theorem Part.modWritten_cfg : (p.modWritten f).cfg = p.cfg := rfl
@[simp] theorem Part.modWritten_branch : (p.modWritten f).branch = p.branch := rfl
@[simp] theorem Part.modWritten_trunkFramer : (p.modWritten f).trunkFramer = p.trunkFramer := rfl
@[simp] theorem Part.modWritten_labelFramer : (p.modWritten f).labelFramer = p.labelFramer := rfl
@[simp] theorem Part.modWritten_guestFramer : (p.modWritten f).guestFramer = p.guestFramer := rfl
@[simp] theorem Part.modWritten_links : (p.modWritten f).links = p.links := rfl
@[simp] theorem Part.modWritten_fwd : (p.modWritten f).fwd = p.fwd := rfl
@[simp] theorem Part.modWritten_call : (p.modWritten f).call = p.call := rfl
@[simp] theorem Part.modWritten_pres : (p.modWritten f).pres = p.pres := rfl
@[simp] theorem Part.modWritten_price : (p.modWritten f).price = p.price := rfl
@[simp] theorem Part.modWritten_till : (p.modWritten f).till = p.till := rfl
@[simp] theorem Part.modWritten_jrn : (p.modWritten f).jrn = p.jrn := rfl
@[simp] theorem Part.modWritten_lab : (p.modWritten f).lab = p.lab := rfl
@[simp] theorem Part.modWritten_gst : (p.modWritten f).gst = p.gst := rfl
@[simp] theorem Part.modWritten_trk : (p.modWritten f).trk = p.trk := rfl
@[simp] theorem Part.modWritten_hdr : (p.modWritten f).hdr = p.hdr := rfl
@[simp] theorem Part.modWritten_memCtr : (p.modWritten f).memCtr = p.memCtr := rfl
@[simp] theorem Part.modWritten_asks : (p.modWritten f).asks = p.asks := rfl
@[simp] theorem Part.modWritten_dram : (p.modWritten f).dram = p.dram := rfl
@[simp] theorem Part.modWritten_written : (p.modWritten f).written = f p.written := rfl
end modWritten

section countFwd
variable (f : FwdCounters → FwdCounters) (p : Part)
@[simp] theorem Part.countFwd_cfg : (p.countFwd f).cfg = p.cfg := rfl
@[simp] theorem Part.countFwd_branch : (p.countFwd f).branch = p.branch := rfl
@[simp] theorem Part.countFwd_trunkFramer : (p.countFwd f).trunkFramer = p.trunkFramer := rfl
@[simp] theorem Part.countFwd_labelFramer : (p.countFwd f).labelFramer = p.labelFramer := rfl
@[simp] theorem Part.countFwd_guestFramer : (p.countFwd f).guestFramer = p.guestFramer := rfl
@[simp] theorem Part.countFwd_links : (p.countFwd f).links = p.links := rfl
@[simp] theorem Part.countFwd_fwd : (p.countFwd f).fwd = { p.fwd with ctr := f p.fwd.ctr } := rfl
@[simp] theorem Part.countFwd_call : (p.countFwd f).call = p.call := rfl
@[simp] theorem Part.countFwd_pres : (p.countFwd f).pres = p.pres := rfl
@[simp] theorem Part.countFwd_price : (p.countFwd f).price = p.price := rfl
@[simp] theorem Part.countFwd_till : (p.countFwd f).till = p.till := rfl
@[simp] theorem Part.countFwd_jrn : (p.countFwd f).jrn = p.jrn := rfl
@[simp] theorem Part.countFwd_lab : (p.countFwd f).lab = p.lab := rfl
@[simp] theorem Part.countFwd_gst : (p.countFwd f).gst = p.gst := rfl
@[simp] theorem Part.countFwd_trk : (p.countFwd f).trk = p.trk := rfl
@[simp] theorem Part.countFwd_hdr : (p.countFwd f).hdr = p.hdr := rfl
@[simp] theorem Part.countFwd_memCtr : (p.countFwd f).memCtr = p.memCtr := rfl
@[simp] theorem Part.countFwd_asks : (p.countFwd f).asks = p.asks := rfl
@[simp] theorem Part.countFwd_dram : (p.countFwd f).dram = p.dram := rfl
@[simp] theorem Part.countFwd_written : (p.countFwd f).written = p.written := rfl
end countFwd

section countCall
variable (f : CallCounters → CallCounters) (p : Part)
@[simp] theorem Part.countCall_cfg : (p.countCall f).cfg = p.cfg := rfl
@[simp] theorem Part.countCall_branch : (p.countCall f).branch = p.branch := rfl
@[simp] theorem Part.countCall_trunkFramer : (p.countCall f).trunkFramer = p.trunkFramer := rfl
@[simp] theorem Part.countCall_labelFramer : (p.countCall f).labelFramer = p.labelFramer := rfl
@[simp] theorem Part.countCall_guestFramer : (p.countCall f).guestFramer = p.guestFramer := rfl
@[simp] theorem Part.countCall_links : (p.countCall f).links = p.links := rfl
@[simp] theorem Part.countCall_fwd : (p.countCall f).fwd = p.fwd := rfl
@[simp] theorem Part.countCall_call : (p.countCall f).call = { p.call with ctr := f p.call.ctr } := rfl
@[simp] theorem Part.countCall_pres : (p.countCall f).pres = p.pres := rfl
@[simp] theorem Part.countCall_price : (p.countCall f).price = p.price := rfl
@[simp] theorem Part.countCall_till : (p.countCall f).till = p.till := rfl
@[simp] theorem Part.countCall_jrn : (p.countCall f).jrn = p.jrn := rfl
@[simp] theorem Part.countCall_lab : (p.countCall f).lab = p.lab := rfl
@[simp] theorem Part.countCall_gst : (p.countCall f).gst = p.gst := rfl
@[simp] theorem Part.countCall_trk : (p.countCall f).trk = p.trk := rfl
@[simp] theorem Part.countCall_hdr : (p.countCall f).hdr = p.hdr := rfl
@[simp] theorem Part.countCall_memCtr : (p.countCall f).memCtr = p.memCtr := rfl
@[simp] theorem Part.countCall_asks : (p.countCall f).asks = p.asks := rfl
@[simp] theorem Part.countCall_dram : (p.countCall f).dram = p.dram := rfl
@[simp] theorem Part.countCall_written : (p.countCall f).written = p.written := rfl
end countCall

section countPres
variable (f : PresCounters → PresCounters) (p : Part)
@[simp] theorem Part.countPres_cfg : (p.countPres f).cfg = p.cfg := rfl
@[simp] theorem Part.countPres_branch : (p.countPres f).branch = p.branch := rfl
@[simp] theorem Part.countPres_trunkFramer : (p.countPres f).trunkFramer = p.trunkFramer := rfl
@[simp] theorem Part.countPres_labelFramer : (p.countPres f).labelFramer = p.labelFramer := rfl
@[simp] theorem Part.countPres_guestFramer : (p.countPres f).guestFramer = p.guestFramer := rfl
@[simp] theorem Part.countPres_links : (p.countPres f).links = p.links := rfl
@[simp] theorem Part.countPres_fwd : (p.countPres f).fwd = p.fwd := rfl
@[simp] theorem Part.countPres_call : (p.countPres f).call = p.call := rfl
@[simp] theorem Part.countPres_pres : (p.countPres f).pres = { p.pres with ctr := f p.pres.ctr } := rfl
@[simp] theorem Part.countPres_price : (p.countPres f).price = p.price := rfl
@[simp] theorem Part.countPres_till : (p.countPres f).till = p.till := rfl
@[simp] theorem Part.countPres_jrn : (p.countPres f).jrn = p.jrn := rfl
@[simp] theorem Part.countPres_lab : (p.countPres f).lab = p.lab := rfl
@[simp] theorem Part.countPres_gst : (p.countPres f).gst = p.gst := rfl
@[simp] theorem Part.countPres_trk : (p.countPres f).trk = p.trk := rfl
@[simp] theorem Part.countPres_hdr : (p.countPres f).hdr = p.hdr := rfl
@[simp] theorem Part.countPres_memCtr : (p.countPres f).memCtr = p.memCtr := rfl
@[simp] theorem Part.countPres_asks : (p.countPres f).asks = p.asks := rfl
@[simp] theorem Part.countPres_dram : (p.countPres f).dram = p.dram := rfl
@[simp] theorem Part.countPres_written : (p.countPres f).written = p.written := rfl
end countPres

section countPrice
variable (f : PriceCounters → PriceCounters) (p : Part)
@[simp] theorem Part.countPrice_cfg : (p.countPrice f).cfg = p.cfg := rfl
@[simp] theorem Part.countPrice_branch : (p.countPrice f).branch = p.branch := rfl
@[simp] theorem Part.countPrice_trunkFramer : (p.countPrice f).trunkFramer = p.trunkFramer := rfl
@[simp] theorem Part.countPrice_labelFramer : (p.countPrice f).labelFramer = p.labelFramer := rfl
@[simp] theorem Part.countPrice_guestFramer : (p.countPrice f).guestFramer = p.guestFramer := rfl
@[simp] theorem Part.countPrice_links : (p.countPrice f).links = p.links := rfl
@[simp] theorem Part.countPrice_fwd : (p.countPrice f).fwd = p.fwd := rfl
@[simp] theorem Part.countPrice_call : (p.countPrice f).call = p.call := rfl
@[simp] theorem Part.countPrice_pres : (p.countPrice f).pres = p.pres := rfl
@[simp] theorem Part.countPrice_price : (p.countPrice f).price = { p.price with ctr := f p.price.ctr } := rfl
@[simp] theorem Part.countPrice_till : (p.countPrice f).till = p.till := rfl
@[simp] theorem Part.countPrice_jrn : (p.countPrice f).jrn = p.jrn := rfl
@[simp] theorem Part.countPrice_lab : (p.countPrice f).lab = p.lab := rfl
@[simp] theorem Part.countPrice_gst : (p.countPrice f).gst = p.gst := rfl
@[simp] theorem Part.countPrice_trk : (p.countPrice f).trk = p.trk := rfl
@[simp] theorem Part.countPrice_hdr : (p.countPrice f).hdr = p.hdr := rfl
@[simp] theorem Part.countPrice_memCtr : (p.countPrice f).memCtr = p.memCtr := rfl
@[simp] theorem Part.countPrice_asks : (p.countPrice f).asks = p.asks := rfl
@[simp] theorem Part.countPrice_dram : (p.countPrice f).dram = p.dram := rfl
@[simp] theorem Part.countPrice_written : (p.countPrice f).written = p.written := rfl
end countPrice

section countTill
variable (f : TillCounters → TillCounters) (p : Part)
@[simp] theorem Part.countTill_cfg : (p.countTill f).cfg = p.cfg := rfl
@[simp] theorem Part.countTill_branch : (p.countTill f).branch = p.branch := rfl
@[simp] theorem Part.countTill_trunkFramer : (p.countTill f).trunkFramer = p.trunkFramer := rfl
@[simp] theorem Part.countTill_labelFramer : (p.countTill f).labelFramer = p.labelFramer := rfl
@[simp] theorem Part.countTill_guestFramer : (p.countTill f).guestFramer = p.guestFramer := rfl
@[simp] theorem Part.countTill_links : (p.countTill f).links = p.links := rfl
@[simp] theorem Part.countTill_fwd : (p.countTill f).fwd = p.fwd := rfl
@[simp] theorem Part.countTill_call : (p.countTill f).call = p.call := rfl
@[simp] theorem Part.countTill_pres : (p.countTill f).pres = p.pres := rfl
@[simp] theorem Part.countTill_price : (p.countTill f).price = p.price := rfl
@[simp] theorem Part.countTill_till : (p.countTill f).till = { p.till with ctr := f p.till.ctr } := rfl
@[simp] theorem Part.countTill_jrn : (p.countTill f).jrn = p.jrn := rfl
@[simp] theorem Part.countTill_lab : (p.countTill f).lab = p.lab := rfl
@[simp] theorem Part.countTill_gst : (p.countTill f).gst = p.gst := rfl
@[simp] theorem Part.countTill_trk : (p.countTill f).trk = p.trk := rfl
@[simp] theorem Part.countTill_hdr : (p.countTill f).hdr = p.hdr := rfl
@[simp] theorem Part.countTill_memCtr : (p.countTill f).memCtr = p.memCtr := rfl
@[simp] theorem Part.countTill_asks : (p.countTill f).asks = p.asks := rfl
@[simp] theorem Part.countTill_dram : (p.countTill f).dram = p.dram := rfl
@[simp] theorem Part.countTill_written : (p.countTill f).written = p.written := rfl
end countTill

section countJrn
variable (f : JournalCounters → JournalCounters) (p : Part)
@[simp] theorem Part.countJrn_cfg : (p.countJrn f).cfg = p.cfg := rfl
@[simp] theorem Part.countJrn_branch : (p.countJrn f).branch = p.branch := rfl
@[simp] theorem Part.countJrn_trunkFramer : (p.countJrn f).trunkFramer = p.trunkFramer := rfl
@[simp] theorem Part.countJrn_labelFramer : (p.countJrn f).labelFramer = p.labelFramer := rfl
@[simp] theorem Part.countJrn_guestFramer : (p.countJrn f).guestFramer = p.guestFramer := rfl
@[simp] theorem Part.countJrn_links : (p.countJrn f).links = p.links := rfl
@[simp] theorem Part.countJrn_fwd : (p.countJrn f).fwd = p.fwd := rfl
@[simp] theorem Part.countJrn_call : (p.countJrn f).call = p.call := rfl
@[simp] theorem Part.countJrn_pres : (p.countJrn f).pres = p.pres := rfl
@[simp] theorem Part.countJrn_price : (p.countJrn f).price = p.price := rfl
@[simp] theorem Part.countJrn_till : (p.countJrn f).till = p.till := rfl
@[simp] theorem Part.countJrn_jrn : (p.countJrn f).jrn = { p.jrn with ctr := f p.jrn.ctr } := rfl
@[simp] theorem Part.countJrn_lab : (p.countJrn f).lab = p.lab := rfl
@[simp] theorem Part.countJrn_gst : (p.countJrn f).gst = p.gst := rfl
@[simp] theorem Part.countJrn_trk : (p.countJrn f).trk = p.trk := rfl
@[simp] theorem Part.countJrn_hdr : (p.countJrn f).hdr = p.hdr := rfl
@[simp] theorem Part.countJrn_memCtr : (p.countJrn f).memCtr = p.memCtr := rfl
@[simp] theorem Part.countJrn_asks : (p.countJrn f).asks = p.asks := rfl
@[simp] theorem Part.countJrn_dram : (p.countJrn f).dram = p.dram := rfl
@[simp] theorem Part.countJrn_written : (p.countJrn f).written = p.written := rfl
end countJrn

section countLab
variable (f : LabelCounters → LabelCounters) (p : Part)
@[simp] theorem Part.countLab_cfg : (p.countLab f).cfg = p.cfg := rfl
@[simp] theorem Part.countLab_branch : (p.countLab f).branch = p.branch := rfl
@[simp] theorem Part.countLab_trunkFramer : (p.countLab f).trunkFramer = p.trunkFramer := rfl
@[simp] theorem Part.countLab_labelFramer : (p.countLab f).labelFramer = p.labelFramer := rfl
@[simp] theorem Part.countLab_guestFramer : (p.countLab f).guestFramer = p.guestFramer := rfl
@[simp] theorem Part.countLab_links : (p.countLab f).links = p.links := rfl
@[simp] theorem Part.countLab_fwd : (p.countLab f).fwd = p.fwd := rfl
@[simp] theorem Part.countLab_call : (p.countLab f).call = p.call := rfl
@[simp] theorem Part.countLab_pres : (p.countLab f).pres = p.pres := rfl
@[simp] theorem Part.countLab_price : (p.countLab f).price = p.price := rfl
@[simp] theorem Part.countLab_till : (p.countLab f).till = p.till := rfl
@[simp] theorem Part.countLab_jrn : (p.countLab f).jrn = p.jrn := rfl
@[simp] theorem Part.countLab_lab : (p.countLab f).lab = { p.lab with ctr := f p.lab.ctr } := rfl
@[simp] theorem Part.countLab_gst : (p.countLab f).gst = p.gst := rfl
@[simp] theorem Part.countLab_trk : (p.countLab f).trk = p.trk := rfl
@[simp] theorem Part.countLab_hdr : (p.countLab f).hdr = p.hdr := rfl
@[simp] theorem Part.countLab_memCtr : (p.countLab f).memCtr = p.memCtr := rfl
@[simp] theorem Part.countLab_asks : (p.countLab f).asks = p.asks := rfl
@[simp] theorem Part.countLab_dram : (p.countLab f).dram = p.dram := rfl
@[simp] theorem Part.countLab_written : (p.countLab f).written = p.written := rfl
end countLab

section countGst
variable (f : GuestCounters → GuestCounters) (p : Part)
@[simp] theorem Part.countGst_cfg : (p.countGst f).cfg = p.cfg := rfl
@[simp] theorem Part.countGst_branch : (p.countGst f).branch = p.branch := rfl
@[simp] theorem Part.countGst_trunkFramer : (p.countGst f).trunkFramer = p.trunkFramer := rfl
@[simp] theorem Part.countGst_labelFramer : (p.countGst f).labelFramer = p.labelFramer := rfl
@[simp] theorem Part.countGst_guestFramer : (p.countGst f).guestFramer = p.guestFramer := rfl
@[simp] theorem Part.countGst_links : (p.countGst f).links = p.links := rfl
@[simp] theorem Part.countGst_fwd : (p.countGst f).fwd = p.fwd := rfl
@[simp] theorem Part.countGst_call : (p.countGst f).call = p.call := rfl
@[simp] theorem Part.countGst_pres : (p.countGst f).pres = p.pres := rfl
@[simp] theorem Part.countGst_price : (p.countGst f).price = p.price := rfl
@[simp] theorem Part.countGst_till : (p.countGst f).till = p.till := rfl
@[simp] theorem Part.countGst_jrn : (p.countGst f).jrn = p.jrn := rfl
@[simp] theorem Part.countGst_lab : (p.countGst f).lab = p.lab := rfl
@[simp] theorem Part.countGst_gst : (p.countGst f).gst = { p.gst with ctr := f p.gst.ctr } := rfl
@[simp] theorem Part.countGst_trk : (p.countGst f).trk = p.trk := rfl
@[simp] theorem Part.countGst_hdr : (p.countGst f).hdr = p.hdr := rfl
@[simp] theorem Part.countGst_memCtr : (p.countGst f).memCtr = p.memCtr := rfl
@[simp] theorem Part.countGst_asks : (p.countGst f).asks = p.asks := rfl
@[simp] theorem Part.countGst_dram : (p.countGst f).dram = p.dram := rfl
@[simp] theorem Part.countGst_written : (p.countGst f).written = p.written := rfl
end countGst

section countTrk
variable (f : TrunkCounters → TrunkCounters) (p : Part)
@[simp] theorem Part.countTrk_cfg : (p.countTrk f).cfg = p.cfg := rfl
@[simp] theorem Part.countTrk_branch : (p.countTrk f).branch = p.branch := rfl
@[simp] theorem Part.countTrk_trunkFramer : (p.countTrk f).trunkFramer = p.trunkFramer := rfl
@[simp] theorem Part.countTrk_labelFramer : (p.countTrk f).labelFramer = p.labelFramer := rfl
@[simp] theorem Part.countTrk_guestFramer : (p.countTrk f).guestFramer = p.guestFramer := rfl
@[simp] theorem Part.countTrk_links : (p.countTrk f).links = p.links := rfl
@[simp] theorem Part.countTrk_fwd : (p.countTrk f).fwd = p.fwd := rfl
@[simp] theorem Part.countTrk_call : (p.countTrk f).call = p.call := rfl
@[simp] theorem Part.countTrk_pres : (p.countTrk f).pres = p.pres := rfl
@[simp] theorem Part.countTrk_price : (p.countTrk f).price = p.price := rfl
@[simp] theorem Part.countTrk_till : (p.countTrk f).till = p.till := rfl
@[simp] theorem Part.countTrk_jrn : (p.countTrk f).jrn = p.jrn := rfl
@[simp] theorem Part.countTrk_lab : (p.countTrk f).lab = p.lab := rfl
@[simp] theorem Part.countTrk_gst : (p.countTrk f).gst = p.gst := rfl
@[simp] theorem Part.countTrk_trk : (p.countTrk f).trk = { p.trk with ctr := f p.trk.ctr } := rfl
@[simp] theorem Part.countTrk_hdr : (p.countTrk f).hdr = p.hdr := rfl
@[simp] theorem Part.countTrk_memCtr : (p.countTrk f).memCtr = p.memCtr := rfl
@[simp] theorem Part.countTrk_asks : (p.countTrk f).asks = p.asks := rfl
@[simp] theorem Part.countTrk_dram : (p.countTrk f).dram = p.dram := rfl
@[simp] theorem Part.countTrk_written : (p.countTrk f).written = p.written := rfl
end countTrk

section giveBack
variable (b : Buf) (p : Part)
@[simp] theorem Part.giveBack_cfg : (p.giveBack b).cfg = p.cfg := rfl
@[simp] theorem Part.giveBack_branch : (p.giveBack b).branch = p.branch := rfl
@[simp] theorem Part.giveBack_trunkFramer : (p.giveBack b).trunkFramer = p.trunkFramer := rfl
@[simp] theorem Part.giveBack_labelFramer : (p.giveBack b).labelFramer = p.labelFramer := rfl
@[simp] theorem Part.giveBack_guestFramer : (p.giveBack b).guestFramer = p.guestFramer := rfl
@[simp] theorem Part.giveBack_links : (p.giveBack b).links = p.links := rfl
@[simp] theorem Part.giveBack_fwd : (p.giveBack b).fwd = p.fwd.giveBack b := rfl
@[simp] theorem Part.giveBack_call : (p.giveBack b).call = p.call := rfl
@[simp] theorem Part.giveBack_pres : (p.giveBack b).pres = p.pres := rfl
@[simp] theorem Part.giveBack_price : (p.giveBack b).price = p.price := rfl
@[simp] theorem Part.giveBack_till : (p.giveBack b).till = p.till := rfl
@[simp] theorem Part.giveBack_jrn : (p.giveBack b).jrn = p.jrn := rfl
@[simp] theorem Part.giveBack_lab : (p.giveBack b).lab = p.lab := rfl
@[simp] theorem Part.giveBack_gst : (p.giveBack b).gst = p.gst := rfl
@[simp] theorem Part.giveBack_trk : (p.giveBack b).trk = p.trk := rfl
@[simp] theorem Part.giveBack_hdr : (p.giveBack b).hdr = p.hdr := rfl
@[simp] theorem Part.giveBack_memCtr : (p.giveBack b).memCtr = p.memCtr := rfl
@[simp] theorem Part.giveBack_asks : (p.giveBack b).asks = p.asks := rfl
@[simp] theorem Part.giveBack_dram : (p.giveBack b).dram = p.dram := rfl
@[simp] theorem Part.giveBack_written : (p.giveBack b).written = p.written := rfl
end giveBack

section setConn
variable (c : Option Conn) (p : Part)
@[simp] theorem Part.setConn_cfg : (p.setConn c).cfg = p.cfg := rfl
@[simp] theorem Part.setConn_branch : (p.setConn c).branch = p.branch := rfl
@[simp] theorem Part.setConn_trunkFramer : (p.setConn c).trunkFramer = p.trunkFramer := rfl
@[simp] theorem Part.setConn_labelFramer : (p.setConn c).labelFramer = p.labelFramer := rfl
@[simp] theorem Part.setConn_guestFramer : (p.setConn c).guestFramer = p.guestFramer := rfl
@[simp] theorem Part.setConn_links : (p.setConn c).links = p.links := rfl
@[simp] theorem Part.setConn_fwd : (p.setConn c).fwd = p.fwd := rfl
@[simp] theorem Part.setConn_call : (p.setConn c).call = { p.call with conn := c } := rfl
@[simp] theorem Part.setConn_pres : (p.setConn c).pres = p.pres := rfl
@[simp] theorem Part.setConn_price : (p.setConn c).price = p.price := rfl
@[simp] theorem Part.setConn_till : (p.setConn c).till = p.till := rfl
@[simp] theorem Part.setConn_jrn : (p.setConn c).jrn = p.jrn := rfl
@[simp] theorem Part.setConn_lab : (p.setConn c).lab = p.lab := rfl
@[simp] theorem Part.setConn_gst : (p.setConn c).gst = p.gst := rfl
@[simp] theorem Part.setConn_trk : (p.setConn c).trk = p.trk := rfl
@[simp] theorem Part.setConn_hdr : (p.setConn c).hdr = p.hdr := rfl
@[simp] theorem Part.setConn_memCtr : (p.setConn c).memCtr = p.memCtr := rfl
@[simp] theorem Part.setConn_asks : (p.setConn c).asks = p.asks := rfl
@[simp] theorem Part.setConn_dram : (p.setConn c).dram = p.dram := rfl
@[simp] theorem Part.setConn_written : (p.setConn c).written = p.written := rfl
end setConn

section ask
variable (u : BurstUser) (t : Tok) (p : Part)
@[simp] theorem Part.ask_cfg : (p.ask u t).cfg = p.cfg := rfl
@[simp] theorem Part.ask_branch : (p.ask u t).branch = p.branch := rfl
@[simp] theorem Part.ask_trunkFramer : (p.ask u t).trunkFramer = p.trunkFramer := rfl
@[simp] theorem Part.ask_labelFramer : (p.ask u t).labelFramer = p.labelFramer := rfl
@[simp] theorem Part.ask_guestFramer : (p.ask u t).guestFramer = p.guestFramer := rfl
@[simp] theorem Part.ask_links : (p.ask u t).links = p.links := rfl
@[simp] theorem Part.ask_fwd : (p.ask u t).fwd = p.fwd := rfl
@[simp] theorem Part.ask_call : (p.ask u t).call = p.call := rfl
@[simp] theorem Part.ask_pres : (p.ask u t).pres = p.pres := rfl
@[simp] theorem Part.ask_price : (p.ask u t).price = p.price := rfl
@[simp] theorem Part.ask_till : (p.ask u t).till = p.till := rfl
@[simp] theorem Part.ask_jrn : (p.ask u t).jrn = p.jrn := rfl
@[simp] theorem Part.ask_lab : (p.ask u t).lab = p.lab := rfl
@[simp] theorem Part.ask_gst : (p.ask u t).gst = p.gst := rfl
@[simp] theorem Part.ask_trk : (p.ask u t).trk = p.trk := rfl
@[simp] theorem Part.ask_hdr : (p.ask u t).hdr = p.hdr := rfl
@[simp] theorem Part.ask_memCtr : (p.ask u t).memCtr = p.memCtr := rfl
@[simp] theorem Part.ask_asks : (p.ask u t).asks = p.asks.set u.req (joinAsked u t (p.asks.of u.req)) := rfl
@[simp] theorem Part.ask_dram : (p.ask u t).dram = p.dram := rfl
@[simp] theorem Part.ask_written : (p.ask u t).written = p.written := rfl
end ask

section released
variable (u : BurstUser) (more : List Tok) (p : Part)
@[simp] theorem Part.released_cfg : (p.released u more).cfg = p.cfg := rfl
@[simp] theorem Part.released_branch : (p.released u more).branch = p.branch := rfl
@[simp] theorem Part.released_trunkFramer : (p.released u more).trunkFramer = p.trunkFramer := rfl
@[simp] theorem Part.released_labelFramer : (p.released u more).labelFramer = p.labelFramer := rfl
@[simp] theorem Part.released_guestFramer : (p.released u more).guestFramer = p.guestFramer := rfl
@[simp] theorem Part.released_links : (p.released u more).links = p.links := rfl
@[simp] theorem Part.released_fwd : (p.released u more).fwd = p.fwd := rfl
@[simp] theorem Part.released_call : (p.released u more).call = p.call := rfl
@[simp] theorem Part.released_pres : (p.released u more).pres = p.pres := rfl
@[simp] theorem Part.released_price : (p.released u more).price = p.price := rfl
@[simp] theorem Part.released_till : (p.released u more).till = p.till := rfl
@[simp] theorem Part.released_jrn : (p.released u more).jrn = p.jrn := rfl
@[simp] theorem Part.released_lab : (p.released u more).lab = p.lab := rfl
@[simp] theorem Part.released_gst : (p.released u more).gst = p.gst := rfl
@[simp] theorem Part.released_trk : (p.released u more).trk = p.trk := rfl
@[simp] theorem Part.released_hdr : (p.released u more).hdr = p.hdr := rfl
@[simp] theorem Part.released_memCtr : (p.released u more).memCtr = p.memCtr := rfl
@[simp] theorem Part.released_dram : (p.released u more).dram = p.dram := rfl
@[simp] theorem Part.released_written : (p.released u more).written = p.written := rfl
end released

section askStore
variable (u : BurstUser) (parts : List (Nat × Bytes)) (p : Part)
@[simp] theorem Part.askStore_cfg : (p.askStore u parts).cfg = p.cfg := by cases parts <;> rfl
@[simp] theorem Part.askStore_branch : (p.askStore u parts).branch = p.branch := by cases parts <;> rfl
@[simp] theorem Part.askStore_trunkFramer : (p.askStore u parts).trunkFramer = p.trunkFramer := by cases parts <;> rfl
@[simp] theorem Part.askStore_labelFramer : (p.askStore u parts).labelFramer = p.labelFramer := by cases parts <;> rfl
@[simp] theorem Part.askStore_guestFramer : (p.askStore u parts).guestFramer = p.guestFramer := by cases parts <;> rfl
@[simp] theorem Part.askStore_links : (p.askStore u parts).links = p.links := by cases parts <;> rfl
@[simp] theorem Part.askStore_fwd : (p.askStore u parts).fwd = p.fwd := by cases parts <;> rfl
@[simp] theorem Part.askStore_call : (p.askStore u parts).call = p.call := by cases parts <;> rfl
@[simp] theorem Part.askStore_pres : (p.askStore u parts).pres = p.pres := by cases parts <;> rfl
@[simp] theorem Part.askStore_price : (p.askStore u parts).price = p.price := by cases parts <;> rfl
@[simp] theorem Part.askStore_till : (p.askStore u parts).till = p.till := by cases parts <;> rfl
@[simp] theorem Part.askStore_jrn : (p.askStore u parts).jrn = p.jrn := by cases parts <;> rfl
@[simp] theorem Part.askStore_lab : (p.askStore u parts).lab = p.lab := by cases parts <;> rfl
@[simp] theorem Part.askStore_gst : (p.askStore u parts).gst = p.gst := by cases parts <;> rfl
@[simp] theorem Part.askStore_trk : (p.askStore u parts).trk = p.trk := by cases parts <;> rfl
@[simp] theorem Part.askStore_hdr : (p.askStore u parts).hdr = p.hdr := by cases parts <;> rfl
@[simp] theorem Part.askStore_memCtr : (p.askStore u parts).memCtr = p.memCtr := by cases parts <;> rfl
@[simp] theorem Part.askStore_dram : (p.askStore u parts).dram = p.dram := by cases parts <;> rfl
@[simp] theorem Part.askStore_written : (p.askStore u parts).written = p.written := by cases parts <;> rfl
end askStore

section loads
variable (u : BurstUser) (n : Nat) (p : Part)
@[simp] theorem Part.loads_cfg : (p.loads u n).cfg = p.cfg := by unfold Part.loads; split <;> rfl
@[simp] theorem Part.loads_branch : (p.loads u n).branch = p.branch := by unfold Part.loads; split <;> rfl
@[simp] theorem Part.loads_trunkFramer : (p.loads u n).trunkFramer = p.trunkFramer := by unfold Part.loads; split <;> rfl
@[simp] theorem Part.loads_labelFramer : (p.loads u n).labelFramer = p.labelFramer := by unfold Part.loads; split <;> rfl
@[simp] theorem Part.loads_guestFramer : (p.loads u n).guestFramer = p.guestFramer := by unfold Part.loads; split <;> rfl
@[simp] theorem Part.loads_links : (p.loads u n).links = p.links := by unfold Part.loads; split <;> rfl
@[simp] theorem Part.loads_fwd : (p.loads u n).fwd = p.fwd := by unfold Part.loads; split <;> rfl
@[simp] theorem Part.loads_call : (p.loads u n).call = p.call := by unfold Part.loads; split <;> rfl
@[simp] theorem Part.loads_pres : (p.loads u n).pres = p.pres := by unfold Part.loads; split <;> rfl
@[simp] theorem Part.loads_price : (p.loads u n).price = p.price := by unfold Part.loads; split <;> rfl
@[simp] theorem Part.loads_till : (p.loads u n).till = p.till := by unfold Part.loads; split <;> rfl
@[simp] theorem Part.loads_jrn : (p.loads u n).jrn = p.jrn := by unfold Part.loads; split <;> rfl
@[simp] theorem Part.loads_lab : (p.loads u n).lab = p.lab := by unfold Part.loads; split <;> rfl
@[simp] theorem Part.loads_gst : (p.loads u n).gst = p.gst := by unfold Part.loads; split <;> rfl
@[simp] theorem Part.loads_trk : (p.loads u n).trk = p.trk := by unfold Part.loads; split <;> rfl
@[simp] theorem Part.loads_hdr : (p.loads u n).hdr = p.hdr := by unfold Part.loads; split <;> rfl
@[simp] theorem Part.loads_memCtr : (p.loads u n).memCtr = p.memCtr := by unfold Part.loads; split <;> rfl
@[simp] theorem Part.loads_dram : (p.loads u n).dram = p.dram := by unfold Part.loads; split <;> rfl
@[simp] theorem Part.loads_written : (p.loads u n).written = p.written := by unfold Part.loads; split <;> rfl
end loads

section put
variable (a : Nat) (bs : Bytes) (p : Part)
@[simp] theorem Part.put_cfg : (p.put a bs).cfg = p.cfg := rfl
@[simp] theorem Part.put_branch : (p.put a bs).branch = p.branch := rfl
@[simp] theorem Part.put_trunkFramer : (p.put a bs).trunkFramer = p.trunkFramer := rfl
@[simp] theorem Part.put_labelFramer : (p.put a bs).labelFramer = p.labelFramer := rfl
@[simp] theorem Part.put_guestFramer : (p.put a bs).guestFramer = p.guestFramer := rfl
@[simp] theorem Part.put_links : (p.put a bs).links = p.links := rfl
@[simp] theorem Part.put_fwd : (p.put a bs).fwd = p.fwd := rfl
@[simp] theorem Part.put_call : (p.put a bs).call = p.call := rfl
@[simp] theorem Part.put_pres : (p.put a bs).pres = p.pres := rfl
@[simp] theorem Part.put_price : (p.put a bs).price = p.price := rfl
@[simp] theorem Part.put_till : (p.put a bs).till = p.till := rfl
@[simp] theorem Part.put_jrn : (p.put a bs).jrn = p.jrn := rfl
@[simp] theorem Part.put_lab : (p.put a bs).lab = p.lab := rfl
@[simp] theorem Part.put_gst : (p.put a bs).gst = p.gst := rfl
@[simp] theorem Part.put_trk : (p.put a bs).trk = p.trk := rfl
@[simp] theorem Part.put_hdr : (p.put a bs).hdr = p.hdr := rfl
@[simp] theorem Part.put_memCtr : (p.put a bs).memCtr = p.memCtr := rfl
@[simp] theorem Part.put_asks : (p.put a bs).asks = p.asks := rfl
@[simp] theorem Part.put_dram : (p.put a bs).dram = Mem.writeBytes p.dram a bs := rfl
@[simp] theorem Part.put_written : (p.put a bs).written = Mem.writeBytes p.written a bs := rfl
end put

section write
variable (u : BurstUser) (a : Nat) (bs : Bytes) (p : Part)
@[simp] theorem Part.write_cfg : (p.write u a bs).cfg = p.cfg := by simp [Part.write]
@[simp] theorem Part.write_branch : (p.write u a bs).branch = p.branch := by simp [Part.write]
@[simp] theorem Part.write_trunkFramer : (p.write u a bs).trunkFramer = p.trunkFramer := by simp [Part.write]
@[simp] theorem Part.write_labelFramer : (p.write u a bs).labelFramer = p.labelFramer := by simp [Part.write]
@[simp] theorem Part.write_guestFramer : (p.write u a bs).guestFramer = p.guestFramer := by simp [Part.write]
@[simp] theorem Part.write_links : (p.write u a bs).links = p.links := by simp [Part.write]
@[simp] theorem Part.write_fwd : (p.write u a bs).fwd = p.fwd := by simp [Part.write]
@[simp] theorem Part.write_call : (p.write u a bs).call = p.call := by simp [Part.write]
@[simp] theorem Part.write_pres : (p.write u a bs).pres = p.pres := by simp [Part.write]
@[simp] theorem Part.write_price : (p.write u a bs).price = p.price := by simp [Part.write]
@[simp] theorem Part.write_till : (p.write u a bs).till = p.till := by simp [Part.write]
@[simp] theorem Part.write_jrn : (p.write u a bs).jrn = p.jrn := by simp [Part.write]
@[simp] theorem Part.write_lab : (p.write u a bs).lab = p.lab := by simp [Part.write]
@[simp] theorem Part.write_gst : (p.write u a bs).gst = p.gst := by simp [Part.write]
@[simp] theorem Part.write_trk : (p.write u a bs).trk = p.trk := by simp [Part.write]
@[simp] theorem Part.write_hdr : (p.write u a bs).hdr = p.hdr := by simp [Part.write]
@[simp] theorem Part.write_memCtr : (p.write u a bs).memCtr = p.memCtr := by simp [Part.write]
@[simp] theorem Part.write_dram : (p.write u a bs).dram = Mem.writeBytes p.dram a bs := by simp [Part.write]
@[simp] theorem Part.write_written : (p.write u a bs).written = p.written := by simp [Part.write]
end write

section wipe
variable (u : BurstUser) (lo hi : Nat) (p : Part)
@[simp] theorem Part.wipe_cfg : (p.wipe u lo hi).cfg = p.cfg := rfl
@[simp] theorem Part.wipe_branch : (p.wipe u lo hi).branch = p.branch := rfl
@[simp] theorem Part.wipe_trunkFramer : (p.wipe u lo hi).trunkFramer = p.trunkFramer := rfl
@[simp] theorem Part.wipe_labelFramer : (p.wipe u lo hi).labelFramer = p.labelFramer := rfl
@[simp] theorem Part.wipe_guestFramer : (p.wipe u lo hi).guestFramer = p.guestFramer := rfl
@[simp] theorem Part.wipe_links : (p.wipe u lo hi).links = p.links := rfl
@[simp] theorem Part.wipe_fwd : (p.wipe u lo hi).fwd = p.fwd := rfl
@[simp] theorem Part.wipe_call : (p.wipe u lo hi).call = p.call := rfl
@[simp] theorem Part.wipe_pres : (p.wipe u lo hi).pres = p.pres := rfl
@[simp] theorem Part.wipe_price : (p.wipe u lo hi).price = p.price := rfl
@[simp] theorem Part.wipe_till : (p.wipe u lo hi).till = p.till := rfl
@[simp] theorem Part.wipe_jrn : (p.wipe u lo hi).jrn = p.jrn := rfl
@[simp] theorem Part.wipe_lab : (p.wipe u lo hi).lab = p.lab := rfl
@[simp] theorem Part.wipe_gst : (p.wipe u lo hi).gst = p.gst := rfl
@[simp] theorem Part.wipe_trk : (p.wipe u lo hi).trk = p.trk := rfl
@[simp] theorem Part.wipe_hdr : (p.wipe u lo hi).hdr = p.hdr := rfl
@[simp] theorem Part.wipe_memCtr : (p.wipe u lo hi).memCtr = p.memCtr := rfl
@[simp] theorem Part.wipe_asks : (p.wipe u lo hi).asks = p.asks.set u.req (joinAsked u (.wipe lo hi) (p.asks.of u.req)) := rfl
@[simp] theorem Part.wipe_dram : (p.wipe u lo hi).dram = Mem.wipe p.dram lo hi := rfl
@[simp] theorem Part.wipe_written : (p.wipe u lo hi).written = p.written := rfl
end wipe

section setPort
variable (n : PortNo) (x : Port) (p : Part)
@[simp] theorem Part.setPort_cfg : (p.setPort n x).cfg = p.cfg := rfl
@[simp] theorem Part.setPort_branch : (p.setPort n x).branch = p.branch := rfl
@[simp] theorem Part.setPort_trunkFramer : (p.setPort n x).trunkFramer = p.trunkFramer := rfl
@[simp] theorem Part.setPort_labelFramer : (p.setPort n x).labelFramer = p.labelFramer := rfl
@[simp] theorem Part.setPort_guestFramer : (p.setPort n x).guestFramer = p.guestFramer := rfl
@[simp] theorem Part.setPort_links : (p.setPort n x).links = p.links := rfl
@[simp] theorem Part.setPort_fwd : (p.setPort n x).fwd = p.fwd := rfl
@[simp] theorem Part.setPort_call : (p.setPort n x).call = p.call := rfl
@[simp] theorem Part.setPort_pres : (p.setPort n x).pres = p.pres := rfl
@[simp] theorem Part.setPort_price : (p.setPort n x).price = p.price := rfl
@[simp] theorem Part.setPort_till : (p.setPort n x).till = { p.till with ports := p.till.ports.set n.val x } := rfl
@[simp] theorem Part.setPort_jrn : (p.setPort n x).jrn = p.jrn := rfl
@[simp] theorem Part.setPort_lab : (p.setPort n x).lab = p.lab := rfl
@[simp] theorem Part.setPort_gst : (p.setPort n x).gst = p.gst := rfl
@[simp] theorem Part.setPort_trk : (p.setPort n x).trk = p.trk := rfl
@[simp] theorem Part.setPort_hdr : (p.setPort n x).hdr = p.hdr := rfl
@[simp] theorem Part.setPort_memCtr : (p.setPort n x).memCtr = p.memCtr := rfl
@[simp] theorem Part.setPort_asks : (p.setPort n x).asks = p.asks := rfl
@[simp] theorem Part.setPort_dram : (p.setPort n x).dram = p.dram := rfl
@[simp] theorem Part.setPort_written : (p.setPort n x).written = p.written := rfl
end setPort

section modFramer
variable (l : Line) (f : Framer → Framer) (p : Part)
@[simp] theorem Part.modFramer_cfg : (p.modFramer l f).cfg = p.cfg := by cases l <;> rfl
@[simp] theorem Part.modFramer_links : (p.modFramer l f).links = p.links := by cases l <;> rfl
@[simp] theorem Part.modFramer_fwd : (p.modFramer l f).fwd = p.fwd := by cases l <;> rfl
@[simp] theorem Part.modFramer_call : (p.modFramer l f).call = p.call := by cases l <;> rfl
@[simp] theorem Part.modFramer_pres : (p.modFramer l f).pres = p.pres := by cases l <;> rfl
@[simp] theorem Part.modFramer_price : (p.modFramer l f).price = p.price := by cases l <;> rfl
@[simp] theorem Part.modFramer_till : (p.modFramer l f).till = p.till := by cases l <;> rfl
@[simp] theorem Part.modFramer_jrn : (p.modFramer l f).jrn = p.jrn := by cases l <;> rfl
@[simp] theorem Part.modFramer_lab : (p.modFramer l f).lab = p.lab := by cases l <;> rfl
@[simp] theorem Part.modFramer_gst : (p.modFramer l f).gst = p.gst := by cases l <;> rfl
@[simp] theorem Part.modFramer_trk : (p.modFramer l f).trk = p.trk := by cases l <;> rfl
@[simp] theorem Part.modFramer_hdr : (p.modFramer l f).hdr = p.hdr := by cases l <;> rfl
@[simp] theorem Part.modFramer_memCtr : (p.modFramer l f).memCtr = p.memCtr := by cases l <;> rfl
@[simp] theorem Part.modFramer_asks : (p.modFramer l f).asks = p.asks := by cases l <;> rfl
@[simp] theorem Part.modFramer_dram : (p.modFramer l f).dram = p.dram := by cases l <;> rfl
@[simp] theorem Part.modFramer_written : (p.modFramer l f).written = p.written := by cases l <;> rfl
@[simp] theorem Part.framer_modFramer : (p.modFramer l f).framer l = f (p.framer l) := by cases l <;> rfl
theorem Part.framer_modFramer_ne (k : Line) (h : k ≠ l) : (p.modFramer l f).framer k = p.framer k := by
  cases l <;> cases k <;> first | rfl | exact absurd rfl h
end modFramer

section modSender
variable (l : Line) (f : Sender → Sender) (p : Part)
@[simp] theorem Part.modSender_cfg : (p.modSender l f).cfg = p.cfg := by cases l <;> rfl
@[simp] theorem Part.modSender_trunkFramer : (p.modSender l f).trunkFramer = p.trunkFramer := by cases l <;> rfl
@[simp] theorem Part.modSender_labelFramer : (p.modSender l f).labelFramer = p.labelFramer := by cases l <;> rfl
@[simp] theorem Part.modSender_guestFramer : (p.modSender l f).guestFramer = p.guestFramer := by cases l <;> rfl
@[simp] theorem Part.modSender_fwd : (p.modSender l f).fwd = p.fwd := by cases l <;> rfl
@[simp] theorem Part.modSender_call : (p.modSender l f).call = p.call := by cases l <;> rfl
@[simp] theorem Part.modSender_pres : (p.modSender l f).pres = p.pres := by cases l <;> rfl
@[simp] theorem Part.modSender_price : (p.modSender l f).price = p.price := by cases l <;> rfl
@[simp] theorem Part.modSender_till : (p.modSender l f).till = p.till := by cases l <;> rfl
@[simp] theorem Part.modSender_jrn : (p.modSender l f).jrn = p.jrn := by cases l <;> rfl
@[simp] theorem Part.modSender_lab : (p.modSender l f).lab = p.lab := by cases l <;> rfl
@[simp] theorem Part.modSender_gst : (p.modSender l f).gst = p.gst := by cases l <;> rfl
@[simp] theorem Part.modSender_trk : (p.modSender l f).trk = p.trk := by cases l <;> rfl
@[simp] theorem Part.modSender_hdr : (p.modSender l f).hdr = p.hdr := by cases l <;> rfl
@[simp] theorem Part.modSender_memCtr : (p.modSender l f).memCtr = p.memCtr := by cases l <;> rfl
@[simp] theorem Part.modSender_asks : (p.modSender l f).asks = p.asks := by cases l <;> rfl
@[simp] theorem Part.modSender_dram : (p.modSender l f).dram = p.dram := by cases l <;> rfl
@[simp] theorem Part.modSender_written : (p.modSender l f).written = p.written := by cases l <;> rfl
@[simp] theorem Part.sender_modSender : (p.modSender l f).sender l = f (p.sender l) := by cases l <;> rfl
theorem Part.sender_modSender_ne (k : Line) (h : k ≠ l) : (p.modSender l f).sender k = p.sender k := by
  cases l <;> cases k <;> first | rfl | exact absurd rfl h
@[simp] theorem Part.framer_modSender (k : Line) : (p.modSender l f).framer k = p.framer k := by cases l <;> cases k <;> rfl
end modSender

section lines
variable (f : Framer → Framer) (g : Sender → Sender) (p : Part)
@[simp] theorem Part.modFramer_branch_trunkFramer : (p.modFramer .branch f).trunkFramer = p.trunkFramer := rfl
@[simp] theorem Part.modFramer_branch_labelFramer : (p.modFramer .branch f).labelFramer = p.labelFramer := rfl
@[simp] theorem Part.modFramer_branch_guestFramer : (p.modFramer .branch f).guestFramer = p.guestFramer := rfl
@[simp] theorem Part.modSender_branch_links : (p.modSender .branch g).links = p.links := rfl
@[simp] theorem Part.modFramer_trunk_branch : (p.modFramer .trunk f).branch = p.branch := rfl
@[simp] theorem Part.modFramer_trunk_labelFramer : (p.modFramer .trunk f).labelFramer = p.labelFramer := rfl
@[simp] theorem Part.modFramer_trunk_guestFramer : (p.modFramer .trunk f).guestFramer = p.guestFramer := rfl
@[simp] theorem Part.modSender_trunk_branch : (p.modSender .trunk g).branch = p.branch := rfl
@[simp] theorem Part.modFramer_label_branch : (p.modFramer .label f).branch = p.branch := rfl
@[simp] theorem Part.modFramer_label_trunkFramer : (p.modFramer .label f).trunkFramer = p.trunkFramer := rfl
@[simp] theorem Part.modFramer_label_guestFramer : (p.modFramer .label f).guestFramer = p.guestFramer := rfl
@[simp] theorem Part.modSender_label_branch : (p.modSender .label g).branch = p.branch := rfl
@[simp] theorem Part.modFramer_guest_branch : (p.modFramer .guest f).branch = p.branch := rfl
@[simp] theorem Part.modFramer_guest_trunkFramer : (p.modFramer .guest f).trunkFramer = p.trunkFramer := rfl
@[simp] theorem Part.modFramer_guest_labelFramer : (p.modFramer .guest f).labelFramer = p.labelFramer := rfl
@[simp] theorem Part.modSender_guest_branch : (p.modSender .guest g).branch = p.branch := rfl
end lines

end Sys2Proof.Machine
end

