-- ==== Sys2Proof/Laws/Arbiter.lean ====
section
/-! SUPPORT. The arbiter and the running of a command: what asking a burst, a grant and a settled port can change,
and what `State.run` answers. -/

namespace Sys2Proof.Machine

/-! ### bursts asked (R188) -/

@[simp] theorem Asks.of_set_self (a : Asks) (r : Req) (l : List Asked) : (a.set r l).of r = l := by cases r <;> rfl

theorem Asks.of_set_other (a : Asks) {q r : Req} (l : List Asked) (h : q ≠ r) : (a.set r l).of q = a.of q := by
  cases q <;> cases r <;> first | rfl | exact absurd rfl h

/-- A user is to make a burst where one of its entries lists it. -/
theorem Asks.has_iff (a : Asks) (u : BurstUser) (k : Tok) :
    a.has u k = true ↔ ∃ x ∈ a.of u.req, x.user = u ∧ k ∈ x.toks := by
  simp [Asks.has]

/-- A user without bursts joins the tail. -/
theorem joinAsked_new (u : BurstUser) (t : Tok) (l : List Asked) (h : ∀ x ∈ l, x.user ≠ u) :
    joinAsked u t l = l ++ [⟨u, some t, []⟩] := by
  induction l with
  | nil => rfl
  | cons x xs ih =>
    rw [joinAsked, if_neg (h x (by simp)), ih fun y hy => h y (by simp [hy])]; rfl

/-- A user with bursts makes a further one after them. -/
theorem joinAsked_old (u : BurstUser) (t : Tok) (pre : List Asked) (x : Asked) (post : List Asked)
    (h : ∀ y ∈ pre, y.user ≠ u) (hx : x.user = u) :
    joinAsked u t (pre ++ x :: post) = pre ++ { x with later := x.later ++ [t] } :: post := by
  induction pre with
  | nil => simp [joinAsked, hx]
  | cons y ys ih =>
    rw [List.cons_append, joinAsked, if_neg (h y (by simp)), ih fun z hz => h z (by simp [hz])]; rfl

theorem joinAsked_has (u : BurstUser) (t : Tok) (l : List Asked) : ∃ x ∈ joinAsked u t l, x.user = u ∧ t ∈ x.toks := by
  induction l with
  | nil => exact ⟨_, List.mem_singleton.mpr rfl, rfl, by simp [Asked.toks]⟩
  | cons x xs ih =>
    rw [joinAsked]
    split
    · next h => exact ⟨{ x with later := x.later ++ [t] }, List.mem_cons_self, h, by simp [Asked.toks]⟩
    · obtain ⟨y, hy, h⟩ := ih; exact ⟨y, by simp [hy], h⟩

theorem joinAsked_keeps (u v : BurstUser) (t k : Tok) (l : List Asked) (h : ∃ x ∈ l, x.user = v ∧ k ∈ x.toks) :
    ∃ x ∈ joinAsked u t l, x.user = v ∧ k ∈ x.toks := by
  induction l with
  | nil => simp at h
  | cons x xs ih =>
    rw [joinAsked]
    obtain ⟨y, hy, hv, hk⟩ := h
    split
    · rcases List.mem_cons.mp hy with rfl | hy
      · exact ⟨{ y with later := y.later ++ [t] }, by simp, hv, by
          simp only [Asked.toks, List.mem_append] at hk ⊢; exact hk.imp_right Or.inl⟩
      · exact ⟨y, by simp [hy], hv, hk⟩
    · rcases List.mem_cons.mp hy with rfl | hy
      · exact ⟨y, by simp, hv, hk⟩
      · obtain ⟨z, hz, h⟩ := ih ⟨y, hy, hv, hk⟩; exact ⟨z, by simp [hz], h⟩

/-- A burst asked is one the user is to make. -/
theorem Part.ask_has (u : BurstUser) (t : Tok) (p : Part) : (p.ask u t).asks.has u t = true := by
  rw [Asks.has_iff, Part.ask_asks, Asks.of_set_self]; exact joinAsked_has u t _

/-- Asking drops no burst asked before. -/
theorem Part.ask_keeps (u v : BurstUser) (t k : Tok) (p : Part) (h : p.asks.has v k = true) :
    (p.ask u t).asks.has v k = true := by
  rw [Asks.has_iff] at h ⊢
  rw [Part.ask_asks]
  by_cases hr : v.req = u.req
  · rw [hr] at h ⊢; rw [Asks.of_set_self]; exact joinAsked_keeps u v t k _ h
  · rw [Asks.of_set_other _ _ hr]; exact h

/-- The first burst asked leaves its entry when it is granted. -/
theorem grantFirst_eq (pre : List Asked) (x : Asked) (post : List Asked) (t : Tok) (h : ∀ y ∈ pre, y.now = none)
    (hx : x.now = some t) : grantFirst (pre ++ x :: post) = pre ++ { x with now := none } :: post := by
  induction pre with
  | nil => simp [grantFirst, hx]
  | cons y ys ih =>
    simp only [List.cons_append, grantFirst, h y (by simp), Option.isSome_none, Bool.false_eq_true, if_false]
    rw [ih fun z hz => h z (by simp [hz])]

/-- A requester presents the burst asked first. -/
theorem Asks.presented_eq (a : Asks) (r : Req) (pre : List Asked) (x : Asked) (post : List Asked) (t : Tok)
    (hl : a.of r = pre ++ x :: post) (h : ∀ y ∈ pre, y.now = none) (hx : x.now = some t) :
    a.presented r = some (x.user, t) := by
  rw [Asks.presented, hl]
  clear hl
  induction pre with
  | nil => simp [hx]
  | cons y ys ih =>
    rw [List.cons_append, List.findSome?_cons, h y (by simp)]
    exact ih fun z hz => h z (by simp [hz])

/-- What a requester presents stands in one of its entries, behind entries that ask nothing now. -/
theorem Asks.presented_split (a : Asks) (r : Req) (u : BurstUser) (t : Tok) (h : a.presented r = some (u, t)) :
    ∃ pre x post, a.of r = pre ++ x :: post ∧ (∀ y ∈ pre, y.now = none) ∧ x.now = some t ∧ x.user = u := by
  rw [Asks.presented] at h
  generalize a.of r = l at h ⊢
  induction l with
  | nil => simp at h
  | cons y ys ih =>
    cases hy : y.now with
    | some k =>
      rw [List.findSome?_cons, hy] at h
      simp only [Option.map_some, Option.some.injEq, Prod.mk.injEq] at h
      exact ⟨[], y, ys, rfl, by simp, by rw [hy, h.2], h.1⟩
    | none =>
      rw [List.findSome?_cons, hy] at h
      obtain ⟨pre, x, post, hl, hp, hx⟩ := ih h
      exact ⟨y :: pre, x, post, by rw [hl]; rfl, by simpa [hy] using hp, hx⟩

/-- A requester presents nothing where none of its users asks a burst now. -/
theorem Asks.presented_none (a : Asks) (r : Req) : a.presented r = none ↔ ∀ x ∈ a.of r, x.now = none := by
  simp [Asks.presented]

/-- A user's finished burst: what it asks next stands at the tail. -/
theorem Part.released_of (u : BurstUser) (more later : List Tok) (pre post : List Asked) (p : Part)
    (hl : p.asks.of u.req = pre ++ ⟨u, none, later⟩ :: post) (h : ∀ y ∈ pre ++ post, y.user ≠ u) :
    (p.released u more).asks.of u.req = pre ++ post ++ askedBy u (more ++ later) := by
  have h1 : ∀ l : List Asked, (∀ y ∈ l, y.user ≠ u) → l.filter (fun x => decide (x.user = u)) = [] := fun l hl =>
    List.filter_eq_nil_iff.mpr fun y hy => by simpa using hl y hy
  have h2 : ∀ l : List Asked, (∀ y ∈ l, y.user ≠ u) → l.filter (fun x => decide (x.user ≠ u)) = l := fun l hl =>
    List.filter_eq_self.mpr fun y hy => by simpa using hl y hy
  have hp := fun y hy => h y (List.mem_append_left post hy)
  have hq := fun y hy => h y (List.mem_append_right pre hy)
  simp only [Part.released, Part.modAsks, Asks.of_set_self, hl, List.filter_append, List.filter_cons, h1 pre hp, h1 post hq,
    h2 pre hp, h2 post hq]
  simp [Asked.toks]

/-! ### a grant -/

theorem State.grant_pending (c : Choice) (s : State) : (s.grant c).pending = s.pending := by
  unfold State.grant; cases c <;> dsimp only; split <;> rfl

theorem State.grant_supply (c : Choice) (s : State) : (s.grant c).supply = s.supply := by
  unfold State.grant; cases c <;> dsimp only; split <;> rfl

theorem State.grant_cfg (c : Choice) (s : State) : (s.grant c).part.cfg = s.part.cfg := by
  unfold State.grant; cases c <;> dsimp only <;> first | rfl | (split <;> rfl)

theorem State.grant_branch (c : Choice) (s : State) : (s.grant c).part.branch = s.part.branch := by
  unfold State.grant; cases c <;> dsimp only <;> first | rfl | (split <;> rfl)

theorem State.grant_trunkFramer (c : Choice) (s : State) : (s.grant c).part.trunkFramer = s.part.trunkFramer := by
  unfold State.grant; cases c <;> dsimp only <;> first | rfl | (split <;> rfl)

theorem State.grant_labelFramer (c : Choice) (s : State) : (s.grant c).part.labelFramer = s.part.labelFramer := by
  unfold State.grant; cases c <;> dsimp only <;> first | rfl | (split <;> rfl)

theorem State.grant_guestFramer (c : Choice) (s : State) : (s.grant c).part.guestFramer = s.part.guestFramer := by
  unfold State.grant; cases c <;> dsimp only <;> first | rfl | (split <;> rfl)

theorem State.grant_fwd (c : Choice) (s : State) : (s.grant c).part.fwd = s.part.fwd := by
  unfold State.grant; cases c <;> dsimp only <;> first | rfl | (split <;> rfl)

theorem State.grant_call (c : Choice) (s : State) : (s.grant c).part.call = s.part.call := by
  unfold State.grant; cases c <;> dsimp only <;> first | rfl | (split <;> rfl)

theorem State.grant_pres (c : Choice) (s : State) : (s.grant c).part.pres = s.part.pres := by
  unfold State.grant; cases c <;> dsimp only <;> first | rfl | (split <;> rfl)

theorem State.grant_price (c : Choice) (s : State) : (s.grant c).part.price = s.part.price := by
  unfold State.grant; cases c <;> dsimp only <;> first | rfl | (split <;> rfl)

theorem State.grant_till (c : Choice) (s : State) : (s.grant c).part.till = s.part.till := by
  unfold State.grant; cases c <;> dsimp only <;> first | rfl | (split <;> rfl)

theorem State.grant_jrn (c : Choice) (s : State) : (s.grant c).part.jrn = s.part.jrn := by
  unfold State.grant; cases c <;> dsimp only <;> first | rfl | (split <;> rfl)

theorem State.grant_lab (c : Choice) (s : State) : (s.grant c).part.lab = s.part.lab := by
  unfold State.grant; cases c <;> dsimp only <;> first | rfl | (split <;> rfl)

theorem State.grant_gst (c : Choice) (s : State) : (s.grant c).part.gst = s.part.gst := by
  unfold State.grant; cases c <;> dsimp only <;> first | rfl | (split <;> rfl)

theorem State.grant_trk (c : Choice) (s : State) : (s.grant c).part.trk = s.part.trk := by
  unfold State.grant; cases c <;> dsimp only <;> first | rfl | (split <;> rfl)

theorem State.grant_hdr (c : Choice) (s : State) : (s.grant c).part.hdr = s.part.hdr := by
  unfold State.grant; cases c <;> dsimp only <;> first | rfl | (split <;> rfl)

theorem State.grant_dram (c : Choice) (s : State) : (s.grant c).part.dram = s.part.dram := by
  unfold State.grant; cases c <;> dsimp only <;> first | rfl | (split <;> rfl)

theorem State.grant_links (c : Choice) (s : State) : (s.grant c).part.links = s.part.links := by
  unfold State.grant; cases c <;> dsimp only <;> first | rfl | (split <;> rfl)

theorem State.grant_written (c : Choice) (s : State) : (s.grant c).part.written = s.part.written := by
  unfold State.grant; cases c <;> dsimp only <;> first | rfl | (split <;> rfl)

theorem State.grant_headerWrites (c : Choice) (s : State) : (s.grant c).part.memCtr.headerWrites = s.part.memCtr.headerWrites := by
  unfold State.grant; cases c <;> dsimp only <;> first | rfl | (split <;> rfl)

theorem State.grant_labelsLost (c : Choice) (s : State) : (s.grant c).part.memCtr.labelsLost = s.part.memCtr.labelsLost := by
  unfold State.grant; cases c <;> dsimp only <;> first | rfl | (split <;> rfl)

/-! ### a settled port -/

/-- Settling the port grants a choice or does nothing. -/
theorem State.settle_cases (s : State) : s.settle = s ∨ ∃ c, s.settle = s.grant c := by
  unfold State.settle
  split
  · split
    · exact Or.inr ⟨_, rfl⟩
    · exact Or.inl rfl
  · exact Or.inl rfl

@[simp] theorem State.settle_pending (s : State) : s.settle.pending = s.pending := by
  rcases s.settle_cases with h | ⟨c, h⟩ <;> rw [h]; exact State.grant_pending c s

@[simp] theorem State.settle_supply (s : State) : s.settle.supply = s.supply := by
  rcases s.settle_cases with h | ⟨c, h⟩ <;> rw [h]; exact State.grant_supply c s

@[simp] theorem State.settle_cfg (s : State) : s.settle.part.cfg = s.part.cfg := by
  rcases s.settle_cases with h | ⟨c, h⟩ <;> rw [h]; exact State.grant_cfg c s

@[simp] theorem State.settle_branch (s : State) : s.settle.part.branch = s.part.branch := by
  rcases s.settle_cases with h | ⟨c, h⟩ <;> rw [h]; exact State.grant_branch c s

@[simp] theorem State.settle_trunkFramer (s : State) : s.settle.part.trunkFramer = s.part.trunkFramer := by
  rcases s.settle_cases with h | ⟨c, h⟩ <;> rw [h]; exact State.grant_trunkFramer c s

@[simp] theorem State.settle_labelFramer (s : State) : s.settle.part.labelFramer = s.part.labelFramer := by
  rcases s.settle_cases with h | ⟨c, h⟩ <;> rw [h]; exact State.grant_labelFramer c s

@[simp] theorem State.settle_guestFramer (s : State) : s.settle.part.guestFramer = s.part.guestFramer := by
  rcases s.settle_cases with h | ⟨c, h⟩ <;> rw [h]; exact State.grant_guestFramer c s

@[simp] theorem State.settle_fwd (s : State) : s.settle.part.fwd = s.part.fwd := by
  rcases s.settle_cases with h | ⟨c, h⟩ <;> rw [h]; exact State.grant_fwd c s

@[simp] theorem State.settle_call (s : State) : s.settle.part.call = s.part.call := by
  rcases s.settle_cases with h | ⟨c, h⟩ <;> rw [h]; exact State.grant_call c s

@[simp] theorem State.settle_pres (s : State) : s.settle.part.pres = s.part.pres := by
  rcases s.settle_cases with h | ⟨c, h⟩ <;> rw [h]; exact State.grant_pres c s

@[simp] theorem State.settle_price (s : State) : s.settle.part.price = s.part.price := by
  rcases s.settle_cases with h | ⟨c, h⟩ <;> rw [h]; exact State.grant_price c s

@[simp] theorem State.settle_till (s : State) : s.settle.part.till = s.part.till := by
  rcases s.settle_cases with h | ⟨c, h⟩ <;> rw [h]; exact State.grant_till c s

@[simp] theorem State.settle_jrn (s : State) : s.settle.part.jrn = s.part.jrn := by
  rcases s.settle_cases with h | ⟨c, h⟩ <;> rw [h]; exact State.grant_jrn c s

@[simp] theorem State.settle_lab (s : State) : s.settle.part.lab = s.part.lab := by
  rcases s.settle_cases with h | ⟨c, h⟩ <;> rw [h]; exact State.grant_lab c s

@[simp] theorem State.settle_gst (s : State) : s.settle.part.gst = s.part.gst := by
  rcases s.settle_cases with h | ⟨c, h⟩ <;> rw [h]; exact State.grant_gst c s

@[simp] theorem State.settle_trk (s : State) : s.settle.part.trk = s.part.trk := by
  rcases s.settle_cases with h | ⟨c, h⟩ <;> rw [h]; exact State.grant_trk c s

@[simp] theorem State.settle_hdr (s : State) : s.settle.part.hdr = s.part.hdr := by
  rcases s.settle_cases with h | ⟨c, h⟩ <;> rw [h]; exact State.grant_hdr c s

@[simp] theorem State.settle_dram (s : State) : s.settle.part.dram = s.part.dram := by
  rcases s.settle_cases with h | ⟨c, h⟩ <;> rw [h]; exact State.grant_dram c s

@[simp] theorem State.settle_links (s : State) : s.settle.part.links = s.part.links := by
  rcases s.settle_cases with h | ⟨c, h⟩ <;> rw [h]; exact State.grant_links c s

@[simp] theorem State.settle_written (s : State) : s.settle.part.written = s.part.written := by
  rcases s.settle_cases with h | ⟨c, h⟩ <;> rw [h]; exact State.grant_written c s

@[simp] theorem State.settle_headerWrites (s : State) : s.settle.part.memCtr.headerWrites = s.part.memCtr.headerWrites := by
  rcases s.settle_cases with h | ⟨c, h⟩ <;> rw [h]; exact State.grant_headerWrites c s

@[simp] theorem State.settle_labelsLost (s : State) : s.settle.part.memCtr.labelsLost = s.part.memCtr.labelsLost := by
  rcases s.settle_cases with h | ⟨c, h⟩ <;> rw [h]; exact State.grant_labelsLost c s

/-- A grant to a requester gives the port to what it presents. -/
theorem State.grant_requester (s : State) (r : Req) (u : BurstUser) (t : Tok) (h : s.part.asks.presented r = some (u, t)) :
    (s.grant (.requester r)).arb.port = some (.burst u t) ∧
      (s.grant (.requester r)).part.asks = s.part.asks.set r (grantFirst (s.part.asks.of r)) := by
  unfold State.grant; dsimp only; rw [h]; exact ⟨rfl, rfl⟩

/-- A grant drops no burst: a user still is to make it, or has the port with it. -/
theorem State.grant_awaits (s : State) (c : Choice) (u : BurstUser) (k : Tok) (h : s.part.asks.has u k = true) :
    (s.grant c).awaits u k := by
  cases c with
  | urgent => exact Or.inl h
  | refresh => exact Or.inl h
  | requester r =>
    cases hp : s.part.asks.presented r with
    | none => unfold State.grant; dsimp only; rw [hp]; exact Or.inl h
    | some w =>
      obtain ⟨v, t⟩ := w
      obtain ⟨hport, hasks⟩ := s.grant_requester r v t hp
      unfold State.awaits
      rw [hport, hasks]
      rw [Asks.has_iff] at h
      by_cases hr : u.req = r
      · subst hr
        obtain ⟨pre, x, post, hl, hpre, hx, hxu⟩ := s.part.asks.presented_split _ v t hp
        obtain ⟨y, hy, hyu, hk⟩ := h
        rw [Asks.has_iff, Asks.of_set_self, hl, grantFirst_eq pre x post t hpre hx]
        rw [hl, List.mem_append, List.mem_cons] at hy
        rcases hy with hy | rfl | hy
        · exact Or.inl ⟨y, by simp [hy], hyu, hk⟩
        · simp only [Asked.toks, hx, Option.toList_some, List.singleton_append, List.mem_cons] at hk
          rcases hk with rfl | hk
          · exact Or.inr (by rw [← hyu, ← hxu])
          · exact Or.inl ⟨{ y with now := none }, by simp, hyu, by simpa [Asked.toks] using hk⟩
        · exact Or.inl ⟨y, by simp [hy], hyu, hk⟩
      · refine Or.inl ?_
        rw [Asks.has_iff, Asks.of_set_other _ _ hr]; exact h

/-- A burst asked in a command is still awaited once the port is settled. -/
theorem State.settle_awaits (s : State) (u : BurstUser) (k : Tok) (h : s.part.asks.has u k = true) : s.settle.awaits u k := by
  unfold State.settle
  split
  · split
    · exact s.grant_awaits _ u k h
    · exact Or.inl h
  · exact Or.inl h

/-! ### running a command -/

/-- A command that acts on the blocks, where the part takes events: the port is settled after it. -/
theorem State.run_takes (f : Part → Part) (s : State) (h : s.supply.takesEvents = true) :
    s.run f = .next { s with part := f s.part }.settle := if_pos h

/-- Where the part takes no events nothing changes. -/
theorem State.run_ignored (f : Part → Part) (s : State) (h : s.supply.takesEvents = false) : s.run f = .next s :=
  if_neg (by simp [h])

/-- A command that acts on the blocks never stops. -/
theorem State.run_total (f : Part → Part) (s : State) : ∃ t, s.run f = .next t := by
  unfold State.run; split <;> exact ⟨_, rfl⟩

/-- What a command leaves as it was, piece by piece: it is enough to look at the part it makes. -/
theorem State.unchanged_of_part (but : List Piece) (q : Part) (s : State)
    (h : ∀ b, b ∉ but → b.same s { s with part := q }) : Unchanged but s { s with part := q }.settle := by
  intro b hb
  have := h b hb
  cases b <;> simpa [Piece.same] using this

end Sys2Proof.Machine
end

