-- ==== Sys2Proof/Laws/OpsFrames.lean ====
section
/-! SUPPORT. What each operation of the shared operations leaves as it was: one lemma for each, a rewrite rule for every block of the part that
it does not touch. -/

set_option linter.all false

/- Every lemma here is a case split over a long record; the default limit is for short proofs. -/
set_option maxHeartbeats 4000000

open Sys2Proof Sys2Proof.Machine

namespace Sys2Proof.Machine

/-- A fold keeps what each of its steps keeps. -/
theorem foldl_keep {α β γ : Type} (g : α → γ) (f : α → β → α) (h : ∀ a x, g (f a x) = g a) (l : List β) (a : α) :
    g (l.foldl f a) = g a := by
  induction l generalizing a with
  | nil => rfl
  | cons x l ih => exact (ih _).trans (h _ _)

@[simp] theorem foldl_cfg {β : Type} (f : Part → β → Part) (h : ∀ q x, (f q x).cfg = q.cfg) (l : List β) (p : Part) :
    (l.foldl f p).cfg = p.cfg := foldl_keep Part.cfg f h l p
@[simp] theorem foldl_branch {β : Type} (f : Part → β → Part) (h : ∀ q x, (f q x).branch = q.branch) (l : List β) (p : Part) :
    (l.foldl f p).branch = p.branch := foldl_keep Part.branch f h l p
@[simp] theorem foldl_trunkFramer {β : Type} (f : Part → β → Part) (h : ∀ q x, (f q x).trunkFramer = q.trunkFramer) (l : List β) (p : Part) :
    (l.foldl f p).trunkFramer = p.trunkFramer := foldl_keep Part.trunkFramer f h l p
@[simp] theorem foldl_labelFramer {β : Type} (f : Part → β → Part) (h : ∀ q x, (f q x).labelFramer = q.labelFramer) (l : List β) (p : Part) :
    (l.foldl f p).labelFramer = p.labelFramer := foldl_keep Part.labelFramer f h l p
@[simp] theorem foldl_guestFramer {β : Type} (f : Part → β → Part) (h : ∀ q x, (f q x).guestFramer = q.guestFramer) (l : List β) (p : Part) :
    (l.foldl f p).guestFramer = p.guestFramer := foldl_keep Part.guestFramer f h l p
@[simp] theorem foldl_links {β : Type} (f : Part → β → Part) (h : ∀ q x, (f q x).links = q.links) (l : List β) (p : Part) :
    (l.foldl f p).links = p.links := foldl_keep Part.links f h l p
@[simp] theorem foldl_fwd {β : Type} (f : Part → β → Part) (h : ∀ q x, (f q x).fwd = q.fwd) (l : List β) (p : Part) :
    (l.foldl f p).fwd = p.fwd := foldl_keep Part.fwd f h l p
@[simp] theorem foldl_call {β : Type} (f : Part → β → Part) (h : ∀ q x, (f q x).call = q.call) (l : List β) (p : Part) :
    (l.foldl f p).call = p.call := foldl_keep Part.call f h l p
@[simp] theorem foldl_pres {β : Type} (f : Part → β → Part) (h : ∀ q x, (f q x).pres = q.pres) (l : List β) (p : Part) :
    (l.foldl f p).pres = p.pres := foldl_keep Part.pres f h l p
@[simp] theorem foldl_price {β : Type} (f : Part → β → Part) (h : ∀ q x, (f q x).price = q.price) (l : List β) (p : Part) :
    (l.foldl f p).price = p.price := foldl_keep Part.price f h l p
@[simp] theorem foldl_till {β : Type} (f : Part → β → Part) (h : ∀ q x, (f q x).till = q.till) (l : List β) (p : Part) :
    (l.foldl f p).till = p.till := foldl_keep Part.till f h l p
@[simp] theorem foldl_jrn {β : Type} (f : Part → β → Part) (h : ∀ q x, (f q x).jrn = q.jrn) (l : List β) (p : Part) :
    (l.foldl f p).jrn = p.jrn := foldl_keep Part.jrn f h l p
@[simp] theorem foldl_lab {β : Type} (f : Part → β → Part) (h : ∀ q x, (f q x).lab = q.lab) (l : List β) (p : Part) :
    (l.foldl f p).lab = p.lab := foldl_keep Part.lab f h l p
@[simp] theorem foldl_gst {β : Type} (f : Part → β → Part) (h : ∀ q x, (f q x).gst = q.gst) (l : List β) (p : Part) :
    (l.foldl f p).gst = p.gst := foldl_keep Part.gst f h l p
@[simp] theorem foldl_trk {β : Type} (f : Part → β → Part) (h : ∀ q x, (f q x).trk = q.trk) (l : List β) (p : Part) :
    (l.foldl f p).trk = p.trk := foldl_keep Part.trk f h l p
@[simp] theorem foldl_hdr {β : Type} (f : Part → β → Part) (h : ∀ q x, (f q x).hdr = q.hdr) (l : List β) (p : Part) :
    (l.foldl f p).hdr = p.hdr := foldl_keep Part.hdr f h l p
@[simp] theorem foldl_memCtr {β : Type} (f : Part → β → Part) (h : ∀ q x, (f q x).memCtr = q.memCtr) (l : List β) (p : Part) :
    (l.foldl f p).memCtr = p.memCtr := foldl_keep Part.memCtr f h l p
@[simp] theorem foldl_asks {β : Type} (f : Part → β → Part) (h : ∀ q x, (f q x).asks = q.asks) (l : List β) (p : Part) :
    (l.foldl f p).asks = p.asks := foldl_keep Part.asks f h l p
@[simp] theorem foldl_dram {β : Type} (f : Part → β → Part) (h : ∀ q x, (f q x).dram = q.dram) (l : List β) (p : Part) :
    (l.foldl f p).dram = p.dram := foldl_keep Part.dram f h l p
@[simp] theorem foldl_written {β : Type} (f : Part → β → Part) (h : ∀ q x, (f q x).written = q.written) (l : List β) (p : Part) :
    (l.foldl f p).written = p.written := foldl_keep Part.written f h l p

@[simp] theorem Part.countLine_frame (l : Line) (f : LineCounters → LineCounters) (p : Part) : (p.countLine l f).cfg = p.cfg ∧ (p.countLine l f).links = p.links ∧ (p.countLine l f).fwd = p.fwd ∧ (p.countLine l f).call = p.call ∧ (p.countLine l f).pres = p.pres ∧ (p.countLine l f).price = p.price ∧ (p.countLine l f).till = p.till ∧ (p.countLine l f).jrn = p.jrn ∧ (p.countLine l f).lab = p.lab ∧ (p.countLine l f).gst = p.gst ∧ (p.countLine l f).trk = p.trk ∧ (p.countLine l f).hdr = p.hdr ∧ (p.countLine l f).memCtr = p.memCtr ∧ (p.countLine l f).asks = p.asks ∧ (p.countLine l f).dram = p.dram ∧ (p.countLine l f).written = p.written := by
  simp [Part.countLine]
@[simp] theorem Part.countLine_branch_trunkFramer (f : LineCounters → LineCounters) (p : Part) :
    (p.countLine .branch f).trunkFramer = p.trunkFramer := rfl
@[simp] theorem Part.countLine_branch_labelFramer (f : LineCounters → LineCounters) (p : Part) :
    (p.countLine .branch f).labelFramer = p.labelFramer := rfl
@[simp] theorem Part.countLine_branch_guestFramer (f : LineCounters → LineCounters) (p : Part) :
    (p.countLine .branch f).guestFramer = p.guestFramer := rfl
@[simp] theorem Part.countLine_trunk_branch (f : LineCounters → LineCounters) (p : Part) :
    (p.countLine .trunk f).branch = p.branch := rfl
@[simp] theorem Part.countLine_trunk_labelFramer (f : LineCounters → LineCounters) (p : Part) :
    (p.countLine .trunk f).labelFramer = p.labelFramer := rfl
@[simp] theorem Part.countLine_trunk_guestFramer (f : LineCounters → LineCounters) (p : Part) :
    (p.countLine .trunk f).guestFramer = p.guestFramer := rfl
@[simp] theorem Part.countLine_label_branch (f : LineCounters → LineCounters) (p : Part) :
    (p.countLine .label f).branch = p.branch := rfl
@[simp] theorem Part.countLine_label_trunkFramer (f : LineCounters → LineCounters) (p : Part) :
    (p.countLine .label f).trunkFramer = p.trunkFramer := rfl
@[simp] theorem Part.countLine_label_guestFramer (f : LineCounters → LineCounters) (p : Part) :
    (p.countLine .label f).guestFramer = p.guestFramer := rfl
@[simp] theorem Part.countLine_guest_branch (f : LineCounters → LineCounters) (p : Part) :
    (p.countLine .guest f).branch = p.branch := rfl
@[simp] theorem Part.countLine_guest_trunkFramer (f : LineCounters → LineCounters) (p : Part) :
    (p.countLine .guest f).trunkFramer = p.trunkFramer := rfl
@[simp] theorem Part.countLine_guest_labelFramer (f : LineCounters → LineCounters) (p : Part) :
    (p.countLine .guest f).labelFramer = p.labelFramer := rfl

@[simp] theorem Part.unask_frame (u : BurstUser) (t : Tok) (p : Part) : (Part.unask u t p).cfg = p.cfg ∧ (Part.unask u t
p).branch = p.branch ∧ (Part.unask u t p).trunkFramer = p.trunkFramer ∧ (Part.unask u t p).labelFramer = p.labelFramer ∧
(Part.unask u t p).guestFramer = p.guestFramer ∧ (Part.unask u t p).links = p.links ∧ (Part.unask u t p).fwd = p.fwd ∧
(Part.unask u t p).call = p.call ∧ (Part.unask u t p).pres = p.pres ∧ (Part.unask u t p).price = p.price ∧ (Part.unask u
t p).till = p.till ∧ (Part.unask u t p).jrn = p.jrn ∧ (Part.unask u t p).lab = p.lab ∧ (Part.unask u t p).gst = p.gst ∧
(Part.unask u t p).trk = p.trk ∧ (Part.unask u t p).hdr = p.hdr ∧ (Part.unask u t p).memCtr = p.memCtr ∧ (Part.unask u t
p).dram = p.dram ∧ (Part.unask u t p).written = p.written := by
  unfold Part.unask; and_intros <;> (repeat' split) <;> simp

@[simp] theorem Part.takeBuffer_frame (u : User) (p : Part) : (Part.takeBuffer u p).2.cfg = p.cfg ∧ (Part.takeBuffer u
p).2.branch = p.branch ∧ (Part.takeBuffer u p).2.trunkFramer = p.trunkFramer ∧ (Part.takeBuffer u p).2.labelFramer =
p.labelFramer ∧ (Part.takeBuffer u p).2.guestFramer = p.guestFramer ∧ (Part.takeBuffer u p).2.links = p.links ∧
(Part.takeBuffer u p).2.call = p.call ∧ (Part.takeBuffer u p).2.pres = p.pres ∧ (Part.takeBuffer u p).2.price = p.price
∧ (Part.takeBuffer u p).2.till = p.till ∧ (Part.takeBuffer u p).2.jrn = p.jrn ∧ (Part.takeBuffer u p).2.lab = p.lab ∧
(Part.takeBuffer u p).2.gst = p.gst ∧ (Part.takeBuffer u p).2.trk = p.trk ∧ (Part.takeBuffer u p).2.hdr = p.hdr ∧
(Part.takeBuffer u p).2.memCtr = p.memCtr ∧ (Part.takeBuffer u p).2.asks = p.asks ∧ (Part.takeBuffer u p).2.dram =
p.dram ∧ (Part.takeBuffer u p).2.written = p.written := by
  unfold Part.takeBuffer; simp

@[simp] theorem Part.giveBackAll_frame (bs : List Buf) (p : Part) : (Part.giveBackAll bs p).cfg = p.cfg ∧
(Part.giveBackAll bs p).branch = p.branch ∧ (Part.giveBackAll bs p).trunkFramer = p.trunkFramer ∧ (Part.giveBackAll bs
p).labelFramer = p.labelFramer ∧ (Part.giveBackAll bs p).guestFramer = p.guestFramer ∧ (Part.giveBackAll bs p).links =
p.links ∧ (Part.giveBackAll bs p).call = p.call ∧ (Part.giveBackAll bs p).pres = p.pres ∧ (Part.giveBackAll bs p).price
= p.price ∧ (Part.giveBackAll bs p).till = p.till ∧ (Part.giveBackAll bs p).jrn = p.jrn ∧ (Part.giveBackAll bs p).lab =
p.lab ∧ (Part.giveBackAll bs p).gst = p.gst ∧ (Part.giveBackAll bs p).trk = p.trk ∧ (Part.giveBackAll bs p).hdr = p.hdr
∧ (Part.giveBackAll bs p).memCtr = p.memCtr ∧ (Part.giveBackAll bs p).asks = p.asks ∧ (Part.giveBackAll bs p).dram =
p.dram ∧ (Part.giveBackAll bs p).written = p.written := by
  unfold Part.giveBackAll
  exact ⟨Eq.trans (foldl_keep Part.cfg _ (fun q x => by (try dsimp only); (repeat' split) <;> (try simp_all)) _ _) (by simp),
    Eq.trans (foldl_keep Part.branch _ (fun q x => by (try dsimp only); (repeat' split) <;> (try simp_all)) _ _) (by simp),
    Eq.trans (foldl_keep Part.trunkFramer _ (fun q x => by (try dsimp only); (repeat' split) <;> (try simp_all)) _ _) (by simp),
    Eq.trans (foldl_keep Part.labelFramer _ (fun q x => by (try dsimp only); (repeat' split) <;> (try simp_all)) _ _) (by simp),
    Eq.trans (foldl_keep Part.guestFramer _ (fun q x => by (try dsimp only); (repeat' split) <;> (try simp_all)) _ _) (by simp),
    Eq.trans (foldl_keep Part.links _ (fun q x => by (try dsimp only); (repeat' split) <;> (try simp_all)) _ _) (by simp),
    Eq.trans (foldl_keep Part.call _ (fun q x => by (try dsimp only); (repeat' split) <;> (try simp_all)) _ _) (by simp),
    Eq.trans (foldl_keep Part.pres _ (fun q x => by (try dsimp only); (repeat' split) <;> (try simp_all)) _ _) (by simp),
    Eq.trans (foldl_keep Part.price _ (fun q x => by (try dsimp only); (repeat' split) <;> (try simp_all)) _ _) (by simp),
    Eq.trans (foldl_keep Part.till _ (fun q x => by (try dsimp only); (repeat' split) <;> (try simp_all)) _ _) (by simp),
    Eq.trans (foldl_keep Part.jrn _ (fun q x => by (try dsimp only); (repeat' split) <;> (try simp_all)) _ _) (by simp),
    Eq.trans (foldl_keep Part.lab _ (fun q x => by (try dsimp only); (repeat' split) <;> (try simp_all)) _ _) (by simp),
    Eq.trans (foldl_keep Part.gst _ (fun q x => by (try dsimp only); (repeat' split) <;> (try simp_all)) _ _) (by simp),
    Eq.trans (foldl_keep Part.trk _ (fun q x => by (try dsimp only); (repeat' split) <;> (try simp_all)) _ _) (by simp),
    Eq.trans (foldl_keep Part.hdr _ (fun q x => by (try dsimp only); (repeat' split) <;> (try simp_all)) _ _) (by simp),
    Eq.trans (foldl_keep Part.memCtr _ (fun q x => by (try dsimp only); (repeat' split) <;> (try simp_all)) _ _) (by simp),
    Eq.trans (foldl_keep Part.asks _ (fun q x => by (try dsimp only); (repeat' split) <;> (try simp_all)) _ _) (by simp),
    Eq.trans (foldl_keep Part.dram _ (fun q x => by (try dsimp only); (repeat' split) <;> (try simp_all)) _ _) (by simp),
    Eq.trans (foldl_keep Part.written _ (fun q x => by (try dsimp only); (repeat' split) <;> (try simp_all)) _ _) (by simp)⟩

@[simp] theorem Part.fill_frame (w : BurstUser) (b : Buf) (bs : Bytes) (p : Part) : (Part.fill w b bs p).2.cfg = p.cfg ∧
(Part.fill w b bs p).2.branch = p.branch ∧ (Part.fill w b bs p).2.trunkFramer = p.trunkFramer ∧ (Part.fill w b bs
p).2.labelFramer = p.labelFramer ∧ (Part.fill w b bs p).2.guestFramer = p.guestFramer ∧ (Part.fill w b bs p).2.links =
p.links ∧ (Part.fill w b bs p).2.fwd = p.fwd ∧ (Part.fill w b bs p).2.call = p.call ∧ (Part.fill w b bs p).2.pres =
p.pres ∧ (Part.fill w b bs p).2.price = p.price ∧ (Part.fill w b bs p).2.till = p.till ∧ (Part.fill w b bs p).2.jrn =
p.jrn ∧ (Part.fill w b bs p).2.lab = p.lab ∧ (Part.fill w b bs p).2.gst = p.gst ∧ (Part.fill w b bs p).2.trk = p.trk ∧
(Part.fill w b bs p).2.hdr = p.hdr ∧ (Part.fill w b bs p).2.memCtr = p.memCtr ∧ (Part.fill w b bs p).2.written =
p.written := by
  unfold Part.fill; and_intros <;> (repeat' split) <;> simp

@[simp] theorem Part.build_frame (w : BurstUser) (u : User) (bs : Bytes) (p : Part) : (Part.build w u bs p).2.cfg =
p.cfg ∧ (Part.build w u bs p).2.branch = p.branch ∧ (Part.build w u bs p).2.trunkFramer = p.trunkFramer ∧ (Part.build w
u bs p).2.labelFramer = p.labelFramer ∧ (Part.build w u bs p).2.guestFramer = p.guestFramer ∧ (Part.build w u bs
p).2.links = p.links ∧ (Part.build w u bs p).2.call = p.call ∧ (Part.build w u bs p).2.pres = p.pres ∧ (Part.build w u
bs p).2.price = p.price ∧ (Part.build w u bs p).2.till = p.till ∧ (Part.build w u bs p).2.jrn = p.jrn ∧ (Part.build w u
bs p).2.lab = p.lab ∧ (Part.build w u bs p).2.gst = p.gst ∧ (Part.build w u bs p).2.trk = p.trk ∧ (Part.build w u bs
p).2.hdr = p.hdr ∧ (Part.build w u bs p).2.memCtr = p.memCtr ∧ (Part.build w u bs p).2.written = p.written := by
  unfold Part.build; refine ⟨?_,?_,?_,?_,?_,?_,?_,?_,?_,?_,?_,?_,?_,?_,?_,?_,?_⟩ <;> ((try dsimp only); (repeat' split) <;> (try simp_all [Prod.ext_iff]) <;> (try (obtain ⟨_, rfl⟩ := ‹_ ∧ _ = (_ : Part)›)) <;> (try simp_all [Prod.ext_iff]) <;> (repeat' split) <;> (try (obtain ⟨_, rfl⟩ := ‹_ ∧ _ = (_ : Part)›)) <;> (try simp_all [Prod.ext_iff]) <;> (repeat' split) <;> (try simp_all))

@[simp] theorem Part.dispatchUpTo_frame (x1 : Nat) (x2 : Part) : (Part.dispatchUpTo x1 x2).cfg = x2.cfg ∧
(Part.dispatchUpTo x1 x2).branch = x2.branch ∧ (Part.dispatchUpTo x1 x2).trunkFramer = x2.trunkFramer ∧
(Part.dispatchUpTo x1 x2).labelFramer = x2.labelFramer ∧ (Part.dispatchUpTo x1 x2).guestFramer = x2.guestFramer ∧
(Part.dispatchUpTo x1 x2).links = x2.links ∧ (Part.dispatchUpTo x1 x2).call = x2.call ∧ (Part.dispatchUpTo x1 x2).pres =
x2.pres ∧ (Part.dispatchUpTo x1 x2).till = x2.till ∧ (Part.dispatchUpTo x1 x2).jrn = x2.jrn ∧ (Part.dispatchUpTo x1
x2).lab = x2.lab ∧ (Part.dispatchUpTo x1 x2).gst = x2.gst ∧ (Part.dispatchUpTo x1 x2).trk = x2.trk ∧ (Part.dispatchUpTo
x1 x2).hdr = x2.hdr ∧ (Part.dispatchUpTo x1 x2).memCtr = x2.memCtr ∧ (Part.dispatchUpTo x1 x2).asks = x2.asks ∧
(Part.dispatchUpTo x1 x2).dram = x2.dram ∧ (Part.dispatchUpTo x1 x2).written = x2.written := by
  induction x1 generalizing x2 with
  | zero => simp [Part.dispatchUpTo]
  | succ n ih => unfold Part.dispatchUpTo; refine ⟨?_,?_,?_,?_,?_,?_,?_,?_,?_,?_,?_,?_,?_,?_,?_,?_,?_,?_⟩ <;> ((try dsimp only); (repeat' split) <;> (try simp_all [Prod.ext_iff]) <;> (try (obtain ⟨_, rfl⟩ := ‹_ ∧ _ = (_ : Part)›)) <;> (try simp_all [Prod.ext_iff]) <;> (repeat' split) <;> (try (obtain ⟨_, rfl⟩ := ‹_ ∧ _ = (_ : Part)›)) <;> (try simp_all [Prod.ext_iff]) <;> (repeat' split) <;> (try simp_all))

@[simp] theorem Part.dispatch_frame (p : Part) : (Part.dispatch p).cfg = p.cfg ∧ (Part.dispatch p).branch = p.branch ∧
(Part.dispatch p).trunkFramer = p.trunkFramer ∧ (Part.dispatch p).labelFramer = p.labelFramer ∧ (Part.dispatch
p).guestFramer = p.guestFramer ∧ (Part.dispatch p).links = p.links ∧ (Part.dispatch p).call = p.call ∧ (Part.dispatch
p).pres = p.pres ∧ (Part.dispatch p).till = p.till ∧ (Part.dispatch p).jrn = p.jrn ∧ (Part.dispatch p).lab = p.lab ∧
(Part.dispatch p).gst = p.gst ∧ (Part.dispatch p).trk = p.trk ∧ (Part.dispatch p).hdr = p.hdr ∧ (Part.dispatch p).memCtr
= p.memCtr ∧ (Part.dispatch p).asks = p.asks ∧ (Part.dispatch p).dram = p.dram ∧ (Part.dispatch p).written = p.written
:= by
  unfold Part.dispatch; refine ⟨?_,?_,?_,?_,?_,?_,?_,?_,?_,?_,?_,?_,?_,?_,?_,?_,?_,?_⟩ <;> ((try dsimp only); (repeat' split) <;> (try simp_all [Prod.ext_iff]) <;> (try (obtain ⟨_, rfl⟩ := ‹_ ∧ _ = (_ : Part)›)) <;> (try simp_all [Prod.ext_iff]) <;> (repeat' split) <;> (try (obtain ⟨_, rfl⟩ := ‹_ ∧ _ = (_ : Part)›)) <;> (try simp_all [Prod.ext_iff]) <;> (repeat' split) <;> (try simp_all))

@[simp] theorem Part.engineTakes_frame (it : RxItem) (p : Part) : (Part.engineTakes it p).cfg = p.cfg ∧
(Part.engineTakes it p).branch = p.branch ∧ (Part.engineTakes it p).trunkFramer = p.trunkFramer ∧ (Part.engineTakes it
p).labelFramer = p.labelFramer ∧ (Part.engineTakes it p).guestFramer = p.guestFramer ∧ (Part.engineTakes it p).links =
p.links ∧ (Part.engineTakes it p).call = p.call ∧ (Part.engineTakes it p).pres = p.pres ∧ (Part.engineTakes it p).till =
p.till ∧ (Part.engineTakes it p).jrn = p.jrn ∧ (Part.engineTakes it p).lab = p.lab ∧ (Part.engineTakes it p).gst = p.gst
∧ (Part.engineTakes it p).trk = p.trk ∧ (Part.engineTakes it p).hdr = p.hdr ∧ (Part.engineTakes it p).memCtr = p.memCtr
∧ (Part.engineTakes it p).asks = p.asks ∧ (Part.engineTakes it p).dram = p.dram ∧ (Part.engineTakes it p).written =
p.written := by
  unfold Part.engineTakes; refine ⟨?_,?_,?_,?_,?_,?_,?_,?_,?_,?_,?_,?_,?_,?_,?_,?_,?_,?_⟩ <;> ((try dsimp only); (repeat' split) <;> (try simp_all [Prod.ext_iff]) <;> (try (obtain ⟨_, rfl⟩ := ‹_ ∧ _ = (_ : Part)›)) <;> (try simp_all [Prod.ext_iff]) <;> (repeat' split) <;> (try (obtain ⟨_, rfl⟩ := ‹_ ∧ _ = (_ : Part)›)) <;> (try simp_all [Prod.ext_iff]) <;> (repeat' split) <;> (try simp_all))

@[simp] theorem Part.leaveReceive_frame (it : RxItem) (p : Part) : (Part.leaveReceive it p).cfg = p.cfg ∧
(Part.leaveReceive it p).branch = p.branch ∧ (Part.leaveReceive it p).trunkFramer = p.trunkFramer ∧ (Part.leaveReceive
it p).labelFramer = p.labelFramer ∧ (Part.leaveReceive it p).guestFramer = p.guestFramer ∧ (Part.leaveReceive it
p).links = p.links ∧ (Part.leaveReceive it p).call = p.call ∧ (Part.leaveReceive it p).pres = p.pres ∧
(Part.leaveReceive it p).price = p.price ∧ (Part.leaveReceive it p).till = p.till ∧ (Part.leaveReceive it p).jrn = p.jrn
∧ (Part.leaveReceive it p).lab = p.lab ∧ (Part.leaveReceive it p).gst = p.gst ∧ (Part.leaveReceive it p).trk = p.trk ∧
(Part.leaveReceive it p).hdr = p.hdr ∧ (Part.leaveReceive it p).memCtr = p.memCtr ∧ (Part.leaveReceive it p).asks =
p.asks ∧ (Part.leaveReceive it p).dram = p.dram ∧ (Part.leaveReceive it p).written = p.written := by
  unfold Part.leaveReceive; refine ⟨?_,?_,?_,?_,?_,?_,?_,?_,?_,?_,?_,?_,?_,?_,?_,?_,?_,?_,?_⟩ <;> ((try dsimp only); (repeat' split) <;> (try simp_all [Prod.ext_iff]) <;> (try (obtain ⟨_, rfl⟩ := ‹_ ∧ _ = (_ : Part)›)) <;> (try simp_all [Prod.ext_iff]) <;> (repeat' split) <;> (try (obtain ⟨_, rfl⟩ := ‹_ ∧ _ = (_ : Part)›)) <;> (try simp_all [Prod.ext_iff]) <;> (repeat' split) <;> (try simp_all))

@[simp] theorem Part.consume_frame (it : RxItem) (p : Part) : (Part.consume it p).cfg = p.cfg ∧ (Part.consume it
p).branch = p.branch ∧ (Part.consume it p).trunkFramer = p.trunkFramer ∧ (Part.consume it p).labelFramer = p.labelFramer
∧ (Part.consume it p).guestFramer = p.guestFramer ∧ (Part.consume it p).links = p.links ∧ (Part.consume it p).call =
p.call ∧ (Part.consume it p).pres = p.pres ∧ (Part.consume it p).price = p.price ∧ (Part.consume it p).till = p.till ∧
(Part.consume it p).jrn = p.jrn ∧ (Part.consume it p).lab = p.lab ∧ (Part.consume it p).gst = p.gst ∧ (Part.consume it
p).trk = p.trk ∧ (Part.consume it p).hdr = p.hdr ∧ (Part.consume it p).memCtr = p.memCtr ∧ (Part.consume it p).asks =
p.asks ∧ (Part.consume it p).dram = p.dram ∧ (Part.consume it p).written = p.written := by
  unfold Part.consume; and_intros <;> (repeat' split) <;> simp

@[simp] theorem Part.kickRead_frame (l : Line) (p : Part) : (Part.kickRead l p).cfg = p.cfg ∧ (Part.kickRead l
p).trunkFramer = p.trunkFramer ∧ (Part.kickRead l p).labelFramer = p.labelFramer ∧ (Part.kickRead l p).guestFramer =
p.guestFramer ∧ (Part.kickRead l p).fwd = p.fwd ∧ (Part.kickRead l p).call = p.call ∧ (Part.kickRead l p).pres = p.pres
∧ (Part.kickRead l p).price = p.price ∧ (Part.kickRead l p).till = p.till ∧ (Part.kickRead l p).jrn = p.jrn ∧
(Part.kickRead l p).lab = p.lab ∧ (Part.kickRead l p).gst = p.gst ∧ (Part.kickRead l p).trk = p.trk ∧ (Part.kickRead l
p).hdr = p.hdr ∧ (Part.kickRead l p).memCtr = p.memCtr ∧ (Part.kickRead l p).dram = p.dram ∧ (Part.kickRead l p).written
= p.written := by
  unfold Part.kickRead; refine ⟨?_,?_,?_,?_,?_,?_,?_,?_,?_,?_,?_,?_,?_,?_,?_,?_,?_⟩ <;> ((try dsimp only); (repeat' split) <;> (try simp_all [Prod.ext_iff]) <;> (try (obtain ⟨_, rfl⟩ := ‹_ ∧ _ = (_ : Part)›)) <;> (try simp_all [Prod.ext_iff]) <;> (repeat' split) <;> (try (obtain ⟨_, rfl⟩ := ‹_ ∧ _ = (_ : Part)›)) <;> (try simp_all [Prod.ext_iff]) <;> (repeat' split) <;> (try simp_all))

@[simp] theorem Part.kickRead_branch_links (p : Part) : (p.kickRead .branch).links = p.links := by
  unfold Part.kickRead; (repeat' split) <;> simp
@[simp] theorem Part.kickRead_trunk_branch (p : Part) : (p.kickRead .trunk).branch = p.branch := by
  unfold Part.kickRead; (repeat' split) <;> simp
@[simp] theorem Part.kickRead_label_branch (p : Part) : (p.kickRead .label).branch = p.branch := by
  unfold Part.kickRead; (repeat' split) <;> simp
@[simp] theorem Part.kickRead_guest_branch (p : Part) : (p.kickRead .guest).branch = p.branch := by
  unfold Part.kickRead; (repeat' split) <;> simp

@[simp] theorem Part.opens_frame (l : Line) (p : Part) : (Part.opens l p).cfg = p.cfg ∧ (Part.opens l p).trunkFramer =
p.trunkFramer ∧ (Part.opens l p).labelFramer = p.labelFramer ∧ (Part.opens l p).guestFramer = p.guestFramer ∧
(Part.opens l p).fwd = p.fwd ∧ (Part.opens l p).call = p.call ∧ (Part.opens l p).pres = p.pres ∧ (Part.opens l p).price
= p.price ∧ (Part.opens l p).till = p.till ∧ (Part.opens l p).jrn = p.jrn ∧ (Part.opens l p).lab = p.lab ∧ (Part.opens l
p).gst = p.gst ∧ (Part.opens l p).trk = p.trk ∧ (Part.opens l p).hdr = p.hdr ∧ (Part.opens l p).memCtr = p.memCtr ∧
(Part.opens l p).asks = p.asks ∧ (Part.opens l p).dram = p.dram ∧ (Part.opens l p).written = p.written := by
  unfold Part.opens; refine ⟨?_,?_,?_,?_,?_,?_,?_,?_,?_,?_,?_,?_,?_,?_,?_,?_,?_,?_⟩ <;> ((try dsimp only); (repeat' split) <;> (try simp_all [Prod.ext_iff]) <;> (try (obtain ⟨_, rfl⟩ := ‹_ ∧ _ = (_ : Part)›)) <;> (try simp_all [Prod.ext_iff]) <;> (repeat' split) <;> (try (obtain ⟨_, rfl⟩ := ‹_ ∧ _ = (_ : Part)›)) <;> (try simp_all [Prod.ext_iff]) <;> (repeat' split) <;> (try simp_all))

@[simp] theorem Part.opens_branch_links (p : Part) : (p.opens .branch).links = p.links := by
  simp [Part.opens]
@[simp] theorem Part.opens_trunk_branch (p : Part) : (p.opens .trunk).branch = p.branch := by
  simp [Part.opens]
@[simp] theorem Part.opens_label_branch (p : Part) : (p.opens .label).branch = p.branch := by
  simp [Part.opens]
@[simp] theorem Part.opens_guest_branch (p : Part) : (p.opens .guest).branch = p.branch := by
  simp [Part.opens]

@[simp] theorem Part.restage_frame (l : Line) (before : Option Buf) (p : Part) : (Part.restage l before p).cfg = p.cfg ∧
(Part.restage l before p).trunkFramer = p.trunkFramer ∧ (Part.restage l before p).labelFramer = p.labelFramer ∧
(Part.restage l before p).guestFramer = p.guestFramer ∧ (Part.restage l before p).fwd = p.fwd ∧ (Part.restage l before
p).call = p.call ∧ (Part.restage l before p).pres = p.pres ∧ (Part.restage l before p).price = p.price ∧ (Part.restage l
before p).till = p.till ∧ (Part.restage l before p).jrn = p.jrn ∧ (Part.restage l before p).lab = p.lab ∧ (Part.restage
l before p).gst = p.gst ∧ (Part.restage l before p).trk = p.trk ∧ (Part.restage l before p).hdr = p.hdr ∧ (Part.restage
l before p).memCtr = p.memCtr ∧ (Part.restage l before p).dram = p.dram ∧ (Part.restage l before p).written = p.written
:= by
  unfold Part.restage; refine ⟨?_,?_,?_,?_,?_,?_,?_,?_,?_,?_,?_,?_,?_,?_,?_,?_,?_⟩ <;> ((try dsimp only); (repeat' split) <;> (try simp_all [Prod.ext_iff]) <;> (try (obtain ⟨_, rfl⟩ := ‹_ ∧ _ = (_ : Part)›)) <;> (try simp_all [Prod.ext_iff]) <;> (repeat' split) <;> (try (obtain ⟨_, rfl⟩ := ‹_ ∧ _ = (_ : Part)›)) <;> (try simp_all [Prod.ext_iff]) <;> (repeat' split) <;> (try simp_all))

@[simp] theorem Part.restage_branch_links (b : Option Buf) (p : Part) : (p.restage .branch b).links = p.links := by
  unfold Part.restage; split <;> simp
@[simp] theorem Part.restage_trunk_branch (b : Option Buf) (p : Part) : (p.restage .trunk b).branch = p.branch := by
  unfold Part.restage; split <;> simp
@[simp] theorem Part.restage_label_branch (b : Option Buf) (p : Part) : (p.restage .label b).branch = p.branch := by
  unfold Part.restage; split <;> simp
@[simp] theorem Part.restage_guest_branch (b : Option Buf) (p : Part) : (p.restage .guest b).branch = p.branch := by
  unfold Part.restage; split <;> simp

@[simp] theorem Part.txReadDone_frame (l : Line) (p : Part) : (Part.txReadDone l p).cfg = p.cfg ∧ (Part.txReadDone l
p).trunkFramer = p.trunkFramer ∧ (Part.txReadDone l p).labelFramer = p.labelFramer ∧ (Part.txReadDone l p).guestFramer =
p.guestFramer ∧ (Part.txReadDone l p).fwd = p.fwd ∧ (Part.txReadDone l p).call = p.call ∧ (Part.txReadDone l p).pres =
p.pres ∧ (Part.txReadDone l p).price = p.price ∧ (Part.txReadDone l p).till = p.till ∧ (Part.txReadDone l p).jrn = p.jrn
∧ (Part.txReadDone l p).lab = p.lab ∧ (Part.txReadDone l p).gst = p.gst ∧ (Part.txReadDone l p).trk = p.trk ∧
(Part.txReadDone l p).hdr = p.hdr ∧ (Part.txReadDone l p).memCtr = p.memCtr ∧ (Part.txReadDone l p).dram = p.dram ∧
(Part.txReadDone l p).written = p.written := by
  unfold Part.txReadDone; dsimp only; and_intros <;> (repeat' split) <;> simp_all [Prod.ext_iff]

@[simp] theorem Part.txReadDone_branch_links (p : Part) : (p.txReadDone .branch).links = p.links := by
  unfold Part.txReadDone; dsimp only; (repeat' split) <;> simp
@[simp] theorem Part.txReadDone_trunk_branch (p : Part) : (p.txReadDone .trunk).branch = p.branch := by
  unfold Part.txReadDone; dsimp only; (repeat' split) <;> simp
@[simp] theorem Part.txReadDone_label_branch (p : Part) : (p.txReadDone .label).branch = p.branch := by
  unfold Part.txReadDone; dsimp only; (repeat' split) <;> simp
@[simp] theorem Part.txReadDone_guest_branch (p : Part) : (p.txReadDone .guest).branch = p.branch := by
  unfold Part.txReadDone; dsimp only; (repeat' split) <;> simp

@[simp] theorem Part.contend_frame (start : List Bool) (c : Cls) (p : Part) : (Part.contend start c p).cfg = p.cfg ∧
(Part.contend start c p).trunkFramer = p.trunkFramer ∧ (Part.contend start c p).labelFramer = p.labelFramer ∧
(Part.contend start c p).guestFramer = p.guestFramer ∧ (Part.contend start c p).links = p.links ∧ (Part.contend start c
p).fwd = p.fwd ∧ (Part.contend start c p).call = p.call ∧ (Part.contend start c p).pres = p.pres ∧ (Part.contend start c
p).price = p.price ∧ (Part.contend start c p).till = p.till ∧ (Part.contend start c p).jrn = p.jrn ∧ (Part.contend start
c p).lab = p.lab ∧ (Part.contend start c p).gst = p.gst ∧ (Part.contend start c p).trk = p.trk ∧ (Part.contend start c
p).hdr = p.hdr ∧ (Part.contend start c p).memCtr = p.memCtr ∧ (Part.contend start c p).asks = p.asks ∧ (Part.contend
start c p).dram = p.dram ∧ (Part.contend start c p).written = p.written := by
  unfold Part.contend; refine ⟨?_,?_,?_,?_,?_,?_,?_,?_,?_,?_,?_,?_,?_,?_,?_,?_,?_,?_,?_⟩ <;> ((try dsimp only); (repeat' split) <;> (try simp_all [Prod.ext_iff]) <;> (try (obtain ⟨_, rfl⟩ := ‹_ ∧ _ = (_ : Part)›)) <;> (try simp_all [Prod.ext_iff]) <;> (repeat' split) <;> (try (obtain ⟨_, rfl⟩ := ‹_ ∧ _ = (_ : Part)›)) <;> (try simp_all [Prod.ext_iff]) <;> (repeat' split) <;> (try simp_all))

@[simp] theorem Part.offer_frame (p : Part) : (Part.offer p).cfg = p.cfg ∧ (Part.offer p).trunkFramer = p.trunkFramer ∧
(Part.offer p).labelFramer = p.labelFramer ∧ (Part.offer p).guestFramer = p.guestFramer ∧ (Part.offer p).links = p.links
∧ (Part.offer p).fwd = p.fwd ∧ (Part.offer p).call = p.call ∧ (Part.offer p).pres = p.pres ∧ (Part.offer p).price =
p.price ∧ (Part.offer p).till = p.till ∧ (Part.offer p).jrn = p.jrn ∧ (Part.offer p).lab = p.lab ∧ (Part.offer p).gst =
p.gst ∧ (Part.offer p).trk = p.trk ∧ (Part.offer p).hdr = p.hdr ∧ (Part.offer p).memCtr = p.memCtr ∧ (Part.offer p).asks
= p.asks ∧ (Part.offer p).dram = p.dram ∧ (Part.offer p).written = p.written := by
  unfold Part.offer; and_intros <;> (repeat' split) <;> simp

@[simp] theorem Part.enqueue_frame (c : Cls) (o : FrameOwner) (b : Buf) (p : Part) : (Part.enqueue c o b p).cfg = p.cfg
∧ (Part.enqueue c o b p).trunkFramer = p.trunkFramer ∧ (Part.enqueue c o b p).labelFramer = p.labelFramer ∧
(Part.enqueue c o b p).guestFramer = p.guestFramer ∧ (Part.enqueue c o b p).links = p.links ∧ (Part.enqueue c o b
p).call = p.call ∧ (Part.enqueue c o b p).pres = p.pres ∧ (Part.enqueue c o b p).price = p.price ∧ (Part.enqueue c o b
p).till = p.till ∧ (Part.enqueue c o b p).jrn = p.jrn ∧ (Part.enqueue c o b p).lab = p.lab ∧ (Part.enqueue c o b p).gst
= p.gst ∧ (Part.enqueue c o b p).trk = p.trk ∧ (Part.enqueue c o b p).hdr = p.hdr ∧ (Part.enqueue c o b p).memCtr =
p.memCtr ∧ (Part.enqueue c o b p).dram = p.dram ∧ (Part.enqueue c o b p).written = p.written := by
  unfold Part.enqueue; refine ⟨?_,?_,?_,?_,?_,?_,?_,?_,?_,?_,?_,?_,?_,?_,?_,?_,?_⟩ <;> ((try dsimp only); (repeat' split) <;> (try simp_all [Prod.ext_iff]) <;> (try (obtain ⟨_, rfl⟩ := ‹_ ∧ _ = (_ : Part)›)) <;> (try simp_all [Prod.ext_iff]) <;> (repeat' split) <;> (try (obtain ⟨_, rfl⟩ := ‹_ ∧ _ = (_ : Part)›)) <;> (try simp_all [Prod.ext_iff]) <;> (repeat' split) <;> (try simp_all))

@[simp] theorem Part.sendFrame_frame (u : User) (c : Cls) (o : FrameOwner) (bs : Bytes) (p : Part) : (Part.sendFrame u c
o bs p).2.cfg = p.cfg ∧ (Part.sendFrame u c o bs p).2.trunkFramer = p.trunkFramer ∧ (Part.sendFrame u c o bs
p).2.labelFramer = p.labelFramer ∧ (Part.sendFrame u c o bs p).2.guestFramer = p.guestFramer ∧ (Part.sendFrame u c o bs
p).2.links = p.links ∧ (Part.sendFrame u c o bs p).2.call = p.call ∧ (Part.sendFrame u c o bs p).2.pres = p.pres ∧
(Part.sendFrame u c o bs p).2.price = p.price ∧ (Part.sendFrame u c o bs p).2.till = p.till ∧ (Part.sendFrame u c o bs
p).2.jrn = p.jrn ∧ (Part.sendFrame u c o bs p).2.lab = p.lab ∧ (Part.sendFrame u c o bs p).2.gst = p.gst ∧
(Part.sendFrame u c o bs p).2.trk = p.trk ∧ (Part.sendFrame u c o bs p).2.hdr = p.hdr ∧ (Part.sendFrame u c o bs
p).2.memCtr = p.memCtr ∧ (Part.sendFrame u c o bs p).2.written = p.written := by
  unfold Part.sendFrame; refine ⟨?_,?_,?_,?_,?_,?_,?_,?_,?_,?_,?_,?_,?_,?_,?_,?_⟩ <;> ((try dsimp only); (repeat' split) <;> (try simp_all [Prod.ext_iff]) <;> (try (obtain ⟨_, rfl⟩ := ‹_ ∧ _ = (_ : Part)›)) <;> (try simp_all [Prod.ext_iff]) <;> (repeat' split) <;> (try (obtain ⟨_, rfl⟩ := ‹_ ∧ _ = (_ : Part)›)) <;> (try simp_all [Prod.ext_iff]) <;> (repeat' split) <;> (try simp_all))

@[simp] theorem Part.txRest_frame (p : Part) : (Part.txRest p).cfg = p.cfg ∧ (Part.txRest p).trunkFramer = p.trunkFramer
∧ (Part.txRest p).labelFramer = p.labelFramer ∧ (Part.txRest p).guestFramer = p.guestFramer ∧ (Part.txRest p).links =
p.links ∧ (Part.txRest p).fwd = p.fwd ∧ (Part.txRest p).call = p.call ∧ (Part.txRest p).pres = p.pres ∧ (Part.txRest
p).price = p.price ∧ (Part.txRest p).till = p.till ∧ (Part.txRest p).jrn = p.jrn ∧ (Part.txRest p).lab = p.lab ∧
(Part.txRest p).gst = p.gst ∧ (Part.txRest p).trk = p.trk ∧ (Part.txRest p).hdr = p.hdr ∧ (Part.txRest p).memCtr =
p.memCtr ∧ (Part.txRest p).asks = p.asks ∧ (Part.txRest p).dram = p.dram ∧ (Part.txRest p).written = p.written := by
  unfold Part.txRest; and_intros <;> (repeat' split) <;> simp

@[simp] theorem Part.dequeue_frame (c : Cls) (p : Part) : (Part.dequeue c p).cfg = p.cfg ∧ (Part.dequeue c p).branch =
p.branch ∧ (Part.dequeue c p).trunkFramer = p.trunkFramer ∧ (Part.dequeue c p).labelFramer = p.labelFramer ∧
(Part.dequeue c p).guestFramer = p.guestFramer ∧ (Part.dequeue c p).links = p.links ∧ (Part.dequeue c p).call = p.call ∧
(Part.dequeue c p).pres = p.pres ∧ (Part.dequeue c p).price = p.price ∧ (Part.dequeue c p).till = p.till ∧ (Part.dequeue
c p).jrn = p.jrn ∧ (Part.dequeue c p).lab = p.lab ∧ (Part.dequeue c p).gst = p.gst ∧ (Part.dequeue c p).trk = p.trk ∧
(Part.dequeue c p).hdr = p.hdr ∧ (Part.dequeue c p).memCtr = p.memCtr ∧ (Part.dequeue c p).asks = p.asks ∧ (Part.dequeue
c p).dram = p.dram ∧ (Part.dequeue c p).written = p.written := by
  unfold Part.dequeue; and_intros <;> (repeat' split) <;> simp

@[simp] theorem Part.removeQueued_frame (c : Cls) (o : FrameOwner) (p : Part) : (Part.removeQueued c o p).cfg = p.cfg ∧
(Part.removeQueued c o p).trunkFramer = p.trunkFramer ∧ (Part.removeQueued c o p).labelFramer = p.labelFramer ∧
(Part.removeQueued c o p).guestFramer = p.guestFramer ∧ (Part.removeQueued c o p).links = p.links ∧ (Part.removeQueued c
o p).call = p.call ∧ (Part.removeQueued c o p).pres = p.pres ∧ (Part.removeQueued c o p).price = p.price ∧
(Part.removeQueued c o p).till = p.till ∧ (Part.removeQueued c o p).jrn = p.jrn ∧ (Part.removeQueued c o p).lab = p.lab
∧ (Part.removeQueued c o p).gst = p.gst ∧ (Part.removeQueued c o p).trk = p.trk ∧ (Part.removeQueued c o p).hdr = p.hdr
∧ (Part.removeQueued c o p).memCtr = p.memCtr ∧ (Part.removeQueued c o p).dram = p.dram ∧ (Part.removeQueued c o
p).written = p.written := by
  unfold Part.removeQueued; and_intros <;> (repeat' split) <;> simp

@[simp] theorem Part.withdraw_frame (c : Cls) (o : FrameOwner) (p : Part) : (Part.withdraw c o p).2.cfg = p.cfg ∧
(Part.withdraw c o p).2.trunkFramer = p.trunkFramer ∧ (Part.withdraw c o p).2.labelFramer = p.labelFramer ∧
(Part.withdraw c o p).2.guestFramer = p.guestFramer ∧ (Part.withdraw c o p).2.links = p.links ∧ (Part.withdraw c o
p).2.call = p.call ∧ (Part.withdraw c o p).2.pres = p.pres ∧ (Part.withdraw c o p).2.price = p.price ∧ (Part.withdraw c
o p).2.till = p.till ∧ (Part.withdraw c o p).2.jrn = p.jrn ∧ (Part.withdraw c o p).2.lab = p.lab ∧ (Part.withdraw c o
p).2.gst = p.gst ∧ (Part.withdraw c o p).2.trk = p.trk ∧ (Part.withdraw c o p).2.hdr = p.hdr ∧ (Part.withdraw c o
p).2.memCtr = p.memCtr ∧ (Part.withdraw c o p).2.dram = p.dram ∧ (Part.withdraw c o p).2.written = p.written := by
  unfold Part.withdraw; and_intros <;> (repeat' split) <;> simp

@[simp] theorem Part.sendTurn_frame (what : TurnWhat) (dest : StationNo) (kind : Nat) (payload : Bytes) (p : Part) :
(Part.sendTurn what dest kind payload p).2.cfg = p.cfg ∧ (Part.sendTurn what dest kind payload p).2.trunkFramer =
p.trunkFramer ∧ (Part.sendTurn what dest kind payload p).2.labelFramer = p.labelFramer ∧ (Part.sendTurn what dest kind
payload p).2.guestFramer = p.guestFramer ∧ (Part.sendTurn what dest kind payload p).2.links = p.links ∧ (Part.sendTurn
what dest kind payload p).2.call = p.call ∧ (Part.sendTurn what dest kind payload p).2.pres = p.pres ∧ (Part.sendTurn
what dest kind payload p).2.price = p.price ∧ (Part.sendTurn what dest kind payload p).2.till = p.till ∧ (Part.sendTurn
what dest kind payload p).2.jrn = p.jrn ∧ (Part.sendTurn what dest kind payload p).2.lab = p.lab ∧ (Part.sendTurn what
dest kind payload p).2.gst = p.gst ∧ (Part.sendTurn what dest kind payload p).2.trk = p.trk ∧ (Part.sendTurn what dest
kind payload p).2.hdr = p.hdr ∧ (Part.sendTurn what dest kind payload p).2.memCtr = p.memCtr ∧ (Part.sendTurn what dest
kind payload p).2.written = p.written := by
  unfold Part.sendTurn; refine ⟨?_,?_,?_,?_,?_,?_,?_,?_,?_,?_,?_,?_,?_,?_,?_,?_⟩ <;> ((try dsimp only); (repeat' split) <;> (try simp_all [Prod.ext_iff]) <;> (try (obtain ⟨_, rfl⟩ := ‹_ ∧ _ = (_ : Part)›)) <;> (try simp_all [Prod.ext_iff]) <;> (repeat' split) <;> (try (obtain ⟨_, rfl⟩ := ‹_ ∧ _ = (_ : Part)›)) <;> (try simp_all [Prod.ext_iff]) <;> (repeat' split) <;> (try simp_all))

@[simp] theorem Part.kickTrunk_frame (p : Part) : (Part.kickTrunk p).cfg = p.cfg ∧ (Part.kickTrunk p).branch = p.branch
∧ (Part.kickTrunk p).trunkFramer = p.trunkFramer ∧ (Part.kickTrunk p).labelFramer = p.labelFramer ∧ (Part.kickTrunk
p).guestFramer = p.guestFramer ∧ (Part.kickTrunk p).call = p.call ∧ (Part.kickTrunk p).pres = p.pres ∧ (Part.kickTrunk
p).price = p.price ∧ (Part.kickTrunk p).till = p.till ∧ (Part.kickTrunk p).jrn = p.jrn ∧ (Part.kickTrunk p).lab = p.lab
∧ (Part.kickTrunk p).gst = p.gst ∧ (Part.kickTrunk p).trk = p.trk ∧ (Part.kickTrunk p).hdr = p.hdr ∧ (Part.kickTrunk
p).memCtr = p.memCtr ∧ (Part.kickTrunk p).dram = p.dram ∧ (Part.kickTrunk p).written = p.written := by
  unfold Part.kickTrunk; and_intros <;> (repeat' split) <;> simp

@[simp] theorem Part.joinExchange_frame (what : TrunkFrame) (b : Buf) (p : Part) : (Part.joinExchange what b p).cfg =
p.cfg ∧ (Part.joinExchange what b p).branch = p.branch ∧ (Part.joinExchange what b p).trunkFramer = p.trunkFramer ∧
(Part.joinExchange what b p).labelFramer = p.labelFramer ∧ (Part.joinExchange what b p).guestFramer = p.guestFramer ∧
(Part.joinExchange what b p).call = p.call ∧ (Part.joinExchange what b p).pres = p.pres ∧ (Part.joinExchange what b
p).price = p.price ∧ (Part.joinExchange what b p).till = p.till ∧ (Part.joinExchange what b p).jrn = p.jrn ∧
(Part.joinExchange what b p).lab = p.lab ∧ (Part.joinExchange what b p).gst = p.gst ∧ (Part.joinExchange what b p).trk =
p.trk ∧ (Part.joinExchange what b p).hdr = p.hdr ∧ (Part.joinExchange what b p).memCtr = p.memCtr ∧ (Part.joinExchange
what b p).dram = p.dram ∧ (Part.joinExchange what b p).written = p.written := by
  unfold Part.joinExchange; and_intros <;> (repeat' split) <;> simp

@[simp] theorem Part.joinPackets_frame (b : Buf) (p : Part) : (Part.joinPackets b p).cfg = p.cfg ∧ (Part.joinPackets b
p).branch = p.branch ∧ (Part.joinPackets b p).trunkFramer = p.trunkFramer ∧ (Part.joinPackets b p).labelFramer =
p.labelFramer ∧ (Part.joinPackets b p).guestFramer = p.guestFramer ∧ (Part.joinPackets b p).call = p.call ∧
(Part.joinPackets b p).pres = p.pres ∧ (Part.joinPackets b p).price = p.price ∧ (Part.joinPackets b p).till = p.till ∧
(Part.joinPackets b p).jrn = p.jrn ∧ (Part.joinPackets b p).lab = p.lab ∧ (Part.joinPackets b p).gst = p.gst ∧
(Part.joinPackets b p).trk = p.trk ∧ (Part.joinPackets b p).hdr = p.hdr ∧ (Part.joinPackets b p).memCtr = p.memCtr ∧
(Part.joinPackets b p).dram = p.dram ∧ (Part.joinPackets b p).written = p.written := by
  unfold Part.joinPackets; and_intros <;> (repeat' split) <;> simp

@[simp] theorem Part.modRadio_frame (f : List LFrame → List LFrame) (p : Part) : (Part.modRadio f p).cfg = p.cfg ∧
(Part.modRadio f p).branch = p.branch ∧ (Part.modRadio f p).trunkFramer = p.trunkFramer ∧ (Part.modRadio f
p).labelFramer = p.labelFramer ∧ (Part.modRadio f p).guestFramer = p.guestFramer ∧ (Part.modRadio f p).call = p.call ∧
(Part.modRadio f p).pres = p.pres ∧ (Part.modRadio f p).price = p.price ∧ (Part.modRadio f p).till = p.till ∧
(Part.modRadio f p).jrn = p.jrn ∧ (Part.modRadio f p).lab = p.lab ∧ (Part.modRadio f p).gst = p.gst ∧ (Part.modRadio f
p).trk = p.trk ∧ (Part.modRadio f p).hdr = p.hdr ∧ (Part.modRadio f p).memCtr = p.memCtr ∧ (Part.modRadio f p).dram =
p.dram ∧ (Part.modRadio f p).written = p.written := by
  unfold Part.modRadio; refine ⟨?_,?_,?_,?_,?_,?_,?_,?_,?_,?_,?_,?_,?_,?_,?_,?_,?_⟩ <;> ((try dsimp only); (repeat' split) <;> (try simp_all [Prod.ext_iff]) <;> (try (obtain ⟨_, rfl⟩ := ‹_ ∧ _ = (_ : Part)›)) <;> (try simp_all [Prod.ext_iff]) <;> (repeat' split) <;> (try (obtain ⟨_, rfl⟩ := ‹_ ∧ _ = (_ : Part)›)) <;> (try simp_all [Prod.ext_iff]) <;> (repeat' split) <;> (try simp_all))

@[simp] theorem Part.modLabelQueue_frame (f : List LFrame → List LFrame) (p : Part) : (Part.modLabelQueue f p).cfg =
p.cfg ∧ (Part.modLabelQueue f p).branch = p.branch ∧ (Part.modLabelQueue f p).trunkFramer = p.trunkFramer ∧
(Part.modLabelQueue f p).labelFramer = p.labelFramer ∧ (Part.modLabelQueue f p).guestFramer = p.guestFramer ∧
(Part.modLabelQueue f p).call = p.call ∧ (Part.modLabelQueue f p).pres = p.pres ∧ (Part.modLabelQueue f p).price =
p.price ∧ (Part.modLabelQueue f p).till = p.till ∧ (Part.modLabelQueue f p).jrn = p.jrn ∧ (Part.modLabelQueue f p).lab =
p.lab ∧ (Part.modLabelQueue f p).gst = p.gst ∧ (Part.modLabelQueue f p).trk = p.trk ∧ (Part.modLabelQueue f p).hdr =
p.hdr ∧ (Part.modLabelQueue f p).memCtr = p.memCtr ∧ (Part.modLabelQueue f p).dram = p.dram ∧ (Part.modLabelQueue f
p).written = p.written := by
  unfold Part.modLabelQueue; refine ⟨?_,?_,?_,?_,?_,?_,?_,?_,?_,?_,?_,?_,?_,?_,?_,?_,?_⟩ <;> ((try dsimp only); (repeat' split) <;> (try simp_all [Prod.ext_iff]) <;> (try (obtain ⟨_, rfl⟩ := ‹_ ∧ _ = (_ : Part)›)) <;> (try simp_all [Prod.ext_iff]) <;> (repeat' split) <;> (try (obtain ⟨_, rfl⟩ := ‹_ ∧ _ = (_ : Part)›)) <;> (try simp_all [Prod.ext_iff]) <;> (repeat' split) <;> (try simp_all))

@[simp] theorem Part.joinRadio_frame (b : Buf) (p : Part) : (Part.joinRadio b p).cfg = p.cfg ∧ (Part.joinRadio b
p).branch = p.branch ∧ (Part.joinRadio b p).trunkFramer = p.trunkFramer ∧ (Part.joinRadio b p).labelFramer =
p.labelFramer ∧ (Part.joinRadio b p).guestFramer = p.guestFramer ∧ (Part.joinRadio b p).call = p.call ∧ (Part.joinRadio
b p).pres = p.pres ∧ (Part.joinRadio b p).price = p.price ∧ (Part.joinRadio b p).till = p.till ∧ (Part.joinRadio b
p).jrn = p.jrn ∧ (Part.joinRadio b p).lab = p.lab ∧ (Part.joinRadio b p).gst = p.gst ∧ (Part.joinRadio b p).trk = p.trk
∧ (Part.joinRadio b p).hdr = p.hdr ∧ (Part.joinRadio b p).memCtr = p.memCtr ∧ (Part.joinRadio b p).dram = p.dram ∧
(Part.joinRadio b p).written = p.written := by
  unfold Part.joinRadio; and_intros <;> (repeat' split) <;> simp

@[simp] theorem Part.joinLabels_frame (tag : Byte) (b : Buf) (p : Part) : (Part.joinLabels tag b p).cfg = p.cfg ∧
(Part.joinLabels tag b p).branch = p.branch ∧ (Part.joinLabels tag b p).trunkFramer = p.trunkFramer ∧ (Part.joinLabels
tag b p).labelFramer = p.labelFramer ∧ (Part.joinLabels tag b p).guestFramer = p.guestFramer ∧ (Part.joinLabels tag b
p).call = p.call ∧ (Part.joinLabels tag b p).pres = p.pres ∧ (Part.joinLabels tag b p).price = p.price ∧
(Part.joinLabels tag b p).till = p.till ∧ (Part.joinLabels tag b p).jrn = p.jrn ∧ (Part.joinLabels tag b p).lab = p.lab
∧ (Part.joinLabels tag b p).gst = p.gst ∧ (Part.joinLabels tag b p).trk = p.trk ∧ (Part.joinLabels tag b p).hdr = p.hdr
∧ (Part.joinLabels tag b p).memCtr = p.memCtr ∧ (Part.joinLabels tag b p).dram = p.dram ∧ (Part.joinLabels tag b
p).written = p.written := by
  unfold Part.joinLabels; and_intros <;> (repeat' split) <;> simp

@[simp] theorem Part.presentHeader_frame (us : List HeaderUser) (p : Part) : (Part.presentHeader us p).cfg = p.cfg ∧
(Part.presentHeader us p).branch = p.branch ∧ (Part.presentHeader us p).trunkFramer = p.trunkFramer ∧
(Part.presentHeader us p).labelFramer = p.labelFramer ∧ (Part.presentHeader us p).guestFramer = p.guestFramer ∧
(Part.presentHeader us p).links = p.links ∧ (Part.presentHeader us p).fwd = p.fwd ∧ (Part.presentHeader us p).call =
p.call ∧ (Part.presentHeader us p).pres = p.pres ∧ (Part.presentHeader us p).price = p.price ∧ (Part.presentHeader us
p).till = p.till ∧ (Part.presentHeader us p).jrn = p.jrn ∧ (Part.presentHeader us p).lab = p.lab ∧ (Part.presentHeader
us p).gst = p.gst ∧ (Part.presentHeader us p).trk = p.trk ∧ (Part.presentHeader us p).memCtr = p.memCtr ∧
(Part.presentHeader us p).dram = p.dram ∧ (Part.presentHeader us p).written = p.written := by
  unfold Part.presentHeader; and_intros <;> (repeat' split) <;> simp

@[simp] theorem Part.askHeader_frame (u : HeaderUser) (f : HeaderCopy → HeaderCopy) (p : Part) : (Part.askHeader u f
p).cfg = p.cfg ∧ (Part.askHeader u f p).branch = p.branch ∧ (Part.askHeader u f p).trunkFramer = p.trunkFramer ∧
(Part.askHeader u f p).labelFramer = p.labelFramer ∧ (Part.askHeader u f p).guestFramer = p.guestFramer ∧
(Part.askHeader u f p).links = p.links ∧ (Part.askHeader u f p).fwd = p.fwd ∧ (Part.askHeader u f p).call = p.call ∧
(Part.askHeader u f p).pres = p.pres ∧ (Part.askHeader u f p).price = p.price ∧ (Part.askHeader u f p).till = p.till ∧
(Part.askHeader u f p).jrn = p.jrn ∧ (Part.askHeader u f p).lab = p.lab ∧ (Part.askHeader u f p).gst = p.gst ∧
(Part.askHeader u f p).trk = p.trk ∧ (Part.askHeader u f p).memCtr = p.memCtr ∧ (Part.askHeader u f p).dram = p.dram ∧
(Part.askHeader u f p).written = p.written := by
  unfold Part.askHeader; dsimp only; and_intros <;> (repeat' split) <;> simp_all [Prod.ext_iff]

@[simp] theorem Part.headerWriteBurst_frame (p : Part) : (Part.headerWriteBurst p).cfg = p.cfg ∧ (Part.headerWriteBurst
p).branch = p.branch ∧ (Part.headerWriteBurst p).trunkFramer = p.trunkFramer ∧ (Part.headerWriteBurst p).labelFramer =
p.labelFramer ∧ (Part.headerWriteBurst p).guestFramer = p.guestFramer ∧ (Part.headerWriteBurst p).links = p.links ∧
(Part.headerWriteBurst p).fwd = p.fwd ∧ (Part.headerWriteBurst p).call = p.call ∧ (Part.headerWriteBurst p).pres =
p.pres ∧ (Part.headerWriteBurst p).price = p.price ∧ (Part.headerWriteBurst p).till = p.till ∧ (Part.headerWriteBurst
p).jrn = p.jrn ∧ (Part.headerWriteBurst p).lab = p.lab ∧ (Part.headerWriteBurst p).gst = p.gst ∧ (Part.headerWriteBurst
p).trk = p.trk ∧ (Part.headerWriteBurst p).asks = p.asks := by
  unfold Part.headerWriteBurst; and_intros <;> (repeat' split) <;> simp

@[simp] theorem Part.appendNow_frame (r : Requester) (till : Nat) (cs : List Content) (p : Part) : (Part.appendNow r
till cs p).2.cfg = p.cfg ∧ (Part.appendNow r till cs p).2.branch = p.branch ∧ (Part.appendNow r till cs p).2.trunkFramer
= p.trunkFramer ∧ (Part.appendNow r till cs p).2.labelFramer = p.labelFramer ∧ (Part.appendNow r till cs
p).2.guestFramer = p.guestFramer ∧ (Part.appendNow r till cs p).2.links = p.links ∧ (Part.appendNow r till cs p).2.fwd =
p.fwd ∧ (Part.appendNow r till cs p).2.call = p.call ∧ (Part.appendNow r till cs p).2.pres = p.pres ∧ (Part.appendNow r
till cs p).2.price = p.price ∧ (Part.appendNow r till cs p).2.till = p.till ∧ (Part.appendNow r till cs p).2.lab = p.lab
∧ (Part.appendNow r till cs p).2.gst = p.gst ∧ (Part.appendNow r till cs p).2.trk = p.trk ∧ (Part.appendNow r till cs
p).2.hdr = p.hdr ∧ (Part.appendNow r till cs p).2.memCtr = p.memCtr ∧ (Part.appendNow r till cs p).2.dram = p.dram ∧
(Part.appendNow r till cs p).2.written = p.written := by
  unfold Part.appendNow; and_intros <;> (repeat' split) <;> simp

@[simp] theorem Part.append_frame (r : Requester) (till : Nat) (cs : List Content) (p : Part) : (Part.append r till cs
p).2.cfg = p.cfg ∧ (Part.append r till cs p).2.branch = p.branch ∧ (Part.append r till cs p).2.trunkFramer =
p.trunkFramer ∧ (Part.append r till cs p).2.labelFramer = p.labelFramer ∧ (Part.append r till cs p).2.guestFramer =
p.guestFramer ∧ (Part.append r till cs p).2.links = p.links ∧ (Part.append r till cs p).2.fwd = p.fwd ∧ (Part.append r
till cs p).2.call = p.call ∧ (Part.append r till cs p).2.pres = p.pres ∧ (Part.append r till cs p).2.price = p.price ∧
(Part.append r till cs p).2.till = p.till ∧ (Part.append r till cs p).2.lab = p.lab ∧ (Part.append r till cs p).2.gst =
p.gst ∧ (Part.append r till cs p).2.trk = p.trk ∧ (Part.append r till cs p).2.hdr = p.hdr ∧ (Part.append r till cs
p).2.memCtr = p.memCtr ∧ (Part.append r till cs p).2.dram = p.dram ∧ (Part.append r till cs p).2.written = p.written := by
  unfold Part.append; and_intros <;> (repeat' split) <;> simp

@[simp] theorem Part.readJournal_frame (u : BurstUser) (s : Nat) (p : Part) : (Part.readJournal u s p).2.cfg = p.cfg ∧
(Part.readJournal u s p).2.branch = p.branch ∧ (Part.readJournal u s p).2.trunkFramer = p.trunkFramer ∧
(Part.readJournal u s p).2.labelFramer = p.labelFramer ∧ (Part.readJournal u s p).2.guestFramer = p.guestFramer ∧
(Part.readJournal u s p).2.links = p.links ∧ (Part.readJournal u s p).2.fwd = p.fwd ∧ (Part.readJournal u s p).2.call =
p.call ∧ (Part.readJournal u s p).2.pres = p.pres ∧ (Part.readJournal u s p).2.price = p.price ∧ (Part.readJournal u s
p).2.till = p.till ∧ (Part.readJournal u s p).2.lab = p.lab ∧ (Part.readJournal u s p).2.gst = p.gst ∧ (Part.readJournal
u s p).2.trk = p.trk ∧ (Part.readJournal u s p).2.hdr = p.hdr ∧ (Part.readJournal u s p).2.memCtr = p.memCtr ∧
(Part.readJournal u s p).2.dram = p.dram ∧ (Part.readJournal u s p).2.written = p.written := by
  unfold Part.readJournal; dsimp only; and_intros <;> (repeat' split) <;> simp_all [Prod.ext_iff]

@[simp] theorem Part.ignoreRelease_frame (p : Part) : (Part.ignoreRelease p).cfg = p.cfg ∧ (Part.ignoreRelease p).branch
= p.branch ∧ (Part.ignoreRelease p).trunkFramer = p.trunkFramer ∧ (Part.ignoreRelease p).labelFramer = p.labelFramer ∧
(Part.ignoreRelease p).guestFramer = p.guestFramer ∧ (Part.ignoreRelease p).links = p.links ∧ (Part.ignoreRelease p).fwd
= p.fwd ∧ (Part.ignoreRelease p).call = p.call ∧ (Part.ignoreRelease p).pres = p.pres ∧ (Part.ignoreRelease p).price =
p.price ∧ (Part.ignoreRelease p).till = p.till ∧ (Part.ignoreRelease p).lab = p.lab ∧ (Part.ignoreRelease p).gst = p.gst
∧ (Part.ignoreRelease p).trk = p.trk ∧ (Part.ignoreRelease p).hdr = p.hdr ∧ (Part.ignoreRelease p).memCtr = p.memCtr ∧
(Part.ignoreRelease p).asks = p.asks ∧ (Part.ignoreRelease p).dram = p.dram ∧ (Part.ignoreRelease p).written = p.written
:= by
  unfold Part.ignoreRelease; and_intros <;> (repeat' split) <;> simp

@[simp] theorem Part.writeRelease_frame (p : Part) : (Part.writeRelease p).cfg = p.cfg ∧ (Part.writeRelease p).branch =
p.branch ∧ (Part.writeRelease p).trunkFramer = p.trunkFramer ∧ (Part.writeRelease p).labelFramer = p.labelFramer ∧
(Part.writeRelease p).guestFramer = p.guestFramer ∧ (Part.writeRelease p).links = p.links ∧ (Part.writeRelease p).fwd =
p.fwd ∧ (Part.writeRelease p).call = p.call ∧ (Part.writeRelease p).pres = p.pres ∧ (Part.writeRelease p).price =
p.price ∧ (Part.writeRelease p).till = p.till ∧ (Part.writeRelease p).jrn = p.jrn ∧ (Part.writeRelease p).lab = p.lab ∧
(Part.writeRelease p).gst = p.gst ∧ (Part.writeRelease p).trk = p.trk ∧ (Part.writeRelease p).memCtr = p.memCtr ∧
(Part.writeRelease p).dram = p.dram ∧ (Part.writeRelease p).written = p.written := by
  unfold Part.writeRelease; and_intros <;> (repeat' split) <;> simp

@[simp] theorem Part.release_frame (s : Nat) (p : Part) : (Part.release s p).cfg = p.cfg ∧ (Part.release s p).branch =
p.branch ∧ (Part.release s p).trunkFramer = p.trunkFramer ∧ (Part.release s p).labelFramer = p.labelFramer ∧
(Part.release s p).guestFramer = p.guestFramer ∧ (Part.release s p).links = p.links ∧ (Part.release s p).fwd = p.fwd ∧
(Part.release s p).call = p.call ∧ (Part.release s p).pres = p.pres ∧ (Part.release s p).price = p.price ∧ (Part.release
s p).till = p.till ∧ (Part.release s p).lab = p.lab ∧ (Part.release s p).gst = p.gst ∧ (Part.release s p).trk = p.trk ∧
(Part.release s p).memCtr = p.memCtr ∧ (Part.release s p).dram = p.dram ∧ (Part.release s p).written = p.written := by
  unfold Part.release; and_intros <;> (repeat' split) <;> simp

@[simp] theorem Part.setEntry_frame (u : BurstUser) (bank : BankName) (i : Nat) (e : BankEntry) (p : Part) :
(Part.setEntry u bank i e p).cfg = p.cfg ∧ (Part.setEntry u bank i e p).branch = p.branch ∧ (Part.setEntry u bank i e
p).trunkFramer = p.trunkFramer ∧ (Part.setEntry u bank i e p).labelFramer = p.labelFramer ∧ (Part.setEntry u bank i e
p).guestFramer = p.guestFramer ∧ (Part.setEntry u bank i e p).links = p.links ∧ (Part.setEntry u bank i e p).fwd = p.fwd
∧ (Part.setEntry u bank i e p).call = p.call ∧ (Part.setEntry u bank i e p).pres = p.pres ∧ (Part.setEntry u bank i e
p).price = p.price ∧ (Part.setEntry u bank i e p).till = p.till ∧ (Part.setEntry u bank i e p).jrn = p.jrn ∧
(Part.setEntry u bank i e p).lab = p.lab ∧ (Part.setEntry u bank i e p).gst = p.gst ∧ (Part.setEntry u bank i e p).trk =
p.trk ∧ (Part.setEntry u bank i e p).hdr = p.hdr ∧ (Part.setEntry u bank i e p).memCtr = p.memCtr ∧ (Part.setEntry u
bank i e p).written = p.written := by
  unfold Part.setEntry; and_intros <;> (repeat' split) <;> simp

@[simp] theorem Part.wipeSlots_frame (u : BurstUser) (bank : BankName) (lo : Nat) (hi : Nat) (p : Part) :
(Part.wipeSlots u bank lo hi p).cfg = p.cfg ∧ (Part.wipeSlots u bank lo hi p).branch = p.branch ∧ (Part.wipeSlots u bank
lo hi p).trunkFramer = p.trunkFramer ∧ (Part.wipeSlots u bank lo hi p).labelFramer = p.labelFramer ∧ (Part.wipeSlots u
bank lo hi p).guestFramer = p.guestFramer ∧ (Part.wipeSlots u bank lo hi p).links = p.links ∧ (Part.wipeSlots u bank lo
hi p).fwd = p.fwd ∧ (Part.wipeSlots u bank lo hi p).call = p.call ∧ (Part.wipeSlots u bank lo hi p).pres = p.pres ∧
(Part.wipeSlots u bank lo hi p).price = p.price ∧ (Part.wipeSlots u bank lo hi p).till = p.till ∧ (Part.wipeSlots u bank
lo hi p).jrn = p.jrn ∧ (Part.wipeSlots u bank lo hi p).lab = p.lab ∧ (Part.wipeSlots u bank lo hi p).gst = p.gst ∧
(Part.wipeSlots u bank lo hi p).trk = p.trk ∧ (Part.wipeSlots u bank lo hi p).hdr = p.hdr ∧ (Part.wipeSlots u bank lo hi
p).memCtr = p.memCtr ∧ (Part.wipeSlots u bank lo hi p).written = p.written := by
  unfold Part.wipeSlots; and_intros <;> (repeat' split) <;> simp

theorem Part.passEntries_keep {γ : Type} (g : Part → γ) (hs : ∀ u b i e q, g (Part.setEntry u b i e q) = g q)
    (hl : ∀ q, g (Part.loads .bank 1 q) = g q) (f : BankEntry → Part → Option BankEntry × Part)
    (hf : ∀ e q, g (f e q).2 = g q) (p : Part) : g (p.passEntries f) = g p := by
  unfold Part.passEntries
  refine foldl_keep g _ (fun q i => ?_) _ _
  refine Eq.trans ?_ (hl q)
  unfold Part.passEntry
  split
  · rfl
  · rename_i e _
    have := hf e (Part.loads .bank 1 q)
    split <;> rename_i h <;> rw [h] at this
    · exact this
    · rw [hs]; exact this

@[simp] theorem Part.foundEntry_frame (f : Found) (p : Part) : (Part.foundEntry f p).2.cfg = p.cfg ∧ (Part.foundEntry f
p).2.branch = p.branch ∧ (Part.foundEntry f p).2.trunkFramer = p.trunkFramer ∧ (Part.foundEntry f p).2.labelFramer =
p.labelFramer ∧ (Part.foundEntry f p).2.guestFramer = p.guestFramer ∧ (Part.foundEntry f p).2.links = p.links ∧
(Part.foundEntry f p).2.fwd = p.fwd ∧ (Part.foundEntry f p).2.call = p.call ∧ (Part.foundEntry f p).2.pres = p.pres ∧
(Part.foundEntry f p).2.till = p.till ∧ (Part.foundEntry f p).2.jrn = p.jrn ∧ (Part.foundEntry f p).2.lab = p.lab ∧
(Part.foundEntry f p).2.gst = p.gst ∧ (Part.foundEntry f p).2.trk = p.trk ∧ (Part.foundEntry f p).2.hdr = p.hdr ∧
(Part.foundEntry f p).2.memCtr = p.memCtr ∧ (Part.foundEntry f p).2.asks = p.asks ∧ (Part.foundEntry f p).2.dram =
p.dram ∧ (Part.foundEntry f p).2.written = p.written := by
  unfold Part.foundEntry; refine ⟨?_,?_,?_,?_,?_,?_,?_,?_,?_,?_,?_,?_,?_,?_,?_,?_,?_,?_,?_⟩ <;> ((try dsimp only); (repeat' split) <;> (try simp_all [Prod.ext_iff]) <;> (try (obtain ⟨_, rfl⟩ := ‹_ ∧ _ = (_ : Part)›)) <;> (try simp_all [Prod.ext_iff]) <;> (repeat' split) <;> (try (obtain ⟨_, rfl⟩ := ‹_ ∧ _ = (_ : Part)›)) <;> (try simp_all [Prod.ext_iff]) <;> (repeat' split) <;> (try simp_all))

@[simp] theorem Part.lookupEntry_frame (u : BurstUser) (code : Nat) (p : Part) : (Part.lookupEntry u code p).2.cfg =
p.cfg ∧ (Part.lookupEntry u code p).2.branch = p.branch ∧ (Part.lookupEntry u code p).2.trunkFramer = p.trunkFramer ∧
(Part.lookupEntry u code p).2.labelFramer = p.labelFramer ∧ (Part.lookupEntry u code p).2.guestFramer = p.guestFramer ∧
(Part.lookupEntry u code p).2.links = p.links ∧ (Part.lookupEntry u code p).2.fwd = p.fwd ∧ (Part.lookupEntry u code
p).2.call = p.call ∧ (Part.lookupEntry u code p).2.pres = p.pres ∧ (Part.lookupEntry u code p).2.till = p.till ∧
(Part.lookupEntry u code p).2.jrn = p.jrn ∧ (Part.lookupEntry u code p).2.lab = p.lab ∧ (Part.lookupEntry u code
p).2.gst = p.gst ∧ (Part.lookupEntry u code p).2.trk = p.trk ∧ (Part.lookupEntry u code p).2.hdr = p.hdr ∧
(Part.lookupEntry u code p).2.memCtr = p.memCtr ∧ (Part.lookupEntry u code p).2.dram = p.dram ∧ (Part.lookupEntry u code
p).2.written = p.written := by
  unfold Part.lookupEntry; and_intros <;> (repeat' split) <;> simp

end Sys2Proof.Machine
end

