-- ==== Sys2Proof/Laws/PricingFrames.lean ====
section
/-! SUPPORT. What each operation of the call lists and the pricing unit leaves as it was: one lemma for each, a rewrite rule for every block of the part that
it does not touch. -/

set_option linter.all false

/- Every lemma here is a case split over a long record; the default limit is for short proofs. -/
set_option maxHeartbeats 4000000

open Sys2Proof Sys2Proof.Machine

namespace Sys2Proof.Machine

@[simp] theorem Part.hand_frame (o : CallOwner) (h : Handed) (p : Part) : (Part.hand o h p).cfg = p.cfg ∧ (Part.hand o h
p).branch = p.branch ∧ (Part.hand o h p).trunkFramer = p.trunkFramer ∧ (Part.hand o h p).labelFramer = p.labelFramer ∧
(Part.hand o h p).guestFramer = p.guestFramer ∧ (Part.hand o h p).links = p.links ∧ (Part.hand o h p).fwd = p.fwd ∧
(Part.hand o h p).call = p.call ∧ (Part.hand o h p).pres = p.pres ∧ (Part.hand o h p).till = p.till ∧ (Part.hand o h
p).jrn = p.jrn ∧ (Part.hand o h p).lab = p.lab ∧ (Part.hand o h p).gst = p.gst ∧ (Part.hand o h p).hdr = p.hdr ∧
(Part.hand o h p).memCtr = p.memCtr ∧ (Part.hand o h p).asks = p.asks ∧ (Part.hand o h p).dram = p.dram ∧ (Part.hand o h
p).written = p.written := by
  unfold Part.hand; and_intros <;> (repeat' split) <;> simp

@[simp] theorem Part.setOpen_frame (e : OpenCall) (p : Part) : (Part.setOpen e p).cfg = p.cfg ∧ (Part.setOpen e
p).branch = p.branch ∧ (Part.setOpen e p).trunkFramer = p.trunkFramer ∧ (Part.setOpen e p).labelFramer = p.labelFramer ∧
(Part.setOpen e p).guestFramer = p.guestFramer ∧ (Part.setOpen e p).links = p.links ∧ (Part.setOpen e p).fwd = p.fwd ∧
(Part.setOpen e p).pres = p.pres ∧ (Part.setOpen e p).price = p.price ∧ (Part.setOpen e p).till = p.till ∧ (Part.setOpen
e p).jrn = p.jrn ∧ (Part.setOpen e p).lab = p.lab ∧ (Part.setOpen e p).gst = p.gst ∧ (Part.setOpen e p).trk = p.trk ∧
(Part.setOpen e p).hdr = p.hdr ∧ (Part.setOpen e p).memCtr = p.memCtr ∧ (Part.setOpen e p).asks = p.asks ∧ (Part.setOpen
e p).dram = p.dram ∧ (Part.setOpen e p).written = p.written := by
  unfold Part.setOpen; and_intros <;> (repeat' split) <;> simp

@[simp] theorem Part.endCallWith_frame (e : OpenCall) (x : CallEnd) (tail : Option Nat) (p : Part) : (Part.endCallWith e
x tail p).cfg = p.cfg ∧ (Part.endCallWith e x tail p).branch = p.branch ∧ (Part.endCallWith e x tail p).trunkFramer =
p.trunkFramer ∧ (Part.endCallWith e x tail p).labelFramer = p.labelFramer ∧ (Part.endCallWith e x tail p).guestFramer =
p.guestFramer ∧ (Part.endCallWith e x tail p).links = p.links ∧ (Part.endCallWith e x tail p).fwd = p.fwd ∧
(Part.endCallWith e x tail p).pres = p.pres ∧ (Part.endCallWith e x tail p).till = p.till ∧ (Part.endCallWith e x tail
p).jrn = p.jrn ∧ (Part.endCallWith e x tail p).lab = p.lab ∧ (Part.endCallWith e x tail p).gst = p.gst ∧
(Part.endCallWith e x tail p).hdr = p.hdr ∧ (Part.endCallWith e x tail p).memCtr = p.memCtr ∧ (Part.endCallWith e x tail
p).asks = p.asks ∧ (Part.endCallWith e x tail p).dram = p.dram ∧ (Part.endCallWith e x tail p).written = p.written := by
  unfold Part.endCallWith; and_intros <;> (repeat' split) <;> simp

@[simp] theorem Part.endCall_frame (e : OpenCall) (x : CallEnd) (p : Part) : (Part.endCall e x p).cfg = p.cfg ∧
(Part.endCall e x p).branch = p.branch ∧ (Part.endCall e x p).trunkFramer = p.trunkFramer ∧ (Part.endCall e x
p).labelFramer = p.labelFramer ∧ (Part.endCall e x p).guestFramer = p.guestFramer ∧ (Part.endCall e x p).links = p.links
∧ (Part.endCall e x p).fwd = p.fwd ∧ (Part.endCall e x p).pres = p.pres ∧ (Part.endCall e x p).till = p.till ∧
(Part.endCall e x p).jrn = p.jrn ∧ (Part.endCall e x p).lab = p.lab ∧ (Part.endCall e x p).gst = p.gst ∧ (Part.endCall e
x p).hdr = p.hdr ∧ (Part.endCall e x p).memCtr = p.memCtr ∧ (Part.endCall e x p).asks = p.asks ∧ (Part.endCall e x
p).dram = p.dram ∧ (Part.endCall e x p).written = p.written := by
  unfold Part.endCall; and_intros <;> (repeat' split) <;> simp

@[simp] theorem Part.placeCall_frame (o : CallOwner) (peer : StationNo) (r : Request) (p : Part) : (Part.placeCall o
peer r p).2.cfg = p.cfg ∧ (Part.placeCall o peer r p).2.trunkFramer = p.trunkFramer ∧ (Part.placeCall o peer r
p).2.labelFramer = p.labelFramer ∧ (Part.placeCall o peer r p).2.guestFramer = p.guestFramer ∧ (Part.placeCall o peer r
p).2.links = p.links ∧ (Part.placeCall o peer r p).2.pres = p.pres ∧ (Part.placeCall o peer r p).2.till = p.till ∧
(Part.placeCall o peer r p).2.jrn = p.jrn ∧ (Part.placeCall o peer r p).2.lab = p.lab ∧ (Part.placeCall o peer r
p).2.gst = p.gst ∧ (Part.placeCall o peer r p).2.hdr = p.hdr ∧ (Part.placeCall o peer r p).2.memCtr = p.memCtr ∧
(Part.placeCall o peer r p).2.written = p.written := by
  unfold Part.placeCall; refine ⟨?_,?_,?_,?_,?_,?_,?_,?_,?_,?_,?_,?_,?_⟩ <;> ((try dsimp only); (repeat' split) <;> (try simp_all [Prod.ext_iff]) <;> (try (obtain ⟨_, rfl⟩ := ‹_ ∧ _ = (_ : Part)›)) <;> (try simp_all [Prod.ext_iff]) <;> (repeat' split) <;> (try (obtain ⟨_, rfl⟩ := ‹_ ∧ _ = (_ : Part)›)) <;> (try simp_all [Prod.ext_iff]) <;> (repeat' split) <;> (try simp_all))

@[simp] theorem Part.endEarly_frame (tag : Byte) (p : Part) : (Part.endEarly tag p).cfg = p.cfg ∧ (Part.endEarly tag
p).branch = p.branch ∧ (Part.endEarly tag p).trunkFramer = p.trunkFramer ∧ (Part.endEarly tag p).labelFramer =
p.labelFramer ∧ (Part.endEarly tag p).guestFramer = p.guestFramer ∧ (Part.endEarly tag p).links = p.links ∧
(Part.endEarly tag p).fwd = p.fwd ∧ (Part.endEarly tag p).pres = p.pres ∧ (Part.endEarly tag p).price = p.price ∧
(Part.endEarly tag p).till = p.till ∧ (Part.endEarly tag p).jrn = p.jrn ∧ (Part.endEarly tag p).lab = p.lab ∧
(Part.endEarly tag p).gst = p.gst ∧ (Part.endEarly tag p).trk = p.trk ∧ (Part.endEarly tag p).hdr = p.hdr ∧
(Part.endEarly tag p).memCtr = p.memCtr ∧ (Part.endEarly tag p).asks = p.asks ∧ (Part.endEarly tag p).dram = p.dram ∧
(Part.endEarly tag p).written = p.written := by
  unfold Part.endEarly; and_intros <;> (repeat' split) <;> simp

@[simp] theorem Part.setDeferred_frame (d : Deferred) (p : Part) : (Part.setDeferred d p).cfg = p.cfg ∧
(Part.setDeferred d p).branch = p.branch ∧ (Part.setDeferred d p).trunkFramer = p.trunkFramer ∧ (Part.setDeferred d
p).labelFramer = p.labelFramer ∧ (Part.setDeferred d p).guestFramer = p.guestFramer ∧ (Part.setDeferred d p).links =
p.links ∧ (Part.setDeferred d p).fwd = p.fwd ∧ (Part.setDeferred d p).pres = p.pres ∧ (Part.setDeferred d p).price =
p.price ∧ (Part.setDeferred d p).till = p.till ∧ (Part.setDeferred d p).jrn = p.jrn ∧ (Part.setDeferred d p).lab = p.lab
∧ (Part.setDeferred d p).gst = p.gst ∧ (Part.setDeferred d p).trk = p.trk ∧ (Part.setDeferred d p).hdr = p.hdr ∧
(Part.setDeferred d p).memCtr = p.memCtr ∧ (Part.setDeferred d p).asks = p.asks ∧ (Part.setDeferred d p).dram = p.dram ∧
(Part.setDeferred d p).written = p.written := by
  unfold Part.setDeferred; and_intros <;> (repeat' split) <;> simp

@[simp] theorem Part.removeDeferred_frame (d : Deferred) (p : Part) : (Part.removeDeferred d p).cfg = p.cfg ∧
(Part.removeDeferred d p).trunkFramer = p.trunkFramer ∧ (Part.removeDeferred d p).labelFramer = p.labelFramer ∧
(Part.removeDeferred d p).guestFramer = p.guestFramer ∧ (Part.removeDeferred d p).links = p.links ∧ (Part.removeDeferred
d p).pres = p.pres ∧ (Part.removeDeferred d p).price = p.price ∧ (Part.removeDeferred d p).till = p.till ∧
(Part.removeDeferred d p).jrn = p.jrn ∧ (Part.removeDeferred d p).lab = p.lab ∧ (Part.removeDeferred d p).gst = p.gst ∧
(Part.removeDeferred d p).trk = p.trk ∧ (Part.removeDeferred d p).hdr = p.hdr ∧ (Part.removeDeferred d p).memCtr =
p.memCtr ∧ (Part.removeDeferred d p).dram = p.dram ∧ (Part.removeDeferred d p).written = p.written := by
  unfold Part.removeDeferred; and_intros <;> (repeat' split) <;> simp

@[simp] theorem Part.queueRecall_frame (d : Deferred) (p : Part) : (Part.queueRecall d p).cfg = p.cfg ∧
(Part.queueRecall d p).trunkFramer = p.trunkFramer ∧ (Part.queueRecall d p).labelFramer = p.labelFramer ∧
(Part.queueRecall d p).guestFramer = p.guestFramer ∧ (Part.queueRecall d p).links = p.links ∧ (Part.queueRecall d
p).pres = p.pres ∧ (Part.queueRecall d p).price = p.price ∧ (Part.queueRecall d p).till = p.till ∧ (Part.queueRecall d
p).jrn = p.jrn ∧ (Part.queueRecall d p).lab = p.lab ∧ (Part.queueRecall d p).gst = p.gst ∧ (Part.queueRecall d p).trk =
p.trk ∧ (Part.queueRecall d p).hdr = p.hdr ∧ (Part.queueRecall d p).memCtr = p.memCtr ∧ (Part.queueRecall d p).written =
p.written := by
  unfold Part.queueRecall; refine ⟨?_,?_,?_,?_,?_,?_,?_,?_,?_,?_,?_,?_,?_,?_,?_⟩ <;> ((try dsimp only); (repeat' split) <;> (try simp_all [Prod.ext_iff]) <;> (try (obtain ⟨_, rfl⟩ := ‹_ ∧ _ = (_ : Part)›)) <;> (try simp_all [Prod.ext_iff]) <;> (repeat' split) <;> (try (obtain ⟨_, rfl⟩ := ‹_ ∧ _ = (_ : Part)›)) <;> (try simp_all [Prod.ext_iff]) <;> (repeat' split) <;> (try simp_all))

@[simp] theorem Part.queueRecalls_frame (p : Part) : (Part.queueRecalls p).cfg = p.cfg ∧ (Part.queueRecalls
p).trunkFramer = p.trunkFramer ∧ (Part.queueRecalls p).labelFramer = p.labelFramer ∧ (Part.queueRecalls p).guestFramer =
p.guestFramer ∧ (Part.queueRecalls p).links = p.links ∧ (Part.queueRecalls p).pres = p.pres ∧ (Part.queueRecalls
p).price = p.price ∧ (Part.queueRecalls p).till = p.till ∧ (Part.queueRecalls p).jrn = p.jrn ∧ (Part.queueRecalls p).lab
= p.lab ∧ (Part.queueRecalls p).gst = p.gst ∧ (Part.queueRecalls p).trk = p.trk ∧ (Part.queueRecalls p).hdr = p.hdr ∧
(Part.queueRecalls p).memCtr = p.memCtr ∧ (Part.queueRecalls p).written = p.written := by
  unfold Part.queueRecalls
  exact ⟨Eq.trans (foldl_keep Part.cfg _ (fun q x => by (try dsimp only); (repeat' split) <;> (try simp_all)) _ _) (by simp),
    Eq.trans (foldl_keep Part.trunkFramer _ (fun q x => by (try dsimp only); (repeat' split) <;> (try simp_all)) _ _) (by simp),
    Eq.trans (foldl_keep Part.labelFramer _ (fun q x => by (try dsimp only); (repeat' split) <;> (try simp_all)) _ _) (by simp),
    Eq.trans (foldl_keep Part.guestFramer _ (fun q x => by (try dsimp only); (repeat' split) <;> (try simp_all)) _ _) (by simp),
    Eq.trans (foldl_keep Part.links _ (fun q x => by (try dsimp only); (repeat' split) <;> (try simp_all)) _ _) (by simp),
    Eq.trans (foldl_keep Part.pres _ (fun q x => by (try dsimp only); (repeat' split) <;> (try simp_all)) _ _) (by simp),
    Eq.trans (foldl_keep Part.price _ (fun q x => by (try dsimp only); (repeat' split) <;> (try simp_all)) _ _) (by simp),
    Eq.trans (foldl_keep Part.till _ (fun q x => by (try dsimp only); (repeat' split) <;> (try simp_all)) _ _) (by simp),
    Eq.trans (foldl_keep Part.jrn _ (fun q x => by (try dsimp only); (repeat' split) <;> (try simp_all)) _ _) (by simp),
    Eq.trans (foldl_keep Part.lab _ (fun q x => by (try dsimp only); (repeat' split) <;> (try simp_all)) _ _) (by simp),
    Eq.trans (foldl_keep Part.gst _ (fun q x => by (try dsimp only); (repeat' split) <;> (try simp_all)) _ _) (by simp),
    Eq.trans (foldl_keep Part.trk _ (fun q x => by (try dsimp only); (repeat' split) <;> (try simp_all)) _ _) (by simp),
    Eq.trans (foldl_keep Part.hdr _ (fun q x => by (try dsimp only); (repeat' split) <;> (try simp_all)) _ _) (by simp),
    Eq.trans (foldl_keep Part.memCtr _ (fun q x => by (try dsimp only); (repeat' split) <;> (try simp_all)) _ _) (by simp),
    Eq.trans (foldl_keep Part.written _ (fun q x => by (try dsimp only); (repeat' split) <;> (try simp_all)) _ _) (by simp)⟩

@[simp] theorem Part.dropDeferredFor_frame (g : Nat) (p : Part) : (Part.dropDeferredFor g p).cfg = p.cfg ∧
(Part.dropDeferredFor g p).trunkFramer = p.trunkFramer ∧ (Part.dropDeferredFor g p).labelFramer = p.labelFramer ∧
(Part.dropDeferredFor g p).guestFramer = p.guestFramer ∧ (Part.dropDeferredFor g p).links = p.links ∧
(Part.dropDeferredFor g p).pres = p.pres ∧ (Part.dropDeferredFor g p).price = p.price ∧ (Part.dropDeferredFor g p).till
= p.till ∧ (Part.dropDeferredFor g p).jrn = p.jrn ∧ (Part.dropDeferredFor g p).lab = p.lab ∧ (Part.dropDeferredFor g
p).gst = p.gst ∧ (Part.dropDeferredFor g p).trk = p.trk ∧ (Part.dropDeferredFor g p).hdr = p.hdr ∧ (Part.dropDeferredFor
g p).memCtr = p.memCtr ∧ (Part.dropDeferredFor g p).dram = p.dram ∧ (Part.dropDeferredFor g p).written = p.written := by
  unfold Part.dropDeferredFor
  exact ⟨Eq.trans (foldl_keep Part.cfg _ (fun q x => by (try dsimp only); (repeat' split) <;> (try simp_all)) _ _) (by simp),
    Eq.trans (foldl_keep Part.trunkFramer _ (fun q x => by (try dsimp only); (repeat' split) <;> (try simp_all)) _ _) (by simp),
    Eq.trans (foldl_keep Part.labelFramer _ (fun q x => by (try dsimp only); (repeat' split) <;> (try simp_all)) _ _) (by simp),
    Eq.trans (foldl_keep Part.guestFramer _ (fun q x => by (try dsimp only); (repeat' split) <;> (try simp_all)) _ _) (by simp),
    Eq.trans (foldl_keep Part.links _ (fun q x => by (try dsimp only); (repeat' split) <;> (try simp_all)) _ _) (by simp),
    Eq.trans (foldl_keep Part.pres _ (fun q x => by (try dsimp only); (repeat' split) <;> (try simp_all)) _ _) (by simp),
    Eq.trans (foldl_keep Part.price _ (fun q x => by (try dsimp only); (repeat' split) <;> (try simp_all)) _ _) (by simp),
    Eq.trans (foldl_keep Part.till _ (fun q x => by (try dsimp only); (repeat' split) <;> (try simp_all)) _ _) (by simp),
    Eq.trans (foldl_keep Part.jrn _ (fun q x => by (try dsimp only); (repeat' split) <;> (try simp_all)) _ _) (by simp),
    Eq.trans (foldl_keep Part.lab _ (fun q x => by (try dsimp only); (repeat' split) <;> (try simp_all)) _ _) (by simp),
    Eq.trans (foldl_keep Part.gst _ (fun q x => by (try dsimp only); (repeat' split) <;> (try simp_all)) _ _) (by simp),
    Eq.trans (foldl_keep Part.trk _ (fun q x => by (try dsimp only); (repeat' split) <;> (try simp_all)) _ _) (by simp),
    Eq.trans (foldl_keep Part.hdr _ (fun q x => by (try dsimp only); (repeat' split) <;> (try simp_all)) _ _) (by simp),
    Eq.trans (foldl_keep Part.memCtr _ (fun q x => by (try dsimp only); (repeat' split) <;> (try simp_all)) _ _) (by simp),
    Eq.trans (foldl_keep Part.dram _ (fun q x => by (try dsimp only); (repeat' split) <;> (try simp_all)) _ _) (by simp),
    Eq.trans (foldl_keep Part.written _ (fun q x => by (try dsimp only); (repeat' split) <;> (try simp_all)) _ _) (by simp)⟩

@[simp] theorem Part.setMark_frame (i : Nat) (p : Part) : (Part.setMark i p).cfg = p.cfg ∧ (Part.setMark i p).branch =
p.branch ∧ (Part.setMark i p).trunkFramer = p.trunkFramer ∧ (Part.setMark i p).labelFramer = p.labelFramer ∧
(Part.setMark i p).guestFramer = p.guestFramer ∧ (Part.setMark i p).links = p.links ∧ (Part.setMark i p).fwd = p.fwd ∧
(Part.setMark i p).call = p.call ∧ (Part.setMark i p).pres = p.pres ∧ (Part.setMark i p).price = p.price ∧ (Part.setMark
i p).till = p.till ∧ (Part.setMark i p).jrn = p.jrn ∧ (Part.setMark i p).lab = p.lab ∧ (Part.setMark i p).gst = p.gst ∧
(Part.setMark i p).trk = p.trk ∧ (Part.setMark i p).hdr = p.hdr ∧ (Part.setMark i p).memCtr = p.memCtr ∧ (Part.setMark i
p).written = p.written := by
  unfold Part.setMark; and_intros <;> (repeat' split) <;> simp

@[simp] theorem Part.clearMap_frame (u : BurstUser) (p : Part) : (Part.clearMap u p).cfg = p.cfg ∧ (Part.clearMap u
p).branch = p.branch ∧ (Part.clearMap u p).trunkFramer = p.trunkFramer ∧ (Part.clearMap u p).labelFramer = p.labelFramer
∧ (Part.clearMap u p).guestFramer = p.guestFramer ∧ (Part.clearMap u p).links = p.links ∧ (Part.clearMap u p).fwd =
p.fwd ∧ (Part.clearMap u p).call = p.call ∧ (Part.clearMap u p).pres = p.pres ∧ (Part.clearMap u p).price = p.price ∧
(Part.clearMap u p).till = p.till ∧ (Part.clearMap u p).jrn = p.jrn ∧ (Part.clearMap u p).lab = p.lab ∧ (Part.clearMap u
p).gst = p.gst ∧ (Part.clearMap u p).trk = p.trk ∧ (Part.clearMap u p).hdr = p.hdr ∧ (Part.clearMap u p).memCtr =
p.memCtr ∧ (Part.clearMap u p).written = p.written := by
  unfold Part.clearMap; and_intros <;> (repeat' split) <;> simp

@[simp] theorem Part.readFull_frame (n : Nat) (p : Part) : (Part.readFull n p).2.cfg = p.cfg ∧ (Part.readFull n
p).2.branch = p.branch ∧ (Part.readFull n p).2.trunkFramer = p.trunkFramer ∧ (Part.readFull n p).2.labelFramer =
p.labelFramer ∧ (Part.readFull n p).2.guestFramer = p.guestFramer ∧ (Part.readFull n p).2.links = p.links ∧
(Part.readFull n p).2.fwd = p.fwd ∧ (Part.readFull n p).2.call = p.call ∧ (Part.readFull n p).2.pres = p.pres ∧
(Part.readFull n p).2.price = p.price ∧ (Part.readFull n p).2.till = p.till ∧ (Part.readFull n p).2.jrn = p.jrn ∧
(Part.readFull n p).2.lab = p.lab ∧ (Part.readFull n p).2.gst = p.gst ∧ (Part.readFull n p).2.trk = p.trk ∧
(Part.readFull n p).2.hdr = p.hdr ∧ (Part.readFull n p).2.memCtr = p.memCtr ∧ (Part.readFull n p).2.dram = p.dram ∧
(Part.readFull n p).2.written = p.written := by
  unfold Part.readFull; refine ⟨?_,?_,?_,?_,?_,?_,?_,?_,?_,?_,?_,?_,?_,?_,?_,?_,?_,?_,?_⟩ <;> ((try dsimp only); (repeat' split) <;> (try simp_all [Prod.ext_iff]) <;> (try (obtain ⟨_, rfl⟩ := ‹_ ∧ _ = (_ : Part)›)) <;> (try simp_all [Prod.ext_iff]) <;> (repeat' split) <;> (try (obtain ⟨_, rfl⟩ := ‹_ ∧ _ = (_ : Part)›)) <;> (try simp_all [Prod.ext_iff]) <;> (repeat' split) <;> (try simp_all))

@[simp] theorem Part.modStaging_frame (f : Staging → Staging) (p : Part) : (Part.modStaging f p).cfg = p.cfg ∧
(Part.modStaging f p).branch = p.branch ∧ (Part.modStaging f p).trunkFramer = p.trunkFramer ∧ (Part.modStaging f
p).labelFramer = p.labelFramer ∧ (Part.modStaging f p).guestFramer = p.guestFramer ∧ (Part.modStaging f p).links =
p.links ∧ (Part.modStaging f p).fwd = p.fwd ∧ (Part.modStaging f p).call = p.call ∧ (Part.modStaging f p).pres = p.pres
∧ (Part.modStaging f p).till = p.till ∧ (Part.modStaging f p).jrn = p.jrn ∧ (Part.modStaging f p).lab = p.lab ∧
(Part.modStaging f p).gst = p.gst ∧ (Part.modStaging f p).trk = p.trk ∧ (Part.modStaging f p).hdr = p.hdr ∧
(Part.modStaging f p).memCtr = p.memCtr ∧ (Part.modStaging f p).asks = p.asks ∧ (Part.modStaging f p).dram = p.dram ∧
(Part.modStaging f p).written = p.written := by
  unfold Part.modStaging; and_intros <;> (repeat' split) <;> simp

@[simp] theorem Part.stagingTo_frame (st : StagingState) (p : Part) : (Part.stagingTo st p).cfg = p.cfg ∧
(Part.stagingTo st p).branch = p.branch ∧ (Part.stagingTo st p).trunkFramer = p.trunkFramer ∧ (Part.stagingTo st
p).labelFramer = p.labelFramer ∧ (Part.stagingTo st p).guestFramer = p.guestFramer ∧ (Part.stagingTo st p).links =
p.links ∧ (Part.stagingTo st p).fwd = p.fwd ∧ (Part.stagingTo st p).call = p.call ∧ (Part.stagingTo st p).pres = p.pres
∧ (Part.stagingTo st p).till = p.till ∧ (Part.stagingTo st p).jrn = p.jrn ∧ (Part.stagingTo st p).lab = p.lab ∧
(Part.stagingTo st p).gst = p.gst ∧ (Part.stagingTo st p).trk = p.trk ∧ (Part.stagingTo st p).memCtr = p.memCtr ∧
(Part.stagingTo st p).dram = p.dram ∧ (Part.stagingTo st p).written = p.written := by
  unfold Part.stagingTo; and_intros <;> (repeat' split) <;> simp

@[simp] theorem Part.removeStaging_frame (p : Part) : (Part.removeStaging p).cfg = p.cfg ∧ (Part.removeStaging
p).trunkFramer = p.trunkFramer ∧ (Part.removeStaging p).labelFramer = p.labelFramer ∧ (Part.removeStaging p).guestFramer
= p.guestFramer ∧ (Part.removeStaging p).links = p.links ∧ (Part.removeStaging p).pres = p.pres ∧ (Part.removeStaging
p).till = p.till ∧ (Part.removeStaging p).jrn = p.jrn ∧ (Part.removeStaging p).lab = p.lab ∧ (Part.removeStaging p).gst
= p.gst ∧ (Part.removeStaging p).trk = p.trk ∧ (Part.removeStaging p).hdr = p.hdr ∧ (Part.removeStaging p).memCtr =
p.memCtr ∧ (Part.removeStaging p).written = p.written := by
  unfold Part.removeStaging; dsimp only; and_intros <;> (repeat' split) <;> simp_all [Prod.ext_iff]

@[simp] theorem Part.discard_frame (d : Discard) (p : Part) : (Part.discard d p).cfg = p.cfg ∧ (Part.discard d
p).trunkFramer = p.trunkFramer ∧ (Part.discard d p).labelFramer = p.labelFramer ∧ (Part.discard d p).guestFramer =
p.guestFramer ∧ (Part.discard d p).links = p.links ∧ (Part.discard d p).pres = p.pres ∧ (Part.discard d p).till = p.till
∧ (Part.discard d p).jrn = p.jrn ∧ (Part.discard d p).lab = p.lab ∧ (Part.discard d p).gst = p.gst ∧ (Part.discard d
p).trk = p.trk ∧ (Part.discard d p).memCtr = p.memCtr ∧ (Part.discard d p).written = p.written := by
  unfold Part.discard; and_intros <;> (repeat' split) <;> simp

@[simp] theorem Part.checkTrigger_frame (p : Part) : (Part.checkTrigger p).cfg = p.cfg ∧ (Part.checkTrigger p).branch =
p.branch ∧ (Part.checkTrigger p).trunkFramer = p.trunkFramer ∧ (Part.checkTrigger p).labelFramer = p.labelFramer ∧
(Part.checkTrigger p).guestFramer = p.guestFramer ∧ (Part.checkTrigger p).links = p.links ∧ (Part.checkTrigger p).fwd =
p.fwd ∧ (Part.checkTrigger p).call = p.call ∧ (Part.checkTrigger p).pres = p.pres ∧ (Part.checkTrigger p).till = p.till
∧ (Part.checkTrigger p).jrn = p.jrn ∧ (Part.checkTrigger p).lab = p.lab ∧ (Part.checkTrigger p).gst = p.gst ∧
(Part.checkTrigger p).trk = p.trk ∧ (Part.checkTrigger p).hdr = p.hdr ∧ (Part.checkTrigger p).memCtr = p.memCtr ∧
(Part.checkTrigger p).asks = p.asks ∧ (Part.checkTrigger p).dram = p.dram ∧ (Part.checkTrigger p).written = p.written := by
  unfold Part.checkTrigger; and_intros <;> (repeat' split) <;> simp

@[simp] theorem Part.complete_frame (p : Part) : (Part.complete p).cfg = p.cfg ∧ (Part.complete p).trunkFramer =
p.trunkFramer ∧ (Part.complete p).labelFramer = p.labelFramer ∧ (Part.complete p).guestFramer = p.guestFramer ∧
(Part.complete p).links = p.links ∧ (Part.complete p).pres = p.pres ∧ (Part.complete p).till = p.till ∧ (Part.complete
p).jrn = p.jrn ∧ (Part.complete p).lab = p.lab ∧ (Part.complete p).gst = p.gst ∧ (Part.complete p).trk = p.trk ∧
(Part.complete p).memCtr = p.memCtr ∧ (Part.complete p).written = p.written := by
  unfold Part.complete; refine ⟨?_,?_,?_,?_,?_,?_,?_,?_,?_,?_,?_,?_,?_⟩ <;> ((try dsimp only); (repeat' split) <;> (try simp_all [Prod.ext_iff]) <;> (try (obtain ⟨_, rfl⟩ := ‹_ ∧ _ = (_ : Part)›)) <;> (try simp_all [Prod.ext_iff]) <;> (repeat' split) <;> (try (obtain ⟨_, rfl⟩ := ‹_ ∧ _ = (_ : Part)›)) <;> (try simp_all [Prod.ext_iff]) <;> (repeat' split) <;> (try simp_all))

@[simp] theorem Part.decideStaging_frame (p : Part) : (Part.decideStaging p).cfg = p.cfg ∧ (Part.decideStaging
p).trunkFramer = p.trunkFramer ∧ (Part.decideStaging p).labelFramer = p.labelFramer ∧ (Part.decideStaging p).guestFramer
= p.guestFramer ∧ (Part.decideStaging p).links = p.links ∧ (Part.decideStaging p).pres = p.pres ∧ (Part.decideStaging
p).till = p.till ∧ (Part.decideStaging p).jrn = p.jrn ∧ (Part.decideStaging p).lab = p.lab ∧ (Part.decideStaging p).gst
= p.gst ∧ (Part.decideStaging p).trk = p.trk ∧ (Part.decideStaging p).memCtr = p.memCtr ∧ (Part.decideStaging p).written
= p.written := by
  unfold Part.decideStaging; and_intros <;> (repeat' split) <;> simp

@[simp] theorem Part.decideFull_frame (p : Part) : (Part.decideFull p).cfg = p.cfg ∧ (Part.decideFull p).trunkFramer =
p.trunkFramer ∧ (Part.decideFull p).labelFramer = p.labelFramer ∧ (Part.decideFull p).guestFramer = p.guestFramer ∧
(Part.decideFull p).links = p.links ∧ (Part.decideFull p).pres = p.pres ∧ (Part.decideFull p).till = p.till ∧
(Part.decideFull p).jrn = p.jrn ∧ (Part.decideFull p).lab = p.lab ∧ (Part.decideFull p).gst = p.gst ∧ (Part.decideFull
p).trk = p.trk ∧ (Part.decideFull p).memCtr = p.memCtr ∧ (Part.decideFull p).written = p.written := by
  unfold Part.decideFull; dsimp only; and_intros <;> (repeat' split) <;> simp_all [Prod.ext_iff]

@[simp] theorem Part.stageAt_frame (i : Nat) (bs : Bytes) (p : Part) : (Part.stageAt i bs p).cfg = p.cfg ∧ (Part.stageAt
i bs p).trunkFramer = p.trunkFramer ∧ (Part.stageAt i bs p).labelFramer = p.labelFramer ∧ (Part.stageAt i bs
p).guestFramer = p.guestFramer ∧ (Part.stageAt i bs p).links = p.links ∧ (Part.stageAt i bs p).pres = p.pres ∧
(Part.stageAt i bs p).till = p.till ∧ (Part.stageAt i bs p).jrn = p.jrn ∧ (Part.stageAt i bs p).lab = p.lab ∧
(Part.stageAt i bs p).gst = p.gst ∧ (Part.stageAt i bs p).trk = p.trk ∧ (Part.stageAt i bs p).memCtr = p.memCtr ∧
(Part.stageAt i bs p).written = p.written := by
  unfold Part.stageAt; dsimp only; and_intros <;> (repeat' split) <;> simp_all [Prod.ext_iff]

@[simp] theorem Part.stageRecord_frame (gen : Nat) (i : Nat) (bs : Bytes) (p : Part) : (Part.stageRecord gen i bs p).cfg
= p.cfg ∧ (Part.stageRecord gen i bs p).trunkFramer = p.trunkFramer ∧ (Part.stageRecord gen i bs p).labelFramer =
p.labelFramer ∧ (Part.stageRecord gen i bs p).guestFramer = p.guestFramer ∧ (Part.stageRecord gen i bs p).links =
p.links ∧ (Part.stageRecord gen i bs p).pres = p.pres ∧ (Part.stageRecord gen i bs p).till = p.till ∧ (Part.stageRecord
gen i bs p).jrn = p.jrn ∧ (Part.stageRecord gen i bs p).lab = p.lab ∧ (Part.stageRecord gen i bs p).gst = p.gst ∧
(Part.stageRecord gen i bs p).trk = p.trk ∧ (Part.stageRecord gen i bs p).memCtr = p.memCtr ∧ (Part.stageRecord gen i bs
p).written = p.written := by
  unfold Part.stageRecord; dsimp only; and_intros <;> (repeat' split) <;> simp_all [Prod.ext_iff]

@[simp] theorem Part.stageRecords_frame (gen : Nat) (x1 : Nat) (x2 : List Bytes) (x3 : Part) : (Part.stageRecords gen x1
x2 x3).cfg = x3.cfg ∧ (Part.stageRecords gen x1 x2 x3).trunkFramer = x3.trunkFramer ∧ (Part.stageRecords gen x1 x2
x3).labelFramer = x3.labelFramer ∧ (Part.stageRecords gen x1 x2 x3).guestFramer = x3.guestFramer ∧ (Part.stageRecords
gen x1 x2 x3).links = x3.links ∧ (Part.stageRecords gen x1 x2 x3).pres = x3.pres ∧ (Part.stageRecords gen x1 x2 x3).till
= x3.till ∧ (Part.stageRecords gen x1 x2 x3).jrn = x3.jrn ∧ (Part.stageRecords gen x1 x2 x3).lab = x3.lab ∧
(Part.stageRecords gen x1 x2 x3).gst = x3.gst ∧ (Part.stageRecords gen x1 x2 x3).trk = x3.trk ∧ (Part.stageRecords gen
x1 x2 x3).memCtr = x3.memCtr ∧ (Part.stageRecords gen x1 x2 x3).written = x3.written := by
  induction x2 generalizing x3 x1 with
  | nil => simp [Part.stageRecords]
  | cons r rs ih => unfold Part.stageRecords; refine ⟨?_,?_,?_,?_,?_,?_,?_,?_,?_,?_,?_,?_,?_⟩ <;> ((try dsimp only); (repeat' split) <;> (try simp_all [Prod.ext_iff]) <;> (try (obtain ⟨_, rfl⟩ := ‹_ ∧ _ = (_ : Part)›)) <;> (try simp_all [Prod.ext_iff]) <;> (repeat' split) <;> (try (obtain ⟨_, rfl⟩ := ‹_ ∧ _ = (_ : Part)›)) <;> (try simp_all [Prod.ext_iff]) <;> (repeat' split) <;> (try simp_all))

@[simp] theorem Part.takeFetchEnd_frame (c : Completion) (p : Part) : (Part.takeFetchEnd c p).cfg = p.cfg ∧
(Part.takeFetchEnd c p).branch = p.branch ∧ (Part.takeFetchEnd c p).trunkFramer = p.trunkFramer ∧ (Part.takeFetchEnd c
p).labelFramer = p.labelFramer ∧ (Part.takeFetchEnd c p).guestFramer = p.guestFramer ∧ (Part.takeFetchEnd c p).links =
p.links ∧ (Part.takeFetchEnd c p).fwd = p.fwd ∧ (Part.takeFetchEnd c p).call = p.call ∧ (Part.takeFetchEnd c p).pres =
p.pres ∧ (Part.takeFetchEnd c p).till = p.till ∧ (Part.takeFetchEnd c p).jrn = p.jrn ∧ (Part.takeFetchEnd c p).lab =
p.lab ∧ (Part.takeFetchEnd c p).gst = p.gst ∧ (Part.takeFetchEnd c p).trk = p.trk ∧ (Part.takeFetchEnd c p).hdr = p.hdr
∧ (Part.takeFetchEnd c p).memCtr = p.memCtr ∧ (Part.takeFetchEnd c p).asks = p.asks ∧ (Part.takeFetchEnd c p).dram =
p.dram ∧ (Part.takeFetchEnd c p).written = p.written := by
  unfold Part.takeFetchEnd; dsimp only; and_intros <;> (repeat' split) <;> simp_all [Prod.ext_iff]

@[simp] theorem Part.drainFetchEnds_frame (x1 : Nat) (x2 : Part) : (Part.drainFetchEnds x1 x2).2.cfg = x2.cfg ∧
(Part.drainFetchEnds x1 x2).2.branch = x2.branch ∧ (Part.drainFetchEnds x1 x2).2.trunkFramer = x2.trunkFramer ∧
(Part.drainFetchEnds x1 x2).2.labelFramer = x2.labelFramer ∧ (Part.drainFetchEnds x1 x2).2.guestFramer = x2.guestFramer
∧ (Part.drainFetchEnds x1 x2).2.links = x2.links ∧ (Part.drainFetchEnds x1 x2).2.fwd = x2.fwd ∧ (Part.drainFetchEnds x1
x2).2.call = x2.call ∧ (Part.drainFetchEnds x1 x2).2.pres = x2.pres ∧ (Part.drainFetchEnds x1 x2).2.till = x2.till ∧
(Part.drainFetchEnds x1 x2).2.jrn = x2.jrn ∧ (Part.drainFetchEnds x1 x2).2.lab = x2.lab ∧ (Part.drainFetchEnds x1
x2).2.gst = x2.gst ∧ (Part.drainFetchEnds x1 x2).2.trk = x2.trk ∧ (Part.drainFetchEnds x1 x2).2.hdr = x2.hdr ∧
(Part.drainFetchEnds x1 x2).2.memCtr = x2.memCtr ∧ (Part.drainFetchEnds x1 x2).2.asks = x2.asks ∧ (Part.drainFetchEnds
x1 x2).2.dram = x2.dram ∧ (Part.drainFetchEnds x1 x2).2.written = x2.written := by
  induction x1 generalizing x2 with
  | zero => simp [Part.drainFetchEnds]
  | succ n ih => unfold Part.drainFetchEnds; refine ⟨?_,?_,?_,?_,?_,?_,?_,?_,?_,?_,?_,?_,?_,?_,?_,?_,?_,?_,?_⟩ <;> ((try dsimp only); (repeat' split) <;> (try simp_all [Prod.ext_iff]) <;> (try (obtain ⟨_, rfl⟩ := ‹_ ∧ _ = (_ : Part)›)) <;> (try simp_all [Prod.ext_iff]) <;> (repeat' split) <;> (try (obtain ⟨_, rfl⟩ := ‹_ ∧ _ = (_ : Part)›)) <;> (try simp_all [Prod.ext_iff]) <;> (repeat' split) <;> (try simp_all))

@[simp] theorem Part.placeFetch_frame (p : Part) : (Part.placeFetch p).2.cfg = p.cfg ∧ (Part.placeFetch p).2.trunkFramer
= p.trunkFramer ∧ (Part.placeFetch p).2.labelFramer = p.labelFramer ∧ (Part.placeFetch p).2.guestFramer = p.guestFramer
∧ (Part.placeFetch p).2.links = p.links ∧ (Part.placeFetch p).2.pres = p.pres ∧ (Part.placeFetch p).2.till = p.till ∧
(Part.placeFetch p).2.jrn = p.jrn ∧ (Part.placeFetch p).2.lab = p.lab ∧ (Part.placeFetch p).2.gst = p.gst ∧
(Part.placeFetch p).2.hdr = p.hdr ∧ (Part.placeFetch p).2.memCtr = p.memCtr ∧ (Part.placeFetch p).2.written = p.written
:= by
  unfold Part.placeFetch; refine ⟨?_,?_,?_,?_,?_,?_,?_,?_,?_,?_,?_,?_,?_⟩ <;> ((try dsimp only); (repeat' split) <;> (try simp_all [Prod.ext_iff]) <;> (try (obtain ⟨_, rfl⟩ := ‹_ ∧ _ = (_ : Part)›)) <;> (try simp_all [Prod.ext_iff]) <;> (repeat' split) <;> (try (obtain ⟨_, rfl⟩ := ‹_ ∧ _ = (_ : Part)›)) <;> (try simp_all [Prod.ext_iff]) <;> (repeat' split) <;> (try simp_all))

@[simp] theorem Part.checkFetch_frame (p : Part) : (Part.checkFetch p).cfg = p.cfg ∧ (Part.checkFetch p).trunkFramer =
p.trunkFramer ∧ (Part.checkFetch p).labelFramer = p.labelFramer ∧ (Part.checkFetch p).guestFramer = p.guestFramer ∧
(Part.checkFetch p).links = p.links ∧ (Part.checkFetch p).pres = p.pres ∧ (Part.checkFetch p).till = p.till ∧
(Part.checkFetch p).jrn = p.jrn ∧ (Part.checkFetch p).lab = p.lab ∧ (Part.checkFetch p).gst = p.gst ∧ (Part.checkFetch
p).hdr = p.hdr ∧ (Part.checkFetch p).memCtr = p.memCtr ∧ (Part.checkFetch p).written = p.written := by
  unfold Part.checkFetch; refine ⟨?_,?_,?_,?_,?_,?_,?_,?_,?_,?_,?_,?_,?_⟩ <;> ((try dsimp only); (repeat' split) <;> (try simp_all [Prod.ext_iff]) <;> (try (obtain ⟨_, rfl⟩ := ‹_ ∧ _ = (_ : Part)›)) <;> (try simp_all [Prod.ext_iff]) <;> (repeat' split) <;> (try (obtain ⟨_, rfl⟩ := ‹_ ∧ _ = (_ : Part)›)) <;> (try simp_all [Prod.ext_iff]) <;> (repeat' split) <;> (try simp_all))

@[simp] theorem Part.fetchesEnded_frame (p : Part) : (Part.fetchesEnded p).cfg = p.cfg ∧ (Part.fetchesEnded
p).trunkFramer = p.trunkFramer ∧ (Part.fetchesEnded p).labelFramer = p.labelFramer ∧ (Part.fetchesEnded p).guestFramer =
p.guestFramer ∧ (Part.fetchesEnded p).links = p.links ∧ (Part.fetchesEnded p).pres = p.pres ∧ (Part.fetchesEnded p).till
= p.till ∧ (Part.fetchesEnded p).jrn = p.jrn ∧ (Part.fetchesEnded p).lab = p.lab ∧ (Part.fetchesEnded p).gst = p.gst ∧
(Part.fetchesEnded p).hdr = p.hdr ∧ (Part.fetchesEnded p).memCtr = p.memCtr ∧ (Part.fetchesEnded p).written = p.written
:= by
  unfold Part.fetchesEnded; dsimp only; and_intros <;> (repeat' split) <;> simp_all [Prod.ext_iff]

@[simp] theorem Part.enterGaps_frame (p : Part) : (Part.enterGaps p).cfg = p.cfg ∧ (Part.enterGaps p).trunkFramer =
p.trunkFramer ∧ (Part.enterGaps p).labelFramer = p.labelFramer ∧ (Part.enterGaps p).guestFramer = p.guestFramer ∧
(Part.enterGaps p).links = p.links ∧ (Part.enterGaps p).pres = p.pres ∧ (Part.enterGaps p).till = p.till ∧
(Part.enterGaps p).jrn = p.jrn ∧ (Part.enterGaps p).lab = p.lab ∧ (Part.enterGaps p).gst = p.gst ∧ (Part.enterGaps
p).memCtr = p.memCtr ∧ (Part.enterGaps p).written = p.written := by
  unfold Part.enterGaps; and_intros <;> (repeat' split) <;> simp

@[simp] theorem Part.takeHead_frame (b : Bytes) (p : Part) : (Part.takeHead b p).cfg = p.cfg ∧ (Part.takeHead b
p).trunkFramer = p.trunkFramer ∧ (Part.takeHead b p).labelFramer = p.labelFramer ∧ (Part.takeHead b p).guestFramer =
p.guestFramer ∧ (Part.takeHead b p).links = p.links ∧ (Part.takeHead b p).pres = p.pres ∧ (Part.takeHead b p).till =
p.till ∧ (Part.takeHead b p).jrn = p.jrn ∧ (Part.takeHead b p).lab = p.lab ∧ (Part.takeHead b p).gst = p.gst ∧
(Part.takeHead b p).trk = p.trk ∧ (Part.takeHead b p).memCtr = p.memCtr ∧ (Part.takeHead b p).written = p.written := by
  unfold Part.takeHead; dsimp only; and_intros <;> (repeat' split) <;> simp_all [Prod.ext_iff]

@[simp] theorem Part.takePart_frame (b : Bytes) (p : Part) : (Part.takePart b p).cfg = p.cfg ∧ (Part.takePart b
p).trunkFramer = p.trunkFramer ∧ (Part.takePart b p).labelFramer = p.labelFramer ∧ (Part.takePart b p).guestFramer =
p.guestFramer ∧ (Part.takePart b p).links = p.links ∧ (Part.takePart b p).pres = p.pres ∧ (Part.takePart b p).till =
p.till ∧ (Part.takePart b p).jrn = p.jrn ∧ (Part.takePart b p).lab = p.lab ∧ (Part.takePart b p).gst = p.gst ∧
(Part.takePart b p).trk = p.trk ∧ (Part.takePart b p).memCtr = p.memCtr ∧ (Part.takePart b p).written = p.written := by
  unfold Part.takePart; dsimp only; and_intros <;> (repeat' split) <;> simp_all [Prod.ext_iff]

@[simp] theorem Part.takeEnd_frame (b : Bytes) (p : Part) : (Part.takeEnd b p).cfg = p.cfg ∧ (Part.takeEnd b
p).trunkFramer = p.trunkFramer ∧ (Part.takeEnd b p).labelFramer = p.labelFramer ∧ (Part.takeEnd b p).guestFramer =
p.guestFramer ∧ (Part.takeEnd b p).links = p.links ∧ (Part.takeEnd b p).pres = p.pres ∧ (Part.takeEnd b p).till = p.till
∧ (Part.takeEnd b p).jrn = p.jrn ∧ (Part.takeEnd b p).lab = p.lab ∧ (Part.takeEnd b p).gst = p.gst ∧ (Part.takeEnd b
p).memCtr = p.memCtr ∧ (Part.takeEnd b p).written = p.written := by
  unfold Part.takeEnd; dsimp only; and_intros <;> (repeat' split) <;> simp_all [Prod.ext_iff]

@[simp] theorem Part.syncOrder_frame (g : Nat) (p : Part) : (Part.syncOrder g p).cfg = p.cfg ∧ (Part.syncOrder g
p).trunkFramer = p.trunkFramer ∧ (Part.syncOrder g p).labelFramer = p.labelFramer ∧ (Part.syncOrder g p).guestFramer =
p.guestFramer ∧ (Part.syncOrder g p).links = p.links ∧ (Part.syncOrder g p).pres = p.pres ∧ (Part.syncOrder g p).till =
p.till ∧ (Part.syncOrder g p).jrn = p.jrn ∧ (Part.syncOrder g p).lab = p.lab ∧ (Part.syncOrder g p).gst = p.gst ∧
(Part.syncOrder g p).memCtr = p.memCtr ∧ (Part.syncOrder g p).written = p.written := by
  unfold Part.syncOrder; refine ⟨?_,?_,?_,?_,?_,?_,?_,?_,?_,?_,?_,?_⟩ <;> ((try dsimp only); (repeat' split) <;> (try simp_all [Prod.ext_iff]) <;> (try (obtain ⟨_, rfl⟩ := ‹_ ∧ _ = (_ : Part)›)) <;> (try simp_all [Prod.ext_iff]) <;> (repeat' split) <;> (try (obtain ⟨_, rfl⟩ := ‹_ ∧ _ = (_ : Part)›)) <;> (try simp_all [Prod.ext_iff]) <;> (repeat' split) <;> (try simp_all))

@[simp] theorem Part.walkOn_frame (ended : Bool) (p : Part) : (Part.walkOn ended p).cfg = p.cfg ∧ (Part.walkOn ended
p).branch = p.branch ∧ (Part.walkOn ended p).trunkFramer = p.trunkFramer ∧ (Part.walkOn ended p).labelFramer =
p.labelFramer ∧ (Part.walkOn ended p).guestFramer = p.guestFramer ∧ (Part.walkOn ended p).links = p.links ∧ (Part.walkOn
ended p).fwd = p.fwd ∧ (Part.walkOn ended p).call = p.call ∧ (Part.walkOn ended p).pres = p.pres ∧ (Part.walkOn ended
p).price = p.price ∧ (Part.walkOn ended p).till = p.till ∧ (Part.walkOn ended p).jrn = p.jrn ∧ (Part.walkOn ended p).lab
= p.lab ∧ (Part.walkOn ended p).gst = p.gst ∧ (Part.walkOn ended p).trk = p.trk ∧ (Part.walkOn ended p).hdr = p.hdr ∧
(Part.walkOn ended p).memCtr = p.memCtr ∧ (Part.walkOn ended p).written = p.written := by
  unfold Part.walkOn; refine ⟨?_,?_,?_,?_,?_,?_,?_,?_,?_,?_,?_,?_,?_,?_,?_,?_,?_,?_⟩ <;> ((try dsimp only); (repeat' split) <;> (try simp_all [Prod.ext_iff]) <;> (try (obtain ⟨_, rfl⟩ := ‹_ ∧ _ = (_ : Part)›)) <;> (try simp_all [Prod.ext_iff]) <;> (repeat' split) <;> (try (obtain ⟨_, rfl⟩ := ‹_ ∧ _ = (_ : Part)›)) <;> (try simp_all [Prod.ext_iff]) <;> (repeat' split) <;> (try simp_all))

@[simp] theorem Part.beginWalk_frame (p : Part) : (Part.beginWalk p).cfg = p.cfg ∧ (Part.beginWalk p).branch = p.branch
∧ (Part.beginWalk p).trunkFramer = p.trunkFramer ∧ (Part.beginWalk p).labelFramer = p.labelFramer ∧ (Part.beginWalk
p).guestFramer = p.guestFramer ∧ (Part.beginWalk p).links = p.links ∧ (Part.beginWalk p).fwd = p.fwd ∧ (Part.beginWalk
p).call = p.call ∧ (Part.beginWalk p).pres = p.pres ∧ (Part.beginWalk p).till = p.till ∧ (Part.beginWalk p).jrn = p.jrn
∧ (Part.beginWalk p).lab = p.lab ∧ (Part.beginWalk p).gst = p.gst ∧ (Part.beginWalk p).trk = p.trk ∧ (Part.beginWalk
p).hdr = p.hdr ∧ (Part.beginWalk p).memCtr = p.memCtr ∧ (Part.beginWalk p).written = p.written := by
  unfold Part.beginWalk; dsimp only; and_intros <;> (repeat' split) <;> simp_all [Prod.ext_iff]

@[simp] theorem Part.mergeStep_frame (p : Part) : (Part.mergeStep p).cfg = p.cfg ∧ (Part.mergeStep p).trunkFramer =
p.trunkFramer ∧ (Part.mergeStep p).labelFramer = p.labelFramer ∧ (Part.mergeStep p).guestFramer = p.guestFramer ∧
(Part.mergeStep p).links = p.links ∧ (Part.mergeStep p).pres = p.pres ∧ (Part.mergeStep p).till = p.till ∧
(Part.mergeStep p).jrn = p.jrn ∧ (Part.mergeStep p).lab = p.lab ∧ (Part.mergeStep p).gst = p.gst ∧ (Part.mergeStep
p).trk = p.trk ∧ (Part.mergeStep p).memCtr = p.memCtr ∧ (Part.mergeStep p).written = p.written := by
  unfold Part.mergeStep; dsimp only; and_intros <;> (repeat' split) <;> simp_all [Prod.ext_iff]

@[simp] theorem Part.walkDone_frame (p : Part) : (Part.walkDone p).cfg = p.cfg ∧ (Part.walkDone p).branch = p.branch ∧
(Part.walkDone p).trunkFramer = p.trunkFramer ∧ (Part.walkDone p).labelFramer = p.labelFramer ∧ (Part.walkDone
p).guestFramer = p.guestFramer ∧ (Part.walkDone p).links = p.links ∧ (Part.walkDone p).fwd = p.fwd ∧ (Part.walkDone
p).call = p.call ∧ (Part.walkDone p).pres = p.pres ∧ (Part.walkDone p).till = p.till ∧ (Part.walkDone p).jrn = p.jrn ∧
(Part.walkDone p).lab = p.lab ∧ (Part.walkDone p).gst = p.gst ∧ (Part.walkDone p).trk = p.trk ∧ (Part.walkDone p).memCtr
= p.memCtr ∧ (Part.walkDone p).dram = p.dram ∧ (Part.walkDone p).written = p.written := by
  unfold Part.walkDone; and_intros <;> (repeat' split) <;> simp

@[simp] theorem Part.switchBank_frame (holds : Nat) (p : Part) : (Part.switchBank holds p).cfg = p.cfg ∧
(Part.switchBank holds p).branch = p.branch ∧ (Part.switchBank holds p).trunkFramer = p.trunkFramer ∧ (Part.switchBank
holds p).labelFramer = p.labelFramer ∧ (Part.switchBank holds p).guestFramer = p.guestFramer ∧ (Part.switchBank holds
p).links = p.links ∧ (Part.switchBank holds p).fwd = p.fwd ∧ (Part.switchBank holds p).call = p.call ∧ (Part.switchBank
holds p).pres = p.pres ∧ (Part.switchBank holds p).till = p.till ∧ (Part.switchBank holds p).lab = p.lab ∧
(Part.switchBank holds p).gst = p.gst ∧ (Part.switchBank holds p).trk = p.trk ∧ (Part.switchBank holds p).hdr = p.hdr ∧
(Part.switchBank holds p).memCtr = p.memCtr ∧ (Part.switchBank holds p).written = p.written := by
  unfold Part.switchBank; and_intros <;> (repeat' split) <;> simp

@[simp] theorem Part.takeWaitingSync_frame (p : Part) : (Part.takeWaitingSync p).cfg = p.cfg ∧ (Part.takeWaitingSync
p).trunkFramer = p.trunkFramer ∧ (Part.takeWaitingSync p).labelFramer = p.labelFramer ∧ (Part.takeWaitingSync
p).guestFramer = p.guestFramer ∧ (Part.takeWaitingSync p).links = p.links ∧ (Part.takeWaitingSync p).pres = p.pres ∧
(Part.takeWaitingSync p).till = p.till ∧ (Part.takeWaitingSync p).jrn = p.jrn ∧ (Part.takeWaitingSync p).lab = p.lab ∧
(Part.takeWaitingSync p).gst = p.gst ∧ (Part.takeWaitingSync p).memCtr = p.memCtr ∧ (Part.takeWaitingSync p).written =
p.written := by
  unfold Part.takeWaitingSync; and_intros <;> (repeat' split) <;> simp

@[simp] theorem Part.holdPass_frame (p : Part) : (Part.holdPass p).cfg = p.cfg ∧ (Part.holdPass p).branch = p.branch ∧
(Part.holdPass p).trunkFramer = p.trunkFramer ∧ (Part.holdPass p).labelFramer = p.labelFramer ∧ (Part.holdPass
p).guestFramer = p.guestFramer ∧ (Part.holdPass p).links = p.links ∧ (Part.holdPass p).fwd = p.fwd ∧ (Part.holdPass
p).call = p.call ∧ (Part.holdPass p).pres = p.pres ∧ (Part.holdPass p).till = p.till ∧ (Part.holdPass p).jrn = p.jrn ∧
(Part.holdPass p).lab = p.lab ∧ (Part.holdPass p).gst = p.gst ∧ (Part.holdPass p).trk = p.trk ∧ (Part.holdPass p).hdr =
p.hdr ∧ (Part.holdPass p).memCtr = p.memCtr ∧ (Part.holdPass p).written = p.written := by
  exact ⟨Part.passEntries_keep Part.cfg (fun _ _ _ _ _ => by simp) (fun _ => by simp) _ (fun e q => by (repeat' split) <;> simp_all) _,
    Part.passEntries_keep Part.branch (fun _ _ _ _ _ => by simp) (fun _ => by simp) _ (fun e q => by (repeat' split) <;> simp_all) _,
    Part.passEntries_keep Part.trunkFramer (fun _ _ _ _ _ => by simp) (fun _ => by simp) _ (fun e q => by (repeat' split) <;> simp_all) _,
    Part.passEntries_keep Part.labelFramer (fun _ _ _ _ _ => by simp) (fun _ => by simp) _ (fun e q => by (repeat' split) <;> simp_all) _,
    Part.passEntries_keep Part.guestFramer (fun _ _ _ _ _ => by simp) (fun _ => by simp) _ (fun e q => by (repeat' split) <;> simp_all) _,
    Part.passEntries_keep Part.links (fun _ _ _ _ _ => by simp) (fun _ => by simp) _ (fun e q => by (repeat' split) <;> simp_all) _,
    Part.passEntries_keep Part.fwd (fun _ _ _ _ _ => by simp) (fun _ => by simp) _ (fun e q => by (repeat' split) <;> simp_all) _,
    Part.passEntries_keep Part.call (fun _ _ _ _ _ => by simp) (fun _ => by simp) _ (fun e q => by (repeat' split) <;> simp_all) _,
    Part.passEntries_keep Part.pres (fun _ _ _ _ _ => by simp) (fun _ => by simp) _ (fun e q => by (repeat' split) <;> simp_all) _,
    Part.passEntries_keep Part.till (fun _ _ _ _ _ => by simp) (fun _ => by simp) _ (fun e q => by (repeat' split) <;> simp_all) _,
    Part.passEntries_keep Part.jrn (fun _ _ _ _ _ => by simp) (fun _ => by simp) _ (fun e q => by (repeat' split) <;> simp_all) _,
    Part.passEntries_keep Part.lab (fun _ _ _ _ _ => by simp) (fun _ => by simp) _ (fun e q => by (repeat' split) <;> simp_all) _,
    Part.passEntries_keep Part.gst (fun _ _ _ _ _ => by simp) (fun _ => by simp) _ (fun e q => by (repeat' split) <;> simp_all) _,
    Part.passEntries_keep Part.trk (fun _ _ _ _ _ => by simp) (fun _ => by simp) _ (fun e q => by (repeat' split) <;> simp_all) _,
    Part.passEntries_keep Part.hdr (fun _ _ _ _ _ => by simp) (fun _ => by simp) _ (fun e q => by (repeat' split) <;> simp_all) _,
    Part.passEntries_keep Part.memCtr (fun _ _ _ _ _ => by simp) (fun _ => by simp) _ (fun e q => by (repeat' split) <;> simp_all) _,
    Part.passEntries_keep Part.written (fun _ _ _ _ _ => by simp) (fun _ => by simp) _ (fun e q => by (repeat' split) <;> simp_all) _⟩

@[simp] theorem Part.countPass_frame (p : Part) : (Part.countPass p).cfg = p.cfg ∧ (Part.countPass p).branch = p.branch
∧ (Part.countPass p).trunkFramer = p.trunkFramer ∧ (Part.countPass p).labelFramer = p.labelFramer ∧ (Part.countPass
p).guestFramer = p.guestFramer ∧ (Part.countPass p).links = p.links ∧ (Part.countPass p).fwd = p.fwd ∧ (Part.countPass
p).call = p.call ∧ (Part.countPass p).pres = p.pres ∧ (Part.countPass p).price = p.price ∧ (Part.countPass p).till =
p.till ∧ (Part.countPass p).jrn = p.jrn ∧ (Part.countPass p).lab = p.lab ∧ (Part.countPass p).gst = p.gst ∧
(Part.countPass p).trk = p.trk ∧ (Part.countPass p).hdr = p.hdr ∧ (Part.countPass p).memCtr = p.memCtr ∧ (Part.countPass
p).written = p.written := by
  exact ⟨Part.passEntries_keep Part.cfg (fun _ _ _ _ _ => by simp) (fun _ => by simp) _ (fun e q => by (repeat' split) <;> simp_all) _,
    Part.passEntries_keep Part.branch (fun _ _ _ _ _ => by simp) (fun _ => by simp) _ (fun e q => by (repeat' split) <;> simp_all) _,
    Part.passEntries_keep Part.trunkFramer (fun _ _ _ _ _ => by simp) (fun _ => by simp) _ (fun e q => by (repeat' split) <;> simp_all) _,
    Part.passEntries_keep Part.labelFramer (fun _ _ _ _ _ => by simp) (fun _ => by simp) _ (fun e q => by (repeat' split) <;> simp_all) _,
    Part.passEntries_keep Part.guestFramer (fun _ _ _ _ _ => by simp) (fun _ => by simp) _ (fun e q => by (repeat' split) <;> simp_all) _,
    Part.passEntries_keep Part.links (fun _ _ _ _ _ => by simp) (fun _ => by simp) _ (fun e q => by (repeat' split) <;> simp_all) _,
    Part.passEntries_keep Part.fwd (fun _ _ _ _ _ => by simp) (fun _ => by simp) _ (fun e q => by (repeat' split) <;> simp_all) _,
    Part.passEntries_keep Part.call (fun _ _ _ _ _ => by simp) (fun _ => by simp) _ (fun e q => by (repeat' split) <;> simp_all) _,
    Part.passEntries_keep Part.pres (fun _ _ _ _ _ => by simp) (fun _ => by simp) _ (fun e q => by (repeat' split) <;> simp_all) _,
    Part.passEntries_keep Part.price (fun _ _ _ _ _ => by simp) (fun _ => by simp) _ (fun e q => by (repeat' split) <;> simp_all) _,
    Part.passEntries_keep Part.till (fun _ _ _ _ _ => by simp) (fun _ => by simp) _ (fun e q => by (repeat' split) <;> simp_all) _,
    Part.passEntries_keep Part.jrn (fun _ _ _ _ _ => by simp) (fun _ => by simp) _ (fun e q => by (repeat' split) <;> simp_all) _,
    Part.passEntries_keep Part.lab (fun _ _ _ _ _ => by simp) (fun _ => by simp) _ (fun e q => by (repeat' split) <;> simp_all) _,
    Part.passEntries_keep Part.gst (fun _ _ _ _ _ => by simp) (fun _ => by simp) _ (fun e q => by (repeat' split) <;> simp_all) _,
    Part.passEntries_keep Part.trk (fun _ _ _ _ _ => by simp) (fun _ => by simp) _ (fun e q => by (repeat' split) <;> simp_all) _,
    Part.passEntries_keep Part.hdr (fun _ _ _ _ _ => by simp) (fun _ => by simp) _ (fun e q => by (repeat' split) <;> simp_all) _,
    Part.passEntries_keep Part.memCtr (fun _ _ _ _ _ => by simp) (fun _ => by simp) _ (fun e q => by (repeat' split) <;> simp_all) _,
    Part.passEntries_keep Part.written (fun _ _ _ _ _ => by simp) (fun _ => by simp) _ (fun e q => by (repeat' split) <;> simp_all) _⟩

@[simp] theorem Part.takeWalkEnds_frame (x1 : Nat) (x2 : Part) : (Part.takeWalkEnds x1 x2).cfg = x2.cfg ∧
(Part.takeWalkEnds x1 x2).branch = x2.branch ∧ (Part.takeWalkEnds x1 x2).trunkFramer = x2.trunkFramer ∧
(Part.takeWalkEnds x1 x2).labelFramer = x2.labelFramer ∧ (Part.takeWalkEnds x1 x2).guestFramer = x2.guestFramer ∧
(Part.takeWalkEnds x1 x2).links = x2.links ∧ (Part.takeWalkEnds x1 x2).fwd = x2.fwd ∧ (Part.takeWalkEnds x1 x2).call =
x2.call ∧ (Part.takeWalkEnds x1 x2).pres = x2.pres ∧ (Part.takeWalkEnds x1 x2).till = x2.till ∧ (Part.takeWalkEnds x1
x2).jrn = x2.jrn ∧ (Part.takeWalkEnds x1 x2).lab = x2.lab ∧ (Part.takeWalkEnds x1 x2).gst = x2.gst ∧ (Part.takeWalkEnds
x1 x2).trk = x2.trk ∧ (Part.takeWalkEnds x1 x2).hdr = x2.hdr ∧ (Part.takeWalkEnds x1 x2).memCtr = x2.memCtr ∧
(Part.takeWalkEnds x1 x2).written = x2.written := by
  induction x1 generalizing x2 with
  | zero => simp [Part.takeWalkEnds]
  | succ n ih => unfold Part.takeWalkEnds; refine ⟨?_,?_,?_,?_,?_,?_,?_,?_,?_,?_,?_,?_,?_,?_,?_,?_,?_⟩ <;> ((try dsimp only); (repeat' split) <;> (try simp_all [Prod.ext_iff]) <;> (try (obtain ⟨_, rfl⟩ := ‹_ ∧ _ = (_ : Part)›)) <;> (try simp_all [Prod.ext_iff]) <;> (repeat' split) <;> (try (obtain ⟨_, rfl⟩ := ‹_ ∧ _ = (_ : Part)›)) <;> (try simp_all [Prod.ext_iff]) <;> (repeat' split) <;> (try simp_all))

@[simp] theorem Part.sendEvent_frame (e : LabelEvent) (p : Part) : (Part.sendEvent e p).cfg = p.cfg ∧ (Part.sendEvent e
p).branch = p.branch ∧ (Part.sendEvent e p).trunkFramer = p.trunkFramer ∧ (Part.sendEvent e p).labelFramer =
p.labelFramer ∧ (Part.sendEvent e p).guestFramer = p.guestFramer ∧ (Part.sendEvent e p).links = p.links ∧
(Part.sendEvent e p).fwd = p.fwd ∧ (Part.sendEvent e p).call = p.call ∧ (Part.sendEvent e p).pres = p.pres ∧
(Part.sendEvent e p).till = p.till ∧ (Part.sendEvent e p).jrn = p.jrn ∧ (Part.sendEvent e p).lab = p.lab ∧
(Part.sendEvent e p).gst = p.gst ∧ (Part.sendEvent e p).trk = p.trk ∧ (Part.sendEvent e p).hdr = p.hdr ∧ (Part.sendEvent
e p).memCtr = p.memCtr ∧ (Part.sendEvent e p).written = p.written := by
  unfold Part.sendEvent; and_intros <;> (repeat' split) <;> simp

@[simp] theorem Part.dropEvent_frame (p : Part) : (Part.dropEvent p).cfg = p.cfg ∧ (Part.dropEvent p).branch = p.branch
∧ (Part.dropEvent p).trunkFramer = p.trunkFramer ∧ (Part.dropEvent p).labelFramer = p.labelFramer ∧ (Part.dropEvent
p).guestFramer = p.guestFramer ∧ (Part.dropEvent p).links = p.links ∧ (Part.dropEvent p).fwd = p.fwd ∧ (Part.dropEvent
p).call = p.call ∧ (Part.dropEvent p).pres = p.pres ∧ (Part.dropEvent p).till = p.till ∧ (Part.dropEvent p).jrn = p.jrn
∧ (Part.dropEvent p).lab = p.lab ∧ (Part.dropEvent p).gst = p.gst ∧ (Part.dropEvent p).trk = p.trk ∧ (Part.dropEvent
p).hdr = p.hdr ∧ (Part.dropEvent p).memCtr = p.memCtr ∧ (Part.dropEvent p).asks = p.asks ∧ (Part.dropEvent p).dram =
p.dram ∧ (Part.dropEvent p).written = p.written := by
  unfold Part.dropEvent; and_intros <;> (repeat' split) <;> simp

@[simp] theorem Part.countFault_frame (p : Part) : (Part.countFault p).cfg = p.cfg ∧ (Part.countFault p).branch =
p.branch ∧ (Part.countFault p).trunkFramer = p.trunkFramer ∧ (Part.countFault p).labelFramer = p.labelFramer ∧
(Part.countFault p).guestFramer = p.guestFramer ∧ (Part.countFault p).links = p.links ∧ (Part.countFault p).fwd = p.fwd
∧ (Part.countFault p).call = p.call ∧ (Part.countFault p).pres = p.pres ∧ (Part.countFault p).till = p.till ∧
(Part.countFault p).jrn = p.jrn ∧ (Part.countFault p).lab = p.lab ∧ (Part.countFault p).gst = p.gst ∧ (Part.countFault
p).trk = p.trk ∧ (Part.countFault p).hdr = p.hdr ∧ (Part.countFault p).memCtr = p.memCtr ∧ (Part.countFault p).asks =
p.asks ∧ (Part.countFault p).dram = p.dram ∧ (Part.countFault p).written = p.written := by
  unfold Part.countFault; and_intros <;> (repeat' split) <;> simp

@[simp] theorem Part.labelNotCurrent_frame (item : Nat) (p : Part) : (Part.labelNotCurrent item p).cfg = p.cfg ∧
(Part.labelNotCurrent item p).branch = p.branch ∧ (Part.labelNotCurrent item p).trunkFramer = p.trunkFramer ∧
(Part.labelNotCurrent item p).labelFramer = p.labelFramer ∧ (Part.labelNotCurrent item p).guestFramer = p.guestFramer ∧
(Part.labelNotCurrent item p).links = p.links ∧ (Part.labelNotCurrent item p).fwd = p.fwd ∧ (Part.labelNotCurrent item
p).call = p.call ∧ (Part.labelNotCurrent item p).pres = p.pres ∧ (Part.labelNotCurrent item p).till = p.till ∧
(Part.labelNotCurrent item p).jrn = p.jrn ∧ (Part.labelNotCurrent item p).lab = p.lab ∧ (Part.labelNotCurrent item
p).gst = p.gst ∧ (Part.labelNotCurrent item p).trk = p.trk ∧ (Part.labelNotCurrent item p).hdr = p.hdr ∧
(Part.labelNotCurrent item p).memCtr = p.memCtr ∧ (Part.labelNotCurrent item p).written = p.written := by
  unfold Part.labelNotCurrent; refine ⟨?_,?_,?_,?_,?_,?_,?_,?_,?_,?_,?_,?_,?_,?_,?_,?_,?_⟩ <;> ((try dsimp only); (repeat' split) <;> (try simp_all [Prod.ext_iff]) <;> (try (obtain ⟨_, rfl⟩ := ‹_ ∧ _ = (_ : Part)›)) <;> (try simp_all [Prod.ext_iff]) <;> (repeat' split) <;> (try (obtain ⟨_, rfl⟩ := ‹_ ∧ _ = (_ : Part)›)) <;> (try simp_all [Prod.ext_iff]) <;> (repeat' split) <;> (try simp_all))

@[simp] theorem Part.labelCurrent_frame (item : Nat) (p : Part) : (Part.labelCurrent item p).cfg = p.cfg ∧
(Part.labelCurrent item p).branch = p.branch ∧ (Part.labelCurrent item p).trunkFramer = p.trunkFramer ∧
(Part.labelCurrent item p).labelFramer = p.labelFramer ∧ (Part.labelCurrent item p).guestFramer = p.guestFramer ∧
(Part.labelCurrent item p).links = p.links ∧ (Part.labelCurrent item p).fwd = p.fwd ∧ (Part.labelCurrent item p).call =
p.call ∧ (Part.labelCurrent item p).pres = p.pres ∧ (Part.labelCurrent item p).till = p.till ∧ (Part.labelCurrent item
p).jrn = p.jrn ∧ (Part.labelCurrent item p).lab = p.lab ∧ (Part.labelCurrent item p).gst = p.gst ∧ (Part.labelCurrent
item p).trk = p.trk ∧ (Part.labelCurrent item p).hdr = p.hdr ∧ (Part.labelCurrent item p).memCtr = p.memCtr ∧
(Part.labelCurrent item p).written = p.written := by
  unfold Part.labelCurrent; refine ⟨?_,?_,?_,?_,?_,?_,?_,?_,?_,?_,?_,?_,?_,?_,?_,?_,?_⟩ <;> ((try dsimp only); (repeat' split) <;> (try simp_all [Prod.ext_iff]) <;> (try (obtain ⟨_, rfl⟩ := ‹_ ∧ _ = (_ : Part)›)) <;> (try simp_all [Prod.ext_iff]) <;> (repeat' split) <;> (try (obtain ⟨_, rfl⟩ := ‹_ ∧ _ = (_ : Part)›)) <;> (try simp_all [Prod.ext_iff]) <;> (repeat' split) <;> (try simp_all))

@[simp] theorem sweepOne_frame (limit : Nat) (c : Clock) (e : BankEntry) (p : Part) : (sweepOne limit c e p).2.cfg =
p.cfg ∧ (sweepOne limit c e p).2.branch = p.branch ∧ (sweepOne limit c e p).2.trunkFramer = p.trunkFramer ∧ (sweepOne
limit c e p).2.labelFramer = p.labelFramer ∧ (sweepOne limit c e p).2.guestFramer = p.guestFramer ∧ (sweepOne limit c e
p).2.links = p.links ∧ (sweepOne limit c e p).2.fwd = p.fwd ∧ (sweepOne limit c e p).2.call = p.call ∧ (sweepOne limit c
e p).2.pres = p.pres ∧ (sweepOne limit c e p).2.till = p.till ∧ (sweepOne limit c e p).2.lab = p.lab ∧ (sweepOne limit c
e p).2.gst = p.gst ∧ (sweepOne limit c e p).2.trk = p.trk ∧ (sweepOne limit c e p).2.hdr = p.hdr ∧ (sweepOne limit c e
p).2.memCtr = p.memCtr ∧ (sweepOne limit c e p).2.dram = p.dram ∧ (sweepOne limit c e p).2.written = p.written := by
  unfold sweepOne; and_intros <;> (repeat' split) <;> simp

@[simp] theorem Part.askSweep_frame (p : Part) : (Part.askSweep p).cfg = p.cfg ∧ (Part.askSweep p).branch = p.branch ∧
(Part.askSweep p).trunkFramer = p.trunkFramer ∧ (Part.askSweep p).labelFramer = p.labelFramer ∧ (Part.askSweep
p).guestFramer = p.guestFramer ∧ (Part.askSweep p).links = p.links ∧ (Part.askSweep p).fwd = p.fwd ∧ (Part.askSweep
p).call = p.call ∧ (Part.askSweep p).pres = p.pres ∧ (Part.askSweep p).price = p.price ∧ (Part.askSweep p).till = p.till
∧ (Part.askSweep p).jrn = p.jrn ∧ (Part.askSweep p).lab = p.lab ∧ (Part.askSweep p).gst = p.gst ∧ (Part.askSweep p).trk
= p.trk ∧ (Part.askSweep p).hdr = p.hdr ∧ (Part.askSweep p).memCtr = p.memCtr ∧ (Part.askSweep p).dram = p.dram ∧
(Part.askSweep p).written = p.written := by
  unfold Part.askSweep; refine ⟨?_,?_,?_,?_,?_,?_,?_,?_,?_,?_,?_,?_,?_,?_,?_,?_,?_,?_,?_⟩ <;> ((try dsimp only); (repeat' split) <;> (try simp_all [Prod.ext_iff]) <;> (try (obtain ⟨_, rfl⟩ := ‹_ ∧ _ = (_ : Part)›)) <;> (try simp_all [Prod.ext_iff]) <;> (repeat' split) <;> (try (obtain ⟨_, rfl⟩ := ‹_ ∧ _ = (_ : Part)›)) <;> (try simp_all [Prod.ext_iff]) <;> (repeat' split) <;> (try simp_all))

theorem Part.sweepEntry_frame (limit : Nat) (c : Clock) (i : Nat) (p : Part) : (p.passEntry (sweepOne limit c) i).cfg = p.cfg ∧ (p.passEntry (sweepOne limit c) i).branch = p.branch ∧ (p.passEntry (sweepOne limit c) i).trunkFramer = p.trunkFramer ∧ (p.passEntry (sweepOne limit c) i).labelFramer = p.labelFramer ∧ (p.passEntry (sweepOne limit c) i).guestFramer = p.guestFramer ∧ (p.passEntry (sweepOne limit c) i).links = p.links ∧ (p.passEntry (sweepOne limit c) i).fwd = p.fwd ∧ (p.passEntry (sweepOne limit c) i).call = p.call ∧ (p.passEntry (sweepOne limit c) i).pres = p.pres ∧ (p.passEntry (sweepOne limit c) i).till = p.till ∧ (p.passEntry (sweepOne limit c) i).lab = p.lab ∧ (p.passEntry (sweepOne limit c) i).gst = p.gst ∧ (p.passEntry (sweepOne limit c) i).trk = p.trk ∧ (p.passEntry (sweepOne limit c) i).hdr = p.hdr ∧ (p.passEntry (sweepOne limit c) i).memCtr = p.memCtr ∧ (p.passEntry (sweepOne limit c) i).written = p.written := by
  unfold Part.passEntry sweepOne
  split
  · simp
  · split <;> rename_i h <;> (repeat' split at h) <;> simp only [Prod.mk.injEq] at h <;> obtain ⟨_, rfl⟩ := h <;> simp

@[simp] theorem Part.beginSweep_frame (p : Part) : (Part.beginSweep p).cfg = p.cfg ∧ (Part.beginSweep p).branch =
p.branch ∧ (Part.beginSweep p).trunkFramer = p.trunkFramer ∧ (Part.beginSweep p).labelFramer = p.labelFramer ∧
(Part.beginSweep p).guestFramer = p.guestFramer ∧ (Part.beginSweep p).links = p.links ∧ (Part.beginSweep p).fwd = p.fwd
∧ (Part.beginSweep p).call = p.call ∧ (Part.beginSweep p).pres = p.pres ∧ (Part.beginSweep p).till = p.till ∧
(Part.beginSweep p).jrn = p.jrn ∧ (Part.beginSweep p).lab = p.lab ∧ (Part.beginSweep p).gst = p.gst ∧ (Part.beginSweep
p).trk = p.trk ∧ (Part.beginSweep p).hdr = p.hdr ∧ (Part.beginSweep p).memCtr = p.memCtr ∧ (Part.beginSweep p).dram =
p.dram ∧ (Part.beginSweep p).written = p.written := by
  unfold Part.beginSweep; refine ⟨?_,?_,?_,?_,?_,?_,?_,?_,?_,?_,?_,?_,?_,?_,?_,?_,?_,?_⟩ <;> ((try dsimp only); (repeat' split) <;> (try simp_all [Prod.ext_iff]) <;> (try (obtain ⟨_, rfl⟩ := ‹_ ∧ _ = (_ : Part)›)) <;> (try simp_all [Prod.ext_iff]) <;> (repeat' split) <;> (try (obtain ⟨_, rfl⟩ := ‹_ ∧ _ = (_ : Part)›)) <;> (try simp_all [Prod.ext_iff]) <;> (repeat' split) <;> (try simp_all))

@[simp] theorem Part.sweepStep_frame (p : Part) : (Part.sweepStep p).cfg = p.cfg ∧ (Part.sweepStep p).branch = p.branch
∧ (Part.sweepStep p).trunkFramer = p.trunkFramer ∧ (Part.sweepStep p).labelFramer = p.labelFramer ∧ (Part.sweepStep
p).guestFramer = p.guestFramer ∧ (Part.sweepStep p).links = p.links ∧ (Part.sweepStep p).fwd = p.fwd ∧ (Part.sweepStep
p).call = p.call ∧ (Part.sweepStep p).pres = p.pres ∧ (Part.sweepStep p).till = p.till ∧ (Part.sweepStep p).lab = p.lab
∧ (Part.sweepStep p).gst = p.gst ∧ (Part.sweepStep p).trk = p.trk ∧ (Part.sweepStep p).hdr = p.hdr ∧ (Part.sweepStep
p).memCtr = p.memCtr ∧ (Part.sweepStep p).written = p.written := by
  unfold Part.sweepStep; split
  · simp
  · dsimp only; and_intros <;> (repeat' split) <;> simp [Part.sweepEntry_frame]

@[simp] theorem Part.pricingNotice_frame (n : StationNo) (p : Part) : (Part.pricingNotice n p).cfg = p.cfg ∧
(Part.pricingNotice n p).trunkFramer = p.trunkFramer ∧ (Part.pricingNotice n p).labelFramer = p.labelFramer ∧
(Part.pricingNotice n p).guestFramer = p.guestFramer ∧ (Part.pricingNotice n p).links = p.links ∧ (Part.pricingNotice n
p).pres = p.pres ∧ (Part.pricingNotice n p).till = p.till ∧ (Part.pricingNotice n p).jrn = p.jrn ∧ (Part.pricingNotice n
p).lab = p.lab ∧ (Part.pricingNotice n p).gst = p.gst ∧ (Part.pricingNotice n p).hdr = p.hdr ∧ (Part.pricingNotice n
p).memCtr = p.memCtr ∧ (Part.pricingNotice n p).written = p.written := by
  unfold Part.pricingNotice; dsimp only; and_intros <;> (repeat' split) <;> simp_all [Prod.ext_iff]

@[simp] theorem Part.priceHead_frame (p : Part) : (Part.priceHead p).cfg = p.cfg ∧ (Part.priceHead p).trunkFramer =
p.trunkFramer ∧ (Part.priceHead p).labelFramer = p.labelFramer ∧ (Part.priceHead p).guestFramer = p.guestFramer ∧
(Part.priceHead p).links = p.links ∧ (Part.priceHead p).pres = p.pres ∧ (Part.priceHead p).till = p.till ∧
(Part.priceHead p).jrn = p.jrn ∧ (Part.priceHead p).lab = p.lab ∧ (Part.priceHead p).gst = p.gst ∧ (Part.priceHead
p).memCtr = p.memCtr ∧ (Part.priceHead p).written = p.written := by
  unfold Part.priceHead Part.takePriceFrame; refine ⟨?_,?_,?_,?_,?_,?_,?_,?_,?_,?_,?_,?_⟩ <;> ((try dsimp only); (repeat' split) <;> (try simp_all [Prod.ext_iff]) <;> (try (obtain ⟨_, rfl⟩ := ‹_ ∧ _ = (_ : Part)›)) <;> (try simp_all [Prod.ext_iff]) <;> (repeat' split) <;> (try (obtain ⟨_, rfl⟩ := ‹_ ∧ _ = (_ : Part)›)) <;> (try simp_all [Prod.ext_iff]) <;> (repeat' split) <;> (try simp_all))

@[simp] theorem Part.pricePart_frame (p : Part) : (Part.pricePart p).cfg = p.cfg ∧ (Part.pricePart p).trunkFramer =
p.trunkFramer ∧ (Part.pricePart p).labelFramer = p.labelFramer ∧ (Part.pricePart p).guestFramer = p.guestFramer ∧
(Part.pricePart p).links = p.links ∧ (Part.pricePart p).pres = p.pres ∧ (Part.pricePart p).till = p.till ∧
(Part.pricePart p).jrn = p.jrn ∧ (Part.pricePart p).lab = p.lab ∧ (Part.pricePart p).gst = p.gst ∧ (Part.pricePart
p).memCtr = p.memCtr ∧ (Part.pricePart p).written = p.written := by
  unfold Part.pricePart Part.takePriceFrame; refine ⟨?_,?_,?_,?_,?_,?_,?_,?_,?_,?_,?_,?_⟩ <;> ((try dsimp only); (repeat' split) <;> (try simp_all [Prod.ext_iff]) <;> (try (obtain ⟨_, rfl⟩ := ‹_ ∧ _ = (_ : Part)›)) <;> (try simp_all [Prod.ext_iff]) <;> (repeat' split) <;> (try (obtain ⟨_, rfl⟩ := ‹_ ∧ _ = (_ : Part)›)) <;> (try simp_all [Prod.ext_iff]) <;> (repeat' split) <;> (try simp_all))

@[simp] theorem Part.priceEnd_frame (p : Part) : (Part.priceEnd p).cfg = p.cfg ∧ (Part.priceEnd p).trunkFramer =
p.trunkFramer ∧ (Part.priceEnd p).labelFramer = p.labelFramer ∧ (Part.priceEnd p).guestFramer = p.guestFramer ∧
(Part.priceEnd p).links = p.links ∧ (Part.priceEnd p).pres = p.pres ∧ (Part.priceEnd p).till = p.till ∧ (Part.priceEnd
p).jrn = p.jrn ∧ (Part.priceEnd p).lab = p.lab ∧ (Part.priceEnd p).gst = p.gst ∧ (Part.priceEnd p).memCtr = p.memCtr ∧
(Part.priceEnd p).written = p.written := by
  unfold Part.priceEnd Part.takePriceFrame; refine ⟨?_,?_,?_,?_,?_,?_,?_,?_,?_,?_,?_,?_⟩ <;> ((try dsimp only); (repeat' split) <;> (try simp_all [Prod.ext_iff]) <;> (try (obtain ⟨_, rfl⟩ := ‹_ ∧ _ = (_ : Part)›)) <;> (try simp_all [Prod.ext_iff]) <;> (repeat' split) <;> (try (obtain ⟨_, rfl⟩ := ‹_ ∧ _ = (_ : Part)›)) <;> (try simp_all [Prod.ext_iff]) <;> (repeat' split) <;> (try simp_all))

@[simp] theorem Part.receivePause_frame (p : Part) : (Part.receivePause p).cfg = p.cfg ∧ (Part.receivePause
p).trunkFramer = p.trunkFramer ∧ (Part.receivePause p).labelFramer = p.labelFramer ∧ (Part.receivePause p).guestFramer =
p.guestFramer ∧ (Part.receivePause p).links = p.links ∧ (Part.receivePause p).pres = p.pres ∧ (Part.receivePause p).till
= p.till ∧ (Part.receivePause p).jrn = p.jrn ∧ (Part.receivePause p).lab = p.lab ∧ (Part.receivePause p).gst = p.gst ∧
(Part.receivePause p).memCtr = p.memCtr ∧ (Part.receivePause p).written = p.written := by
  unfold Part.receivePause; and_intros <;> (repeat' split) <;> simp

@[simp] theorem Part.recountDone_frame (p : Part) : (Part.recountDone p).cfg = p.cfg ∧ (Part.recountDone p).trunkFramer
= p.trunkFramer ∧ (Part.recountDone p).labelFramer = p.labelFramer ∧ (Part.recountDone p).guestFramer = p.guestFramer ∧
(Part.recountDone p).links = p.links ∧ (Part.recountDone p).pres = p.pres ∧ (Part.recountDone p).till = p.till ∧
(Part.recountDone p).jrn = p.jrn ∧ (Part.recountDone p).lab = p.lab ∧ (Part.recountDone p).gst = p.gst ∧
(Part.recountDone p).hdr = p.hdr ∧ (Part.recountDone p).memCtr = p.memCtr ∧ (Part.recountDone p).written = p.written := by
  unfold Part.recountDone; and_intros <;> (repeat' split) <;> simp

@[simp] theorem Part.fetchTick_frame (p : Part) : (Part.fetchTick p).cfg = p.cfg ∧ (Part.fetchTick p).trunkFramer =
p.trunkFramer ∧ (Part.fetchTick p).labelFramer = p.labelFramer ∧ (Part.fetchTick p).guestFramer = p.guestFramer ∧
(Part.fetchTick p).links = p.links ∧ (Part.fetchTick p).pres = p.pres ∧ (Part.fetchTick p).till = p.till ∧
(Part.fetchTick p).jrn = p.jrn ∧ (Part.fetchTick p).lab = p.lab ∧ (Part.fetchTick p).gst = p.gst ∧ (Part.fetchTick
p).hdr = p.hdr ∧ (Part.fetchTick p).memCtr = p.memCtr ∧ (Part.fetchTick p).written = p.written := by
  unfold Part.fetchTick; and_intros <;> (repeat' split) <;> simp

@[simp] theorem Part.nowKnown_frame (gen : Nat) (p : Part) : (Part.nowKnown gen p).cfg = p.cfg ∧ (Part.nowKnown gen
p).trunkFramer = p.trunkFramer ∧ (Part.nowKnown gen p).labelFramer = p.labelFramer ∧ (Part.nowKnown gen p).guestFramer =
p.guestFramer ∧ (Part.nowKnown gen p).links = p.links ∧ (Part.nowKnown gen p).pres = p.pres ∧ (Part.nowKnown gen p).till
= p.till ∧ (Part.nowKnown gen p).jrn = p.jrn ∧ (Part.nowKnown gen p).lab = p.lab ∧ (Part.nowKnown gen p).gst = p.gst ∧
(Part.nowKnown gen p).trk = p.trk ∧ (Part.nowKnown gen p).memCtr = p.memCtr ∧ (Part.nowKnown gen p).written = p.written
:= by
  unfold Part.nowKnown; dsimp only; and_intros <;> (repeat' split) <;> simp_all [Prod.ext_iff]

@[simp] theorem Part.fetchData_frame (p : Part) : (Part.fetchData p).cfg = p.cfg ∧ (Part.fetchData p).trunkFramer =
p.trunkFramer ∧ (Part.fetchData p).labelFramer = p.labelFramer ∧ (Part.fetchData p).guestFramer = p.guestFramer ∧
(Part.fetchData p).links = p.links ∧ (Part.fetchData p).pres = p.pres ∧ (Part.fetchData p).till = p.till ∧
(Part.fetchData p).jrn = p.jrn ∧ (Part.fetchData p).lab = p.lab ∧ (Part.fetchData p).gst = p.gst ∧ (Part.fetchData
p).memCtr = p.memCtr ∧ (Part.fetchData p).written = p.written := by
  unfold Part.fetchData; dsimp only; and_intros <;> (repeat' split) <;> simp_all [Prod.ext_iff]

@[simp] theorem Part.activate_frame (p : Part) : (Part.activate p).cfg = p.cfg ∧ (Part.activate p).branch = p.branch ∧
(Part.activate p).trunkFramer = p.trunkFramer ∧ (Part.activate p).labelFramer = p.labelFramer ∧ (Part.activate
p).guestFramer = p.guestFramer ∧ (Part.activate p).links = p.links ∧ (Part.activate p).fwd = p.fwd ∧ (Part.activate
p).call = p.call ∧ (Part.activate p).pres = p.pres ∧ (Part.activate p).till = p.till ∧ (Part.activate p).jrn = p.jrn ∧
(Part.activate p).lab = p.lab ∧ (Part.activate p).gst = p.gst ∧ (Part.activate p).trk = p.trk ∧ (Part.activate p).memCtr
= p.memCtr ∧ (Part.activate p).written = p.written := by
  unfold Part.activate; and_intros <;> (repeat' split) <;> simp

@[simp] theorem Part.takeNotCurrent_frame (p : Part) : (Part.takeNotCurrent p).cfg = p.cfg ∧ (Part.takeNotCurrent
p).branch = p.branch ∧ (Part.takeNotCurrent p).trunkFramer = p.trunkFramer ∧ (Part.takeNotCurrent p).labelFramer =
p.labelFramer ∧ (Part.takeNotCurrent p).guestFramer = p.guestFramer ∧ (Part.takeNotCurrent p).links = p.links ∧
(Part.takeNotCurrent p).fwd = p.fwd ∧ (Part.takeNotCurrent p).call = p.call ∧ (Part.takeNotCurrent p).pres = p.pres ∧
(Part.takeNotCurrent p).till = p.till ∧ (Part.takeNotCurrent p).jrn = p.jrn ∧ (Part.takeNotCurrent p).lab = p.lab ∧
(Part.takeNotCurrent p).gst = p.gst ∧ (Part.takeNotCurrent p).trk = p.trk ∧ (Part.takeNotCurrent p).hdr = p.hdr ∧
(Part.takeNotCurrent p).memCtr = p.memCtr ∧ (Part.takeNotCurrent p).written = p.written := by
  unfold Part.takeNotCurrent; and_intros <;> (repeat' split) <;> simp

@[simp] theorem Part.takeCurrent_frame (p : Part) : (Part.takeCurrent p).cfg = p.cfg ∧ (Part.takeCurrent p).branch =
p.branch ∧ (Part.takeCurrent p).trunkFramer = p.trunkFramer ∧ (Part.takeCurrent p).labelFramer = p.labelFramer ∧
(Part.takeCurrent p).guestFramer = p.guestFramer ∧ (Part.takeCurrent p).links = p.links ∧ (Part.takeCurrent p).fwd =
p.fwd ∧ (Part.takeCurrent p).call = p.call ∧ (Part.takeCurrent p).pres = p.pres ∧ (Part.takeCurrent p).till = p.till ∧
(Part.takeCurrent p).jrn = p.jrn ∧ (Part.takeCurrent p).lab = p.lab ∧ (Part.takeCurrent p).gst = p.gst ∧
(Part.takeCurrent p).trk = p.trk ∧ (Part.takeCurrent p).hdr = p.hdr ∧ (Part.takeCurrent p).memCtr = p.memCtr ∧
(Part.takeCurrent p).written = p.written := by
  unfold Part.takeCurrent; and_intros <;> (repeat' split) <;> simp

@[simp] theorem Part.sweepNow_frame (p : Part) : (Part.sweepNow p).cfg = p.cfg ∧ (Part.sweepNow p).branch = p.branch ∧
(Part.sweepNow p).trunkFramer = p.trunkFramer ∧ (Part.sweepNow p).labelFramer = p.labelFramer ∧ (Part.sweepNow
p).guestFramer = p.guestFramer ∧ (Part.sweepNow p).links = p.links ∧ (Part.sweepNow p).fwd = p.fwd ∧ (Part.sweepNow
p).call = p.call ∧ (Part.sweepNow p).pres = p.pres ∧ (Part.sweepNow p).till = p.till ∧ (Part.sweepNow p).jrn = p.jrn ∧
(Part.sweepNow p).lab = p.lab ∧ (Part.sweepNow p).gst = p.gst ∧ (Part.sweepNow p).trk = p.trk ∧ (Part.sweepNow p).hdr =
p.hdr ∧ (Part.sweepNow p).memCtr = p.memCtr ∧ (Part.sweepNow p).dram = p.dram ∧ (Part.sweepNow p).written = p.written := by
  unfold Part.sweepNow; and_intros <;> (repeat' split) <;> simp

end Sys2Proof.Machine
end

