-- ==== Sys2Proof/Laws/LabelsFrames.lean ====
section
/-! SUPPORT. What each operation of the label service leaves as it was: one lemma for each, a rewrite rule for every block of the part that
it does not touch. -/

set_option linter.all false

/- Every lemma here is a case split over a long record; the default limit is for short proofs. -/
set_option maxHeartbeats 4000000

open Sys2Proof Sys2Proof.Machine

namespace Sys2Proof.Machine

@[simp] theorem Part.loadLabel_frame (p : Part) : (Part.loadLabel p).cfg = p.cfg ∧ (Part.loadLabel p).branch = p.branch
∧ (Part.loadLabel p).trunkFramer = p.trunkFramer ∧ (Part.loadLabel p).labelFramer = p.labelFramer ∧ (Part.loadLabel
p).guestFramer = p.guestFramer ∧ (Part.loadLabel p).links = p.links ∧ (Part.loadLabel p).fwd = p.fwd ∧ (Part.loadLabel
p).call = p.call ∧ (Part.loadLabel p).pres = p.pres ∧ (Part.loadLabel p).price = p.price ∧ (Part.loadLabel p).till =
p.till ∧ (Part.loadLabel p).jrn = p.jrn ∧ (Part.loadLabel p).lab = p.lab ∧ (Part.loadLabel p).gst = p.gst ∧
(Part.loadLabel p).trk = p.trk ∧ (Part.loadLabel p).hdr = p.hdr ∧ (Part.loadLabel p).memCtr = p.memCtr ∧ (Part.loadLabel
p).dram = p.dram ∧ (Part.loadLabel p).written = p.written := by
  unfold Part.loadLabel; refine ⟨?_,?_,?_,?_,?_,?_,?_,?_,?_,?_,?_,?_,?_,?_,?_,?_,?_,?_,?_⟩ <;> ((try dsimp only); (repeat' split) <;> (try simp_all [Prod.ext_iff]) <;> (try (obtain ⟨_, rfl⟩ := ‹_ ∧ _ = (_ : Part)›)) <;> (try simp_all [Prod.ext_iff]) <;> (repeat' split) <;> (try (obtain ⟨_, rfl⟩ := ‹_ ∧ _ = (_ : Part)›)) <;> (try simp_all [Prod.ext_iff]) <;> (repeat' split) <;> (try simp_all))

@[simp] theorem Part.loadLabels_frame (p : Part) : (Part.loadLabels p).cfg = p.cfg ∧ (Part.loadLabels p).branch =
p.branch ∧ (Part.loadLabels p).trunkFramer = p.trunkFramer ∧ (Part.loadLabels p).labelFramer = p.labelFramer ∧
(Part.loadLabels p).guestFramer = p.guestFramer ∧ (Part.loadLabels p).links = p.links ∧ (Part.loadLabels p).fwd = p.fwd
∧ (Part.loadLabels p).call = p.call ∧ (Part.loadLabels p).pres = p.pres ∧ (Part.loadLabels p).price = p.price ∧
(Part.loadLabels p).till = p.till ∧ (Part.loadLabels p).jrn = p.jrn ∧ (Part.loadLabels p).lab = p.lab ∧ (Part.loadLabels
p).gst = p.gst ∧ (Part.loadLabels p).trk = p.trk ∧ (Part.loadLabels p).hdr = p.hdr ∧ (Part.loadLabels p).memCtr =
p.memCtr ∧ (Part.loadLabels p).dram = p.dram ∧ (Part.loadLabels p).written = p.written := by
  unfold Part.loadLabels; refine ⟨?_,?_,?_,?_,?_,?_,?_,?_,?_,?_,?_,?_,?_,?_,?_,?_,?_,?_,?_⟩ <;> ((try dsimp only); (repeat' split) <;> (try simp_all [Prod.ext_iff]) <;> (try (obtain ⟨_, rfl⟩ := ‹_ ∧ _ = (_ : Part)›)) <;> (try simp_all [Prod.ext_iff]) <;> (repeat' split) <;> (try (obtain ⟨_, rfl⟩ := ‹_ ∧ _ = (_ : Part)›)) <;> (try simp_all [Prod.ext_iff]) <;> (repeat' split) <;> (try simp_all))

@[simp] theorem Part.searchLabel_frame (id : Nat) (p : Part) : (Part.searchLabel id p).2.cfg = p.cfg ∧ (Part.searchLabel
id p).2.branch = p.branch ∧ (Part.searchLabel id p).2.trunkFramer = p.trunkFramer ∧ (Part.searchLabel id
p).2.labelFramer = p.labelFramer ∧ (Part.searchLabel id p).2.guestFramer = p.guestFramer ∧ (Part.searchLabel id
p).2.links = p.links ∧ (Part.searchLabel id p).2.fwd = p.fwd ∧ (Part.searchLabel id p).2.call = p.call ∧
(Part.searchLabel id p).2.pres = p.pres ∧ (Part.searchLabel id p).2.price = p.price ∧ (Part.searchLabel id p).2.till =
p.till ∧ (Part.searchLabel id p).2.jrn = p.jrn ∧ (Part.searchLabel id p).2.lab = p.lab ∧ (Part.searchLabel id p).2.gst =
p.gst ∧ (Part.searchLabel id p).2.trk = p.trk ∧ (Part.searchLabel id p).2.hdr = p.hdr ∧ (Part.searchLabel id p).2.memCtr
= p.memCtr ∧ (Part.searchLabel id p).2.dram = p.dram ∧ (Part.searchLabel id p).2.written = p.written := by
  unfold Part.searchLabel; refine ⟨?_,?_,?_,?_,?_,?_,?_,?_,?_,?_,?_,?_,?_,?_,?_,?_,?_,?_,?_⟩ <;> ((try dsimp only); (repeat' split) <;> (try simp_all [Prod.ext_iff]) <;> (try (obtain ⟨_, rfl⟩ := ‹_ ∧ _ = (_ : Part)›)) <;> (try simp_all [Prod.ext_iff]) <;> (repeat' split) <;> (try (obtain ⟨_, rfl⟩ := ‹_ ∧ _ = (_ : Part)›)) <;> (try simp_all [Prod.ext_iff]) <;> (repeat' split) <;> (try simp_all))

@[simp] theorem Part.retally_frame (old : Option LabelEntry) (new : Option LabelEntry) (p : Part) : (Part.retally old
new p).cfg = p.cfg ∧ (Part.retally old new p).branch = p.branch ∧ (Part.retally old new p).trunkFramer = p.trunkFramer ∧
(Part.retally old new p).labelFramer = p.labelFramer ∧ (Part.retally old new p).guestFramer = p.guestFramer ∧
(Part.retally old new p).links = p.links ∧ (Part.retally old new p).fwd = p.fwd ∧ (Part.retally old new p).call = p.call
∧ (Part.retally old new p).pres = p.pres ∧ (Part.retally old new p).price = p.price ∧ (Part.retally old new p).till =
p.till ∧ (Part.retally old new p).jrn = p.jrn ∧ (Part.retally old new p).gst = p.gst ∧ (Part.retally old new p).trk =
p.trk ∧ (Part.retally old new p).hdr = p.hdr ∧ (Part.retally old new p).memCtr = p.memCtr ∧ (Part.retally old new
p).asks = p.asks ∧ (Part.retally old new p).dram = p.dram ∧ (Part.retally old new p).written = p.written := by
  unfold Part.retally; and_intros <;> (repeat' split) <;> simp

@[simp] theorem Part.putLabel_frame (i : Nat) (e : LabelEntry) (p : Part) : (Part.putLabel i e p).cfg = p.cfg ∧
(Part.putLabel i e p).branch = p.branch ∧ (Part.putLabel i e p).trunkFramer = p.trunkFramer ∧ (Part.putLabel i e
p).labelFramer = p.labelFramer ∧ (Part.putLabel i e p).guestFramer = p.guestFramer ∧ (Part.putLabel i e p).links =
p.links ∧ (Part.putLabel i e p).fwd = p.fwd ∧ (Part.putLabel i e p).call = p.call ∧ (Part.putLabel i e p).pres = p.pres
∧ (Part.putLabel i e p).price = p.price ∧ (Part.putLabel i e p).till = p.till ∧ (Part.putLabel i e p).jrn = p.jrn ∧
(Part.putLabel i e p).gst = p.gst ∧ (Part.putLabel i e p).trk = p.trk ∧ (Part.putLabel i e p).hdr = p.hdr ∧
(Part.putLabel i e p).memCtr = p.memCtr ∧ (Part.putLabel i e p).written = p.written := by
  unfold Part.putLabel; and_intros <;> (repeat' split) <;> simp

@[simp] theorem Part.wipeLabel_frame (i : Nat) (p : Part) : (Part.wipeLabel i p).cfg = p.cfg ∧ (Part.wipeLabel i
p).branch = p.branch ∧ (Part.wipeLabel i p).trunkFramer = p.trunkFramer ∧ (Part.wipeLabel i p).labelFramer =
p.labelFramer ∧ (Part.wipeLabel i p).guestFramer = p.guestFramer ∧ (Part.wipeLabel i p).links = p.links ∧
(Part.wipeLabel i p).fwd = p.fwd ∧ (Part.wipeLabel i p).call = p.call ∧ (Part.wipeLabel i p).pres = p.pres ∧
(Part.wipeLabel i p).price = p.price ∧ (Part.wipeLabel i p).till = p.till ∧ (Part.wipeLabel i p).jrn = p.jrn ∧
(Part.wipeLabel i p).lab = p.lab ∧ (Part.wipeLabel i p).gst = p.gst ∧ (Part.wipeLabel i p).trk = p.trk ∧ (Part.wipeLabel
i p).hdr = p.hdr ∧ (Part.wipeLabel i p).memCtr = p.memCtr ∧ (Part.wipeLabel i p).written = p.written := by
  unfold Part.wipeLabel; refine ⟨?_,?_,?_,?_,?_,?_,?_,?_,?_,?_,?_,?_,?_,?_,?_,?_,?_,?_⟩ <;> ((try dsimp only); (repeat' split) <;> (try simp_all [Prod.ext_iff]) <;> (try (obtain ⟨_, rfl⟩ := ‹_ ∧ _ = (_ : Part)›)) <;> (try simp_all [Prod.ext_iff]) <;> (repeat' split) <;> (try (obtain ⟨_, rfl⟩ := ‹_ ∧ _ = (_ : Part)›)) <;> (try simp_all [Prod.ext_iff]) <;> (repeat' split) <;> (try simp_all))

@[simp] theorem Part.freeLabel_frame (i : Nat) (p : Part) : (Part.freeLabel i p).cfg = p.cfg ∧ (Part.freeLabel i
p).branch = p.branch ∧ (Part.freeLabel i p).trunkFramer = p.trunkFramer ∧ (Part.freeLabel i p).labelFramer =
p.labelFramer ∧ (Part.freeLabel i p).guestFramer = p.guestFramer ∧ (Part.freeLabel i p).links = p.links ∧
(Part.freeLabel i p).fwd = p.fwd ∧ (Part.freeLabel i p).call = p.call ∧ (Part.freeLabel i p).pres = p.pres ∧
(Part.freeLabel i p).price = p.price ∧ (Part.freeLabel i p).till = p.till ∧ (Part.freeLabel i p).jrn = p.jrn ∧
(Part.freeLabel i p).gst = p.gst ∧ (Part.freeLabel i p).trk = p.trk ∧ (Part.freeLabel i p).hdr = p.hdr ∧ (Part.freeLabel
i p).memCtr = p.memCtr ∧ (Part.freeLabel i p).written = p.written := by
  unfold Part.freeLabel; and_intros <;> (repeat' split) <;> simp

@[simp] theorem Part.emptyLabels_frame (p : Part) : (Part.emptyLabels p).cfg = p.cfg ∧ (Part.emptyLabels p).branch =
p.branch ∧ (Part.emptyLabels p).trunkFramer = p.trunkFramer ∧ (Part.emptyLabels p).labelFramer = p.labelFramer ∧
(Part.emptyLabels p).guestFramer = p.guestFramer ∧ (Part.emptyLabels p).links = p.links ∧ (Part.emptyLabels p).fwd =
p.fwd ∧ (Part.emptyLabels p).call = p.call ∧ (Part.emptyLabels p).pres = p.pres ∧ (Part.emptyLabels p).price = p.price ∧
(Part.emptyLabels p).till = p.till ∧ (Part.emptyLabels p).jrn = p.jrn ∧ (Part.emptyLabels p).gst = p.gst ∧
(Part.emptyLabels p).trk = p.trk ∧ (Part.emptyLabels p).hdr = p.hdr ∧ (Part.emptyLabels p).memCtr = p.memCtr ∧
(Part.emptyLabels p).written = p.written := by
  unfold Part.emptyLabels; and_intros <;> (repeat' split) <;> simp

@[simp] theorem Part.target_frame (e : LabelEntry) (p : Part) : (Part.target e p).2.cfg = p.cfg ∧ (Part.target e
p).2.branch = p.branch ∧ (Part.target e p).2.trunkFramer = p.trunkFramer ∧ (Part.target e p).2.labelFramer =
p.labelFramer ∧ (Part.target e p).2.guestFramer = p.guestFramer ∧ (Part.target e p).2.links = p.links ∧ (Part.target e
p).2.fwd = p.fwd ∧ (Part.target e p).2.call = p.call ∧ (Part.target e p).2.pres = p.pres ∧ (Part.target e p).2.till =
p.till ∧ (Part.target e p).2.jrn = p.jrn ∧ (Part.target e p).2.lab = p.lab ∧ (Part.target e p).2.gst = p.gst ∧
(Part.target e p).2.trk = p.trk ∧ (Part.target e p).2.hdr = p.hdr ∧ (Part.target e p).2.memCtr = p.memCtr ∧ (Part.target
e p).2.dram = p.dram ∧ (Part.target e p).2.written = p.written := by
  unfold Part.target; refine ⟨?_,?_,?_,?_,?_,?_,?_,?_,?_,?_,?_,?_,?_,?_,?_,?_,?_,?_⟩ <;> ((try dsimp only); (repeat' split) <;> (try simp_all [Prod.ext_iff]) <;> (try (obtain ⟨_, rfl⟩ := ‹_ ∧ _ = (_ : Part)›)) <;> (try simp_all [Prod.ext_iff]) <;> (repeat' split) <;> (try (obtain ⟨_, rfl⟩ := ‹_ ∧ _ = (_ : Part)›)) <;> (try simp_all [Prod.ext_iff]) <;> (repeat' split) <;> (try simp_all))

@[simp] theorem Part.countEvent_frame (e : LabelEntry) (ev : LabelEvent) (p : Part) : (Part.countEvent e ev p).cfg =
p.cfg ∧ (Part.countEvent e ev p).branch = p.branch ∧ (Part.countEvent e ev p).trunkFramer = p.trunkFramer ∧
(Part.countEvent e ev p).labelFramer = p.labelFramer ∧ (Part.countEvent e ev p).guestFramer = p.guestFramer ∧
(Part.countEvent e ev p).links = p.links ∧ (Part.countEvent e ev p).fwd = p.fwd ∧ (Part.countEvent e ev p).call = p.call
∧ (Part.countEvent e ev p).pres = p.pres ∧ (Part.countEvent e ev p).till = p.till ∧ (Part.countEvent e ev p).jrn = p.jrn
∧ (Part.countEvent e ev p).lab = p.lab ∧ (Part.countEvent e ev p).gst = p.gst ∧ (Part.countEvent e ev p).trk = p.trk ∧
(Part.countEvent e ev p).hdr = p.hdr ∧ (Part.countEvent e ev p).memCtr = p.memCtr ∧ (Part.countEvent e ev p).written =
p.written := by
  unfold Part.countEvent; and_intros <;> (repeat' split) <;> simp

@[simp] theorem Part.leaveQueue_frame (i : Nat) (p : Part) : (Part.leaveQueue i p).cfg = p.cfg ∧ (Part.leaveQueue i
p).branch = p.branch ∧ (Part.leaveQueue i p).trunkFramer = p.trunkFramer ∧ (Part.leaveQueue i p).labelFramer =
p.labelFramer ∧ (Part.leaveQueue i p).guestFramer = p.guestFramer ∧ (Part.leaveQueue i p).links = p.links ∧
(Part.leaveQueue i p).fwd = p.fwd ∧ (Part.leaveQueue i p).call = p.call ∧ (Part.leaveQueue i p).pres = p.pres ∧
(Part.leaveQueue i p).price = p.price ∧ (Part.leaveQueue i p).till = p.till ∧ (Part.leaveQueue i p).jrn = p.jrn ∧
(Part.leaveQueue i p).gst = p.gst ∧ (Part.leaveQueue i p).trk = p.trk ∧ (Part.leaveQueue i p).hdr = p.hdr ∧
(Part.leaveQueue i p).memCtr = p.memCtr ∧ (Part.leaveQueue i p).asks = p.asks ∧ (Part.leaveQueue i p).dram = p.dram ∧
(Part.leaveQueue i p).written = p.written := by
  unfold Part.leaveQueue; and_intros <;> (repeat' split) <;> simp

@[simp] theorem Part.queueLabel_frame (i : Nat) (e : LabelEntry) (p : Part) : (Part.queueLabel i e p).cfg = p.cfg ∧
(Part.queueLabel i e p).branch = p.branch ∧ (Part.queueLabel i e p).trunkFramer = p.trunkFramer ∧ (Part.queueLabel i e
p).labelFramer = p.labelFramer ∧ (Part.queueLabel i e p).guestFramer = p.guestFramer ∧ (Part.queueLabel i e p).links =
p.links ∧ (Part.queueLabel i e p).fwd = p.fwd ∧ (Part.queueLabel i e p).call = p.call ∧ (Part.queueLabel i e p).pres =
p.pres ∧ (Part.queueLabel i e p).till = p.till ∧ (Part.queueLabel i e p).jrn = p.jrn ∧ (Part.queueLabel i e p).gst =
p.gst ∧ (Part.queueLabel i e p).trk = p.trk ∧ (Part.queueLabel i e p).hdr = p.hdr ∧ (Part.queueLabel i e p).memCtr =
p.memCtr ∧ (Part.queueLabel i e p).written = p.written := by
  unfold Part.queueLabel; and_intros <;> (repeat' split) <;> simp

@[simp] theorem Part.sendOrder_frame (i : Nat) (e : LabelEntry) (target : LabelContent) (b : Buf) (p : Part) :
(Part.sendOrder i e target b p).cfg = p.cfg ∧ (Part.sendOrder i e target b p).branch = p.branch ∧ (Part.sendOrder i e
target b p).trunkFramer = p.trunkFramer ∧ (Part.sendOrder i e target b p).labelFramer = p.labelFramer ∧ (Part.sendOrder
i e target b p).guestFramer = p.guestFramer ∧ (Part.sendOrder i e target b p).call = p.call ∧ (Part.sendOrder i e target
b p).pres = p.pres ∧ (Part.sendOrder i e target b p).price = p.price ∧ (Part.sendOrder i e target b p).till = p.till ∧
(Part.sendOrder i e target b p).jrn = p.jrn ∧ (Part.sendOrder i e target b p).gst = p.gst ∧ (Part.sendOrder i e target b
p).trk = p.trk ∧ (Part.sendOrder i e target b p).hdr = p.hdr ∧ (Part.sendOrder i e target b p).memCtr = p.memCtr ∧
(Part.sendOrder i e target b p).written = p.written := by
  unfold Part.sendOrder; and_intros <;> (repeat' split) <;> simp

@[simp] theorem Part.takeOrders_frame (x1 : Nat) (x2 : Part) : (Part.takeOrders x1 x2).cfg = x2.cfg ∧ (Part.takeOrders
x1 x2).branch = x2.branch ∧ (Part.takeOrders x1 x2).trunkFramer = x2.trunkFramer ∧ (Part.takeOrders x1 x2).labelFramer =
x2.labelFramer ∧ (Part.takeOrders x1 x2).guestFramer = x2.guestFramer ∧ (Part.takeOrders x1 x2).call = x2.call ∧
(Part.takeOrders x1 x2).pres = x2.pres ∧ (Part.takeOrders x1 x2).till = x2.till ∧ (Part.takeOrders x1 x2).jrn = x2.jrn ∧
(Part.takeOrders x1 x2).gst = x2.gst ∧ (Part.takeOrders x1 x2).trk = x2.trk ∧ (Part.takeOrders x1 x2).hdr = x2.hdr ∧
(Part.takeOrders x1 x2).memCtr = x2.memCtr ∧ (Part.takeOrders x1 x2).written = x2.written := by
  induction x1 generalizing x2 with
  | zero => simp [Part.takeOrders]
  | succ n ih => unfold Part.takeOrders; refine ⟨?_,?_,?_,?_,?_,?_,?_,?_,?_,?_,?_,?_,?_,?_⟩ <;> ((try dsimp only); (repeat' split) <;> (try simp_all [Prod.ext_iff]) <;> (try (obtain ⟨_, rfl⟩ := ‹_ ∧ _ = (_ : Part)›)) <;> (try simp_all [Prod.ext_iff]) <;> (repeat' split) <;> (try (obtain ⟨_, rfl⟩ := ‹_ ∧ _ = (_ : Part)›)) <;> (try simp_all [Prod.ext_iff]) <;> (repeat' split) <;> (try simp_all))

@[simp] theorem Part.checkOrders_frame (p : Part) : (Part.checkOrders p).cfg = p.cfg ∧ (Part.checkOrders p).branch =
p.branch ∧ (Part.checkOrders p).trunkFramer = p.trunkFramer ∧ (Part.checkOrders p).labelFramer = p.labelFramer ∧
(Part.checkOrders p).guestFramer = p.guestFramer ∧ (Part.checkOrders p).call = p.call ∧ (Part.checkOrders p).pres =
p.pres ∧ (Part.checkOrders p).till = p.till ∧ (Part.checkOrders p).jrn = p.jrn ∧ (Part.checkOrders p).gst = p.gst ∧
(Part.checkOrders p).trk = p.trk ∧ (Part.checkOrders p).hdr = p.hdr ∧ (Part.checkOrders p).memCtr = p.memCtr ∧
(Part.checkOrders p).written = p.written := by
  unfold Part.checkOrders; and_intros <;> (repeat' split) <;> simp

@[simp] theorem Part.queueAndCheck_frame (i : Nat) (e : LabelEntry) (p : Part) : (Part.queueAndCheck i e p).cfg = p.cfg
∧ (Part.queueAndCheck i e p).branch = p.branch ∧ (Part.queueAndCheck i e p).trunkFramer = p.trunkFramer ∧
(Part.queueAndCheck i e p).labelFramer = p.labelFramer ∧ (Part.queueAndCheck i e p).guestFramer = p.guestFramer ∧
(Part.queueAndCheck i e p).call = p.call ∧ (Part.queueAndCheck i e p).pres = p.pres ∧ (Part.queueAndCheck i e p).till =
p.till ∧ (Part.queueAndCheck i e p).jrn = p.jrn ∧ (Part.queueAndCheck i e p).gst = p.gst ∧ (Part.queueAndCheck i e
p).trk = p.trk ∧ (Part.queueAndCheck i e p).hdr = p.hdr ∧ (Part.queueAndCheck i e p).memCtr = p.memCtr ∧
(Part.queueAndCheck i e p).written = p.written := by
  unfold Part.queueAndCheck; and_intros <;> (repeat' split) <;> simp

@[simp] theorem Part.headHeard_frame (p : Part) : (Part.headHeard p).cfg = p.cfg ∧ (Part.headHeard p).branch = p.branch
∧ (Part.headHeard p).trunkFramer = p.trunkFramer ∧ (Part.headHeard p).labelFramer = p.labelFramer ∧ (Part.headHeard
p).guestFramer = p.guestFramer ∧ (Part.headHeard p).call = p.call ∧ (Part.headHeard p).pres = p.pres ∧ (Part.headHeard
p).till = p.till ∧ (Part.headHeard p).jrn = p.jrn ∧ (Part.headHeard p).gst = p.gst ∧ (Part.headHeard p).trk = p.trk ∧
(Part.headHeard p).hdr = p.hdr ∧ (Part.headHeard p).memCtr = p.memCtr ∧ (Part.headHeard p).written = p.written := by
  unfold Part.headHeard; and_intros <;> (repeat' split) <;> simp

@[simp] theorem Part.recallOrder_frame (o : Order) (p : Part) : (Part.recallOrder o p).cfg = p.cfg ∧ (Part.recallOrder o
p).branch = p.branch ∧ (Part.recallOrder o p).trunkFramer = p.trunkFramer ∧ (Part.recallOrder o p).labelFramer =
p.labelFramer ∧ (Part.recallOrder o p).guestFramer = p.guestFramer ∧ (Part.recallOrder o p).links = p.links ∧
(Part.recallOrder o p).fwd = p.fwd ∧ (Part.recallOrder o p).call = p.call ∧ (Part.recallOrder o p).pres = p.pres ∧
(Part.recallOrder o p).till = p.till ∧ (Part.recallOrder o p).jrn = p.jrn ∧ (Part.recallOrder o p).gst = p.gst ∧
(Part.recallOrder o p).trk = p.trk ∧ (Part.recallOrder o p).hdr = p.hdr ∧ (Part.recallOrder o p).memCtr = p.memCtr ∧
(Part.recallOrder o p).written = p.written := by
  unfold Part.recallOrder; refine ⟨?_,?_,?_,?_,?_,?_,?_,?_,?_,?_,?_,?_,?_,?_,?_,?_⟩ <;> ((try dsimp only); (repeat' split) <;> (try simp_all [Prod.ext_iff]) <;> (try (obtain ⟨_, rfl⟩ := ‹_ ∧ _ = (_ : Part)›)) <;> (try simp_all [Prod.ext_iff]) <;> (repeat' split) <;> (try (obtain ⟨_, rfl⟩ := ‹_ ∧ _ = (_ : Part)›)) <;> (try simp_all [Prod.ext_iff]) <;> (repeat' split) <;> (try simp_all))

@[simp] theorem Part.headDown_frame (p : Part) : (Part.headDown p).cfg = p.cfg ∧ (Part.headDown p).branch = p.branch ∧
(Part.headDown p).trunkFramer = p.trunkFramer ∧ (Part.headDown p).labelFramer = p.labelFramer ∧ (Part.headDown
p).guestFramer = p.guestFramer ∧ (Part.headDown p).links = p.links ∧ (Part.headDown p).call = p.call ∧ (Part.headDown
p).pres = p.pres ∧ (Part.headDown p).till = p.till ∧ (Part.headDown p).jrn = p.jrn ∧ (Part.headDown p).gst = p.gst ∧
(Part.headDown p).trk = p.trk ∧ (Part.headDown p).hdr = p.hdr ∧ (Part.headDown p).memCtr = p.memCtr ∧ (Part.headDown
p).written = p.written := by
  unfold Part.headDown; and_intros <;> (repeat' split) <;> simp

@[simp] theorem Part.orderSent_frame (tag : Byte) (p : Part) : (Part.orderSent tag p).cfg = p.cfg ∧ (Part.orderSent tag
p).branch = p.branch ∧ (Part.orderSent tag p).trunkFramer = p.trunkFramer ∧ (Part.orderSent tag p).labelFramer =
p.labelFramer ∧ (Part.orderSent tag p).guestFramer = p.guestFramer ∧ (Part.orderSent tag p).links = p.links ∧
(Part.orderSent tag p).fwd = p.fwd ∧ (Part.orderSent tag p).call = p.call ∧ (Part.orderSent tag p).pres = p.pres ∧
(Part.orderSent tag p).price = p.price ∧ (Part.orderSent tag p).till = p.till ∧ (Part.orderSent tag p).jrn = p.jrn ∧
(Part.orderSent tag p).gst = p.gst ∧ (Part.orderSent tag p).trk = p.trk ∧ (Part.orderSent tag p).hdr = p.hdr ∧
(Part.orderSent tag p).memCtr = p.memCtr ∧ (Part.orderSent tag p).asks = p.asks ∧ (Part.orderSent tag p).dram = p.dram ∧
(Part.orderSent tag p).written = p.written := by
  unfold Part.orderSent; and_intros <;> (repeat' split) <;> simp

@[simp] theorem Part.dropOrder_frame (tag : Byte) (p : Part) : (Part.dropOrder tag p).cfg = p.cfg ∧ (Part.dropOrder tag
p).branch = p.branch ∧ (Part.dropOrder tag p).trunkFramer = p.trunkFramer ∧ (Part.dropOrder tag p).labelFramer =
p.labelFramer ∧ (Part.dropOrder tag p).guestFramer = p.guestFramer ∧ (Part.dropOrder tag p).links = p.links ∧
(Part.dropOrder tag p).fwd = p.fwd ∧ (Part.dropOrder tag p).call = p.call ∧ (Part.dropOrder tag p).pres = p.pres ∧
(Part.dropOrder tag p).price = p.price ∧ (Part.dropOrder tag p).till = p.till ∧ (Part.dropOrder tag p).jrn = p.jrn ∧
(Part.dropOrder tag p).gst = p.gst ∧ (Part.dropOrder tag p).trk = p.trk ∧ (Part.dropOrder tag p).hdr = p.hdr ∧
(Part.dropOrder tag p).memCtr = p.memCtr ∧ (Part.dropOrder tag p).asks = p.asks ∧ (Part.dropOrder tag p).dram = p.dram ∧
(Part.dropOrder tag p).written = p.written := by
  unfold Part.dropOrder; and_intros <;> (repeat' split) <;> simp

@[simp] theorem Part.reportShown_frame (o : Order) (e : LabelEntry) (p : Part) : (Part.reportShown o e p).cfg = p.cfg ∧
(Part.reportShown o e p).branch = p.branch ∧ (Part.reportShown o e p).trunkFramer = p.trunkFramer ∧ (Part.reportShown o
e p).labelFramer = p.labelFramer ∧ (Part.reportShown o e p).guestFramer = p.guestFramer ∧ (Part.reportShown o e p).call
= p.call ∧ (Part.reportShown o e p).pres = p.pres ∧ (Part.reportShown o e p).till = p.till ∧ (Part.reportShown o e
p).jrn = p.jrn ∧ (Part.reportShown o e p).gst = p.gst ∧ (Part.reportShown o e p).trk = p.trk ∧ (Part.reportShown o e
p).hdr = p.hdr ∧ (Part.reportShown o e p).memCtr = p.memCtr ∧ (Part.reportShown o e p).written = p.written := by
  unfold Part.reportShown; dsimp only; and_intros <;> (repeat' split) <;> simp_all [Prod.ext_iff]

@[simp] theorem Part.unreachable_frame (i : Nat) (e : LabelEntry) (p : Part) : (Part.unreachable i e p).cfg = p.cfg ∧
(Part.unreachable i e p).branch = p.branch ∧ (Part.unreachable i e p).trunkFramer = p.trunkFramer ∧ (Part.unreachable i
e p).labelFramer = p.labelFramer ∧ (Part.unreachable i e p).guestFramer = p.guestFramer ∧ (Part.unreachable i e p).links
= p.links ∧ (Part.unreachable i e p).fwd = p.fwd ∧ (Part.unreachable i e p).call = p.call ∧ (Part.unreachable i e
p).pres = p.pres ∧ (Part.unreachable i e p).price = p.price ∧ (Part.unreachable i e p).till = p.till ∧ (Part.unreachable
i e p).jrn = p.jrn ∧ (Part.unreachable i e p).gst = p.gst ∧ (Part.unreachable i e p).trk = p.trk ∧ (Part.unreachable i e
p).hdr = p.hdr ∧ (Part.unreachable i e p).memCtr = p.memCtr ∧ (Part.unreachable i e p).written = p.written := by
  unfold Part.unreachable; and_intros <;> (repeat' split) <;> simp

@[simp] theorem Part.failedAttempt_frame (i : Nat) (e : LabelEntry) (p : Part) : (Part.failedAttempt i e p).cfg = p.cfg
∧ (Part.failedAttempt i e p).branch = p.branch ∧ (Part.failedAttempt i e p).trunkFramer = p.trunkFramer ∧
(Part.failedAttempt i e p).labelFramer = p.labelFramer ∧ (Part.failedAttempt i e p).guestFramer = p.guestFramer ∧
(Part.failedAttempt i e p).links = p.links ∧ (Part.failedAttempt i e p).fwd = p.fwd ∧ (Part.failedAttempt i e p).call =
p.call ∧ (Part.failedAttempt i e p).pres = p.pres ∧ (Part.failedAttempt i e p).price = p.price ∧ (Part.failedAttempt i e
p).till = p.till ∧ (Part.failedAttempt i e p).jrn = p.jrn ∧ (Part.failedAttempt i e p).gst = p.gst ∧ (Part.failedAttempt
i e p).trk = p.trk ∧ (Part.failedAttempt i e p).hdr = p.hdr ∧ (Part.failedAttempt i e p).memCtr = p.memCtr ∧
(Part.failedAttempt i e p).written = p.written := by
  unfold Part.failedAttempt; dsimp only; and_intros <;> (repeat' split) <;> simp_all [Prod.ext_iff]

@[simp] theorem Part.report_frame (o : Order) (e : LabelEntry) (out : ReportOutcome) (battery : Battery) (signal : Nat)
(p : Part) : (Part.report o e out battery signal p).cfg = p.cfg ∧ (Part.report o e out battery signal p).branch =
p.branch ∧ (Part.report o e out battery signal p).trunkFramer = p.trunkFramer ∧ (Part.report o e out battery signal
p).labelFramer = p.labelFramer ∧ (Part.report o e out battery signal p).guestFramer = p.guestFramer ∧ (Part.report o e
out battery signal p).call = p.call ∧ (Part.report o e out battery signal p).pres = p.pres ∧ (Part.report o e out
battery signal p).till = p.till ∧ (Part.report o e out battery signal p).jrn = p.jrn ∧ (Part.report o e out battery
signal p).gst = p.gst ∧ (Part.report o e out battery signal p).trk = p.trk ∧ (Part.report o e out battery signal p).hdr
= p.hdr ∧ (Part.report o e out battery signal p).memCtr = p.memCtr ∧ (Part.report o e out battery signal p).written =
p.written := by
  unfold Part.report; and_intros <;> (repeat' split) <;> simp

@[simp] theorem Part.strayReport_frame (p : Part) : (Part.strayReport p).cfg = p.cfg ∧ (Part.strayReport p).branch =
p.branch ∧ (Part.strayReport p).trunkFramer = p.trunkFramer ∧ (Part.strayReport p).labelFramer = p.labelFramer ∧
(Part.strayReport p).guestFramer = p.guestFramer ∧ (Part.strayReport p).links = p.links ∧ (Part.strayReport p).fwd =
p.fwd ∧ (Part.strayReport p).call = p.call ∧ (Part.strayReport p).pres = p.pres ∧ (Part.strayReport p).price = p.price ∧
(Part.strayReport p).till = p.till ∧ (Part.strayReport p).jrn = p.jrn ∧ (Part.strayReport p).gst = p.gst ∧
(Part.strayReport p).trk = p.trk ∧ (Part.strayReport p).hdr = p.hdr ∧ (Part.strayReport p).memCtr = p.memCtr ∧
(Part.strayReport p).asks = p.asks ∧ (Part.strayReport p).dram = p.dram ∧ (Part.strayReport p).written = p.written := by
  unfold Part.strayReport; and_intros <;> (repeat' split) <;> simp

@[simp] theorem Part.takeReport_frame (b : Bytes) (p : Part) : (Part.takeReport b p).cfg = p.cfg ∧ (Part.takeReport b
p).branch = p.branch ∧ (Part.takeReport b p).trunkFramer = p.trunkFramer ∧ (Part.takeReport b p).labelFramer =
p.labelFramer ∧ (Part.takeReport b p).guestFramer = p.guestFramer ∧ (Part.takeReport b p).call = p.call ∧
(Part.takeReport b p).pres = p.pres ∧ (Part.takeReport b p).till = p.till ∧ (Part.takeReport b p).jrn = p.jrn ∧
(Part.takeReport b p).gst = p.gst ∧ (Part.takeReport b p).trk = p.trk ∧ (Part.takeReport b p).hdr = p.hdr ∧
(Part.takeReport b p).memCtr = p.memCtr ∧ (Part.takeReport b p).written = p.written := by
  unfold Part.takeReport; dsimp only; and_intros <;> (repeat' split) <;> simp_all [Prod.ext_iff]

@[simp] theorem Part.reportExpiry_frame (tag : Byte) (p : Part) : (Part.reportExpiry tag p).cfg = p.cfg ∧
(Part.reportExpiry tag p).branch = p.branch ∧ (Part.reportExpiry tag p).trunkFramer = p.trunkFramer ∧ (Part.reportExpiry
tag p).labelFramer = p.labelFramer ∧ (Part.reportExpiry tag p).guestFramer = p.guestFramer ∧ (Part.reportExpiry tag
p).call = p.call ∧ (Part.reportExpiry tag p).pres = p.pres ∧ (Part.reportExpiry tag p).till = p.till ∧
(Part.reportExpiry tag p).jrn = p.jrn ∧ (Part.reportExpiry tag p).gst = p.gst ∧ (Part.reportExpiry tag p).trk = p.trk ∧
(Part.reportExpiry tag p).hdr = p.hdr ∧ (Part.reportExpiry tag p).memCtr = p.memCtr ∧ (Part.reportExpiry tag p).written
= p.written := by
  unfold Part.reportExpiry; dsimp only; and_intros <;> (repeat' split) <;> simp_all [Prod.ext_iff]

@[simp] theorem Part.strayNotice_frame (p : Part) : (Part.strayNotice p).cfg = p.cfg ∧ (Part.strayNotice p).branch =
p.branch ∧ (Part.strayNotice p).trunkFramer = p.trunkFramer ∧ (Part.strayNotice p).labelFramer = p.labelFramer ∧
(Part.strayNotice p).guestFramer = p.guestFramer ∧ (Part.strayNotice p).links = p.links ∧ (Part.strayNotice p).fwd =
p.fwd ∧ (Part.strayNotice p).call = p.call ∧ (Part.strayNotice p).pres = p.pres ∧ (Part.strayNotice p).price = p.price ∧
(Part.strayNotice p).till = p.till ∧ (Part.strayNotice p).jrn = p.jrn ∧ (Part.strayNotice p).gst = p.gst ∧
(Part.strayNotice p).trk = p.trk ∧ (Part.strayNotice p).hdr = p.hdr ∧ (Part.strayNotice p).memCtr = p.memCtr ∧
(Part.strayNotice p).asks = p.asks ∧ (Part.strayNotice p).dram = p.dram ∧ (Part.strayNotice p).written = p.written := by
  unfold Part.strayNotice; and_intros <;> (repeat' split) <;> simp

@[simp] theorem Part.refreshLabel_frame (i : Nat) (e : LabelEntry) (p : Part) : (Part.refreshLabel i e p).cfg = p.cfg ∧
(Part.refreshLabel i e p).branch = p.branch ∧ (Part.refreshLabel i e p).trunkFramer = p.trunkFramer ∧ (Part.refreshLabel
i e p).labelFramer = p.labelFramer ∧ (Part.refreshLabel i e p).guestFramer = p.guestFramer ∧ (Part.refreshLabel i e
p).call = p.call ∧ (Part.refreshLabel i e p).pres = p.pres ∧ (Part.refreshLabel i e p).till = p.till ∧
(Part.refreshLabel i e p).jrn = p.jrn ∧ (Part.refreshLabel i e p).gst = p.gst ∧ (Part.refreshLabel i e p).trk = p.trk ∧
(Part.refreshLabel i e p).hdr = p.hdr ∧ (Part.refreshLabel i e p).memCtr = p.memCtr ∧ (Part.refreshLabel i e p).written
= p.written := by
  unfold Part.refreshLabel; and_intros <;> (repeat' split) <;> simp

@[simp] theorem Part.takeNotice_frame (b : Bytes) (p : Part) : (Part.takeNotice b p).cfg = p.cfg ∧ (Part.takeNotice b
p).branch = p.branch ∧ (Part.takeNotice b p).trunkFramer = p.trunkFramer ∧ (Part.takeNotice b p).labelFramer =
p.labelFramer ∧ (Part.takeNotice b p).guestFramer = p.guestFramer ∧ (Part.takeNotice b p).call = p.call ∧
(Part.takeNotice b p).pres = p.pres ∧ (Part.takeNotice b p).till = p.till ∧ (Part.takeNotice b p).jrn = p.jrn ∧
(Part.takeNotice b p).gst = p.gst ∧ (Part.takeNotice b p).trk = p.trk ∧ (Part.takeNotice b p).hdr = p.hdr ∧
(Part.takeNotice b p).memCtr = p.memCtr ∧ (Part.takeNotice b p).written = p.written := by
  unfold Part.takeNotice; refine ⟨?_,?_,?_,?_,?_,?_,?_,?_,?_,?_,?_,?_,?_,?_⟩ <;> ((try dsimp only); (repeat' split) <;> (try simp_all [Prod.ext_iff]) <;> (try (obtain ⟨_, rfl⟩ := ‹_ ∧ _ = (_ : Part)›)) <;> (try simp_all [Prod.ext_iff]) <;> (repeat' split) <;> (try (obtain ⟨_, rfl⟩ := ‹_ ∧ _ = (_ : Part)›)) <;> (try simp_all [Prod.ext_iff]) <;> (repeat' split) <;> (try simp_all))

@[simp] theorem Part.startWalk_frame (p : Part) : (Part.startWalk p).cfg = p.cfg ∧ (Part.startWalk p).branch = p.branch
∧ (Part.startWalk p).trunkFramer = p.trunkFramer ∧ (Part.startWalk p).labelFramer = p.labelFramer ∧ (Part.startWalk
p).guestFramer = p.guestFramer ∧ (Part.startWalk p).links = p.links ∧ (Part.startWalk p).fwd = p.fwd ∧ (Part.startWalk
p).call = p.call ∧ (Part.startWalk p).pres = p.pres ∧ (Part.startWalk p).till = p.till ∧ (Part.startWalk p).jrn = p.jrn
∧ (Part.startWalk p).gst = p.gst ∧ (Part.startWalk p).trk = p.trk ∧ (Part.startWalk p).hdr = p.hdr ∧ (Part.startWalk
p).memCtr = p.memCtr ∧ (Part.startWalk p).written = p.written := by
  exact ⟨(by unfold Part.startWalk; simp; exact foldl_keep Part.cfg _ (fun q x => by (try dsimp only); (repeat' split) <;> (try simp_all)) _ _),
    (by unfold Part.startWalk; simp; exact foldl_keep Part.branch _ (fun q x => by (try dsimp only); (repeat' split) <;> (try simp_all)) _ _),
    (by unfold Part.startWalk; simp; exact foldl_keep Part.trunkFramer _ (fun q x => by (try dsimp only); (repeat' split) <;> (try simp_all)) _ _),
    (by unfold Part.startWalk; simp; exact foldl_keep Part.labelFramer _ (fun q x => by (try dsimp only); (repeat' split) <;> (try simp_all)) _ _),
    (by unfold Part.startWalk; simp; exact foldl_keep Part.guestFramer _ (fun q x => by (try dsimp only); (repeat' split) <;> (try simp_all)) _ _),
    (by unfold Part.startWalk; simp; exact foldl_keep Part.links _ (fun q x => by (try dsimp only); (repeat' split) <;> (try simp_all)) _ _),
    (by unfold Part.startWalk; simp; exact foldl_keep Part.fwd _ (fun q x => by (try dsimp only); (repeat' split) <;> (try simp_all)) _ _),
    (by unfold Part.startWalk; simp; exact foldl_keep Part.call _ (fun q x => by (try dsimp only); (repeat' split) <;> (try simp_all)) _ _),
    (by unfold Part.startWalk; simp; exact foldl_keep Part.pres _ (fun q x => by (try dsimp only); (repeat' split) <;> (try simp_all)) _ _),
    (by unfold Part.startWalk; simp; exact foldl_keep Part.till _ (fun q x => by (try dsimp only); (repeat' split) <;> (try simp_all)) _ _),
    (by unfold Part.startWalk; simp; exact foldl_keep Part.jrn _ (fun q x => by (try dsimp only); (repeat' split) <;> (try simp_all)) _ _),
    (by unfold Part.startWalk; simp; exact foldl_keep Part.gst _ (fun q x => by (try dsimp only); (repeat' split) <;> (try simp_all)) _ _),
    (by unfold Part.startWalk; simp; exact foldl_keep Part.trk _ (fun q x => by (try dsimp only); (repeat' split) <;> (try simp_all)) _ _),
    (by unfold Part.startWalk; simp; exact foldl_keep Part.hdr _ (fun q x => by (try dsimp only); (repeat' split) <;> (try simp_all)) _ _),
    (by unfold Part.startWalk; simp; exact foldl_keep Part.memCtr _ (fun q x => by (try dsimp only); (repeat' split) <;> (try simp_all)) _ _),
    (by unfold Part.startWalk; simp; exact foldl_keep Part.written _ (fun q x => by (try dsimp only); (repeat' split) <;> (try simp_all)) _ _)⟩

@[simp] theorem Part.switchNotice_frame (p : Part) : (Part.switchNotice p).cfg = p.cfg ∧ (Part.switchNotice p).branch =
p.branch ∧ (Part.switchNotice p).trunkFramer = p.trunkFramer ∧ (Part.switchNotice p).labelFramer = p.labelFramer ∧
(Part.switchNotice p).guestFramer = p.guestFramer ∧ (Part.switchNotice p).links = p.links ∧ (Part.switchNotice p).fwd =
p.fwd ∧ (Part.switchNotice p).call = p.call ∧ (Part.switchNotice p).pres = p.pres ∧ (Part.switchNotice p).till = p.till
∧ (Part.switchNotice p).jrn = p.jrn ∧ (Part.switchNotice p).gst = p.gst ∧ (Part.switchNotice p).trk = p.trk ∧
(Part.switchNotice p).hdr = p.hdr ∧ (Part.switchNotice p).memCtr = p.memCtr ∧ (Part.switchNotice p).written = p.written
:= by
  unfold Part.switchNotice; and_intros <;> (repeat' split) <;> simp

@[simp] theorem Part.countPassDone_frame (p : Part) : (Part.countPassDone p).cfg = p.cfg ∧ (Part.countPassDone p).branch
= p.branch ∧ (Part.countPassDone p).trunkFramer = p.trunkFramer ∧ (Part.countPassDone p).labelFramer = p.labelFramer ∧
(Part.countPassDone p).guestFramer = p.guestFramer ∧ (Part.countPassDone p).links = p.links ∧ (Part.countPassDone p).fwd
= p.fwd ∧ (Part.countPassDone p).call = p.call ∧ (Part.countPassDone p).pres = p.pres ∧ (Part.countPassDone p).till =
p.till ∧ (Part.countPassDone p).jrn = p.jrn ∧ (Part.countPassDone p).gst = p.gst ∧ (Part.countPassDone p).trk = p.trk ∧
(Part.countPassDone p).hdr = p.hdr ∧ (Part.countPassDone p).memCtr = p.memCtr ∧ (Part.countPassDone p).written =
p.written := by
  unfold Part.countPassDone; and_intros <;> (repeat' split) <;> simp

@[simp] theorem Part.walkEntry_frame (i : Nat) (e : LabelEntry) (p : Part) : (Part.walkEntry i e p).cfg = p.cfg ∧
(Part.walkEntry i e p).branch = p.branch ∧ (Part.walkEntry i e p).trunkFramer = p.trunkFramer ∧ (Part.walkEntry i e
p).labelFramer = p.labelFramer ∧ (Part.walkEntry i e p).guestFramer = p.guestFramer ∧ (Part.walkEntry i e p).call =
p.call ∧ (Part.walkEntry i e p).pres = p.pres ∧ (Part.walkEntry i e p).till = p.till ∧ (Part.walkEntry i e p).jrn =
p.jrn ∧ (Part.walkEntry i e p).gst = p.gst ∧ (Part.walkEntry i e p).trk = p.trk ∧ (Part.walkEntry i e p).hdr = p.hdr ∧
(Part.walkEntry i e p).memCtr = p.memCtr ∧ (Part.walkEntry i e p).written = p.written := by
  unfold Part.walkEntry; dsimp only; and_intros <;> (repeat' split) <;> simp_all [Prod.ext_iff]

@[simp] theorem Part.walkEnd_frame (p : Part) : (Part.walkEnd p).cfg = p.cfg ∧ (Part.walkEnd p).branch = p.branch ∧
(Part.walkEnd p).trunkFramer = p.trunkFramer ∧ (Part.walkEnd p).labelFramer = p.labelFramer ∧ (Part.walkEnd
p).guestFramer = p.guestFramer ∧ (Part.walkEnd p).links = p.links ∧ (Part.walkEnd p).fwd = p.fwd ∧ (Part.walkEnd p).call
= p.call ∧ (Part.walkEnd p).pres = p.pres ∧ (Part.walkEnd p).till = p.till ∧ (Part.walkEnd p).jrn = p.jrn ∧
(Part.walkEnd p).gst = p.gst ∧ (Part.walkEnd p).trk = p.trk ∧ (Part.walkEnd p).hdr = p.hdr ∧ (Part.walkEnd p).memCtr =
p.memCtr ∧ (Part.walkEnd p).written = p.written := by
  unfold Part.walkEnd; refine ⟨?_,?_,?_,?_,?_,?_,?_,?_,?_,?_,?_,?_,?_,?_,?_,?_⟩ <;> ((try dsimp only); (repeat' split) <;> (try simp_all [Prod.ext_iff]) <;> (try (obtain ⟨_, rfl⟩ := ‹_ ∧ _ = (_ : Part)›)) <;> (try simp_all [Prod.ext_iff]) <;> (repeat' split) <;> (try (obtain ⟨_, rfl⟩ := ‹_ ∧ _ = (_ : Part)›)) <;> (try simp_all [Prod.ext_iff]) <;> (repeat' split) <;> (try simp_all))

@[simp] theorem Part.walkStep_frame (p : Part) : (Part.walkStep p).cfg = p.cfg ∧ (Part.walkStep p).branch = p.branch ∧
(Part.walkStep p).trunkFramer = p.trunkFramer ∧ (Part.walkStep p).labelFramer = p.labelFramer ∧ (Part.walkStep
p).guestFramer = p.guestFramer ∧ (Part.walkStep p).call = p.call ∧ (Part.walkStep p).pres = p.pres ∧ (Part.walkStep
p).till = p.till ∧ (Part.walkStep p).jrn = p.jrn ∧ (Part.walkStep p).gst = p.gst ∧ (Part.walkStep p).trk = p.trk ∧
(Part.walkStep p).hdr = p.hdr ∧ (Part.walkStep p).memCtr = p.memCtr ∧ (Part.walkStep p).written = p.written := by
  unfold Part.walkStep; and_intros <;> (repeat' split) <;> simp

@[simp] theorem Part.warmEntry_frame (i : Nat) (p : Part) : (Part.warmEntry i p).cfg = p.cfg ∧ (Part.warmEntry i
p).branch = p.branch ∧ (Part.warmEntry i p).trunkFramer = p.trunkFramer ∧ (Part.warmEntry i p).labelFramer =
p.labelFramer ∧ (Part.warmEntry i p).guestFramer = p.guestFramer ∧ (Part.warmEntry i p).links = p.links ∧
(Part.warmEntry i p).fwd = p.fwd ∧ (Part.warmEntry i p).call = p.call ∧ (Part.warmEntry i p).pres = p.pres ∧
(Part.warmEntry i p).till = p.till ∧ (Part.warmEntry i p).jrn = p.jrn ∧ (Part.warmEntry i p).gst = p.gst ∧
(Part.warmEntry i p).trk = p.trk ∧ (Part.warmEntry i p).hdr = p.hdr ∧ (Part.warmEntry i p).written = p.written := by
  unfold Part.warmEntry; and_intros <;> (repeat' split) <;> simp

theorem Part.warmPassDone_last {p d : Part} (h : d.cfg = p.cfg ∧ d.branch = p.branch ∧ d.trunkFramer = p.trunkFramer ∧ d.labelFramer = p.labelFramer ∧ d.guestFramer = p.guestFramer ∧ d.call = p.call ∧ d.pres = p.pres ∧ d.till = p.till ∧ d.jrn = p.jrn ∧ d.gst = p.gst ∧ d.trk = p.trk ∧ d.hdr = p.hdr ∧ d.written = p.written) :
    ∀ e, e = ((d.modLab fun l => { l with warm := .none }).startWalk).checkOrders → e.cfg = p.cfg ∧ e.branch = p.branch ∧ e.trunkFramer = p.trunkFramer ∧ e.labelFramer = p.labelFramer ∧ e.guestFramer = p.guestFramer ∧ e.call = p.call ∧ e.pres = p.pres ∧ e.till = p.till ∧ e.jrn = p.jrn ∧ e.gst = p.gst ∧ e.trk = p.trk ∧ e.hdr = p.hdr ∧ e.written = p.written := by
  intro e he; rw [he]; clear he e; obtain ⟨h0, h1, h2, h3, h4, h5, h6, h7, h8, h9, h10, h11, h12⟩ := h
  and_intros <;> simp [*]
@[simp] theorem Part.warmPassDone_frame (p : Part) : (Part.warmPassDone p).cfg = p.cfg ∧ (Part.warmPassDone p).branch = p.branch ∧ (Part.warmPassDone p).trunkFramer = p.trunkFramer ∧ (Part.warmPassDone p).labelFramer = p.labelFramer ∧ (Part.warmPassDone p).guestFramer = p.guestFramer ∧ (Part.warmPassDone p).call = p.call ∧ (Part.warmPassDone p).pres = p.pres ∧ (Part.warmPassDone p).till = p.till ∧ (Part.warmPassDone p).jrn = p.jrn ∧ (Part.warmPassDone p).gst = p.gst ∧ (Part.warmPassDone p).trk = p.trk ∧ (Part.warmPassDone p).hdr = p.hdr ∧ (Part.warmPassDone p).written = p.written := by
  unfold Part.warmPassDone; generalize List.range Config.labelSlots = l
  split
  · refine Part.warmPassDone_last ?_ _ rfl
    exact ⟨(foldl_cfg _ (fun q x => by simp) _ _).trans (by simp [Part.loadLabels]), (foldl_branch _ (fun q x => by simp) _ _).trans (by simp [Part.loadLabels]), (foldl_trunkFramer _ (fun q x => by simp) _ _).trans (by simp [Part.loadLabels]), (foldl_labelFramer _ (fun q x => by simp) _ _).trans (by simp [Part.loadLabels]), (foldl_guestFramer _ (fun q x => by simp) _ _).trans (by simp [Part.loadLabels]), (foldl_call _ (fun q x => by simp) _ _).trans (by simp [Part.loadLabels]), (foldl_pres _ (fun q x => by simp) _ _).trans (by simp [Part.loadLabels]), (foldl_till _ (fun q x => by simp) _ _).trans (by simp [Part.loadLabels]), (foldl_jrn _ (fun q x => by simp) _ _).trans (by simp [Part.loadLabels]), (foldl_gst _ (fun q x => by simp) _ _).trans (by simp [Part.loadLabels]), (foldl_trk _ (fun q x => by simp) _ _).trans (by simp [Part.loadLabels]), (foldl_hdr _ (fun q x => by simp) _ _).trans (by simp [Part.loadLabels]), (foldl_written _ (fun q x => by simp) _ _).trans (by simp [Part.loadLabels])⟩
  · simp

@[simp] theorem Part.orphan_frame (e : LabelEntry) (p : Part) : (Part.orphan e p).cfg = p.cfg ∧ (Part.orphan e p).branch
= p.branch ∧ (Part.orphan e p).trunkFramer = p.trunkFramer ∧ (Part.orphan e p).labelFramer = p.labelFramer ∧
(Part.orphan e p).guestFramer = p.guestFramer ∧ (Part.orphan e p).links = p.links ∧ (Part.orphan e p).fwd = p.fwd ∧
(Part.orphan e p).call = p.call ∧ (Part.orphan e p).pres = p.pres ∧ (Part.orphan e p).price = p.price ∧ (Part.orphan e
p).till = p.till ∧ (Part.orphan e p).jrn = p.jrn ∧ (Part.orphan e p).gst = p.gst ∧ (Part.orphan e p).trk = p.trk ∧
(Part.orphan e p).hdr = p.hdr ∧ (Part.orphan e p).memCtr = p.memCtr ∧ (Part.orphan e p).asks = p.asks ∧ (Part.orphan e
p).dram = p.dram ∧ (Part.orphan e p).written = p.written := by
  unfold Part.orphan; and_intros <;> (repeat' split) <;> simp

@[simp] theorem Part.uproot_frame (i : Nat) (e : LabelEntry) (p : Part) : (Part.uproot i e p).cfg = p.cfg ∧ (Part.uproot
i e p).branch = p.branch ∧ (Part.uproot i e p).trunkFramer = p.trunkFramer ∧ (Part.uproot i e p).labelFramer =
p.labelFramer ∧ (Part.uproot i e p).guestFramer = p.guestFramer ∧ (Part.uproot i e p).links = p.links ∧ (Part.uproot i e
p).fwd = p.fwd ∧ (Part.uproot i e p).call = p.call ∧ (Part.uproot i e p).pres = p.pres ∧ (Part.uproot i e p).price =
p.price ∧ (Part.uproot i e p).till = p.till ∧ (Part.uproot i e p).jrn = p.jrn ∧ (Part.uproot i e p).gst = p.gst ∧
(Part.uproot i e p).trk = p.trk ∧ (Part.uproot i e p).hdr = p.hdr ∧ (Part.uproot i e p).memCtr = p.memCtr ∧ (Part.uproot
i e p).asks = p.asks ∧ (Part.uproot i e p).dram = p.dram ∧ (Part.uproot i e p).written = p.written := by
  unfold Part.uproot; and_intros <;> (repeat' split) <;> simp

@[simp] theorem Part.bindLabel_frame (id : Nat) (item : Nat) (layout : Layout) (p : Part) : (Part.bindLabel id item
layout p).2.cfg = p.cfg ∧ (Part.bindLabel id item layout p).2.branch = p.branch ∧ (Part.bindLabel id item layout
p).2.trunkFramer = p.trunkFramer ∧ (Part.bindLabel id item layout p).2.labelFramer = p.labelFramer ∧ (Part.bindLabel id
item layout p).2.guestFramer = p.guestFramer ∧ (Part.bindLabel id item layout p).2.call = p.call ∧ (Part.bindLabel id
item layout p).2.pres = p.pres ∧ (Part.bindLabel id item layout p).2.till = p.till ∧ (Part.bindLabel id item layout
p).2.jrn = p.jrn ∧ (Part.bindLabel id item layout p).2.gst = p.gst ∧ (Part.bindLabel id item layout p).2.trk = p.trk ∧
(Part.bindLabel id item layout p).2.hdr = p.hdr ∧ (Part.bindLabel id item layout p).2.memCtr = p.memCtr ∧
(Part.bindLabel id item layout p).2.written = p.written := by
  unfold Part.bindLabel; refine ⟨?_,?_,?_,?_,?_,?_,?_,?_,?_,?_,?_,?_,?_,?_⟩ <;> ((try dsimp only); (repeat' split) <;> (try simp_all [Prod.ext_iff]) <;> (try (obtain ⟨_, rfl⟩ := ‹_ ∧ _ = (_ : Part)›)) <;> (try simp_all [Prod.ext_iff]) <;> (repeat' split) <;> (try (obtain ⟨_, rfl⟩ := ‹_ ∧ _ = (_ : Part)›)) <;> (try simp_all [Prod.ext_iff]) <;> (repeat' split) <;> (try simp_all))

@[simp] theorem Part.unbindLabel_frame (id : Nat) (p : Part) : (Part.unbindLabel id p).2.cfg = p.cfg ∧ (Part.unbindLabel
id p).2.branch = p.branch ∧ (Part.unbindLabel id p).2.trunkFramer = p.trunkFramer ∧ (Part.unbindLabel id
p).2.labelFramer = p.labelFramer ∧ (Part.unbindLabel id p).2.guestFramer = p.guestFramer ∧ (Part.unbindLabel id
p).2.links = p.links ∧ (Part.unbindLabel id p).2.fwd = p.fwd ∧ (Part.unbindLabel id p).2.call = p.call ∧
(Part.unbindLabel id p).2.pres = p.pres ∧ (Part.unbindLabel id p).2.till = p.till ∧ (Part.unbindLabel id p).2.jrn =
p.jrn ∧ (Part.unbindLabel id p).2.gst = p.gst ∧ (Part.unbindLabel id p).2.trk = p.trk ∧ (Part.unbindLabel id p).2.hdr =
p.hdr ∧ (Part.unbindLabel id p).2.memCtr = p.memCtr ∧ (Part.unbindLabel id p).2.written = p.written := by
  unfold Part.unbindLabel; refine ⟨?_,?_,?_,?_,?_,?_,?_,?_,?_,?_,?_,?_,?_,?_,?_,?_⟩ <;> ((try dsimp only); (repeat' split) <;> (try simp_all [Prod.ext_iff]) <;> (try (obtain ⟨_, rfl⟩ := ‹_ ∧ _ = (_ : Part)›)) <;> (try simp_all [Prod.ext_iff]) <;> (repeat' split) <;> (try (obtain ⟨_, rfl⟩ := ‹_ ∧ _ = (_ : Part)›)) <;> (try simp_all [Prod.ext_iff]) <;> (repeat' split) <;> (try simp_all))

@[simp] theorem Part.retryLabel_frame (id : Nat) (p : Part) : (Part.retryLabel id p).2.cfg = p.cfg ∧ (Part.retryLabel id
p).2.branch = p.branch ∧ (Part.retryLabel id p).2.trunkFramer = p.trunkFramer ∧ (Part.retryLabel id p).2.labelFramer =
p.labelFramer ∧ (Part.retryLabel id p).2.guestFramer = p.guestFramer ∧ (Part.retryLabel id p).2.call = p.call ∧
(Part.retryLabel id p).2.pres = p.pres ∧ (Part.retryLabel id p).2.till = p.till ∧ (Part.retryLabel id p).2.jrn = p.jrn ∧
(Part.retryLabel id p).2.gst = p.gst ∧ (Part.retryLabel id p).2.trk = p.trk ∧ (Part.retryLabel id p).2.hdr = p.hdr ∧
(Part.retryLabel id p).2.memCtr = p.memCtr ∧ (Part.retryLabel id p).2.written = p.written := by
  unfold Part.retryLabel; refine ⟨?_,?_,?_,?_,?_,?_,?_,?_,?_,?_,?_,?_,?_,?_⟩ <;> ((try dsimp only); (repeat' split) <;> (try simp_all [Prod.ext_iff]) <;> (try (obtain ⟨_, rfl⟩ := ‹_ ∧ _ = (_ : Part)›)) <;> (try simp_all [Prod.ext_iff]) <;> (repeat' split) <;> (try (obtain ⟨_, rfl⟩ := ‹_ ∧ _ = (_ : Part)›)) <;> (try simp_all [Prod.ext_iff]) <;> (repeat' split) <;> (try simp_all))

@[simp] theorem Part.headStatus_frame (p : Part) : (Part.headStatus p).cfg = p.cfg ∧ (Part.headStatus p).branch =
p.branch ∧ (Part.headStatus p).trunkFramer = p.trunkFramer ∧ (Part.headStatus p).labelFramer = p.labelFramer ∧
(Part.headStatus p).guestFramer = p.guestFramer ∧ (Part.headStatus p).call = p.call ∧ (Part.headStatus p).pres = p.pres
∧ (Part.headStatus p).till = p.till ∧ (Part.headStatus p).jrn = p.jrn ∧ (Part.headStatus p).gst = p.gst ∧
(Part.headStatus p).trk = p.trk ∧ (Part.headStatus p).hdr = p.hdr ∧ (Part.headStatus p).memCtr = p.memCtr ∧
(Part.headStatus p).written = p.written := by
  unfold Part.headStatus Part.takeLabelFrame; refine ⟨?_,?_,?_,?_,?_,?_,?_,?_,?_,?_,?_,?_,?_,?_⟩ <;> ((try dsimp only); (repeat' split) <;> (try simp_all [Prod.ext_iff]) <;> (try (obtain ⟨_, rfl⟩ := ‹_ ∧ _ = (_ : Part)›)) <;> (try simp_all [Prod.ext_iff]) <;> (repeat' split) <;> (try (obtain ⟨_, rfl⟩ := ‹_ ∧ _ = (_ : Part)›)) <;> (try simp_all [Prod.ext_iff]) <;> (repeat' split) <;> (try simp_all))

@[simp] theorem Part.labelUnknown_frame (p : Part) : (Part.labelUnknown p).cfg = p.cfg ∧ (Part.labelUnknown p).branch =
p.branch ∧ (Part.labelUnknown p).trunkFramer = p.trunkFramer ∧ (Part.labelUnknown p).labelFramer = p.labelFramer ∧
(Part.labelUnknown p).guestFramer = p.guestFramer ∧ (Part.labelUnknown p).call = p.call ∧ (Part.labelUnknown p).pres =
p.pres ∧ (Part.labelUnknown p).till = p.till ∧ (Part.labelUnknown p).jrn = p.jrn ∧ (Part.labelUnknown p).gst = p.gst ∧
(Part.labelUnknown p).trk = p.trk ∧ (Part.labelUnknown p).hdr = p.hdr ∧ (Part.labelUnknown p).memCtr = p.memCtr ∧
(Part.labelUnknown p).written = p.written := by
  unfold Part.labelUnknown Part.takeLabelFrame; refine ⟨?_,?_,?_,?_,?_,?_,?_,?_,?_,?_,?_,?_,?_,?_⟩ <;> ((try dsimp only); (repeat' split) <;> (try simp_all [Prod.ext_iff]) <;> (try (obtain ⟨_, rfl⟩ := ‹_ ∧ _ = (_ : Part)›)) <;> (try simp_all [Prod.ext_iff]) <;> (repeat' split) <;> (try (obtain ⟨_, rfl⟩ := ‹_ ∧ _ = (_ : Part)›)) <;> (try simp_all [Prod.ext_iff]) <;> (repeat' split) <;> (try simp_all))

@[simp] theorem Part.labelReport_frame (p : Part) : (Part.labelReport p).cfg = p.cfg ∧ (Part.labelReport p).branch =
p.branch ∧ (Part.labelReport p).trunkFramer = p.trunkFramer ∧ (Part.labelReport p).labelFramer = p.labelFramer ∧
(Part.labelReport p).guestFramer = p.guestFramer ∧ (Part.labelReport p).call = p.call ∧ (Part.labelReport p).pres =
p.pres ∧ (Part.labelReport p).till = p.till ∧ (Part.labelReport p).jrn = p.jrn ∧ (Part.labelReport p).gst = p.gst ∧
(Part.labelReport p).trk = p.trk ∧ (Part.labelReport p).hdr = p.hdr ∧ (Part.labelReport p).memCtr = p.memCtr ∧
(Part.labelReport p).written = p.written := by
  unfold Part.labelReport Part.takeLabelFrame; refine ⟨?_,?_,?_,?_,?_,?_,?_,?_,?_,?_,?_,?_,?_,?_⟩ <;> ((try dsimp only); (repeat' split) <;> (try simp_all [Prod.ext_iff]) <;> (try (obtain ⟨_, rfl⟩ := ‹_ ∧ _ = (_ : Part)›)) <;> (try simp_all [Prod.ext_iff]) <;> (repeat' split) <;> (try (obtain ⟨_, rfl⟩ := ‹_ ∧ _ = (_ : Part)›)) <;> (try simp_all [Prod.ext_iff]) <;> (repeat' split) <;> (try simp_all))

@[simp] theorem Part.labelNotice_frame (p : Part) : (Part.labelNotice p).cfg = p.cfg ∧ (Part.labelNotice p).branch =
p.branch ∧ (Part.labelNotice p).trunkFramer = p.trunkFramer ∧ (Part.labelNotice p).labelFramer = p.labelFramer ∧
(Part.labelNotice p).guestFramer = p.guestFramer ∧ (Part.labelNotice p).call = p.call ∧ (Part.labelNotice p).pres =
p.pres ∧ (Part.labelNotice p).till = p.till ∧ (Part.labelNotice p).jrn = p.jrn ∧ (Part.labelNotice p).gst = p.gst ∧
(Part.labelNotice p).trk = p.trk ∧ (Part.labelNotice p).hdr = p.hdr ∧ (Part.labelNotice p).memCtr = p.memCtr ∧
(Part.labelNotice p).written = p.written := by
  unfold Part.labelNotice Part.takeLabelFrame; refine ⟨?_,?_,?_,?_,?_,?_,?_,?_,?_,?_,?_,?_,?_,?_⟩ <;> ((try dsimp only); (repeat' split) <;> (try simp_all [Prod.ext_iff]) <;> (try (obtain ⟨_, rfl⟩ := ‹_ ∧ _ = (_ : Part)›)) <;> (try simp_all [Prod.ext_iff]) <;> (repeat' split) <;> (try (obtain ⟨_, rfl⟩ := ‹_ ∧ _ = (_ : Part)›)) <;> (try simp_all [Prod.ext_iff]) <;> (repeat' split) <;> (try simp_all))

@[simp] theorem Part.headExpiry_frame (p : Part) : (Part.headExpiry p).cfg = p.cfg ∧ (Part.headExpiry p).branch =
p.branch ∧ (Part.headExpiry p).trunkFramer = p.trunkFramer ∧ (Part.headExpiry p).labelFramer = p.labelFramer ∧
(Part.headExpiry p).guestFramer = p.guestFramer ∧ (Part.headExpiry p).links = p.links ∧ (Part.headExpiry p).call =
p.call ∧ (Part.headExpiry p).pres = p.pres ∧ (Part.headExpiry p).till = p.till ∧ (Part.headExpiry p).jrn = p.jrn ∧
(Part.headExpiry p).gst = p.gst ∧ (Part.headExpiry p).trk = p.trk ∧ (Part.headExpiry p).hdr = p.hdr ∧ (Part.headExpiry
p).memCtr = p.memCtr ∧ (Part.headExpiry p).written = p.written := by
  unfold Part.headExpiry; and_intros <;> (repeat' split) <;> simp

@[simp] theorem Part.retryDue_frame (p : Part) : (Part.retryDue p).cfg = p.cfg ∧ (Part.retryDue p).branch = p.branch ∧
(Part.retryDue p).trunkFramer = p.trunkFramer ∧ (Part.retryDue p).labelFramer = p.labelFramer ∧ (Part.retryDue
p).guestFramer = p.guestFramer ∧ (Part.retryDue p).call = p.call ∧ (Part.retryDue p).pres = p.pres ∧ (Part.retryDue
p).till = p.till ∧ (Part.retryDue p).jrn = p.jrn ∧ (Part.retryDue p).gst = p.gst ∧ (Part.retryDue p).trk = p.trk ∧
(Part.retryDue p).hdr = p.hdr ∧ (Part.retryDue p).memCtr = p.memCtr ∧ (Part.retryDue p).written = p.written := by
  unfold Part.retryDue
  exact ⟨Eq.trans (foldl_keep Part.cfg _ (fun q x => by (try dsimp only); (repeat' split) <;> (try simp_all)) _ _) (by simp),
    Eq.trans (foldl_keep Part.branch _ (fun q x => by (try dsimp only); (repeat' split) <;> (try simp_all)) _ _) (by simp),
    Eq.trans (foldl_keep Part.trunkFramer _ (fun q x => by (try dsimp only); (repeat' split) <;> (try simp_all)) _ _) (by simp),
    Eq.trans (foldl_keep Part.labelFramer _ (fun q x => by (try dsimp only); (repeat' split) <;> (try simp_all)) _ _) (by simp),
    Eq.trans (foldl_keep Part.guestFramer _ (fun q x => by (try dsimp only); (repeat' split) <;> (try simp_all)) _ _) (by simp),
    Eq.trans (foldl_keep Part.call _ (fun q x => by (try dsimp only); (repeat' split) <;> (try simp_all)) _ _) (by simp),
    Eq.trans (foldl_keep Part.pres _ (fun q x => by (try dsimp only); (repeat' split) <;> (try simp_all)) _ _) (by simp),
    Eq.trans (foldl_keep Part.till _ (fun q x => by (try dsimp only); (repeat' split) <;> (try simp_all)) _ _) (by simp),
    Eq.trans (foldl_keep Part.jrn _ (fun q x => by (try dsimp only); (repeat' split) <;> (try simp_all)) _ _) (by simp),
    Eq.trans (foldl_keep Part.gst _ (fun q x => by (try dsimp only); (repeat' split) <;> (try simp_all)) _ _) (by simp),
    Eq.trans (foldl_keep Part.trk _ (fun q x => by (try dsimp only); (repeat' split) <;> (try simp_all)) _ _) (by simp),
    Eq.trans (foldl_keep Part.hdr _ (fun q x => by (try dsimp only); (repeat' split) <;> (try simp_all)) _ _) (by simp),
    Eq.trans (foldl_keep Part.memCtr _ (fun q x => by (try dsimp only); (repeat' split) <;> (try simp_all)) _ _) (by simp),
    Eq.trans (foldl_keep Part.written _ (fun q x => by (try dsimp only); (repeat' split) <;> (try simp_all)) _ _) (by simp)⟩

@[simp] theorem Part.retryTick_frame (p : Part) : (Part.retryTick p).cfg = p.cfg ∧ (Part.retryTick p).branch = p.branch
∧ (Part.retryTick p).trunkFramer = p.trunkFramer ∧ (Part.retryTick p).labelFramer = p.labelFramer ∧ (Part.retryTick
p).guestFramer = p.guestFramer ∧ (Part.retryTick p).call = p.call ∧ (Part.retryTick p).pres = p.pres ∧ (Part.retryTick
p).till = p.till ∧ (Part.retryTick p).jrn = p.jrn ∧ (Part.retryTick p).gst = p.gst ∧ (Part.retryTick p).trk = p.trk ∧
(Part.retryTick p).hdr = p.hdr ∧ (Part.retryTick p).memCtr = p.memCtr ∧ (Part.retryTick p).written = p.written := by
  unfold Part.retryTick; dsimp only; and_intros <;> (repeat' split) <;> simp_all [Prod.ext_iff]

end Sys2Proof.Machine
end

