-- ==== Sys2Proof/Laws/GuestsFrames.lean ====
section
/-! SUPPORT. What each operation of forwarding, guests and packets leaves as it was: one lemma for each, a rewrite rule for every block of the part that
it does not touch. -/

set_option linter.all false

/- Every lemma here is a case split over a long record; the default limit is for short proofs. -/
set_option maxHeartbeats 4000000

open Sys2Proof Sys2Proof.Machine

namespace Sys2Proof.Machine

@[simp] theorem Part.setRoute_frame (i : Fin 32) (e : RouteEntry) (p : Part) : (Part.setRoute i e p).cfg = p.cfg ∧
(Part.setRoute i e p).branch = p.branch ∧ (Part.setRoute i e p).trunkFramer = p.trunkFramer ∧ (Part.setRoute i e
p).labelFramer = p.labelFramer ∧ (Part.setRoute i e p).guestFramer = p.guestFramer ∧ (Part.setRoute i e p).links =
p.links ∧ (Part.setRoute i e p).call = p.call ∧ (Part.setRoute i e p).pres = p.pres ∧ (Part.setRoute i e p).price =
p.price ∧ (Part.setRoute i e p).till = p.till ∧ (Part.setRoute i e p).jrn = p.jrn ∧ (Part.setRoute i e p).lab = p.lab ∧
(Part.setRoute i e p).gst = p.gst ∧ (Part.setRoute i e p).trk = p.trk ∧ (Part.setRoute i e p).hdr = p.hdr ∧
(Part.setRoute i e p).memCtr = p.memCtr ∧ (Part.setRoute i e p).asks = p.asks ∧ (Part.setRoute i e p).dram = p.dram ∧
(Part.setRoute i e p).written = p.written := by
  unfold Part.setRoute; and_intros <;> (repeat' split) <;> simp

@[simp] theorem Part.initRoutes_frame (c : ConfigBlock) (p : Part) : (Part.initRoutes c p).cfg = p.cfg ∧
(Part.initRoutes c p).branch = p.branch ∧ (Part.initRoutes c p).trunkFramer = p.trunkFramer ∧ (Part.initRoutes c
p).labelFramer = p.labelFramer ∧ (Part.initRoutes c p).guestFramer = p.guestFramer ∧ (Part.initRoutes c p).links =
p.links ∧ (Part.initRoutes c p).call = p.call ∧ (Part.initRoutes c p).pres = p.pres ∧ (Part.initRoutes c p).price =
p.price ∧ (Part.initRoutes c p).till = p.till ∧ (Part.initRoutes c p).jrn = p.jrn ∧ (Part.initRoutes c p).lab = p.lab ∧
(Part.initRoutes c p).gst = p.gst ∧ (Part.initRoutes c p).trk = p.trk ∧ (Part.initRoutes c p).hdr = p.hdr ∧
(Part.initRoutes c p).memCtr = p.memCtr ∧ (Part.initRoutes c p).asks = p.asks ∧ (Part.initRoutes c p).dram = p.dram ∧
(Part.initRoutes c p).written = p.written := by
  unfold Part.initRoutes; and_intros <;> (repeat' split) <;> simp

@[simp] theorem Part.recomputeDefault_frame (p : Part) : (Part.recomputeDefault p).cfg = p.cfg ∧ (Part.recomputeDefault
p).branch = p.branch ∧ (Part.recomputeDefault p).trunkFramer = p.trunkFramer ∧ (Part.recomputeDefault p).labelFramer =
p.labelFramer ∧ (Part.recomputeDefault p).guestFramer = p.guestFramer ∧ (Part.recomputeDefault p).links = p.links ∧
(Part.recomputeDefault p).call = p.call ∧ (Part.recomputeDefault p).pres = p.pres ∧ (Part.recomputeDefault p).price =
p.price ∧ (Part.recomputeDefault p).till = p.till ∧ (Part.recomputeDefault p).jrn = p.jrn ∧ (Part.recomputeDefault
p).lab = p.lab ∧ (Part.recomputeDefault p).gst = p.gst ∧ (Part.recomputeDefault p).trk = p.trk ∧ (Part.recomputeDefault
p).hdr = p.hdr ∧ (Part.recomputeDefault p).memCtr = p.memCtr ∧ (Part.recomputeDefault p).asks = p.asks ∧
(Part.recomputeDefault p).dram = p.dram ∧ (Part.recomputeDefault p).written = p.written := by
  unfold Part.recomputeDefault; and_intros <;> (repeat' split) <;> simp

@[simp] theorem Part.routeNotice_frame (n : StationNo) (p : Part) : (Part.routeNotice n p).cfg = p.cfg ∧
(Part.routeNotice n p).branch = p.branch ∧ (Part.routeNotice n p).trunkFramer = p.trunkFramer ∧ (Part.routeNotice n
p).labelFramer = p.labelFramer ∧ (Part.routeNotice n p).guestFramer = p.guestFramer ∧ (Part.routeNotice n p).links =
p.links ∧ (Part.routeNotice n p).call = p.call ∧ (Part.routeNotice n p).pres = p.pres ∧ (Part.routeNotice n p).price =
p.price ∧ (Part.routeNotice n p).till = p.till ∧ (Part.routeNotice n p).jrn = p.jrn ∧ (Part.routeNotice n p).lab = p.lab
∧ (Part.routeNotice n p).gst = p.gst ∧ (Part.routeNotice n p).trk = p.trk ∧ (Part.routeNotice n p).hdr = p.hdr ∧
(Part.routeNotice n p).memCtr = p.memCtr ∧ (Part.routeNotice n p).asks = p.asks ∧ (Part.routeNotice n p).dram = p.dram ∧
(Part.routeNotice n p).written = p.written := by
  unfold Part.routeNotice; and_intros <;> (repeat' split) <;> simp

@[simp] theorem Part.discardPacket_frame (x : Cause) (b : Buf) (p : Part) : (Part.discardPacket x b p).2.cfg = p.cfg ∧
(Part.discardPacket x b p).2.branch = p.branch ∧ (Part.discardPacket x b p).2.trunkFramer = p.trunkFramer ∧
(Part.discardPacket x b p).2.labelFramer = p.labelFramer ∧ (Part.discardPacket x b p).2.guestFramer = p.guestFramer ∧
(Part.discardPacket x b p).2.links = p.links ∧ (Part.discardPacket x b p).2.call = p.call ∧ (Part.discardPacket x b
p).2.pres = p.pres ∧ (Part.discardPacket x b p).2.price = p.price ∧ (Part.discardPacket x b p).2.till = p.till ∧
(Part.discardPacket x b p).2.jrn = p.jrn ∧ (Part.discardPacket x b p).2.lab = p.lab ∧ (Part.discardPacket x b p).2.gst =
p.gst ∧ (Part.discardPacket x b p).2.trk = p.trk ∧ (Part.discardPacket x b p).2.hdr = p.hdr ∧ (Part.discardPacket x b
p).2.memCtr = p.memCtr ∧ (Part.discardPacket x b p).2.asks = p.asks ∧ (Part.discardPacket x b p).2.dram = p.dram ∧
(Part.discardPacket x b p).2.written = p.written := by
  unfold Part.discardPacket; and_intros <;> (repeat' split) <;> simp

@[simp] theorem Part.toStation_frame (n : StationNo) (src : Source) (packet : Bytes) (b : Buf) (p : Part) :
(Part.toStation n src packet b p).2.cfg = p.cfg ∧ (Part.toStation n src packet b p).2.trunkFramer = p.trunkFramer ∧
(Part.toStation n src packet b p).2.labelFramer = p.labelFramer ∧ (Part.toStation n src packet b p).2.guestFramer =
p.guestFramer ∧ (Part.toStation n src packet b p).2.links = p.links ∧ (Part.toStation n src packet b p).2.call = p.call
∧ (Part.toStation n src packet b p).2.pres = p.pres ∧ (Part.toStation n src packet b p).2.price = p.price ∧
(Part.toStation n src packet b p).2.till = p.till ∧ (Part.toStation n src packet b p).2.jrn = p.jrn ∧ (Part.toStation n
src packet b p).2.lab = p.lab ∧ (Part.toStation n src packet b p).2.gst = p.gst ∧ (Part.toStation n src packet b
p).2.trk = p.trk ∧ (Part.toStation n src packet b p).2.hdr = p.hdr ∧ (Part.toStation n src packet b p).2.memCtr =
p.memCtr ∧ (Part.toStation n src packet b p).2.written = p.written := by
  unfold Part.toStation; and_intros <;> (repeat' split) <;> simp

@[simp] theorem Part.route_frame (src : Source) (packet : Bytes) (b : Buf) (p : Part) : (Part.route src packet b
p).2.cfg = p.cfg ∧ (Part.route src packet b p).2.trunkFramer = p.trunkFramer ∧ (Part.route src packet b p).2.labelFramer
= p.labelFramer ∧ (Part.route src packet b p).2.guestFramer = p.guestFramer ∧ (Part.route src packet b p).2.call =
p.call ∧ (Part.route src packet b p).2.pres = p.pres ∧ (Part.route src packet b p).2.price = p.price ∧ (Part.route src
packet b p).2.till = p.till ∧ (Part.route src packet b p).2.jrn = p.jrn ∧ (Part.route src packet b p).2.lab = p.lab ∧
(Part.route src packet b p).2.gst = p.gst ∧ (Part.route src packet b p).2.trk = p.trk ∧ (Part.route src packet b
p).2.hdr = p.hdr ∧ (Part.route src packet b p).2.memCtr = p.memCtr ∧ (Part.route src packet b p).2.written = p.written
:= by
  unfold Part.route; and_intros <;> (repeat' split) <;> simp

@[simp] theorem Part.dropPackets_frame (p : Part) : (Part.dropPackets p).cfg = p.cfg ∧ (Part.dropPackets p).branch =
p.branch ∧ (Part.dropPackets p).trunkFramer = p.trunkFramer ∧ (Part.dropPackets p).labelFramer = p.labelFramer ∧
(Part.dropPackets p).guestFramer = p.guestFramer ∧ (Part.dropPackets p).links = p.links ∧ (Part.dropPackets p).call =
p.call ∧ (Part.dropPackets p).pres = p.pres ∧ (Part.dropPackets p).price = p.price ∧ (Part.dropPackets p).till = p.till
∧ (Part.dropPackets p).jrn = p.jrn ∧ (Part.dropPackets p).lab = p.lab ∧ (Part.dropPackets p).gst = p.gst ∧
(Part.dropPackets p).trk = p.trk ∧ (Part.dropPackets p).hdr = p.hdr ∧ (Part.dropPackets p).memCtr = p.memCtr ∧
(Part.dropPackets p).asks = p.asks ∧ (Part.dropPackets p).dram = p.dram ∧ (Part.dropPackets p).written = p.written := by
  unfold Part.dropPackets; and_intros <;> (repeat' split) <;> simp

@[simp] theorem Part.dropRadio_frame (p : Part) : (Part.dropRadio p).cfg = p.cfg ∧ (Part.dropRadio p).branch = p.branch
∧ (Part.dropRadio p).trunkFramer = p.trunkFramer ∧ (Part.dropRadio p).labelFramer = p.labelFramer ∧ (Part.dropRadio
p).guestFramer = p.guestFramer ∧ (Part.dropRadio p).links = p.links ∧ (Part.dropRadio p).call = p.call ∧ (Part.dropRadio
p).pres = p.pres ∧ (Part.dropRadio p).price = p.price ∧ (Part.dropRadio p).till = p.till ∧ (Part.dropRadio p).jrn =
p.jrn ∧ (Part.dropRadio p).lab = p.lab ∧ (Part.dropRadio p).gst = p.gst ∧ (Part.dropRadio p).trk = p.trk ∧
(Part.dropRadio p).hdr = p.hdr ∧ (Part.dropRadio p).memCtr = p.memCtr ∧ (Part.dropRadio p).asks = p.asks ∧
(Part.dropRadio p).dram = p.dram ∧ (Part.dropRadio p).written = p.written := by
  unfold Part.dropRadio; and_intros <;> (repeat' split) <;> simp

@[simp] theorem Part.setGuest_frame (i : Nat) (g : Guest) (p : Part) : (Part.setGuest i g p).cfg = p.cfg ∧
(Part.setGuest i g p).branch = p.branch ∧ (Part.setGuest i g p).trunkFramer = p.trunkFramer ∧ (Part.setGuest i g
p).labelFramer = p.labelFramer ∧ (Part.setGuest i g p).guestFramer = p.guestFramer ∧ (Part.setGuest i g p).links =
p.links ∧ (Part.setGuest i g p).fwd = p.fwd ∧ (Part.setGuest i g p).call = p.call ∧ (Part.setGuest i g p).pres = p.pres
∧ (Part.setGuest i g p).price = p.price ∧ (Part.setGuest i g p).till = p.till ∧ (Part.setGuest i g p).jrn = p.jrn ∧
(Part.setGuest i g p).lab = p.lab ∧ (Part.setGuest i g p).gst = p.gst ∧ (Part.setGuest i g p).trk = p.trk ∧
(Part.setGuest i g p).hdr = p.hdr ∧ (Part.setGuest i g p).memCtr = p.memCtr ∧ (Part.setGuest i g p).written = p.written
:= by
  unfold Part.setGuest; and_intros <;> (repeat' split) <;> simp

@[simp] theorem Part.freeGuest_frame (i : Nat) (p : Part) : (Part.freeGuest i p).cfg = p.cfg ∧ (Part.freeGuest i
p).branch = p.branch ∧ (Part.freeGuest i p).trunkFramer = p.trunkFramer ∧ (Part.freeGuest i p).labelFramer =
p.labelFramer ∧ (Part.freeGuest i p).guestFramer = p.guestFramer ∧ (Part.freeGuest i p).links = p.links ∧
(Part.freeGuest i p).fwd = p.fwd ∧ (Part.freeGuest i p).call = p.call ∧ (Part.freeGuest i p).pres = p.pres ∧
(Part.freeGuest i p).price = p.price ∧ (Part.freeGuest i p).till = p.till ∧ (Part.freeGuest i p).jrn = p.jrn ∧
(Part.freeGuest i p).lab = p.lab ∧ (Part.freeGuest i p).gst = p.gst ∧ (Part.freeGuest i p).trk = p.trk ∧ (Part.freeGuest
i p).hdr = p.hdr ∧ (Part.freeGuest i p).memCtr = p.memCtr ∧ (Part.freeGuest i p).written = p.written := by
  unfold Part.freeGuest; and_intros <;> (repeat' split) <;> simp

@[simp] theorem Part.readGuests_frame (n : Nat) (p : Part) : (Part.readGuests n p).cfg = p.cfg ∧ (Part.readGuests n
p).branch = p.branch ∧ (Part.readGuests n p).trunkFramer = p.trunkFramer ∧ (Part.readGuests n p).labelFramer =
p.labelFramer ∧ (Part.readGuests n p).guestFramer = p.guestFramer ∧ (Part.readGuests n p).links = p.links ∧
(Part.readGuests n p).fwd = p.fwd ∧ (Part.readGuests n p).call = p.call ∧ (Part.readGuests n p).pres = p.pres ∧
(Part.readGuests n p).price = p.price ∧ (Part.readGuests n p).till = p.till ∧ (Part.readGuests n p).jrn = p.jrn ∧
(Part.readGuests n p).lab = p.lab ∧ (Part.readGuests n p).gst = p.gst ∧ (Part.readGuests n p).trk = p.trk ∧
(Part.readGuests n p).hdr = p.hdr ∧ (Part.readGuests n p).memCtr = p.memCtr ∧ (Part.readGuests n p).dram = p.dram ∧
(Part.readGuests n p).written = p.written := by
  unfold Part.readGuests; and_intros <;> (repeat' split) <;> simp

@[simp] theorem Part.loadGuests_frame (p : Part) : (Part.loadGuests p).cfg = p.cfg ∧ (Part.loadGuests p).branch =
p.branch ∧ (Part.loadGuests p).trunkFramer = p.trunkFramer ∧ (Part.loadGuests p).labelFramer = p.labelFramer ∧
(Part.loadGuests p).guestFramer = p.guestFramer ∧ (Part.loadGuests p).links = p.links ∧ (Part.loadGuests p).fwd = p.fwd
∧ (Part.loadGuests p).call = p.call ∧ (Part.loadGuests p).pres = p.pres ∧ (Part.loadGuests p).price = p.price ∧
(Part.loadGuests p).till = p.till ∧ (Part.loadGuests p).jrn = p.jrn ∧ (Part.loadGuests p).lab = p.lab ∧ (Part.loadGuests
p).gst = p.gst ∧ (Part.loadGuests p).trk = p.trk ∧ (Part.loadGuests p).hdr = p.hdr ∧ (Part.loadGuests p).memCtr =
p.memCtr ∧ (Part.loadGuests p).dram = p.dram ∧ (Part.loadGuests p).written = p.written := by
  unfold Part.loadGuests; refine ⟨?_,?_,?_,?_,?_,?_,?_,?_,?_,?_,?_,?_,?_,?_,?_,?_,?_,?_,?_⟩ <;> ((try dsimp only); (repeat' split) <;> (try simp_all [Prod.ext_iff]) <;> (try (obtain ⟨_, rfl⟩ := ‹_ ∧ _ = (_ : Part)›)) <;> (try simp_all [Prod.ext_iff]) <;> (repeat' split) <;> (try (obtain ⟨_, rfl⟩ := ‹_ ∧ _ = (_ : Part)›)) <;> (try simp_all [Prod.ext_iff]) <;> (repeat' split) <;> (try simp_all))

@[simp] theorem Part.clearGuestBurst_frame (p : Part) : (Part.clearGuestBurst p).cfg = p.cfg ∧ (Part.clearGuestBurst
p).branch = p.branch ∧ (Part.clearGuestBurst p).trunkFramer = p.trunkFramer ∧ (Part.clearGuestBurst p).labelFramer =
p.labelFramer ∧ (Part.clearGuestBurst p).guestFramer = p.guestFramer ∧ (Part.clearGuestBurst p).links = p.links ∧
(Part.clearGuestBurst p).fwd = p.fwd ∧ (Part.clearGuestBurst p).call = p.call ∧ (Part.clearGuestBurst p).pres = p.pres ∧
(Part.clearGuestBurst p).price = p.price ∧ (Part.clearGuestBurst p).till = p.till ∧ (Part.clearGuestBurst p).jrn = p.jrn
∧ (Part.clearGuestBurst p).lab = p.lab ∧ (Part.clearGuestBurst p).trk = p.trk ∧ (Part.clearGuestBurst p).hdr = p.hdr ∧
(Part.clearGuestBurst p).memCtr = p.memCtr := by
  unfold Part.clearGuestBurst; dsimp only; and_intros <;> (repeat' split) <;> simp_all [Prod.ext_iff]

@[simp] theorem Part.notice_frame (n : GuestNotice) (device : Nat) (index : Nat) (address : Nat) (reason : Nat) (up :
Nat) (down : Nat) (drops : Nat) (p : Part) : (Part.notice n device index address reason up down drops p).cfg = p.cfg ∧
(Part.notice n device index address reason up down drops p).branch = p.branch ∧ (Part.notice n device index address
reason up down drops p).trunkFramer = p.trunkFramer ∧ (Part.notice n device index address reason up down drops
p).labelFramer = p.labelFramer ∧ (Part.notice n device index address reason up down drops p).guestFramer = p.guestFramer
∧ (Part.notice n device index address reason up down drops p).call = p.call ∧ (Part.notice n device index address reason
up down drops p).pres = p.pres ∧ (Part.notice n device index address reason up down drops p).price = p.price ∧
(Part.notice n device index address reason up down drops p).till = p.till ∧ (Part.notice n device index address reason
up down drops p).jrn = p.jrn ∧ (Part.notice n device index address reason up down drops p).lab = p.lab ∧ (Part.notice n
device index address reason up down drops p).trk = p.trk ∧ (Part.notice n device index address reason up down drops
p).hdr = p.hdr ∧ (Part.notice n device index address reason up down drops p).memCtr = p.memCtr ∧ (Part.notice n device
index address reason up down drops p).written = p.written := by
  unfold Part.notice; refine ⟨?_,?_,?_,?_,?_,?_,?_,?_,?_,?_,?_,?_,?_,?_,?_⟩ <;> ((try dsimp only); (repeat' split) <;> (try simp_all [Prod.ext_iff]) <;> (try (obtain ⟨_, rfl⟩ := ‹_ ∧ _ = (_ : Part)›)) <;> (try simp_all [Prod.ext_iff]) <;> (repeat' split) <;> (try (obtain ⟨_, rfl⟩ := ‹_ ∧ _ = (_ : Part)›)) <;> (try simp_all [Prod.ext_iff]) <;> (repeat' split) <;> (try simp_all))

@[simp] theorem Part.radioHeard_frame (p : Part) : (Part.radioHeard p).cfg = p.cfg ∧ (Part.radioHeard p).branch =
p.branch ∧ (Part.radioHeard p).trunkFramer = p.trunkFramer ∧ (Part.radioHeard p).labelFramer = p.labelFramer ∧
(Part.radioHeard p).guestFramer = p.guestFramer ∧ (Part.radioHeard p).call = p.call ∧ (Part.radioHeard p).pres = p.pres
∧ (Part.radioHeard p).price = p.price ∧ (Part.radioHeard p).till = p.till ∧ (Part.radioHeard p).jrn = p.jrn ∧
(Part.radioHeard p).lab = p.lab ∧ (Part.radioHeard p).trk = p.trk ∧ (Part.radioHeard p).hdr = p.hdr ∧ (Part.radioHeard
p).memCtr = p.memCtr ∧ (Part.radioHeard p).written = p.written := by
  unfold Part.radioHeard; and_intros <;> (repeat' split) <;> simp

@[simp] theorem Part.endGuest_frame (r : EndReason) (i : Nat) (g : Guest) (p : Part) : (Part.endGuest r i g p).cfg =
p.cfg ∧ (Part.endGuest r i g p).branch = p.branch ∧ (Part.endGuest r i g p).trunkFramer = p.trunkFramer ∧ (Part.endGuest
r i g p).labelFramer = p.labelFramer ∧ (Part.endGuest r i g p).guestFramer = p.guestFramer ∧ (Part.endGuest r i g
p).call = p.call ∧ (Part.endGuest r i g p).pres = p.pres ∧ (Part.endGuest r i g p).price = p.price ∧ (Part.endGuest r i
g p).till = p.till ∧ (Part.endGuest r i g p).jrn = p.jrn ∧ (Part.endGuest r i g p).lab = p.lab ∧ (Part.endGuest r i g
p).trk = p.trk ∧ (Part.endGuest r i g p).hdr = p.hdr ∧ (Part.endGuest r i g p).memCtr = p.memCtr ∧ (Part.endGuest r i g
p).written = p.written := by
  unfold Part.endGuest; and_intros <;> (repeat' split) <;> simp

@[simp] theorem Part.endGuests_frame (r : EndReason) (cond : Part → Guest → Bool) (p : Part) : (Part.endGuests r cond
p).cfg = p.cfg ∧ (Part.endGuests r cond p).branch = p.branch ∧ (Part.endGuests r cond p).trunkFramer = p.trunkFramer ∧
(Part.endGuests r cond p).labelFramer = p.labelFramer ∧ (Part.endGuests r cond p).guestFramer = p.guestFramer ∧
(Part.endGuests r cond p).call = p.call ∧ (Part.endGuests r cond p).pres = p.pres ∧ (Part.endGuests r cond p).price =
p.price ∧ (Part.endGuests r cond p).till = p.till ∧ (Part.endGuests r cond p).jrn = p.jrn ∧ (Part.endGuests r cond
p).lab = p.lab ∧ (Part.endGuests r cond p).trk = p.trk ∧ (Part.endGuests r cond p).hdr = p.hdr ∧ (Part.endGuests r cond
p).memCtr = p.memCtr ∧ (Part.endGuests r cond p).written = p.written := by
  unfold Part.endGuests
  exact ⟨Eq.trans (foldl_keep Part.cfg _ (fun q x => by (try dsimp only); (repeat' split) <;> (try simp_all)) _ _) (by simp),
    Eq.trans (foldl_keep Part.branch _ (fun q x => by (try dsimp only); (repeat' split) <;> (try simp_all)) _ _) (by simp),
    Eq.trans (foldl_keep Part.trunkFramer _ (fun q x => by (try dsimp only); (repeat' split) <;> (try simp_all)) _ _) (by simp),
    Eq.trans (foldl_keep Part.labelFramer _ (fun q x => by (try dsimp only); (repeat' split) <;> (try simp_all)) _ _) (by simp),
    Eq.trans (foldl_keep Part.guestFramer _ (fun q x => by (try dsimp only); (repeat' split) <;> (try simp_all)) _ _) (by simp),
    Eq.trans (foldl_keep Part.call _ (fun q x => by (try dsimp only); (repeat' split) <;> (try simp_all)) _ _) (by simp),
    Eq.trans (foldl_keep Part.pres _ (fun q x => by (try dsimp only); (repeat' split) <;> (try simp_all)) _ _) (by simp),
    Eq.trans (foldl_keep Part.price _ (fun q x => by (try dsimp only); (repeat' split) <;> (try simp_all)) _ _) (by simp),
    Eq.trans (foldl_keep Part.till _ (fun q x => by (try dsimp only); (repeat' split) <;> (try simp_all)) _ _) (by simp),
    Eq.trans (foldl_keep Part.jrn _ (fun q x => by (try dsimp only); (repeat' split) <;> (try simp_all)) _ _) (by simp),
    Eq.trans (foldl_keep Part.lab _ (fun q x => by (try dsimp only); (repeat' split) <;> (try simp_all)) _ _) (by simp),
    Eq.trans (foldl_keep Part.trk _ (fun q x => by (try dsimp only); (repeat' split) <;> (try simp_all)) _ _) (by simp),
    Eq.trans (foldl_keep Part.hdr _ (fun q x => by (try dsimp only); (repeat' split) <;> (try simp_all)) _ _) (by simp),
    Eq.trans (foldl_keep Part.memCtr _ (fun q x => by (try dsimp only); (repeat' split) <;> (try simp_all)) _ _) (by simp),
    Eq.trans (foldl_keep Part.written _ (fun q x => by (try dsimp only); (repeat' split) <;> (try simp_all)) _ _) (by simp)⟩

@[simp] theorem Part.endNight_frame (p : Part) : (Part.endNight p).cfg = p.cfg ∧ (Part.endNight p).branch = p.branch ∧
(Part.endNight p).trunkFramer = p.trunkFramer ∧ (Part.endNight p).labelFramer = p.labelFramer ∧ (Part.endNight
p).guestFramer = p.guestFramer ∧ (Part.endNight p).call = p.call ∧ (Part.endNight p).pres = p.pres ∧ (Part.endNight
p).price = p.price ∧ (Part.endNight p).till = p.till ∧ (Part.endNight p).jrn = p.jrn ∧ (Part.endNight p).lab = p.lab ∧
(Part.endNight p).trk = p.trk ∧ (Part.endNight p).hdr = p.hdr ∧ (Part.endNight p).memCtr = p.memCtr ∧ (Part.endNight
p).written = p.written := by
  unfold Part.endNight; and_intros <;> (repeat' split) <;> simp

@[simp] theorem Part.radioDown_frame (p : Part) : (Part.radioDown p).cfg = p.cfg ∧ (Part.radioDown p).branch = p.branch
∧ (Part.radioDown p).trunkFramer = p.trunkFramer ∧ (Part.radioDown p).labelFramer = p.labelFramer ∧ (Part.radioDown
p).guestFramer = p.guestFramer ∧ (Part.radioDown p).links = p.links ∧ (Part.radioDown p).call = p.call ∧ (Part.radioDown
p).pres = p.pres ∧ (Part.radioDown p).price = p.price ∧ (Part.radioDown p).till = p.till ∧ (Part.radioDown p).jrn =
p.jrn ∧ (Part.radioDown p).lab = p.lab ∧ (Part.radioDown p).trk = p.trk ∧ (Part.radioDown p).hdr = p.hdr ∧
(Part.radioDown p).memCtr = p.memCtr ∧ (Part.radioDown p).written = p.written := by
  unfold Part.radioDown; and_intros <;> (repeat' split) <;> simp

@[simp] theorem Part.dropBudget_frame (i : Nat) (g : Guest) (b : Buf) (p : Part) : (Part.dropBudget i g b p).cfg = p.cfg
∧ (Part.dropBudget i g b p).branch = p.branch ∧ (Part.dropBudget i g b p).trunkFramer = p.trunkFramer ∧ (Part.dropBudget
i g b p).labelFramer = p.labelFramer ∧ (Part.dropBudget i g b p).guestFramer = p.guestFramer ∧ (Part.dropBudget i g b
p).call = p.call ∧ (Part.dropBudget i g b p).pres = p.pres ∧ (Part.dropBudget i g b p).price = p.price ∧
(Part.dropBudget i g b p).till = p.till ∧ (Part.dropBudget i g b p).jrn = p.jrn ∧ (Part.dropBudget i g b p).lab = p.lab
∧ (Part.dropBudget i g b p).trk = p.trk ∧ (Part.dropBudget i g b p).hdr = p.hdr ∧ (Part.dropBudget i g b p).memCtr =
p.memCtr ∧ (Part.dropBudget i g b p).written = p.written := by
  unfold Part.dropBudget; dsimp only; and_intros <;> (repeat' split) <;> simp_all [Prod.ext_iff]

@[simp] theorem Part.dropNoExit_frame (b : Buf) (p : Part) : (Part.dropNoExit b p).cfg = p.cfg ∧ (Part.dropNoExit b
p).branch = p.branch ∧ (Part.dropNoExit b p).trunkFramer = p.trunkFramer ∧ (Part.dropNoExit b p).labelFramer =
p.labelFramer ∧ (Part.dropNoExit b p).guestFramer = p.guestFramer ∧ (Part.dropNoExit b p).links = p.links ∧
(Part.dropNoExit b p).call = p.call ∧ (Part.dropNoExit b p).pres = p.pres ∧ (Part.dropNoExit b p).price = p.price ∧
(Part.dropNoExit b p).till = p.till ∧ (Part.dropNoExit b p).jrn = p.jrn ∧ (Part.dropNoExit b p).lab = p.lab ∧
(Part.dropNoExit b p).trk = p.trk ∧ (Part.dropNoExit b p).hdr = p.hdr ∧ (Part.dropNoExit b p).memCtr = p.memCtr ∧
(Part.dropNoExit b p).asks = p.asks ∧ (Part.dropNoExit b p).dram = p.dram ∧ (Part.dropNoExit b p).written = p.written := by
  unfold Part.dropNoExit; and_intros <;> (repeat' split) <;> simp

@[simp] theorem Part.forwardDiscard_frame (device : Nat) (i : Nat) (p : Part) : (Part.forwardDiscard device i p).cfg =
p.cfg ∧ (Part.forwardDiscard device i p).branch = p.branch ∧ (Part.forwardDiscard device i p).trunkFramer =
p.trunkFramer ∧ (Part.forwardDiscard device i p).labelFramer = p.labelFramer ∧ (Part.forwardDiscard device i
p).guestFramer = p.guestFramer ∧ (Part.forwardDiscard device i p).links = p.links ∧ (Part.forwardDiscard device i p).fwd
= p.fwd ∧ (Part.forwardDiscard device i p).call = p.call ∧ (Part.forwardDiscard device i p).pres = p.pres ∧
(Part.forwardDiscard device i p).price = p.price ∧ (Part.forwardDiscard device i p).till = p.till ∧ (Part.forwardDiscard
device i p).jrn = p.jrn ∧ (Part.forwardDiscard device i p).lab = p.lab ∧ (Part.forwardDiscard device i p).trk = p.trk ∧
(Part.forwardDiscard device i p).hdr = p.hdr ∧ (Part.forwardDiscard device i p).memCtr = p.memCtr ∧ (Part.forwardDiscard
device i p).written = p.written := by
  unfold Part.forwardDiscard; dsimp only; and_intros <;> (repeat' split) <;> simp_all [Prod.ext_iff]

@[simp] theorem Part.policeUp_frame (i : Nat) (g : Guest) (packet : Bytes) (b : Buf) (p : Part) : (Part.policeUp i g
packet b p).cfg = p.cfg ∧ (Part.policeUp i g packet b p).trunkFramer = p.trunkFramer ∧ (Part.policeUp i g packet b
p).labelFramer = p.labelFramer ∧ (Part.policeUp i g packet b p).guestFramer = p.guestFramer ∧ (Part.policeUp i g packet
b p).call = p.call ∧ (Part.policeUp i g packet b p).pres = p.pres ∧ (Part.policeUp i g packet b p).price = p.price ∧
(Part.policeUp i g packet b p).till = p.till ∧ (Part.policeUp i g packet b p).jrn = p.jrn ∧ (Part.policeUp i g packet b
p).lab = p.lab ∧ (Part.policeUp i g packet b p).trk = p.trk ∧ (Part.policeUp i g packet b p).hdr = p.hdr ∧
(Part.policeUp i g packet b p).memCtr = p.memCtr ∧ (Part.policeUp i g packet b p).written = p.written := by
  unfold Part.policeUp; refine ⟨?_,?_,?_,?_,?_,?_,?_,?_,?_,?_,?_,?_,?_,?_⟩ <;> ((try dsimp only); (repeat' split) <;> (try simp_all [Prod.ext_iff]) <;> (try (obtain ⟨_, rfl⟩ := ‹_ ∧ _ = (_ : Part)›)) <;> (try simp_all [Prod.ext_iff]) <;> (repeat' split) <;> (try (obtain ⟨_, rfl⟩ := ‹_ ∧ _ = (_ : Part)›)) <;> (try simp_all [Prod.ext_iff]) <;> (repeat' split) <;> (try simp_all))

@[simp] theorem Part.deliver_frame (packet : Bytes) (b : Buf) (p : Part) : (Part.deliver packet b p).cfg = p.cfg ∧
(Part.deliver packet b p).branch = p.branch ∧ (Part.deliver packet b p).trunkFramer = p.trunkFramer ∧ (Part.deliver
packet b p).labelFramer = p.labelFramer ∧ (Part.deliver packet b p).guestFramer = p.guestFramer ∧ (Part.deliver packet b
p).call = p.call ∧ (Part.deliver packet b p).pres = p.pres ∧ (Part.deliver packet b p).price = p.price ∧ (Part.deliver
packet b p).till = p.till ∧ (Part.deliver packet b p).jrn = p.jrn ∧ (Part.deliver packet b p).lab = p.lab ∧
(Part.deliver packet b p).trk = p.trk ∧ (Part.deliver packet b p).hdr = p.hdr ∧ (Part.deliver packet b p).memCtr =
p.memCtr ∧ (Part.deliver packet b p).written = p.written := by
  unfold Part.deliver; dsimp only; and_intros <;> (repeat' split) <;> simp_all [Prod.ext_iff]

@[simp] theorem Part.admitGuest_frame (device : Nat) (packet : Bytes) (b : Buf) (p : Part) : (Part.admitGuest device
packet b p).cfg = p.cfg ∧ (Part.admitGuest device packet b p).trunkFramer = p.trunkFramer ∧ (Part.admitGuest device
packet b p).labelFramer = p.labelFramer ∧ (Part.admitGuest device packet b p).guestFramer = p.guestFramer ∧
(Part.admitGuest device packet b p).call = p.call ∧ (Part.admitGuest device packet b p).pres = p.pres ∧ (Part.admitGuest
device packet b p).price = p.price ∧ (Part.admitGuest device packet b p).till = p.till ∧ (Part.admitGuest device packet
b p).jrn = p.jrn ∧ (Part.admitGuest device packet b p).lab = p.lab ∧ (Part.admitGuest device packet b p).trk = p.trk ∧
(Part.admitGuest device packet b p).hdr = p.hdr ∧ (Part.admitGuest device packet b p).memCtr = p.memCtr ∧
(Part.admitGuest device packet b p).written = p.written := by
  unfold Part.admitGuest; refine ⟨?_,?_,?_,?_,?_,?_,?_,?_,?_,?_,?_,?_,?_,?_⟩ <;> ((try dsimp only); (repeat' split) <;> (try simp_all [Prod.ext_iff]) <;> (try (obtain ⟨_, rfl⟩ := ‹_ ∧ _ = (_ : Part)›)) <;> (try simp_all [Prod.ext_iff]) <;> (repeat' split) <;> (try (obtain ⟨_, rfl⟩ := ‹_ ∧ _ = (_ : Part)›)) <;> (try simp_all [Prod.ext_iff]) <;> (repeat' split) <;> (try simp_all))

@[simp] theorem Part.guestPacket_frame (frame : Bytes) (b : Buf) (p : Part) : (Part.guestPacket frame b p).cfg = p.cfg ∧
(Part.guestPacket frame b p).trunkFramer = p.trunkFramer ∧ (Part.guestPacket frame b p).labelFramer = p.labelFramer ∧
(Part.guestPacket frame b p).guestFramer = p.guestFramer ∧ (Part.guestPacket frame b p).call = p.call ∧
(Part.guestPacket frame b p).pres = p.pres ∧ (Part.guestPacket frame b p).price = p.price ∧ (Part.guestPacket frame b
p).till = p.till ∧ (Part.guestPacket frame b p).jrn = p.jrn ∧ (Part.guestPacket frame b p).lab = p.lab ∧
(Part.guestPacket frame b p).trk = p.trk ∧ (Part.guestPacket frame b p).hdr = p.hdr ∧ (Part.guestPacket frame b
p).memCtr = p.memCtr ∧ (Part.guestPacket frame b p).written = p.written := by
  unfold Part.guestPacket; dsimp only; and_intros <;> (repeat' split) <;> simp_all [Prod.ext_iff]

@[simp] theorem Part.meterEntry_frame (share : Nat) (cap : Nat) (i : Nat) (p : Part) : (Part.meterEntry share cap i
p).cfg = p.cfg ∧ (Part.meterEntry share cap i p).branch = p.branch ∧ (Part.meterEntry share cap i p).trunkFramer =
p.trunkFramer ∧ (Part.meterEntry share cap i p).labelFramer = p.labelFramer ∧ (Part.meterEntry share cap i
p).guestFramer = p.guestFramer ∧ (Part.meterEntry share cap i p).links = p.links ∧ (Part.meterEntry share cap i p).fwd =
p.fwd ∧ (Part.meterEntry share cap i p).call = p.call ∧ (Part.meterEntry share cap i p).pres = p.pres ∧ (Part.meterEntry
share cap i p).price = p.price ∧ (Part.meterEntry share cap i p).till = p.till ∧ (Part.meterEntry share cap i p).jrn =
p.jrn ∧ (Part.meterEntry share cap i p).lab = p.lab ∧ (Part.meterEntry share cap i p).gst = p.gst ∧ (Part.meterEntry
share cap i p).trk = p.trk ∧ (Part.meterEntry share cap i p).hdr = p.hdr ∧ (Part.meterEntry share cap i p).memCtr =
p.memCtr ∧ (Part.meterEntry share cap i p).written = p.written := by
  unfold Part.meterEntry; dsimp only; and_intros <;> (repeat' split) <;> simp_all [Prod.ext_iff]

@[simp] theorem Part.meterShares_frame (p : Part) : (Part.meterShares p).cfg = p.cfg ∧ (Part.meterShares p).branch =
p.branch ∧ (Part.meterShares p).trunkFramer = p.trunkFramer ∧ (Part.meterShares p).labelFramer = p.labelFramer ∧
(Part.meterShares p).guestFramer = p.guestFramer ∧ (Part.meterShares p).links = p.links ∧ (Part.meterShares p).fwd =
p.fwd ∧ (Part.meterShares p).call = p.call ∧ (Part.meterShares p).pres = p.pres ∧ (Part.meterShares p).price = p.price ∧
(Part.meterShares p).till = p.till ∧ (Part.meterShares p).jrn = p.jrn ∧ (Part.meterShares p).lab = p.lab ∧
(Part.meterShares p).trk = p.trk ∧ (Part.meterShares p).hdr = p.hdr ∧ (Part.meterShares p).memCtr = p.memCtr ∧
(Part.meterShares p).written = p.written := by
  unfold Part.meterShares; simp

@[simp] theorem Part.meterTick_frame (p : Part) : (Part.meterTick p).cfg = p.cfg ∧ (Part.meterTick p).branch = p.branch
∧ (Part.meterTick p).trunkFramer = p.trunkFramer ∧ (Part.meterTick p).labelFramer = p.labelFramer ∧ (Part.meterTick
p).guestFramer = p.guestFramer ∧ (Part.meterTick p).call = p.call ∧ (Part.meterTick p).pres = p.pres ∧ (Part.meterTick
p).price = p.price ∧ (Part.meterTick p).till = p.till ∧ (Part.meterTick p).jrn = p.jrn ∧ (Part.meterTick p).lab = p.lab
∧ (Part.meterTick p).trk = p.trk ∧ (Part.meterTick p).hdr = p.hdr ∧ (Part.meterTick p).memCtr = p.memCtr ∧
(Part.meterTick p).written = p.written := by
  unfold Part.meterTick; and_intros <;> (repeat' split) <;> simp

@[simp] theorem Part.guestUp_frame (p : Part) : (Part.guestUp p).cfg = p.cfg ∧ (Part.guestUp p).trunkFramer =
p.trunkFramer ∧ (Part.guestUp p).labelFramer = p.labelFramer ∧ (Part.guestUp p).guestFramer = p.guestFramer ∧
(Part.guestUp p).call = p.call ∧ (Part.guestUp p).pres = p.pres ∧ (Part.guestUp p).price = p.price ∧ (Part.guestUp
p).till = p.till ∧ (Part.guestUp p).jrn = p.jrn ∧ (Part.guestUp p).lab = p.lab ∧ (Part.guestUp p).trk = p.trk ∧
(Part.guestUp p).hdr = p.hdr ∧ (Part.guestUp p).memCtr = p.memCtr ∧ (Part.guestUp p).written = p.written := by
  unfold Part.guestUp Part.takeGuestFrame; refine ⟨?_,?_,?_,?_,?_,?_,?_,?_,?_,?_,?_,?_,?_,?_⟩ <;> ((try dsimp only); (repeat' split) <;> (try simp_all [Prod.ext_iff]) <;> (try (obtain ⟨_, rfl⟩ := ‹_ ∧ _ = (_ : Part)›)) <;> (try simp_all [Prod.ext_iff]) <;> (repeat' split) <;> (try (obtain ⟨_, rfl⟩ := ‹_ ∧ _ = (_ : Part)›)) <;> (try simp_all [Prod.ext_iff]) <;> (repeat' split) <;> (try simp_all))

@[simp] theorem Part.radioStatus_frame (p : Part) : (Part.radioStatus p).cfg = p.cfg ∧ (Part.radioStatus p).branch =
p.branch ∧ (Part.radioStatus p).trunkFramer = p.trunkFramer ∧ (Part.radioStatus p).labelFramer = p.labelFramer ∧
(Part.radioStatus p).guestFramer = p.guestFramer ∧ (Part.radioStatus p).call = p.call ∧ (Part.radioStatus p).pres =
p.pres ∧ (Part.radioStatus p).price = p.price ∧ (Part.radioStatus p).till = p.till ∧ (Part.radioStatus p).jrn = p.jrn ∧
(Part.radioStatus p).lab = p.lab ∧ (Part.radioStatus p).trk = p.trk ∧ (Part.radioStatus p).hdr = p.hdr ∧
(Part.radioStatus p).memCtr = p.memCtr ∧ (Part.radioStatus p).written = p.written := by
  unfold Part.radioStatus Part.takeGuestFrame; refine ⟨?_,?_,?_,?_,?_,?_,?_,?_,?_,?_,?_,?_,?_,?_,?_⟩ <;> ((try dsimp only); (repeat' split) <;> (try simp_all [Prod.ext_iff]) <;> (try (obtain ⟨_, rfl⟩ := ‹_ ∧ _ = (_ : Part)›)) <;> (try simp_all [Prod.ext_iff]) <;> (repeat' split) <;> (try (obtain ⟨_, rfl⟩ := ‹_ ∧ _ = (_ : Part)›)) <;> (try simp_all [Prod.ext_iff]) <;> (repeat' split) <;> (try simp_all))

@[simp] theorem Part.guestUnknown_frame (p : Part) : (Part.guestUnknown p).cfg = p.cfg ∧ (Part.guestUnknown p).branch =
p.branch ∧ (Part.guestUnknown p).trunkFramer = p.trunkFramer ∧ (Part.guestUnknown p).labelFramer = p.labelFramer ∧
(Part.guestUnknown p).guestFramer = p.guestFramer ∧ (Part.guestUnknown p).call = p.call ∧ (Part.guestUnknown p).pres =
p.pres ∧ (Part.guestUnknown p).price = p.price ∧ (Part.guestUnknown p).till = p.till ∧ (Part.guestUnknown p).jrn = p.jrn
∧ (Part.guestUnknown p).lab = p.lab ∧ (Part.guestUnknown p).trk = p.trk ∧ (Part.guestUnknown p).hdr = p.hdr ∧
(Part.guestUnknown p).memCtr = p.memCtr ∧ (Part.guestUnknown p).written = p.written := by
  unfold Part.guestUnknown Part.takeGuestFrame; refine ⟨?_,?_,?_,?_,?_,?_,?_,?_,?_,?_,?_,?_,?_,?_,?_⟩ <;> ((try dsimp only); (repeat' split) <;> (try simp_all [Prod.ext_iff]) <;> (try (obtain ⟨_, rfl⟩ := ‹_ ∧ _ = (_ : Part)›)) <;> (try simp_all [Prod.ext_iff]) <;> (repeat' split) <;> (try (obtain ⟨_, rfl⟩ := ‹_ ∧ _ = (_ : Part)›)) <;> (try simp_all [Prod.ext_iff]) <;> (repeat' split) <;> (try simp_all))

@[simp] theorem Part.radioExpiry_frame (p : Part) : (Part.radioExpiry p).cfg = p.cfg ∧ (Part.radioExpiry p).branch =
p.branch ∧ (Part.radioExpiry p).trunkFramer = p.trunkFramer ∧ (Part.radioExpiry p).labelFramer = p.labelFramer ∧
(Part.radioExpiry p).guestFramer = p.guestFramer ∧ (Part.radioExpiry p).links = p.links ∧ (Part.radioExpiry p).call =
p.call ∧ (Part.radioExpiry p).pres = p.pres ∧ (Part.radioExpiry p).price = p.price ∧ (Part.radioExpiry p).till = p.till
∧ (Part.radioExpiry p).jrn = p.jrn ∧ (Part.radioExpiry p).lab = p.lab ∧ (Part.radioExpiry p).trk = p.trk ∧
(Part.radioExpiry p).hdr = p.hdr ∧ (Part.radioExpiry p).memCtr = p.memCtr ∧ (Part.radioExpiry p).written = p.written := by
  unfold Part.radioExpiry; and_intros <;> (repeat' split) <;> simp

@[simp] theorem Part.forward_frame (src : Source) (packet : Bytes) (b : Buf) (p : Part) : (Part.forward src packet b
p).cfg = p.cfg ∧ (Part.forward src packet b p).trunkFramer = p.trunkFramer ∧ (Part.forward src packet b p).labelFramer =
p.labelFramer ∧ (Part.forward src packet b p).guestFramer = p.guestFramer ∧ (Part.forward src packet b p).call = p.call
∧ (Part.forward src packet b p).pres = p.pres ∧ (Part.forward src packet b p).price = p.price ∧ (Part.forward src packet
b p).till = p.till ∧ (Part.forward src packet b p).jrn = p.jrn ∧ (Part.forward src packet b p).lab = p.lab ∧
(Part.forward src packet b p).trk = p.trk ∧ (Part.forward src packet b p).hdr = p.hdr ∧ (Part.forward src packet b
p).memCtr = p.memCtr ∧ (Part.forward src packet b p).written = p.written := by
  unfold Part.forward; refine ⟨?_,?_,?_,?_,?_,?_,?_,?_,?_,?_,?_,?_,?_,?_⟩ <;> ((try dsimp only); (repeat' split) <;> (try simp_all [Prod.ext_iff]) <;> (try (obtain ⟨_, rfl⟩ := ‹_ ∧ _ = (_ : Part)›)) <;> (try simp_all [Prod.ext_iff]) <;> (repeat' split) <;> (try (obtain ⟨_, rfl⟩ := ‹_ ∧ _ = (_ : Part)›)) <;> (try simp_all [Prod.ext_iff]) <;> (repeat' split) <;> (try simp_all))

@[simp] theorem Part.datagram_frame (p : Part) : (Part.datagram p).cfg = p.cfg ∧ (Part.datagram p).trunkFramer =
p.trunkFramer ∧ (Part.datagram p).labelFramer = p.labelFramer ∧ (Part.datagram p).guestFramer = p.guestFramer ∧
(Part.datagram p).call = p.call ∧ (Part.datagram p).pres = p.pres ∧ (Part.datagram p).till = p.till ∧ (Part.datagram
p).jrn = p.jrn ∧ (Part.datagram p).lab = p.lab ∧ (Part.datagram p).trk = p.trk ∧ (Part.datagram p).hdr = p.hdr ∧
(Part.datagram p).memCtr = p.memCtr ∧ (Part.datagram p).written = p.written := by
  unfold Part.datagram; dsimp only; and_intros <;> (repeat' split) <;> simp_all [Prod.ext_iff]

@[simp] theorem Part.trunkPacket_frame (p : Part) : (Part.trunkPacket p).cfg = p.cfg ∧ (Part.trunkPacket p).trunkFramer
= p.trunkFramer ∧ (Part.trunkPacket p).labelFramer = p.labelFramer ∧ (Part.trunkPacket p).guestFramer = p.guestFramer ∧
(Part.trunkPacket p).call = p.call ∧ (Part.trunkPacket p).pres = p.pres ∧ (Part.trunkPacket p).till = p.till ∧
(Part.trunkPacket p).jrn = p.jrn ∧ (Part.trunkPacket p).lab = p.lab ∧ (Part.trunkPacket p).trk = p.trk ∧
(Part.trunkPacket p).hdr = p.hdr ∧ (Part.trunkPacket p).memCtr = p.memCtr ∧ (Part.trunkPacket p).written = p.written := by
  unfold Part.trunkPacket; and_intros <;> (repeat' split) <;> simp

@[simp] theorem Part.unknownKind_frame (p : Part) : (Part.unknownKind p).cfg = p.cfg ∧ (Part.unknownKind p).branch =
p.branch ∧ (Part.unknownKind p).trunkFramer = p.trunkFramer ∧ (Part.unknownKind p).labelFramer = p.labelFramer ∧
(Part.unknownKind p).guestFramer = p.guestFramer ∧ (Part.unknownKind p).links = p.links ∧ (Part.unknownKind p).call =
p.call ∧ (Part.unknownKind p).pres = p.pres ∧ (Part.unknownKind p).till = p.till ∧ (Part.unknownKind p).jrn = p.jrn ∧
(Part.unknownKind p).lab = p.lab ∧ (Part.unknownKind p).gst = p.gst ∧ (Part.unknownKind p).trk = p.trk ∧
(Part.unknownKind p).hdr = p.hdr ∧ (Part.unknownKind p).memCtr = p.memCtr ∧ (Part.unknownKind p).asks = p.asks ∧
(Part.unknownKind p).dram = p.dram ∧ (Part.unknownKind p).written = p.written := by
  unfold Part.unknownKind; refine ⟨?_,?_,?_,?_,?_,?_,?_,?_,?_,?_,?_,?_,?_,?_,?_,?_,?_,?_⟩ <;> ((try dsimp only); (repeat' split) <;> (try simp_all [Prod.ext_iff]) <;> (try (obtain ⟨_, rfl⟩ := ‹_ ∧ _ = (_ : Part)›)) <;> (try simp_all [Prod.ext_iff]) <;> (repeat' split) <;> (try (obtain ⟨_, rfl⟩ := ‹_ ∧ _ = (_ : Part)›)) <;> (try simp_all [Prod.ext_iff]) <;> (repeat' split) <;> (try simp_all))

end Sys2Proof.Machine
end

