-- ==== Sys2Proof/Laws/TrunkFrames.lean ====
section
/-! SUPPORT. What each operation of the trunk controller and the night leaves as it was: one lemma for each, a rewrite rule for every block of the part that
it does not touch. -/

set_option linter.all false

/- Every lemma here is a case split over a long record; the default limit is for short proofs. -/
set_option maxHeartbeats 4000000

open Sys2Proof Sys2Proof.Machine

namespace Sys2Proof.Machine

@[simp] theorem Part.takeHolder_frame (s : StationNo) (d : Nat) (p : Part) : (Part.takeHolder s d p).cfg = p.cfg ∧
(Part.takeHolder s d p).branch = p.branch ∧ (Part.takeHolder s d p).trunkFramer = p.trunkFramer ∧ (Part.takeHolder s d
p).labelFramer = p.labelFramer ∧ (Part.takeHolder s d p).guestFramer = p.guestFramer ∧ (Part.takeHolder s d p).links =
p.links ∧ (Part.takeHolder s d p).fwd = p.fwd ∧ (Part.takeHolder s d p).call = p.call ∧ (Part.takeHolder s d p).pres =
p.pres ∧ (Part.takeHolder s d p).price = p.price ∧ (Part.takeHolder s d p).till = p.till ∧ (Part.takeHolder s d p).jrn =
p.jrn ∧ (Part.takeHolder s d p).lab = p.lab ∧ (Part.takeHolder s d p).gst = p.gst ∧ (Part.takeHolder s d p).hdr = p.hdr
∧ (Part.takeHolder s d p).memCtr = p.memCtr ∧ (Part.takeHolder s d p).asks = p.asks ∧ (Part.takeHolder s d p).dram =
p.dram ∧ (Part.takeHolder s d p).written = p.written := by
  unfold Part.takeHolder; and_intros <;> (repeat' split) <;> simp

@[simp] theorem Part.message_frame (what : TrunkFrame) (p : Part) : (Part.message what p).cfg = p.cfg ∧ (Part.message
what p).branch = p.branch ∧ (Part.message what p).trunkFramer = p.trunkFramer ∧ (Part.message what p).labelFramer =
p.labelFramer ∧ (Part.message what p).guestFramer = p.guestFramer ∧ (Part.message what p).call = p.call ∧ (Part.message
what p).pres = p.pres ∧ (Part.message what p).price = p.price ∧ (Part.message what p).till = p.till ∧ (Part.message what
p).jrn = p.jrn ∧ (Part.message what p).lab = p.lab ∧ (Part.message what p).gst = p.gst ∧ (Part.message what p).hdr =
p.hdr ∧ (Part.message what p).memCtr = p.memCtr ∧ (Part.message what p).written = p.written := by
  unfold Part.message; refine ⟨?_,?_,?_,?_,?_,?_,?_,?_,?_,?_,?_,?_,?_,?_,?_⟩ <;> ((try dsimp only); (repeat' split) <;> (try simp_all [Prod.ext_iff]) <;> (try (obtain ⟨_, rfl⟩ := ‹_ ∧ _ = (_ : Part)›)) <;> (try simp_all [Prod.ext_iff]) <;> (repeat' split) <;> (try (obtain ⟨_, rfl⟩ := ‹_ ∧ _ = (_ : Part)›)) <;> (try simp_all [Prod.ext_iff]) <;> (repeat' split) <;> (try simp_all))

@[simp] theorem Part.dropExchange_frame (p : Part) : (Part.dropExchange p).cfg = p.cfg ∧ (Part.dropExchange p).branch =
p.branch ∧ (Part.dropExchange p).trunkFramer = p.trunkFramer ∧ (Part.dropExchange p).labelFramer = p.labelFramer ∧
(Part.dropExchange p).guestFramer = p.guestFramer ∧ (Part.dropExchange p).links = p.links ∧ (Part.dropExchange p).call =
p.call ∧ (Part.dropExchange p).pres = p.pres ∧ (Part.dropExchange p).price = p.price ∧ (Part.dropExchange p).till =
p.till ∧ (Part.dropExchange p).jrn = p.jrn ∧ (Part.dropExchange p).lab = p.lab ∧ (Part.dropExchange p).gst = p.gst ∧
(Part.dropExchange p).trk = p.trk ∧ (Part.dropExchange p).hdr = p.hdr ∧ (Part.dropExchange p).memCtr = p.memCtr ∧
(Part.dropExchange p).asks = p.asks ∧ (Part.dropExchange p).dram = p.dram ∧ (Part.dropExchange p).written = p.written := by
  unfold Part.dropExchange; and_intros <;> (repeat' split) <;> simp

@[simp] theorem Part.dropBlocks_frame (p : Part) : (Part.dropBlocks p).cfg = p.cfg ∧ (Part.dropBlocks p).branch =
p.branch ∧ (Part.dropBlocks p).trunkFramer = p.trunkFramer ∧ (Part.dropBlocks p).labelFramer = p.labelFramer ∧
(Part.dropBlocks p).guestFramer = p.guestFramer ∧ (Part.dropBlocks p).links = p.links ∧ (Part.dropBlocks p).call =
p.call ∧ (Part.dropBlocks p).pres = p.pres ∧ (Part.dropBlocks p).price = p.price ∧ (Part.dropBlocks p).till = p.till ∧
(Part.dropBlocks p).jrn = p.jrn ∧ (Part.dropBlocks p).lab = p.lab ∧ (Part.dropBlocks p).gst = p.gst ∧ (Part.dropBlocks
p).hdr = p.hdr ∧ (Part.dropBlocks p).memCtr = p.memCtr ∧ (Part.dropBlocks p).asks = p.asks ∧ (Part.dropBlocks p).dram =
p.dram ∧ (Part.dropBlocks p).written = p.written := by
  unfold Part.dropBlocks; and_intros <;> (repeat' split) <;> simp

@[simp] theorem Part.stopPull_frame (p : Part) : (Part.stopPull p).cfg = p.cfg ∧ (Part.stopPull p).branch = p.branch ∧
(Part.stopPull p).trunkFramer = p.trunkFramer ∧ (Part.stopPull p).labelFramer = p.labelFramer ∧ (Part.stopPull
p).guestFramer = p.guestFramer ∧ (Part.stopPull p).links = p.links ∧ (Part.stopPull p).fwd = p.fwd ∧ (Part.stopPull
p).pres = p.pres ∧ (Part.stopPull p).price = p.price ∧ (Part.stopPull p).till = p.till ∧ (Part.stopPull p).jrn = p.jrn ∧
(Part.stopPull p).lab = p.lab ∧ (Part.stopPull p).gst = p.gst ∧ (Part.stopPull p).hdr = p.hdr ∧ (Part.stopPull p).memCtr
= p.memCtr ∧ (Part.stopPull p).asks = p.asks ∧ (Part.stopPull p).dram = p.dram ∧ (Part.stopPull p).written = p.written
:= by
  unfold Part.stopPull; and_intros <;> (repeat' split) <;> simp

@[simp] theorem Part.endSession_frame (x : Ending) (p : Part) : (Part.endSession x p).cfg = p.cfg ∧ (Part.endSession x
p).branch = p.branch ∧ (Part.endSession x p).trunkFramer = p.trunkFramer ∧ (Part.endSession x p).labelFramer =
p.labelFramer ∧ (Part.endSession x p).guestFramer = p.guestFramer ∧ (Part.endSession x p).pres = p.pres ∧
(Part.endSession x p).price = p.price ∧ (Part.endSession x p).till = p.till ∧ (Part.endSession x p).jrn = p.jrn ∧
(Part.endSession x p).lab = p.lab ∧ (Part.endSession x p).gst = p.gst ∧ (Part.endSession x p).hdr = p.hdr ∧
(Part.endSession x p).memCtr = p.memCtr ∧ (Part.endSession x p).written = p.written := by
  unfold Part.endSession; refine ⟨?_,?_,?_,?_,?_,?_,?_,?_,?_,?_,?_,?_,?_,?_⟩ <;> ((try dsimp only); (repeat' split) <;> (try simp_all [Prod.ext_iff]) <;> (try (obtain ⟨_, rfl⟩ := ‹_ ∧ _ = (_ : Part)›)) <;> (try simp_all [Prod.ext_iff]) <;> (repeat' split) <;> (try (obtain ⟨_, rfl⟩ := ‹_ ∧ _ = (_ : Part)›)) <;> (try simp_all [Prod.ext_iff]) <;> (repeat' split) <;> (try simp_all))

@[simp] theorem Part.claimCheck_frame (p : Part) : (Part.claimCheck p).cfg = p.cfg ∧ (Part.claimCheck p).trunkFramer =
p.trunkFramer ∧ (Part.claimCheck p).labelFramer = p.labelFramer ∧ (Part.claimCheck p).guestFramer = p.guestFramer ∧
(Part.claimCheck p).links = p.links ∧ (Part.claimCheck p).call = p.call ∧ (Part.claimCheck p).pres = p.pres ∧
(Part.claimCheck p).price = p.price ∧ (Part.claimCheck p).till = p.till ∧ (Part.claimCheck p).jrn = p.jrn ∧
(Part.claimCheck p).lab = p.lab ∧ (Part.claimCheck p).gst = p.gst ∧ (Part.claimCheck p).hdr = p.hdr ∧ (Part.claimCheck
p).memCtr = p.memCtr ∧ (Part.claimCheck p).written = p.written := by
  unfold Part.claimCheck; refine ⟨?_,?_,?_,?_,?_,?_,?_,?_,?_,?_,?_,?_,?_,?_,?_⟩ <;> ((try dsimp only); (repeat' split) <;> (try simp_all [Prod.ext_iff]) <;> (try (obtain ⟨_, rfl⟩ := ‹_ ∧ _ = (_ : Part)›)) <;> (try simp_all [Prod.ext_iff]) <;> (repeat' split) <;> (try (obtain ⟨_, rfl⟩ := ‹_ ∧ _ = (_ : Part)›)) <;> (try simp_all [Prod.ext_iff]) <;> (repeat' split) <;> (try simp_all))

@[simp] theorem Part.emptyHolder_frame (p : Part) : (Part.emptyHolder p).cfg = p.cfg ∧ (Part.emptyHolder p).trunkFramer
= p.trunkFramer ∧ (Part.emptyHolder p).labelFramer = p.labelFramer ∧ (Part.emptyHolder p).guestFramer = p.guestFramer ∧
(Part.emptyHolder p).links = p.links ∧ (Part.emptyHolder p).call = p.call ∧ (Part.emptyHolder p).pres = p.pres ∧
(Part.emptyHolder p).price = p.price ∧ (Part.emptyHolder p).till = p.till ∧ (Part.emptyHolder p).jrn = p.jrn ∧
(Part.emptyHolder p).lab = p.lab ∧ (Part.emptyHolder p).gst = p.gst ∧ (Part.emptyHolder p).hdr = p.hdr ∧
(Part.emptyHolder p).memCtr = p.memCtr ∧ (Part.emptyHolder p).written = p.written := by
  unfold Part.emptyHolder; and_intros <;> (repeat' split) <;> simp

@[simp] theorem Part.stepDown_frame (p : Part) : (Part.stepDown p).cfg = p.cfg ∧ (Part.stepDown p).branch = p.branch ∧
(Part.stepDown p).trunkFramer = p.trunkFramer ∧ (Part.stepDown p).labelFramer = p.labelFramer ∧ (Part.stepDown
p).guestFramer = p.guestFramer ∧ (Part.stepDown p).pres = p.pres ∧ (Part.stepDown p).price = p.price ∧ (Part.stepDown
p).till = p.till ∧ (Part.stepDown p).jrn = p.jrn ∧ (Part.stepDown p).lab = p.lab ∧ (Part.stepDown p).gst = p.gst ∧
(Part.stepDown p).hdr = p.hdr ∧ (Part.stepDown p).memCtr = p.memCtr ∧ (Part.stepDown p).written = p.written := by
  unfold Part.stepDown; and_intros <;> (repeat' split) <;> simp

@[simp] theorem Part.enterHolding_frame (p : Part) : (Part.enterHolding p).cfg = p.cfg ∧ (Part.enterHolding p).branch =
p.branch ∧ (Part.enterHolding p).trunkFramer = p.trunkFramer ∧ (Part.enterHolding p).labelFramer = p.labelFramer ∧
(Part.enterHolding p).guestFramer = p.guestFramer ∧ (Part.enterHolding p).pres = p.pres ∧ (Part.enterHolding p).price =
p.price ∧ (Part.enterHolding p).till = p.till ∧ (Part.enterHolding p).jrn = p.jrn ∧ (Part.enterHolding p).lab = p.lab ∧
(Part.enterHolding p).gst = p.gst ∧ (Part.enterHolding p).hdr = p.hdr ∧ (Part.enterHolding p).memCtr = p.memCtr ∧
(Part.enterHolding p).written = p.written := by
  unfold Part.enterHolding; dsimp only; and_intros <;> (repeat' split) <;> simp_all [Prod.ext_iff]

@[simp] theorem Part.claimSent_frame (d : Nat) (p : Part) : (Part.claimSent d p).cfg = p.cfg ∧ (Part.claimSent d
p).branch = p.branch ∧ (Part.claimSent d p).trunkFramer = p.trunkFramer ∧ (Part.claimSent d p).labelFramer =
p.labelFramer ∧ (Part.claimSent d p).guestFramer = p.guestFramer ∧ (Part.claimSent d p).pres = p.pres ∧ (Part.claimSent
d p).price = p.price ∧ (Part.claimSent d p).till = p.till ∧ (Part.claimSent d p).jrn = p.jrn ∧ (Part.claimSent d p).lab
= p.lab ∧ (Part.claimSent d p).gst = p.gst ∧ (Part.claimSent d p).hdr = p.hdr ∧ (Part.claimSent d p).memCtr = p.memCtr ∧
(Part.claimSent d p).written = p.written := by
  unfold Part.claimSent; and_intros <;> (repeat' split) <;> simp

@[simp] theorem Part.claimDropped_frame (d : Nat) (p : Part) : (Part.claimDropped d p).cfg = p.cfg ∧ (Part.claimDropped
d p).trunkFramer = p.trunkFramer ∧ (Part.claimDropped d p).labelFramer = p.labelFramer ∧ (Part.claimDropped d
p).guestFramer = p.guestFramer ∧ (Part.claimDropped d p).links = p.links ∧ (Part.claimDropped d p).call = p.call ∧
(Part.claimDropped d p).pres = p.pres ∧ (Part.claimDropped d p).price = p.price ∧ (Part.claimDropped d p).till = p.till
∧ (Part.claimDropped d p).jrn = p.jrn ∧ (Part.claimDropped d p).lab = p.lab ∧ (Part.claimDropped d p).gst = p.gst ∧
(Part.claimDropped d p).hdr = p.hdr ∧ (Part.claimDropped d p).memCtr = p.memCtr ∧ (Part.claimDropped d p).written =
p.written := by
  unfold Part.claimDropped; and_intros <;> (repeat' split) <;> simp

@[simp] theorem Part.claimWithdrawn_frame (d : Nat) (p : Part) : (Part.claimWithdrawn d p).cfg = p.cfg ∧
(Part.claimWithdrawn d p).trunkFramer = p.trunkFramer ∧ (Part.claimWithdrawn d p).labelFramer = p.labelFramer ∧
(Part.claimWithdrawn d p).guestFramer = p.guestFramer ∧ (Part.claimWithdrawn d p).links = p.links ∧ (Part.claimWithdrawn
d p).call = p.call ∧ (Part.claimWithdrawn d p).pres = p.pres ∧ (Part.claimWithdrawn d p).price = p.price ∧
(Part.claimWithdrawn d p).till = p.till ∧ (Part.claimWithdrawn d p).jrn = p.jrn ∧ (Part.claimWithdrawn d p).lab = p.lab
∧ (Part.claimWithdrawn d p).gst = p.gst ∧ (Part.claimWithdrawn d p).hdr = p.hdr ∧ (Part.claimWithdrawn d p).memCtr =
p.memCtr ∧ (Part.claimWithdrawn d p).written = p.written := by
  unfold Part.claimWithdrawn; and_intros <;> (repeat' split) <;> simp

@[simp] theorem Part.rivalHeard_frame (s : StationNo) (d : Nat) (p : Part) : (Part.rivalHeard s d p).cfg = p.cfg ∧
(Part.rivalHeard s d p).trunkFramer = p.trunkFramer ∧ (Part.rivalHeard s d p).labelFramer = p.labelFramer ∧
(Part.rivalHeard s d p).guestFramer = p.guestFramer ∧ (Part.rivalHeard s d p).pres = p.pres ∧ (Part.rivalHeard s d
p).price = p.price ∧ (Part.rivalHeard s d p).till = p.till ∧ (Part.rivalHeard s d p).jrn = p.jrn ∧ (Part.rivalHeard s d
p).lab = p.lab ∧ (Part.rivalHeard s d p).gst = p.gst ∧ (Part.rivalHeard s d p).hdr = p.hdr ∧ (Part.rivalHeard s d
p).memCtr = p.memCtr ∧ (Part.rivalHeard s d p).written = p.written := by
  unfold Part.rivalHeard; refine ⟨?_,?_,?_,?_,?_,?_,?_,?_,?_,?_,?_,?_,?_⟩ <;> ((try dsimp only); (repeat' split) <;> (try simp_all [Prod.ext_iff]) <;> (try (obtain ⟨_, rfl⟩ := ‹_ ∧ _ = (_ : Part)›)) <;> (try simp_all [Prod.ext_iff]) <;> (repeat' split) <;> (try (obtain ⟨_, rfl⟩ := ‹_ ∧ _ = (_ : Part)›)) <;> (try simp_all [Prod.ext_iff]) <;> (repeat' split) <;> (try simp_all))

@[simp] theorem Part.takeClaim_frame (s : StationNo) (d : Nat) (p : Part) : (Part.takeClaim s d p).cfg = p.cfg ∧
(Part.takeClaim s d p).trunkFramer = p.trunkFramer ∧ (Part.takeClaim s d p).labelFramer = p.labelFramer ∧
(Part.takeClaim s d p).guestFramer = p.guestFramer ∧ (Part.takeClaim s d p).pres = p.pres ∧ (Part.takeClaim s d p).price
= p.price ∧ (Part.takeClaim s d p).till = p.till ∧ (Part.takeClaim s d p).jrn = p.jrn ∧ (Part.takeClaim s d p).lab =
p.lab ∧ (Part.takeClaim s d p).gst = p.gst ∧ (Part.takeClaim s d p).hdr = p.hdr ∧ (Part.takeClaim s d p).memCtr =
p.memCtr ∧ (Part.takeClaim s d p).written = p.written := by
  unfold Part.takeClaim; and_intros <;> (repeat' split) <;> simp

@[simp] theorem Part.setEntryOf_frame (e : Upload) (p : Part) : (Part.setEntryOf e p).cfg = p.cfg ∧ (Part.setEntryOf e
p).branch = p.branch ∧ (Part.setEntryOf e p).trunkFramer = p.trunkFramer ∧ (Part.setEntryOf e p).labelFramer =
p.labelFramer ∧ (Part.setEntryOf e p).guestFramer = p.guestFramer ∧ (Part.setEntryOf e p).links = p.links ∧
(Part.setEntryOf e p).fwd = p.fwd ∧ (Part.setEntryOf e p).call = p.call ∧ (Part.setEntryOf e p).pres = p.pres ∧
(Part.setEntryOf e p).price = p.price ∧ (Part.setEntryOf e p).till = p.till ∧ (Part.setEntryOf e p).jrn = p.jrn ∧
(Part.setEntryOf e p).lab = p.lab ∧ (Part.setEntryOf e p).gst = p.gst ∧ (Part.setEntryOf e p).hdr = p.hdr ∧
(Part.setEntryOf e p).memCtr = p.memCtr ∧ (Part.setEntryOf e p).asks = p.asks ∧ (Part.setEntryOf e p).dram = p.dram ∧
(Part.setEntryOf e p).written = p.written := by
  unfold Part.setEntryOf; and_intros <;> (repeat' split) <;> simp

@[simp] theorem Part.closeBlock_frame (e : Upload) (p : Part) : (Part.closeBlock e p).cfg = p.cfg ∧ (Part.closeBlock e
p).branch = p.branch ∧ (Part.closeBlock e p).trunkFramer = p.trunkFramer ∧ (Part.closeBlock e p).labelFramer =
p.labelFramer ∧ (Part.closeBlock e p).guestFramer = p.guestFramer ∧ (Part.closeBlock e p).links = p.links ∧
(Part.closeBlock e p).fwd = p.fwd ∧ (Part.closeBlock e p).call = p.call ∧ (Part.closeBlock e p).pres = p.pres ∧
(Part.closeBlock e p).price = p.price ∧ (Part.closeBlock e p).till = p.till ∧ (Part.closeBlock e p).jrn = p.jrn ∧
(Part.closeBlock e p).lab = p.lab ∧ (Part.closeBlock e p).gst = p.gst ∧ (Part.closeBlock e p).hdr = p.hdr ∧
(Part.closeBlock e p).memCtr = p.memCtr ∧ (Part.closeBlock e p).written = p.written := by
  unfold Part.closeBlock; and_intros <;> (repeat' split) <;> simp

@[simp] theorem Part.pack_frame (n : StationNo) (seq : Nat) (record : Bytes) (p : Part) : (Part.pack n seq record
p).2.cfg = p.cfg ∧ (Part.pack n seq record p).2.branch = p.branch ∧ (Part.pack n seq record p).2.trunkFramer =
p.trunkFramer ∧ (Part.pack n seq record p).2.labelFramer = p.labelFramer ∧ (Part.pack n seq record p).2.guestFramer =
p.guestFramer ∧ (Part.pack n seq record p).2.links = p.links ∧ (Part.pack n seq record p).2.call = p.call ∧ (Part.pack n
seq record p).2.pres = p.pres ∧ (Part.pack n seq record p).2.price = p.price ∧ (Part.pack n seq record p).2.till =
p.till ∧ (Part.pack n seq record p).2.jrn = p.jrn ∧ (Part.pack n seq record p).2.lab = p.lab ∧ (Part.pack n seq record
p).2.gst = p.gst ∧ (Part.pack n seq record p).2.hdr = p.hdr ∧ (Part.pack n seq record p).2.memCtr = p.memCtr ∧
(Part.pack n seq record p).2.written = p.written := by
  unfold Part.pack; refine ⟨?_,?_,?_,?_,?_,?_,?_,?_,?_,?_,?_,?_,?_,?_,?_,?_⟩ <;> ((try dsimp only); (repeat' split) <;> (try simp_all [Prod.ext_iff]) <;> (try (obtain ⟨_, rfl⟩ := ‹_ ∧ _ = (_ : Part)›)) <;> (try simp_all [Prod.ext_iff]) <;> (repeat' split) <;> (try (obtain ⟨_, rfl⟩ := ‹_ ∧ _ = (_ : Part)›)) <;> (try simp_all [Prod.ext_iff]) <;> (repeat' split) <;> (try (obtain ⟨_, rfl⟩ := ‹_ ∧ _ = (_ : Part)›)) <;> (try simp_all [Prod.ext_iff]) <;> (repeat' split) <;> (try simp_all))

@[simp] theorem Part.sendBlock_frame (b : Block) (p : Part) : (Part.sendBlock b p).cfg = p.cfg ∧ (Part.sendBlock b
p).branch = p.branch ∧ (Part.sendBlock b p).trunkFramer = p.trunkFramer ∧ (Part.sendBlock b p).labelFramer =
p.labelFramer ∧ (Part.sendBlock b p).guestFramer = p.guestFramer ∧ (Part.sendBlock b p).call = p.call ∧ (Part.sendBlock
b p).pres = p.pres ∧ (Part.sendBlock b p).price = p.price ∧ (Part.sendBlock b p).till = p.till ∧ (Part.sendBlock b
p).jrn = p.jrn ∧ (Part.sendBlock b p).lab = p.lab ∧ (Part.sendBlock b p).gst = p.gst ∧ (Part.sendBlock b p).hdr = p.hdr
∧ (Part.sendBlock b p).memCtr = p.memCtr ∧ (Part.sendBlock b p).dram = p.dram ∧ (Part.sendBlock b p).written = p.written
:= by
  unfold Part.sendBlock; and_intros <;> (repeat' split) <;> simp

@[simp] theorem Part.queueBlocks_frame (x1 : Nat) (x2 : Part) : (Part.queueBlocks x1 x2).cfg = x2.cfg ∧
(Part.queueBlocks x1 x2).branch = x2.branch ∧ (Part.queueBlocks x1 x2).trunkFramer = x2.trunkFramer ∧ (Part.queueBlocks
x1 x2).labelFramer = x2.labelFramer ∧ (Part.queueBlocks x1 x2).guestFramer = x2.guestFramer ∧ (Part.queueBlocks x1
x2).call = x2.call ∧ (Part.queueBlocks x1 x2).pres = x2.pres ∧ (Part.queueBlocks x1 x2).price = x2.price ∧
(Part.queueBlocks x1 x2).till = x2.till ∧ (Part.queueBlocks x1 x2).jrn = x2.jrn ∧ (Part.queueBlocks x1 x2).lab = x2.lab
∧ (Part.queueBlocks x1 x2).gst = x2.gst ∧ (Part.queueBlocks x1 x2).hdr = x2.hdr ∧ (Part.queueBlocks x1 x2).memCtr =
x2.memCtr ∧ (Part.queueBlocks x1 x2).dram = x2.dram ∧ (Part.queueBlocks x1 x2).written = x2.written := by
  induction x1 generalizing x2 with
  | zero => simp [Part.queueBlocks]
  | succ n ih => unfold Part.queueBlocks; refine ⟨?_,?_,?_,?_,?_,?_,?_,?_,?_,?_,?_,?_,?_,?_,?_,?_⟩ <;> ((try dsimp only); (repeat' split) <;> (try simp_all [Prod.ext_iff]) <;> (try (obtain ⟨_, rfl⟩ := ‹_ ∧ _ = (_ : Part)›)) <;> (try simp_all [Prod.ext_iff]) <;> (repeat' split) <;> (try (obtain ⟨_, rfl⟩ := ‹_ ∧ _ = (_ : Part)›)) <;> (try simp_all [Prod.ext_iff]) <;> (repeat' split) <;> (try simp_all))

@[simp] theorem Part.enterClosing_frame (p : Part) : (Part.enterClosing p).cfg = p.cfg ∧ (Part.enterClosing p).branch =
p.branch ∧ (Part.enterClosing p).trunkFramer = p.trunkFramer ∧ (Part.enterClosing p).labelFramer = p.labelFramer ∧
(Part.enterClosing p).guestFramer = p.guestFramer ∧ (Part.enterClosing p).call = p.call ∧ (Part.enterClosing p).pres =
p.pres ∧ (Part.enterClosing p).price = p.price ∧ (Part.enterClosing p).till = p.till ∧ (Part.enterClosing p).jrn = p.jrn
∧ (Part.enterClosing p).lab = p.lab ∧ (Part.enterClosing p).gst = p.gst ∧ (Part.enterClosing p).hdr = p.hdr ∧
(Part.enterClosing p).memCtr = p.memCtr ∧ (Part.enterClosing p).written = p.written := by
  unfold Part.enterClosing; and_intros <;> (repeat' split) <;> simp

@[simp] theorem Part.checkUploadEnd_frame (p : Part) : (Part.checkUploadEnd p).cfg = p.cfg ∧ (Part.checkUploadEnd
p).branch = p.branch ∧ (Part.checkUploadEnd p).trunkFramer = p.trunkFramer ∧ (Part.checkUploadEnd p).labelFramer =
p.labelFramer ∧ (Part.checkUploadEnd p).guestFramer = p.guestFramer ∧ (Part.checkUploadEnd p).call = p.call ∧
(Part.checkUploadEnd p).pres = p.pres ∧ (Part.checkUploadEnd p).price = p.price ∧ (Part.checkUploadEnd p).till = p.till
∧ (Part.checkUploadEnd p).jrn = p.jrn ∧ (Part.checkUploadEnd p).lab = p.lab ∧ (Part.checkUploadEnd p).gst = p.gst ∧
(Part.checkUploadEnd p).hdr = p.hdr ∧ (Part.checkUploadEnd p).memCtr = p.memCtr ∧ (Part.checkUploadEnd p).written =
p.written := by
  unfold Part.checkUploadEnd; and_intros <;> (repeat' split) <;> simp

@[simp] theorem Part.pump_frame (p : Part) : (Part.pump p).cfg = p.cfg ∧ (Part.pump p).branch = p.branch ∧ (Part.pump
p).trunkFramer = p.trunkFramer ∧ (Part.pump p).labelFramer = p.labelFramer ∧ (Part.pump p).guestFramer = p.guestFramer ∧
(Part.pump p).call = p.call ∧ (Part.pump p).pres = p.pres ∧ (Part.pump p).price = p.price ∧ (Part.pump p).till = p.till
∧ (Part.pump p).jrn = p.jrn ∧ (Part.pump p).lab = p.lab ∧ (Part.pump p).gst = p.gst ∧ (Part.pump p).hdr = p.hdr ∧
(Part.pump p).memCtr = p.memCtr ∧ (Part.pump p).written = p.written := by
  unfold Part.pump; and_intros <;> (repeat' split) <;> simp

@[simp] theorem Part.placePull_frame (e : Upload) (p : Part) : (Part.placePull e p).cfg = p.cfg ∧ (Part.placePull e
p).trunkFramer = p.trunkFramer ∧ (Part.placePull e p).labelFramer = p.labelFramer ∧ (Part.placePull e p).guestFramer =
p.guestFramer ∧ (Part.placePull e p).links = p.links ∧ (Part.placePull e p).pres = p.pres ∧ (Part.placePull e p).till =
p.till ∧ (Part.placePull e p).jrn = p.jrn ∧ (Part.placePull e p).lab = p.lab ∧ (Part.placePull e p).gst = p.gst ∧
(Part.placePull e p).hdr = p.hdr ∧ (Part.placePull e p).memCtr = p.memCtr ∧ (Part.placePull e p).written = p.written :=
by
  unfold Part.placePull; refine ⟨?_,?_,?_,?_,?_,?_,?_,?_,?_,?_,?_,?_,?_⟩ <;> ((try dsimp only); (repeat' split) <;> (try simp_all [Prod.ext_iff]) <;> (try (obtain ⟨_, rfl⟩ := ‹_ ∧ _ = (_ : Part)›)) <;> (try simp_all [Prod.ext_iff]) <;> (repeat' split) <;> (try (obtain ⟨_, rfl⟩ := ‹_ ∧ _ = (_ : Part)›)) <;> (try simp_all [Prod.ext_iff]) <;> (repeat' split) <;> (try simp_all))

@[simp] theorem Part.endEntry_frame (e : Upload) (st : UploadStatus) (p : Part) : (Part.endEntry e st p).cfg = p.cfg ∧
(Part.endEntry e st p).branch = p.branch ∧ (Part.endEntry e st p).trunkFramer = p.trunkFramer ∧ (Part.endEntry e st
p).labelFramer = p.labelFramer ∧ (Part.endEntry e st p).guestFramer = p.guestFramer ∧ (Part.endEntry e st p).links =
p.links ∧ (Part.endEntry e st p).fwd = p.fwd ∧ (Part.endEntry e st p).call = p.call ∧ (Part.endEntry e st p).pres =
p.pres ∧ (Part.endEntry e st p).price = p.price ∧ (Part.endEntry e st p).till = p.till ∧ (Part.endEntry e st p).jrn =
p.jrn ∧ (Part.endEntry e st p).lab = p.lab ∧ (Part.endEntry e st p).gst = p.gst ∧ (Part.endEntry e st p).hdr = p.hdr ∧
(Part.endEntry e st p).memCtr = p.memCtr ∧ (Part.endEntry e st p).written = p.written := by
  unfold Part.endEntry; and_intros <;> (repeat' split) <;> simp

@[simp] theorem Part.testDone_frame (e : Upload) (p : Part) : (Part.testDone e p).cfg = p.cfg ∧ (Part.testDone e
p).branch = p.branch ∧ (Part.testDone e p).trunkFramer = p.trunkFramer ∧ (Part.testDone e p).labelFramer = p.labelFramer
∧ (Part.testDone e p).guestFramer = p.guestFramer ∧ (Part.testDone e p).links = p.links ∧ (Part.testDone e p).fwd =
p.fwd ∧ (Part.testDone e p).call = p.call ∧ (Part.testDone e p).pres = p.pres ∧ (Part.testDone e p).price = p.price ∧
(Part.testDone e p).till = p.till ∧ (Part.testDone e p).jrn = p.jrn ∧ (Part.testDone e p).lab = p.lab ∧ (Part.testDone e
p).gst = p.gst ∧ (Part.testDone e p).hdr = p.hdr ∧ (Part.testDone e p).memCtr = p.memCtr ∧ (Part.testDone e p).asks =
p.asks ∧ (Part.testDone e p).dram = p.dram ∧ (Part.testDone e p).written = p.written := by
  unfold Part.testDone; and_intros <;> (repeat' split) <;> simp

@[simp] theorem Part.passTurn_frame (x1 : Nat) (x2 : Part) : (Part.passTurn x1 x2).cfg = x2.cfg ∧ (Part.passTurn x1
x2).trunkFramer = x2.trunkFramer ∧ (Part.passTurn x1 x2).labelFramer = x2.labelFramer ∧ (Part.passTurn x1
x2).guestFramer = x2.guestFramer ∧ (Part.passTurn x1 x2).links = x2.links ∧ (Part.passTurn x1 x2).pres = x2.pres ∧
(Part.passTurn x1 x2).till = x2.till ∧ (Part.passTurn x1 x2).jrn = x2.jrn ∧ (Part.passTurn x1 x2).lab = x2.lab ∧
(Part.passTurn x1 x2).gst = x2.gst ∧ (Part.passTurn x1 x2).hdr = x2.hdr ∧ (Part.passTurn x1 x2).memCtr = x2.memCtr ∧
(Part.passTurn x1 x2).written = x2.written := by
  induction x1 generalizing x2 with
  | zero => simp [Part.passTurn]
  | succ n ih => unfold Part.passTurn; refine ⟨?_,?_,?_,?_,?_,?_,?_,?_,?_,?_,?_,?_,?_⟩ <;> ((try dsimp only); (repeat' split) <;> (try simp_all [Prod.ext_iff]) <;> (try (obtain ⟨_, rfl⟩ := ‹_ ∧ _ = (_ : Part)›)) <;> (try simp_all [Prod.ext_iff]) <;> (repeat' split) <;> (try (obtain ⟨_, rfl⟩ := ‹_ ∧ _ = (_ : Part)›)) <;> (try simp_all [Prod.ext_iff]) <;> (repeat' split) <;> (try simp_all))

@[simp] theorem Part.advance_frame (p : Part) : (Part.advance p).cfg = p.cfg ∧ (Part.advance p).trunkFramer =
p.trunkFramer ∧ (Part.advance p).labelFramer = p.labelFramer ∧ (Part.advance p).guestFramer = p.guestFramer ∧
(Part.advance p).pres = p.pres ∧ (Part.advance p).till = p.till ∧ (Part.advance p).jrn = p.jrn ∧ (Part.advance p).lab =
p.lab ∧ (Part.advance p).gst = p.gst ∧ (Part.advance p).hdr = p.hdr ∧ (Part.advance p).memCtr = p.memCtr ∧ (Part.advance
p).written = p.written := by
  unfold Part.advance; and_intros <;> (repeat' split) <;> simp

@[simp] theorem Part.takePullEnd_frame (c : Completion) (p : Part) : (Part.takePullEnd c p).cfg = p.cfg ∧
(Part.takePullEnd c p).branch = p.branch ∧ (Part.takePullEnd c p).trunkFramer = p.trunkFramer ∧ (Part.takePullEnd c
p).labelFramer = p.labelFramer ∧ (Part.takePullEnd c p).guestFramer = p.guestFramer ∧ (Part.takePullEnd c p).links =
p.links ∧ (Part.takePullEnd c p).fwd = p.fwd ∧ (Part.takePullEnd c p).call = p.call ∧ (Part.takePullEnd c p).pres =
p.pres ∧ (Part.takePullEnd c p).price = p.price ∧ (Part.takePullEnd c p).till = p.till ∧ (Part.takePullEnd c p).jrn =
p.jrn ∧ (Part.takePullEnd c p).lab = p.lab ∧ (Part.takePullEnd c p).gst = p.gst ∧ (Part.takePullEnd c p).hdr = p.hdr ∧
(Part.takePullEnd c p).memCtr = p.memCtr ∧ (Part.takePullEnd c p).written = p.written := by
  unfold Part.takePullEnd; dsimp only; (repeat' split) <;> simp

@[simp] theorem Part.drainPullEnds_frame (x1 : Nat) (x2 : Part) : (Part.drainPullEnds x1 x2).cfg = x2.cfg ∧
(Part.drainPullEnds x1 x2).branch = x2.branch ∧ (Part.drainPullEnds x1 x2).trunkFramer = x2.trunkFramer ∧
(Part.drainPullEnds x1 x2).labelFramer = x2.labelFramer ∧ (Part.drainPullEnds x1 x2).guestFramer = x2.guestFramer ∧
(Part.drainPullEnds x1 x2).links = x2.links ∧ (Part.drainPullEnds x1 x2).fwd = x2.fwd ∧ (Part.drainPullEnds x1 x2).call
= x2.call ∧ (Part.drainPullEnds x1 x2).pres = x2.pres ∧ (Part.drainPullEnds x1 x2).price = x2.price ∧
(Part.drainPullEnds x1 x2).till = x2.till ∧ (Part.drainPullEnds x1 x2).jrn = x2.jrn ∧ (Part.drainPullEnds x1 x2).lab =
x2.lab ∧ (Part.drainPullEnds x1 x2).gst = x2.gst ∧ (Part.drainPullEnds x1 x2).hdr = x2.hdr ∧ (Part.drainPullEnds x1
x2).memCtr = x2.memCtr ∧ (Part.drainPullEnds x1 x2).written = x2.written := by
  induction x1 generalizing x2 with
  | zero => simp [Part.drainPullEnds]
  | succ n ih => unfold Part.drainPullEnds; refine ⟨?_,?_,?_,?_,?_,?_,?_,?_,?_,?_,?_,?_,?_,?_,?_,?_,?_⟩ <;> ((try dsimp only); (repeat' split) <;> (try simp_all [Prod.ext_iff]) <;> (try (obtain ⟨_, rfl⟩ := ‹_ ∧ _ = (_ : Part)›)) <;> (try simp_all [Prod.ext_iff]) <;> (repeat' split) <;> (try (obtain ⟨_, rfl⟩ := ‹_ ∧ _ = (_ : Part)›)) <;> (try simp_all [Prod.ext_iff]) <;> (repeat' split) <;> (try simp_all))

@[simp] theorem Part.settlePulls_frame (x1 : Nat) (x2 : Part) : (Part.settlePulls x1 x2).cfg = x2.cfg ∧
(Part.settlePulls x1 x2).trunkFramer = x2.trunkFramer ∧ (Part.settlePulls x1 x2).labelFramer = x2.labelFramer ∧
(Part.settlePulls x1 x2).guestFramer = x2.guestFramer ∧ (Part.settlePulls x1 x2).pres = x2.pres ∧ (Part.settlePulls x1
x2).till = x2.till ∧ (Part.settlePulls x1 x2).jrn = x2.jrn ∧ (Part.settlePulls x1 x2).lab = x2.lab ∧ (Part.settlePulls
x1 x2).gst = x2.gst ∧ (Part.settlePulls x1 x2).hdr = x2.hdr ∧ (Part.settlePulls x1 x2).memCtr = x2.memCtr ∧
(Part.settlePulls x1 x2).written = x2.written := by
  induction x1 generalizing x2 with
  | zero => simp [Part.settlePulls]
  | succ n ih => unfold Part.settlePulls; refine ⟨?_,?_,?_,?_,?_,?_,?_,?_,?_,?_,?_,?_⟩ <;> ((try dsimp only); (repeat' split) <;> (try simp_all [Prod.ext_iff]) <;> (try (obtain ⟨_, rfl⟩ := ‹_ ∧ _ = (_ : Part)›)) <;> (try simp_all [Prod.ext_iff]) <;> (repeat' split) <;> (try (obtain ⟨_, rfl⟩ := ‹_ ∧ _ = (_ : Part)›)) <;> (try simp_all [Prod.ext_iff]) <;> (repeat' split) <;> (try simp_all))

@[simp] theorem Part.pullsEnded_frame (p : Part) : (Part.pullsEnded p).cfg = p.cfg ∧ (Part.pullsEnded p).trunkFramer =
p.trunkFramer ∧ (Part.pullsEnded p).labelFramer = p.labelFramer ∧ (Part.pullsEnded p).guestFramer = p.guestFramer ∧
(Part.pullsEnded p).pres = p.pres ∧ (Part.pullsEnded p).till = p.till ∧ (Part.pullsEnded p).jrn = p.jrn ∧
(Part.pullsEnded p).lab = p.lab ∧ (Part.pullsEnded p).gst = p.gst ∧ (Part.pullsEnded p).hdr = p.hdr ∧ (Part.pullsEnded
p).memCtr = p.memCtr ∧ (Part.pullsEnded p).written = p.written := by
  unfold Part.pullsEnded; and_intros <;> (repeat' split) <;> simp

@[simp] theorem Part.relayReturned_frame (p : Part) : (Part.relayReturned p).cfg = p.cfg ∧ (Part.relayReturned
p).trunkFramer = p.trunkFramer ∧ (Part.relayReturned p).labelFramer = p.labelFramer ∧ (Part.relayReturned p).guestFramer
= p.guestFramer ∧ (Part.relayReturned p).pres = p.pres ∧ (Part.relayReturned p).till = p.till ∧ (Part.relayReturned
p).jrn = p.jrn ∧ (Part.relayReturned p).lab = p.lab ∧ (Part.relayReturned p).gst = p.gst ∧ (Part.relayReturned p).hdr =
p.hdr ∧ (Part.relayReturned p).memCtr = p.memCtr ∧ (Part.relayReturned p).written = p.written := by
  unfold Part.relayReturned; and_intros <;> (repeat' split) <;> simp

@[simp] theorem Part.startUpload_frame (p : Part) : (Part.startUpload p).cfg = p.cfg ∧ (Part.startUpload p).trunkFramer
= p.trunkFramer ∧ (Part.startUpload p).labelFramer = p.labelFramer ∧ (Part.startUpload p).guestFramer = p.guestFramer ∧
(Part.startUpload p).pres = p.pres ∧ (Part.startUpload p).till = p.till ∧ (Part.startUpload p).jrn = p.jrn ∧
(Part.startUpload p).lab = p.lab ∧ (Part.startUpload p).gst = p.gst ∧ (Part.startUpload p).hdr = p.hdr ∧
(Part.startUpload p).memCtr = p.memCtr ∧ (Part.startUpload p).written = p.written := by
  unfold Part.startUpload; and_intros <;> (repeat' split) <;> simp

@[simp] theorem Part.packRecords_frame (n : StationNo) (x1 : List Bytes) (x2 : Part) : (Part.packRecords n x1 x2).2.cfg
= x2.cfg ∧ (Part.packRecords n x1 x2).2.branch = x2.branch ∧ (Part.packRecords n x1 x2).2.trunkFramer = x2.trunkFramer ∧
(Part.packRecords n x1 x2).2.labelFramer = x2.labelFramer ∧ (Part.packRecords n x1 x2).2.guestFramer = x2.guestFramer ∧
(Part.packRecords n x1 x2).2.links = x2.links ∧ (Part.packRecords n x1 x2).2.call = x2.call ∧ (Part.packRecords n x1
x2).2.pres = x2.pres ∧ (Part.packRecords n x1 x2).2.price = x2.price ∧ (Part.packRecords n x1 x2).2.till = x2.till ∧
(Part.packRecords n x1 x2).2.jrn = x2.jrn ∧ (Part.packRecords n x1 x2).2.lab = x2.lab ∧ (Part.packRecords n x1 x2).2.gst
= x2.gst ∧ (Part.packRecords n x1 x2).2.hdr = x2.hdr ∧ (Part.packRecords n x1 x2).2.memCtr = x2.memCtr ∧
(Part.packRecords n x1 x2).2.written = x2.written := by
  induction x1 generalizing x2 with
  | nil => simp [Part.packRecords]
  | cons r rs ih => unfold Part.packRecords; refine ⟨?_,?_,?_,?_,?_,?_,?_,?_,?_,?_,?_,?_,?_,?_,?_,?_⟩ <;> ((try dsimp only); (repeat' split) <;> (try simp_all [Prod.ext_iff]) <;> (try (obtain ⟨_, rfl⟩ := ‹_ ∧ _ = (_ : Part)›)) <;> (try simp_all [Prod.ext_iff]) <;> (repeat' split) <;> (try (obtain ⟨_, rfl⟩ := ‹_ ∧ _ = (_ : Part)›)) <;> (try simp_all [Prod.ext_iff]) <;> (repeat' split) <;> (try simp_all))

@[simp] theorem Part.takePullData_frame (n : StationNo) (tag : Byte) (b : Bytes) (p : Part) : (Part.takePullData n tag b
p).cfg = p.cfg ∧ (Part.takePullData n tag b p).branch = p.branch ∧ (Part.takePullData n tag b p).trunkFramer =
p.trunkFramer ∧ (Part.takePullData n tag b p).labelFramer = p.labelFramer ∧ (Part.takePullData n tag b p).guestFramer =
p.guestFramer ∧ (Part.takePullData n tag b p).links = p.links ∧ (Part.takePullData n tag b p).pres = p.pres ∧
(Part.takePullData n tag b p).price = p.price ∧ (Part.takePullData n tag b p).till = p.till ∧ (Part.takePullData n tag b
p).jrn = p.jrn ∧ (Part.takePullData n tag b p).lab = p.lab ∧ (Part.takePullData n tag b p).gst = p.gst ∧
(Part.takePullData n tag b p).hdr = p.hdr ∧ (Part.takePullData n tag b p).memCtr = p.memCtr ∧ (Part.takePullData n tag b
p).written = p.written := by
  unfold Part.takePullData; refine ⟨?_,?_,?_,?_,?_,?_,?_,?_,?_,?_,?_,?_,?_,?_,?_⟩ <;> ((try dsimp only); (repeat' split) <;> (try simp_all [Prod.ext_iff]) <;> (try (obtain ⟨_, rfl⟩ := ‹_ ∧ _ = (_ : Part)›)) <;> (try simp_all [Prod.ext_iff]) <;> (repeat' split) <;> (try (obtain ⟨_, rfl⟩ := ‹_ ∧ _ = (_ : Part)›)) <;> (try simp_all [Prod.ext_iff]) <;> (repeat' split) <;> (try simp_all))

@[simp] theorem Part.pullData_frame (p : Part) : (Part.pullData p).cfg = p.cfg ∧ (Part.pullData p).trunkFramer =
p.trunkFramer ∧ (Part.pullData p).labelFramer = p.labelFramer ∧ (Part.pullData p).guestFramer = p.guestFramer ∧
(Part.pullData p).pres = p.pres ∧ (Part.pullData p).till = p.till ∧ (Part.pullData p).jrn = p.jrn ∧ (Part.pullData
p).lab = p.lab ∧ (Part.pullData p).gst = p.gst ∧ (Part.pullData p).hdr = p.hdr ∧ (Part.pullData p).memCtr = p.memCtr ∧
(Part.pullData p).written = p.written := by
  unfold Part.pullData; refine ⟨?_,?_,?_,?_,?_,?_,?_,?_,?_,?_,?_,?_⟩ <;> ((try dsimp only); (repeat' split) <;> (try simp_all [Prod.ext_iff]) <;> (try (obtain ⟨_, rfl⟩ := ‹_ ∧ _ = (_ : Part)›)) <;> (try simp_all [Prod.ext_iff]) <;> (repeat' split) <;> (try (obtain ⟨_, rfl⟩ := ‹_ ∧ _ = (_ : Part)›)) <;> (try simp_all [Prod.ext_iff]) <;> (repeat' split) <;> (try simp_all))

@[simp] theorem Part.ownRead_frame (p : Part) : (Part.ownRead p).cfg = p.cfg ∧ (Part.ownRead p).trunkFramer =
p.trunkFramer ∧ (Part.ownRead p).labelFramer = p.labelFramer ∧ (Part.ownRead p).guestFramer = p.guestFramer ∧
(Part.ownRead p).pres = p.pres ∧ (Part.ownRead p).till = p.till ∧ (Part.ownRead p).lab = p.lab ∧ (Part.ownRead p).gst =
p.gst ∧ (Part.ownRead p).hdr = p.hdr ∧ (Part.ownRead p).memCtr = p.memCtr ∧ (Part.ownRead p).written = p.written := by
  unfold Part.ownRead; refine ⟨?_,?_,?_,?_,?_,?_,?_,?_,?_,?_,?_⟩ <;> ((try dsimp only); (repeat' split) <;> (try simp_all [Prod.ext_iff]) <;> (try (obtain ⟨_, rfl⟩ := ‹_ ∧ _ = (_ : Part)›)) <;> (try simp_all [Prod.ext_iff]) <;> (repeat' split) <;> (try (obtain ⟨_, rfl⟩ := ‹_ ∧ _ = (_ : Part)›)) <;> (try simp_all [Prod.ext_iff]) <;> (repeat' split) <;> (try simp_all))

@[simp] theorem Part.freeBlock_frame (b : Block) (p : Part) : (Part.freeBlock b p).cfg = p.cfg ∧ (Part.freeBlock b
p).branch = p.branch ∧ (Part.freeBlock b p).trunkFramer = p.trunkFramer ∧ (Part.freeBlock b p).labelFramer =
p.labelFramer ∧ (Part.freeBlock b p).guestFramer = p.guestFramer ∧ (Part.freeBlock b p).links = p.links ∧
(Part.freeBlock b p).call = p.call ∧ (Part.freeBlock b p).pres = p.pres ∧ (Part.freeBlock b p).price = p.price ∧
(Part.freeBlock b p).till = p.till ∧ (Part.freeBlock b p).jrn = p.jrn ∧ (Part.freeBlock b p).lab = p.lab ∧
(Part.freeBlock b p).gst = p.gst ∧ (Part.freeBlock b p).hdr = p.hdr ∧ (Part.freeBlock b p).memCtr = p.memCtr ∧
(Part.freeBlock b p).asks = p.asks ∧ (Part.freeBlock b p).dram = p.dram ∧ (Part.freeBlock b p).written = p.written := by
  unfold Part.freeBlock; and_intros <;> (repeat' split) <;> simp

@[simp] theorem Part.sendRelease_frame (n : StationNo) (s : Nat) (p : Part) : (Part.sendRelease n s p).2.cfg = p.cfg ∧
(Part.sendRelease n s p).2.trunkFramer = p.trunkFramer ∧ (Part.sendRelease n s p).2.labelFramer = p.labelFramer ∧
(Part.sendRelease n s p).2.guestFramer = p.guestFramer ∧ (Part.sendRelease n s p).2.links = p.links ∧ (Part.sendRelease
n s p).2.call = p.call ∧ (Part.sendRelease n s p).2.pres = p.pres ∧ (Part.sendRelease n s p).2.price = p.price ∧
(Part.sendRelease n s p).2.till = p.till ∧ (Part.sendRelease n s p).2.jrn = p.jrn ∧ (Part.sendRelease n s p).2.lab =
p.lab ∧ (Part.sendRelease n s p).2.gst = p.gst ∧ (Part.sendRelease n s p).2.trk = p.trk ∧ (Part.sendRelease n s p).2.hdr
= p.hdr ∧ (Part.sendRelease n s p).2.memCtr = p.memCtr ∧ (Part.sendRelease n s p).2.written = p.written := by
  unfold Part.sendRelease; and_intros <;> (repeat' split) <;> simp

@[simp] theorem Part.passRelease_frame (n : StationNo) (s : Nat) (p : Part) : (Part.passRelease n s p).cfg = p.cfg ∧
(Part.passRelease n s p).trunkFramer = p.trunkFramer ∧ (Part.passRelease n s p).labelFramer = p.labelFramer ∧
(Part.passRelease n s p).guestFramer = p.guestFramer ∧ (Part.passRelease n s p).links = p.links ∧ (Part.passRelease n s
p).call = p.call ∧ (Part.passRelease n s p).pres = p.pres ∧ (Part.passRelease n s p).price = p.price ∧ (Part.passRelease
n s p).till = p.till ∧ (Part.passRelease n s p).lab = p.lab ∧ (Part.passRelease n s p).gst = p.gst ∧ (Part.passRelease n
s p).memCtr = p.memCtr ∧ (Part.passRelease n s p).written = p.written := by
  unfold Part.passRelease; refine ⟨?_,?_,?_,?_,?_,?_,?_,?_,?_,?_,?_,?_,?_⟩ <;> ((try dsimp only); (repeat' split) <;> (try simp_all [Prod.ext_iff]) <;> (try (obtain ⟨_, rfl⟩ := ‹_ ∧ _ = (_ : Part)›)) <;> (try simp_all [Prod.ext_iff]) <;> (repeat' split) <;> (try (obtain ⟨_, rfl⟩ := ‹_ ∧ _ = (_ : Part)›)) <;> (try simp_all [Prod.ext_iff]) <;> (repeat' split) <;> (try simp_all))

@[simp] theorem Part.takeAck_frame (n : StationNo) (s : Nat) (p : Part) : (Part.takeAck n s p).cfg = p.cfg ∧
(Part.takeAck n s p).trunkFramer = p.trunkFramer ∧ (Part.takeAck n s p).labelFramer = p.labelFramer ∧ (Part.takeAck n s
p).guestFramer = p.guestFramer ∧ (Part.takeAck n s p).pres = p.pres ∧ (Part.takeAck n s p).till = p.till ∧ (Part.takeAck
n s p).lab = p.lab ∧ (Part.takeAck n s p).gst = p.gst ∧ (Part.takeAck n s p).memCtr = p.memCtr ∧ (Part.takeAck n s
p).written = p.written := by
  unfold Part.takeAck; dsimp only; and_intros <;> (repeat' split) <;> simp_all [Prod.ext_iff]

@[simp] theorem Part.ackExpiry_frame (p : Part) : (Part.ackExpiry p).cfg = p.cfg ∧ (Part.ackExpiry p).branch = p.branch
∧ (Part.ackExpiry p).trunkFramer = p.trunkFramer ∧ (Part.ackExpiry p).labelFramer = p.labelFramer ∧ (Part.ackExpiry
p).guestFramer = p.guestFramer ∧ (Part.ackExpiry p).pres = p.pres ∧ (Part.ackExpiry p).price = p.price ∧ (Part.ackExpiry
p).till = p.till ∧ (Part.ackExpiry p).jrn = p.jrn ∧ (Part.ackExpiry p).lab = p.lab ∧ (Part.ackExpiry p).gst = p.gst ∧
(Part.ackExpiry p).hdr = p.hdr ∧ (Part.ackExpiry p).memCtr = p.memCtr ∧ (Part.ackExpiry p).written = p.written := by
  unfold Part.ackExpiry; dsimp only; and_intros <;> (repeat' split) <;> simp_all [Prod.ext_iff]

@[simp] theorem Part.blockSent_frame (b : Buf) (first : Bool) (p : Part) : (Part.blockSent b first p).cfg = p.cfg ∧
(Part.blockSent b first p).trunkFramer = p.trunkFramer ∧ (Part.blockSent b first p).labelFramer = p.labelFramer ∧
(Part.blockSent b first p).guestFramer = p.guestFramer ∧ (Part.blockSent b first p).pres = p.pres ∧ (Part.blockSent b
first p).till = p.till ∧ (Part.blockSent b first p).jrn = p.jrn ∧ (Part.blockSent b first p).lab = p.lab ∧
(Part.blockSent b first p).gst = p.gst ∧ (Part.blockSent b first p).hdr = p.hdr ∧ (Part.blockSent b first p).memCtr =
p.memCtr ∧ (Part.blockSent b first p).written = p.written := by
  unfold Part.blockSent; dsimp only; and_intros <;> (repeat' split) <;> simp_all [Prod.ext_iff]

@[simp] theorem Part.trunkSent_frame (f : TFrame) (p : Part) : (Part.trunkSent f p).cfg = p.cfg ∧ (Part.trunkSent f
p).trunkFramer = p.trunkFramer ∧ (Part.trunkSent f p).labelFramer = p.labelFramer ∧ (Part.trunkSent f p).guestFramer =
p.guestFramer ∧ (Part.trunkSent f p).pres = p.pres ∧ (Part.trunkSent f p).till = p.till ∧ (Part.trunkSent f p).jrn =
p.jrn ∧ (Part.trunkSent f p).lab = p.lab ∧ (Part.trunkSent f p).gst = p.gst ∧ (Part.trunkSent f p).hdr = p.hdr ∧
(Part.trunkSent f p).memCtr = p.memCtr ∧ (Part.trunkSent f p).written = p.written := by
  unfold Part.trunkSent; and_intros <;> (repeat' split) <;> simp

@[simp] theorem Part.trunkUnknown_frame (p : Part) : (Part.trunkUnknown p).cfg = p.cfg ∧ (Part.trunkUnknown p).branch =
p.branch ∧ (Part.trunkUnknown p).trunkFramer = p.trunkFramer ∧ (Part.trunkUnknown p).labelFramer = p.labelFramer ∧
(Part.trunkUnknown p).guestFramer = p.guestFramer ∧ (Part.trunkUnknown p).links = p.links ∧ (Part.trunkUnknown p).call =
p.call ∧ (Part.trunkUnknown p).pres = p.pres ∧ (Part.trunkUnknown p).till = p.till ∧ (Part.trunkUnknown p).jrn = p.jrn ∧
(Part.trunkUnknown p).lab = p.lab ∧ (Part.trunkUnknown p).gst = p.gst ∧ (Part.trunkUnknown p).hdr = p.hdr ∧
(Part.trunkUnknown p).memCtr = p.memCtr ∧ (Part.trunkUnknown p).asks = p.asks ∧ (Part.trunkUnknown p).dram = p.dram ∧
(Part.trunkUnknown p).written = p.written := by
  unfold Part.trunkUnknown; refine ⟨?_,?_,?_,?_,?_,?_,?_,?_,?_,?_,?_,?_,?_,?_,?_,?_,?_⟩ <;> ((try dsimp only); (repeat' split) <;> (try simp_all [Prod.ext_iff]) <;> (try (obtain ⟨_, rfl⟩ := ‹_ ∧ _ = (_ : Part)›)) <;> (try simp_all [Prod.ext_iff]) <;> (repeat' split) <;> (try (obtain ⟨_, rfl⟩ := ‹_ ∧ _ = (_ : Part)›)) <;> (try simp_all [Prod.ext_iff]) <;> (repeat' split) <;> (try simp_all))

@[simp] theorem Part.unexpected_frame (p : Part) : (Part.unexpected p).cfg = p.cfg ∧ (Part.unexpected p).branch =
p.branch ∧ (Part.unexpected p).trunkFramer = p.trunkFramer ∧ (Part.unexpected p).labelFramer = p.labelFramer ∧
(Part.unexpected p).guestFramer = p.guestFramer ∧ (Part.unexpected p).links = p.links ∧ (Part.unexpected p).call =
p.call ∧ (Part.unexpected p).pres = p.pres ∧ (Part.unexpected p).price = p.price ∧ (Part.unexpected p).till = p.till ∧
(Part.unexpected p).jrn = p.jrn ∧ (Part.unexpected p).lab = p.lab ∧ (Part.unexpected p).gst = p.gst ∧ (Part.unexpected
p).hdr = p.hdr ∧ (Part.unexpected p).memCtr = p.memCtr ∧ (Part.unexpected p).asks = p.asks ∧ (Part.unexpected p).dram =
p.dram ∧ (Part.unexpected p).written = p.written := by
  unfold Part.unexpected; and_intros <;> (repeat' split) <;> simp

@[simp] theorem Part.blockAck_frame (p : Part) : (Part.blockAck p).cfg = p.cfg ∧ (Part.blockAck p).trunkFramer =
p.trunkFramer ∧ (Part.blockAck p).labelFramer = p.labelFramer ∧ (Part.blockAck p).guestFramer = p.guestFramer ∧
(Part.blockAck p).pres = p.pres ∧ (Part.blockAck p).till = p.till ∧ (Part.blockAck p).lab = p.lab ∧ (Part.blockAck
p).gst = p.gst ∧ (Part.blockAck p).memCtr = p.memCtr ∧ (Part.blockAck p).written = p.written := by
  unfold Part.blockAck; and_intros <;> (repeat' split) <;> simp

@[simp] theorem Part.fileHead_frame (p : Part) : (Part.fileHead p).cfg = p.cfg ∧ (Part.fileHead p).trunkFramer =
p.trunkFramer ∧ (Part.fileHead p).labelFramer = p.labelFramer ∧ (Part.fileHead p).guestFramer = p.guestFramer ∧
(Part.fileHead p).links = p.links ∧ (Part.fileHead p).pres = p.pres ∧ (Part.fileHead p).till = p.till ∧ (Part.fileHead
p).jrn = p.jrn ∧ (Part.fileHead p).lab = p.lab ∧ (Part.fileHead p).gst = p.gst ∧ (Part.fileHead p).memCtr = p.memCtr ∧
(Part.fileHead p).written = p.written := by
  unfold Part.fileHead Part.takeFile; refine ⟨?_,?_,?_,?_,?_,?_,?_,?_,?_,?_,?_,?_⟩ <;> ((try dsimp only); (repeat' split) <;> (try simp_all [Prod.ext_iff]) <;> (try (obtain ⟨_, rfl⟩ := ‹_ ∧ _ = (_ : Part)›)) <;> (try simp_all [Prod.ext_iff]) <;> (repeat' split) <;> (try (obtain ⟨_, rfl⟩ := ‹_ ∧ _ = (_ : Part)›)) <;> (try simp_all [Prod.ext_iff]) <;> (repeat' split) <;> (try simp_all))

@[simp] theorem Part.filePart_frame (p : Part) : (Part.filePart p).cfg = p.cfg ∧ (Part.filePart p).trunkFramer =
p.trunkFramer ∧ (Part.filePart p).labelFramer = p.labelFramer ∧ (Part.filePart p).guestFramer = p.guestFramer ∧
(Part.filePart p).links = p.links ∧ (Part.filePart p).pres = p.pres ∧ (Part.filePart p).till = p.till ∧ (Part.filePart
p).jrn = p.jrn ∧ (Part.filePart p).lab = p.lab ∧ (Part.filePart p).gst = p.gst ∧ (Part.filePart p).memCtr = p.memCtr ∧
(Part.filePart p).written = p.written := by
  unfold Part.filePart Part.takeFile; refine ⟨?_,?_,?_,?_,?_,?_,?_,?_,?_,?_,?_,?_⟩ <;> ((try dsimp only); (repeat' split) <;> (try simp_all [Prod.ext_iff]) <;> (try (obtain ⟨_, rfl⟩ := ‹_ ∧ _ = (_ : Part)›)) <;> (try simp_all [Prod.ext_iff]) <;> (repeat' split) <;> (try (obtain ⟨_, rfl⟩ := ‹_ ∧ _ = (_ : Part)›)) <;> (try simp_all [Prod.ext_iff]) <;> (repeat' split) <;> (try simp_all))

@[simp] theorem Part.fileEnd_frame (p : Part) : (Part.fileEnd p).cfg = p.cfg ∧ (Part.fileEnd p).trunkFramer =
p.trunkFramer ∧ (Part.fileEnd p).labelFramer = p.labelFramer ∧ (Part.fileEnd p).guestFramer = p.guestFramer ∧
(Part.fileEnd p).pres = p.pres ∧ (Part.fileEnd p).till = p.till ∧ (Part.fileEnd p).jrn = p.jrn ∧ (Part.fileEnd p).lab =
p.lab ∧ (Part.fileEnd p).gst = p.gst ∧ (Part.fileEnd p).memCtr = p.memCtr ∧ (Part.fileEnd p).written = p.written := by
  unfold Part.fileEnd Part.takeFile; refine ⟨?_,?_,?_,?_,?_,?_,?_,?_,?_,?_,?_⟩ <;> ((try dsimp only); (repeat' split) <;> (try simp_all [Prod.ext_iff]) <;> (try (obtain ⟨_, rfl⟩ := ‹_ ∧ _ = (_ : Part)›)) <;> (try simp_all [Prod.ext_iff]) <;> (repeat' split) <;> (try (obtain ⟨_, rfl⟩ := ‹_ ∧ _ = (_ : Part)›)) <;> (try simp_all [Prod.ext_iff]) <;> (repeat' split) <;> (try simp_all))

@[simp] theorem Part.trunkClaim_frame (p : Part) : (Part.trunkClaim p).cfg = p.cfg ∧ (Part.trunkClaim p).trunkFramer =
p.trunkFramer ∧ (Part.trunkClaim p).labelFramer = p.labelFramer ∧ (Part.trunkClaim p).guestFramer = p.guestFramer ∧
(Part.trunkClaim p).pres = p.pres ∧ (Part.trunkClaim p).price = p.price ∧ (Part.trunkClaim p).till = p.till ∧
(Part.trunkClaim p).jrn = p.jrn ∧ (Part.trunkClaim p).lab = p.lab ∧ (Part.trunkClaim p).gst = p.gst ∧ (Part.trunkClaim
p).hdr = p.hdr ∧ (Part.trunkClaim p).memCtr = p.memCtr ∧ (Part.trunkClaim p).written = p.written := by
  unfold Part.trunkClaim; and_intros <;> (repeat' split) <;> simp

@[simp] theorem Part.carrierUp_frame (p : Part) : (Part.carrierUp p).cfg = p.cfg ∧ (Part.carrierUp p).trunkFramer =
p.trunkFramer ∧ (Part.carrierUp p).labelFramer = p.labelFramer ∧ (Part.carrierUp p).guestFramer = p.guestFramer ∧
(Part.carrierUp p).call = p.call ∧ (Part.carrierUp p).pres = p.pres ∧ (Part.carrierUp p).price = p.price ∧
(Part.carrierUp p).till = p.till ∧ (Part.carrierUp p).jrn = p.jrn ∧ (Part.carrierUp p).lab = p.lab ∧ (Part.carrierUp
p).gst = p.gst ∧ (Part.carrierUp p).hdr = p.hdr ∧ (Part.carrierUp p).memCtr = p.memCtr ∧ (Part.carrierUp p).written =
p.written := by
  unfold Part.carrierUp; and_intros <;> (repeat' split) <;> simp

@[simp] theorem Part.carrierLoss_frame (p : Part) : (Part.carrierLoss p).cfg = p.cfg ∧ (Part.carrierLoss p).branch =
p.branch ∧ (Part.carrierLoss p).trunkFramer = p.trunkFramer ∧ (Part.carrierLoss p).labelFramer = p.labelFramer ∧
(Part.carrierLoss p).guestFramer = p.guestFramer ∧ (Part.carrierLoss p).pres = p.pres ∧ (Part.carrierLoss p).price =
p.price ∧ (Part.carrierLoss p).till = p.till ∧ (Part.carrierLoss p).jrn = p.jrn ∧ (Part.carrierLoss p).lab = p.lab ∧
(Part.carrierLoss p).gst = p.gst ∧ (Part.carrierLoss p).hdr = p.hdr ∧ (Part.carrierLoss p).memCtr = p.memCtr ∧
(Part.carrierLoss p).written = p.written := by
  unfold Part.carrierLoss; dsimp only; and_intros <;> (repeat' split) <;> simp_all [Prod.ext_iff]

@[simp] theorem Part.sessionTick_frame (p : Part) : (Part.sessionTick p).cfg = p.cfg ∧ (Part.sessionTick p).branch =
p.branch ∧ (Part.sessionTick p).trunkFramer = p.trunkFramer ∧ (Part.sessionTick p).labelFramer = p.labelFramer ∧
(Part.sessionTick p).guestFramer = p.guestFramer ∧ (Part.sessionTick p).call = p.call ∧ (Part.sessionTick p).pres =
p.pres ∧ (Part.sessionTick p).price = p.price ∧ (Part.sessionTick p).till = p.till ∧ (Part.sessionTick p).jrn = p.jrn ∧
(Part.sessionTick p).lab = p.lab ∧ (Part.sessionTick p).gst = p.gst ∧ (Part.sessionTick p).hdr = p.hdr ∧
(Part.sessionTick p).memCtr = p.memCtr ∧ (Part.sessionTick p).written = p.written := by
  unfold Part.sessionTick; and_intros <;> (repeat' split) <;> simp

@[simp] theorem Part.logonExpiry_frame (p : Part) : (Part.logonExpiry p).cfg = p.cfg ∧ (Part.logonExpiry p).branch =
p.branch ∧ (Part.logonExpiry p).trunkFramer = p.trunkFramer ∧ (Part.logonExpiry p).labelFramer = p.labelFramer ∧
(Part.logonExpiry p).guestFramer = p.guestFramer ∧ (Part.logonExpiry p).pres = p.pres ∧ (Part.logonExpiry p).price =
p.price ∧ (Part.logonExpiry p).till = p.till ∧ (Part.logonExpiry p).jrn = p.jrn ∧ (Part.logonExpiry p).lab = p.lab ∧
(Part.logonExpiry p).gst = p.gst ∧ (Part.logonExpiry p).hdr = p.hdr ∧ (Part.logonExpiry p).memCtr = p.memCtr ∧
(Part.logonExpiry p).written = p.written := by
  unfold Part.logonExpiry; and_intros <;> (repeat' split) <;> simp

@[simp] theorem Part.ownRetry_frame (p : Part) : (Part.ownRetry p).cfg = p.cfg ∧ (Part.ownRetry p).trunkFramer =
p.trunkFramer ∧ (Part.ownRetry p).labelFramer = p.labelFramer ∧ (Part.ownRetry p).guestFramer = p.guestFramer ∧
(Part.ownRetry p).pres = p.pres ∧ (Part.ownRetry p).till = p.till ∧ (Part.ownRetry p).lab = p.lab ∧ (Part.ownRetry
p).gst = p.gst ∧ (Part.ownRetry p).hdr = p.hdr ∧ (Part.ownRetry p).memCtr = p.memCtr ∧ (Part.ownRetry p).written =
p.written := by
  unfold Part.ownRetry; and_intros <;> (repeat' split) <;> simp

@[simp] theorem Part.pullRetry_frame (p : Part) : (Part.pullRetry p).cfg = p.cfg ∧ (Part.pullRetry p).trunkFramer =
p.trunkFramer ∧ (Part.pullRetry p).labelFramer = p.labelFramer ∧ (Part.pullRetry p).guestFramer = p.guestFramer ∧
(Part.pullRetry p).pres = p.pres ∧ (Part.pullRetry p).till = p.till ∧ (Part.pullRetry p).jrn = p.jrn ∧ (Part.pullRetry
p).lab = p.lab ∧ (Part.pullRetry p).gst = p.gst ∧ (Part.pullRetry p).hdr = p.hdr ∧ (Part.pullRetry p).memCtr = p.memCtr
∧ (Part.pullRetry p).written = p.written := by
  unfold Part.pullRetry; and_intros <;> (repeat' split) <;> simp

@[simp] theorem Part.downloadExpiry_frame (p : Part) : (Part.downloadExpiry p).cfg = p.cfg ∧ (Part.downloadExpiry
p).branch = p.branch ∧ (Part.downloadExpiry p).trunkFramer = p.trunkFramer ∧ (Part.downloadExpiry p).labelFramer =
p.labelFramer ∧ (Part.downloadExpiry p).guestFramer = p.guestFramer ∧ (Part.downloadExpiry p).pres = p.pres ∧
(Part.downloadExpiry p).price = p.price ∧ (Part.downloadExpiry p).till = p.till ∧ (Part.downloadExpiry p).jrn = p.jrn ∧
(Part.downloadExpiry p).lab = p.lab ∧ (Part.downloadExpiry p).gst = p.gst ∧ (Part.downloadExpiry p).hdr = p.hdr ∧
(Part.downloadExpiry p).memCtr = p.memCtr ∧ (Part.downloadExpiry p).written = p.written := by
  unfold Part.downloadExpiry; and_intros <;> (repeat' split) <;> simp

@[simp] theorem Part.clearCounters_frame (p : Part) : (Part.clearCounters p).cfg = p.cfg ∧ (Part.clearCounters p).asks =
p.asks ∧ (Part.clearCounters p).dram = p.dram ∧ (Part.clearCounters p).written = p.written := by
  unfold Part.clearCounters; simp

@[simp] theorem Part.stationReport_frame (night : Nat) (p : Part) : (Part.stationReport night p).cfg = p.cfg ∧
(Part.stationReport night p).dram = p.dram ∧ (Part.stationReport night p).written = p.written := by
  unfold Part.stationReport; refine ⟨?_,?_,?_⟩ <;> ((try dsimp only); (repeat' split) <;> (try simp_all [Prod.ext_iff]) <;> (try (obtain ⟨_, rfl⟩ := ‹_ ∧ _ = (_ : Part)›)) <;> (try simp_all [Prod.ext_iff]) <;> (repeat' split) <;> (try (obtain ⟨_, rfl⟩ := ‹_ ∧ _ = (_ : Part)›)) <;> (try simp_all [Prod.ext_iff]) <;> (repeat' split) <;> (try simp_all))

@[simp] theorem Part.windowStart_frame (night : Nat) (p : Part) : (Part.windowStart night p).cfg = p.cfg ∧
(Part.windowStart night p).written = p.written := by
  unfold Part.windowStart; and_intros <;> (repeat' split) <;> simp

@[simp] theorem Part.windowEnd_frame (p : Part) : (Part.windowEnd p).cfg = p.cfg ∧ (Part.windowEnd p).trunkFramer =
p.trunkFramer ∧ (Part.windowEnd p).labelFramer = p.labelFramer ∧ (Part.windowEnd p).guestFramer = p.guestFramer ∧
(Part.windowEnd p).pres = p.pres ∧ (Part.windowEnd p).price = p.price ∧ (Part.windowEnd p).till = p.till ∧
(Part.windowEnd p).jrn = p.jrn ∧ (Part.windowEnd p).lab = p.lab ∧ (Part.windowEnd p).gst = p.gst ∧ (Part.windowEnd
p).hdr = p.hdr ∧ (Part.windowEnd p).memCtr = p.memCtr ∧ (Part.windowEnd p).written = p.written := by
  unfold Part.windowEnd; and_intros <;> (repeat' split) <;> simp

@[simp] theorem Part.windowChange_frame (before : Option Nat) (after : Option Nat) (p : Part) : (Part.windowChange
before after p).cfg = p.cfg ∧ (Part.windowChange before after p).written = p.written := by
  unfold Part.windowChange; and_intros <;> (repeat' split) <;> simp

@[simp] theorem Part.clockTo_frame (c : Clock) (p : Part) : (Part.clockTo c p).cfg = p.cfg ∧ (Part.clockTo c p).written
= p.written := by
  unfold Part.clockTo; dsimp only; and_intros <;> (repeat' split) <;> simp_all [Prod.ext_iff]

@[simp] theorem Part.setClock_frame (day : Nat) (minute : Nat) (second : Nat) (p : Part) : (Part.setClock day minute
second p).cfg = p.cfg ∧ (Part.setClock day minute second p).written = p.written := by
  unfold Part.setClock; and_intros <;> (repeat' split) <;> simp

@[simp] theorem Part.clockTick_frame (p : Part) : (Part.clockTick p).cfg = p.cfg ∧ (Part.clockTick p).written =
p.written := by
  unfold Part.clockTick; and_intros <;> (repeat' split) <;> simp

@[simp] theorem Part.welcome_frame (p : Part) : (Part.welcome p).cfg = p.cfg ∧ (Part.welcome p).written = p.written := by
  unfold Part.welcome; dsimp only; and_intros <;> (repeat' split) <;> simp_all [Prod.ext_iff]

end Sys2Proof.Machine
end

