-- ==== Sys2Proof/Laws/PresenceFrames.lean ====
section
/-! SUPPORT. What each operation of the presence unit leaves as it was: one lemma for each, a rewrite rule for every block of the part that
it does not touch. -/

set_option linter.all false

/- Every lemma here is a case split over a long record; the default limit is for short proofs. -/
set_option maxHeartbeats 4000000

open Sys2Proof Sys2Proof.Machine

namespace Sys2Proof.Machine

@[simp] theorem Part.setJoining_frame (j : Joining) (p : Part) : (Part.setJoining j p).cfg = p.cfg ∧ (Part.setJoining j
p).trunkFramer = p.trunkFramer ∧ (Part.setJoining j p).labelFramer = p.labelFramer ∧ (Part.setJoining j p).guestFramer =
p.guestFramer ∧ (Part.setJoining j p).call = p.call ∧ (Part.setJoining j p).till = p.till ∧ (Part.setJoining j p).jrn =
p.jrn ∧ (Part.setJoining j p).gst = p.gst ∧ (Part.setJoining j p).hdr = p.hdr ∧ (Part.setJoining j p).memCtr = p.memCtr
∧ (Part.setJoining j p).written = p.written := by
  unfold Part.setJoining; dsimp only; and_intros <;> (repeat' split) <;> simp_all [Prod.ext_iff]

@[simp] theorem Part.enterListen_frame (p : Part) : (Part.enterListen p).cfg = p.cfg ∧ (Part.enterListen p).trunkFramer
= p.trunkFramer ∧ (Part.enterListen p).labelFramer = p.labelFramer ∧ (Part.enterListen p).guestFramer = p.guestFramer ∧
(Part.enterListen p).call = p.call ∧ (Part.enterListen p).till = p.till ∧ (Part.enterListen p).jrn = p.jrn ∧
(Part.enterListen p).gst = p.gst ∧ (Part.enterListen p).hdr = p.hdr ∧ (Part.enterListen p).memCtr = p.memCtr ∧
(Part.enterListen p).written = p.written := by
  unfold Part.enterListen; and_intros <;> (repeat' split) <;> simp

@[simp] theorem Part.sendPresence_frame (p : Part) : (Part.sendPresence p).cfg = p.cfg ∧ (Part.sendPresence
p).trunkFramer = p.trunkFramer ∧ (Part.sendPresence p).labelFramer = p.labelFramer ∧ (Part.sendPresence p).guestFramer =
p.guestFramer ∧ (Part.sendPresence p).links = p.links ∧ (Part.sendPresence p).call = p.call ∧ (Part.sendPresence
p).price = p.price ∧ (Part.sendPresence p).till = p.till ∧ (Part.sendPresence p).jrn = p.jrn ∧ (Part.sendPresence p).lab
= p.lab ∧ (Part.sendPresence p).gst = p.gst ∧ (Part.sendPresence p).trk = p.trk ∧ (Part.sendPresence p).hdr = p.hdr ∧
(Part.sendPresence p).memCtr = p.memCtr ∧ (Part.sendPresence p).written = p.written := by
  unfold Part.sendPresence; refine ⟨?_,?_,?_,?_,?_,?_,?_,?_,?_,?_,?_,?_,?_,?_,?_⟩ <;> ((try dsimp only); (repeat' split) <;> (try simp_all [Prod.ext_iff]) <;> (try (obtain ⟨_, rfl⟩ := ‹_ ∧ _ = (_ : Part)›)) <;> (try simp_all [Prod.ext_iff]) <;> (repeat' split) <;> (try (obtain ⟨_, rfl⟩ := ‹_ ∧ _ = (_ : Part)›)) <;> (try simp_all [Prod.ext_iff]) <;> (repeat' split) <;> (try simp_all))

@[simp] theorem Part.presenceTick_frame (p : Part) : (Part.presenceTick p).cfg = p.cfg ∧ (Part.presenceTick
p).trunkFramer = p.trunkFramer ∧ (Part.presenceTick p).labelFramer = p.labelFramer ∧ (Part.presenceTick p).guestFramer =
p.guestFramer ∧ (Part.presenceTick p).links = p.links ∧ (Part.presenceTick p).call = p.call ∧ (Part.presenceTick
p).price = p.price ∧ (Part.presenceTick p).till = p.till ∧ (Part.presenceTick p).jrn = p.jrn ∧ (Part.presenceTick p).lab
= p.lab ∧ (Part.presenceTick p).gst = p.gst ∧ (Part.presenceTick p).hdr = p.hdr ∧ (Part.presenceTick p).memCtr =
p.memCtr ∧ (Part.presenceTick p).written = p.written := by
  unfold Part.presenceTick; refine ⟨?_,?_,?_,?_,?_,?_,?_,?_,?_,?_,?_,?_,?_,?_⟩ <;> ((try dsimp only); (repeat' split) <;> (try simp_all [Prod.ext_iff]) <;> (try (obtain ⟨_, rfl⟩ := ‹_ ∧ _ = (_ : Part)›)) <;> (try simp_all [Prod.ext_iff]) <;> (repeat' split) <;> (try (obtain ⟨_, rfl⟩ := ‹_ ∧ _ = (_ : Part)›)) <;> (try simp_all [Prod.ext_iff]) <;> (repeat' split) <;> (try simp_all))

@[simp] theorem Part.enterSync_frame (p : Part) : (Part.enterSync p).cfg = p.cfg ∧ (Part.enterSync p).trunkFramer =
p.trunkFramer ∧ (Part.enterSync p).labelFramer = p.labelFramer ∧ (Part.enterSync p).guestFramer = p.guestFramer ∧
(Part.enterSync p).till = p.till ∧ (Part.enterSync p).jrn = p.jrn ∧ (Part.enterSync p).gst = p.gst ∧ (Part.enterSync
p).memCtr = p.memCtr ∧ (Part.enterSync p).written = p.written := by
  unfold Part.enterSync; dsimp only; and_intros <;> (repeat' split) <;> simp_all [Prod.ext_iff]

@[simp] theorem Part.syncCheck_frame (p : Part) : (Part.syncCheck p).cfg = p.cfg ∧ (Part.syncCheck p).trunkFramer =
p.trunkFramer ∧ (Part.syncCheck p).labelFramer = p.labelFramer ∧ (Part.syncCheck p).guestFramer = p.guestFramer ∧
(Part.syncCheck p).till = p.till ∧ (Part.syncCheck p).jrn = p.jrn ∧ (Part.syncCheck p).gst = p.gst ∧ (Part.syncCheck
p).memCtr = p.memCtr ∧ (Part.syncCheck p).written = p.written := by
  unfold Part.syncCheck; and_intros <;> (repeat' split) <;> simp

@[simp] theorem Part.endAnnouncing_frame (p : Part) : (Part.endAnnouncing p).cfg = p.cfg ∧ (Part.endAnnouncing
p).trunkFramer = p.trunkFramer ∧ (Part.endAnnouncing p).labelFramer = p.labelFramer ∧ (Part.endAnnouncing p).guestFramer
= p.guestFramer ∧ (Part.endAnnouncing p).till = p.till ∧ (Part.endAnnouncing p).jrn = p.jrn ∧ (Part.endAnnouncing p).gst
= p.gst ∧ (Part.endAnnouncing p).memCtr = p.memCtr ∧ (Part.endAnnouncing p).written = p.written := by
  unfold Part.endAnnouncing; and_intros <;> (repeat' split) <;> simp

@[simp] theorem Part.readyCheck_frame (g : Nat) (p : Part) : (Part.readyCheck g p).cfg = p.cfg ∧ (Part.readyCheck g
p).trunkFramer = p.trunkFramer ∧ (Part.readyCheck g p).labelFramer = p.labelFramer ∧ (Part.readyCheck g p).guestFramer =
p.guestFramer ∧ (Part.readyCheck g p).till = p.till ∧ (Part.readyCheck g p).jrn = p.jrn ∧ (Part.readyCheck g p).gst =
p.gst ∧ (Part.readyCheck g p).memCtr = p.memCtr ∧ (Part.readyCheck g p).written = p.written := by
  unfold Part.readyCheck; dsimp only; and_intros <;> (repeat' split) <;> simp_all [Prod.ext_iff]

@[simp] theorem Part.setPeer_frame (n : StationNo) (x : Peer) (p : Part) : (Part.setPeer n x p).cfg = p.cfg ∧
(Part.setPeer n x p).branch = p.branch ∧ (Part.setPeer n x p).trunkFramer = p.trunkFramer ∧ (Part.setPeer n x
p).labelFramer = p.labelFramer ∧ (Part.setPeer n x p).guestFramer = p.guestFramer ∧ (Part.setPeer n x p).links = p.links
∧ (Part.setPeer n x p).fwd = p.fwd ∧ (Part.setPeer n x p).call = p.call ∧ (Part.setPeer n x p).price = p.price ∧
(Part.setPeer n x p).till = p.till ∧ (Part.setPeer n x p).jrn = p.jrn ∧ (Part.setPeer n x p).lab = p.lab ∧ (Part.setPeer
n x p).gst = p.gst ∧ (Part.setPeer n x p).trk = p.trk ∧ (Part.setPeer n x p).hdr = p.hdr ∧ (Part.setPeer n x p).memCtr =
p.memCtr ∧ (Part.setPeer n x p).asks = p.asks ∧ (Part.setPeer n x p).dram = p.dram ∧ (Part.setPeer n x p).written =
p.written := by
  unfold Part.setPeer; and_intros <;> (repeat' split) <;> simp

@[simp] theorem Part.holderNotice_frame (n : StationNo) (d : PresenceData) (p : Part) : (Part.holderNotice n d p).cfg =
p.cfg ∧ (Part.holderNotice n d p).trunkFramer = p.trunkFramer ∧ (Part.holderNotice n d p).labelFramer = p.labelFramer ∧
(Part.holderNotice n d p).guestFramer = p.guestFramer ∧ (Part.holderNotice n d p).pres = p.pres ∧ (Part.holderNotice n d
p).price = p.price ∧ (Part.holderNotice n d p).till = p.till ∧ (Part.holderNotice n d p).jrn = p.jrn ∧
(Part.holderNotice n d p).lab = p.lab ∧ (Part.holderNotice n d p).gst = p.gst ∧ (Part.holderNotice n d p).hdr = p.hdr ∧
(Part.holderNotice n d p).memCtr = p.memCtr ∧ (Part.holderNotice n d p).written = p.written := by
  unfold Part.holderNotice; and_intros <;> (repeat' split) <;> simp

@[simp] theorem Part.lateRelease_frame (n : StationNo) (d : PresenceData) (p : Part) : (Part.lateRelease n d p).cfg =
p.cfg ∧ (Part.lateRelease n d p).trunkFramer = p.trunkFramer ∧ (Part.lateRelease n d p).labelFramer = p.labelFramer ∧
(Part.lateRelease n d p).guestFramer = p.guestFramer ∧ (Part.lateRelease n d p).links = p.links ∧ (Part.lateRelease n d
p).call = p.call ∧ (Part.lateRelease n d p).pres = p.pres ∧ (Part.lateRelease n d p).price = p.price ∧ (Part.lateRelease
n d p).till = p.till ∧ (Part.lateRelease n d p).jrn = p.jrn ∧ (Part.lateRelease n d p).lab = p.lab ∧ (Part.lateRelease n
d p).gst = p.gst ∧ (Part.lateRelease n d p).hdr = p.hdr ∧ (Part.lateRelease n d p).memCtr = p.memCtr ∧ (Part.lateRelease
n d p).written = p.written := by
  unfold Part.lateRelease; refine ⟨?_,?_,?_,?_,?_,?_,?_,?_,?_,?_,?_,?_,?_,?_,?_⟩ <;> ((try dsimp only); (repeat' split) <;> (try simp_all [Prod.ext_iff]) <;> (try (obtain ⟨_, rfl⟩ := ‹_ ∧ _ = (_ : Part)›)) <;> (try simp_all [Prod.ext_iff]) <;> (repeat' split) <;> (try (obtain ⟨_, rfl⟩ := ‹_ ∧ _ = (_ : Part)›)) <;> (try simp_all [Prod.ext_iff]) <;> (repeat' split) <;> (try simp_all))

@[simp] theorem Part.peerNotice_frame (n : StationNo) (taken : Option PresenceData) (p : Part) : (Part.peerNotice n
taken p).cfg = p.cfg ∧ (Part.peerNotice n taken p).trunkFramer = p.trunkFramer ∧ (Part.peerNotice n taken p).labelFramer
= p.labelFramer ∧ (Part.peerNotice n taken p).guestFramer = p.guestFramer ∧ (Part.peerNotice n taken p).till = p.till ∧
(Part.peerNotice n taken p).jrn = p.jrn ∧ (Part.peerNotice n taken p).gst = p.gst ∧ (Part.peerNotice n taken p).memCtr =
p.memCtr ∧ (Part.peerNotice n taken p).written = p.written := by
  unfold Part.peerNotice; dsimp only; and_intros <;> (repeat' split) <;> simp_all [Prod.ext_iff]

@[simp] theorem Part.clockFrom_frame (n : StationNo) (d : PresenceData) (p : Part) : (Part.clockFrom n d p).cfg = p.cfg
∧ (Part.clockFrom n d p).written = p.written := by
  unfold Part.clockFrom; and_intros <;> (repeat' split) <;> simp

@[simp] theorem Part.takePeer_frame (n : StationNo) (d : PresenceData) (p : Part) : (Part.takePeer n d p).cfg = p.cfg ∧
(Part.takePeer n d p).written = p.written := by
  unfold Part.takePeer; refine ⟨?_,?_⟩ <;> ((try dsimp only); (repeat' split) <;> (try simp_all [Prod.ext_iff]) <;> (try (obtain ⟨_, rfl⟩ := ‹_ ∧ _ = (_ : Part)›)) <;> (try simp_all [Prod.ext_iff]) <;> (repeat' split) <;> (try (obtain ⟨_, rfl⟩ := ‹_ ∧ _ = (_ : Part)›)) <;> (try simp_all [Prod.ext_iff]) <;> (repeat' split) <;> (try simp_all))

@[simp] theorem Part.takeOwn_frame (p : Part) : (Part.takeOwn p).cfg = p.cfg ∧ (Part.takeOwn p).trunkFramer =
p.trunkFramer ∧ (Part.takeOwn p).labelFramer = p.labelFramer ∧ (Part.takeOwn p).guestFramer = p.guestFramer ∧
(Part.takeOwn p).call = p.call ∧ (Part.takeOwn p).till = p.till ∧ (Part.takeOwn p).jrn = p.jrn ∧ (Part.takeOwn p).gst =
p.gst ∧ (Part.takeOwn p).hdr = p.hdr ∧ (Part.takeOwn p).memCtr = p.memCtr ∧ (Part.takeOwn p).written = p.written := by
  unfold Part.takeOwn; and_intros <;> (repeat' split) <;> simp

@[simp] theorem Part.presence_frame (p : Part) : (Part.presence p).cfg = p.cfg ∧ (Part.presence p).written = p.written
:= by
  unfold Part.presence; and_intros <;> (repeat' split) <;> simp

@[simp] theorem Part.peerSilence_frame (n : StationNo) (p : Part) : (Part.peerSilence n p).cfg = p.cfg ∧
(Part.peerSilence n p).trunkFramer = p.trunkFramer ∧ (Part.peerSilence n p).labelFramer = p.labelFramer ∧
(Part.peerSilence n p).guestFramer = p.guestFramer ∧ (Part.peerSilence n p).till = p.till ∧ (Part.peerSilence n p).jrn =
p.jrn ∧ (Part.peerSilence n p).gst = p.gst ∧ (Part.peerSilence n p).memCtr = p.memCtr ∧ (Part.peerSilence n p).written =
p.written := by
  unfold Part.peerSilence; dsimp only; and_intros <;> (repeat' split) <;> simp_all [Prod.ext_iff]

@[simp] theorem Part.configPassed_frame (c : ConfigBlock) (p : Part) : (Part.configPassed c p).trunkFramer =
p.trunkFramer ∧ (Part.configPassed c p).labelFramer = p.labelFramer ∧ (Part.configPassed c p).guestFramer =
p.guestFramer ∧ (Part.configPassed c p).call = p.call ∧ (Part.configPassed c p).till = p.till ∧ (Part.configPassed c
p).jrn = p.jrn ∧ (Part.configPassed c p).gst = p.gst ∧ (Part.configPassed c p).hdr = p.hdr ∧ (Part.configPassed c
p).memCtr = p.memCtr ∧ (Part.configPassed c p).written = p.written := by
  unfold Part.configPassed; and_intros <;> (repeat' split) <;> simp

@[simp] theorem Part.configRead_frame (block : Bytes) (p : Part) : (Part.configRead block p).trunkFramer = p.trunkFramer
∧ (Part.configRead block p).labelFramer = p.labelFramer ∧ (Part.configRead block p).guestFramer = p.guestFramer ∧
(Part.configRead block p).call = p.call ∧ (Part.configRead block p).till = p.till ∧ (Part.configRead block p).jrn =
p.jrn ∧ (Part.configRead block p).gst = p.gst ∧ (Part.configRead block p).hdr = p.hdr ∧ (Part.configRead block p).memCtr
= p.memCtr ∧ (Part.configRead block p).written = p.written := by
  unfold Part.configRead; and_intros <;> (repeat' split) <;> simp

@[simp] theorem Part.loopEnd_frame (passed : Bool) (p : Part) : (Part.loopEnd passed p).cfg = p.cfg ∧ (Part.loopEnd
passed p).trunkFramer = p.trunkFramer ∧ (Part.loopEnd passed p).labelFramer = p.labelFramer ∧ (Part.loopEnd passed
p).guestFramer = p.guestFramer ∧ (Part.loopEnd passed p).call = p.call ∧ (Part.loopEnd passed p).till = p.till ∧
(Part.loopEnd passed p).jrn = p.jrn ∧ (Part.loopEnd passed p).gst = p.gst ∧ (Part.loopEnd passed p).hdr = p.hdr ∧
(Part.loopEnd passed p).memCtr = p.memCtr ∧ (Part.loopEnd passed p).written = p.written := by
  unfold Part.loopEnd; and_intros <;> (repeat' split) <;> simp

@[simp] theorem Part.loopResult_frame (front : List Bool) (frame : List Bool) (p : Part) : (Part.loopResult front frame
p).cfg = p.cfg ∧ (Part.loopResult front frame p).trunkFramer = p.trunkFramer ∧ (Part.loopResult front frame
p).labelFramer = p.labelFramer ∧ (Part.loopResult front frame p).guestFramer = p.guestFramer ∧ (Part.loopResult front
frame p).call = p.call ∧ (Part.loopResult front frame p).till = p.till ∧ (Part.loopResult front frame p).jrn = p.jrn ∧
(Part.loopResult front frame p).gst = p.gst ∧ (Part.loopResult front frame p).hdr = p.hdr ∧ (Part.loopResult front frame
p).memCtr = p.memCtr ∧ (Part.loopResult front frame p).written = p.written := by
  unfold Part.loopResult; and_intros <;> (repeat' split) <;> simp

@[simp] theorem Part.headerReadBurst_frame (p : Part) : (Part.headerReadBurst p).cfg = p.cfg ∧ (Part.headerReadBurst
p).branch = p.branch ∧ (Part.headerReadBurst p).trunkFramer = p.trunkFramer ∧ (Part.headerReadBurst p).labelFramer =
p.labelFramer ∧ (Part.headerReadBurst p).guestFramer = p.guestFramer ∧ (Part.headerReadBurst p).links = p.links ∧
(Part.headerReadBurst p).fwd = p.fwd ∧ (Part.headerReadBurst p).call = p.call ∧ (Part.headerReadBurst p).pres = p.pres ∧
(Part.headerReadBurst p).price = p.price ∧ (Part.headerReadBurst p).till = p.till ∧ (Part.headerReadBurst p).jrn = p.jrn
∧ (Part.headerReadBurst p).lab = p.lab ∧ (Part.headerReadBurst p).gst = p.gst ∧ (Part.headerReadBurst p).trk = p.trk ∧
(Part.headerReadBurst p).memCtr = p.memCtr ∧ (Part.headerReadBurst p).asks = p.asks ∧ (Part.headerReadBurst p).dram =
p.dram ∧ (Part.headerReadBurst p).written = p.written := by
  unfold Part.headerReadBurst; and_intros <;> (repeat' split) <;> simp

@[simp] theorem Part.warmStaging_frame (h : HeaderCopy) (p : Part) : (Part.warmStaging h p).cfg = p.cfg ∧
(Part.warmStaging h p).branch = p.branch ∧ (Part.warmStaging h p).trunkFramer = p.trunkFramer ∧ (Part.warmStaging h
p).labelFramer = p.labelFramer ∧ (Part.warmStaging h p).guestFramer = p.guestFramer ∧ (Part.warmStaging h p).links =
p.links ∧ (Part.warmStaging h p).fwd = p.fwd ∧ (Part.warmStaging h p).call = p.call ∧ (Part.warmStaging h p).pres =
p.pres ∧ (Part.warmStaging h p).till = p.till ∧ (Part.warmStaging h p).jrn = p.jrn ∧ (Part.warmStaging h p).lab = p.lab
∧ (Part.warmStaging h p).gst = p.gst ∧ (Part.warmStaging h p).trk = p.trk ∧ (Part.warmStaging h p).memCtr = p.memCtr ∧
(Part.warmStaging h p).written = p.written := by
  unfold Part.warmStaging; refine ⟨?_,?_,?_,?_,?_,?_,?_,?_,?_,?_,?_,?_,?_,?_,?_,?_⟩ <;> ((try dsimp only); (repeat' split) <;> (try simp_all [Prod.ext_iff]) <;> (try (obtain ⟨_, rfl⟩ := ‹_ ∧ _ = (_ : Part)›)) <;> (try simp_all [Prod.ext_iff]) <;> (repeat' split) <;> (try (obtain ⟨_, rfl⟩ := ‹_ ∧ _ = (_ : Part)›)) <;> (try simp_all [Prod.ext_iff]) <;> (repeat' split) <;> (try simp_all))

@[simp] theorem Part.warmStart_frame (h : HeaderCopy) (p : Part) : (Part.warmStart h p).cfg = p.cfg ∧ (Part.warmStart h
p).trunkFramer = p.trunkFramer ∧ (Part.warmStart h p).labelFramer = p.labelFramer ∧ (Part.warmStart h p).guestFramer =
p.guestFramer ∧ (Part.warmStart h p).call = p.call ∧ (Part.warmStart h p).till = p.till ∧ (Part.warmStart h p).gst =
p.gst ∧ (Part.warmStart h p).memCtr = p.memCtr ∧ (Part.warmStart h p).written = p.written := by
  unfold Part.warmStart; and_intros <;> (repeat' split) <;> simp

@[simp] theorem Part.coldStart_frame (p : Part) : (Part.coldStart p).cfg = p.cfg ∧ (Part.coldStart p).branch = p.branch
∧ (Part.coldStart p).trunkFramer = p.trunkFramer ∧ (Part.coldStart p).labelFramer = p.labelFramer ∧ (Part.coldStart
p).guestFramer = p.guestFramer ∧ (Part.coldStart p).links = p.links ∧ (Part.coldStart p).fwd = p.fwd ∧ (Part.coldStart
p).call = p.call ∧ (Part.coldStart p).price = p.price ∧ (Part.coldStart p).till = p.till ∧ (Part.coldStart p).jrn =
p.jrn ∧ (Part.coldStart p).gst = p.gst ∧ (Part.coldStart p).trk = p.trk ∧ (Part.coldStart p).memCtr = p.memCtr ∧
(Part.coldStart p).written = p.written := by
  unfold Part.coldStart; refine ⟨?_,?_,?_,?_,?_,?_,?_,?_,?_,?_,?_,?_,?_,?_,?_⟩ <;> ((try dsimp only); (repeat' split) <;> (try simp_all [Prod.ext_iff]) <;> (try (obtain ⟨_, rfl⟩ := ‹_ ∧ _ = (_ : Part)›)) <;> (try simp_all [Prod.ext_iff]) <;> (repeat' split) <;> (try (obtain ⟨_, rfl⟩ := ‹_ ∧ _ = (_ : Part)›)) <;> (try simp_all [Prod.ext_iff]) <;> (repeat' split) <;> (try simp_all))

@[simp] theorem Part.headerRead_frame (p : Part) : (Part.headerRead p).cfg = p.cfg ∧ (Part.headerRead p).trunkFramer =
p.trunkFramer ∧ (Part.headerRead p).labelFramer = p.labelFramer ∧ (Part.headerRead p).guestFramer = p.guestFramer ∧
(Part.headerRead p).call = p.call ∧ (Part.headerRead p).till = p.till ∧ (Part.headerRead p).gst = p.gst ∧
(Part.headerRead p).memCtr = p.memCtr ∧ (Part.headerRead p).written = p.written := by
  unfold Part.headerRead; and_intros <;> (repeat' split) <;> simp

@[simp] theorem Part.bankSwitched_frame (p : Part) : (Part.bankSwitched p).cfg = p.cfg ∧ (Part.bankSwitched
p).trunkFramer = p.trunkFramer ∧ (Part.bankSwitched p).labelFramer = p.labelFramer ∧ (Part.bankSwitched p).guestFramer =
p.guestFramer ∧ (Part.bankSwitched p).till = p.till ∧ (Part.bankSwitched p).jrn = p.jrn ∧ (Part.bankSwitched p).gst =
p.gst ∧ (Part.bankSwitched p).memCtr = p.memCtr ∧ (Part.bankSwitched p).written = p.written := by
  unfold Part.bankSwitched; and_intros <;> (repeat' split) <;> simp

@[simp] theorem Part.pricingHeaderNotice_frame (p : Part) : (Part.pricingHeaderNotice p).cfg = p.cfg ∧
(Part.pricingHeaderNotice p).trunkFramer = p.trunkFramer ∧ (Part.pricingHeaderNotice p).labelFramer = p.labelFramer ∧
(Part.pricingHeaderNotice p).guestFramer = p.guestFramer ∧ (Part.pricingHeaderNotice p).till = p.till ∧
(Part.pricingHeaderNotice p).gst = p.gst ∧ (Part.pricingHeaderNotice p).memCtr = p.memCtr ∧ (Part.pricingHeaderNotice
p).written = p.written := by
  unfold Part.pricingHeaderNotice; and_intros <;> (repeat' split) <;> simp

@[simp] theorem Part.journalHeaderNotice_frame (carried : Nat) (p : Part) : (Part.journalHeaderNotice carried p).cfg =
p.cfg ∧ (Part.journalHeaderNotice carried p).branch = p.branch ∧ (Part.journalHeaderNotice carried p).trunkFramer =
p.trunkFramer ∧ (Part.journalHeaderNotice carried p).labelFramer = p.labelFramer ∧ (Part.journalHeaderNotice carried
p).guestFramer = p.guestFramer ∧ (Part.journalHeaderNotice carried p).links = p.links ∧ (Part.journalHeaderNotice
carried p).fwd = p.fwd ∧ (Part.journalHeaderNotice carried p).call = p.call ∧ (Part.journalHeaderNotice carried p).pres
= p.pres ∧ (Part.journalHeaderNotice carried p).price = p.price ∧ (Part.journalHeaderNotice carried p).till = p.till ∧
(Part.journalHeaderNotice carried p).lab = p.lab ∧ (Part.journalHeaderNotice carried p).gst = p.gst ∧
(Part.journalHeaderNotice carried p).trk = p.trk ∧ (Part.journalHeaderNotice carried p).memCtr = p.memCtr ∧
(Part.journalHeaderNotice carried p).dram = p.dram ∧ (Part.journalHeaderNotice carried p).written = p.written := by
  unfold Part.journalHeaderNotice; and_intros <;> (repeat' split) <;> simp

@[simp] theorem Part.startHeaderNotice_frame (p : Part) : (Part.startHeaderNotice p).cfg = p.cfg ∧
(Part.startHeaderNotice p).trunkFramer = p.trunkFramer ∧ (Part.startHeaderNotice p).labelFramer = p.labelFramer ∧
(Part.startHeaderNotice p).guestFramer = p.guestFramer ∧ (Part.startHeaderNotice p).call = p.call ∧
(Part.startHeaderNotice p).till = p.till ∧ (Part.startHeaderNotice p).jrn = p.jrn ∧ (Part.startHeaderNotice p).gst =
p.gst ∧ (Part.startHeaderNotice p).hdr = p.hdr ∧ (Part.startHeaderNotice p).memCtr = p.memCtr ∧ (Part.startHeaderNotice
p).written = p.written := by
  unfold Part.startHeaderNotice; and_intros <;> (repeat' split) <;> simp

@[simp] theorem Part.headerNotice_frame (h : HeaderCopy) (u : HeaderUser) (p : Part) : (Part.headerNotice h u p).cfg =
p.cfg ∧ (Part.headerNotice h u p).trunkFramer = p.trunkFramer ∧ (Part.headerNotice h u p).labelFramer = p.labelFramer ∧
(Part.headerNotice h u p).guestFramer = p.guestFramer ∧ (Part.headerNotice h u p).till = p.till ∧ (Part.headerNotice h u
p).gst = p.gst ∧ (Part.headerNotice h u p).memCtr = p.memCtr ∧ (Part.headerNotice h u p).written = p.written := by
  unfold Part.headerNotice; and_intros <;> (repeat' split) <;> simp

@[simp] theorem Part.headerWritten_frame (p : Part) : (Part.headerWritten p).cfg = p.cfg ∧ (Part.headerWritten
p).trunkFramer = p.trunkFramer ∧ (Part.headerWritten p).labelFramer = p.labelFramer ∧ (Part.headerWritten p).guestFramer
= p.guestFramer ∧ (Part.headerWritten p).till = p.till ∧ (Part.headerWritten p).gst = p.gst ∧ (Part.headerWritten
p).memCtr = p.memCtr ∧ (Part.headerWritten p).written = p.written := by
  unfold Part.headerWritten; and_intros <;> (repeat' split) <;> simp

@[simp] theorem Part.scanSlot_frame (p : Part) : (Part.scanSlot p).cfg = p.cfg ∧ (Part.scanSlot p).branch = p.branch ∧
(Part.scanSlot p).trunkFramer = p.trunkFramer ∧ (Part.scanSlot p).labelFramer = p.labelFramer ∧ (Part.scanSlot
p).guestFramer = p.guestFramer ∧ (Part.scanSlot p).links = p.links ∧ (Part.scanSlot p).fwd = p.fwd ∧ (Part.scanSlot
p).call = p.call ∧ (Part.scanSlot p).pres = p.pres ∧ (Part.scanSlot p).price = p.price ∧ (Part.scanSlot p).till = p.till
∧ (Part.scanSlot p).lab = p.lab ∧ (Part.scanSlot p).gst = p.gst ∧ (Part.scanSlot p).trk = p.trk ∧ (Part.scanSlot p).hdr
= p.hdr ∧ (Part.scanSlot p).memCtr = p.memCtr ∧ (Part.scanSlot p).dram = p.dram ∧ (Part.scanSlot p).written = p.written
:= by
  unfold Part.scanSlot; dsimp only; and_intros <;> (repeat' split) <;> simp_all [Prod.ext_iff]

@[simp] theorem Part.powerAbandon_frame (m : SaleMark) (p : Part) : (Part.powerAbandon m p).cfg = p.cfg ∧
(Part.powerAbandon m p).branch = p.branch ∧ (Part.powerAbandon m p).trunkFramer = p.trunkFramer ∧ (Part.powerAbandon m
p).labelFramer = p.labelFramer ∧ (Part.powerAbandon m p).guestFramer = p.guestFramer ∧ (Part.powerAbandon m p).links =
p.links ∧ (Part.powerAbandon m p).fwd = p.fwd ∧ (Part.powerAbandon m p).call = p.call ∧ (Part.powerAbandon m p).pres =
p.pres ∧ (Part.powerAbandon m p).price = p.price ∧ (Part.powerAbandon m p).till = p.till ∧ (Part.powerAbandon m p).lab =
p.lab ∧ (Part.powerAbandon m p).gst = p.gst ∧ (Part.powerAbandon m p).trk = p.trk ∧ (Part.powerAbandon m p).hdr = p.hdr
∧ (Part.powerAbandon m p).memCtr = p.memCtr ∧ (Part.powerAbandon m p).dram = p.dram ∧ (Part.powerAbandon m p).written =
p.written := by
  unfold Part.powerAbandon; refine ⟨?_,?_,?_,?_,?_,?_,?_,?_,?_,?_,?_,?_,?_,?_,?_,?_,?_,?_⟩ <;> ((try dsimp only); (repeat' split) <;> (try simp_all [Prod.ext_iff]) <;> (try (obtain ⟨_, rfl⟩ := ‹_ ∧ _ = (_ : Part)›)) <;> (try simp_all [Prod.ext_iff]) <;> (repeat' split) <;> (try (obtain ⟨_, rfl⟩ := ‹_ ∧ _ = (_ : Part)›)) <;> (try simp_all [Prod.ext_iff]) <;> (repeat' split) <;> (try simp_all))

@[simp] theorem Part.scanStop_frame (p : Part) : (Part.scanStop p).cfg = p.cfg ∧ (Part.scanStop p).branch = p.branch ∧
(Part.scanStop p).trunkFramer = p.trunkFramer ∧ (Part.scanStop p).labelFramer = p.labelFramer ∧ (Part.scanStop
p).guestFramer = p.guestFramer ∧ (Part.scanStop p).links = p.links ∧ (Part.scanStop p).fwd = p.fwd ∧ (Part.scanStop
p).call = p.call ∧ (Part.scanStop p).pres = p.pres ∧ (Part.scanStop p).price = p.price ∧ (Part.scanStop p).till = p.till
∧ (Part.scanStop p).lab = p.lab ∧ (Part.scanStop p).gst = p.gst ∧ (Part.scanStop p).trk = p.trk ∧ (Part.scanStop p).hdr
= p.hdr ∧ (Part.scanStop p).memCtr = p.memCtr ∧ (Part.scanStop p).dram = p.dram ∧ (Part.scanStop p).written = p.written
:= by
  unfold Part.scanStop; and_intros <;> (repeat' split) <;> simp

@[simp] theorem Part.scanComplete_frame (p : Part) : (Part.scanComplete p).cfg = p.cfg ∧ (Part.scanComplete
p).trunkFramer = p.trunkFramer ∧ (Part.scanComplete p).labelFramer = p.labelFramer ∧ (Part.scanComplete p).guestFramer =
p.guestFramer ∧ (Part.scanComplete p).call = p.call ∧ (Part.scanComplete p).till = p.till ∧ (Part.scanComplete p).gst =
p.gst ∧ (Part.scanComplete p).hdr = p.hdr ∧ (Part.scanComplete p).memCtr = p.memCtr ∧ (Part.scanComplete p).written =
p.written := by
  unfold Part.scanComplete; dsimp only; and_intros <;> (repeat' split) <;> simp_all [Prod.ext_iff]

@[simp] theorem Part.enableTx_frame (p : Part) : (Part.enableTx p).cfg = p.cfg ∧ (Part.enableTx p).trunkFramer =
p.trunkFramer ∧ (Part.enableTx p).labelFramer = p.labelFramer ∧ (Part.enableTx p).guestFramer = p.guestFramer ∧
(Part.enableTx p).links = p.links ∧ (Part.enableTx p).fwd = p.fwd ∧ (Part.enableTx p).call = p.call ∧ (Part.enableTx
p).pres = p.pres ∧ (Part.enableTx p).price = p.price ∧ (Part.enableTx p).till = p.till ∧ (Part.enableTx p).jrn = p.jrn ∧
(Part.enableTx p).lab = p.lab ∧ (Part.enableTx p).gst = p.gst ∧ (Part.enableTx p).trk = p.trk ∧ (Part.enableTx p).hdr =
p.hdr ∧ (Part.enableTx p).memCtr = p.memCtr ∧ (Part.enableTx p).dram = p.dram ∧ (Part.enableTx p).written = p.written := by
  unfold Part.enableTx; and_intros <;> (repeat' split) <;> simp

@[simp] theorem Part.listenExpiry_frame (p : Part) : (Part.listenExpiry p).cfg = p.cfg ∧ (Part.listenExpiry
p).trunkFramer = p.trunkFramer ∧ (Part.listenExpiry p).labelFramer = p.labelFramer ∧ (Part.listenExpiry p).guestFramer =
p.guestFramer ∧ (Part.listenExpiry p).call = p.call ∧ (Part.listenExpiry p).till = p.till ∧ (Part.listenExpiry p).jrn =
p.jrn ∧ (Part.listenExpiry p).gst = p.gst ∧ (Part.listenExpiry p).hdr = p.hdr ∧ (Part.listenExpiry p).memCtr = p.memCtr
∧ (Part.listenExpiry p).written = p.written := by
  unfold Part.listenExpiry; and_intros <;> (repeat' split) <;> simp

end Sys2Proof.Machine
end

