-- ==== Sys2Proof/Laws/TillFrames.lean ====
section
/-! SUPPORT. What each operation of the till ports and the journal leaves as it was: one lemma for each, a rewrite rule for every block of the part that
it does not touch. -/

set_option linter.all false

/- Every lemma here is a case split over a long record; the default limit is for short proofs. -/
set_option maxHeartbeats 4000000

open Sys2Proof Sys2Proof.Machine

namespace Sys2Proof.Machine

@[simp] theorem Part.modPort_frame (n : PortNo) (f : Port → Port) (p : Part) : (Part.modPort n f p).cfg = p.cfg ∧
(Part.modPort n f p).branch = p.branch ∧ (Part.modPort n f p).trunkFramer = p.trunkFramer ∧ (Part.modPort n f
p).labelFramer = p.labelFramer ∧ (Part.modPort n f p).guestFramer = p.guestFramer ∧ (Part.modPort n f p).links = p.links
∧ (Part.modPort n f p).fwd = p.fwd ∧ (Part.modPort n f p).call = p.call ∧ (Part.modPort n f p).pres = p.pres ∧
(Part.modPort n f p).price = p.price ∧ (Part.modPort n f p).jrn = p.jrn ∧ (Part.modPort n f p).lab = p.lab ∧
(Part.modPort n f p).gst = p.gst ∧ (Part.modPort n f p).trk = p.trk ∧ (Part.modPort n f p).hdr = p.hdr ∧ (Part.modPort n
f p).memCtr = p.memCtr ∧ (Part.modPort n f p).asks = p.asks ∧ (Part.modPort n f p).dram = p.dram ∧ (Part.modPort n f
p).written = p.written := by
  unfold Part.modPort; and_intros <;> (repeat' split) <;> simp

@[simp] theorem Part.countPort_frame (n : PortNo) (f : PortCounters → PortCounters) (p : Part) : (Part.countPort n f
p).cfg = p.cfg ∧ (Part.countPort n f p).branch = p.branch ∧ (Part.countPort n f p).trunkFramer = p.trunkFramer ∧
(Part.countPort n f p).labelFramer = p.labelFramer ∧ (Part.countPort n f p).guestFramer = p.guestFramer ∧
(Part.countPort n f p).links = p.links ∧ (Part.countPort n f p).fwd = p.fwd ∧ (Part.countPort n f p).call = p.call ∧
(Part.countPort n f p).pres = p.pres ∧ (Part.countPort n f p).price = p.price ∧ (Part.countPort n f p).jrn = p.jrn ∧
(Part.countPort n f p).lab = p.lab ∧ (Part.countPort n f p).gst = p.gst ∧ (Part.countPort n f p).trk = p.trk ∧
(Part.countPort n f p).hdr = p.hdr ∧ (Part.countPort n f p).memCtr = p.memCtr ∧ (Part.countPort n f p).asks = p.asks ∧
(Part.countPort n f p).dram = p.dram ∧ (Part.countPort n f p).written = p.written := by
  unfold Part.countPort; and_intros <;> (repeat' split) <;> simp

@[simp] theorem Part.abandonByEvent_frame (n : PortNo) (s : Sale) (reason : AbandonReason) (p : Part) :
(Part.abandonByEvent n s reason p).cfg = p.cfg ∧ (Part.abandonByEvent n s reason p).branch = p.branch ∧
(Part.abandonByEvent n s reason p).trunkFramer = p.trunkFramer ∧ (Part.abandonByEvent n s reason p).labelFramer =
p.labelFramer ∧ (Part.abandonByEvent n s reason p).guestFramer = p.guestFramer ∧ (Part.abandonByEvent n s reason
p).links = p.links ∧ (Part.abandonByEvent n s reason p).fwd = p.fwd ∧ (Part.abandonByEvent n s reason p).call = p.call ∧
(Part.abandonByEvent n s reason p).pres = p.pres ∧ (Part.abandonByEvent n s reason p).price = p.price ∧
(Part.abandonByEvent n s reason p).lab = p.lab ∧ (Part.abandonByEvent n s reason p).gst = p.gst ∧ (Part.abandonByEvent n
s reason p).trk = p.trk ∧ (Part.abandonByEvent n s reason p).hdr = p.hdr ∧ (Part.abandonByEvent n s reason p).memCtr =
p.memCtr ∧ (Part.abandonByEvent n s reason p).dram = p.dram ∧ (Part.abandonByEvent n s reason p).written = p.written :=
by
  unfold Part.abandonByEvent; refine ⟨?_,?_,?_,?_,?_,?_,?_,?_,?_,?_,?_,?_,?_,?_,?_,?_,?_⟩ <;> ((try dsimp only); (repeat' split) <;> (try simp_all [Prod.ext_iff]) <;> (try (obtain ⟨_, rfl⟩ := ‹_ ∧ _ = (_ : Part)›)) <;> (try simp_all [Prod.ext_iff]) <;> (repeat' split) <;> (try (obtain ⟨_, rfl⟩ := ‹_ ∧ _ = (_ : Part)›)) <;> (try simp_all [Prod.ext_iff]) <;> (repeat' split) <;> (try simp_all))

@[simp] theorem Part.breakNow_frame (n : PortNo) (p : Part) : (Part.breakNow n p).cfg = p.cfg ∧ (Part.breakNow n
p).branch = p.branch ∧ (Part.breakNow n p).trunkFramer = p.trunkFramer ∧ (Part.breakNow n p).labelFramer = p.labelFramer
∧ (Part.breakNow n p).guestFramer = p.guestFramer ∧ (Part.breakNow n p).links = p.links ∧ (Part.breakNow n p).fwd =
p.fwd ∧ (Part.breakNow n p).call = p.call ∧ (Part.breakNow n p).pres = p.pres ∧ (Part.breakNow n p).price = p.price ∧
(Part.breakNow n p).lab = p.lab ∧ (Part.breakNow n p).gst = p.gst ∧ (Part.breakNow n p).trk = p.trk ∧ (Part.breakNow n
p).hdr = p.hdr ∧ (Part.breakNow n p).memCtr = p.memCtr ∧ (Part.breakNow n p).dram = p.dram ∧ (Part.breakNow n p).written
= p.written := by
  unfold Part.breakNow; and_intros <;> (repeat' split) <;> simp

@[simp] theorem Part.lineDownNow_frame (n : PortNo) (p : Part) : (Part.lineDownNow n p).cfg = p.cfg ∧ (Part.lineDownNow
n p).branch = p.branch ∧ (Part.lineDownNow n p).trunkFramer = p.trunkFramer ∧ (Part.lineDownNow n p).labelFramer =
p.labelFramer ∧ (Part.lineDownNow n p).guestFramer = p.guestFramer ∧ (Part.lineDownNow n p).links = p.links ∧
(Part.lineDownNow n p).fwd = p.fwd ∧ (Part.lineDownNow n p).call = p.call ∧ (Part.lineDownNow n p).pres = p.pres ∧
(Part.lineDownNow n p).price = p.price ∧ (Part.lineDownNow n p).jrn = p.jrn ∧ (Part.lineDownNow n p).lab = p.lab ∧
(Part.lineDownNow n p).gst = p.gst ∧ (Part.lineDownNow n p).trk = p.trk ∧ (Part.lineDownNow n p).hdr = p.hdr ∧
(Part.lineDownNow n p).memCtr = p.memCtr ∧ (Part.lineDownNow n p).asks = p.asks ∧ (Part.lineDownNow n p).dram = p.dram ∧
(Part.lineDownNow n p).written = p.written := by
  unfold Part.lineDownNow; and_intros <;> (repeat' split) <;> simp

@[simp] theorem Part.takeLow_frame (n : PortNo) (p : Part) (l : Low) : (Part.takeLow n p l).cfg = p.cfg ∧ (Part.takeLow
n p l).branch = p.branch ∧ (Part.takeLow n p l).trunkFramer = p.trunkFramer ∧ (Part.takeLow n p l).labelFramer =
p.labelFramer ∧ (Part.takeLow n p l).guestFramer = p.guestFramer ∧ (Part.takeLow n p l).links = p.links ∧ (Part.takeLow
n p l).fwd = p.fwd ∧ (Part.takeLow n p l).call = p.call ∧ (Part.takeLow n p l).pres = p.pres ∧ (Part.takeLow n p
l).price = p.price ∧ (Part.takeLow n p l).lab = p.lab ∧ (Part.takeLow n p l).gst = p.gst ∧ (Part.takeLow n p l).trk =
p.trk ∧ (Part.takeLow n p l).hdr = p.hdr ∧ (Part.takeLow n p l).memCtr = p.memCtr ∧ (Part.takeLow n p l).dram = p.dram ∧
(Part.takeLow n p l).written = p.written := by
  unfold Part.takeLow; and_intros <;> (repeat' split) <;> simp

@[simp] theorem Part.takeLows_frame (n : PortNo) (p : Part) : (Part.takeLows n p).cfg = p.cfg ∧ (Part.takeLows n
p).branch = p.branch ∧ (Part.takeLows n p).trunkFramer = p.trunkFramer ∧ (Part.takeLows n p).labelFramer = p.labelFramer
∧ (Part.takeLows n p).guestFramer = p.guestFramer ∧ (Part.takeLows n p).links = p.links ∧ (Part.takeLows n p).fwd =
p.fwd ∧ (Part.takeLows n p).call = p.call ∧ (Part.takeLows n p).pres = p.pres ∧ (Part.takeLows n p).price = p.price ∧
(Part.takeLows n p).lab = p.lab ∧ (Part.takeLows n p).gst = p.gst ∧ (Part.takeLows n p).trk = p.trk ∧ (Part.takeLows n
p).hdr = p.hdr ∧ (Part.takeLows n p).memCtr = p.memCtr ∧ (Part.takeLows n p).dram = p.dram ∧ (Part.takeLows n p).written
= p.written := by
  unfold Part.takeLows
  exact ⟨Eq.trans (foldl_keep Part.cfg _ (fun q x => by (try dsimp only); (repeat' split) <;> (try simp_all)) _ _) (by simp),
    Eq.trans (foldl_keep Part.branch _ (fun q x => by (try dsimp only); (repeat' split) <;> (try simp_all)) _ _) (by simp),
    Eq.trans (foldl_keep Part.trunkFramer _ (fun q x => by (try dsimp only); (repeat' split) <;> (try simp_all)) _ _) (by simp),
    Eq.trans (foldl_keep Part.labelFramer _ (fun q x => by (try dsimp only); (repeat' split) <;> (try simp_all)) _ _) (by simp),
    Eq.trans (foldl_keep Part.guestFramer _ (fun q x => by (try dsimp only); (repeat' split) <;> (try simp_all)) _ _) (by simp),
    Eq.trans (foldl_keep Part.links _ (fun q x => by (try dsimp only); (repeat' split) <;> (try simp_all)) _ _) (by simp),
    Eq.trans (foldl_keep Part.fwd _ (fun q x => by (try dsimp only); (repeat' split) <;> (try simp_all)) _ _) (by simp),
    Eq.trans (foldl_keep Part.call _ (fun q x => by (try dsimp only); (repeat' split) <;> (try simp_all)) _ _) (by simp),
    Eq.trans (foldl_keep Part.pres _ (fun q x => by (try dsimp only); (repeat' split) <;> (try simp_all)) _ _) (by simp),
    Eq.trans (foldl_keep Part.price _ (fun q x => by (try dsimp only); (repeat' split) <;> (try simp_all)) _ _) (by simp),
    Eq.trans (foldl_keep Part.lab _ (fun q x => by (try dsimp only); (repeat' split) <;> (try simp_all)) _ _) (by simp),
    Eq.trans (foldl_keep Part.gst _ (fun q x => by (try dsimp only); (repeat' split) <;> (try simp_all)) _ _) (by simp),
    Eq.trans (foldl_keep Part.trk _ (fun q x => by (try dsimp only); (repeat' split) <;> (try simp_all)) _ _) (by simp),
    Eq.trans (foldl_keep Part.hdr _ (fun q x => by (try dsimp only); (repeat' split) <;> (try simp_all)) _ _) (by simp),
    Eq.trans (foldl_keep Part.memCtr _ (fun q x => by (try dsimp only); (repeat' split) <;> (try simp_all)) _ _) (by simp),
    Eq.trans (foldl_keep Part.dram _ (fun q x => by (try dsimp only); (repeat' split) <;> (try simp_all)) _ _) (by simp),
    Eq.trans (foldl_keep Part.written _ (fun q x => by (try dsimp only); (repeat' split) <;> (try simp_all)) _ _) (by simp)⟩

@[simp] theorem Part.reply_frame (n : PortNo) (r : Result) (hold : Bool) (noTally : Bool) (body : Bytes) (p : Part) :
(Part.reply n r hold noTally body p).cfg = p.cfg ∧ (Part.reply n r hold noTally body p).branch = p.branch ∧ (Part.reply
n r hold noTally body p).trunkFramer = p.trunkFramer ∧ (Part.reply n r hold noTally body p).labelFramer = p.labelFramer
∧ (Part.reply n r hold noTally body p).guestFramer = p.guestFramer ∧ (Part.reply n r hold noTally body p).links =
p.links ∧ (Part.reply n r hold noTally body p).fwd = p.fwd ∧ (Part.reply n r hold noTally body p).call = p.call ∧
(Part.reply n r hold noTally body p).pres = p.pres ∧ (Part.reply n r hold noTally body p).price = p.price ∧ (Part.reply
n r hold noTally body p).lab = p.lab ∧ (Part.reply n r hold noTally body p).gst = p.gst ∧ (Part.reply n r hold noTally
body p).trk = p.trk ∧ (Part.reply n r hold noTally body p).hdr = p.hdr ∧ (Part.reply n r hold noTally body p).memCtr =
p.memCtr ∧ (Part.reply n r hold noTally body p).dram = p.dram ∧ (Part.reply n r hold noTally body p).written = p.written
:= by
  unfold Part.reply; refine ⟨?_,?_,?_,?_,?_,?_,?_,?_,?_,?_,?_,?_,?_,?_,?_,?_,?_⟩ <;> ((try dsimp only); (repeat' split) <;> (try simp_all [Prod.ext_iff]) <;> (try (obtain ⟨_, rfl⟩ := ‹_ ∧ _ = (_ : Part)›)) <;> (try simp_all [Prod.ext_iff]) <;> (repeat' split) <;> (try (obtain ⟨_, rfl⟩ := ‹_ ∧ _ = (_ : Part)›)) <;> (try simp_all [Prod.ext_iff]) <;> (repeat' split) <;> (try simp_all))

@[simp] theorem Part.refuse_frame (n : PortNo) (r : Result) (p : Part) : (Part.refuse n r p).cfg = p.cfg ∧ (Part.refuse
n r p).branch = p.branch ∧ (Part.refuse n r p).trunkFramer = p.trunkFramer ∧ (Part.refuse n r p).labelFramer =
p.labelFramer ∧ (Part.refuse n r p).guestFramer = p.guestFramer ∧ (Part.refuse n r p).links = p.links ∧ (Part.refuse n r
p).fwd = p.fwd ∧ (Part.refuse n r p).call = p.call ∧ (Part.refuse n r p).pres = p.pres ∧ (Part.refuse n r p).price =
p.price ∧ (Part.refuse n r p).lab = p.lab ∧ (Part.refuse n r p).gst = p.gst ∧ (Part.refuse n r p).trk = p.trk ∧
(Part.refuse n r p).hdr = p.hdr ∧ (Part.refuse n r p).memCtr = p.memCtr ∧ (Part.refuse n r p).dram = p.dram ∧
(Part.refuse n r p).written = p.written := by
  unfold Part.refuse; and_intros <;> (repeat' split) <;> simp

@[simp] theorem Part.refuseFull_frame (n : PortNo) (p : Part) : (Part.refuseFull n p).cfg = p.cfg ∧ (Part.refuseFull n
p).branch = p.branch ∧ (Part.refuseFull n p).trunkFramer = p.trunkFramer ∧ (Part.refuseFull n p).labelFramer =
p.labelFramer ∧ (Part.refuseFull n p).guestFramer = p.guestFramer ∧ (Part.refuseFull n p).links = p.links ∧
(Part.refuseFull n p).fwd = p.fwd ∧ (Part.refuseFull n p).call = p.call ∧ (Part.refuseFull n p).pres = p.pres ∧
(Part.refuseFull n p).price = p.price ∧ (Part.refuseFull n p).lab = p.lab ∧ (Part.refuseFull n p).gst = p.gst ∧
(Part.refuseFull n p).trk = p.trk ∧ (Part.refuseFull n p).hdr = p.hdr ∧ (Part.refuseFull n p).memCtr = p.memCtr ∧
(Part.refuseFull n p).dram = p.dram ∧ (Part.refuseFull n p).written = p.written := by
  unfold Part.refuseFull; and_intros <;> (repeat' split) <;> simp

@[simp] theorem Part.appendStands_frame (n : PortNo) (p : Part) : (Part.appendStands n p).cfg = p.cfg ∧
(Part.appendStands n p).branch = p.branch ∧ (Part.appendStands n p).trunkFramer = p.trunkFramer ∧ (Part.appendStands n
p).labelFramer = p.labelFramer ∧ (Part.appendStands n p).guestFramer = p.guestFramer ∧ (Part.appendStands n p).links =
p.links ∧ (Part.appendStands n p).fwd = p.fwd ∧ (Part.appendStands n p).call = p.call ∧ (Part.appendStands n p).pres =
p.pres ∧ (Part.appendStands n p).price = p.price ∧ (Part.appendStands n p).lab = p.lab ∧ (Part.appendStands n p).gst =
p.gst ∧ (Part.appendStands n p).trk = p.trk ∧ (Part.appendStands n p).hdr = p.hdr ∧ (Part.appendStands n p).memCtr =
p.memCtr ∧ (Part.appendStands n p).dram = p.dram ∧ (Part.appendStands n p).written = p.written := by
  unfold Part.appendStands; and_intros <;> (repeat' split) <;> simp

@[simp] theorem Part.appended_frame (n : PortNo) (sale : Option Sale) (o : OnCommit) (body : Bytes) (hold : Bool)
(noTally : Bool) (p : Part) : (Part.appended n sale o body hold noTally p).cfg = p.cfg ∧ (Part.appended n sale o body
hold noTally p).branch = p.branch ∧ (Part.appended n sale o body hold noTally p).trunkFramer = p.trunkFramer ∧
(Part.appended n sale o body hold noTally p).labelFramer = p.labelFramer ∧ (Part.appended n sale o body hold noTally
p).guestFramer = p.guestFramer ∧ (Part.appended n sale o body hold noTally p).links = p.links ∧ (Part.appended n sale o
body hold noTally p).fwd = p.fwd ∧ (Part.appended n sale o body hold noTally p).call = p.call ∧ (Part.appended n sale o
body hold noTally p).pres = p.pres ∧ (Part.appended n sale o body hold noTally p).price = p.price ∧ (Part.appended n
sale o body hold noTally p).jrn = p.jrn ∧ (Part.appended n sale o body hold noTally p).lab = p.lab ∧ (Part.appended n
sale o body hold noTally p).gst = p.gst ∧ (Part.appended n sale o body hold noTally p).trk = p.trk ∧ (Part.appended n
sale o body hold noTally p).hdr = p.hdr ∧ (Part.appended n sale o body hold noTally p).memCtr = p.memCtr ∧
(Part.appended n sale o body hold noTally p).asks = p.asks ∧ (Part.appended n sale o body hold noTally p).dram = p.dram
∧ (Part.appended n sale o body hold noTally p).written = p.written := by
  unfold Part.appended; and_intros <;> (repeat' split) <;> simp

@[simp] theorem Part.refuseBusy_frame (n : PortNo) (seq : Byte) (kind : Byte) (p : Part) : (Part.refuseBusy n seq kind
p).cfg = p.cfg ∧ (Part.refuseBusy n seq kind p).branch = p.branch ∧ (Part.refuseBusy n seq kind p).trunkFramer =
p.trunkFramer ∧ (Part.refuseBusy n seq kind p).labelFramer = p.labelFramer ∧ (Part.refuseBusy n seq kind p).guestFramer
= p.guestFramer ∧ (Part.refuseBusy n seq kind p).links = p.links ∧ (Part.refuseBusy n seq kind p).fwd = p.fwd ∧
(Part.refuseBusy n seq kind p).call = p.call ∧ (Part.refuseBusy n seq kind p).pres = p.pres ∧ (Part.refuseBusy n seq
kind p).price = p.price ∧ (Part.refuseBusy n seq kind p).jrn = p.jrn ∧ (Part.refuseBusy n seq kind p).lab = p.lab ∧
(Part.refuseBusy n seq kind p).gst = p.gst ∧ (Part.refuseBusy n seq kind p).trk = p.trk ∧ (Part.refuseBusy n seq kind
p).hdr = p.hdr ∧ (Part.refuseBusy n seq kind p).memCtr = p.memCtr ∧ (Part.refuseBusy n seq kind p).asks = p.asks ∧
(Part.refuseBusy n seq kind p).dram = p.dram ∧ (Part.refuseBusy n seq kind p).written = p.written := by
  unfold Part.refuseBusy; and_intros <;> (repeat' split) <;> simp

@[simp] theorem Part.answerRepeat_frame (n : PortNo) (l : StoredReply) (p : Part) : (Part.answerRepeat n l p).cfg =
p.cfg ∧ (Part.answerRepeat n l p).branch = p.branch ∧ (Part.answerRepeat n l p).trunkFramer = p.trunkFramer ∧
(Part.answerRepeat n l p).labelFramer = p.labelFramer ∧ (Part.answerRepeat n l p).guestFramer = p.guestFramer ∧
(Part.answerRepeat n l p).links = p.links ∧ (Part.answerRepeat n l p).fwd = p.fwd ∧ (Part.answerRepeat n l p).call =
p.call ∧ (Part.answerRepeat n l p).pres = p.pres ∧ (Part.answerRepeat n l p).price = p.price ∧ (Part.answerRepeat n l
p).jrn = p.jrn ∧ (Part.answerRepeat n l p).lab = p.lab ∧ (Part.answerRepeat n l p).gst = p.gst ∧ (Part.answerRepeat n l
p).trk = p.trk ∧ (Part.answerRepeat n l p).hdr = p.hdr ∧ (Part.answerRepeat n l p).memCtr = p.memCtr ∧
(Part.answerRepeat n l p).asks = p.asks ∧ (Part.answerRepeat n l p).dram = p.dram ∧ (Part.answerRepeat n l p).written =
p.written := by
  unfold Part.answerRepeat; and_intros <;> (repeat' split) <;> simp

@[simp] theorem Part.newRequest_frame (n : PortNo) (seq : Byte) (kind : Byte) (body : Bytes) (p : Part) :
(Part.newRequest n seq kind body p).cfg = p.cfg ∧ (Part.newRequest n seq kind body p).branch = p.branch ∧
(Part.newRequest n seq kind body p).trunkFramer = p.trunkFramer ∧ (Part.newRequest n seq kind body p).labelFramer =
p.labelFramer ∧ (Part.newRequest n seq kind body p).guestFramer = p.guestFramer ∧ (Part.newRequest n seq kind body
p).links = p.links ∧ (Part.newRequest n seq kind body p).fwd = p.fwd ∧ (Part.newRequest n seq kind body p).call = p.call
∧ (Part.newRequest n seq kind body p).pres = p.pres ∧ (Part.newRequest n seq kind body p).price = p.price ∧
(Part.newRequest n seq kind body p).lab = p.lab ∧ (Part.newRequest n seq kind body p).gst = p.gst ∧ (Part.newRequest n
seq kind body p).trk = p.trk ∧ (Part.newRequest n seq kind body p).hdr = p.hdr ∧ (Part.newRequest n seq kind body
p).memCtr = p.memCtr ∧ (Part.newRequest n seq kind body p).dram = p.dram ∧ (Part.newRequest n seq kind body p).written =
p.written := by
  unfold Part.newRequest; and_intros <;> (repeat' split) <;> simp

@[simp] theorem Part.takeRequest_frame (n : PortNo) (seq : Byte) (kind : Byte) (body : Bytes) (p : Part) :
(Part.takeRequest n seq kind body p).cfg = p.cfg ∧ (Part.takeRequest n seq kind body p).branch = p.branch ∧
(Part.takeRequest n seq kind body p).trunkFramer = p.trunkFramer ∧ (Part.takeRequest n seq kind body p).labelFramer =
p.labelFramer ∧ (Part.takeRequest n seq kind body p).guestFramer = p.guestFramer ∧ (Part.takeRequest n seq kind body
p).links = p.links ∧ (Part.takeRequest n seq kind body p).fwd = p.fwd ∧ (Part.takeRequest n seq kind body p).call =
p.call ∧ (Part.takeRequest n seq kind body p).pres = p.pres ∧ (Part.takeRequest n seq kind body p).price = p.price ∧
(Part.takeRequest n seq kind body p).lab = p.lab ∧ (Part.takeRequest n seq kind body p).gst = p.gst ∧ (Part.takeRequest
n seq kind body p).trk = p.trk ∧ (Part.takeRequest n seq kind body p).hdr = p.hdr ∧ (Part.takeRequest n seq kind body
p).memCtr = p.memCtr ∧ (Part.takeRequest n seq kind body p).dram = p.dram ∧ (Part.takeRequest n seq kind body p).written
= p.written := by
  unfold Part.takeRequest; dsimp only; and_intros <;> (repeat' split) <;> simp_all [Prod.ext_iff]

@[simp] theorem Part.goodFrame_frame (n : PortNo) (bs : Bytes) (p : Part) : (Part.goodFrame n bs p).cfg = p.cfg ∧
(Part.goodFrame n bs p).branch = p.branch ∧ (Part.goodFrame n bs p).trunkFramer = p.trunkFramer ∧ (Part.goodFrame n bs
p).labelFramer = p.labelFramer ∧ (Part.goodFrame n bs p).guestFramer = p.guestFramer ∧ (Part.goodFrame n bs p).links =
p.links ∧ (Part.goodFrame n bs p).fwd = p.fwd ∧ (Part.goodFrame n bs p).call = p.call ∧ (Part.goodFrame n bs p).pres =
p.pres ∧ (Part.goodFrame n bs p).price = p.price ∧ (Part.goodFrame n bs p).lab = p.lab ∧ (Part.goodFrame n bs p).gst =
p.gst ∧ (Part.goodFrame n bs p).trk = p.trk ∧ (Part.goodFrame n bs p).hdr = p.hdr ∧ (Part.goodFrame n bs p).memCtr =
p.memCtr ∧ (Part.goodFrame n bs p).dram = p.dram ∧ (Part.goodFrame n bs p).written = p.written := by
  unfold Part.goodFrame; dsimp only; and_intros <;> (repeat' split) <;> simp_all [Prod.ext_iff]

@[simp] theorem Part.closedFrame_frame (n : PortNo) (bs : Bytes) (p : Part) : (Part.closedFrame n bs p).cfg = p.cfg ∧
(Part.closedFrame n bs p).branch = p.branch ∧ (Part.closedFrame n bs p).trunkFramer = p.trunkFramer ∧ (Part.closedFrame
n bs p).labelFramer = p.labelFramer ∧ (Part.closedFrame n bs p).guestFramer = p.guestFramer ∧ (Part.closedFrame n bs
p).links = p.links ∧ (Part.closedFrame n bs p).fwd = p.fwd ∧ (Part.closedFrame n bs p).call = p.call ∧ (Part.closedFrame
n bs p).pres = p.pres ∧ (Part.closedFrame n bs p).price = p.price ∧ (Part.closedFrame n bs p).lab = p.lab ∧
(Part.closedFrame n bs p).gst = p.gst ∧ (Part.closedFrame n bs p).trk = p.trk ∧ (Part.closedFrame n bs p).hdr = p.hdr ∧
(Part.closedFrame n bs p).memCtr = p.memCtr ∧ (Part.closedFrame n bs p).dram = p.dram ∧ (Part.closedFrame n bs
p).written = p.written := by
  unfold Part.closedFrame; and_intros <;> (repeat' split) <;> simp

@[simp] theorem Part.tillFrame_frame (n : PortNo) (chars : Bytes) (p : Part) : (Part.tillFrame n chars p).cfg = p.cfg ∧
(Part.tillFrame n chars p).branch = p.branch ∧ (Part.tillFrame n chars p).trunkFramer = p.trunkFramer ∧ (Part.tillFrame
n chars p).labelFramer = p.labelFramer ∧ (Part.tillFrame n chars p).guestFramer = p.guestFramer ∧ (Part.tillFrame n
chars p).links = p.links ∧ (Part.tillFrame n chars p).fwd = p.fwd ∧ (Part.tillFrame n chars p).call = p.call ∧
(Part.tillFrame n chars p).pres = p.pres ∧ (Part.tillFrame n chars p).price = p.price ∧ (Part.tillFrame n chars p).lab =
p.lab ∧ (Part.tillFrame n chars p).gst = p.gst ∧ (Part.tillFrame n chars p).trk = p.trk ∧ (Part.tillFrame n chars p).hdr
= p.hdr ∧ (Part.tillFrame n chars p).memCtr = p.memCtr ∧ (Part.tillFrame n chars p).dram = p.dram ∧ (Part.tillFrame n
chars p).written = p.written := by
  unfold Part.tillFrame; dsimp only; and_intros <;> (repeat' split) <;> simp_all [Prod.ext_iff]

@[simp] theorem Part.tillLong_frame (n : PortNo) (p : Part) : (Part.tillLong n p).cfg = p.cfg ∧ (Part.tillLong n
p).branch = p.branch ∧ (Part.tillLong n p).trunkFramer = p.trunkFramer ∧ (Part.tillLong n p).labelFramer = p.labelFramer
∧ (Part.tillLong n p).guestFramer = p.guestFramer ∧ (Part.tillLong n p).links = p.links ∧ (Part.tillLong n p).fwd =
p.fwd ∧ (Part.tillLong n p).call = p.call ∧ (Part.tillLong n p).pres = p.pres ∧ (Part.tillLong n p).price = p.price ∧
(Part.tillLong n p).jrn = p.jrn ∧ (Part.tillLong n p).lab = p.lab ∧ (Part.tillLong n p).gst = p.gst ∧ (Part.tillLong n
p).trk = p.trk ∧ (Part.tillLong n p).hdr = p.hdr ∧ (Part.tillLong n p).memCtr = p.memCtr ∧ (Part.tillLong n p).asks =
p.asks ∧ (Part.tillLong n p).dram = p.dram ∧ (Part.tillLong n p).written = p.written := by
  unfold Part.tillLong; and_intros <;> (repeat' split) <;> simp

@[simp] theorem Part.tillBadEscape_frame (n : PortNo) (stx : Bool) (p : Part) : (Part.tillBadEscape n stx p).cfg = p.cfg
∧ (Part.tillBadEscape n stx p).branch = p.branch ∧ (Part.tillBadEscape n stx p).trunkFramer = p.trunkFramer ∧
(Part.tillBadEscape n stx p).labelFramer = p.labelFramer ∧ (Part.tillBadEscape n stx p).guestFramer = p.guestFramer ∧
(Part.tillBadEscape n stx p).links = p.links ∧ (Part.tillBadEscape n stx p).fwd = p.fwd ∧ (Part.tillBadEscape n stx
p).call = p.call ∧ (Part.tillBadEscape n stx p).pres = p.pres ∧ (Part.tillBadEscape n stx p).price = p.price ∧
(Part.tillBadEscape n stx p).jrn = p.jrn ∧ (Part.tillBadEscape n stx p).lab = p.lab ∧ (Part.tillBadEscape n stx p).gst =
p.gst ∧ (Part.tillBadEscape n stx p).trk = p.trk ∧ (Part.tillBadEscape n stx p).hdr = p.hdr ∧ (Part.tillBadEscape n stx
p).memCtr = p.memCtr ∧ (Part.tillBadEscape n stx p).asks = p.asks ∧ (Part.tillBadEscape n stx p).dram = p.dram ∧
(Part.tillBadEscape n stx p).written = p.written := by
  unfold Part.tillBadEscape; and_intros <;> (repeat' split) <;> simp

@[simp] theorem Part.tillFramingError_frame (n : PortNo) (p : Part) : (Part.tillFramingError n p).cfg = p.cfg ∧
(Part.tillFramingError n p).branch = p.branch ∧ (Part.tillFramingError n p).trunkFramer = p.trunkFramer ∧
(Part.tillFramingError n p).labelFramer = p.labelFramer ∧ (Part.tillFramingError n p).guestFramer = p.guestFramer ∧
(Part.tillFramingError n p).links = p.links ∧ (Part.tillFramingError n p).fwd = p.fwd ∧ (Part.tillFramingError n p).call
= p.call ∧ (Part.tillFramingError n p).pres = p.pres ∧ (Part.tillFramingError n p).price = p.price ∧
(Part.tillFramingError n p).jrn = p.jrn ∧ (Part.tillFramingError n p).lab = p.lab ∧ (Part.tillFramingError n p).gst =
p.gst ∧ (Part.tillFramingError n p).trk = p.trk ∧ (Part.tillFramingError n p).hdr = p.hdr ∧ (Part.tillFramingError n
p).memCtr = p.memCtr ∧ (Part.tillFramingError n p).asks = p.asks ∧ (Part.tillFramingError n p).dram = p.dram ∧
(Part.tillFramingError n p).written = p.written := by
  unfold Part.tillFramingError; and_intros <;> (repeat' split) <;> simp

@[simp] theorem Part.longLow_frame (n : PortNo) (l : Low) (p : Part) : (Part.longLow n l p).cfg = p.cfg ∧ (Part.longLow
n l p).branch = p.branch ∧ (Part.longLow n l p).trunkFramer = p.trunkFramer ∧ (Part.longLow n l p).labelFramer =
p.labelFramer ∧ (Part.longLow n l p).guestFramer = p.guestFramer ∧ (Part.longLow n l p).links = p.links ∧ (Part.longLow
n l p).fwd = p.fwd ∧ (Part.longLow n l p).call = p.call ∧ (Part.longLow n l p).pres = p.pres ∧ (Part.longLow n l
p).price = p.price ∧ (Part.longLow n l p).lab = p.lab ∧ (Part.longLow n l p).gst = p.gst ∧ (Part.longLow n l p).trk =
p.trk ∧ (Part.longLow n l p).hdr = p.hdr ∧ (Part.longLow n l p).memCtr = p.memCtr ∧ (Part.longLow n l p).dram = p.dram ∧
(Part.longLow n l p).written = p.written := by
  unfold Part.longLow; dsimp only; and_intros <;> (repeat' split) <;> simp_all [Prod.ext_iff]

@[simp] theorem Part.tillHigh_frame (n : PortNo) (p : Part) : (Part.tillHigh n p).cfg = p.cfg ∧ (Part.tillHigh n
p).branch = p.branch ∧ (Part.tillHigh n p).trunkFramer = p.trunkFramer ∧ (Part.tillHigh n p).labelFramer = p.labelFramer
∧ (Part.tillHigh n p).guestFramer = p.guestFramer ∧ (Part.tillHigh n p).links = p.links ∧ (Part.tillHigh n p).fwd =
p.fwd ∧ (Part.tillHigh n p).call = p.call ∧ (Part.tillHigh n p).pres = p.pres ∧ (Part.tillHigh n p).price = p.price ∧
(Part.tillHigh n p).jrn = p.jrn ∧ (Part.tillHigh n p).lab = p.lab ∧ (Part.tillHigh n p).gst = p.gst ∧ (Part.tillHigh n
p).trk = p.trk ∧ (Part.tillHigh n p).hdr = p.hdr ∧ (Part.tillHigh n p).memCtr = p.memCtr ∧ (Part.tillHigh n p).asks =
p.asks ∧ (Part.tillHigh n p).dram = p.dram ∧ (Part.tillHigh n p).written = p.written := by
  unfold Part.tillHigh; and_intros <;> (repeat' split) <;> simp

@[simp] theorem Part.silenceExpiry_frame (n : PortNo) (p : Part) : (Part.silenceExpiry n p).cfg = p.cfg ∧
(Part.silenceExpiry n p).branch = p.branch ∧ (Part.silenceExpiry n p).trunkFramer = p.trunkFramer ∧ (Part.silenceExpiry
n p).labelFramer = p.labelFramer ∧ (Part.silenceExpiry n p).guestFramer = p.guestFramer ∧ (Part.silenceExpiry n p).links
= p.links ∧ (Part.silenceExpiry n p).fwd = p.fwd ∧ (Part.silenceExpiry n p).call = p.call ∧ (Part.silenceExpiry n
p).pres = p.pres ∧ (Part.silenceExpiry n p).price = p.price ∧ (Part.silenceExpiry n p).jrn = p.jrn ∧ (Part.silenceExpiry
n p).lab = p.lab ∧ (Part.silenceExpiry n p).gst = p.gst ∧ (Part.silenceExpiry n p).trk = p.trk ∧ (Part.silenceExpiry n
p).hdr = p.hdr ∧ (Part.silenceExpiry n p).memCtr = p.memCtr ∧ (Part.silenceExpiry n p).asks = p.asks ∧
(Part.silenceExpiry n p).dram = p.dram ∧ (Part.silenceExpiry n p).written = p.written := by
  unfold Part.silenceExpiry; and_intros <;> (repeat' split) <;> simp

@[simp] theorem Part.graceExpiry_frame (n : PortNo) (p : Part) : (Part.graceExpiry n p).cfg = p.cfg ∧ (Part.graceExpiry
n p).branch = p.branch ∧ (Part.graceExpiry n p).trunkFramer = p.trunkFramer ∧ (Part.graceExpiry n p).labelFramer =
p.labelFramer ∧ (Part.graceExpiry n p).guestFramer = p.guestFramer ∧ (Part.graceExpiry n p).links = p.links ∧
(Part.graceExpiry n p).fwd = p.fwd ∧ (Part.graceExpiry n p).call = p.call ∧ (Part.graceExpiry n p).pres = p.pres ∧
(Part.graceExpiry n p).price = p.price ∧ (Part.graceExpiry n p).lab = p.lab ∧ (Part.graceExpiry n p).gst = p.gst ∧
(Part.graceExpiry n p).trk = p.trk ∧ (Part.graceExpiry n p).hdr = p.hdr ∧ (Part.graceExpiry n p).memCtr = p.memCtr ∧
(Part.graceExpiry n p).dram = p.dram ∧ (Part.graceExpiry n p).written = p.written := by
  unfold Part.graceExpiry; refine ⟨?_,?_,?_,?_,?_,?_,?_,?_,?_,?_,?_,?_,?_,?_,?_,?_,?_⟩ <;> ((try dsimp only); (repeat' split) <;> (try simp_all [Prod.ext_iff]) <;> (try (obtain ⟨_, rfl⟩ := ‹_ ∧ _ = (_ : Part)›)) <;> (try simp_all [Prod.ext_iff]) <;> (repeat' split) <;> (try (obtain ⟨_, rfl⟩ := ‹_ ∧ _ = (_ : Part)›)) <;> (try simp_all [Prod.ext_iff]) <;> (repeat' split) <;> (try simp_all))

@[simp] theorem Part.replySent_frame (n : PortNo) (p : Part) : (Part.replySent n p).cfg = p.cfg ∧ (Part.replySent n
p).branch = p.branch ∧ (Part.replySent n p).trunkFramer = p.trunkFramer ∧ (Part.replySent n p).labelFramer =
p.labelFramer ∧ (Part.replySent n p).guestFramer = p.guestFramer ∧ (Part.replySent n p).links = p.links ∧
(Part.replySent n p).fwd = p.fwd ∧ (Part.replySent n p).call = p.call ∧ (Part.replySent n p).pres = p.pres ∧
(Part.replySent n p).price = p.price ∧ (Part.replySent n p).jrn = p.jrn ∧ (Part.replySent n p).lab = p.lab ∧
(Part.replySent n p).gst = p.gst ∧ (Part.replySent n p).trk = p.trk ∧ (Part.replySent n p).hdr = p.hdr ∧ (Part.replySent
n p).memCtr = p.memCtr ∧ (Part.replySent n p).asks = p.asks ∧ (Part.replySent n p).dram = p.dram ∧ (Part.replySent n
p).written = p.written := by
  unfold Part.replySent; dsimp only; and_intros <;> (repeat' split) <;> simp_all [Prod.ext_iff]

@[simp] theorem Part.lookFor_frame (n : PortNo) (x : Search) (p : Part) : (Part.lookFor n x p).cfg = p.cfg ∧
(Part.lookFor n x p).branch = p.branch ∧ (Part.lookFor n x p).trunkFramer = p.trunkFramer ∧ (Part.lookFor n x
p).labelFramer = p.labelFramer ∧ (Part.lookFor n x p).guestFramer = p.guestFramer ∧ (Part.lookFor n x p).links = p.links
∧ (Part.lookFor n x p).fwd = p.fwd ∧ (Part.lookFor n x p).call = p.call ∧ (Part.lookFor n x p).pres = p.pres ∧
(Part.lookFor n x p).price = p.price ∧ (Part.lookFor n x p).jrn = p.jrn ∧ (Part.lookFor n x p).lab = p.lab ∧
(Part.lookFor n x p).gst = p.gst ∧ (Part.lookFor n x p).trk = p.trk ∧ (Part.lookFor n x p).hdr = p.hdr ∧ (Part.lookFor n
x p).memCtr = p.memCtr ∧ (Part.lookFor n x p).dram = p.dram ∧ (Part.lookFor n x p).written = p.written := by
  unfold Part.lookFor; refine ⟨?_,?_,?_,?_,?_,?_,?_,?_,?_,?_,?_,?_,?_,?_,?_,?_,?_,?_⟩ <;> ((try dsimp only); (repeat' split) <;> (try simp_all [Prod.ext_iff]) <;> (try (obtain ⟨_, rfl⟩ := ‹_ ∧ _ = (_ : Part)›)) <;> (try simp_all [Prod.ext_iff]) <;> (repeat' split) <;> (try (obtain ⟨_, rfl⟩ := ‹_ ∧ _ = (_ : Part)›)) <;> (try simp_all [Prod.ext_iff]) <;> (repeat' split) <;> (try simp_all))

@[simp] theorem Part.sellLine_frame (n : PortNo) (s : Sale) (code : Nat) (qty : Nat) (e : BankEntry) (charged : Nat) (a
: Nat) (p : Part) : (Part.sellLine n s code qty e charged a p).cfg = p.cfg ∧ (Part.sellLine n s code qty e charged a
p).branch = p.branch ∧ (Part.sellLine n s code qty e charged a p).trunkFramer = p.trunkFramer ∧ (Part.sellLine n s code
qty e charged a p).labelFramer = p.labelFramer ∧ (Part.sellLine n s code qty e charged a p).guestFramer = p.guestFramer
∧ (Part.sellLine n s code qty e charged a p).links = p.links ∧ (Part.sellLine n s code qty e charged a p).fwd = p.fwd ∧
(Part.sellLine n s code qty e charged a p).call = p.call ∧ (Part.sellLine n s code qty e charged a p).pres = p.pres ∧
(Part.sellLine n s code qty e charged a p).price = p.price ∧ (Part.sellLine n s code qty e charged a p).lab = p.lab ∧
(Part.sellLine n s code qty e charged a p).gst = p.gst ∧ (Part.sellLine n s code qty e charged a p).trk = p.trk ∧
(Part.sellLine n s code qty e charged a p).hdr = p.hdr ∧ (Part.sellLine n s code qty e charged a p).memCtr = p.memCtr ∧
(Part.sellLine n s code qty e charged a p).dram = p.dram ∧ (Part.sellLine n s code qty e charged a p).written =
p.written := by
  unfold Part.sellLine; refine ⟨?_,?_,?_,?_,?_,?_,?_,?_,?_,?_,?_,?_,?_,?_,?_,?_,?_⟩ <;> ((try dsimp only); (repeat' split) <;> (try simp_all [Prod.ext_iff]) <;> (try (obtain ⟨_, rfl⟩ := ‹_ ∧ _ = (_ : Part)›)) <;> (try simp_all [Prod.ext_iff]) <;> (repeat' split) <;> (try (obtain ⟨_, rfl⟩ := ‹_ ∧ _ = (_ : Part)›)) <;> (try simp_all [Prod.ext_iff]) <;> (repeat' split) <;> (try simp_all))

@[simp] theorem Part.priced_frame (n : PortNo) (r : TillRequest) (e : BankEntry) (p : Part) : (Part.priced n r e p).cfg
= p.cfg ∧ (Part.priced n r e p).branch = p.branch ∧ (Part.priced n r e p).trunkFramer = p.trunkFramer ∧ (Part.priced n r
e p).labelFramer = p.labelFramer ∧ (Part.priced n r e p).guestFramer = p.guestFramer ∧ (Part.priced n r e p).links =
p.links ∧ (Part.priced n r e p).fwd = p.fwd ∧ (Part.priced n r e p).call = p.call ∧ (Part.priced n r e p).pres = p.pres
∧ (Part.priced n r e p).price = p.price ∧ (Part.priced n r e p).lab = p.lab ∧ (Part.priced n r e p).gst = p.gst ∧
(Part.priced n r e p).trk = p.trk ∧ (Part.priced n r e p).hdr = p.hdr ∧ (Part.priced n r e p).memCtr = p.memCtr ∧
(Part.priced n r e p).dram = p.dram ∧ (Part.priced n r e p).written = p.written := by
  unfold Part.priced; refine ⟨?_,?_,?_,?_,?_,?_,?_,?_,?_,?_,?_,?_,?_,?_,?_,?_,?_⟩ <;> ((try dsimp only); (repeat' split) <;> (try simp_all [Prod.ext_iff]) <;> (try (obtain ⟨_, rfl⟩ := ‹_ ∧ _ = (_ : Part)›)) <;> (try simp_all [Prod.ext_iff]) <;> (repeat' split) <;> (try (obtain ⟨_, rfl⟩ := ‹_ ∧ _ = (_ : Part)›)) <;> (try simp_all [Prod.ext_iff]) <;> (repeat' split) <;> (try simp_all))

@[simp] theorem Part.lookedUp_frame (n : PortNo) (f : Found) (p : Part) : (Part.lookedUp n f p).cfg = p.cfg ∧
(Part.lookedUp n f p).branch = p.branch ∧ (Part.lookedUp n f p).trunkFramer = p.trunkFramer ∧ (Part.lookedUp n f
p).labelFramer = p.labelFramer ∧ (Part.lookedUp n f p).guestFramer = p.guestFramer ∧ (Part.lookedUp n f p).links =
p.links ∧ (Part.lookedUp n f p).fwd = p.fwd ∧ (Part.lookedUp n f p).call = p.call ∧ (Part.lookedUp n f p).pres = p.pres
∧ (Part.lookedUp n f p).lab = p.lab ∧ (Part.lookedUp n f p).gst = p.gst ∧ (Part.lookedUp n f p).trk = p.trk ∧
(Part.lookedUp n f p).hdr = p.hdr ∧ (Part.lookedUp n f p).memCtr = p.memCtr ∧ (Part.lookedUp n f p).dram = p.dram ∧
(Part.lookedUp n f p).written = p.written := by
  unfold Part.lookedUp; refine ⟨?_,?_,?_,?_,?_,?_,?_,?_,?_,?_,?_,?_,?_,?_,?_,?_⟩ <;> ((try dsimp only); (repeat' split) <;> (try simp_all [Prod.ext_iff]) <;> (try (obtain ⟨_, rfl⟩ := ‹_ ∧ _ = (_ : Part)›)) <;> (try simp_all [Prod.ext_iff]) <;> (repeat' split) <;> (try (obtain ⟨_, rfl⟩ := ‹_ ∧ _ = (_ : Part)›)) <;> (try simp_all [Prod.ext_iff]) <;> (repeat' split) <;> (try simp_all))

@[simp] theorem Part.lookUp_frame (n : PortNo) (code : Nat) (p : Part) : (Part.lookUp n code p).cfg = p.cfg ∧
(Part.lookUp n code p).branch = p.branch ∧ (Part.lookUp n code p).trunkFramer = p.trunkFramer ∧ (Part.lookUp n code
p).labelFramer = p.labelFramer ∧ (Part.lookUp n code p).guestFramer = p.guestFramer ∧ (Part.lookUp n code p).links =
p.links ∧ (Part.lookUp n code p).fwd = p.fwd ∧ (Part.lookUp n code p).call = p.call ∧ (Part.lookUp n code p).pres =
p.pres ∧ (Part.lookUp n code p).lab = p.lab ∧ (Part.lookUp n code p).gst = p.gst ∧ (Part.lookUp n code p).trk = p.trk ∧
(Part.lookUp n code p).hdr = p.hdr ∧ (Part.lookUp n code p).memCtr = p.memCtr ∧ (Part.lookUp n code p).dram = p.dram ∧
(Part.lookUp n code p).written = p.written := by
  unfold Part.lookUp; refine ⟨?_,?_,?_,?_,?_,?_,?_,?_,?_,?_,?_,?_,?_,?_,?_,?_⟩ <;> ((try dsimp only); (repeat' split) <;> (try simp_all [Prod.ext_iff]) <;> (try (obtain ⟨_, rfl⟩ := ‹_ ∧ _ = (_ : Part)›)) <;> (try simp_all [Prod.ext_iff]) <;> (repeat' split) <;> (try (obtain ⟨_, rfl⟩ := ‹_ ∧ _ = (_ : Part)›)) <;> (try simp_all [Prod.ext_iff]) <;> (repeat' split) <;> (try simp_all))

@[simp] theorem Part.lookupBurst_frame (n : PortNo) (p : Part) : (Part.lookupBurst n p).cfg = p.cfg ∧ (Part.lookupBurst
n p).branch = p.branch ∧ (Part.lookupBurst n p).trunkFramer = p.trunkFramer ∧ (Part.lookupBurst n p).labelFramer =
p.labelFramer ∧ (Part.lookupBurst n p).guestFramer = p.guestFramer ∧ (Part.lookupBurst n p).links = p.links ∧
(Part.lookupBurst n p).fwd = p.fwd ∧ (Part.lookupBurst n p).call = p.call ∧ (Part.lookupBurst n p).pres = p.pres ∧
(Part.lookupBurst n p).lab = p.lab ∧ (Part.lookupBurst n p).gst = p.gst ∧ (Part.lookupBurst n p).trk = p.trk ∧
(Part.lookupBurst n p).hdr = p.hdr ∧ (Part.lookupBurst n p).memCtr = p.memCtr ∧ (Part.lookupBurst n p).dram = p.dram ∧
(Part.lookupBurst n p).written = p.written := by
  unfold Part.lookupBurst; refine ⟨?_,?_,?_,?_,?_,?_,?_,?_,?_,?_,?_,?_,?_,?_,?_,?_⟩ <;> ((try dsimp only); (repeat' split) <;> (try simp_all [Prod.ext_iff]) <;> (try (obtain ⟨_, rfl⟩ := ‹_ ∧ _ = (_ : Part)›)) <;> (try simp_all [Prod.ext_iff]) <;> (repeat' split) <;> (try (obtain ⟨_, rfl⟩ := ‹_ ∧ _ = (_ : Part)›)) <;> (try simp_all [Prod.ext_iff]) <;> (repeat' split) <;> (try simp_all))

@[simp] theorem Part.tillLookup_frame (n : PortNo) (p : Part) : (Part.tillLookup n p).cfg = p.cfg ∧ (Part.tillLookup n
p).branch = p.branch ∧ (Part.tillLookup n p).trunkFramer = p.trunkFramer ∧ (Part.tillLookup n p).labelFramer =
p.labelFramer ∧ (Part.tillLookup n p).guestFramer = p.guestFramer ∧ (Part.tillLookup n p).links = p.links ∧
(Part.tillLookup n p).fwd = p.fwd ∧ (Part.tillLookup n p).call = p.call ∧ (Part.tillLookup n p).pres = p.pres ∧
(Part.tillLookup n p).lab = p.lab ∧ (Part.tillLookup n p).gst = p.gst ∧ (Part.tillLookup n p).trk = p.trk ∧
(Part.tillLookup n p).hdr = p.hdr ∧ (Part.tillLookup n p).memCtr = p.memCtr ∧ (Part.tillLookup n p).dram = p.dram ∧
(Part.tillLookup n p).written = p.written := by
  unfold Part.tillLookup Part.executeRequest; refine ⟨?_,?_,?_,?_,?_,?_,?_,?_,?_,?_,?_,?_,?_,?_,?_,?_⟩ <;> ((try dsimp only); (repeat' split) <;> (try simp_all [Prod.ext_iff]) <;> (try (obtain ⟨_, rfl⟩ := ‹_ ∧ _ = (_ : Part)›)) <;> (try simp_all [Prod.ext_iff]) <;> (repeat' split) <;> (try (obtain ⟨_, rfl⟩ := ‹_ ∧ _ = (_ : Part)›)) <;> (try simp_all [Prod.ext_iff]) <;> (repeat' split) <;> (try simp_all))

@[simp] theorem Part.tillLine_frame (n : PortNo) (p : Part) : (Part.tillLine n p).cfg = p.cfg ∧ (Part.tillLine n
p).branch = p.branch ∧ (Part.tillLine n p).trunkFramer = p.trunkFramer ∧ (Part.tillLine n p).labelFramer = p.labelFramer
∧ (Part.tillLine n p).guestFramer = p.guestFramer ∧ (Part.tillLine n p).links = p.links ∧ (Part.tillLine n p).fwd =
p.fwd ∧ (Part.tillLine n p).call = p.call ∧ (Part.tillLine n p).pres = p.pres ∧ (Part.tillLine n p).lab = p.lab ∧
(Part.tillLine n p).gst = p.gst ∧ (Part.tillLine n p).trk = p.trk ∧ (Part.tillLine n p).hdr = p.hdr ∧ (Part.tillLine n
p).memCtr = p.memCtr ∧ (Part.tillLine n p).dram = p.dram ∧ (Part.tillLine n p).written = p.written := by
  unfold Part.tillLine Part.executeInSale Part.executeRequest; refine ⟨?_,?_,?_,?_,?_,?_,?_,?_,?_,?_,?_,?_,?_,?_,?_,?_⟩ <;> ((try dsimp only); (repeat' split) <;> (try simp_all [Prod.ext_iff]) <;> (try (obtain ⟨_, rfl⟩ := ‹_ ∧ _ = (_ : Part)›)) <;> (try simp_all [Prod.ext_iff]) <;> (repeat' split) <;> (try (obtain ⟨_, rfl⟩ := ‹_ ∧ _ = (_ : Part)›)) <;> (try simp_all [Prod.ext_iff]) <;> (repeat' split) <;> (try simp_all))

@[simp] theorem Part.voidSaleLine_frame (n : PortNo) (s : Sale) (number : Nat) (l : SaleLine) (p : Part) :
(Part.voidSaleLine n s number l p).cfg = p.cfg ∧ (Part.voidSaleLine n s number l p).branch = p.branch ∧
(Part.voidSaleLine n s number l p).trunkFramer = p.trunkFramer ∧ (Part.voidSaleLine n s number l p).labelFramer =
p.labelFramer ∧ (Part.voidSaleLine n s number l p).guestFramer = p.guestFramer ∧ (Part.voidSaleLine n s number l
p).links = p.links ∧ (Part.voidSaleLine n s number l p).fwd = p.fwd ∧ (Part.voidSaleLine n s number l p).call = p.call ∧
(Part.voidSaleLine n s number l p).pres = p.pres ∧ (Part.voidSaleLine n s number l p).price = p.price ∧
(Part.voidSaleLine n s number l p).lab = p.lab ∧ (Part.voidSaleLine n s number l p).gst = p.gst ∧ (Part.voidSaleLine n s
number l p).trk = p.trk ∧ (Part.voidSaleLine n s number l p).hdr = p.hdr ∧ (Part.voidSaleLine n s number l p).memCtr =
p.memCtr ∧ (Part.voidSaleLine n s number l p).dram = p.dram ∧ (Part.voidSaleLine n s number l p).written = p.written :=
by
  unfold Part.voidSaleLine; refine ⟨?_,?_,?_,?_,?_,?_,?_,?_,?_,?_,?_,?_,?_,?_,?_,?_,?_⟩ <;> ((try dsimp only); (repeat' split) <;> (try simp_all [Prod.ext_iff]) <;> (try (obtain ⟨_, rfl⟩ := ‹_ ∧ _ = (_ : Part)›)) <;> (try simp_all [Prod.ext_iff]) <;> (repeat' split) <;> (try (obtain ⟨_, rfl⟩ := ‹_ ∧ _ = (_ : Part)›)) <;> (try simp_all [Prod.ext_iff]) <;> (repeat' split) <;> (try simp_all))

@[simp] theorem Part.tillVoid_frame (n : PortNo) (p : Part) : (Part.tillVoid n p).cfg = p.cfg ∧ (Part.tillVoid n
p).branch = p.branch ∧ (Part.tillVoid n p).trunkFramer = p.trunkFramer ∧ (Part.tillVoid n p).labelFramer = p.labelFramer
∧ (Part.tillVoid n p).guestFramer = p.guestFramer ∧ (Part.tillVoid n p).links = p.links ∧ (Part.tillVoid n p).fwd =
p.fwd ∧ (Part.tillVoid n p).call = p.call ∧ (Part.tillVoid n p).pres = p.pres ∧ (Part.tillVoid n p).price = p.price ∧
(Part.tillVoid n p).lab = p.lab ∧ (Part.tillVoid n p).gst = p.gst ∧ (Part.tillVoid n p).trk = p.trk ∧ (Part.tillVoid n
p).hdr = p.hdr ∧ (Part.tillVoid n p).memCtr = p.memCtr ∧ (Part.tillVoid n p).dram = p.dram ∧ (Part.tillVoid n p).written
= p.written := by
  unfold Part.tillVoid Part.executeInSale Part.executeRequest; refine ⟨?_,?_,?_,?_,?_,?_,?_,?_,?_,?_,?_,?_,?_,?_,?_,?_,?_⟩ <;> ((try dsimp only); (repeat' split) <;> (try simp_all [Prod.ext_iff]) <;> (try (obtain ⟨_, rfl⟩ := ‹_ ∧ _ = (_ : Part)›)) <;> (try simp_all [Prod.ext_iff]) <;> (repeat' split) <;> (try (obtain ⟨_, rfl⟩ := ‹_ ∧ _ = (_ : Part)›)) <;> (try simp_all [Prod.ext_iff]) <;> (repeat' split) <;> (try simp_all))

@[simp] theorem Part.tillOpen_frame (n : PortNo) (p : Part) : (Part.tillOpen n p).cfg = p.cfg ∧ (Part.tillOpen n
p).branch = p.branch ∧ (Part.tillOpen n p).trunkFramer = p.trunkFramer ∧ (Part.tillOpen n p).labelFramer = p.labelFramer
∧ (Part.tillOpen n p).guestFramer = p.guestFramer ∧ (Part.tillOpen n p).links = p.links ∧ (Part.tillOpen n p).fwd =
p.fwd ∧ (Part.tillOpen n p).call = p.call ∧ (Part.tillOpen n p).pres = p.pres ∧ (Part.tillOpen n p).price = p.price ∧
(Part.tillOpen n p).lab = p.lab ∧ (Part.tillOpen n p).gst = p.gst ∧ (Part.tillOpen n p).trk = p.trk ∧ (Part.tillOpen n
p).hdr = p.hdr ∧ (Part.tillOpen n p).memCtr = p.memCtr ∧ (Part.tillOpen n p).dram = p.dram ∧ (Part.tillOpen n p).written
= p.written := by
  unfold Part.tillOpen Part.executeRequest; refine ⟨?_,?_,?_,?_,?_,?_,?_,?_,?_,?_,?_,?_,?_,?_,?_,?_,?_⟩ <;> ((try dsimp only); (repeat' split) <;> (try simp_all [Prod.ext_iff]) <;> (try (obtain ⟨_, rfl⟩ := ‹_ ∧ _ = (_ : Part)›)) <;> (try simp_all [Prod.ext_iff]) <;> (repeat' split) <;> (try (obtain ⟨_, rfl⟩ := ‹_ ∧ _ = (_ : Part)›)) <;> (try simp_all [Prod.ext_iff]) <;> (repeat' split) <;> (try simp_all))

@[simp] theorem Part.tillTender_frame (n : PortNo) (p : Part) : (Part.tillTender n p).cfg = p.cfg ∧ (Part.tillTender n
p).branch = p.branch ∧ (Part.tillTender n p).trunkFramer = p.trunkFramer ∧ (Part.tillTender n p).labelFramer =
p.labelFramer ∧ (Part.tillTender n p).guestFramer = p.guestFramer ∧ (Part.tillTender n p).links = p.links ∧
(Part.tillTender n p).fwd = p.fwd ∧ (Part.tillTender n p).call = p.call ∧ (Part.tillTender n p).pres = p.pres ∧
(Part.tillTender n p).price = p.price ∧ (Part.tillTender n p).lab = p.lab ∧ (Part.tillTender n p).gst = p.gst ∧
(Part.tillTender n p).trk = p.trk ∧ (Part.tillTender n p).hdr = p.hdr ∧ (Part.tillTender n p).memCtr = p.memCtr ∧
(Part.tillTender n p).dram = p.dram ∧ (Part.tillTender n p).written = p.written := by
  unfold Part.tillTender Part.executeInSale Part.executeRequest; refine ⟨?_,?_,?_,?_,?_,?_,?_,?_,?_,?_,?_,?_,?_,?_,?_,?_,?_⟩ <;> ((try dsimp only); (repeat' split) <;> (try simp_all [Prod.ext_iff]) <;> (try (obtain ⟨_, rfl⟩ := ‹_ ∧ _ = (_ : Part)›)) <;> (try simp_all [Prod.ext_iff]) <;> (repeat' split) <;> (try (obtain ⟨_, rfl⟩ := ‹_ ∧ _ = (_ : Part)›)) <;> (try simp_all [Prod.ext_iff]) <;> (repeat' split) <;> (try simp_all))

@[simp] theorem Part.tillClose_frame (n : PortNo) (p : Part) : (Part.tillClose n p).cfg = p.cfg ∧ (Part.tillClose n
p).branch = p.branch ∧ (Part.tillClose n p).trunkFramer = p.trunkFramer ∧ (Part.tillClose n p).labelFramer =
p.labelFramer ∧ (Part.tillClose n p).guestFramer = p.guestFramer ∧ (Part.tillClose n p).links = p.links ∧
(Part.tillClose n p).fwd = p.fwd ∧ (Part.tillClose n p).call = p.call ∧ (Part.tillClose n p).pres = p.pres ∧
(Part.tillClose n p).price = p.price ∧ (Part.tillClose n p).lab = p.lab ∧ (Part.tillClose n p).gst = p.gst ∧
(Part.tillClose n p).trk = p.trk ∧ (Part.tillClose n p).hdr = p.hdr ∧ (Part.tillClose n p).memCtr = p.memCtr ∧
(Part.tillClose n p).dram = p.dram ∧ (Part.tillClose n p).written = p.written := by
  unfold Part.tillClose Part.executeInSale Part.executeRequest; refine ⟨?_,?_,?_,?_,?_,?_,?_,?_,?_,?_,?_,?_,?_,?_,?_,?_,?_⟩ <;> ((try dsimp only); (repeat' split) <;> (try simp_all [Prod.ext_iff]) <;> (try (obtain ⟨_, rfl⟩ := ‹_ ∧ _ = (_ : Part)›)) <;> (try simp_all [Prod.ext_iff]) <;> (repeat' split) <;> (try (obtain ⟨_, rfl⟩ := ‹_ ∧ _ = (_ : Part)›)) <;> (try simp_all [Prod.ext_iff]) <;> (repeat' split) <;> (try simp_all))

@[simp] theorem Part.tillAbandon_frame (n : PortNo) (p : Part) : (Part.tillAbandon n p).cfg = p.cfg ∧ (Part.tillAbandon
n p).branch = p.branch ∧ (Part.tillAbandon n p).trunkFramer = p.trunkFramer ∧ (Part.tillAbandon n p).labelFramer =
p.labelFramer ∧ (Part.tillAbandon n p).guestFramer = p.guestFramer ∧ (Part.tillAbandon n p).links = p.links ∧
(Part.tillAbandon n p).fwd = p.fwd ∧ (Part.tillAbandon n p).call = p.call ∧ (Part.tillAbandon n p).pres = p.pres ∧
(Part.tillAbandon n p).price = p.price ∧ (Part.tillAbandon n p).lab = p.lab ∧ (Part.tillAbandon n p).gst = p.gst ∧
(Part.tillAbandon n p).trk = p.trk ∧ (Part.tillAbandon n p).hdr = p.hdr ∧ (Part.tillAbandon n p).memCtr = p.memCtr ∧
(Part.tillAbandon n p).dram = p.dram ∧ (Part.tillAbandon n p).written = p.written := by
  unfold Part.tillAbandon Part.executeInSale Part.executeRequest; refine ⟨?_,?_,?_,?_,?_,?_,?_,?_,?_,?_,?_,?_,?_,?_,?_,?_,?_⟩ <;> ((try dsimp only); (repeat' split) <;> (try simp_all [Prod.ext_iff]) <;> (try (obtain ⟨_, rfl⟩ := ‹_ ∧ _ = (_ : Part)›)) <;> (try simp_all [Prod.ext_iff]) <;> (repeat' split) <;> (try (obtain ⟨_, rfl⟩ := ‹_ ∧ _ = (_ : Part)›)) <;> (try simp_all [Prod.ext_iff]) <;> (repeat' split) <;> (try simp_all))

@[simp] theorem Part.tillStatus_frame (n : PortNo) (p : Part) : (Part.tillStatus n p).cfg = p.cfg ∧ (Part.tillStatus n
p).branch = p.branch ∧ (Part.tillStatus n p).trunkFramer = p.trunkFramer ∧ (Part.tillStatus n p).labelFramer =
p.labelFramer ∧ (Part.tillStatus n p).guestFramer = p.guestFramer ∧ (Part.tillStatus n p).links = p.links ∧
(Part.tillStatus n p).fwd = p.fwd ∧ (Part.tillStatus n p).call = p.call ∧ (Part.tillStatus n p).pres = p.pres ∧
(Part.tillStatus n p).price = p.price ∧ (Part.tillStatus n p).lab = p.lab ∧ (Part.tillStatus n p).gst = p.gst ∧
(Part.tillStatus n p).trk = p.trk ∧ (Part.tillStatus n p).hdr = p.hdr ∧ (Part.tillStatus n p).memCtr = p.memCtr ∧
(Part.tillStatus n p).dram = p.dram ∧ (Part.tillStatus n p).written = p.written := by
  unfold Part.tillStatus Part.executeRequest; refine ⟨?_,?_,?_,?_,?_,?_,?_,?_,?_,?_,?_,?_,?_,?_,?_,?_,?_⟩ <;> ((try dsimp only); (repeat' split) <;> (try simp_all [Prod.ext_iff]) <;> (try (obtain ⟨_, rfl⟩ := ‹_ ∧ _ = (_ : Part)›)) <;> (try simp_all [Prod.ext_iff]) <;> (repeat' split) <;> (try (obtain ⟨_, rfl⟩ := ‹_ ∧ _ = (_ : Part)›)) <;> (try simp_all [Prod.ext_iff]) <;> (repeat' split) <;> (try simp_all))

@[simp] theorem Part.tillBind_frame (n : PortNo) (p : Part) : (Part.tillBind n p).cfg = p.cfg ∧ (Part.tillBind n
p).branch = p.branch ∧ (Part.tillBind n p).trunkFramer = p.trunkFramer ∧ (Part.tillBind n p).labelFramer = p.labelFramer
∧ (Part.tillBind n p).guestFramer = p.guestFramer ∧ (Part.tillBind n p).call = p.call ∧ (Part.tillBind n p).pres =
p.pres ∧ (Part.tillBind n p).gst = p.gst ∧ (Part.tillBind n p).trk = p.trk ∧ (Part.tillBind n p).hdr = p.hdr ∧
(Part.tillBind n p).memCtr = p.memCtr ∧ (Part.tillBind n p).written = p.written := by
  unfold Part.tillBind Part.executeLabel Part.executeRequest; refine ⟨?_,?_,?_,?_,?_,?_,?_,?_,?_,?_,?_,?_⟩ <;> ((try dsimp only); (repeat' split) <;> (try simp_all [Prod.ext_iff]) <;> (try (obtain ⟨_, rfl⟩ := ‹_ ∧ _ = (_ : Part)›)) <;> (try simp_all [Prod.ext_iff]) <;> (repeat' split) <;> (try (obtain ⟨_, rfl⟩ := ‹_ ∧ _ = (_ : Part)›)) <;> (try simp_all [Prod.ext_iff]) <;> (repeat' split) <;> (try simp_all))

@[simp] theorem Part.tillUnbind_frame (n : PortNo) (p : Part) : (Part.tillUnbind n p).cfg = p.cfg ∧ (Part.tillUnbind n
p).branch = p.branch ∧ (Part.tillUnbind n p).trunkFramer = p.trunkFramer ∧ (Part.tillUnbind n p).labelFramer =
p.labelFramer ∧ (Part.tillUnbind n p).guestFramer = p.guestFramer ∧ (Part.tillUnbind n p).links = p.links ∧
(Part.tillUnbind n p).fwd = p.fwd ∧ (Part.tillUnbind n p).call = p.call ∧ (Part.tillUnbind n p).pres = p.pres ∧
(Part.tillUnbind n p).gst = p.gst ∧ (Part.tillUnbind n p).trk = p.trk ∧ (Part.tillUnbind n p).hdr = p.hdr ∧
(Part.tillUnbind n p).memCtr = p.memCtr ∧ (Part.tillUnbind n p).written = p.written := by
  unfold Part.tillUnbind Part.executeLabel Part.executeRequest; refine ⟨?_,?_,?_,?_,?_,?_,?_,?_,?_,?_,?_,?_,?_,?_⟩ <;> ((try dsimp only); (repeat' split) <;> (try simp_all [Prod.ext_iff]) <;> (try (obtain ⟨_, rfl⟩ := ‹_ ∧ _ = (_ : Part)›)) <;> (try simp_all [Prod.ext_iff]) <;> (repeat' split) <;> (try (obtain ⟨_, rfl⟩ := ‹_ ∧ _ = (_ : Part)›)) <;> (try simp_all [Prod.ext_iff]) <;> (repeat' split) <;> (try simp_all))

@[simp] theorem Part.tillQuery_frame (n : PortNo) (p : Part) : (Part.tillQuery n p).cfg = p.cfg ∧ (Part.tillQuery n
p).branch = p.branch ∧ (Part.tillQuery n p).trunkFramer = p.trunkFramer ∧ (Part.tillQuery n p).labelFramer =
p.labelFramer ∧ (Part.tillQuery n p).guestFramer = p.guestFramer ∧ (Part.tillQuery n p).links = p.links ∧
(Part.tillQuery n p).fwd = p.fwd ∧ (Part.tillQuery n p).call = p.call ∧ (Part.tillQuery n p).pres = p.pres ∧
(Part.tillQuery n p).price = p.price ∧ (Part.tillQuery n p).lab = p.lab ∧ (Part.tillQuery n p).gst = p.gst ∧
(Part.tillQuery n p).trk = p.trk ∧ (Part.tillQuery n p).hdr = p.hdr ∧ (Part.tillQuery n p).memCtr = p.memCtr ∧
(Part.tillQuery n p).dram = p.dram ∧ (Part.tillQuery n p).written = p.written := by
  unfold Part.tillQuery Part.executeLabel Part.executeRequest; refine ⟨?_,?_,?_,?_,?_,?_,?_,?_,?_,?_,?_,?_,?_,?_,?_,?_,?_⟩ <;> ((try dsimp only); (repeat' split) <;> (try simp_all [Prod.ext_iff]) <;> (try (obtain ⟨_, rfl⟩ := ‹_ ∧ _ = (_ : Part)›)) <;> (try simp_all [Prod.ext_iff]) <;> (repeat' split) <;> (try (obtain ⟨_, rfl⟩ := ‹_ ∧ _ = (_ : Part)›)) <;> (try simp_all [Prod.ext_iff]) <;> (repeat' split) <;> (try simp_all))

@[simp] theorem Part.tillRetry_frame (n : PortNo) (p : Part) : (Part.tillRetry n p).cfg = p.cfg ∧ (Part.tillRetry n
p).branch = p.branch ∧ (Part.tillRetry n p).trunkFramer = p.trunkFramer ∧ (Part.tillRetry n p).labelFramer =
p.labelFramer ∧ (Part.tillRetry n p).guestFramer = p.guestFramer ∧ (Part.tillRetry n p).call = p.call ∧ (Part.tillRetry
n p).pres = p.pres ∧ (Part.tillRetry n p).gst = p.gst ∧ (Part.tillRetry n p).trk = p.trk ∧ (Part.tillRetry n p).hdr =
p.hdr ∧ (Part.tillRetry n p).memCtr = p.memCtr ∧ (Part.tillRetry n p).written = p.written := by
  unfold Part.tillRetry Part.executeLabel Part.executeRequest; refine ⟨?_,?_,?_,?_,?_,?_,?_,?_,?_,?_,?_,?_⟩ <;> ((try dsimp only); (repeat' split) <;> (try simp_all [Prod.ext_iff]) <;> (try (obtain ⟨_, rfl⟩ := ‹_ ∧ _ = (_ : Part)›)) <;> (try simp_all [Prod.ext_iff]) <;> (repeat' split) <;> (try (obtain ⟨_, rfl⟩ := ‹_ ∧ _ = (_ : Part)›)) <;> (try simp_all [Prod.ext_iff]) <;> (repeat' split) <;> (try simp_all))

@[simp] theorem Part.journalFirst_frame (p : Part) : (Part.journalFirst p).cfg = p.cfg ∧ (Part.journalFirst p).branch =
p.branch ∧ (Part.journalFirst p).trunkFramer = p.trunkFramer ∧ (Part.journalFirst p).labelFramer = p.labelFramer ∧
(Part.journalFirst p).guestFramer = p.guestFramer ∧ (Part.journalFirst p).links = p.links ∧ (Part.journalFirst p).fwd =
p.fwd ∧ (Part.journalFirst p).call = p.call ∧ (Part.journalFirst p).pres = p.pres ∧ (Part.journalFirst p).price =
p.price ∧ (Part.journalFirst p).till = p.till ∧ (Part.journalFirst p).jrn = p.jrn ∧ (Part.journalFirst p).lab = p.lab ∧
(Part.journalFirst p).gst = p.gst ∧ (Part.journalFirst p).trk = p.trk ∧ (Part.journalFirst p).hdr = p.hdr ∧
(Part.journalFirst p).memCtr = p.memCtr := by
  unfold Part.journalFirst; and_intros <;> (repeat' split) <;> simp

@[simp] theorem Part.journalSecond_frame (p : Part) : (Part.journalSecond p).cfg = p.cfg ∧ (Part.journalSecond p).branch
= p.branch ∧ (Part.journalSecond p).trunkFramer = p.trunkFramer ∧ (Part.journalSecond p).labelFramer = p.labelFramer ∧
(Part.journalSecond p).guestFramer = p.guestFramer ∧ (Part.journalSecond p).links = p.links ∧ (Part.journalSecond p).fwd
= p.fwd ∧ (Part.journalSecond p).call = p.call ∧ (Part.journalSecond p).pres = p.pres ∧ (Part.journalSecond p).price =
p.price ∧ (Part.journalSecond p).till = p.till ∧ (Part.journalSecond p).lab = p.lab ∧ (Part.journalSecond p).gst = p.gst
∧ (Part.journalSecond p).trk = p.trk ∧ (Part.journalSecond p).hdr = p.hdr ∧ (Part.journalSecond p).memCtr = p.memCtr := by
  unfold Part.journalSecond; and_intros <;> (repeat' split) <;> simp

@[simp] theorem Part.requesterTold_frame (r : Requester) (p : Part) : (Part.requesterTold r p).cfg = p.cfg ∧
(Part.requesterTold r p).branch = p.branch ∧ (Part.requesterTold r p).trunkFramer = p.trunkFramer ∧ (Part.requesterTold
r p).labelFramer = p.labelFramer ∧ (Part.requesterTold r p).guestFramer = p.guestFramer ∧ (Part.requesterTold r p).links
= p.links ∧ (Part.requesterTold r p).fwd = p.fwd ∧ (Part.requesterTold r p).call = p.call ∧ (Part.requesterTold r
p).pres = p.pres ∧ (Part.requesterTold r p).price = p.price ∧ (Part.requesterTold r p).lab = p.lab ∧ (Part.requesterTold
r p).gst = p.gst ∧ (Part.requesterTold r p).trk = p.trk ∧ (Part.requesterTold r p).hdr = p.hdr ∧ (Part.requesterTold r
p).memCtr = p.memCtr ∧ (Part.requesterTold r p).dram = p.dram ∧ (Part.requesterTold r p).written = p.written := by
  unfold Part.requesterTold; and_intros <;> (repeat' split) <;> simp

@[simp] theorem Part.committed_frame (p : Part) : (Part.committed p).cfg = p.cfg ∧ (Part.committed p).branch = p.branch
∧ (Part.committed p).trunkFramer = p.trunkFramer ∧ (Part.committed p).labelFramer = p.labelFramer ∧ (Part.committed
p).guestFramer = p.guestFramer ∧ (Part.committed p).links = p.links ∧ (Part.committed p).fwd = p.fwd ∧ (Part.committed
p).call = p.call ∧ (Part.committed p).pres = p.pres ∧ (Part.committed p).price = p.price ∧ (Part.committed p).lab =
p.lab ∧ (Part.committed p).gst = p.gst ∧ (Part.committed p).trk = p.trk ∧ (Part.committed p).hdr = p.hdr ∧
(Part.committed p).memCtr = p.memCtr ∧ (Part.committed p).dram = p.dram ∧ (Part.committed p).written = p.written := by
  unfold Part.committed; dsimp only; and_intros <;> (repeat' split) <;> simp_all [Prod.ext_iff]

@[simp] theorem Part.releaseFrame_frame (p : Part) : (Part.releaseFrame p).cfg = p.cfg ∧ (Part.releaseFrame p).branch =
p.branch ∧ (Part.releaseFrame p).trunkFramer = p.trunkFramer ∧ (Part.releaseFrame p).labelFramer = p.labelFramer ∧
(Part.releaseFrame p).guestFramer = p.guestFramer ∧ (Part.releaseFrame p).links = p.links ∧ (Part.releaseFrame p).call =
p.call ∧ (Part.releaseFrame p).pres = p.pres ∧ (Part.releaseFrame p).price = p.price ∧ (Part.releaseFrame p).till =
p.till ∧ (Part.releaseFrame p).lab = p.lab ∧ (Part.releaseFrame p).gst = p.gst ∧ (Part.releaseFrame p).trk = p.trk ∧
(Part.releaseFrame p).memCtr = p.memCtr ∧ (Part.releaseFrame p).dram = p.dram ∧ (Part.releaseFrame p).written =
p.written := by
  unfold Part.releaseFrame; and_intros <;> (repeat' split) <;> simp

end Sys2Proof.Machine
end

