-- ==== Sys2Proof/Laws/CallsFrames.lean ====
section
/-! SUPPORT. What each operation of the call controller leaves as it was: one lemma for each, a rewrite rule for every block of the part that
it does not touch. -/

set_option linter.all false

/- Every lemma here is a case split over a long record; the default limit is for short proofs. -/
set_option maxHeartbeats 4000000

open Sys2Proof Sys2Proof.Machine

namespace Sys2Proof.Machine

@[simp] theorem Part.ownersTake_frame (p : Part) : (Part.ownersTake p).cfg = p.cfg ∧ (Part.ownersTake p).trunkFramer =
p.trunkFramer ∧ (Part.ownersTake p).labelFramer = p.labelFramer ∧ (Part.ownersTake p).guestFramer = p.guestFramer ∧
(Part.ownersTake p).pres = p.pres ∧ (Part.ownersTake p).till = p.till ∧ (Part.ownersTake p).jrn = p.jrn ∧
(Part.ownersTake p).lab = p.lab ∧ (Part.ownersTake p).gst = p.gst ∧ (Part.ownersTake p).hdr = p.hdr ∧ (Part.ownersTake
p).memCtr = p.memCtr ∧ (Part.ownersTake p).written = p.written := by
  unfold Part.ownersTake; dsimp only; and_intros <;> (repeat' split) <;> simp_all [Prod.ext_iff]

@[simp] theorem Part.stray_frame (p : Part) : (Part.stray p).cfg = p.cfg ∧ (Part.stray p).branch = p.branch ∧
(Part.stray p).trunkFramer = p.trunkFramer ∧ (Part.stray p).labelFramer = p.labelFramer ∧ (Part.stray p).guestFramer =
p.guestFramer ∧ (Part.stray p).links = p.links ∧ (Part.stray p).fwd = p.fwd ∧ (Part.stray p).pres = p.pres ∧ (Part.stray
p).price = p.price ∧ (Part.stray p).till = p.till ∧ (Part.stray p).jrn = p.jrn ∧ (Part.stray p).lab = p.lab ∧
(Part.stray p).gst = p.gst ∧ (Part.stray p).trk = p.trk ∧ (Part.stray p).hdr = p.hdr ∧ (Part.stray p).memCtr = p.memCtr
∧ (Part.stray p).asks = p.asks ∧ (Part.stray p).dram = p.dram ∧ (Part.stray p).written = p.written := by
  unfold Part.stray; and_intros <;> (repeat' split) <;> simp

@[simp] theorem Part.servedBroken_frame (p : Part) : (Part.servedBroken p).cfg = p.cfg ∧ (Part.servedBroken p).branch =
p.branch ∧ (Part.servedBroken p).trunkFramer = p.trunkFramer ∧ (Part.servedBroken p).labelFramer = p.labelFramer ∧
(Part.servedBroken p).guestFramer = p.guestFramer ∧ (Part.servedBroken p).links = p.links ∧ (Part.servedBroken p).fwd =
p.fwd ∧ (Part.servedBroken p).pres = p.pres ∧ (Part.servedBroken p).price = p.price ∧ (Part.servedBroken p).till =
p.till ∧ (Part.servedBroken p).jrn = p.jrn ∧ (Part.servedBroken p).lab = p.lab ∧ (Part.servedBroken p).gst = p.gst ∧
(Part.servedBroken p).trk = p.trk ∧ (Part.servedBroken p).hdr = p.hdr ∧ (Part.servedBroken p).memCtr = p.memCtr ∧
(Part.servedBroken p).asks = p.asks ∧ (Part.servedBroken p).dram = p.dram ∧ (Part.servedBroken p).written = p.written := by
  unfold Part.servedBroken; and_intros <;> (repeat' split) <;> simp

@[simp] theorem Part.closeCaller_frame (tag : Byte) (x : CallEnd) (tail : Option Nat) (p : Part) : (Part.closeCaller tag
x tail p).cfg = p.cfg ∧ (Part.closeCaller tag x tail p).trunkFramer = p.trunkFramer ∧ (Part.closeCaller tag x tail
p).labelFramer = p.labelFramer ∧ (Part.closeCaller tag x tail p).guestFramer = p.guestFramer ∧ (Part.closeCaller tag x
tail p).pres = p.pres ∧ (Part.closeCaller tag x tail p).till = p.till ∧ (Part.closeCaller tag x tail p).jrn = p.jrn ∧
(Part.closeCaller tag x tail p).lab = p.lab ∧ (Part.closeCaller tag x tail p).gst = p.gst ∧ (Part.closeCaller tag x tail
p).hdr = p.hdr ∧ (Part.closeCaller tag x tail p).memCtr = p.memCtr ∧ (Part.closeCaller tag x tail p).written = p.written
:= by
  unfold Part.closeCaller; dsimp only; and_intros <;> (repeat' split) <;> simp_all [Prod.ext_iff]

@[simp] theorem Part.dropRecalling_frame (c : Conn) (p : Part) : (Part.dropRecalling c p).cfg = p.cfg ∧
(Part.dropRecalling c p).branch = p.branch ∧ (Part.dropRecalling c p).trunkFramer = p.trunkFramer ∧ (Part.dropRecalling
c p).labelFramer = p.labelFramer ∧ (Part.dropRecalling c p).guestFramer = p.guestFramer ∧ (Part.dropRecalling c p).links
= p.links ∧ (Part.dropRecalling c p).fwd = p.fwd ∧ (Part.dropRecalling c p).pres = p.pres ∧ (Part.dropRecalling c
p).price = p.price ∧ (Part.dropRecalling c p).till = p.till ∧ (Part.dropRecalling c p).jrn = p.jrn ∧ (Part.dropRecalling
c p).lab = p.lab ∧ (Part.dropRecalling c p).gst = p.gst ∧ (Part.dropRecalling c p).trk = p.trk ∧ (Part.dropRecalling c
p).hdr = p.hdr ∧ (Part.dropRecalling c p).memCtr = p.memCtr ∧ (Part.dropRecalling c p).asks = p.asks ∧
(Part.dropRecalling c p).dram = p.dram ∧ (Part.dropRecalling c p).written = p.written := by
  unfold Part.dropRecalling; and_intros <;> (repeat' split) <;> simp

@[simp] theorem Part.turnNotSent_frame (what : TurnWhat) (p : Part) : (Part.turnNotSent what p).cfg = p.cfg ∧
(Part.turnNotSent what p).trunkFramer = p.trunkFramer ∧ (Part.turnNotSent what p).labelFramer = p.labelFramer ∧
(Part.turnNotSent what p).guestFramer = p.guestFramer ∧ (Part.turnNotSent what p).pres = p.pres ∧ (Part.turnNotSent what
p).till = p.till ∧ (Part.turnNotSent what p).jrn = p.jrn ∧ (Part.turnNotSent what p).lab = p.lab ∧ (Part.turnNotSent
what p).gst = p.gst ∧ (Part.turnNotSent what p).hdr = p.hdr ∧ (Part.turnNotSent what p).memCtr = p.memCtr ∧
(Part.turnNotSent what p).written = p.written := by
  unfold Part.turnNotSent; and_intros <;> (repeat' split) <;> simp

@[simp] theorem Part.turn_frame (what : TurnWhat) (dest : StationNo) (kind : Nat) (payload : Bytes) (p : Part) :
(Part.turn what dest kind payload p).cfg = p.cfg ∧ (Part.turn what dest kind payload p).trunkFramer = p.trunkFramer ∧
(Part.turn what dest kind payload p).labelFramer = p.labelFramer ∧ (Part.turn what dest kind payload p).guestFramer =
p.guestFramer ∧ (Part.turn what dest kind payload p).pres = p.pres ∧ (Part.turn what dest kind payload p).till = p.till
∧ (Part.turn what dest kind payload p).jrn = p.jrn ∧ (Part.turn what dest kind payload p).lab = p.lab ∧ (Part.turn what
dest kind payload p).gst = p.gst ∧ (Part.turn what dest kind payload p).hdr = p.hdr ∧ (Part.turn what dest kind payload
p).memCtr = p.memCtr ∧ (Part.turn what dest kind payload p).written = p.written := by
  unfold Part.turn; refine ⟨?_,?_,?_,?_,?_,?_,?_,?_,?_,?_,?_,?_⟩ <;> ((try dsimp only); (repeat' split) <;> (try simp_all [Prod.ext_iff]) <;> (try (obtain ⟨_, rfl⟩ := ‹_ ∧ _ = (_ : Part)›)) <;> (try simp_all [Prod.ext_iff]) <;> (repeat' split) <;> (try (obtain ⟨_, rfl⟩ := ‹_ ∧ _ = (_ : Part)›)) <;> (try simp_all [Prod.ext_iff]) <;> (repeat' split) <;> (try simp_all))

@[simp] theorem Part.pullRecords_frame (p : Part) (x1 : Nat) (x2 : Nat) : (Part.pullRecords p x1 x2).2.cfg = p.cfg ∧
(Part.pullRecords p x1 x2).2.branch = p.branch ∧ (Part.pullRecords p x1 x2).2.trunkFramer = p.trunkFramer ∧
(Part.pullRecords p x1 x2).2.labelFramer = p.labelFramer ∧ (Part.pullRecords p x1 x2).2.guestFramer = p.guestFramer ∧
(Part.pullRecords p x1 x2).2.links = p.links ∧ (Part.pullRecords p x1 x2).2.fwd = p.fwd ∧ (Part.pullRecords p x1
x2).2.call = p.call ∧ (Part.pullRecords p x1 x2).2.pres = p.pres ∧ (Part.pullRecords p x1 x2).2.price = p.price ∧
(Part.pullRecords p x1 x2).2.till = p.till ∧ (Part.pullRecords p x1 x2).2.lab = p.lab ∧ (Part.pullRecords p x1 x2).2.gst
= p.gst ∧ (Part.pullRecords p x1 x2).2.trk = p.trk ∧ (Part.pullRecords p x1 x2).2.hdr = p.hdr ∧ (Part.pullRecords p x1
x2).2.memCtr = p.memCtr ∧ (Part.pullRecords p x1 x2).2.dram = p.dram ∧ (Part.pullRecords p x1 x2).2.written = p.written
:= by
  induction x1 generalizing p x2 with
  | zero => simp [Part.pullRecords]
  | succ n ih => unfold Part.pullRecords; refine ⟨?_,?_,?_,?_,?_,?_,?_,?_,?_,?_,?_,?_,?_,?_,?_,?_,?_,?_⟩ <;> ((try dsimp only); (repeat' split) <;> (try simp_all [Prod.ext_iff]) <;> (try (obtain ⟨_, rfl⟩ := ‹_ ∧ _ = (_ : Part)›)) <;> (try simp_all [Prod.ext_iff]) <;> (repeat' split) <;> (try (obtain ⟨_, rfl⟩ := ‹_ ∧ _ = (_ : Part)›)) <;> (try simp_all [Prod.ext_iff]) <;> (repeat' split) <;> (try simp_all))

@[simp] theorem Part.serveRecords_frame (req : Request) (pos : Nat) (most : Nat) (p : Part) : (Part.serveRecords req pos
most p).2.cfg = p.cfg ∧ (Part.serveRecords req pos most p).2.branch = p.branch ∧ (Part.serveRecords req pos most
p).2.trunkFramer = p.trunkFramer ∧ (Part.serveRecords req pos most p).2.labelFramer = p.labelFramer ∧ (Part.serveRecords
req pos most p).2.guestFramer = p.guestFramer ∧ (Part.serveRecords req pos most p).2.links = p.links ∧
(Part.serveRecords req pos most p).2.fwd = p.fwd ∧ (Part.serveRecords req pos most p).2.call = p.call ∧
(Part.serveRecords req pos most p).2.pres = p.pres ∧ (Part.serveRecords req pos most p).2.price = p.price ∧
(Part.serveRecords req pos most p).2.till = p.till ∧ (Part.serveRecords req pos most p).2.lab = p.lab ∧
(Part.serveRecords req pos most p).2.gst = p.gst ∧ (Part.serveRecords req pos most p).2.trk = p.trk ∧ (Part.serveRecords
req pos most p).2.hdr = p.hdr ∧ (Part.serveRecords req pos most p).2.memCtr = p.memCtr ∧ (Part.serveRecords req pos most
p).2.dram = p.dram ∧ (Part.serveRecords req pos most p).2.written = p.written := by
  unfold Part.serveRecords; and_intros <;> (repeat' split) <;> simp

@[simp] theorem Part.sendEnd_frame (c : Conn) (p : Part) : (Part.sendEnd c p).cfg = p.cfg ∧ (Part.sendEnd c
p).trunkFramer = p.trunkFramer ∧ (Part.sendEnd c p).labelFramer = p.labelFramer ∧ (Part.sendEnd c p).guestFramer =
p.guestFramer ∧ (Part.sendEnd c p).pres = p.pres ∧ (Part.sendEnd c p).till = p.till ∧ (Part.sendEnd c p).jrn = p.jrn ∧
(Part.sendEnd c p).lab = p.lab ∧ (Part.sendEnd c p).gst = p.gst ∧ (Part.sendEnd c p).hdr = p.hdr ∧ (Part.sendEnd c
p).memCtr = p.memCtr ∧ (Part.sendEnd c p).written = p.written := by
  unfold Part.sendEnd; and_intros <;> (repeat' split) <;> simp

@[simp] theorem Part.sendData_frame (c : Conn) (pos : Nat) (most : Nat) (again : Bool) (p : Part) : (Part.sendData c pos
most again p).cfg = p.cfg ∧ (Part.sendData c pos most again p).trunkFramer = p.trunkFramer ∧ (Part.sendData c pos most
again p).labelFramer = p.labelFramer ∧ (Part.sendData c pos most again p).guestFramer = p.guestFramer ∧ (Part.sendData c
pos most again p).pres = p.pres ∧ (Part.sendData c pos most again p).till = p.till ∧ (Part.sendData c pos most again
p).lab = p.lab ∧ (Part.sendData c pos most again p).gst = p.gst ∧ (Part.sendData c pos most again p).hdr = p.hdr ∧
(Part.sendData c pos most again p).memCtr = p.memCtr ∧ (Part.sendData c pos most again p).written = p.written := by
  unfold Part.sendData; dsimp only; and_intros <;> (repeat' split) <;> simp_all [Prod.ext_iff]

@[simp] theorem Part.sendNext_frame (c : Conn) (p : Part) : (Part.sendNext c p).cfg = p.cfg ∧ (Part.sendNext c
p).trunkFramer = p.trunkFramer ∧ (Part.sendNext c p).labelFramer = p.labelFramer ∧ (Part.sendNext c p).guestFramer =
p.guestFramer ∧ (Part.sendNext c p).pres = p.pres ∧ (Part.sendNext c p).till = p.till ∧ (Part.sendNext c p).lab = p.lab
∧ (Part.sendNext c p).gst = p.gst ∧ (Part.sendNext c p).hdr = p.hdr ∧ (Part.sendNext c p).memCtr = p.memCtr ∧
(Part.sendNext c p).written = p.written := by
  unfold Part.sendNext; and_intros <;> (repeat' split) <;> simp

@[simp] theorem Part.sendFirst_frame (c : Conn) (p : Part) : (Part.sendFirst c p).cfg = p.cfg ∧ (Part.sendFirst c
p).trunkFramer = p.trunkFramer ∧ (Part.sendFirst c p).labelFramer = p.labelFramer ∧ (Part.sendFirst c p).guestFramer =
p.guestFramer ∧ (Part.sendFirst c p).pres = p.pres ∧ (Part.sendFirst c p).till = p.till ∧ (Part.sendFirst c p).lab =
p.lab ∧ (Part.sendFirst c p).gst = p.gst ∧ (Part.sendFirst c p).hdr = p.hdr ∧ (Part.sendFirst c p).memCtr = p.memCtr ∧
(Part.sendFirst c p).written = p.written := by
  unfold Part.sendFirst; refine ⟨?_,?_,?_,?_,?_,?_,?_,?_,?_,?_,?_⟩ <;> ((try dsimp only); (repeat' split) <;> (try simp_all [Prod.ext_iff]) <;> (try (obtain ⟨_, rfl⟩ := ‹_ ∧ _ = (_ : Part)›)) <;> (try simp_all [Prod.ext_iff]) <;> (repeat' split) <;> (try (obtain ⟨_, rfl⟩ := ‹_ ∧ _ = (_ : Part)›)) <;> (try simp_all [Prod.ext_iff]) <;> (repeat' split) <;> (try simp_all))

@[simp] theorem Part.turnSent_frame (what : TurnWhat) (p : Part) : (Part.turnSent what p).cfg = p.cfg ∧ (Part.turnSent
what p).trunkFramer = p.trunkFramer ∧ (Part.turnSent what p).labelFramer = p.labelFramer ∧ (Part.turnSent what
p).guestFramer = p.guestFramer ∧ (Part.turnSent what p).pres = p.pres ∧ (Part.turnSent what p).till = p.till ∧
(Part.turnSent what p).lab = p.lab ∧ (Part.turnSent what p).gst = p.gst ∧ (Part.turnSent what p).hdr = p.hdr ∧
(Part.turnSent what p).memCtr = p.memCtr ∧ (Part.turnSent what p).written = p.written := by
  unfold Part.turnSent; dsimp only; and_intros <;> (repeat' split) <;> simp_all [Prod.ext_iff]

@[simp] theorem Part.sendReceipt_frame (c : Conn) (good : Bool) (p : Part) : (Part.sendReceipt c good p).cfg = p.cfg ∧
(Part.sendReceipt c good p).trunkFramer = p.trunkFramer ∧ (Part.sendReceipt c good p).labelFramer = p.labelFramer ∧
(Part.sendReceipt c good p).guestFramer = p.guestFramer ∧ (Part.sendReceipt c good p).pres = p.pres ∧ (Part.sendReceipt
c good p).till = p.till ∧ (Part.sendReceipt c good p).jrn = p.jrn ∧ (Part.sendReceipt c good p).lab = p.lab ∧
(Part.sendReceipt c good p).gst = p.gst ∧ (Part.sendReceipt c good p).hdr = p.hdr ∧ (Part.sendReceipt c good p).memCtr =
p.memCtr ∧ (Part.sendReceipt c good p).written = p.written := by
  unfold Part.sendReceipt; and_intros <;> (repeat' split) <;> simp

@[simp] theorem Part.receiptBad_frame (c : Conn) (p : Part) : (Part.receiptBad c p).cfg = p.cfg ∧ (Part.receiptBad c
p).trunkFramer = p.trunkFramer ∧ (Part.receiptBad c p).labelFramer = p.labelFramer ∧ (Part.receiptBad c p).guestFramer =
p.guestFramer ∧ (Part.receiptBad c p).pres = p.pres ∧ (Part.receiptBad c p).till = p.till ∧ (Part.receiptBad c p).jrn =
p.jrn ∧ (Part.receiptBad c p).lab = p.lab ∧ (Part.receiptBad c p).gst = p.gst ∧ (Part.receiptBad c p).hdr = p.hdr ∧
(Part.receiptBad c p).memCtr = p.memCtr ∧ (Part.receiptBad c p).written = p.written := by
  unfold Part.receiptBad; and_intros <;> (repeat' split) <;> simp

@[simp] theorem Part.turnLost_frame (p : Part) : (Part.turnLost p).cfg = p.cfg ∧ (Part.turnLost p).trunkFramer =
p.trunkFramer ∧ (Part.turnLost p).labelFramer = p.labelFramer ∧ (Part.turnLost p).guestFramer = p.guestFramer ∧
(Part.turnLost p).pres = p.pres ∧ (Part.turnLost p).till = p.till ∧ (Part.turnLost p).jrn = p.jrn ∧ (Part.turnLost
p).lab = p.lab ∧ (Part.turnLost p).gst = p.gst ∧ (Part.turnLost p).hdr = p.hdr ∧ (Part.turnLost p).memCtr = p.memCtr ∧
(Part.turnLost p).written = p.written := by
  unfold Part.turnLost; refine ⟨?_,?_,?_,?_,?_,?_,?_,?_,?_,?_,?_,?_⟩ <;> ((try dsimp only); (repeat' split) <;> (try simp_all [Prod.ext_iff]) <;> (try (obtain ⟨_, rfl⟩ := ‹_ ∧ _ = (_ : Part)›)) <;> (try simp_all [Prod.ext_iff]) <;> (repeat' split) <;> (try (obtain ⟨_, rfl⟩ := ‹_ ∧ _ = (_ : Part)›)) <;> (try simp_all [Prod.ext_iff]) <;> (repeat' split) <;> (try simp_all))

@[simp] theorem Part.turnExpired_frame (p : Part) : (Part.turnExpired p).cfg = p.cfg ∧ (Part.turnExpired p).trunkFramer
= p.trunkFramer ∧ (Part.turnExpired p).labelFramer = p.labelFramer ∧ (Part.turnExpired p).guestFramer = p.guestFramer ∧
(Part.turnExpired p).pres = p.pres ∧ (Part.turnExpired p).till = p.till ∧ (Part.turnExpired p).jrn = p.jrn ∧
(Part.turnExpired p).lab = p.lab ∧ (Part.turnExpired p).gst = p.gst ∧ (Part.turnExpired p).hdr = p.hdr ∧
(Part.turnExpired p).memCtr = p.memCtr ∧ (Part.turnExpired p).written = p.written := by
  unfold Part.turnExpired; and_intros <;> (repeat' split) <;> simp

@[simp] theorem Part.strayTurn_frame (it : RxItem) (p : Part) : (Part.strayTurn it p).cfg = p.cfg ∧ (Part.strayTurn it
p).trunkFramer = p.trunkFramer ∧ (Part.strayTurn it p).labelFramer = p.labelFramer ∧ (Part.strayTurn it p).guestFramer =
p.guestFramer ∧ (Part.strayTurn it p).pres = p.pres ∧ (Part.strayTurn it p).till = p.till ∧ (Part.strayTurn it p).jrn =
p.jrn ∧ (Part.strayTurn it p).lab = p.lab ∧ (Part.strayTurn it p).gst = p.gst ∧ (Part.strayTurn it p).hdr = p.hdr ∧
(Part.strayTurn it p).memCtr = p.memCtr ∧ (Part.strayTurn it p).written = p.written := by
  unfold Part.strayTurn; and_intros <;> (repeat' split) <;> simp

@[simp] theorem Part.replaceDeferred_frame (caller : StationNo) (tag : Byte) (p : Part) : (Part.replaceDeferred caller
tag p).cfg = p.cfg ∧ (Part.replaceDeferred caller tag p).trunkFramer = p.trunkFramer ∧ (Part.replaceDeferred caller tag
p).labelFramer = p.labelFramer ∧ (Part.replaceDeferred caller tag p).guestFramer = p.guestFramer ∧ (Part.replaceDeferred
caller tag p).links = p.links ∧ (Part.replaceDeferred caller tag p).pres = p.pres ∧ (Part.replaceDeferred caller tag
p).price = p.price ∧ (Part.replaceDeferred caller tag p).till = p.till ∧ (Part.replaceDeferred caller tag p).jrn = p.jrn
∧ (Part.replaceDeferred caller tag p).lab = p.lab ∧ (Part.replaceDeferred caller tag p).gst = p.gst ∧
(Part.replaceDeferred caller tag p).trk = p.trk ∧ (Part.replaceDeferred caller tag p).hdr = p.hdr ∧
(Part.replaceDeferred caller tag p).memCtr = p.memCtr ∧ (Part.replaceDeferred caller tag p).dram = p.dram ∧
(Part.replaceDeferred caller tag p).written = p.written := by
  unfold Part.replaceDeferred; and_intros <;> (repeat' split) <;> simp

@[simp] theorem Part.deferCall_frame (caller : StationNo) (tag : Byte) (r : Request) (p : Part) : (Part.deferCall caller
tag r p).cfg = p.cfg ∧ (Part.deferCall caller tag r p).trunkFramer = p.trunkFramer ∧ (Part.deferCall caller tag r
p).labelFramer = p.labelFramer ∧ (Part.deferCall caller tag r p).guestFramer = p.guestFramer ∧ (Part.deferCall caller
tag r p).pres = p.pres ∧ (Part.deferCall caller tag r p).till = p.till ∧ (Part.deferCall caller tag r p).jrn = p.jrn ∧
(Part.deferCall caller tag r p).lab = p.lab ∧ (Part.deferCall caller tag r p).gst = p.gst ∧ (Part.deferCall caller tag r
p).hdr = p.hdr ∧ (Part.deferCall caller tag r p).memCtr = p.memCtr ∧ (Part.deferCall caller tag r p).written = p.written
:= by
  unfold Part.deferCall; dsimp only; and_intros <;> (repeat' split) <;> simp_all [Prod.ext_iff]

@[simp] theorem Part.callReceived_frame (p : Part) : (Part.callReceived p).cfg = p.cfg ∧ (Part.callReceived
p).trunkFramer = p.trunkFramer ∧ (Part.callReceived p).labelFramer = p.labelFramer ∧ (Part.callReceived p).guestFramer =
p.guestFramer ∧ (Part.callReceived p).pres = p.pres ∧ (Part.callReceived p).till = p.till ∧ (Part.callReceived p).jrn =
p.jrn ∧ (Part.callReceived p).lab = p.lab ∧ (Part.callReceived p).gst = p.gst ∧ (Part.callReceived p).hdr = p.hdr ∧
(Part.callReceived p).memCtr = p.memCtr ∧ (Part.callReceived p).written = p.written := by
  unfold Part.callReceived; dsimp only; and_intros <;> (repeat' split) <;> simp_all [Prod.ext_iff]

@[simp] theorem Part.setStage_frame (tag : Byte) (n : Nat) (p : Part) : (Part.setStage tag n p).cfg = p.cfg ∧
(Part.setStage tag n p).branch = p.branch ∧ (Part.setStage tag n p).trunkFramer = p.trunkFramer ∧ (Part.setStage tag n
p).labelFramer = p.labelFramer ∧ (Part.setStage tag n p).guestFramer = p.guestFramer ∧ (Part.setStage tag n p).links =
p.links ∧ (Part.setStage tag n p).fwd = p.fwd ∧ (Part.setStage tag n p).pres = p.pres ∧ (Part.setStage tag n p).price =
p.price ∧ (Part.setStage tag n p).till = p.till ∧ (Part.setStage tag n p).jrn = p.jrn ∧ (Part.setStage tag n p).lab =
p.lab ∧ (Part.setStage tag n p).gst = p.gst ∧ (Part.setStage tag n p).trk = p.trk ∧ (Part.setStage tag n p).hdr = p.hdr
∧ (Part.setStage tag n p).memCtr = p.memCtr ∧ (Part.setStage tag n p).asks = p.asks ∧ (Part.setStage tag n p).dram =
p.dram ∧ (Part.setStage tag n p).written = p.written := by
  unfold Part.setStage; and_intros <;> (repeat' split) <;> simp

@[simp] theorem Part.takeVerdict_frame (c : Conn) (v : Verdict) (p : Part) : (Part.takeVerdict c v p).cfg = p.cfg ∧
(Part.takeVerdict c v p).trunkFramer = p.trunkFramer ∧ (Part.takeVerdict c v p).labelFramer = p.labelFramer ∧
(Part.takeVerdict c v p).guestFramer = p.guestFramer ∧ (Part.takeVerdict c v p).pres = p.pres ∧ (Part.takeVerdict c v
p).till = p.till ∧ (Part.takeVerdict c v p).jrn = p.jrn ∧ (Part.takeVerdict c v p).lab = p.lab ∧ (Part.takeVerdict c v
p).gst = p.gst ∧ (Part.takeVerdict c v p).hdr = p.hdr ∧ (Part.takeVerdict c v p).memCtr = p.memCtr ∧ (Part.takeVerdict c
v p).written = p.written := by
  unfold Part.takeVerdict; and_intros <;> (repeat' split) <;> simp

@[simp] theorem Part.answerReceived_frame (p : Part) : (Part.answerReceived p).cfg = p.cfg ∧ (Part.answerReceived
p).trunkFramer = p.trunkFramer ∧ (Part.answerReceived p).labelFramer = p.labelFramer ∧ (Part.answerReceived
p).guestFramer = p.guestFramer ∧ (Part.answerReceived p).pres = p.pres ∧ (Part.answerReceived p).till = p.till ∧
(Part.answerReceived p).jrn = p.jrn ∧ (Part.answerReceived p).lab = p.lab ∧ (Part.answerReceived p).gst = p.gst ∧
(Part.answerReceived p).hdr = p.hdr ∧ (Part.answerReceived p).memCtr = p.memCtr ∧ (Part.answerReceived p).written =
p.written := by
  unfold Part.answerReceived; and_intros <;> (repeat' split) <;> simp

@[simp] theorem Part.recallAnswered_frame (c : Conn) (v : Option Verdict) (p : Part) : (Part.recallAnswered c v p).cfg =
p.cfg ∧ (Part.recallAnswered c v p).trunkFramer = p.trunkFramer ∧ (Part.recallAnswered c v p).labelFramer =
p.labelFramer ∧ (Part.recallAnswered c v p).guestFramer = p.guestFramer ∧ (Part.recallAnswered c v p).pres = p.pres ∧
(Part.recallAnswered c v p).till = p.till ∧ (Part.recallAnswered c v p).lab = p.lab ∧ (Part.recallAnswered c v p).gst =
p.gst ∧ (Part.recallAnswered c v p).hdr = p.hdr ∧ (Part.recallAnswered c v p).memCtr = p.memCtr ∧ (Part.recallAnswered c
v p).written = p.written := by
  unfold Part.recallAnswered; and_intros <;> (repeat' split) <;> simp

@[simp] theorem Part.recallAnswerReceived_frame (p : Part) : (Part.recallAnswerReceived p).cfg = p.cfg ∧
(Part.recallAnswerReceived p).trunkFramer = p.trunkFramer ∧ (Part.recallAnswerReceived p).labelFramer = p.labelFramer ∧
(Part.recallAnswerReceived p).guestFramer = p.guestFramer ∧ (Part.recallAnswerReceived p).pres = p.pres ∧
(Part.recallAnswerReceived p).till = p.till ∧ (Part.recallAnswerReceived p).lab = p.lab ∧ (Part.recallAnswerReceived
p).gst = p.gst ∧ (Part.recallAnswerReceived p).hdr = p.hdr ∧ (Part.recallAnswerReceived p).memCtr = p.memCtr ∧
(Part.recallAnswerReceived p).written = p.written := by
  unfold Part.recallAnswerReceived; and_intros <;> (repeat' split) <;> simp

@[simp] theorem Part.takeData_frame (it : RxItem) (c : Conn) (e : OpenCall) (b : Bytes) (p : Part) : (Part.takeData it c
e b p).cfg = p.cfg ∧ (Part.takeData it c e b p).trunkFramer = p.trunkFramer ∧ (Part.takeData it c e b p).labelFramer =
p.labelFramer ∧ (Part.takeData it c e b p).guestFramer = p.guestFramer ∧ (Part.takeData it c e b p).pres = p.pres ∧
(Part.takeData it c e b p).till = p.till ∧ (Part.takeData it c e b p).jrn = p.jrn ∧ (Part.takeData it c e b p).lab =
p.lab ∧ (Part.takeData it c e b p).gst = p.gst ∧ (Part.takeData it c e b p).hdr = p.hdr ∧ (Part.takeData it c e b
p).memCtr = p.memCtr ∧ (Part.takeData it c e b p).written = p.written := by
  unfold Part.takeData; and_intros <;> (repeat' split) <;> simp

@[simp] theorem Part.dataReceived_frame (p : Part) : (Part.dataReceived p).cfg = p.cfg ∧ (Part.dataReceived
p).trunkFramer = p.trunkFramer ∧ (Part.dataReceived p).labelFramer = p.labelFramer ∧ (Part.dataReceived p).guestFramer =
p.guestFramer ∧ (Part.dataReceived p).pres = p.pres ∧ (Part.dataReceived p).till = p.till ∧ (Part.dataReceived p).jrn =
p.jrn ∧ (Part.dataReceived p).lab = p.lab ∧ (Part.dataReceived p).gst = p.gst ∧ (Part.dataReceived p).hdr = p.hdr ∧
(Part.dataReceived p).memCtr = p.memCtr ∧ (Part.dataReceived p).written = p.written := by
  unfold Part.dataReceived; and_intros <;> (repeat' split) <;> simp

@[simp] theorem Part.takeReceipt_frame (c : Conn) (good : Bool) (enough : Bool) (p : Part) : (Part.takeReceipt c good
enough p).cfg = p.cfg ∧ (Part.takeReceipt c good enough p).trunkFramer = p.trunkFramer ∧ (Part.takeReceipt c good enough
p).labelFramer = p.labelFramer ∧ (Part.takeReceipt c good enough p).guestFramer = p.guestFramer ∧ (Part.takeReceipt c
good enough p).pres = p.pres ∧ (Part.takeReceipt c good enough p).till = p.till ∧ (Part.takeReceipt c good enough p).lab
= p.lab ∧ (Part.takeReceipt c good enough p).gst = p.gst ∧ (Part.takeReceipt c good enough p).hdr = p.hdr ∧
(Part.takeReceipt c good enough p).memCtr = p.memCtr ∧ (Part.takeReceipt c good enough p).written = p.written := by
  unfold Part.takeReceipt; dsimp only; and_intros <;> (repeat' split) <;> simp_all [Prod.ext_iff]

@[simp] theorem Part.receiptAfterEnd_frame (c : Conn) (good : Bool) (p : Part) : (Part.receiptAfterEnd c good p).cfg =
p.cfg ∧ (Part.receiptAfterEnd c good p).trunkFramer = p.trunkFramer ∧ (Part.receiptAfterEnd c good p).labelFramer =
p.labelFramer ∧ (Part.receiptAfterEnd c good p).guestFramer = p.guestFramer ∧ (Part.receiptAfterEnd c good p).pres =
p.pres ∧ (Part.receiptAfterEnd c good p).till = p.till ∧ (Part.receiptAfterEnd c good p).jrn = p.jrn ∧
(Part.receiptAfterEnd c good p).lab = p.lab ∧ (Part.receiptAfterEnd c good p).gst = p.gst ∧ (Part.receiptAfterEnd c good
p).hdr = p.hdr ∧ (Part.receiptAfterEnd c good p).memCtr = p.memCtr ∧ (Part.receiptAfterEnd c good p).written = p.written
:= by
  unfold Part.receiptAfterEnd; and_intros <;> (repeat' split) <;> simp

@[simp] theorem Part.receiptReceived_frame (p : Part) : (Part.receiptReceived p).cfg = p.cfg ∧ (Part.receiptReceived
p).trunkFramer = p.trunkFramer ∧ (Part.receiptReceived p).labelFramer = p.labelFramer ∧ (Part.receiptReceived
p).guestFramer = p.guestFramer ∧ (Part.receiptReceived p).pres = p.pres ∧ (Part.receiptReceived p).till = p.till ∧
(Part.receiptReceived p).lab = p.lab ∧ (Part.receiptReceived p).gst = p.gst ∧ (Part.receiptReceived p).hdr = p.hdr ∧
(Part.receiptReceived p).memCtr = p.memCtr ∧ (Part.receiptReceived p).written = p.written := by
  unfold Part.receiptReceived; and_intros <;> (repeat' split) <;> simp

@[simp] theorem Part.takeCallEnd_frame (c : Conn) (sent : Nat) (tail : Nat) (p : Part) : (Part.takeCallEnd c sent tail
p).cfg = p.cfg ∧ (Part.takeCallEnd c sent tail p).trunkFramer = p.trunkFramer ∧ (Part.takeCallEnd c sent tail
p).labelFramer = p.labelFramer ∧ (Part.takeCallEnd c sent tail p).guestFramer = p.guestFramer ∧ (Part.takeCallEnd c sent
tail p).pres = p.pres ∧ (Part.takeCallEnd c sent tail p).till = p.till ∧ (Part.takeCallEnd c sent tail p).jrn = p.jrn ∧
(Part.takeCallEnd c sent tail p).lab = p.lab ∧ (Part.takeCallEnd c sent tail p).gst = p.gst ∧ (Part.takeCallEnd c sent
tail p).hdr = p.hdr ∧ (Part.takeCallEnd c sent tail p).memCtr = p.memCtr ∧ (Part.takeCallEnd c sent tail p).written =
p.written := by
  unfold Part.takeCallEnd; dsimp only; and_intros <;> (repeat' split) <;> simp_all [Prod.ext_iff]

@[simp] theorem Part.endReceived_frame (p : Part) : (Part.endReceived p).cfg = p.cfg ∧ (Part.endReceived p).trunkFramer
= p.trunkFramer ∧ (Part.endReceived p).labelFramer = p.labelFramer ∧ (Part.endReceived p).guestFramer = p.guestFramer ∧
(Part.endReceived p).pres = p.pres ∧ (Part.endReceived p).till = p.till ∧ (Part.endReceived p).jrn = p.jrn ∧
(Part.endReceived p).lab = p.lab ∧ (Part.endReceived p).gst = p.gst ∧ (Part.endReceived p).hdr = p.hdr ∧
(Part.endReceived p).memCtr = p.memCtr ∧ (Part.endReceived p).written = p.written := by
  unfold Part.endReceived; and_intros <;> (repeat' split) <;> simp

@[simp] theorem Part.takeRecall_frame (e : OpenCall) (p : Part) : (Part.takeRecall e p).cfg = p.cfg ∧ (Part.takeRecall e
p).trunkFramer = p.trunkFramer ∧ (Part.takeRecall e p).labelFramer = p.labelFramer ∧ (Part.takeRecall e p).guestFramer =
p.guestFramer ∧ (Part.takeRecall e p).pres = p.pres ∧ (Part.takeRecall e p).till = p.till ∧ (Part.takeRecall e p).jrn =
p.jrn ∧ (Part.takeRecall e p).lab = p.lab ∧ (Part.takeRecall e p).gst = p.gst ∧ (Part.takeRecall e p).hdr = p.hdr ∧
(Part.takeRecall e p).memCtr = p.memCtr ∧ (Part.takeRecall e p).written = p.written := by
  unfold Part.takeRecall; and_intros <;> (repeat' split) <;> simp

@[simp] theorem Part.recallReceived_frame (p : Part) : (Part.recallReceived p).cfg = p.cfg ∧ (Part.recallReceived
p).trunkFramer = p.trunkFramer ∧ (Part.recallReceived p).labelFramer = p.labelFramer ∧ (Part.recallReceived
p).guestFramer = p.guestFramer ∧ (Part.recallReceived p).pres = p.pres ∧ (Part.recallReceived p).till = p.till ∧
(Part.recallReceived p).jrn = p.jrn ∧ (Part.recallReceived p).lab = p.lab ∧ (Part.recallReceived p).gst = p.gst ∧
(Part.recallReceived p).hdr = p.hdr ∧ (Part.recallReceived p).memCtr = p.memCtr ∧ (Part.recallReceived p).written =
p.written := by
  unfold Part.recallReceived; dsimp only; and_intros <;> (repeat' split) <;> simp_all [Prod.ext_iff]

@[simp] theorem Part.recallTimeout_frame (tag : Byte) (p : Part) : (Part.recallTimeout tag p).cfg = p.cfg ∧
(Part.recallTimeout tag p).trunkFramer = p.trunkFramer ∧ (Part.recallTimeout tag p).labelFramer = p.labelFramer ∧
(Part.recallTimeout tag p).guestFramer = p.guestFramer ∧ (Part.recallTimeout tag p).pres = p.pres ∧ (Part.recallTimeout
tag p).till = p.till ∧ (Part.recallTimeout tag p).jrn = p.jrn ∧ (Part.recallTimeout tag p).lab = p.lab ∧
(Part.recallTimeout tag p).gst = p.gst ∧ (Part.recallTimeout tag p).hdr = p.hdr ∧ (Part.recallTimeout tag p).memCtr =
p.memCtr ∧ (Part.recallTimeout tag p).written = p.written := by
  unfold Part.recallTimeout; and_intros <;> (repeat' split) <;> simp

@[simp] theorem Part.expireDeferred_frame (d : Deferred) (p : Part) : (Part.expireDeferred d p).cfg = p.cfg ∧
(Part.expireDeferred d p).branch = p.branch ∧ (Part.expireDeferred d p).trunkFramer = p.trunkFramer ∧
(Part.expireDeferred d p).labelFramer = p.labelFramer ∧ (Part.expireDeferred d p).guestFramer = p.guestFramer ∧
(Part.expireDeferred d p).links = p.links ∧ (Part.expireDeferred d p).fwd = p.fwd ∧ (Part.expireDeferred d p).pres =
p.pres ∧ (Part.expireDeferred d p).price = p.price ∧ (Part.expireDeferred d p).till = p.till ∧ (Part.expireDeferred d
p).jrn = p.jrn ∧ (Part.expireDeferred d p).lab = p.lab ∧ (Part.expireDeferred d p).gst = p.gst ∧ (Part.expireDeferred d
p).trk = p.trk ∧ (Part.expireDeferred d p).hdr = p.hdr ∧ (Part.expireDeferred d p).memCtr = p.memCtr ∧
(Part.expireDeferred d p).asks = p.asks ∧ (Part.expireDeferred d p).dram = p.dram ∧ (Part.expireDeferred d p).written =
p.written := by
  unfold Part.expireDeferred; and_intros <;> (repeat' split) <;> simp

@[simp] theorem Part.lifetimeExpiry_frame (tag : Byte) (p : Part) : (Part.lifetimeExpiry tag p).cfg = p.cfg ∧
(Part.lifetimeExpiry tag p).trunkFramer = p.trunkFramer ∧ (Part.lifetimeExpiry tag p).labelFramer = p.labelFramer ∧
(Part.lifetimeExpiry tag p).guestFramer = p.guestFramer ∧ (Part.lifetimeExpiry tag p).links = p.links ∧
(Part.lifetimeExpiry tag p).pres = p.pres ∧ (Part.lifetimeExpiry tag p).price = p.price ∧ (Part.lifetimeExpiry tag
p).till = p.till ∧ (Part.lifetimeExpiry tag p).jrn = p.jrn ∧ (Part.lifetimeExpiry tag p).lab = p.lab ∧
(Part.lifetimeExpiry tag p).gst = p.gst ∧ (Part.lifetimeExpiry tag p).trk = p.trk ∧ (Part.lifetimeExpiry tag p).hdr =
p.hdr ∧ (Part.lifetimeExpiry tag p).memCtr = p.memCtr ∧ (Part.lifetimeExpiry tag p).dram = p.dram ∧ (Part.lifetimeExpiry
tag p).written = p.written := by
  unfold Part.lifetimeExpiry; refine ⟨?_,?_,?_,?_,?_,?_,?_,?_,?_,?_,?_,?_,?_,?_,?_,?_⟩ <;> ((try dsimp only); (repeat' split) <;> (try simp_all [Prod.ext_iff]) <;> (try (obtain ⟨_, rfl⟩ := ‹_ ∧ _ = (_ : Part)›)) <;> (try simp_all [Prod.ext_iff]) <;> (repeat' split) <;> (try (obtain ⟨_, rfl⟩ := ‹_ ∧ _ = (_ : Part)›)) <;> (try simp_all [Prod.ext_iff]) <;> (repeat' split) <;> (try simp_all))

@[simp] theorem Part.recallRetry_frame (tag : Byte) (p : Part) : (Part.recallRetry tag p).cfg = p.cfg ∧
(Part.recallRetry tag p).trunkFramer = p.trunkFramer ∧ (Part.recallRetry tag p).labelFramer = p.labelFramer ∧
(Part.recallRetry tag p).guestFramer = p.guestFramer ∧ (Part.recallRetry tag p).links = p.links ∧ (Part.recallRetry tag
p).pres = p.pres ∧ (Part.recallRetry tag p).price = p.price ∧ (Part.recallRetry tag p).till = p.till ∧ (Part.recallRetry
tag p).jrn = p.jrn ∧ (Part.recallRetry tag p).lab = p.lab ∧ (Part.recallRetry tag p).gst = p.gst ∧ (Part.recallRetry tag
p).trk = p.trk ∧ (Part.recallRetry tag p).hdr = p.hdr ∧ (Part.recallRetry tag p).memCtr = p.memCtr ∧ (Part.recallRetry
tag p).written = p.written := by
  unfold Part.recallRetry; and_intros <;> (repeat' split) <;> simp

@[simp] theorem Part.callSent_frame (tag : Byte) (p : Part) : (Part.callSent tag p).cfg = p.cfg ∧ (Part.callSent tag
p).branch = p.branch ∧ (Part.callSent tag p).trunkFramer = p.trunkFramer ∧ (Part.callSent tag p).labelFramer =
p.labelFramer ∧ (Part.callSent tag p).guestFramer = p.guestFramer ∧ (Part.callSent tag p).links = p.links ∧
(Part.callSent tag p).fwd = p.fwd ∧ (Part.callSent tag p).pres = p.pres ∧ (Part.callSent tag p).price = p.price ∧
(Part.callSent tag p).till = p.till ∧ (Part.callSent tag p).jrn = p.jrn ∧ (Part.callSent tag p).lab = p.lab ∧
(Part.callSent tag p).gst = p.gst ∧ (Part.callSent tag p).trk = p.trk ∧ (Part.callSent tag p).hdr = p.hdr ∧
(Part.callSent tag p).memCtr = p.memCtr ∧ (Part.callSent tag p).asks = p.asks ∧ (Part.callSent tag p).dram = p.dram ∧
(Part.callSent tag p).written = p.written := by
  unfold Part.callSent; and_intros <;> (repeat' split) <;> simp

@[simp] theorem Part.callDropped_frame (tag : Byte) (p : Part) : (Part.callDropped tag p).cfg = p.cfg ∧
(Part.callDropped tag p).trunkFramer = p.trunkFramer ∧ (Part.callDropped tag p).labelFramer = p.labelFramer ∧
(Part.callDropped tag p).guestFramer = p.guestFramer ∧ (Part.callDropped tag p).pres = p.pres ∧ (Part.callDropped tag
p).till = p.till ∧ (Part.callDropped tag p).jrn = p.jrn ∧ (Part.callDropped tag p).lab = p.lab ∧ (Part.callDropped tag
p).gst = p.gst ∧ (Part.callDropped tag p).hdr = p.hdr ∧ (Part.callDropped tag p).memCtr = p.memCtr ∧ (Part.callDropped
tag p).written = p.written := by
  unfold Part.callDropped; and_intros <;> (repeat' split) <;> simp

@[simp] theorem Part.recallSent_frame (tag : Byte) (p : Part) : (Part.recallSent tag p).cfg = p.cfg ∧ (Part.recallSent
tag p).branch = p.branch ∧ (Part.recallSent tag p).trunkFramer = p.trunkFramer ∧ (Part.recallSent tag p).labelFramer =
p.labelFramer ∧ (Part.recallSent tag p).guestFramer = p.guestFramer ∧ (Part.recallSent tag p).links = p.links ∧
(Part.recallSent tag p).fwd = p.fwd ∧ (Part.recallSent tag p).pres = p.pres ∧ (Part.recallSent tag p).price = p.price ∧
(Part.recallSent tag p).till = p.till ∧ (Part.recallSent tag p).jrn = p.jrn ∧ (Part.recallSent tag p).lab = p.lab ∧
(Part.recallSent tag p).gst = p.gst ∧ (Part.recallSent tag p).trk = p.trk ∧ (Part.recallSent tag p).hdr = p.hdr ∧
(Part.recallSent tag p).memCtr = p.memCtr ∧ (Part.recallSent tag p).asks = p.asks ∧ (Part.recallSent tag p).dram =
p.dram ∧ (Part.recallSent tag p).written = p.written := by
  unfold Part.recallSent; and_intros <;> (repeat' split) <;> simp

@[simp] theorem Part.recallDropped_frame (tag : Byte) (p : Part) : (Part.recallDropped tag p).cfg = p.cfg ∧
(Part.recallDropped tag p).branch = p.branch ∧ (Part.recallDropped tag p).trunkFramer = p.trunkFramer ∧
(Part.recallDropped tag p).labelFramer = p.labelFramer ∧ (Part.recallDropped tag p).guestFramer = p.guestFramer ∧
(Part.recallDropped tag p).links = p.links ∧ (Part.recallDropped tag p).fwd = p.fwd ∧ (Part.recallDropped tag p).pres =
p.pres ∧ (Part.recallDropped tag p).price = p.price ∧ (Part.recallDropped tag p).till = p.till ∧ (Part.recallDropped tag
p).jrn = p.jrn ∧ (Part.recallDropped tag p).lab = p.lab ∧ (Part.recallDropped tag p).gst = p.gst ∧ (Part.recallDropped
tag p).trk = p.trk ∧ (Part.recallDropped tag p).hdr = p.hdr ∧ (Part.recallDropped tag p).memCtr = p.memCtr ∧
(Part.recallDropped tag p).asks = p.asks ∧ (Part.recallDropped tag p).dram = p.dram ∧ (Part.recallDropped tag p).written
= p.written := by
  unfold Part.recallDropped; and_intros <;> (repeat' split) <;> simp

@[simp] theorem Part.recallWithdrawn_frame (tag : Byte) (p : Part) : (Part.recallWithdrawn tag p).cfg = p.cfg ∧
(Part.recallWithdrawn tag p).branch = p.branch ∧ (Part.recallWithdrawn tag p).trunkFramer = p.trunkFramer ∧
(Part.recallWithdrawn tag p).labelFramer = p.labelFramer ∧ (Part.recallWithdrawn tag p).guestFramer = p.guestFramer ∧
(Part.recallWithdrawn tag p).links = p.links ∧ (Part.recallWithdrawn tag p).fwd = p.fwd ∧ (Part.recallWithdrawn tag
p).pres = p.pres ∧ (Part.recallWithdrawn tag p).price = p.price ∧ (Part.recallWithdrawn tag p).till = p.till ∧
(Part.recallWithdrawn tag p).jrn = p.jrn ∧ (Part.recallWithdrawn tag p).lab = p.lab ∧ (Part.recallWithdrawn tag p).gst =
p.gst ∧ (Part.recallWithdrawn tag p).trk = p.trk ∧ (Part.recallWithdrawn tag p).hdr = p.hdr ∧ (Part.recallWithdrawn tag
p).memCtr = p.memCtr ∧ (Part.recallWithdrawn tag p).asks = p.asks ∧ (Part.recallWithdrawn tag p).dram = p.dram ∧
(Part.recallWithdrawn tag p).written = p.written := by
  unfold Part.recallWithdrawn; and_intros <;> (repeat' split) <;> simp

end Sys2Proof.Machine
end

