-- ==== Sys2Proof/Laws/LineFrames.lean ====
section
/-! SUPPORT. What each operation of the framers, the bursts and the stop leaves as it was: one lemma for each, a rewrite rule for every block of the part that
it does not touch. -/

set_option linter.all false

/- Every lemma here is a case split over a long record; the default limit is for short proofs. -/
set_option maxHeartbeats 4000000

open Sys2Proof Sys2Proof.Machine

namespace Sys2Proof.Machine

@[simp] theorem Part.sentNotice_frame (o : FrameOwner) (p : Part) : (Part.sentNotice o p).cfg = p.cfg ∧ (Part.sentNotice
o p).trunkFramer = p.trunkFramer ∧ (Part.sentNotice o p).labelFramer = p.labelFramer ∧ (Part.sentNotice o p).guestFramer
= p.guestFramer ∧ (Part.sentNotice o p).till = p.till ∧ (Part.sentNotice o p).jrn = p.jrn ∧ (Part.sentNotice o p).gst =
p.gst ∧ (Part.sentNotice o p).memCtr = p.memCtr ∧ (Part.sentNotice o p).written = p.written := by
  unfold Part.sentNotice; and_intros <;> (repeat' split) <;> simp

@[simp] theorem Part.droppedNotice_frame (o : FrameOwner) (p : Part) : (Part.droppedNotice o p).cfg = p.cfg ∧
(Part.droppedNotice o p).trunkFramer = p.trunkFramer ∧ (Part.droppedNotice o p).labelFramer = p.labelFramer ∧
(Part.droppedNotice o p).guestFramer = p.guestFramer ∧ (Part.droppedNotice o p).till = p.till ∧ (Part.droppedNotice o
p).jrn = p.jrn ∧ (Part.droppedNotice o p).gst = p.gst ∧ (Part.droppedNotice o p).memCtr = p.memCtr ∧ (Part.droppedNotice
o p).written = p.written := by
  unfold Part.droppedNotice; and_intros <;> (repeat' split) <;> simp

@[simp] theorem Part.withdrawnNotice_frame (o : FrameOwner) (p : Part) : (Part.withdrawnNotice o p).cfg = p.cfg ∧
(Part.withdrawnNotice o p).trunkFramer = p.trunkFramer ∧ (Part.withdrawnNotice o p).labelFramer = p.labelFramer ∧
(Part.withdrawnNotice o p).guestFramer = p.guestFramer ∧ (Part.withdrawnNotice o p).links = p.links ∧
(Part.withdrawnNotice o p).pres = p.pres ∧ (Part.withdrawnNotice o p).price = p.price ∧ (Part.withdrawnNotice o p).till
= p.till ∧ (Part.withdrawnNotice o p).jrn = p.jrn ∧ (Part.withdrawnNotice o p).lab = p.lab ∧ (Part.withdrawnNotice o
p).gst = p.gst ∧ (Part.withdrawnNotice o p).hdr = p.hdr ∧ (Part.withdrawnNotice o p).memCtr = p.memCtr ∧
(Part.withdrawnNotice o p).written = p.written := by
  unfold Part.withdrawnNotice; and_intros <;> (repeat' split) <;> simp

@[simp] theorem Part.handLeaves_frame (c : Cls) (p : Part) : (Part.handLeaves c p).cfg = p.cfg ∧ (Part.handLeaves c
p).trunkFramer = p.trunkFramer ∧ (Part.handLeaves c p).labelFramer = p.labelFramer ∧ (Part.handLeaves c p).guestFramer =
p.guestFramer ∧ (Part.handLeaves c p).links = p.links ∧ (Part.handLeaves c p).call = p.call ∧ (Part.handLeaves c p).pres
= p.pres ∧ (Part.handLeaves c p).price = p.price ∧ (Part.handLeaves c p).till = p.till ∧ (Part.handLeaves c p).jrn =
p.jrn ∧ (Part.handLeaves c p).lab = p.lab ∧ (Part.handLeaves c p).gst = p.gst ∧ (Part.handLeaves c p).trk = p.trk ∧
(Part.handLeaves c p).hdr = p.hdr ∧ (Part.handLeaves c p).memCtr = p.memCtr ∧ (Part.handLeaves c p).dram = p.dram ∧
(Part.handLeaves c p).written = p.written := by
  unfold Part.handLeaves; and_intros <;> (repeat' split) <;> simp

@[simp] theorem Part.handBack_frame (c : Cls) (p : Part) : (Part.handBack c p).cfg = p.cfg ∧ (Part.handBack c
p).trunkFramer = p.trunkFramer ∧ (Part.handBack c p).labelFramer = p.labelFramer ∧ (Part.handBack c p).guestFramer =
p.guestFramer ∧ (Part.handBack c p).links = p.links ∧ (Part.handBack c p).pres = p.pres ∧ (Part.handBack c p).price =
p.price ∧ (Part.handBack c p).till = p.till ∧ (Part.handBack c p).jrn = p.jrn ∧ (Part.handBack c p).lab = p.lab ∧
(Part.handBack c p).gst = p.gst ∧ (Part.handBack c p).hdr = p.hdr ∧ (Part.handBack c p).memCtr = p.memCtr ∧
(Part.handBack c p).written = p.written := by
  unfold Part.handBack; and_intros <;> (repeat' split) <;> simp

@[simp] theorem Part.turnLeaves_frame (t : TurnFrame) (p : Part) : (Part.turnLeaves t p).cfg = p.cfg ∧ (Part.turnLeaves
t p).trunkFramer = p.trunkFramer ∧ (Part.turnLeaves t p).labelFramer = p.labelFramer ∧ (Part.turnLeaves t p).guestFramer
= p.guestFramer ∧ (Part.turnLeaves t p).links = p.links ∧ (Part.turnLeaves t p).call = p.call ∧ (Part.turnLeaves t
p).pres = p.pres ∧ (Part.turnLeaves t p).price = p.price ∧ (Part.turnLeaves t p).till = p.till ∧ (Part.turnLeaves t
p).jrn = p.jrn ∧ (Part.turnLeaves t p).lab = p.lab ∧ (Part.turnLeaves t p).gst = p.gst ∧ (Part.turnLeaves t p).trk =
p.trk ∧ (Part.turnLeaves t p).hdr = p.hdr ∧ (Part.turnLeaves t p).memCtr = p.memCtr ∧ (Part.turnLeaves t p).dram =
p.dram ∧ (Part.turnLeaves t p).written = p.written := by
  unfold Part.turnLeaves; and_intros <;> (repeat' split) <;> simp

@[simp] theorem Part.closingFlag_frame (p : Part) : (Part.closingFlag p).cfg = p.cfg ∧ (Part.closingFlag p).trunkFramer
= p.trunkFramer ∧ (Part.closingFlag p).labelFramer = p.labelFramer ∧ (Part.closingFlag p).guestFramer = p.guestFramer ∧
(Part.closingFlag p).links = p.links ∧ (Part.closingFlag p).fwd = p.fwd ∧ (Part.closingFlag p).call = p.call ∧
(Part.closingFlag p).pres = p.pres ∧ (Part.closingFlag p).price = p.price ∧ (Part.closingFlag p).till = p.till ∧
(Part.closingFlag p).jrn = p.jrn ∧ (Part.closingFlag p).lab = p.lab ∧ (Part.closingFlag p).gst = p.gst ∧
(Part.closingFlag p).trk = p.trk ∧ (Part.closingFlag p).hdr = p.hdr ∧ (Part.closingFlag p).memCtr = p.memCtr ∧
(Part.closingFlag p).asks = p.asks ∧ (Part.closingFlag p).dram = p.dram ∧ (Part.closingFlag p).written = p.written := by
  unfold Part.closingFlag; and_intros <;> (repeat' split) <;> simp

@[simp] theorem Part.releaseGap_frame (p : Part) : (Part.releaseGap p).cfg = p.cfg ∧ (Part.releaseGap p).trunkFramer =
p.trunkFramer ∧ (Part.releaseGap p).labelFramer = p.labelFramer ∧ (Part.releaseGap p).guestFramer = p.guestFramer ∧
(Part.releaseGap p).links = p.links ∧ (Part.releaseGap p).fwd = p.fwd ∧ (Part.releaseGap p).call = p.call ∧
(Part.releaseGap p).pres = p.pres ∧ (Part.releaseGap p).price = p.price ∧ (Part.releaseGap p).till = p.till ∧
(Part.releaseGap p).jrn = p.jrn ∧ (Part.releaseGap p).lab = p.lab ∧ (Part.releaseGap p).gst = p.gst ∧ (Part.releaseGap
p).trk = p.trk ∧ (Part.releaseGap p).hdr = p.hdr ∧ (Part.releaseGap p).memCtr = p.memCtr ∧ (Part.releaseGap p).asks =
p.asks ∧ (Part.releaseGap p).dram = p.dram ∧ (Part.releaseGap p).written = p.written := by
  unfold Part.releaseGap; and_intros <;> (repeat' split) <;> simp

@[simp] theorem Part.readOn_frame (inTurn : Bool) (p : Part) : (Part.readOn inTurn p).cfg = p.cfg ∧ (Part.readOn inTurn
p).trunkFramer = p.trunkFramer ∧ (Part.readOn inTurn p).labelFramer = p.labelFramer ∧ (Part.readOn inTurn p).guestFramer
= p.guestFramer ∧ (Part.readOn inTurn p).links = p.links ∧ (Part.readOn inTurn p).fwd = p.fwd ∧ (Part.readOn inTurn
p).call = p.call ∧ (Part.readOn inTurn p).pres = p.pres ∧ (Part.readOn inTurn p).price = p.price ∧ (Part.readOn inTurn
p).till = p.till ∧ (Part.readOn inTurn p).jrn = p.jrn ∧ (Part.readOn inTurn p).lab = p.lab ∧ (Part.readOn inTurn p).gst
= p.gst ∧ (Part.readOn inTurn p).trk = p.trk ∧ (Part.readOn inTurn p).hdr = p.hdr ∧ (Part.readOn inTurn p).memCtr =
p.memCtr ∧ (Part.readOn inTurn p).asks = p.asks ∧ (Part.readOn inTurn p).dram = p.dram ∧ (Part.readOn inTurn p).written
= p.written := by
  unfold Part.readOn; refine ⟨?_,?_,?_,?_,?_,?_,?_,?_,?_,?_,?_,?_,?_,?_,?_,?_,?_,?_,?_⟩ <;> ((try dsimp only); (repeat' split) <;> (try simp_all [Prod.ext_iff]) <;> (try (obtain ⟨_, rfl⟩ := ‹_ ∧ _ = (_ : Part)›)) <;> (try simp_all [Prod.ext_iff]) <;> (repeat' split) <;> (try (obtain ⟨_, rfl⟩ := ‹_ ∧ _ = (_ : Part)›)) <;> (try simp_all [Prod.ext_iff]) <;> (repeat' split) <;> (try simp_all))

@[simp] theorem Part.lostContention_frame (p : Part) : (Part.lostContention p).cfg = p.cfg ∧ (Part.lostContention
p).trunkFramer = p.trunkFramer ∧ (Part.lostContention p).labelFramer = p.labelFramer ∧ (Part.lostContention
p).guestFramer = p.guestFramer ∧ (Part.lostContention p).links = p.links ∧ (Part.lostContention p).pres = p.pres ∧
(Part.lostContention p).price = p.price ∧ (Part.lostContention p).till = p.till ∧ (Part.lostContention p).jrn = p.jrn ∧
(Part.lostContention p).lab = p.lab ∧ (Part.lostContention p).gst = p.gst ∧ (Part.lostContention p).hdr = p.hdr ∧
(Part.lostContention p).memCtr = p.memCtr ∧ (Part.lostContention p).written = p.written := by
  unfold Part.lostContention; refine ⟨?_,?_,?_,?_,?_,?_,?_,?_,?_,?_,?_,?_,?_,?_⟩ <;> ((try dsimp only); (repeat' split) <;> (try simp_all [Prod.ext_iff]) <;> (try (obtain ⟨_, rfl⟩ := ‹_ ∧ _ = (_ : Part)›)) <;> (try simp_all [Prod.ext_iff]) <;> (repeat' split) <;> (try (obtain ⟨_, rfl⟩ := ‹_ ∧ _ = (_ : Part)›)) <;> (try simp_all [Prod.ext_iff]) <;> (repeat' split) <;> (try simp_all))

@[simp] theorem Part.wonContention_frame (p : Part) : (Part.wonContention p).cfg = p.cfg ∧ (Part.wonContention
p).trunkFramer = p.trunkFramer ∧ (Part.wonContention p).labelFramer = p.labelFramer ∧ (Part.wonContention p).guestFramer
= p.guestFramer ∧ (Part.wonContention p).links = p.links ∧ (Part.wonContention p).fwd = p.fwd ∧ (Part.wonContention
p).call = p.call ∧ (Part.wonContention p).pres = p.pres ∧ (Part.wonContention p).price = p.price ∧ (Part.wonContention
p).till = p.till ∧ (Part.wonContention p).jrn = p.jrn ∧ (Part.wonContention p).lab = p.lab ∧ (Part.wonContention p).gst
= p.gst ∧ (Part.wonContention p).trk = p.trk ∧ (Part.wonContention p).hdr = p.hdr ∧ (Part.wonContention p).memCtr =
p.memCtr ∧ (Part.wonContention p).asks = p.asks ∧ (Part.wonContention p).dram = p.dram ∧ (Part.wonContention p).written
= p.written := by
  unfold Part.wonContention; and_intros <;> (repeat' split) <;> simp

@[simp] theorem Part.frameSent_frame (p : Part) : (Part.frameSent p).cfg = p.cfg ∧ (Part.frameSent p).trunkFramer =
p.trunkFramer ∧ (Part.frameSent p).labelFramer = p.labelFramer ∧ (Part.frameSent p).guestFramer = p.guestFramer ∧
(Part.frameSent p).till = p.till ∧ (Part.frameSent p).gst = p.gst ∧ (Part.frameSent p).memCtr = p.memCtr ∧
(Part.frameSent p).written = p.written := by
  unfold Part.frameSent; and_intros <;> (repeat' split) <;> simp

@[simp] theorem Part.raiseCollisions_frame (c : Cls) (p : Part) : (Part.raiseCollisions c p).cfg = p.cfg ∧
(Part.raiseCollisions c p).branch = p.branch ∧ (Part.raiseCollisions c p).trunkFramer = p.trunkFramer ∧
(Part.raiseCollisions c p).labelFramer = p.labelFramer ∧ (Part.raiseCollisions c p).guestFramer = p.guestFramer ∧
(Part.raiseCollisions c p).links = p.links ∧ (Part.raiseCollisions c p).call = p.call ∧ (Part.raiseCollisions c p).pres
= p.pres ∧ (Part.raiseCollisions c p).price = p.price ∧ (Part.raiseCollisions c p).till = p.till ∧ (Part.raiseCollisions
c p).jrn = p.jrn ∧ (Part.raiseCollisions c p).lab = p.lab ∧ (Part.raiseCollisions c p).gst = p.gst ∧
(Part.raiseCollisions c p).trk = p.trk ∧ (Part.raiseCollisions c p).hdr = p.hdr ∧ (Part.raiseCollisions c p).memCtr =
p.memCtr ∧ (Part.raiseCollisions c p).asks = p.asks ∧ (Part.raiseCollisions c p).dram = p.dram ∧ (Part.raiseCollisions c
p).written = p.written := by
  unfold Part.raiseCollisions; and_intros <;> (repeat' split) <;> simp

@[simp] theorem Part.collided_frame (c : Cls) (q : QFrame) (p : Part) : (Part.collided c q p).cfg = p.cfg ∧
(Part.collided c q p).trunkFramer = p.trunkFramer ∧ (Part.collided c q p).labelFramer = p.labelFramer ∧ (Part.collided c
q p).guestFramer = p.guestFramer ∧ (Part.collided c q p).till = p.till ∧ (Part.collided c q p).jrn = p.jrn ∧
(Part.collided c q p).gst = p.gst ∧ (Part.collided c q p).memCtr = p.memCtr ∧ (Part.collided c q p).written = p.written
:= by
  unfold Part.collided; and_intros <;> (repeat' split) <;> simp

@[simp] theorem Part.collision_frame (p : Part) : (Part.collision p).cfg = p.cfg ∧ (Part.collision p).trunkFramer =
p.trunkFramer ∧ (Part.collision p).labelFramer = p.labelFramer ∧ (Part.collision p).guestFramer = p.guestFramer ∧
(Part.collision p).till = p.till ∧ (Part.collision p).jrn = p.jrn ∧ (Part.collision p).gst = p.gst ∧ (Part.collision
p).memCtr = p.memCtr ∧ (Part.collision p).written = p.written := by
  unfold Part.collision; and_intros <;> (repeat' split) <;> simp

@[simp] theorem Part.underrun_frame (p : Part) : (Part.underrun p).cfg = p.cfg ∧ (Part.underrun p).trunkFramer =
p.trunkFramer ∧ (Part.underrun p).labelFramer = p.labelFramer ∧ (Part.underrun p).guestFramer = p.guestFramer ∧
(Part.underrun p).pres = p.pres ∧ (Part.underrun p).till = p.till ∧ (Part.underrun p).jrn = p.jrn ∧ (Part.underrun
p).lab = p.lab ∧ (Part.underrun p).gst = p.gst ∧ (Part.underrun p).hdr = p.hdr ∧ (Part.underrun p).memCtr = p.memCtr ∧
(Part.underrun p).written = p.written := by
  unfold Part.underrun; and_intros <;> (repeat' split) <;> simp

@[simp] theorem Part.turnExpiry_frame (p : Part) : (Part.turnExpiry p).cfg = p.cfg ∧ (Part.turnExpiry p).trunkFramer =
p.trunkFramer ∧ (Part.turnExpiry p).labelFramer = p.labelFramer ∧ (Part.turnExpiry p).guestFramer = p.guestFramer ∧
(Part.turnExpiry p).pres = p.pres ∧ (Part.turnExpiry p).till = p.till ∧ (Part.turnExpiry p).jrn = p.jrn ∧
(Part.turnExpiry p).lab = p.lab ∧ (Part.turnExpiry p).gst = p.gst ∧ (Part.turnExpiry p).hdr = p.hdr ∧ (Part.turnExpiry
p).memCtr = p.memCtr ∧ (Part.turnExpiry p).written = p.written := by
  unfold Part.turnExpiry; and_intros <;> (repeat' split) <;> simp

@[simp] theorem Part.startBit_frame (l : Line) (p : Part) : (Part.startBit l p).cfg = p.cfg ∧ (Part.startBit l
p).trunkFramer = p.trunkFramer ∧ (Part.startBit l p).labelFramer = p.labelFramer ∧ (Part.startBit l p).guestFramer =
p.guestFramer ∧ (Part.startBit l p).links = p.links ∧ (Part.startBit l p).fwd = p.fwd ∧ (Part.startBit l p).call =
p.call ∧ (Part.startBit l p).pres = p.pres ∧ (Part.startBit l p).price = p.price ∧ (Part.startBit l p).till = p.till ∧
(Part.startBit l p).jrn = p.jrn ∧ (Part.startBit l p).lab = p.lab ∧ (Part.startBit l p).gst = p.gst ∧ (Part.startBit l
p).trk = p.trk ∧ (Part.startBit l p).hdr = p.hdr ∧ (Part.startBit l p).memCtr = p.memCtr ∧ (Part.startBit l p).asks =
p.asks ∧ (Part.startBit l p).dram = p.dram ∧ (Part.startBit l p).written = p.written := by
  unfold Part.startBit; and_intros <;> (repeat' split) <;> simp

@[simp] theorem Part.beginRx_frame (l : Line) (p : Part) : (Part.beginRx l p).cfg = p.cfg ∧ (Part.beginRx l p).links =
p.links ∧ (Part.beginRx l p).fwd = p.fwd ∧ (Part.beginRx l p).call = p.call ∧ (Part.beginRx l p).pres = p.pres ∧
(Part.beginRx l p).price = p.price ∧ (Part.beginRx l p).till = p.till ∧ (Part.beginRx l p).jrn = p.jrn ∧ (Part.beginRx l
p).lab = p.lab ∧ (Part.beginRx l p).gst = p.gst ∧ (Part.beginRx l p).trk = p.trk ∧ (Part.beginRx l p).hdr = p.hdr ∧
(Part.beginRx l p).memCtr = p.memCtr ∧ (Part.beginRx l p).asks = p.asks ∧ (Part.beginRx l p).dram = p.dram ∧
(Part.beginRx l p).written = p.written := by
  unfold Part.beginRx; refine ⟨?_,?_,?_,?_,?_,?_,?_,?_,?_,?_,?_,?_,?_,?_,?_,?_⟩ <;> ((try dsimp only); (repeat' split) <;> (try simp_all [Prod.ext_iff]) <;> (try (obtain ⟨_, rfl⟩ := ‹_ ∧ _ = (_ : Part)›)) <;> (try simp_all [Prod.ext_iff]) <;> (repeat' split) <;> (try (obtain ⟨_, rfl⟩ := ‹_ ∧ _ = (_ : Part)›)) <;> (try simp_all [Prod.ext_iff]) <;> (repeat' split) <;> (try simp_all))

@[simp] theorem Part.dropFilling_frame (b : Option Buf) (p : Part) : (Part.dropFilling b p).cfg = p.cfg ∧
(Part.dropFilling b p).branch = p.branch ∧ (Part.dropFilling b p).trunkFramer = p.trunkFramer ∧ (Part.dropFilling b
p).labelFramer = p.labelFramer ∧ (Part.dropFilling b p).guestFramer = p.guestFramer ∧ (Part.dropFilling b p).links =
p.links ∧ (Part.dropFilling b p).call = p.call ∧ (Part.dropFilling b p).pres = p.pres ∧ (Part.dropFilling b p).price =
p.price ∧ (Part.dropFilling b p).till = p.till ∧ (Part.dropFilling b p).jrn = p.jrn ∧ (Part.dropFilling b p).lab = p.lab
∧ (Part.dropFilling b p).gst = p.gst ∧ (Part.dropFilling b p).trk = p.trk ∧ (Part.dropFilling b p).hdr = p.hdr ∧
(Part.dropFilling b p).memCtr = p.memCtr ∧ (Part.dropFilling b p).asks = p.asks ∧ (Part.dropFilling b p).dram = p.dram ∧
(Part.dropFilling b p).written = p.written := by
  unfold Part.dropFilling; and_intros <;> (repeat' split) <;> simp

@[simp] theorem Part.bufferWhole_frame (b : Buf) (p : Part) : (Part.bufferWhole b p).cfg = p.cfg ∧ (Part.bufferWhole b
p).branch = p.branch ∧ (Part.bufferWhole b p).trunkFramer = p.trunkFramer ∧ (Part.bufferWhole b p).labelFramer =
p.labelFramer ∧ (Part.bufferWhole b p).guestFramer = p.guestFramer ∧ (Part.bufferWhole b p).links = p.links ∧
(Part.bufferWhole b p).call = p.call ∧ (Part.bufferWhole b p).pres = p.pres ∧ (Part.bufferWhole b p).till = p.till ∧
(Part.bufferWhole b p).jrn = p.jrn ∧ (Part.bufferWhole b p).lab = p.lab ∧ (Part.bufferWhole b p).gst = p.gst ∧
(Part.bufferWhole b p).trk = p.trk ∧ (Part.bufferWhole b p).hdr = p.hdr ∧ (Part.bufferWhole b p).memCtr = p.memCtr ∧
(Part.bufferWhole b p).asks = p.asks ∧ (Part.bufferWhole b p).dram = p.dram ∧ (Part.bufferWhole b p).written = p.written
:= by
  unfold Part.bufferWhole; and_intros <;> (repeat' split) <;> simp

@[simp] theorem Part.drainEmpty_frame (l : Line) (x1 : Nat) (x2 : Part) : (Part.drainEmpty l x1 x2).cfg = x2.cfg ∧
(Part.drainEmpty l x1 x2).links = x2.links ∧ (Part.drainEmpty l x1 x2).call = x2.call ∧ (Part.drainEmpty l x1 x2).pres =
x2.pres ∧ (Part.drainEmpty l x1 x2).till = x2.till ∧ (Part.drainEmpty l x1 x2).jrn = x2.jrn ∧ (Part.drainEmpty l x1
x2).lab = x2.lab ∧ (Part.drainEmpty l x1 x2).gst = x2.gst ∧ (Part.drainEmpty l x1 x2).trk = x2.trk ∧ (Part.drainEmpty l
x1 x2).hdr = x2.hdr ∧ (Part.drainEmpty l x1 x2).memCtr = x2.memCtr ∧ (Part.drainEmpty l x1 x2).asks = x2.asks ∧
(Part.drainEmpty l x1 x2).dram = x2.dram ∧ (Part.drainEmpty l x1 x2).written = x2.written := by
  induction x1 generalizing x2 with
  | zero => simp [Part.drainEmpty]
  | succ n ih => unfold Part.drainEmpty; refine ⟨?_,?_,?_,?_,?_,?_,?_,?_,?_,?_,?_,?_,?_,?_⟩ <;> ((try dsimp only); (repeat' split) <;> (try simp_all [Prod.ext_iff]) <;> (try (obtain ⟨_, rfl⟩ := ‹_ ∧ _ = (_ : Part)›)) <;> (try simp_all [Prod.ext_iff]) <;> (repeat' split) <;> (try (obtain ⟨_, rfl⟩ := ‹_ ∧ _ = (_ : Part)›)) <;> (try simp_all [Prod.ext_iff]) <;> (repeat' split) <;> (try simp_all))

@[simp] theorem Part.kickWrite_frame (l : Line) (p : Part) : (Part.kickWrite l p).cfg = p.cfg ∧ (Part.kickWrite l
p).links = p.links ∧ (Part.kickWrite l p).fwd = p.fwd ∧ (Part.kickWrite l p).call = p.call ∧ (Part.kickWrite l p).pres =
p.pres ∧ (Part.kickWrite l p).price = p.price ∧ (Part.kickWrite l p).till = p.till ∧ (Part.kickWrite l p).jrn = p.jrn ∧
(Part.kickWrite l p).lab = p.lab ∧ (Part.kickWrite l p).gst = p.gst ∧ (Part.kickWrite l p).trk = p.trk ∧ (Part.kickWrite
l p).hdr = p.hdr ∧ (Part.kickWrite l p).memCtr = p.memCtr ∧ (Part.kickWrite l p).dram = p.dram ∧ (Part.kickWrite l
p).written = p.written := by
  unfold Part.kickWrite; refine ⟨?_,?_,?_,?_,?_,?_,?_,?_,?_,?_,?_,?_,?_,?_,?_⟩ <;> ((try dsimp only); (repeat' split) <;> (try simp_all [Prod.ext_iff]) <;> (try (obtain ⟨_, rfl⟩ := ‹_ ∧ _ = (_ : Part)›)) <;> (try simp_all [Prod.ext_iff]) <;> (repeat' split) <;> (try (obtain ⟨_, rfl⟩ := ‹_ ∧ _ = (_ : Part)›)) <;> (try simp_all [Prod.ext_iff]) <;> (repeat' split) <;> (try simp_all))

@[simp] theorem Part.drain_frame (l : Line) (p : Part) : (Part.drain l p).cfg = p.cfg ∧ (Part.drain l p).links = p.links
∧ (Part.drain l p).call = p.call ∧ (Part.drain l p).pres = p.pres ∧ (Part.drain l p).till = p.till ∧ (Part.drain l
p).jrn = p.jrn ∧ (Part.drain l p).lab = p.lab ∧ (Part.drain l p).gst = p.gst ∧ (Part.drain l p).trk = p.trk ∧
(Part.drain l p).hdr = p.hdr ∧ (Part.drain l p).memCtr = p.memCtr ∧ (Part.drain l p).dram = p.dram ∧ (Part.drain l
p).written = p.written := by
  unfold Part.drain; refine ⟨?_,?_,?_,?_,?_,?_,?_,?_,?_,?_,?_,?_,?_⟩ <;> ((try dsimp only); (repeat' split) <;> (try simp_all [Prod.ext_iff]) <;> (try (obtain ⟨_, rfl⟩ := ‹_ ∧ _ = (_ : Part)›)) <;> (try simp_all [Prod.ext_iff]) <;> (repeat' split) <;> (try (obtain ⟨_, rfl⟩ := ‹_ ∧ _ = (_ : Part)›)) <;> (try simp_all [Prod.ext_iff]) <;> (repeat' split) <;> (try simp_all))

@[simp] theorem Part.rxWriteBurst_frame (l : Line) (p : Part) : (Part.rxWriteBurst l p).cfg = p.cfg ∧ (Part.rxWriteBurst
l p).links = p.links ∧ (Part.rxWriteBurst l p).call = p.call ∧ (Part.rxWriteBurst l p).pres = p.pres ∧
(Part.rxWriteBurst l p).till = p.till ∧ (Part.rxWriteBurst l p).jrn = p.jrn ∧ (Part.rxWriteBurst l p).lab = p.lab ∧
(Part.rxWriteBurst l p).gst = p.gst ∧ (Part.rxWriteBurst l p).trk = p.trk ∧ (Part.rxWriteBurst l p).hdr = p.hdr ∧
(Part.rxWriteBurst l p).memCtr = p.memCtr := by
  unfold Part.rxWriteBurst; dsimp only; and_intros <;> (repeat' split) <;> simp_all [Prod.ext_iff]

@[simp] theorem Part.setRx_frame (l : Line) (r : RxFrame) (p : Part) : (Part.setRx l r p).cfg = p.cfg ∧ (Part.setRx l r
p).links = p.links ∧ (Part.setRx l r p).fwd = p.fwd ∧ (Part.setRx l r p).call = p.call ∧ (Part.setRx l r p).pres =
p.pres ∧ (Part.setRx l r p).price = p.price ∧ (Part.setRx l r p).till = p.till ∧ (Part.setRx l r p).jrn = p.jrn ∧
(Part.setRx l r p).lab = p.lab ∧ (Part.setRx l r p).gst = p.gst ∧ (Part.setRx l r p).trk = p.trk ∧ (Part.setRx l r
p).hdr = p.hdr ∧ (Part.setRx l r p).memCtr = p.memCtr ∧ (Part.setRx l r p).asks = p.asks ∧ (Part.setRx l r p).dram =
p.dram ∧ (Part.setRx l r p).written = p.written := by
  unfold Part.setRx; refine ⟨?_,?_,?_,?_,?_,?_,?_,?_,?_,?_,?_,?_,?_,?_,?_,?_⟩ <;> ((try dsimp only); (repeat' split) <;> (try simp_all [Prod.ext_iff]) <;> (try (obtain ⟨_, rfl⟩ := ‹_ ∧ _ = (_ : Part)›)) <;> (try simp_all [Prod.ext_iff]) <;> (repeat' split) <;> (try (obtain ⟨_, rfl⟩ := ‹_ ∧ _ = (_ : Part)›)) <;> (try simp_all [Prod.ext_iff]) <;> (repeat' split) <;> (try simp_all))

@[simp] theorem Part.askRxBuffer_frame (l : Line) (r : RxFrame) (p : Part) : (Part.askRxBuffer l r p).cfg = p.cfg ∧
(Part.askRxBuffer l r p).links = p.links ∧ (Part.askRxBuffer l r p).call = p.call ∧ (Part.askRxBuffer l r p).pres =
p.pres ∧ (Part.askRxBuffer l r p).price = p.price ∧ (Part.askRxBuffer l r p).till = p.till ∧ (Part.askRxBuffer l r
p).jrn = p.jrn ∧ (Part.askRxBuffer l r p).lab = p.lab ∧ (Part.askRxBuffer l r p).gst = p.gst ∧ (Part.askRxBuffer l r
p).trk = p.trk ∧ (Part.askRxBuffer l r p).hdr = p.hdr ∧ (Part.askRxBuffer l r p).memCtr = p.memCtr ∧ (Part.askRxBuffer l
r p).asks = p.asks ∧ (Part.askRxBuffer l r p).dram = p.dram ∧ (Part.askRxBuffer l r p).written = p.written := by
  unfold Part.askRxBuffer; refine ⟨?_,?_,?_,?_,?_,?_,?_,?_,?_,?_,?_,?_,?_,?_,?_⟩ <;> ((try dsimp only); (repeat' split) <;> (try simp_all [Prod.ext_iff]) <;> (try (obtain ⟨_, rfl⟩ := ‹_ ∧ _ = (_ : Part)›)) <;> (try simp_all [Prod.ext_iff]) <;> (repeat' split) <;> (try (obtain ⟨_, rfl⟩ := ‹_ ∧ _ = (_ : Part)›)) <;> (try simp_all [Prod.ext_iff]) <;> (repeat' split) <;> (try simp_all))

@[simp] theorem Part.overrun_frame (l : Line) (r : RxFrame) (p : Part) : (Part.overrun l r p).cfg = p.cfg ∧
(Part.overrun l r p).links = p.links ∧ (Part.overrun l r p).fwd = p.fwd ∧ (Part.overrun l r p).call = p.call ∧
(Part.overrun l r p).pres = p.pres ∧ (Part.overrun l r p).price = p.price ∧ (Part.overrun l r p).till = p.till ∧
(Part.overrun l r p).jrn = p.jrn ∧ (Part.overrun l r p).lab = p.lab ∧ (Part.overrun l r p).gst = p.gst ∧ (Part.overrun l
r p).trk = p.trk ∧ (Part.overrun l r p).hdr = p.hdr ∧ (Part.overrun l r p).memCtr = p.memCtr ∧ (Part.overrun l r p).asks
= p.asks ∧ (Part.overrun l r p).dram = p.dram ∧ (Part.overrun l r p).written = p.written := by
  unfold Part.overrun; refine ⟨?_,?_,?_,?_,?_,?_,?_,?_,?_,?_,?_,?_,?_,?_,?_,?_⟩ <;> ((try dsimp only); (repeat' split) <;> (try simp_all [Prod.ext_iff]) <;> (try (obtain ⟨_, rfl⟩ := ‹_ ∧ _ = (_ : Part)›)) <;> (try simp_all [Prod.ext_iff]) <;> (repeat' split) <;> (try (obtain ⟨_, rfl⟩ := ‹_ ∧ _ = (_ : Part)›)) <;> (try simp_all [Prod.ext_iff]) <;> (repeat' split) <;> (try simp_all))

@[simp] theorem Part.bodyByte_frame (l : Line) (i : Nat) (b : Byte) (p : Part) : (Part.bodyByte l i b p).cfg = p.cfg ∧
(Part.bodyByte l i b p).links = p.links ∧ (Part.bodyByte l i b p).call = p.call ∧ (Part.bodyByte l i b p).pres = p.pres
∧ (Part.bodyByte l i b p).price = p.price ∧ (Part.bodyByte l i b p).till = p.till ∧ (Part.bodyByte l i b p).jrn = p.jrn
∧ (Part.bodyByte l i b p).lab = p.lab ∧ (Part.bodyByte l i b p).gst = p.gst ∧ (Part.bodyByte l i b p).trk = p.trk ∧
(Part.bodyByte l i b p).hdr = p.hdr ∧ (Part.bodyByte l i b p).memCtr = p.memCtr ∧ (Part.bodyByte l i b p).asks = p.asks
∧ (Part.bodyByte l i b p).dram = p.dram ∧ (Part.bodyByte l i b p).written = p.written := by
  unfold Part.bodyByte; refine ⟨?_,?_,?_,?_,?_,?_,?_,?_,?_,?_,?_,?_,?_,?_,?_⟩ <;> ((try dsimp only); (repeat' split) <;> (try simp_all [Prod.ext_iff]) <;> (try (obtain ⟨_, rfl⟩ := ‹_ ∧ _ = (_ : Part)›)) <;> (try simp_all [Prod.ext_iff]) <;> (repeat' split) <;> (try (obtain ⟨_, rfl⟩ := ‹_ ∧ _ = (_ : Part)›)) <;> (try simp_all [Prod.ext_iff]) <;> (repeat' split) <;> (try simp_all))

@[simp] theorem Part.bodyBytes_frame (l : Line) (x1 : Nat) (x2 : Bytes) (x3 : Part) : (Part.bodyBytes l x1 x2 x3).cfg =
x3.cfg ∧ (Part.bodyBytes l x1 x2 x3).links = x3.links ∧ (Part.bodyBytes l x1 x2 x3).call = x3.call ∧ (Part.bodyBytes l
x1 x2 x3).pres = x3.pres ∧ (Part.bodyBytes l x1 x2 x3).price = x3.price ∧ (Part.bodyBytes l x1 x2 x3).till = x3.till ∧
(Part.bodyBytes l x1 x2 x3).jrn = x3.jrn ∧ (Part.bodyBytes l x1 x2 x3).lab = x3.lab ∧ (Part.bodyBytes l x1 x2 x3).gst =
x3.gst ∧ (Part.bodyBytes l x1 x2 x3).trk = x3.trk ∧ (Part.bodyBytes l x1 x2 x3).hdr = x3.hdr ∧ (Part.bodyBytes l x1 x2
x3).memCtr = x3.memCtr ∧ (Part.bodyBytes l x1 x2 x3).asks = x3.asks ∧ (Part.bodyBytes l x1 x2 x3).dram = x3.dram ∧
(Part.bodyBytes l x1 x2 x3).written = x3.written := by
  induction x2 generalizing x3 x1 with
  | nil => simp [Part.bodyBytes]
  | cons r rs ih => unfold Part.bodyBytes; refine ⟨?_,?_,?_,?_,?_,?_,?_,?_,?_,?_,?_,?_,?_,?_,?_⟩ <;> ((try dsimp only); (repeat' split) <;> (try simp_all [Prod.ext_iff]) <;> (try (obtain ⟨_, rfl⟩ := ‹_ ∧ _ = (_ : Part)›)) <;> (try simp_all [Prod.ext_iff]) <;> (repeat' split) <;> (try (obtain ⟨_, rfl⟩ := ‹_ ∧ _ = (_ : Part)›)) <;> (try simp_all [Prod.ext_iff]) <;> (repeat' split) <;> (try simp_all))

@[simp] theorem Part.countGap_frame (l : Line) (bits : List Bool) (p : Part) : (Part.countGap l bits p).cfg = p.cfg ∧
(Part.countGap l bits p).trunkFramer = p.trunkFramer ∧ (Part.countGap l bits p).labelFramer = p.labelFramer ∧
(Part.countGap l bits p).guestFramer = p.guestFramer ∧ (Part.countGap l bits p).links = p.links ∧ (Part.countGap l bits
p).fwd = p.fwd ∧ (Part.countGap l bits p).call = p.call ∧ (Part.countGap l bits p).pres = p.pres ∧ (Part.countGap l bits
p).price = p.price ∧ (Part.countGap l bits p).till = p.till ∧ (Part.countGap l bits p).jrn = p.jrn ∧ (Part.countGap l
bits p).lab = p.lab ∧ (Part.countGap l bits p).gst = p.gst ∧ (Part.countGap l bits p).trk = p.trk ∧ (Part.countGap l
bits p).hdr = p.hdr ∧ (Part.countGap l bits p).memCtr = p.memCtr ∧ (Part.countGap l bits p).asks = p.asks ∧
(Part.countGap l bits p).dram = p.dram ∧ (Part.countGap l bits p).written = p.written := by
  unfold Part.countGap; refine ⟨?_,?_,?_,?_,?_,?_,?_,?_,?_,?_,?_,?_,?_,?_,?_,?_,?_,?_,?_⟩ <;> ((try dsimp only); (repeat' split) <;> (try simp_all [Prod.ext_iff]) <;> (try (obtain ⟨_, rfl⟩ := ‹_ ∧ _ = (_ : Part)›)) <;> (try simp_all [Prod.ext_iff]) <;> (repeat' split) <;> (try (obtain ⟨_, rfl⟩ := ‹_ ∧ _ = (_ : Part)›)) <;> (try simp_all [Prod.ext_iff]) <;> (repeat' split) <;> (try simp_all))

@[simp] theorem Part.readBits_frame (l : Line) (bits : List Bool) (p : Part) : (Part.readBits l bits p).cfg = p.cfg ∧
(Part.readBits l bits p).links = p.links ∧ (Part.readBits l bits p).call = p.call ∧ (Part.readBits l bits p).pres =
p.pres ∧ (Part.readBits l bits p).till = p.till ∧ (Part.readBits l bits p).jrn = p.jrn ∧ (Part.readBits l bits p).lab =
p.lab ∧ (Part.readBits l bits p).gst = p.gst ∧ (Part.readBits l bits p).trk = p.trk ∧ (Part.readBits l bits p).hdr =
p.hdr ∧ (Part.readBits l bits p).memCtr = p.memCtr ∧ (Part.readBits l bits p).dram = p.dram ∧ (Part.readBits l bits
p).written = p.written := by
  unfold Part.readBits; refine ⟨?_,?_,?_,?_,?_,?_,?_,?_,?_,?_,?_,?_,?_⟩ <;> ((try dsimp only); (repeat' split) <;> (try simp_all [Prod.ext_iff]) <;> (try (obtain ⟨_, rfl⟩ := ‹_ ∧ _ = (_ : Part)›)) <;> (try simp_all [Prod.ext_iff]) <;> (repeat' split) <;> (try (obtain ⟨_, rfl⟩ := ‹_ ∧ _ = (_ : Part)›)) <;> (try simp_all [Prod.ext_iff]) <;> (repeat' split) <;> (try simp_all))

@[simp] theorem Part.readFrame_frame (l : Line) (bits : List Bool) (p : Part) : (Part.readFrame l bits p).cfg = p.cfg ∧
(Part.readFrame l bits p).links = p.links ∧ (Part.readFrame l bits p).call = p.call ∧ (Part.readFrame l bits p).pres =
p.pres ∧ (Part.readFrame l bits p).till = p.till ∧ (Part.readFrame l bits p).jrn = p.jrn ∧ (Part.readFrame l bits p).lab
= p.lab ∧ (Part.readFrame l bits p).gst = p.gst ∧ (Part.readFrame l bits p).trk = p.trk ∧ (Part.readFrame l bits p).hdr
= p.hdr ∧ (Part.readFrame l bits p).memCtr = p.memCtr ∧ (Part.readFrame l bits p).dram = p.dram ∧ (Part.readFrame l bits
p).written = p.written := by
  unfold Part.readFrame; refine ⟨?_,?_,?_,?_,?_,?_,?_,?_,?_,?_,?_,?_,?_⟩ <;> ((try dsimp only); (repeat' split) <;> (try simp_all [Prod.ext_iff]) <;> (try (obtain ⟨_, rfl⟩ := ‹_ ∧ _ = (_ : Part)›)) <;> (try simp_all [Prod.ext_iff]) <;> (repeat' split) <;> (try (obtain ⟨_, rfl⟩ := ‹_ ∧ _ = (_ : Part)›)) <;> (try simp_all [Prod.ext_iff]) <;> (repeat' split) <;> (try simp_all))

@[simp] theorem Part.foreignStart_frame (p : Part) : (Part.foreignStart p).cfg = p.cfg ∧ (Part.foreignStart p).links =
p.links ∧ (Part.foreignStart p).call = p.call ∧ (Part.foreignStart p).pres = p.pres ∧ (Part.foreignStart p).till =
p.till ∧ (Part.foreignStart p).jrn = p.jrn ∧ (Part.foreignStart p).lab = p.lab ∧ (Part.foreignStart p).gst = p.gst ∧
(Part.foreignStart p).trk = p.trk ∧ (Part.foreignStart p).hdr = p.hdr ∧ (Part.foreignStart p).memCtr = p.memCtr ∧
(Part.foreignStart p).dram = p.dram ∧ (Part.foreignStart p).written = p.written := by
  unfold Part.foreignStart; refine ⟨?_,?_,?_,?_,?_,?_,?_,?_,?_,?_,?_,?_,?_⟩ <;> ((try dsimp only); (repeat' split) <;> (try simp_all [Prod.ext_iff]) <;> (try (obtain ⟨_, rfl⟩ := ‹_ ∧ _ = (_ : Part)›)) <;> (try simp_all [Prod.ext_iff]) <;> (repeat' split) <;> (try (obtain ⟨_, rfl⟩ := ‹_ ∧ _ = (_ : Part)›)) <;> (try simp_all [Prod.ext_iff]) <;> (repeat' split) <;> (try simp_all))

@[simp] theorem Part.kindByte_frame (l : Line) (bits : List Bool) (p : Part) : (Part.kindByte l bits p).cfg = p.cfg ∧
(Part.kindByte l bits p).links = p.links ∧ (Part.kindByte l bits p).call = p.call ∧ (Part.kindByte l bits p).pres =
p.pres ∧ (Part.kindByte l bits p).till = p.till ∧ (Part.kindByte l bits p).jrn = p.jrn ∧ (Part.kindByte l bits p).lab =
p.lab ∧ (Part.kindByte l bits p).gst = p.gst ∧ (Part.kindByte l bits p).trk = p.trk ∧ (Part.kindByte l bits p).hdr =
p.hdr ∧ (Part.kindByte l bits p).memCtr = p.memCtr ∧ (Part.kindByte l bits p).dram = p.dram ∧ (Part.kindByte l bits
p).written = p.written := by
  unfold Part.kindByte Part.stillArriving; and_intros <;> (repeat' split) <;> simp

@[simp] theorem Part.noBuffer_frame (l : Line) (p : Part) : (Part.noBuffer l p).cfg = p.cfg ∧ (Part.noBuffer l p).links
= p.links ∧ (Part.noBuffer l p).fwd = p.fwd ∧ (Part.noBuffer l p).call = p.call ∧ (Part.noBuffer l p).pres = p.pres ∧
(Part.noBuffer l p).price = p.price ∧ (Part.noBuffer l p).till = p.till ∧ (Part.noBuffer l p).jrn = p.jrn ∧
(Part.noBuffer l p).lab = p.lab ∧ (Part.noBuffer l p).trk = p.trk ∧ (Part.noBuffer l p).hdr = p.hdr ∧ (Part.noBuffer l
p).memCtr = p.memCtr ∧ (Part.noBuffer l p).asks = p.asks ∧ (Part.noBuffer l p).dram = p.dram ∧ (Part.noBuffer l
p).written = p.written := by
  cases l <;> (unfold Part.noBuffer; refine ⟨?_,?_,?_,?_,?_,?_,?_,?_,?_,?_,?_,?_,?_,?_,?_⟩ <;> ((try dsimp only); (repeat' split) <;> (try simp_all [Prod.ext_iff]) <;> (try (obtain ⟨_, rfl⟩ := ‹_ ∧ _ = (_ : Part)›)) <;> (try simp_all [Prod.ext_iff]) <;> (repeat' split) <;> (try (obtain ⟨_, rfl⟩ := ‹_ ∧ _ = (_ : Part)›)) <;> (try simp_all [Prod.ext_iff]) <;> (repeat' split) <;> (try simp_all)))

@[simp] theorem Part.lostTurn_frame (inTurn : Bool) (p : Part) : (Part.lostTurn inTurn p).cfg = p.cfg ∧ (Part.lostTurn
inTurn p).trunkFramer = p.trunkFramer ∧ (Part.lostTurn inTurn p).labelFramer = p.labelFramer ∧ (Part.lostTurn inTurn
p).guestFramer = p.guestFramer ∧ (Part.lostTurn inTurn p).pres = p.pres ∧ (Part.lostTurn inTurn p).till = p.till ∧
(Part.lostTurn inTurn p).jrn = p.jrn ∧ (Part.lostTurn inTurn p).lab = p.lab ∧ (Part.lostTurn inTurn p).gst = p.gst ∧
(Part.lostTurn inTurn p).hdr = p.hdr ∧ (Part.lostTurn inTurn p).memCtr = p.memCtr ∧ (Part.lostTurn inTurn p).written =
p.written := by
  unfold Part.lostTurn; and_intros <;> (repeat' split) <;> simp

@[simp] theorem Part.dropFrame_frame (l : Line) (r : RxFrame) (p : Part) : (Part.dropFrame l r p).cfg = p.cfg ∧
(Part.dropFrame l r p).links = p.links ∧ (Part.dropFrame l r p).call = p.call ∧ (Part.dropFrame l r p).pres = p.pres ∧
(Part.dropFrame l r p).till = p.till ∧ (Part.dropFrame l r p).jrn = p.jrn ∧ (Part.dropFrame l r p).lab = p.lab ∧
(Part.dropFrame l r p).gst = p.gst ∧ (Part.dropFrame l r p).trk = p.trk ∧ (Part.dropFrame l r p).hdr = p.hdr ∧
(Part.dropFrame l r p).memCtr = p.memCtr ∧ (Part.dropFrame l r p).dram = p.dram ∧ (Part.dropFrame l r p).written =
p.written := by
  unfold Part.dropFrame; refine ⟨?_,?_,?_,?_,?_,?_,?_,?_,?_,?_,?_,?_,?_⟩ <;> ((try dsimp only); (repeat' split) <;> (try simp_all [Prod.ext_iff]) <;> (try (obtain ⟨_, rfl⟩ := ‹_ ∧ _ = (_ : Part)›)) <;> (try simp_all [Prod.ext_iff]) <;> (repeat' split) <;> (try (obtain ⟨_, rfl⟩ := ‹_ ∧ _ = (_ : Part)›)) <;> (try simp_all [Prod.ext_iff]) <;> (repeat' split) <;> (try simp_all))

@[simp] theorem Part.keepFrame_frame (l : Line) (b : Buf) (body : Bytes) (p : Part) : (Part.keepFrame l b body p).cfg =
p.cfg ∧ (Part.keepFrame l b body p).links = p.links ∧ (Part.keepFrame l b body p).call = p.call ∧ (Part.keepFrame l b
body p).pres = p.pres ∧ (Part.keepFrame l b body p).till = p.till ∧ (Part.keepFrame l b body p).jrn = p.jrn ∧
(Part.keepFrame l b body p).lab = p.lab ∧ (Part.keepFrame l b body p).gst = p.gst ∧ (Part.keepFrame l b body p).trk =
p.trk ∧ (Part.keepFrame l b body p).hdr = p.hdr ∧ (Part.keepFrame l b body p).memCtr = p.memCtr ∧ (Part.keepFrame l b
body p).dram = p.dram ∧ (Part.keepFrame l b body p).written = p.written := by
  unfold Part.keepFrame; refine ⟨?_,?_,?_,?_,?_,?_,?_,?_,?_,?_,?_,?_,?_⟩ <;> ((try dsimp only); (repeat' split) <;> (try simp_all [Prod.ext_iff]) <;> (try (obtain ⟨_, rfl⟩ := ‹_ ∧ _ = (_ : Part)›)) <;> (try simp_all [Prod.ext_iff]) <;> (repeat' split) <;> (try (obtain ⟨_, rfl⟩ := ‹_ ∧ _ = (_ : Part)›)) <;> (try simp_all [Prod.ext_iff]) <;> (repeat' split) <;> (try simp_all))

@[simp] theorem Part.endFrame_frame (l : Line) (r : RxFrame) (p : Part) : (Part.endFrame l r p).cfg = p.cfg ∧
(Part.endFrame l r p).till = p.till ∧ (Part.endFrame l r p).jrn = p.jrn ∧ (Part.endFrame l r p).lab = p.lab ∧
(Part.endFrame l r p).hdr = p.hdr ∧ (Part.endFrame l r p).memCtr = p.memCtr ∧ (Part.endFrame l r p).written = p.written
:= by
  unfold Part.endFrame; dsimp only; and_intros <;> (repeat' split) <;> simp_all [Prod.ext_iff]

@[simp] theorem Part.flagRead_frame (l : Line) (p : Part) : (Part.flagRead l p).cfg = p.cfg ∧ (Part.flagRead l
p).trunkFramer = p.trunkFramer ∧ (Part.flagRead l p).labelFramer = p.labelFramer ∧ (Part.flagRead l p).guestFramer =
p.guestFramer ∧ (Part.flagRead l p).links = p.links ∧ (Part.flagRead l p).fwd = p.fwd ∧ (Part.flagRead l p).call =
p.call ∧ (Part.flagRead l p).pres = p.pres ∧ (Part.flagRead l p).price = p.price ∧ (Part.flagRead l p).till = p.till ∧
(Part.flagRead l p).jrn = p.jrn ∧ (Part.flagRead l p).lab = p.lab ∧ (Part.flagRead l p).gst = p.gst ∧ (Part.flagRead l
p).trk = p.trk ∧ (Part.flagRead l p).hdr = p.hdr ∧ (Part.flagRead l p).memCtr = p.memCtr ∧ (Part.flagRead l p).asks =
p.asks ∧ (Part.flagRead l p).dram = p.dram ∧ (Part.flagRead l p).written = p.written := by
  unfold Part.flagRead; and_intros <;> (repeat' split) <;> simp

@[simp] theorem Part.clearRx_frame (l : Line) (p : Part) : (Part.clearRx l p).cfg = p.cfg ∧ (Part.clearRx l p).links =
p.links ∧ (Part.clearRx l p).fwd = p.fwd ∧ (Part.clearRx l p).call = p.call ∧ (Part.clearRx l p).pres = p.pres ∧
(Part.clearRx l p).price = p.price ∧ (Part.clearRx l p).till = p.till ∧ (Part.clearRx l p).jrn = p.jrn ∧ (Part.clearRx l
p).lab = p.lab ∧ (Part.clearRx l p).gst = p.gst ∧ (Part.clearRx l p).trk = p.trk ∧ (Part.clearRx l p).hdr = p.hdr ∧
(Part.clearRx l p).memCtr = p.memCtr ∧ (Part.clearRx l p).asks = p.asks ∧ (Part.clearRx l p).dram = p.dram ∧
(Part.clearRx l p).written = p.written := by
  unfold Part.clearRx; refine ⟨?_,?_,?_,?_,?_,?_,?_,?_,?_,?_,?_,?_,?_,?_,?_,?_⟩ <;> ((try dsimp only); (repeat' split) <;> (try simp_all [Prod.ext_iff]) <;> (try (obtain ⟨_, rfl⟩ := ‹_ ∧ _ = (_ : Part)›)) <;> (try simp_all [Prod.ext_iff]) <;> (repeat' split) <;> (try (obtain ⟨_, rfl⟩ := ‹_ ∧ _ = (_ : Part)›)) <;> (try simp_all [Prod.ext_iff]) <;> (repeat' split) <;> (try simp_all))

@[simp] theorem Part.received_frame (l : Line) (bits : List Bool) (p : Part) : (Part.received l bits p).cfg = p.cfg ∧
(Part.received l bits p).till = p.till ∧ (Part.received l bits p).jrn = p.jrn ∧ (Part.received l bits p).lab = p.lab ∧
(Part.received l bits p).hdr = p.hdr ∧ (Part.received l bits p).memCtr = p.memCtr ∧ (Part.received l bits p).written =
p.written := by
  unfold Part.received; refine ⟨?_,?_,?_,?_,?_,?_,?_⟩ <;> ((try dsimp only); (repeat' split) <;> (try simp_all [Prod.ext_iff]) <;> (try (obtain ⟨_, rfl⟩ := ‹_ ∧ _ = (_ : Part)›)) <;> (try simp_all [Prod.ext_iff]) <;> (repeat' split) <;> (try (obtain ⟨_, rfl⟩ := ‹_ ∧ _ = (_ : Part)›)) <;> (try simp_all [Prod.ext_iff]) <;> (repeat' split) <;> (try simp_all))

@[simp] theorem Part.abortFrame_frame (l : Line) (r : RxFrame) (p : Part) : (Part.abortFrame l r p).cfg = p.cfg ∧
(Part.abortFrame l r p).pres = p.pres ∧ (Part.abortFrame l r p).till = p.till ∧ (Part.abortFrame l r p).jrn = p.jrn ∧
(Part.abortFrame l r p).lab = p.lab ∧ (Part.abortFrame l r p).gst = p.gst ∧ (Part.abortFrame l r p).hdr = p.hdr ∧
(Part.abortFrame l r p).memCtr = p.memCtr ∧ (Part.abortFrame l r p).written = p.written := by
  unfold Part.abortFrame; refine ⟨?_,?_,?_,?_,?_,?_,?_,?_,?_⟩ <;> ((try dsimp only); (repeat' split) <;> (try simp_all [Prod.ext_iff]) <;> (try (obtain ⟨_, rfl⟩ := ‹_ ∧ _ = (_ : Part)›)) <;> (try simp_all [Prod.ext_iff]) <;> (repeat' split) <;> (try (obtain ⟨_, rfl⟩ := ‹_ ∧ _ = (_ : Part)›)) <;> (try simp_all [Prod.ext_iff]) <;> (repeat' split) <;> (try simp_all))

@[simp] theorem Part.aborted_frame (l : Line) (bits : List Bool) (p : Part) : (Part.aborted l bits p).cfg = p.cfg ∧
(Part.aborted l bits p).pres = p.pres ∧ (Part.aborted l bits p).till = p.till ∧ (Part.aborted l bits p).jrn = p.jrn ∧
(Part.aborted l bits p).lab = p.lab ∧ (Part.aborted l bits p).gst = p.gst ∧ (Part.aborted l bits p).hdr = p.hdr ∧
(Part.aborted l bits p).memCtr = p.memCtr ∧ (Part.aborted l bits p).written = p.written := by
  unfold Part.aborted; refine ⟨?_,?_,?_,?_,?_,?_,?_,?_,?_⟩ <;> ((try dsimp only); (repeat' split) <;> (try simp_all [Prod.ext_iff]) <;> (try (obtain ⟨_, rfl⟩ := ‹_ ∧ _ = (_ : Part)›)) <;> (try simp_all [Prod.ext_iff]) <;> (repeat' split) <;> (try (obtain ⟨_, rfl⟩ := ‹_ ∧ _ = (_ : Part)›)) <;> (try simp_all [Prod.ext_iff]) <;> (repeat' split) <;> (try simp_all))

@[simp] theorem Part.fifoOverrun_frame (l : Line) (p : Part) : (Part.fifoOverrun l p).cfg = p.cfg ∧ (Part.fifoOverrun l
p).links = p.links ∧ (Part.fifoOverrun l p).fwd = p.fwd ∧ (Part.fifoOverrun l p).call = p.call ∧ (Part.fifoOverrun l
p).pres = p.pres ∧ (Part.fifoOverrun l p).price = p.price ∧ (Part.fifoOverrun l p).till = p.till ∧ (Part.fifoOverrun l
p).jrn = p.jrn ∧ (Part.fifoOverrun l p).lab = p.lab ∧ (Part.fifoOverrun l p).gst = p.gst ∧ (Part.fifoOverrun l p).trk =
p.trk ∧ (Part.fifoOverrun l p).hdr = p.hdr ∧ (Part.fifoOverrun l p).memCtr = p.memCtr ∧ (Part.fifoOverrun l p).asks =
p.asks ∧ (Part.fifoOverrun l p).dram = p.dram ∧ (Part.fifoOverrun l p).written = p.written := by
  unfold Part.fifoOverrun; and_intros <;> (repeat' split) <;> simp

@[simp] theorem Part.sevenRecessive_frame (p : Part) : (Part.sevenRecessive p).cfg = p.cfg ∧ (Part.sevenRecessive
p).trunkFramer = p.trunkFramer ∧ (Part.sevenRecessive p).labelFramer = p.labelFramer ∧ (Part.sevenRecessive
p).guestFramer = p.guestFramer ∧ (Part.sevenRecessive p).links = p.links ∧ (Part.sevenRecessive p).fwd = p.fwd ∧
(Part.sevenRecessive p).call = p.call ∧ (Part.sevenRecessive p).pres = p.pres ∧ (Part.sevenRecessive p).price = p.price
∧ (Part.sevenRecessive p).till = p.till ∧ (Part.sevenRecessive p).jrn = p.jrn ∧ (Part.sevenRecessive p).lab = p.lab ∧
(Part.sevenRecessive p).gst = p.gst ∧ (Part.sevenRecessive p).trk = p.trk ∧ (Part.sevenRecessive p).hdr = p.hdr ∧
(Part.sevenRecessive p).memCtr = p.memCtr ∧ (Part.sevenRecessive p).asks = p.asks ∧ (Part.sevenRecessive p).dram =
p.dram ∧ (Part.sevenRecessive p).written = p.written := by
  unfold Part.sevenRecessive; and_intros <;> (repeat' split) <;> simp

@[simp] theorem Part.trunkFrameSent_frame (p : Part) : (Part.trunkFrameSent p).cfg = p.cfg ∧ (Part.trunkFrameSent
p).labelFramer = p.labelFramer ∧ (Part.trunkFrameSent p).guestFramer = p.guestFramer ∧ (Part.trunkFrameSent p).pres =
p.pres ∧ (Part.trunkFrameSent p).till = p.till ∧ (Part.trunkFrameSent p).jrn = p.jrn ∧ (Part.trunkFrameSent p).lab =
p.lab ∧ (Part.trunkFrameSent p).gst = p.gst ∧ (Part.trunkFrameSent p).hdr = p.hdr ∧ (Part.trunkFrameSent p).memCtr =
p.memCtr ∧ (Part.trunkFrameSent p).written = p.written := by
  unfold Part.trunkFrameSent; and_intros <;> (repeat' split) <;> simp

@[simp] theorem Part.labelFrameSent_frame (p : Part) : (Part.labelFrameSent p).cfg = p.cfg ∧ (Part.labelFrameSent
p).branch = p.branch ∧ (Part.labelFrameSent p).trunkFramer = p.trunkFramer ∧ (Part.labelFrameSent p).guestFramer =
p.guestFramer ∧ (Part.labelFrameSent p).call = p.call ∧ (Part.labelFrameSent p).pres = p.pres ∧ (Part.labelFrameSent
p).price = p.price ∧ (Part.labelFrameSent p).till = p.till ∧ (Part.labelFrameSent p).jrn = p.jrn ∧ (Part.labelFrameSent
p).gst = p.gst ∧ (Part.labelFrameSent p).trk = p.trk ∧ (Part.labelFrameSent p).hdr = p.hdr ∧ (Part.labelFrameSent
p).memCtr = p.memCtr ∧ (Part.labelFrameSent p).dram = p.dram ∧ (Part.labelFrameSent p).written = p.written := by
  unfold Part.labelFrameSent; and_intros <;> (repeat' split) <;> simp

@[simp] theorem Part.radioFrameSent_frame (p : Part) : (Part.radioFrameSent p).cfg = p.cfg ∧ (Part.radioFrameSent
p).branch = p.branch ∧ (Part.radioFrameSent p).trunkFramer = p.trunkFramer ∧ (Part.radioFrameSent p).labelFramer =
p.labelFramer ∧ (Part.radioFrameSent p).call = p.call ∧ (Part.radioFrameSent p).pres = p.pres ∧ (Part.radioFrameSent
p).price = p.price ∧ (Part.radioFrameSent p).till = p.till ∧ (Part.radioFrameSent p).jrn = p.jrn ∧ (Part.radioFrameSent
p).lab = p.lab ∧ (Part.radioFrameSent p).gst = p.gst ∧ (Part.radioFrameSent p).trk = p.trk ∧ (Part.radioFrameSent p).hdr
= p.hdr ∧ (Part.radioFrameSent p).memCtr = p.memCtr ∧ (Part.radioFrameSent p).dram = p.dram ∧ (Part.radioFrameSent
p).written = p.written := by
  unfold Part.radioFrameSent; and_intros <;> (repeat' split) <;> simp

@[simp] theorem Part.linkSent_frame (k : Link) (p : Part) : (Part.linkSent k p).cfg = p.cfg ∧ (Part.linkSent k p).pres =
p.pres ∧ (Part.linkSent k p).till = p.till ∧ (Part.linkSent k p).jrn = p.jrn ∧ (Part.linkSent k p).gst = p.gst ∧
(Part.linkSent k p).hdr = p.hdr ∧ (Part.linkSent k p).memCtr = p.memCtr ∧ (Part.linkSent k p).written = p.written := by
  unfold Part.linkSent; and_intros <;> (repeat' split) <;> simp

@[simp] theorem Part.sendAgain_frame (l : Line) (p : Part) : (Part.sendAgain l p).cfg = p.cfg ∧ (Part.sendAgain l
p).trunkFramer = p.trunkFramer ∧ (Part.sendAgain l p).labelFramer = p.labelFramer ∧ (Part.sendAgain l p).guestFramer =
p.guestFramer ∧ (Part.sendAgain l p).fwd = p.fwd ∧ (Part.sendAgain l p).call = p.call ∧ (Part.sendAgain l p).pres =
p.pres ∧ (Part.sendAgain l p).price = p.price ∧ (Part.sendAgain l p).till = p.till ∧ (Part.sendAgain l p).jrn = p.jrn ∧
(Part.sendAgain l p).lab = p.lab ∧ (Part.sendAgain l p).gst = p.gst ∧ (Part.sendAgain l p).trk = p.trk ∧ (Part.sendAgain
l p).hdr = p.hdr ∧ (Part.sendAgain l p).memCtr = p.memCtr ∧ (Part.sendAgain l p).dram = p.dram ∧ (Part.sendAgain l
p).written = p.written := by
  unfold Part.sendAgain; refine ⟨?_,?_,?_,?_,?_,?_,?_,?_,?_,?_,?_,?_,?_,?_,?_,?_,?_⟩ <;> ((try dsimp only); (repeat' split) <;> (try simp_all [Prod.ext_iff]) <;> (try (obtain ⟨_, rfl⟩ := ‹_ ∧ _ = (_ : Part)›)) <;> (try simp_all [Prod.ext_iff]) <;> (repeat' split) <;> (try (obtain ⟨_, rfl⟩ := ‹_ ∧ _ = (_ : Part)›)) <;> (try simp_all [Prod.ext_iff]) <;> (repeat' split) <;> (try simp_all))

@[simp] theorem Part.sendAgain_branch_links (p : Part) : (p.sendAgain .branch).links = p.links := by
  simp [Part.sendAgain]
@[simp] theorem Part.sendAgain_trunk_branch (p : Part) : (p.sendAgain .trunk).branch = p.branch := by
  simp [Part.sendAgain]
@[simp] theorem Part.sendAgain_label_branch (p : Part) : (p.sendAgain .label).branch = p.branch := by
  simp [Part.sendAgain]
@[simp] theorem Part.sendAgain_guest_branch (p : Part) : (p.sendAgain .guest).branch = p.branch := by
  simp [Part.sendAgain]

@[simp] theorem Part.trunkUnbegun_frame (p : Part) : (Part.trunkUnbegun p).cfg = p.cfg ∧ (Part.trunkUnbegun p).branch =
p.branch ∧ (Part.trunkUnbegun p).trunkFramer = p.trunkFramer ∧ (Part.trunkUnbegun p).labelFramer = p.labelFramer ∧
(Part.trunkUnbegun p).guestFramer = p.guestFramer ∧ (Part.trunkUnbegun p).call = p.call ∧ (Part.trunkUnbegun p).pres =
p.pres ∧ (Part.trunkUnbegun p).price = p.price ∧ (Part.trunkUnbegun p).till = p.till ∧ (Part.trunkUnbegun p).jrn = p.jrn
∧ (Part.trunkUnbegun p).lab = p.lab ∧ (Part.trunkUnbegun p).gst = p.gst ∧ (Part.trunkUnbegun p).trk = p.trk ∧
(Part.trunkUnbegun p).hdr = p.hdr ∧ (Part.trunkUnbegun p).memCtr = p.memCtr ∧ (Part.trunkUnbegun p).asks = p.asks ∧
(Part.trunkUnbegun p).dram = p.dram ∧ (Part.trunkUnbegun p).written = p.written := by
  unfold Part.trunkUnbegun; refine ⟨?_,?_,?_,?_,?_,?_,?_,?_,?_,?_,?_,?_,?_,?_,?_,?_,?_,?_⟩ <;> ((try dsimp only); (repeat' split) <;> (try simp_all [Prod.ext_iff]) <;> (try (obtain ⟨_, rfl⟩ := ‹_ ∧ _ = (_ : Part)›)) <;> (try simp_all [Prod.ext_iff]) <;> (repeat' split) <;> (try (obtain ⟨_, rfl⟩ := ‹_ ∧ _ = (_ : Part)›)) <;> (try simp_all [Prod.ext_iff]) <;> (repeat' split) <;> (try simp_all))

@[simp] theorem Part.linkUnderrun_frame (k : Link) (p : Part) : (Part.linkUnderrun k p).cfg = p.cfg ∧ (Part.linkUnderrun
k p).call = p.call ∧ (Part.linkUnderrun k p).pres = p.pres ∧ (Part.linkUnderrun k p).price = p.price ∧
(Part.linkUnderrun k p).till = p.till ∧ (Part.linkUnderrun k p).jrn = p.jrn ∧ (Part.linkUnderrun k p).lab = p.lab ∧
(Part.linkUnderrun k p).gst = p.gst ∧ (Part.linkUnderrun k p).trk = p.trk ∧ (Part.linkUnderrun k p).hdr = p.hdr ∧
(Part.linkUnderrun k p).memCtr = p.memCtr ∧ (Part.linkUnderrun k p).dram = p.dram ∧ (Part.linkUnderrun k p).written =
p.written := by
  unfold Part.linkUnderrun; and_intros <;> (repeat' split) <;> simp

@[simp] theorem Part.fillTrunk_frame (p : Part) : (Part.fillTrunk p).cfg = p.cfg ∧ (Part.fillTrunk p).branch = p.branch
∧ (Part.fillTrunk p).trunkFramer = p.trunkFramer ∧ (Part.fillTrunk p).labelFramer = p.labelFramer ∧ (Part.fillTrunk
p).guestFramer = p.guestFramer ∧ (Part.fillTrunk p).fwd = p.fwd ∧ (Part.fillTrunk p).call = p.call ∧ (Part.fillTrunk
p).pres = p.pres ∧ (Part.fillTrunk p).price = p.price ∧ (Part.fillTrunk p).till = p.till ∧ (Part.fillTrunk p).jrn =
p.jrn ∧ (Part.fillTrunk p).lab = p.lab ∧ (Part.fillTrunk p).gst = p.gst ∧ (Part.fillTrunk p).trk = p.trk ∧
(Part.fillTrunk p).hdr = p.hdr ∧ (Part.fillTrunk p).memCtr = p.memCtr ∧ (Part.fillTrunk p).asks = p.asks ∧
(Part.fillTrunk p).dram = p.dram ∧ (Part.fillTrunk p).written = p.written := by
  unfold Part.fillTrunk; refine ⟨?_,?_,?_,?_,?_,?_,?_,?_,?_,?_,?_,?_,?_,?_,?_,?_,?_,?_,?_⟩ <;> ((try dsimp only); (repeat' split) <;> (try simp_all [Prod.ext_iff]) <;> (try (obtain ⟨_, rfl⟩ := ‹_ ∧ _ = (_ : Part)›)) <;> (try simp_all [Prod.ext_iff]) <;> (repeat' split) <;> (try (obtain ⟨_, rfl⟩ := ‹_ ∧ _ = (_ : Part)›)) <;> (try simp_all [Prod.ext_iff]) <;> (repeat' split) <;> (try simp_all))

@[simp] theorem Part.tickSender_frame (l : Line) (p : Part) : (Part.tickSender l p).cfg = p.cfg ∧ (Part.tickSender l
p).trunkFramer = p.trunkFramer ∧ (Part.tickSender l p).labelFramer = p.labelFramer ∧ (Part.tickSender l p).guestFramer =
p.guestFramer ∧ (Part.tickSender l p).fwd = p.fwd ∧ (Part.tickSender l p).call = p.call ∧ (Part.tickSender l p).pres =
p.pres ∧ (Part.tickSender l p).price = p.price ∧ (Part.tickSender l p).till = p.till ∧ (Part.tickSender l p).jrn = p.jrn
∧ (Part.tickSender l p).lab = p.lab ∧ (Part.tickSender l p).gst = p.gst ∧ (Part.tickSender l p).trk = p.trk ∧
(Part.tickSender l p).hdr = p.hdr ∧ (Part.tickSender l p).memCtr = p.memCtr ∧ (Part.tickSender l p).dram = p.dram ∧
(Part.tickSender l p).written = p.written := by
  unfold Part.tickSender; refine ⟨?_,?_,?_,?_,?_,?_,?_,?_,?_,?_,?_,?_,?_,?_,?_,?_,?_⟩ <;> ((try dsimp only); (repeat' split) <;> (try simp_all [Prod.ext_iff]) <;> (try (obtain ⟨_, rfl⟩ := ‹_ ∧ _ = (_ : Part)›)) <;> (try simp_all [Prod.ext_iff]) <;> (repeat' split) <;> (try (obtain ⟨_, rfl⟩ := ‹_ ∧ _ = (_ : Part)›)) <;> (try simp_all [Prod.ext_iff]) <;> (repeat' split) <;> (try simp_all))

@[simp] theorem Part.tickSender_branch_links (p : Part) : (p.tickSender .branch).links = p.links := by
  simp [Part.tickSender]
@[simp] theorem Part.tickSender_trunk_branch (p : Part) : (p.tickSender .trunk).branch = p.branch := by
  simp [Part.tickSender]
@[simp] theorem Part.tickSender_label_branch (p : Part) : (p.tickSender .label).branch = p.branch := by
  simp [Part.tickSender]
@[simp] theorem Part.tickSender_guest_branch (p : Part) : (p.tickSender .guest).branch = p.branch := by
  simp [Part.tickSender]

@[simp] theorem Part.bitTime_frame (p : Part) : (Part.bitTime p).cfg = p.cfg ∧ (Part.bitTime p).trunkFramer =
p.trunkFramer ∧ (Part.bitTime p).labelFramer = p.labelFramer ∧ (Part.bitTime p).guestFramer = p.guestFramer ∧
(Part.bitTime p).fwd = p.fwd ∧ (Part.bitTime p).call = p.call ∧ (Part.bitTime p).pres = p.pres ∧ (Part.bitTime p).price
= p.price ∧ (Part.bitTime p).till = p.till ∧ (Part.bitTime p).jrn = p.jrn ∧ (Part.bitTime p).lab = p.lab ∧ (Part.bitTime
p).gst = p.gst ∧ (Part.bitTime p).trk = p.trk ∧ (Part.bitTime p).hdr = p.hdr ∧ (Part.bitTime p).memCtr = p.memCtr ∧
(Part.bitTime p).dram = p.dram ∧ (Part.bitTime p).written = p.written := by
  unfold Part.bitTime; refine ⟨?_,?_,?_,?_,?_,?_,?_,?_,?_,?_,?_,?_,?_,?_,?_,?_,?_⟩ <;> ((try dsimp only); (repeat' split) <;> (try simp_all [Prod.ext_iff]) <;> (try (obtain ⟨_, rfl⟩ := ‹_ ∧ _ = (_ : Part)›)) <;> (try simp_all [Prod.ext_iff]) <;> (repeat' split) <;> (try (obtain ⟨_, rfl⟩ := ‹_ ∧ _ = (_ : Part)›)) <;> (try simp_all [Prod.ext_iff]) <;> (repeat' split) <;> (try simp_all))

@[simp] theorem Part.scanFirst_frame (p : Part) : (Part.scanFirst p).cfg = p.cfg ∧ (Part.scanFirst p).branch = p.branch
∧ (Part.scanFirst p).trunkFramer = p.trunkFramer ∧ (Part.scanFirst p).labelFramer = p.labelFramer ∧ (Part.scanFirst
p).guestFramer = p.guestFramer ∧ (Part.scanFirst p).links = p.links ∧ (Part.scanFirst p).fwd = p.fwd ∧ (Part.scanFirst
p).call = p.call ∧ (Part.scanFirst p).pres = p.pres ∧ (Part.scanFirst p).price = p.price ∧ (Part.scanFirst p).till =
p.till ∧ (Part.scanFirst p).jrn = p.jrn ∧ (Part.scanFirst p).lab = p.lab ∧ (Part.scanFirst p).gst = p.gst ∧
(Part.scanFirst p).trk = p.trk ∧ (Part.scanFirst p).hdr = p.hdr ∧ (Part.scanFirst p).memCtr = p.memCtr ∧ (Part.scanFirst
p).dram = p.dram ∧ (Part.scanFirst p).written = p.written := by
  unfold Part.scanFirst; and_intros <;> (repeat' split) <;> simp

@[simp] theorem Part.storeBurst_frame (parts : List (Nat × Bytes)) (p : Part) : (Part.storeBurst parts p).cfg = p.cfg ∧
(Part.storeBurst parts p).branch = p.branch ∧ (Part.storeBurst parts p).trunkFramer = p.trunkFramer ∧ (Part.storeBurst
parts p).labelFramer = p.labelFramer ∧ (Part.storeBurst parts p).guestFramer = p.guestFramer ∧ (Part.storeBurst parts
p).links = p.links ∧ (Part.storeBurst parts p).fwd = p.fwd ∧ (Part.storeBurst parts p).call = p.call ∧ (Part.storeBurst
parts p).pres = p.pres ∧ (Part.storeBurst parts p).price = p.price ∧ (Part.storeBurst parts p).till = p.till ∧
(Part.storeBurst parts p).jrn = p.jrn ∧ (Part.storeBurst parts p).lab = p.lab ∧ (Part.storeBurst parts p).gst = p.gst ∧
(Part.storeBurst parts p).trk = p.trk ∧ (Part.storeBurst parts p).hdr = p.hdr ∧ (Part.storeBurst parts p).memCtr =
p.memCtr ∧ (Part.storeBurst parts p).asks = p.asks ∧ (Part.storeBurst parts p).dram = p.dram := by
  unfold Part.storeBurst; refine ⟨?_,?_,?_,?_,?_,?_,?_,?_,?_,?_,?_,?_,?_,?_,?_,?_,?_,?_,?_⟩ <;> ((try dsimp only); (repeat' split) <;> (try simp_all [Prod.ext_iff]) <;> (try (obtain ⟨_, rfl⟩ := ‹_ ∧ _ = (_ : Part)›)) <;> (try simp_all [Prod.ext_iff]) <;> (repeat' split) <;> (try (obtain ⟨_, rfl⟩ := ‹_ ∧ _ = (_ : Part)›)) <;> (try simp_all [Prod.ext_iff]) <;> (repeat' split) <;> (try simp_all))

@[simp] theorem Part.wipeBurst_frame (lo : Nat) (hi : Nat) (p : Part) : (Part.wipeBurst lo hi p).cfg = p.cfg ∧
(Part.wipeBurst lo hi p).branch = p.branch ∧ (Part.wipeBurst lo hi p).trunkFramer = p.trunkFramer ∧ (Part.wipeBurst lo
hi p).labelFramer = p.labelFramer ∧ (Part.wipeBurst lo hi p).guestFramer = p.guestFramer ∧ (Part.wipeBurst lo hi
p).links = p.links ∧ (Part.wipeBurst lo hi p).fwd = p.fwd ∧ (Part.wipeBurst lo hi p).call = p.call ∧ (Part.wipeBurst lo
hi p).pres = p.pres ∧ (Part.wipeBurst lo hi p).price = p.price ∧ (Part.wipeBurst lo hi p).till = p.till ∧
(Part.wipeBurst lo hi p).jrn = p.jrn ∧ (Part.wipeBurst lo hi p).lab = p.lab ∧ (Part.wipeBurst lo hi p).gst = p.gst ∧
(Part.wipeBurst lo hi p).trk = p.trk ∧ (Part.wipeBurst lo hi p).hdr = p.hdr ∧ (Part.wipeBurst lo hi p).memCtr = p.memCtr
∧ (Part.wipeBurst lo hi p).asks = p.asks ∧ (Part.wipeBurst lo hi p).dram = p.dram := by
  unfold Part.wipeBurst; refine ⟨?_,?_,?_,?_,?_,?_,?_,?_,?_,?_,?_,?_,?_,?_,?_,?_,?_,?_,?_⟩ <;> ((try dsimp only); (repeat' split) <;> (try simp_all [Prod.ext_iff]) <;> (try (obtain ⟨_, rfl⟩ := ‹_ ∧ _ = (_ : Part)›)) <;> (try simp_all [Prod.ext_iff]) <;> (repeat' split) <;> (try (obtain ⟨_, rfl⟩ := ‹_ ∧ _ = (_ : Part)›)) <;> (try simp_all [Prod.ext_iff]) <;> (repeat' split) <;> (try simp_all))

@[simp] theorem Part.burstEffect_frame (t : Tok) (p : Part) : (Part.burstEffect t p).cfg = p.cfg ∧ (Part.burstEffect t
p).pres = p.pres ∧ (Part.burstEffect t p).lab = p.lab ∧ (Part.burstEffect t p).trk = p.trk := by
  unfold Part.burstEffect; refine ⟨?_,?_,?_,?_⟩ <;> ((try dsimp only); (repeat' split) <;> (try simp_all [Prod.ext_iff]) <;> (try (obtain ⟨_, rfl⟩ := ‹_ ∧ _ = (_ : Part)›)) <;> (try simp_all [Prod.ext_iff]) <;> (repeat' split) <;> (try (obtain ⟨_, rfl⟩ := ‹_ ∧ _ = (_ : Part)›)) <;> (try simp_all [Prod.ext_iff]) <;> (repeat' split) <;> (try simp_all))

@[simp] theorem Part.finishBurst_frame (u : BurstUser) (t : Tok) (p : Part) : (Part.finishBurst u t p).cfg = p.cfg ∧
(Part.finishBurst u t p).pres = p.pres ∧ (Part.finishBurst u t p).lab = p.lab ∧ (Part.finishBurst u t p).trk = p.trk := by
  unfold Part.finishBurst; and_intros <;> (repeat' split) <;> simp

@[simp] theorem Grant.finish_frame (g : Grant) (p : Part) : (Grant.finish g p).cfg = p.cfg ∧ (Grant.finish g p).pres =
p.pres ∧ (Grant.finish g p).lab = p.lab ∧ (Grant.finish g p).trk = p.trk := by
  unfold Grant.finish; and_intros <;> (repeat' split) <;> simp

@[simp] theorem Part.stopReceiver_frame (l : Line) (p : Part) : (Part.stopReceiver l p).cfg = p.cfg ∧ (Part.stopReceiver
l p).links = p.links ∧ (Part.stopReceiver l p).call = p.call ∧ (Part.stopReceiver l p).pres = p.pres ∧
(Part.stopReceiver l p).price = p.price ∧ (Part.stopReceiver l p).till = p.till ∧ (Part.stopReceiver l p).jrn = p.jrn ∧
(Part.stopReceiver l p).lab = p.lab ∧ (Part.stopReceiver l p).gst = p.gst ∧ (Part.stopReceiver l p).trk = p.trk ∧
(Part.stopReceiver l p).hdr = p.hdr ∧ (Part.stopReceiver l p).memCtr = p.memCtr ∧ (Part.stopReceiver l p).asks = p.asks
∧ (Part.stopReceiver l p).dram = p.dram ∧ (Part.stopReceiver l p).written = p.written := by
  unfold Part.stopReceiver; and_intros <;> (repeat' split) <;> simp

@[simp] theorem Part.stopTransmitter_frame (p : Part) : (Part.stopTransmitter p).cfg = p.cfg ∧ (Part.stopTransmitter
p).trunkFramer = p.trunkFramer ∧ (Part.stopTransmitter p).labelFramer = p.labelFramer ∧ (Part.stopTransmitter
p).guestFramer = p.guestFramer ∧ (Part.stopTransmitter p).links = p.links ∧ (Part.stopTransmitter p).call = p.call ∧
(Part.stopTransmitter p).pres = p.pres ∧ (Part.stopTransmitter p).price = p.price ∧ (Part.stopTransmitter p).till =
p.till ∧ (Part.stopTransmitter p).jrn = p.jrn ∧ (Part.stopTransmitter p).lab = p.lab ∧ (Part.stopTransmitter p).gst =
p.gst ∧ (Part.stopTransmitter p).trk = p.trk ∧ (Part.stopTransmitter p).hdr = p.hdr ∧ (Part.stopTransmitter p).memCtr =
p.memCtr ∧ (Part.stopTransmitter p).asks = p.asks ∧ (Part.stopTransmitter p).dram = p.dram ∧ (Part.stopTransmitter
p).written = p.written := by
  unfold Part.stopTransmitter; and_intros <;> (repeat' split) <;> simp

@[simp] theorem Part.stopLinks_frame (p : Part) : (Part.stopLinks p).cfg = p.cfg ∧ (Part.stopLinks p).branch = p.branch
∧ (Part.stopLinks p).trunkFramer = p.trunkFramer ∧ (Part.stopLinks p).labelFramer = p.labelFramer ∧ (Part.stopLinks
p).guestFramer = p.guestFramer ∧ (Part.stopLinks p).call = p.call ∧ (Part.stopLinks p).pres = p.pres ∧ (Part.stopLinks
p).price = p.price ∧ (Part.stopLinks p).till = p.till ∧ (Part.stopLinks p).jrn = p.jrn ∧ (Part.stopLinks p).lab = p.lab
∧ (Part.stopLinks p).gst = p.gst ∧ (Part.stopLinks p).trk = p.trk ∧ (Part.stopLinks p).hdr = p.hdr ∧ (Part.stopLinks
p).memCtr = p.memCtr ∧ (Part.stopLinks p).asks = p.asks ∧ (Part.stopLinks p).dram = p.dram ∧ (Part.stopLinks p).written
= p.written := by
  unfold Part.stopLinks; and_intros <;> (repeat' split) <;> simp

@[simp] theorem Part.cutReplies_frame (p : Part) : (Part.cutReplies p).cfg = p.cfg ∧ (Part.cutReplies p).branch =
p.branch ∧ (Part.cutReplies p).trunkFramer = p.trunkFramer ∧ (Part.cutReplies p).labelFramer = p.labelFramer ∧
(Part.cutReplies p).guestFramer = p.guestFramer ∧ (Part.cutReplies p).links = p.links ∧ (Part.cutReplies p).fwd = p.fwd
∧ (Part.cutReplies p).call = p.call ∧ (Part.cutReplies p).pres = p.pres ∧ (Part.cutReplies p).price = p.price ∧
(Part.cutReplies p).jrn = p.jrn ∧ (Part.cutReplies p).lab = p.lab ∧ (Part.cutReplies p).gst = p.gst ∧ (Part.cutReplies
p).trk = p.trk ∧ (Part.cutReplies p).hdr = p.hdr ∧ (Part.cutReplies p).memCtr = p.memCtr ∧ (Part.cutReplies p).asks =
p.asks ∧ (Part.cutReplies p).dram = p.dram ∧ (Part.cutReplies p).written = p.written := by
  unfold Part.cutReplies; and_intros <;> (repeat' split) <;> simp

@[simp] theorem Part.stopFramers_frame (p : Part) : (Part.stopFramers p).cfg = p.cfg ∧ (Part.stopFramers p).call =
p.call ∧ (Part.stopFramers p).pres = p.pres ∧ (Part.stopFramers p).price = p.price ∧ (Part.stopFramers p).jrn = p.jrn ∧
(Part.stopFramers p).lab = p.lab ∧ (Part.stopFramers p).gst = p.gst ∧ (Part.stopFramers p).trk = p.trk ∧
(Part.stopFramers p).hdr = p.hdr ∧ (Part.stopFramers p).memCtr = p.memCtr ∧ (Part.stopFramers p).asks = p.asks ∧
(Part.stopFramers p).dram = p.dram ∧ (Part.stopFramers p).written = p.written := by
  unfold Part.stopFramers; and_intros <;> (repeat' split) <;> simp

end Sys2Proof.Machine
end

