-- ==== Sys2Proof/Laws/Memory.lean ====
section
/-! SUPPORT. The external DRAM: what a write, a run of writes and a wipe leave at every address, and that each keeps the
canonical form. -/

namespace Sys2Proof.Machine

/-! ### reading -/

theorem Mem.read_filter_self (m : Mem) (a : Nat) : Mem.read (m.filter fun c => decide (c.1 ≠ a)) a = 0 := by
  induction m with
  | nil => rfl
  | cons c rest ih =>
    obtain ⟨k, v⟩ := c
    by_cases h : k = a
    · simpa [List.filter, h] using ih
    · simpa [List.filter, h, Mem.read] using ih

theorem Mem.read_filter_of_keep (q : Host.Cell → Bool) (m : Mem) (x : Nat) (h : ∀ c : Host.Cell, c.1 = x → q c = true) :
    Mem.read (m.filter q) x = Mem.read m x := by
  induction m with
  | nil => rfl
  | cons c rest ih =>
    obtain ⟨k, v⟩ := c
    by_cases hk : k = x
    · rw [List.filter_cons_of_pos (h (k, v) hk)]; simp [Mem.read, hk]
    · by_cases hq : q (k, v) = true
      · simpa [List.filter, hq, Mem.read, hk] using ih
      · simpa [List.filter, hq, Mem.read, hk] using ih

theorem Mem.read_filter_of_drop (q : Host.Cell → Bool) (m : Mem) (x : Nat) (h : ∀ c : Host.Cell, c.1 = x → q c = false) :
    Mem.read (m.filter q) x = 0 := by
  induction m with
  | nil => rfl
  | cons c rest ih =>
    obtain ⟨k, v⟩ := c
    by_cases hk : k = x
    · simpa [List.filter, h (k, v) hk] using ih
    · by_cases hq : q (k, v) = true
      · simpa [List.filter, hq, Mem.read, hk] using ih
      · simpa [List.filter, hq] using ih

theorem Mem.read_insertCell_other (m : Mem) (a x : Nat) (b : Byte) (h : x ≠ a) :
    Mem.read (Mem.insertCell a b m) x = Mem.read m x := by
  induction m with
  | nil => simp [Mem.insertCell, Mem.read, Ne.symm h]
  | cons c rest ih =>
    obtain ⟨k, v⟩ := c
    by_cases hk : a < k
    · simp [Mem.insertCell, hk, Mem.read, Ne.symm h]
    · simp [Mem.insertCell, hk, Mem.read, ih]

theorem Mem.read_insertCell_self (m : Mem) (a : Nat) (b : Byte) (h : ∀ c ∈ m, c.1 ≠ a) :
    Mem.read (Mem.insertCell a b m) a = b := by
  induction m with
  | nil => simp [Mem.insertCell, Mem.read]
  | cons c rest ih =>
    obtain ⟨k, v⟩ := c
    have hk : k ≠ a := h (k, v) (by simp)
    have hr : ∀ d ∈ rest, d.1 ≠ a := fun d hd => h d (by simp [hd])
    by_cases hlt : a < k
    · simp [Mem.insertCell, hlt, Mem.read]
    · simp [Mem.insertCell, hlt, Mem.read, hk, ih hr]

/-- A byte of the DRAM reads as what was written to it. -/
theorem Mem.read_write_self (m : Mem) (a : Nat) (b : Byte) (h : a < Config.dramSize) : Mem.read (Mem.write m a b) a = b := by
  by_cases hb : b = 0
  · have := Mem.read_filter_self m a
    simp [Mem.write, hb] at this ⊢
    exact this
  · have hn : ¬ (b = 0 ∨ Config.dramSize ≤ a) := fun hc => hc.elim hb (fun hd => absurd h (Nat.not_lt.mpr hd))
    simp only [Mem.write, if_neg hn]
    exact Mem.read_insertCell_self _ _ _ (fun c hc => by simpa using (List.mem_filter.mp hc).2)

/-- A write changes no other byte. -/
theorem Mem.read_write_other (m : Mem) (a x : Nat) (b : Byte) (h : x ≠ a) : Mem.read (Mem.write m a b) x = Mem.read m x := by
  have hf : Mem.read (m.filter fun c => decide (c.1 ≠ a)) x = Mem.read m x :=
    Mem.read_filter_of_keep _ m x (fun c hc => by simp [hc, h])
  by_cases hb : b = 0 ∨ Config.dramSize ≤ a
  · simp only [Mem.write, if_pos hb]; exact hf
  · simp only [Mem.write, if_neg hb, Mem.read_insertCell_other _ _ _ _ h]; exact hf

/-- A run of writes changes no byte outside it. -/
theorem Mem.read_writeBytes_outside (m : Mem) (bs : Bytes) (a x : Nat) (h : x < a ∨ a + bs.length ≤ x) :
    Mem.read (Mem.writeBytes m a bs) x = Mem.read m x := by
  induction bs generalizing m a with
  | nil => rfl
  | cons b rest ih =>
    have hx : x ≠ a := by simp at h; omega
    have hr : x < a + 1 ∨ a + 1 + rest.length ≤ x := by simp at h; omega
    simp [Mem.writeBytes, ih _ _ hr, Mem.read_write_other _ _ _ _ hx]

/-- A run of writes inside the DRAM leaves its bytes where they were put. -/
theorem Mem.read_writeBytes_inside (m : Mem) (bs : Bytes) (a i : Nat) (h : i < bs.length)
    (hd : a + bs.length ≤ Config.dramSize) : Mem.read (Mem.writeBytes m a bs) (a + i) = bs[i] := by
  induction bs generalizing m a i with
  | nil => simp at h
  | cons b rest ih =>
    simp only [List.length_cons] at hd
    cases i with
    | zero =>
      have ho : a < a + 1 ∨ a + 1 + rest.length ≤ a := by omega
      simp only [Mem.writeBytes, Nat.add_zero, List.getElem_cons_zero, Mem.read_writeBytes_outside _ _ _ _ ho]
      exact Mem.read_write_self _ _ _ (by omega)
    | succ j =>
      have hj : j < rest.length := by simpa using h
      have := ih (Mem.write m a b) (a + 1) j hj (by omega)
      simpa [Mem.writeBytes, Nat.add_assoc, Nat.add_comm 1 j] using this

/-- A wipe leaves 0 inside and everything as it was outside. -/
theorem Mem.read_wipe (m : Mem) (lo hi x : Nat) :
    Mem.read (Mem.wipe m lo hi) x = if lo ≤ x ∧ x < hi then 0 else Mem.read m x := by
  by_cases h : lo ≤ x ∧ x < hi
  · rw [if_pos h]
    exact Mem.read_filter_of_drop _ m x (fun c hc => by simp [hc]; omega)
  · rw [if_neg h]
    exact Mem.read_filter_of_keep _ m x (fun c hc => by simp [hc]; omega)

theorem Mem.length_readBytes (m : Mem) (n a : Nat) : (Mem.readBytes m a n).length = n := by
  induction n generalizing a with
  | zero => rfl
  | succ n ih => simp [Mem.readBytes, ih]

/-- Equal memories read equal runs. -/
theorem Mem.readBytes_congr (m m' : Mem) (n a : Nat) (h : ∀ x, a ≤ x → x < a + n → Mem.read m x = Mem.read m' x) :
    Mem.readBytes m a n = Mem.readBytes m' a n := by
  induction n generalizing a with
  | zero => rfl
  | succ n ih =>
    simp only [Mem.readBytes]
    rw [h a (Nat.le_refl a) (by omega), ih (a + 1) (fun x h1 h2 => h x (by omega) (by omega))]

/-- A run written inside the DRAM is read back. -/
theorem Mem.readBytes_writeBytes (m : Mem) (bs : Bytes) (a : Nat) (hd : a + bs.length ≤ Config.dramSize) :
    Mem.readBytes (Mem.writeBytes m a bs) a bs.length = bs := by
  induction bs generalizing m a with
  | nil => rfl
  | cons b rest ih =>
    simp only [List.length_cons] at hd
    have ho : a < a + 1 ∨ a + 1 + rest.length ≤ a := by omega
    simp only [Mem.writeBytes, List.length_cons, Mem.readBytes, Mem.read_writeBytes_outside _ _ _ _ ho,
      ih (Mem.write m a b) (a + 1) (by omega), Mem.read_write_self m a b (by omega)]

/-! ### the canonical form -/

theorem Mem.wf_cons (k : Nat) (v : Byte) (rest : Mem) :
    Mem.wf ((k, v) :: rest) = true ↔ k < Config.dramSize ∧ v ≠ 0 ∧ (∀ c ∈ rest, k < c.1) ∧ Mem.wf rest = true := by
  induction rest generalizing k v with
  | nil => simp [Mem.wf]
  | cons c rest ih =>
    obtain ⟨k', v'⟩ := c
    have h' := ih k' v'
    simp only [Mem.wf, Bool.and_eq_true, decide_eq_true_eq]
    constructor
    · rintro ⟨⟨hk, hv⟩, hw⟩
      obtain ⟨hs, _, ha, _⟩ := h'.mp hw
      refine ⟨by omega, hv, ?_, hw⟩
      intro d hd
      rcases List.mem_cons.mp hd with rfl | hd
      · exact hk
      · have := ha d hd; omega
    · rintro ⟨_, hv, ha, hw⟩
      exact ⟨⟨ha (k', v') (by simp), hv⟩, hw⟩

@[simp] theorem Mem.wf_filter (q : Host.Cell → Bool) (m : Mem) (h : Mem.wf m = true) : Mem.wf (m.filter q) = true := by
  induction m with
  | nil => rfl
  | cons c rest ih =>
    obtain ⟨k, v⟩ := c
    obtain ⟨hk, hv, ha, hw⟩ := (Mem.wf_cons k v rest).mp h
    by_cases hq : q (k, v) = true
    · rw [List.filter_cons_of_pos hq]
      exact (Mem.wf_cons k v _).mpr ⟨hk, hv, fun d hd => ha d (List.mem_filter.mp hd).1, ih hw⟩
    · rw [List.filter_cons_of_neg hq]
      exact ih hw

theorem Mem.mem_insertCell (a : Nat) (b : Byte) (m : Mem) (d : Host.Cell) :
    d ∈ Mem.insertCell a b m → d = (a, b) ∨ d ∈ m := by
  induction m with
  | nil => simp [Mem.insertCell]
  | cons c rest ih =>
    obtain ⟨k, v⟩ := c
    by_cases hk : a < k
    · simp [Mem.insertCell, hk]
    · simp only [Mem.insertCell, if_neg hk, List.mem_cons]
      rintro (h | h)
      · exact Or.inr (Or.inl h)
      · exact (ih h).imp id Or.inr

theorem Mem.wf_insertCell (a : Nat) (b : Byte) (m : Mem) (ha : a < Config.dramSize) (hb : b ≠ 0)
    (hn : ∀ c ∈ m, c.1 ≠ a) (h : Mem.wf m = true) : Mem.wf (Mem.insertCell a b m) = true := by
  induction m with
  | nil => simp [Mem.insertCell, Mem.wf, ha]; exact hb
  | cons c rest ih =>
    obtain ⟨k, v⟩ := c
    obtain ⟨hk, hv, hal, hw⟩ := (Mem.wf_cons k v rest).mp h
    by_cases hlt : a < k
    · simp only [Mem.insertCell, if_pos hlt]
      refine (Mem.wf_cons a b _).mpr ⟨ha, hb, ?_, h⟩
      intro d hd
      rcases List.mem_cons.mp hd with rfl | hd
      · exact hlt
      · have := hal d hd; omega
    · simp only [Mem.insertCell, if_neg hlt]
      have hka : k ≠ a := hn (k, v) (by simp)
      refine (Mem.wf_cons k v _).mpr ⟨hk, hv, ?_, ih (fun c hc => hn c (by simp [hc])) hw⟩
      intro d hd
      rcases Mem.mem_insertCell a b rest d hd with rfl | hd
      · simp only; omega
      · exact hal d hd

/-- A write keeps the canonical form. -/
theorem Mem.wf_write (m : Mem) (a : Nat) (b : Byte) (h : Mem.wf m = true) : Mem.wf (Mem.write m a b) = true := by
  by_cases hb : b = 0 ∨ Config.dramSize ≤ a
  · simp only [Mem.write, if_pos hb]; exact Mem.wf_filter _ m h
  · simp only [Mem.write, if_neg hb]
    have hb' : b ≠ 0 ∧ a < Config.dramSize :=
      ⟨fun h0 => hb (Or.inl h0), Nat.lt_of_not_le fun h0 => hb (Or.inr h0)⟩
    exact Mem.wf_insertCell a b _ hb'.2 hb'.1 (fun c hc => by simpa using (List.mem_filter.mp hc).2) (Mem.wf_filter _ m h)

/-- A run of writes keeps the canonical form. -/
@[simp] theorem Mem.wf_writeBytes (m : Mem) (bs : Bytes) (a : Nat) (h : Mem.wf m = true) : Mem.wf (Mem.writeBytes m a bs) = true := by
  induction bs generalizing m a with
  | nil => exact h
  | cons b rest ih => exact ih _ _ (Mem.wf_write m a b h)

/-- A wipe keeps the canonical form. -/
@[simp] theorem Mem.wf_wipe (m : Mem) (lo hi : Nat) (h : Mem.wf m = true) : Mem.wf (Mem.wipe m lo hi) = true := Mem.wf_filter _ m h

/-- The memory at reset is in canonical form. -/
theorem State.reset_dram_wf : Mem.wf State.reset.part.dram = true := rfl

end Sys2Proof.Machine
end

