-- ==== Sys2Proof/Laws/Canonical.lean ====
section
/-! SUPPORT. Every operation of the part keeps the canonical form of the DRAM. -/

set_option linter.all false

/- Every lemma here is a case split over a long record; the default limit is for short proofs. -/
set_option maxHeartbeats 4000000

open Sys2Proof Sys2Proof.Machine

namespace Sys2Proof.Machine

@[simp] theorem Part.modDram_wf (f : Mem → Mem) (p : Part) (h : Mem.wf (f p.dram) = true) :
    Mem.wf (p.modDram f).dram = true := h
theorem foldl_wf {β : Type} (f : Part → β → Part) (hf : ∀ q x, Mem.wf q.dram = true → Mem.wf (f q x).dram = true) (l : List β)
    (p : Part) (h : Mem.wf p.dram = true) : Mem.wf (l.foldl f p).dram = true := by
  induction l generalizing p with
  | nil => exact h
  | cons x l ih => exact ih _ (hf _ _ h)

@[simp] theorem Part.write_wf (u : BurstUser) (a : Nat) (bs : Bytes) (p : Part) (hw : Mem.wf p.dram = true) : Mem.wf
    (Part.write u a bs p).dram = true := by
  unfold Part.write; (repeat' split) <;> simp_all (maxDischargeDepth := 16)

@[simp] theorem Part.wipe_wf (u : BurstUser) (lo : Nat) (hi : Nat) (p : Part) (hw : Mem.wf p.dram = true) : Mem.wf
    (Part.wipe u lo hi p).dram = true := by
  unfold Part.wipe; (repeat' split) <;> simp_all (maxDischargeDepth := 16)

@[simp] theorem Part.put_wf (a : Nat) (bs : Bytes) (p : Part) (hw : Mem.wf p.dram = true) : Mem.wf (Part.put a bs
    p).dram = true := by
  unfold Part.put; (repeat' split) <;> simp_all (maxDischargeDepth := 16)

@[simp] theorem Part.fill_wf (w : BurstUser) (b : Buf) (bs : Bytes) (p : Part) (hw : Mem.wf p.dram = true) : Mem.wf
    (Part.fill w b bs p).2.dram = true := by
  unfold Part.fill; (repeat' split) <;> simp_all (maxDischargeDepth := 16)

@[simp] theorem Part.build_wf (w : BurstUser) (u : User) (bs : Bytes) (p : Part) (hw : Mem.wf p.dram = true) :
    Mem.wf (Part.build w u bs p).2.dram = true := by
  unfold Part.build; ((try dsimp only); (repeat' split) <;> (try simp_all (maxDischargeDepth := 16) [Prod.ext_iff]) <;> (try (obtain ⟨_, rfl⟩ := ‹_ ∧ _ = (_ : Part)›)) <;> (try simp_all (maxDischargeDepth := 16) [Prod.ext_iff]) <;> (repeat' split) <;> (try (obtain ⟨_, rfl⟩ := ‹_ ∧ _ = (_ : Part)›)) <;> (try simp_all (maxDischargeDepth := 16) [Prod.ext_iff]) <;> (repeat' split) <;> (try simp_all (maxDischargeDepth := 16) [Prod.ext_iff]))

@[simp] theorem Part.sendFrame_wf (u : User) (c : Cls) (o : FrameOwner) (bs : Bytes) (p : Part) (hw : Mem.wf p.dram
    = true) : Mem.wf (Part.sendFrame u c o bs p).2.dram = true := by
  unfold Part.sendFrame; ((try dsimp only); (repeat' split) <;> (try simp_all (maxDischargeDepth := 16) [Prod.ext_iff]) <;> (try (obtain ⟨_, rfl⟩ := ‹_ ∧ _ = (_ : Part)›)) <;> (try simp_all (maxDischargeDepth := 16) [Prod.ext_iff]) <;> (repeat' split) <;> (try (obtain ⟨_, rfl⟩ := ‹_ ∧ _ = (_ : Part)›)) <;> (try simp_all (maxDischargeDepth := 16) [Prod.ext_iff]) <;> (repeat' split) <;> (try simp_all (maxDischargeDepth := 16) [Prod.ext_iff]))

@[simp] theorem Part.sendTurn_wf (what : TurnWhat) (dest : StationNo) (kind : Nat) (payload : Bytes) (p : Part) (hw
    : Mem.wf p.dram = true) : Mem.wf (Part.sendTurn what dest kind payload p).2.dram = true := by
  unfold Part.sendTurn; ((try dsimp only); (repeat' split) <;> (try simp_all (maxDischargeDepth := 16) [Prod.ext_iff]) <;> (try (obtain ⟨_, rfl⟩ := ‹_ ∧ _ = (_ : Part)›)) <;> (try simp_all (maxDischargeDepth := 16) [Prod.ext_iff]) <;> (repeat' split) <;> (try (obtain ⟨_, rfl⟩ := ‹_ ∧ _ = (_ : Part)›)) <;> (try simp_all (maxDischargeDepth := 16) [Prod.ext_iff]) <;> (repeat' split) <;> (try simp_all (maxDischargeDepth := 16) [Prod.ext_iff]))

@[simp] theorem Part.headerWriteBurst_wf (p : Part) (hw : Mem.wf p.dram = true) : Mem.wf (Part.headerWriteBurst
    p).dram = true := by
  unfold Part.headerWriteBurst; (repeat' split) <;> simp_all (maxDischargeDepth := 16)

@[simp] theorem Part.placeCall_wf (o : CallOwner) (peer : StationNo) (r : Request) (p : Part) (hw : Mem.wf p.dram =
    true) : Mem.wf (Part.placeCall o peer r p).2.dram = true := by
  unfold Part.placeCall; ((try dsimp only); (repeat' split) <;> (try simp_all (maxDischargeDepth := 16) [Prod.ext_iff]) <;> (try (obtain ⟨_, rfl⟩ := ‹_ ∧ _ = (_ : Part)›)) <;> (try simp_all (maxDischargeDepth := 16) [Prod.ext_iff]) <;> (repeat' split) <;> (try (obtain ⟨_, rfl⟩ := ‹_ ∧ _ = (_ : Part)›)) <;> (try simp_all (maxDischargeDepth := 16) [Prod.ext_iff]) <;> (repeat' split) <;> (try simp_all (maxDischargeDepth := 16) [Prod.ext_iff]))

@[simp] theorem Part.queueRecall_wf (d : Deferred) (p : Part) (hw : Mem.wf p.dram = true) : Mem.wf (Part.queueRecall
    d p).dram = true := by
  unfold Part.queueRecall; ((try dsimp only); (repeat' split) <;> (try simp_all (maxDischargeDepth := 16) [Prod.ext_iff]) <;> (try (obtain ⟨_, rfl⟩ := ‹_ ∧ _ = (_ : Part)›)) <;> (try simp_all (maxDischargeDepth := 16) [Prod.ext_iff]) <;> (repeat' split) <;> (try (obtain ⟨_, rfl⟩ := ‹_ ∧ _ = (_ : Part)›)) <;> (try simp_all (maxDischargeDepth := 16) [Prod.ext_iff]) <;> (repeat' split) <;> (try simp_all (maxDischargeDepth := 16) [Prod.ext_iff]))

@[simp] theorem Part.queueRecalls_wf (p : Part) (hw : Mem.wf p.dram = true) : Mem.wf (Part.queueRecalls p).dram =
    true := by
  unfold Part.queueRecalls; exact foldl_wf _ (fun q x hq => by (try dsimp only); (repeat' split) <;> simp_all (maxDischargeDepth := 16)) _ _ hw

@[simp] theorem Part.setEntry_wf (u : BurstUser) (bank : BankName) (i : Nat) (e : BankEntry) (p : Part) (hw : Mem.wf
    p.dram = true) : Mem.wf (Part.setEntry u bank i e p).dram = true := by
  unfold Part.setEntry; (repeat' split) <;> simp_all (maxDischargeDepth := 16)

theorem Part.passEntry_wf (f : BankEntry → Part → Option BankEntry × Part)
    (hf : ∀ e q, Mem.wf q.dram = true → Mem.wf (f e q).2.dram = true) (i : Nat) (p : Part) (h : Mem.wf p.dram = true) :
    Mem.wf (p.passEntry f i).dram = true := by
  unfold Part.passEntry
  split
  · exact h
  · rename_i e _
    have := hf e p h
    split <;> rename_i h <;> rw [h] at this
    · exact this
    · exact Part.setEntry_wf _ _ _ _ _ this
theorem Part.passEntries_wf (f : BankEntry → Part → Option BankEntry × Part)
    (hf : ∀ e q, Mem.wf q.dram = true → Mem.wf (f e q).2.dram = true) (p : Part) (h : Mem.wf p.dram = true) :
    Mem.wf (p.passEntries f).dram = true :=
  foldl_wf _ (fun q i hq => Part.passEntry_wf f hf i _ (by simpa using hq)) _ _ h

@[simp] theorem Part.wipeSlots_wf (u : BurstUser) (bank : BankName) (lo : Nat) (hi : Nat) (p : Part) (hw : Mem.wf
    p.dram = true) : Mem.wf (Part.wipeSlots u bank lo hi p).dram = true := by
  unfold Part.wipeSlots; (repeat' split) <;> simp_all (maxDischargeDepth := 16)

@[simp] theorem Part.setMark_wf (i : Nat) (p : Part) (hw : Mem.wf p.dram = true) : Mem.wf (Part.setMark i p).dram =
    true := by
  unfold Part.setMark; (repeat' split) <;> simp_all (maxDischargeDepth := 16)

@[simp] theorem Part.clearMap_wf (u : BurstUser) (p : Part) (hw : Mem.wf p.dram = true) : Mem.wf (Part.clearMap u
    p).dram = true := by
  unfold Part.clearMap; (repeat' split) <;> simp_all (maxDischargeDepth := 16)

@[simp] theorem Part.removeStaging_wf (p : Part) (hw : Mem.wf p.dram = true) : Mem.wf (Part.removeStaging p).dram =
    true := by
  unfold Part.removeStaging; ((try dsimp only); (repeat' split) <;> (try simp_all (maxDischargeDepth := 16) [Prod.ext_iff]) <;> (try (obtain ⟨_, rfl⟩ := ‹_ ∧ _ = (_ : Part)›)) <;> (try simp_all (maxDischargeDepth := 16) [Prod.ext_iff]) <;> (repeat' split) <;> (try (obtain ⟨_, rfl⟩ := ‹_ ∧ _ = (_ : Part)›)) <;> (try simp_all (maxDischargeDepth := 16) [Prod.ext_iff]) <;> (repeat' split) <;> (try simp_all (maxDischargeDepth := 16) [Prod.ext_iff]))

@[simp] theorem Part.discard_wf (d : Discard) (p : Part) (hw : Mem.wf p.dram = true) : Mem.wf (Part.discard d
    p).dram = true := by
  unfold Part.discard; (repeat' split) <;> simp_all (maxDischargeDepth := 16)

@[simp] theorem Part.complete_wf (p : Part) (hw : Mem.wf p.dram = true) : Mem.wf (Part.complete p).dram = true := by
  unfold Part.complete; (repeat' split) <;> simp_all (maxDischargeDepth := 16)

@[simp] theorem Part.decideStaging_wf (p : Part) (hw : Mem.wf p.dram = true) : Mem.wf (Part.decideStaging p).dram =
    true := by
  unfold Part.decideStaging; (repeat' split) <;> simp_all (maxDischargeDepth := 16)

@[simp] theorem Part.decideFull_wf (p : Part) (hw : Mem.wf p.dram = true) : Mem.wf (Part.decideFull p).dram = true :=
  by
  unfold Part.decideFull; ((try dsimp only); (repeat' split) <;> (try simp_all (maxDischargeDepth := 16) [Prod.ext_iff]) <;> (try (obtain ⟨_, rfl⟩ := ‹_ ∧ _ = (_ : Part)›)) <;> (try simp_all (maxDischargeDepth := 16) [Prod.ext_iff]) <;> (repeat' split) <;> (try (obtain ⟨_, rfl⟩ := ‹_ ∧ _ = (_ : Part)›)) <;> (try simp_all (maxDischargeDepth := 16) [Prod.ext_iff]) <;> (repeat' split) <;> (try simp_all (maxDischargeDepth := 16) [Prod.ext_iff]))

@[simp] theorem Part.stageAt_wf (i : Nat) (bs : Bytes) (p : Part) (hw : Mem.wf p.dram = true) : Mem.wf (Part.stageAt
    i bs p).dram = true := by
  unfold Part.stageAt; ((try dsimp only); (repeat' split) <;> (try simp_all (maxDischargeDepth := 16) [Prod.ext_iff]) <;> (try (obtain ⟨_, rfl⟩ := ‹_ ∧ _ = (_ : Part)›)) <;> (try simp_all (maxDischargeDepth := 16) [Prod.ext_iff]) <;> (repeat' split) <;> (try (obtain ⟨_, rfl⟩ := ‹_ ∧ _ = (_ : Part)›)) <;> (try simp_all (maxDischargeDepth := 16) [Prod.ext_iff]) <;> (repeat' split) <;> (try simp_all (maxDischargeDepth := 16) [Prod.ext_iff]))

@[simp] theorem Part.stageRecord_wf (gen : Nat) (i : Nat) (bs : Bytes) (p : Part) (hw : Mem.wf p.dram = true) :
    Mem.wf (Part.stageRecord gen i bs p).dram = true := by
  unfold Part.stageRecord; ((try dsimp only); (repeat' split) <;> (try simp_all (maxDischargeDepth := 16) [Prod.ext_iff]) <;> (try (obtain ⟨_, rfl⟩ := ‹_ ∧ _ = (_ : Part)›)) <;> (try simp_all (maxDischargeDepth := 16) [Prod.ext_iff]) <;> (repeat' split) <;> (try (obtain ⟨_, rfl⟩ := ‹_ ∧ _ = (_ : Part)›)) <;> (try simp_all (maxDischargeDepth := 16) [Prod.ext_iff]) <;> (repeat' split) <;> (try simp_all (maxDischargeDepth := 16) [Prod.ext_iff]))

@[simp] theorem Part.stageRecords_wf (gen : Nat) (x1 : Nat) (x2 : List Bytes) (x3 : Part) (hw : Mem.wf x3.dram =
    true) : Mem.wf (Part.stageRecords gen x1 x2 x3).dram = true := by
  induction x2 generalizing x3 x1 with
  | nil => simpa [Part.stageRecords] using hw
  | cons r rs ih => unfold Part.stageRecords; ((try dsimp only); (repeat' split) <;> (try simp_all (maxDischargeDepth := 16) [Prod.ext_iff]) <;> (try (obtain ⟨_, rfl⟩ := ‹_ ∧ _ = (_ : Part)›)) <;> (try simp_all (maxDischargeDepth := 16) [Prod.ext_iff]) <;> (repeat' split) <;> (try (obtain ⟨_, rfl⟩ := ‹_ ∧ _ = (_ : Part)›)) <;> (try simp_all (maxDischargeDepth := 16) [Prod.ext_iff]) <;> (repeat' split) <;> (try simp_all (maxDischargeDepth := 16) [Prod.ext_iff]))

@[simp] theorem Part.placeFetch_wf (p : Part) (hw : Mem.wf p.dram = true) : Mem.wf (Part.placeFetch p).2.dram = true
    := by
  unfold Part.placeFetch; ((try dsimp only); (repeat' split) <;> (try simp_all (maxDischargeDepth := 16) [Prod.ext_iff]) <;> (try (obtain ⟨_, rfl⟩ := ‹_ ∧ _ = (_ : Part)›)) <;> (try simp_all (maxDischargeDepth := 16) [Prod.ext_iff]) <;> (repeat' split) <;> (try (obtain ⟨_, rfl⟩ := ‹_ ∧ _ = (_ : Part)›)) <;> (try simp_all (maxDischargeDepth := 16) [Prod.ext_iff]) <;> (repeat' split) <;> (try simp_all (maxDischargeDepth := 16) [Prod.ext_iff]))

@[simp] theorem Part.checkFetch_wf (p : Part) (hw : Mem.wf p.dram = true) : Mem.wf (Part.checkFetch p).dram = true
    := by
  unfold Part.checkFetch; ((try dsimp only); (repeat' split) <;> (try simp_all (maxDischargeDepth := 16) [Prod.ext_iff]) <;> (try (obtain ⟨_, rfl⟩ := ‹_ ∧ _ = (_ : Part)›)) <;> (try simp_all (maxDischargeDepth := 16) [Prod.ext_iff]) <;> (repeat' split) <;> (try (obtain ⟨_, rfl⟩ := ‹_ ∧ _ = (_ : Part)›)) <;> (try simp_all (maxDischargeDepth := 16) [Prod.ext_iff]) <;> (repeat' split) <;> (try simp_all (maxDischargeDepth := 16) [Prod.ext_iff]))

@[simp] theorem Part.fetchesEnded_wf (p : Part) (hw : Mem.wf p.dram = true) : Mem.wf (Part.fetchesEnded p).dram =
    true := by
  unfold Part.fetchesEnded; ((try dsimp only); (repeat' split) <;> (try simp_all (maxDischargeDepth := 16) [Prod.ext_iff]) <;> (try (obtain ⟨_, rfl⟩ := ‹_ ∧ _ = (_ : Part)›)) <;> (try simp_all (maxDischargeDepth := 16) [Prod.ext_iff]) <;> (repeat' split) <;> (try (obtain ⟨_, rfl⟩ := ‹_ ∧ _ = (_ : Part)›)) <;> (try simp_all (maxDischargeDepth := 16) [Prod.ext_iff]) <;> (repeat' split) <;> (try simp_all (maxDischargeDepth := 16) [Prod.ext_iff]))

@[simp] theorem Part.enterGaps_wf (p : Part) (hw : Mem.wf p.dram = true) : Mem.wf (Part.enterGaps p).dram = true :=
    by
  unfold Part.enterGaps; (repeat' split) <;> simp_all (maxDischargeDepth := 16)

@[simp] theorem Part.takeHead_wf (b : Bytes) (p : Part) (hw : Mem.wf p.dram = true) : Mem.wf (Part.takeHead b
    p).dram = true := by
  unfold Part.takeHead; ((try dsimp only); (repeat' split) <;> (try simp_all (maxDischargeDepth := 16) [Prod.ext_iff]) <;> (try (obtain ⟨_, rfl⟩ := ‹_ ∧ _ = (_ : Part)›)) <;> (try simp_all (maxDischargeDepth := 16) [Prod.ext_iff]) <;> (repeat' split) <;> (try (obtain ⟨_, rfl⟩ := ‹_ ∧ _ = (_ : Part)›)) <;> (try simp_all (maxDischargeDepth := 16) [Prod.ext_iff]) <;> (repeat' split) <;> (try simp_all (maxDischargeDepth := 16) [Prod.ext_iff]))

@[simp] theorem Part.takePart_wf (b : Bytes) (p : Part) (hw : Mem.wf p.dram = true) : Mem.wf (Part.takePart b
    p).dram = true := by
  unfold Part.takePart; ((try dsimp only); (repeat' split) <;> (try simp_all (maxDischargeDepth := 16) [Prod.ext_iff]) <;> (try (obtain ⟨_, rfl⟩ := ‹_ ∧ _ = (_ : Part)›)) <;> (try simp_all (maxDischargeDepth := 16) [Prod.ext_iff]) <;> (repeat' split) <;> (try (obtain ⟨_, rfl⟩ := ‹_ ∧ _ = (_ : Part)›)) <;> (try simp_all (maxDischargeDepth := 16) [Prod.ext_iff]) <;> (repeat' split) <;> (try simp_all (maxDischargeDepth := 16) [Prod.ext_iff]))

@[simp] theorem Part.takeEnd_wf (b : Bytes) (p : Part) (hw : Mem.wf p.dram = true) : Mem.wf (Part.takeEnd b p).dram
    = true := by
  unfold Part.takeEnd; ((try dsimp only); (repeat' split) <;> (try simp_all (maxDischargeDepth := 16) [Prod.ext_iff]) <;> (try (obtain ⟨_, rfl⟩ := ‹_ ∧ _ = (_ : Part)›)) <;> (try simp_all (maxDischargeDepth := 16) [Prod.ext_iff]) <;> (repeat' split) <;> (try (obtain ⟨_, rfl⟩ := ‹_ ∧ _ = (_ : Part)›)) <;> (try simp_all (maxDischargeDepth := 16) [Prod.ext_iff]) <;> (repeat' split) <;> (try simp_all (maxDischargeDepth := 16) [Prod.ext_iff]))

@[simp] theorem Part.syncOrder_wf (g : Nat) (p : Part) (hw : Mem.wf p.dram = true) : Mem.wf (Part.syncOrder g
    p).dram = true := by
  unfold Part.syncOrder; (repeat' split) <;> simp_all (maxDischargeDepth := 16)

@[simp] theorem Part.walkOn_wf (ended : Bool) (p : Part) (hw : Mem.wf p.dram = true) : Mem.wf (Part.walkOn ended
    p).dram = true := by
  unfold Part.walkOn; (repeat' split) <;> simp_all (maxDischargeDepth := 16)

@[simp] theorem Part.beginWalk_wf (p : Part) (hw : Mem.wf p.dram = true) : Mem.wf (Part.beginWalk p).dram = true :=
    by
  unfold Part.beginWalk; (repeat' split) <;> simp_all (maxDischargeDepth := 16)

@[simp] theorem Part.mergeStep_wf (p : Part) (hw : Mem.wf p.dram = true) : Mem.wf (Part.mergeStep p).dram = true :=
    by
  unfold Part.mergeStep; (repeat' split) <;> simp_all (maxDischargeDepth := 16)

@[simp] theorem Part.switchBank_wf (holds : Nat) (p : Part) (hw : Mem.wf p.dram = true) : Mem.wf (Part.switchBank
    holds p).dram = true := by
  unfold Part.switchBank; (repeat' split) <;> simp_all (maxDischargeDepth := 16)

@[simp] theorem Part.takeWaitingSync_wf (p : Part) (hw : Mem.wf p.dram = true) : Mem.wf (Part.takeWaitingSync
    p).dram = true := by
  unfold Part.takeWaitingSync; (repeat' split) <;> simp_all (maxDischargeDepth := 16)

@[simp] theorem Part.holdPass_wf (p : Part) (hw : Mem.wf p.dram = true) : Mem.wf (Part.holdPass p).dram = true := by
  exact Part.passEntries_wf _ (fun e q hq => by (try unfold sweepOne); (repeat' split) <;> simp_all (maxDischargeDepth := 16)) _ hw

@[simp] theorem Part.countPass_wf (p : Part) (hw : Mem.wf p.dram = true) : Mem.wf (Part.countPass p).dram = true :=
    by
  exact Part.passEntries_wf _ (fun e q hq => by (try unfold sweepOne); (repeat' split) <;> simp_all (maxDischargeDepth := 16)) _ hw

@[simp] theorem Part.takeWalkEnds_wf (x1 : Nat) (x2 : Part) (hw : Mem.wf x2.dram = true) : Mem.wf (Part.takeWalkEnds
    x1 x2).dram = true := by
  induction x1 generalizing x2 with
  | zero => simpa [Part.takeWalkEnds] using hw
  | succ n ih => unfold Part.takeWalkEnds; ((try dsimp only); (repeat' split) <;> (try simp_all (maxDischargeDepth := 16) [Prod.ext_iff]) <;> (try (obtain ⟨_, rfl⟩ := ‹_ ∧ _ = (_ : Part)›)) <;> (try simp_all (maxDischargeDepth := 16) [Prod.ext_iff]) <;> (repeat' split) <;> (try (obtain ⟨_, rfl⟩ := ‹_ ∧ _ = (_ : Part)›)) <;> (try simp_all (maxDischargeDepth := 16) [Prod.ext_iff]) <;> (repeat' split) <;> (try simp_all (maxDischargeDepth := 16) [Prod.ext_iff]))

@[simp] theorem Part.sendEvent_wf (e : LabelEvent) (p : Part) (hw : Mem.wf p.dram = true) : Mem.wf (Part.sendEvent e
    p).dram = true := by
  unfold Part.sendEvent; (repeat' split) <;> simp_all (maxDischargeDepth := 16)

@[simp] theorem Part.labelNotCurrent_wf (item : Nat) (p : Part) (hw : Mem.wf p.dram = true) : Mem.wf
    (Part.labelNotCurrent item p).dram = true := by
  unfold Part.labelNotCurrent; ((try dsimp only); (repeat' split) <;> (try simp_all (maxDischargeDepth := 16) [Prod.ext_iff]) <;> (try (obtain ⟨_, rfl⟩ := ‹_ ∧ _ = (_ : Part)›)) <;> (try simp_all (maxDischargeDepth := 16) [Prod.ext_iff]) <;> (repeat' split) <;> (try (obtain ⟨_, rfl⟩ := ‹_ ∧ _ = (_ : Part)›)) <;> (try simp_all (maxDischargeDepth := 16) [Prod.ext_iff]) <;> (repeat' split) <;> (try simp_all (maxDischargeDepth := 16) [Prod.ext_iff]))

@[simp] theorem Part.labelCurrent_wf (item : Nat) (p : Part) (hw : Mem.wf p.dram = true) : Mem.wf (Part.labelCurrent
    item p).dram = true := by
  unfold Part.labelCurrent; ((try dsimp only); (repeat' split) <;> (try simp_all (maxDischargeDepth := 16) [Prod.ext_iff]) <;> (try (obtain ⟨_, rfl⟩ := ‹_ ∧ _ = (_ : Part)›)) <;> (try simp_all (maxDischargeDepth := 16) [Prod.ext_iff]) <;> (repeat' split) <;> (try (obtain ⟨_, rfl⟩ := ‹_ ∧ _ = (_ : Part)›)) <;> (try simp_all (maxDischargeDepth := 16) [Prod.ext_iff]) <;> (repeat' split) <;> (try simp_all (maxDischargeDepth := 16) [Prod.ext_iff]))

@[simp] theorem Part.sweepStep_wf (p : Part) (hw : Mem.wf p.dram = true) : Mem.wf (Part.sweepStep p).dram = true :=
    by
  unfold Part.sweepStep
  split
  · exact hw
  · rename_i i _
    have h := Part.passEntry_wf (sweepOne ((p.cfg.map (·.holdLimit)).getD 0) p.pres.clock)
      (fun e q hq => by (try unfold sweepOne); (repeat' split) <;> simp_all (maxDischargeDepth := 16)) i p hw
    dsimp only; (repeat' split) <;> simp_all

@[simp] theorem Part.pricingNotice_wf (n : StationNo) (p : Part) (hw : Mem.wf p.dram = true) : Mem.wf
    (Part.pricingNotice n p).dram = true := by
  unfold Part.pricingNotice; ((try dsimp only); (repeat' split) <;> (try simp_all (maxDischargeDepth := 16) [Prod.ext_iff]) <;> (try (obtain ⟨_, rfl⟩ := ‹_ ∧ _ = (_ : Part)›)) <;> (try simp_all (maxDischargeDepth := 16) [Prod.ext_iff]) <;> (repeat' split) <;> (try (obtain ⟨_, rfl⟩ := ‹_ ∧ _ = (_ : Part)›)) <;> (try simp_all (maxDischargeDepth := 16) [Prod.ext_iff]) <;> (repeat' split) <;> (try simp_all (maxDischargeDepth := 16) [Prod.ext_iff]))

@[simp] theorem Part.priceHead_wf (p : Part) (hw : Mem.wf p.dram = true) : Mem.wf (Part.priceHead p).dram = true :=
    by
  unfold Part.priceHead Part.takePriceFrame; ((try dsimp only); (repeat' split) <;> (try simp_all (maxDischargeDepth := 16) [Prod.ext_iff]) <;> (try (obtain ⟨_, rfl⟩ := ‹_ ∧ _ = (_ : Part)›)) <;> (try simp_all (maxDischargeDepth := 16) [Prod.ext_iff]) <;> (repeat' split) <;> (try (obtain ⟨_, rfl⟩ := ‹_ ∧ _ = (_ : Part)›)) <;> (try simp_all (maxDischargeDepth := 16) [Prod.ext_iff]) <;> (repeat' split) <;> (try simp_all (maxDischargeDepth := 16) [Prod.ext_iff]))

@[simp] theorem Part.pricePart_wf (p : Part) (hw : Mem.wf p.dram = true) : Mem.wf (Part.pricePart p).dram = true :=
    by
  unfold Part.pricePart Part.takePriceFrame; ((try dsimp only); (repeat' split) <;> (try simp_all (maxDischargeDepth := 16) [Prod.ext_iff]) <;> (try (obtain ⟨_, rfl⟩ := ‹_ ∧ _ = (_ : Part)›)) <;> (try simp_all (maxDischargeDepth := 16) [Prod.ext_iff]) <;> (repeat' split) <;> (try (obtain ⟨_, rfl⟩ := ‹_ ∧ _ = (_ : Part)›)) <;> (try simp_all (maxDischargeDepth := 16) [Prod.ext_iff]) <;> (repeat' split) <;> (try simp_all (maxDischargeDepth := 16) [Prod.ext_iff]))

@[simp] theorem Part.priceEnd_wf (p : Part) (hw : Mem.wf p.dram = true) : Mem.wf (Part.priceEnd p).dram = true := by
  unfold Part.priceEnd Part.takePriceFrame; ((try dsimp only); (repeat' split) <;> (try simp_all (maxDischargeDepth := 16) [Prod.ext_iff]) <;> (try (obtain ⟨_, rfl⟩ := ‹_ ∧ _ = (_ : Part)›)) <;> (try simp_all (maxDischargeDepth := 16) [Prod.ext_iff]) <;> (repeat' split) <;> (try (obtain ⟨_, rfl⟩ := ‹_ ∧ _ = (_ : Part)›)) <;> (try simp_all (maxDischargeDepth := 16) [Prod.ext_iff]) <;> (repeat' split) <;> (try simp_all (maxDischargeDepth := 16) [Prod.ext_iff]))

@[simp] theorem Part.receivePause_wf (p : Part) (hw : Mem.wf p.dram = true) : Mem.wf (Part.receivePause p).dram =
    true := by
  unfold Part.receivePause; (repeat' split) <;> simp_all (maxDischargeDepth := 16)

@[simp] theorem Part.recountDone_wf (p : Part) (hw : Mem.wf p.dram = true) : Mem.wf (Part.recountDone p).dram = true
    := by
  unfold Part.recountDone; (repeat' split) <;> simp_all (maxDischargeDepth := 16)

@[simp] theorem Part.fetchTick_wf (p : Part) (hw : Mem.wf p.dram = true) : Mem.wf (Part.fetchTick p).dram = true :=
    by
  unfold Part.fetchTick; (repeat' split) <;> simp_all (maxDischargeDepth := 16)

@[simp] theorem Part.nowKnown_wf (gen : Nat) (p : Part) (hw : Mem.wf p.dram = true) :
    Mem.wf (Part.nowKnown gen p).dram = true := by
  unfold Part.nowKnown; ((try dsimp only); (repeat' split) <;> (try simp_all (maxDischargeDepth := 16) [Prod.ext_iff]) <;> (try (obtain ⟨_, rfl⟩ := ‹_ ∧ _ = (_ : Part)›)) <;> (try simp_all (maxDischargeDepth := 16) [Prod.ext_iff]) <;> (repeat' split) <;> (try (obtain ⟨_, rfl⟩ := ‹_ ∧ _ = (_ : Part)›)) <;> (try simp_all (maxDischargeDepth := 16) [Prod.ext_iff]) <;> (repeat' split) <;> (try simp_all (maxDischargeDepth := 16) [Prod.ext_iff]))

@[simp] theorem Part.fetchData_wf (p : Part) (hw : Mem.wf p.dram = true) : Mem.wf (Part.fetchData p).dram = true :=
    by
  unfold Part.fetchData; ((try dsimp only); (repeat' split) <;> (try simp_all (maxDischargeDepth := 16) [Prod.ext_iff]) <;> (try (obtain ⟨_, rfl⟩ := ‹_ ∧ _ = (_ : Part)›)) <;> (try simp_all (maxDischargeDepth := 16) [Prod.ext_iff]) <;> (repeat' split) <;> (try (obtain ⟨_, rfl⟩ := ‹_ ∧ _ = (_ : Part)›)) <;> (try simp_all (maxDischargeDepth := 16) [Prod.ext_iff]) <;> (repeat' split) <;> (try simp_all (maxDischargeDepth := 16) [Prod.ext_iff]))

@[simp] theorem Part.activate_wf (p : Part) (hw : Mem.wf p.dram = true) : Mem.wf (Part.activate p).dram = true := by
  unfold Part.activate; (repeat' split) <;> simp_all (maxDischargeDepth := 16)

@[simp] theorem Part.takeNotCurrent_wf (p : Part) (hw : Mem.wf p.dram = true) : Mem.wf (Part.takeNotCurrent p).dram
    = true := by
  unfold Part.takeNotCurrent; (repeat' split) <;> simp_all (maxDischargeDepth := 16)

@[simp] theorem Part.takeCurrent_wf (p : Part) (hw : Mem.wf p.dram = true) : Mem.wf (Part.takeCurrent p).dram = true
    := by
  unfold Part.takeCurrent; (repeat' split) <;> simp_all (maxDischargeDepth := 16)

@[simp] theorem Part.putLabel_wf (i : Nat) (e : LabelEntry) (p : Part) (hw : Mem.wf p.dram = true) : Mem.wf
    (Part.putLabel i e p).dram = true := by
  unfold Part.putLabel; (repeat' split) <;> simp_all (maxDischargeDepth := 16)

@[simp] theorem Part.wipeLabel_wf (i : Nat) (p : Part) (hw : Mem.wf p.dram = true) : Mem.wf (Part.wipeLabel i
    p).dram = true := by
  unfold Part.wipeLabel; (repeat' split) <;> simp_all (maxDischargeDepth := 16)

@[simp] theorem Part.freeLabel_wf (i : Nat) (p : Part) (hw : Mem.wf p.dram = true) : Mem.wf (Part.freeLabel i
    p).dram = true := by
  unfold Part.freeLabel; (repeat' split) <;> simp_all (maxDischargeDepth := 16)

@[simp] theorem Part.emptyLabels_wf (p : Part) (hw : Mem.wf p.dram = true) : Mem.wf (Part.emptyLabels p).dram = true
    := by
  unfold Part.emptyLabels; (repeat' split) <;> simp_all (maxDischargeDepth := 16)

@[simp] theorem Part.countEvent_wf (e : LabelEntry) (ev : LabelEvent) (p : Part) (hw : Mem.wf p.dram = true) :
    Mem.wf (Part.countEvent e ev p).dram = true := by
  unfold Part.countEvent; (repeat' split) <;> simp_all (maxDischargeDepth := 16)

@[simp] theorem Part.queueLabel_wf (i : Nat) (e : LabelEntry) (p : Part) (hw : Mem.wf p.dram = true) : Mem.wf
    (Part.queueLabel i e p).dram = true := by
  unfold Part.queueLabel; (repeat' split) <;> simp_all (maxDischargeDepth := 16)

@[simp] theorem Part.sendOrder_wf (i : Nat) (e : LabelEntry) (target : LabelContent) (b : Buf) (p : Part) (hw :
    Mem.wf p.dram = true) : Mem.wf (Part.sendOrder i e target b p).dram = true := by
  unfold Part.sendOrder; (repeat' split) <;> simp_all (maxDischargeDepth := 16)

@[simp] theorem Part.takeOrders_wf (x1 : Nat) (x2 : Part) (hw : Mem.wf x2.dram = true) : Mem.wf (Part.takeOrders x1
    x2).dram = true := by
  induction x1 generalizing x2 with
  | zero => simpa [Part.takeOrders] using hw
  | succ n ih => unfold Part.takeOrders; ((try dsimp only); (repeat' split) <;> (try simp_all (maxDischargeDepth := 16) [Prod.ext_iff]) <;> (try (obtain ⟨_, rfl⟩ := ‹_ ∧ _ = (_ : Part)›)) <;> (try simp_all (maxDischargeDepth := 16) [Prod.ext_iff]) <;> (repeat' split) <;> (try (obtain ⟨_, rfl⟩ := ‹_ ∧ _ = (_ : Part)›)) <;> (try simp_all (maxDischargeDepth := 16) [Prod.ext_iff]) <;> (repeat' split) <;> (try simp_all (maxDischargeDepth := 16) [Prod.ext_iff]))

@[simp] theorem Part.checkOrders_wf (p : Part) (hw : Mem.wf p.dram = true) : Mem.wf (Part.checkOrders p).dram = true
    := by
  unfold Part.checkOrders; (repeat' split) <;> simp_all (maxDischargeDepth := 16)

@[simp] theorem Part.queueAndCheck_wf (i : Nat) (e : LabelEntry) (p : Part) (hw : Mem.wf p.dram = true) : Mem.wf
    (Part.queueAndCheck i e p).dram = true := by
  unfold Part.queueAndCheck; (repeat' split) <;> simp_all (maxDischargeDepth := 16)

@[simp] theorem Part.headHeard_wf (p : Part) (hw : Mem.wf p.dram = true) : Mem.wf (Part.headHeard p).dram = true :=
    by
  unfold Part.headHeard; (repeat' split) <;> simp_all (maxDischargeDepth := 16)

@[simp] theorem Part.recallOrder_wf (o : Order) (p : Part) (hw : Mem.wf p.dram = true) : Mem.wf (Part.recallOrder o
    p).dram = true := by
  unfold Part.recallOrder; ((try dsimp only); (repeat' split) <;> (try simp_all (maxDischargeDepth := 16) [Prod.ext_iff]) <;> (try (obtain ⟨_, rfl⟩ := ‹_ ∧ _ = (_ : Part)›)) <;> (try simp_all (maxDischargeDepth := 16) [Prod.ext_iff]) <;> (repeat' split) <;> (try (obtain ⟨_, rfl⟩ := ‹_ ∧ _ = (_ : Part)›)) <;> (try simp_all (maxDischargeDepth := 16) [Prod.ext_iff]) <;> (repeat' split) <;> (try simp_all (maxDischargeDepth := 16) [Prod.ext_iff]))

@[simp] theorem Part.foldl_recallOrder_wf (l : List Order) (p : Part) (h : Mem.wf p.dram = true) :
    Mem.wf (l.foldl (fun r o => Part.recallOrder o r) p).dram = true :=
  foldl_wf _ (fun q x hq => by (repeat' split) <;> simp (maxDischargeDepth := 16) [hq]) _ _ h

@[simp] theorem Part.headDown_wf (p : Part) (hw : Mem.wf p.dram = true) : Mem.wf (Part.headDown p).dram = true := by
  unfold Part.headDown; (repeat' split) <;> simp_all (maxDischargeDepth := 16)

@[simp] theorem Part.reportShown_wf (o : Order) (e : LabelEntry) (p : Part) (hw : Mem.wf p.dram = true) : Mem.wf
    (Part.reportShown o e p).dram = true := by
  unfold Part.reportShown; ((try dsimp only); (repeat' split) <;> (try simp_all (maxDischargeDepth := 16) [Prod.ext_iff]) <;> (try (obtain ⟨_, rfl⟩ := ‹_ ∧ _ = (_ : Part)›)) <;> (try simp_all (maxDischargeDepth := 16) [Prod.ext_iff]) <;> (repeat' split) <;> (try (obtain ⟨_, rfl⟩ := ‹_ ∧ _ = (_ : Part)›)) <;> (try simp_all (maxDischargeDepth := 16) [Prod.ext_iff]) <;> (repeat' split) <;> (try simp_all (maxDischargeDepth := 16) [Prod.ext_iff]))

@[simp] theorem Part.unreachable_wf (i : Nat) (e : LabelEntry) (p : Part) (hw : Mem.wf p.dram = true) : Mem.wf
    (Part.unreachable i e p).dram = true := by
  unfold Part.unreachable; (repeat' split) <;> simp_all (maxDischargeDepth := 16)

@[simp] theorem Part.failedAttempt_wf (i : Nat) (e : LabelEntry) (p : Part) (hw : Mem.wf p.dram = true) : Mem.wf
    (Part.failedAttempt i e p).dram = true := by
  unfold Part.failedAttempt; ((try dsimp only); (repeat' split) <;> (try simp_all (maxDischargeDepth := 16) [Prod.ext_iff]) <;> (try (obtain ⟨_, rfl⟩ := ‹_ ∧ _ = (_ : Part)›)) <;> (try simp_all (maxDischargeDepth := 16) [Prod.ext_iff]) <;> (repeat' split) <;> (try (obtain ⟨_, rfl⟩ := ‹_ ∧ _ = (_ : Part)›)) <;> (try simp_all (maxDischargeDepth := 16) [Prod.ext_iff]) <;> (repeat' split) <;> (try simp_all (maxDischargeDepth := 16) [Prod.ext_iff]))

@[simp] theorem Part.report_wf (o : Order) (e : LabelEntry) (out : ReportOutcome) (battery : Battery) (signal : Nat)
    (p : Part) (hw : Mem.wf p.dram = true) : Mem.wf (Part.report o e out battery signal p).dram = true := by
  unfold Part.report; (repeat' split) <;> simp_all (maxDischargeDepth := 16)

@[simp] theorem Part.takeReport_wf (b : Bytes) (p : Part) (hw : Mem.wf p.dram = true) : Mem.wf (Part.takeReport b
    p).dram = true := by
  unfold Part.takeReport; ((try dsimp only); (repeat' split) <;> (try simp_all (maxDischargeDepth := 16) [Prod.ext_iff]) <;> (try (obtain ⟨_, rfl⟩ := ‹_ ∧ _ = (_ : Part)›)) <;> (try simp_all (maxDischargeDepth := 16) [Prod.ext_iff]) <;> (repeat' split) <;> (try (obtain ⟨_, rfl⟩ := ‹_ ∧ _ = (_ : Part)›)) <;> (try simp_all (maxDischargeDepth := 16) [Prod.ext_iff]) <;> (repeat' split) <;> (try simp_all (maxDischargeDepth := 16) [Prod.ext_iff]))

@[simp] theorem Part.reportExpiry_wf (tag : Byte) (p : Part) (hw : Mem.wf p.dram = true) : Mem.wf (Part.reportExpiry
    tag p).dram = true := by
  unfold Part.reportExpiry; ((try dsimp only); (repeat' split) <;> (try simp_all (maxDischargeDepth := 16) [Prod.ext_iff]) <;> (try (obtain ⟨_, rfl⟩ := ‹_ ∧ _ = (_ : Part)›)) <;> (try simp_all (maxDischargeDepth := 16) [Prod.ext_iff]) <;> (repeat' split) <;> (try (obtain ⟨_, rfl⟩ := ‹_ ∧ _ = (_ : Part)›)) <;> (try simp_all (maxDischargeDepth := 16) [Prod.ext_iff]) <;> (repeat' split) <;> (try simp_all (maxDischargeDepth := 16) [Prod.ext_iff]))

@[simp] theorem Part.refreshLabel_wf (i : Nat) (e : LabelEntry) (p : Part) (hw : Mem.wf p.dram = true) : Mem.wf
    (Part.refreshLabel i e p).dram = true := by
  unfold Part.refreshLabel; (repeat' split) <;> simp_all (maxDischargeDepth := 16)

@[simp] theorem Part.takeNotice_wf (b : Bytes) (p : Part) (hw : Mem.wf p.dram = true) : Mem.wf (Part.takeNotice b
    p).dram = true := by
  unfold Part.takeNotice; ((try dsimp only); (repeat' split) <;> (try simp_all (maxDischargeDepth := 16) [Prod.ext_iff]) <;> (try (obtain ⟨_, rfl⟩ := ‹_ ∧ _ = (_ : Part)›)) <;> (try simp_all (maxDischargeDepth := 16) [Prod.ext_iff]) <;> (repeat' split) <;> (try (obtain ⟨_, rfl⟩ := ‹_ ∧ _ = (_ : Part)›)) <;> (try simp_all (maxDischargeDepth := 16) [Prod.ext_iff]) <;> (repeat' split) <;> (try simp_all (maxDischargeDepth := 16) [Prod.ext_iff]))

@[simp] theorem Part.startWalk_wf (p : Part) (hw : Mem.wf p.dram = true) : Mem.wf (Part.startWalk p).dram = true :=
    by
  unfold Part.startWalk; dsimp only; apply Part.sendEvent_wf; simp only [Part.modLab_dram]; exact foldl_wf _ (fun q x hq => by (repeat' split) <;> simp_all) _ _ hw

@[simp] theorem Part.switchNotice_wf (p : Part) (hw : Mem.wf p.dram = true) : Mem.wf (Part.switchNotice p).dram =
    true := by
  unfold Part.switchNotice; (repeat' split) <;> simp_all (maxDischargeDepth := 16)

@[simp] theorem Part.countPassDone_wf (p : Part) (hw : Mem.wf p.dram = true) : Mem.wf (Part.countPassDone p).dram =
    true := by
  unfold Part.countPassDone; (repeat' split) <;> simp_all (maxDischargeDepth := 16)

@[simp] theorem Part.walkEntry_wf (i : Nat) (e : LabelEntry) (p : Part) (hw : Mem.wf p.dram = true) : Mem.wf
    (Part.walkEntry i e p).dram = true := by
  unfold Part.walkEntry; ((try dsimp only); (repeat' split) <;> (try simp_all (maxDischargeDepth := 16) [Prod.ext_iff]) <;> (try (obtain ⟨_, rfl⟩ := ‹_ ∧ _ = (_ : Part)›)) <;> (try simp_all (maxDischargeDepth := 16) [Prod.ext_iff]) <;> (repeat' split) <;> (try (obtain ⟨_, rfl⟩ := ‹_ ∧ _ = (_ : Part)›)) <;> (try simp_all (maxDischargeDepth := 16) [Prod.ext_iff]) <;> (repeat' split) <;> (try simp_all (maxDischargeDepth := 16) [Prod.ext_iff]))

@[simp] theorem Part.walkEnd_wf (p : Part) (hw : Mem.wf p.dram = true) : Mem.wf (Part.walkEnd p).dram = true := by
  unfold Part.walkEnd; (repeat' split) <;> simp_all (maxDischargeDepth := 16)

@[simp] theorem Part.walkStep_wf (p : Part) (hw : Mem.wf p.dram = true) : Mem.wf (Part.walkStep p).dram = true := by
  unfold Part.walkStep; (repeat' split) <;> simp_all (maxDischargeDepth := 16)

@[simp] theorem Part.warmEntry_wf (i : Nat) (p : Part) (hw : Mem.wf p.dram = true) : Mem.wf (Part.warmEntry i
    p).dram = true := by
  unfold Part.warmEntry; (repeat' split) <;> simp_all (maxDischargeDepth := 16)

theorem Part.warmPassDone_wf_last {d : Part} (h : Mem.wf d.dram = true) :
    ∀ e, e = ((d.modLab fun l => { l with warm := .none }).startWalk).checkOrders → Mem.wf e.dram = true := by
  intro e he; rw [he]; clear he e; simp [h]
@[simp] theorem Part.warmPassDone_wf (p : Part) (h : Mem.wf p.dram = true) : Mem.wf p.warmPassDone.dram = true := by
  unfold Part.warmPassDone; generalize List.range Config.labelSlots = l
  split
  · refine Part.warmPassDone_wf_last ?_ _ rfl
    exact foldl_wf _ (fun q x hq => by simp [hq]) _ _ h
  · exact h

@[simp] theorem Part.bindLabel_wf (id : Nat) (item : Nat) (layout : Layout) (p : Part) (hw : Mem.wf p.dram = true) :
    Mem.wf (Part.bindLabel id item layout p).2.dram = true := by
  unfold Part.bindLabel; ((try dsimp only); (repeat' split) <;> (try simp_all (maxDischargeDepth := 16) [Prod.ext_iff]) <;> (try (obtain ⟨_, rfl⟩ := ‹_ ∧ _ = (_ : Part)›)) <;> (try simp_all (maxDischargeDepth := 16) [Prod.ext_iff]) <;> (repeat' split) <;> (try (obtain ⟨_, rfl⟩ := ‹_ ∧ _ = (_ : Part)›)) <;> (try simp_all (maxDischargeDepth := 16) [Prod.ext_iff]) <;> (repeat' split) <;> (try simp_all (maxDischargeDepth := 16) [Prod.ext_iff]))

@[simp] theorem Part.unbindLabel_wf (id : Nat) (p : Part) (hw : Mem.wf p.dram = true) : Mem.wf (Part.unbindLabel id
    p).2.dram = true := by
  unfold Part.unbindLabel; ((try dsimp only); (repeat' split) <;> (try simp_all (maxDischargeDepth := 16) [Prod.ext_iff]) <;> (try (obtain ⟨_, rfl⟩ := ‹_ ∧ _ = (_ : Part)›)) <;> (try simp_all (maxDischargeDepth := 16) [Prod.ext_iff]) <;> (repeat' split) <;> (try (obtain ⟨_, rfl⟩ := ‹_ ∧ _ = (_ : Part)›)) <;> (try simp_all (maxDischargeDepth := 16) [Prod.ext_iff]) <;> (repeat' split) <;> (try simp_all (maxDischargeDepth := 16) [Prod.ext_iff]))

@[simp] theorem Part.retryLabel_wf (id : Nat) (p : Part) (hw : Mem.wf p.dram = true) : Mem.wf (Part.retryLabel id
    p).2.dram = true := by
  unfold Part.retryLabel; ((try dsimp only); (repeat' split) <;> (try simp_all (maxDischargeDepth := 16) [Prod.ext_iff]) <;> (try (obtain ⟨_, rfl⟩ := ‹_ ∧ _ = (_ : Part)›)) <;> (try simp_all (maxDischargeDepth := 16) [Prod.ext_iff]) <;> (repeat' split) <;> (try (obtain ⟨_, rfl⟩ := ‹_ ∧ _ = (_ : Part)›)) <;> (try simp_all (maxDischargeDepth := 16) [Prod.ext_iff]) <;> (repeat' split) <;> (try simp_all (maxDischargeDepth := 16) [Prod.ext_iff]))

@[simp] theorem Part.headStatus_wf (p : Part) (hw : Mem.wf p.dram = true) : Mem.wf (Part.headStatus p).dram = true
    := by
  unfold Part.headStatus Part.takeLabelFrame; (repeat' split) <;> simp_all (maxDischargeDepth := 16)

@[simp] theorem Part.labelUnknown_wf (p : Part) (hw : Mem.wf p.dram = true) : Mem.wf (Part.labelUnknown p).dram =
    true := by
  unfold Part.labelUnknown Part.takeLabelFrame; (repeat' split) <;> simp_all (maxDischargeDepth := 16)

@[simp] theorem Part.labelReport_wf (p : Part) (hw : Mem.wf p.dram = true) : Mem.wf (Part.labelReport p).dram = true
    := by
  unfold Part.labelReport Part.takeLabelFrame; (repeat' split) <;> simp_all (maxDischargeDepth := 16)

@[simp] theorem Part.labelNotice_wf (p : Part) (hw : Mem.wf p.dram = true) : Mem.wf (Part.labelNotice p).dram = true
    := by
  unfold Part.labelNotice Part.takeLabelFrame; (repeat' split) <;> simp_all (maxDischargeDepth := 16)

@[simp] theorem Part.headExpiry_wf (p : Part) (hw : Mem.wf p.dram = true) : Mem.wf (Part.headExpiry p).dram = true
    := by
  unfold Part.headExpiry; (repeat' split) <;> simp_all (maxDischargeDepth := 16)

@[simp] theorem Part.retryDue_wf (p : Part) (hw : Mem.wf p.dram = true) : Mem.wf (Part.retryDue p).dram = true := by
  unfold Part.retryDue; exact foldl_wf _ (fun q x hq => by (try dsimp only); (repeat' split) <;> simp_all (maxDischargeDepth := 16)) _ _ hw

@[simp] theorem Part.retryTick_wf (p : Part) (hw : Mem.wf p.dram = true) : Mem.wf (Part.retryTick p).dram = true :=
    by
  unfold Part.retryTick; ((try dsimp only); (repeat' split) <;> (try simp_all (maxDischargeDepth := 16) [Prod.ext_iff]) <;> (try (obtain ⟨_, rfl⟩ := ‹_ ∧ _ = (_ : Part)›)) <;> (try simp_all (maxDischargeDepth := 16) [Prod.ext_iff]) <;> (repeat' split) <;> (try (obtain ⟨_, rfl⟩ := ‹_ ∧ _ = (_ : Part)›)) <;> (try simp_all (maxDischargeDepth := 16) [Prod.ext_iff]) <;> (repeat' split) <;> (try simp_all (maxDischargeDepth := 16) [Prod.ext_iff]))

@[simp] theorem Part.toStation_wf (n : StationNo) (src : Source) (packet : Bytes) (b : Buf) (p : Part) (hw : Mem.wf
    p.dram = true) : Mem.wf (Part.toStation n src packet b p).2.dram = true := by
  unfold Part.toStation; (repeat' split) <;> simp_all (maxDischargeDepth := 16)

@[simp] theorem Part.route_wf (src : Source) (packet : Bytes) (b : Buf) (p : Part) (hw : Mem.wf p.dram = true) :
    Mem.wf (Part.route src packet b p).2.dram = true := by
  unfold Part.route; (repeat' split) <;> simp_all (maxDischargeDepth := 16)

@[simp] theorem Part.setGuest_wf (i : Nat) (g : Guest) (p : Part) (hw : Mem.wf p.dram = true) : Mem.wf
    (Part.setGuest i g p).dram = true := by
  unfold Part.setGuest; (repeat' split) <;> simp_all (maxDischargeDepth := 16)

@[simp] theorem Part.freeGuest_wf (i : Nat) (p : Part) (hw : Mem.wf p.dram = true) : Mem.wf (Part.freeGuest i
    p).dram = true := by
  unfold Part.freeGuest; (repeat' split) <;> simp_all (maxDischargeDepth := 16)

@[simp] theorem Part.foldl_freeGuest_wf (l : List Nat) (p : Part) (h : Mem.wf p.dram = true) :
    Mem.wf (l.foldl (fun r i => Part.countGst EndReason.radio.count (Part.freeGuest i r)) p).dram = true :=
  foldl_wf _ (fun q x hq => by (repeat' split) <;> simp (maxDischargeDepth := 16) [hq]) _ _ h

@[simp] theorem Part.clearGuestBurst_wf (p : Part) (hw : Mem.wf p.dram = true) : Mem.wf (Part.clearGuestBurst
    p).dram = true := by
  unfold Part.clearGuestBurst; ((try dsimp only); (repeat' split) <;> (try simp_all (maxDischargeDepth := 16) [Prod.ext_iff]) <;> (try (obtain ⟨_, rfl⟩ := ‹_ ∧ _ = (_ : Part)›)) <;> (try simp_all (maxDischargeDepth := 16) [Prod.ext_iff]) <;> (repeat' split) <;> (try (obtain ⟨_, rfl⟩ := ‹_ ∧ _ = (_ : Part)›)) <;> (try simp_all (maxDischargeDepth := 16) [Prod.ext_iff]) <;> (repeat' split) <;> (try simp_all (maxDischargeDepth := 16) [Prod.ext_iff]))

@[simp] theorem Part.notice_wf (n : GuestNotice) (device : Nat) (index : Nat) (address : Nat) (reason : Nat) (up :
    Nat) (down : Nat) (drops : Nat) (p : Part) (hw : Mem.wf p.dram = true) : Mem.wf (Part.notice n device index address
    reason up down drops p).dram = true := by
  unfold Part.notice; ((try dsimp only); (repeat' split) <;> (try simp_all (maxDischargeDepth := 16) [Prod.ext_iff]) <;> (try (obtain ⟨_, rfl⟩ := ‹_ ∧ _ = (_ : Part)›)) <;> (try simp_all (maxDischargeDepth := 16) [Prod.ext_iff]) <;> (repeat' split) <;> (try (obtain ⟨_, rfl⟩ := ‹_ ∧ _ = (_ : Part)›)) <;> (try simp_all (maxDischargeDepth := 16) [Prod.ext_iff]) <;> (repeat' split) <;> (try simp_all (maxDischargeDepth := 16) [Prod.ext_iff]))

@[simp] theorem Part.radioHeard_wf (p : Part) (hw : Mem.wf p.dram = true) : Mem.wf (Part.radioHeard p).dram = true
    := by
  unfold Part.radioHeard; (repeat' split) <;> simp_all (maxDischargeDepth := 16)

@[simp] theorem Part.endGuest_wf (r : EndReason) (i : Nat) (g : Guest) (p : Part) (hw : Mem.wf p.dram = true) :
    Mem.wf (Part.endGuest r i g p).dram = true := by
  unfold Part.endGuest; (repeat' split) <;> simp_all (maxDischargeDepth := 16)

@[simp] theorem Part.endGuests_wf (r : EndReason) (cond : Part → Guest → Bool) (p : Part) (hw : Mem.wf p.dram =
    true) : Mem.wf (Part.endGuests r cond p).dram = true := by
  unfold Part.endGuests; exact foldl_wf _ (fun q x hq => by (try dsimp only); (repeat' split) <;> simp_all (maxDischargeDepth := 16)) _ _ (by simp [hw])

@[simp] theorem Part.endNight_wf (p : Part) (hw : Mem.wf p.dram = true) : Mem.wf (Part.endNight p).dram = true := by
  unfold Part.endNight; (repeat' split) <;> simp_all (maxDischargeDepth := 16)

@[simp] theorem Part.radioDown_wf (p : Part) (hw : Mem.wf p.dram = true) : Mem.wf (Part.radioDown p).dram = true :=
    by
  unfold Part.radioDown; (repeat' split) <;> simp_all (maxDischargeDepth := 16)

@[simp] theorem Part.dropBudget_wf (i : Nat) (g : Guest) (b : Buf) (p : Part) (hw : Mem.wf p.dram = true) : Mem.wf
    (Part.dropBudget i g b p).dram = true := by
  unfold Part.dropBudget; ((try dsimp only); (repeat' split) <;> (try simp_all (maxDischargeDepth := 16) [Prod.ext_iff]) <;> (try (obtain ⟨_, rfl⟩ := ‹_ ∧ _ = (_ : Part)›)) <;> (try simp_all (maxDischargeDepth := 16) [Prod.ext_iff]) <;> (repeat' split) <;> (try (obtain ⟨_, rfl⟩ := ‹_ ∧ _ = (_ : Part)›)) <;> (try simp_all (maxDischargeDepth := 16) [Prod.ext_iff]) <;> (repeat' split) <;> (try simp_all (maxDischargeDepth := 16) [Prod.ext_iff]))

@[simp] theorem Part.forwardDiscard_wf (device : Nat) (i : Nat) (p : Part) (hw : Mem.wf p.dram = true) : Mem.wf
    (Part.forwardDiscard device i p).dram = true := by
  unfold Part.forwardDiscard; ((try dsimp only); (repeat' split) <;> (try simp_all (maxDischargeDepth := 16) [Prod.ext_iff]) <;> (try (obtain ⟨_, rfl⟩ := ‹_ ∧ _ = (_ : Part)›)) <;> (try simp_all (maxDischargeDepth := 16) [Prod.ext_iff]) <;> (repeat' split) <;> (try (obtain ⟨_, rfl⟩ := ‹_ ∧ _ = (_ : Part)›)) <;> (try simp_all (maxDischargeDepth := 16) [Prod.ext_iff]) <;> (repeat' split) <;> (try simp_all (maxDischargeDepth := 16) [Prod.ext_iff]))

@[simp] theorem Part.policeUp_wf (i : Nat) (g : Guest) (packet : Bytes) (b : Buf) (p : Part) (hw : Mem.wf p.dram =
    true) : Mem.wf (Part.policeUp i g packet b p).dram = true := by
  unfold Part.policeUp; ((try dsimp only); (repeat' split) <;> (try simp_all (maxDischargeDepth := 16) [Prod.ext_iff]) <;> (try (obtain ⟨_, rfl⟩ := ‹_ ∧ _ = (_ : Part)›)) <;> (try simp_all (maxDischargeDepth := 16) [Prod.ext_iff]) <;> (repeat' split) <;> (try (obtain ⟨_, rfl⟩ := ‹_ ∧ _ = (_ : Part)›)) <;> (try simp_all (maxDischargeDepth := 16) [Prod.ext_iff]) <;> (repeat' split) <;> (try simp_all (maxDischargeDepth := 16) [Prod.ext_iff]))

@[simp] theorem Part.deliver_wf (packet : Bytes) (b : Buf) (p : Part) (hw : Mem.wf p.dram = true) : Mem.wf
    (Part.deliver packet b p).dram = true := by
  unfold Part.deliver; ((try dsimp only); (repeat' split) <;> (try simp_all (maxDischargeDepth := 16) [Prod.ext_iff]) <;> (try (obtain ⟨_, rfl⟩ := ‹_ ∧ _ = (_ : Part)›)) <;> (try simp_all (maxDischargeDepth := 16) [Prod.ext_iff]) <;> (repeat' split) <;> (try (obtain ⟨_, rfl⟩ := ‹_ ∧ _ = (_ : Part)›)) <;> (try simp_all (maxDischargeDepth := 16) [Prod.ext_iff]) <;> (repeat' split) <;> (try simp_all (maxDischargeDepth := 16) [Prod.ext_iff]))

@[simp] theorem Part.admitGuest_wf (device : Nat) (packet : Bytes) (b : Buf) (p : Part) (hw : Mem.wf p.dram = true)
    : Mem.wf (Part.admitGuest device packet b p).dram = true := by
  unfold Part.admitGuest; (repeat' split) <;> simp_all (maxDischargeDepth := 16)

@[simp] theorem Part.guestPacket_wf (frame : Bytes) (b : Buf) (p : Part) (hw : Mem.wf p.dram = true) : Mem.wf
    (Part.guestPacket frame b p).dram = true := by
  unfold Part.guestPacket; ((try dsimp only); (repeat' split) <;> (try simp_all (maxDischargeDepth := 16) [Prod.ext_iff]) <;> (try (obtain ⟨_, rfl⟩ := ‹_ ∧ _ = (_ : Part)›)) <;> (try simp_all (maxDischargeDepth := 16) [Prod.ext_iff]) <;> (repeat' split) <;> (try (obtain ⟨_, rfl⟩ := ‹_ ∧ _ = (_ : Part)›)) <;> (try simp_all (maxDischargeDepth := 16) [Prod.ext_iff]) <;> (repeat' split) <;> (try simp_all (maxDischargeDepth := 16) [Prod.ext_iff]))

@[simp] theorem Part.meterEntry_wf (share : Nat) (cap : Nat) (i : Nat) (p : Part) (hw : Mem.wf p.dram = true) :
    Mem.wf (Part.meterEntry share cap i p).dram = true := by
  unfold Part.meterEntry; ((try dsimp only); (repeat' split) <;> (try simp_all (maxDischargeDepth := 16) [Prod.ext_iff]) <;> (try (obtain ⟨_, rfl⟩ := ‹_ ∧ _ = (_ : Part)›)) <;> (try simp_all (maxDischargeDepth := 16) [Prod.ext_iff]) <;> (repeat' split) <;> (try (obtain ⟨_, rfl⟩ := ‹_ ∧ _ = (_ : Part)›)) <;> (try simp_all (maxDischargeDepth := 16) [Prod.ext_iff]) <;> (repeat' split) <;> (try simp_all (maxDischargeDepth := 16) [Prod.ext_iff]))

@[simp] theorem Part.meterShares_wf (p : Part) (hw : Mem.wf p.dram = true) : Mem.wf (Part.meterShares p).dram = true
    := by
  unfold Part.meterShares; exact foldl_wf _ (fun q x hq => by (try dsimp only); (repeat' split) <;> simp_all (maxDischargeDepth := 16)) _ _ (by simpa using hw)

@[simp] theorem Part.meterTick_wf (p : Part) (hw : Mem.wf p.dram = true) : Mem.wf (Part.meterTick p).dram = true :=
    by
  unfold Part.meterTick; (repeat' split) <;> simp_all (maxDischargeDepth := 16)

@[simp] theorem Part.guestUp_wf (p : Part) (hw : Mem.wf p.dram = true) : Mem.wf (Part.guestUp p).dram = true := by
  unfold Part.guestUp Part.takeGuestFrame; (repeat' split) <;> simp_all (maxDischargeDepth := 16)

@[simp] theorem Part.radioStatus_wf (p : Part) (hw : Mem.wf p.dram = true) : Mem.wf (Part.radioStatus p).dram = true
    := by
  unfold Part.radioStatus Part.takeGuestFrame; (repeat' split) <;> simp_all (maxDischargeDepth := 16)

@[simp] theorem Part.guestUnknown_wf (p : Part) (hw : Mem.wf p.dram = true) : Mem.wf (Part.guestUnknown p).dram =
    true := by
  unfold Part.guestUnknown Part.takeGuestFrame; (repeat' split) <;> simp_all (maxDischargeDepth := 16)

@[simp] theorem Part.radioExpiry_wf (p : Part) (hw : Mem.wf p.dram = true) : Mem.wf (Part.radioExpiry p).dram = true
    := by
  unfold Part.radioExpiry; (repeat' split) <;> simp_all (maxDischargeDepth := 16)

@[simp] theorem Part.forward_wf (src : Source) (packet : Bytes) (b : Buf) (p : Part) (hw : Mem.wf p.dram = true) :
    Mem.wf (Part.forward src packet b p).dram = true := by
  unfold Part.forward; ((try dsimp only); (repeat' split) <;> (try simp_all (maxDischargeDepth := 16) [Prod.ext_iff]) <;> (try (obtain ⟨_, rfl⟩ := ‹_ ∧ _ = (_ : Part)›)) <;> (try simp_all (maxDischargeDepth := 16) [Prod.ext_iff]) <;> (repeat' split) <;> (try (obtain ⟨_, rfl⟩ := ‹_ ∧ _ = (_ : Part)›)) <;> (try simp_all (maxDischargeDepth := 16) [Prod.ext_iff]) <;> (repeat' split) <;> (try simp_all (maxDischargeDepth := 16) [Prod.ext_iff]))

@[simp] theorem Part.datagram_wf (p : Part) (hw : Mem.wf p.dram = true) : Mem.wf (Part.datagram p).dram = true := by
  unfold Part.datagram; ((try dsimp only); (repeat' split) <;> (try simp_all (maxDischargeDepth := 16) [Prod.ext_iff]) <;> (try (obtain ⟨_, rfl⟩ := ‹_ ∧ _ = (_ : Part)›)) <;> (try simp_all (maxDischargeDepth := 16) [Prod.ext_iff]) <;> (repeat' split) <;> (try (obtain ⟨_, rfl⟩ := ‹_ ∧ _ = (_ : Part)›)) <;> (try simp_all (maxDischargeDepth := 16) [Prod.ext_iff]) <;> (repeat' split) <;> (try simp_all (maxDischargeDepth := 16) [Prod.ext_iff]))

@[simp] theorem Part.trunkPacket_wf (p : Part) (hw : Mem.wf p.dram = true) : Mem.wf (Part.trunkPacket p).dram = true
    := by
  unfold Part.trunkPacket; (repeat' split) <;> simp_all (maxDischargeDepth := 16)

@[simp] theorem Part.message_wf (what : TrunkFrame) (p : Part) (hw : Mem.wf p.dram = true) : Mem.wf (Part.message
    what p).dram = true := by
  unfold Part.message; ((try dsimp only); (repeat' split) <;> (try simp_all (maxDischargeDepth := 16) [Prod.ext_iff]) <;> (try (obtain ⟨_, rfl⟩ := ‹_ ∧ _ = (_ : Part)›)) <;> (try simp_all (maxDischargeDepth := 16) [Prod.ext_iff]) <;> (repeat' split) <;> (try (obtain ⟨_, rfl⟩ := ‹_ ∧ _ = (_ : Part)›)) <;> (try simp_all (maxDischargeDepth := 16) [Prod.ext_iff]) <;> (repeat' split) <;> (try simp_all (maxDischargeDepth := 16) [Prod.ext_iff]))

@[simp] theorem Part.foldl_message_wf (l : List TrunkFrame) (p : Part) (h : Mem.wf p.dram = true) :
    Mem.wf (l.foldl (fun q m => Part.message m q) p).dram = true :=
  foldl_wf _ (fun q x hq => by (repeat' split) <;> simp (maxDischargeDepth := 16) [hq]) _ _ h

@[simp] theorem Part.endSession_wf (x : Ending) (p : Part) (hw : Mem.wf p.dram = true) : Mem.wf (Part.endSession x
    p).dram = true := by
  unfold Part.endSession; ((try dsimp only); (repeat' split) <;> (try simp_all (maxDischargeDepth := 16) [Prod.ext_iff]) <;> (try (obtain ⟨_, rfl⟩ := ‹_ ∧ _ = (_ : Part)›)) <;> (try simp_all (maxDischargeDepth := 16) [Prod.ext_iff]) <;> (repeat' split) <;> (try (obtain ⟨_, rfl⟩ := ‹_ ∧ _ = (_ : Part)›)) <;> (try simp_all (maxDischargeDepth := 16) [Prod.ext_iff]) <;> (repeat' split) <;> (try simp_all (maxDischargeDepth := 16) [Prod.ext_iff]))

@[simp] theorem Part.claimCheck_wf (p : Part) (hw : Mem.wf p.dram = true) : Mem.wf (Part.claimCheck p).dram = true
    := by
  unfold Part.claimCheck; ((try dsimp only); (repeat' split) <;> (try simp_all (maxDischargeDepth := 16) [Prod.ext_iff]) <;> (try (obtain ⟨_, rfl⟩ := ‹_ ∧ _ = (_ : Part)›)) <;> (try simp_all (maxDischargeDepth := 16) [Prod.ext_iff]) <;> (repeat' split) <;> (try (obtain ⟨_, rfl⟩ := ‹_ ∧ _ = (_ : Part)›)) <;> (try simp_all (maxDischargeDepth := 16) [Prod.ext_iff]) <;> (repeat' split) <;> (try simp_all (maxDischargeDepth := 16) [Prod.ext_iff]))

@[simp] theorem Part.emptyHolder_wf (p : Part) (hw : Mem.wf p.dram = true) : Mem.wf (Part.emptyHolder p).dram = true
    := by
  unfold Part.emptyHolder; (repeat' split) <;> simp_all (maxDischargeDepth := 16)

@[simp] theorem Part.stepDown_wf (p : Part) (hw : Mem.wf p.dram = true) : Mem.wf (Part.stepDown p).dram = true := by
  unfold Part.stepDown; (repeat' split) <;> simp_all (maxDischargeDepth := 16)

@[simp] theorem Part.enterHolding_wf (p : Part) (hw : Mem.wf p.dram = true) : Mem.wf (Part.enterHolding p).dram =
    true := by
  unfold Part.enterHolding; ((try dsimp only); (repeat' split) <;> (try simp_all (maxDischargeDepth := 16) [Prod.ext_iff]) <;> (try (obtain ⟨_, rfl⟩ := ‹_ ∧ _ = (_ : Part)›)) <;> (try simp_all (maxDischargeDepth := 16) [Prod.ext_iff]) <;> (repeat' split) <;> (try (obtain ⟨_, rfl⟩ := ‹_ ∧ _ = (_ : Part)›)) <;> (try simp_all (maxDischargeDepth := 16) [Prod.ext_iff]) <;> (repeat' split) <;> (try simp_all (maxDischargeDepth := 16) [Prod.ext_iff]))

@[simp] theorem Part.claimSent_wf (d : Nat) (p : Part) (hw : Mem.wf p.dram = true) : Mem.wf (Part.claimSent d
    p).dram = true := by
  unfold Part.claimSent; (repeat' split) <;> simp_all (maxDischargeDepth := 16)

@[simp] theorem Part.claimDropped_wf (d : Nat) (p : Part) (hw : Mem.wf p.dram = true) : Mem.wf (Part.claimDropped d
    p).dram = true := by
  unfold Part.claimDropped; (repeat' split) <;> simp_all (maxDischargeDepth := 16)

@[simp] theorem Part.claimWithdrawn_wf (d : Nat) (p : Part) (hw : Mem.wf p.dram = true) : Mem.wf
    (Part.claimWithdrawn d p).dram = true := by
  unfold Part.claimWithdrawn; (repeat' split) <;> simp_all (maxDischargeDepth := 16)

@[simp] theorem Part.rivalHeard_wf (s : StationNo) (d : Nat) (p : Part) (hw : Mem.wf p.dram = true) : Mem.wf
    (Part.rivalHeard s d p).dram = true := by
  unfold Part.rivalHeard; ((try dsimp only); (repeat' split) <;> (try simp_all (maxDischargeDepth := 16) [Prod.ext_iff]) <;> (try (obtain ⟨_, rfl⟩ := ‹_ ∧ _ = (_ : Part)›)) <;> (try simp_all (maxDischargeDepth := 16) [Prod.ext_iff]) <;> (repeat' split) <;> (try (obtain ⟨_, rfl⟩ := ‹_ ∧ _ = (_ : Part)›)) <;> (try simp_all (maxDischargeDepth := 16) [Prod.ext_iff]) <;> (repeat' split) <;> (try simp_all (maxDischargeDepth := 16) [Prod.ext_iff]))

@[simp] theorem Part.takeClaim_wf (s : StationNo) (d : Nat) (p : Part) (hw : Mem.wf p.dram = true) : Mem.wf
    (Part.takeClaim s d p).dram = true := by
  unfold Part.takeClaim; (repeat' split) <;> simp_all (maxDischargeDepth := 16)

@[simp] theorem Part.closeBlock_wf (e : Upload) (p : Part) (hw : Mem.wf p.dram = true) : Mem.wf (Part.closeBlock e
    p).dram = true := by
  unfold Part.closeBlock; (repeat' split) <;> simp_all (maxDischargeDepth := 16)

@[simp] theorem Part.pack_wf (n : StationNo) (seq : Nat) (record : Bytes) (p : Part) (hw : Mem.wf p.dram = true) :
    Mem.wf (Part.pack n seq record p).2.dram = true := by
  unfold Part.pack; ((try dsimp only); (repeat' split) <;> (try simp_all (maxDischargeDepth := 16) [Prod.ext_iff]) <;> (try (obtain ⟨_, rfl⟩ := ‹_ ∧ _ = (_ : Part)›)) <;> (try simp_all (maxDischargeDepth := 16) [Prod.ext_iff]) <;> (repeat' split) <;> (try (obtain ⟨_, rfl⟩ := ‹_ ∧ _ = (_ : Part)›)) <;> (try simp_all (maxDischargeDepth := 16) [Prod.ext_iff]) <;> (repeat' split) <;> (try simp_all (maxDischargeDepth := 16) [Prod.ext_iff]) <;> (try (obtain ⟨_, rfl⟩ := ‹_ ∧ _ = (_ : Part)›)) <;> (try simp_all (maxDischargeDepth := 16) [Prod.ext_iff]) <;> (repeat' split) <;> (try simp_all (maxDischargeDepth := 16) [Prod.ext_iff]))

@[simp] theorem Part.enterClosing_wf (p : Part) (hw : Mem.wf p.dram = true) : Mem.wf (Part.enterClosing p).dram =
    true := by
  unfold Part.enterClosing; (repeat' split) <;> simp_all (maxDischargeDepth := 16)

@[simp] theorem Part.checkUploadEnd_wf (p : Part) (hw : Mem.wf p.dram = true) : Mem.wf (Part.checkUploadEnd p).dram
    = true := by
  unfold Part.checkUploadEnd; (repeat' split) <;> simp_all (maxDischargeDepth := 16)

@[simp] theorem Part.pump_wf (p : Part) (hw : Mem.wf p.dram = true) : Mem.wf (Part.pump p).dram = true := by
  unfold Part.pump; (repeat' split) <;> simp_all (maxDischargeDepth := 16)

@[simp] theorem Part.placePull_wf (e : Upload) (p : Part) (hw : Mem.wf p.dram = true) : Mem.wf (Part.placePull e
    p).dram = true := by
  unfold Part.placePull; ((try dsimp only); (repeat' split) <;> (try simp_all (maxDischargeDepth := 16) [Prod.ext_iff]) <;> (try (obtain ⟨_, rfl⟩ := ‹_ ∧ _ = (_ : Part)›)) <;> (try simp_all (maxDischargeDepth := 16) [Prod.ext_iff]) <;> (repeat' split) <;> (try (obtain ⟨_, rfl⟩ := ‹_ ∧ _ = (_ : Part)›)) <;> (try simp_all (maxDischargeDepth := 16) [Prod.ext_iff]) <;> (repeat' split) <;> (try simp_all (maxDischargeDepth := 16) [Prod.ext_iff]))

@[simp] theorem Part.endEntry_wf (e : Upload) (st : UploadStatus) (p : Part) (hw : Mem.wf p.dram = true) : Mem.wf
    (Part.endEntry e st p).dram = true := by
  unfold Part.endEntry; (repeat' split) <;> simp_all (maxDischargeDepth := 16)

@[simp] theorem Part.passTurn_wf (x1 : Nat) (x2 : Part) (hw : Mem.wf x2.dram = true) : Mem.wf (Part.passTurn x1
    x2).dram = true := by
  induction x1 generalizing x2 with
  | zero => simpa [Part.passTurn] using hw
  | succ n ih => unfold Part.passTurn; ((try dsimp only); (repeat' split) <;> (try simp_all (maxDischargeDepth := 16) [Prod.ext_iff]) <;> (try (obtain ⟨_, rfl⟩ := ‹_ ∧ _ = (_ : Part)›)) <;> (try simp_all (maxDischargeDepth := 16) [Prod.ext_iff]) <;> (repeat' split) <;> (try (obtain ⟨_, rfl⟩ := ‹_ ∧ _ = (_ : Part)›)) <;> (try simp_all (maxDischargeDepth := 16) [Prod.ext_iff]) <;> (repeat' split) <;> (try simp_all (maxDischargeDepth := 16) [Prod.ext_iff]))

@[simp] theorem Part.advance_wf (p : Part) (hw : Mem.wf p.dram = true) : Mem.wf (Part.advance p).dram = true := by
  unfold Part.advance; (repeat' split) <;> simp_all (maxDischargeDepth := 16)

@[simp] theorem Part.takePullEnd_wf (c : Completion) (p : Part) (hw : Mem.wf p.dram = true) : Mem.wf
    (Part.takePullEnd c p).dram = true := by
  unfold Part.takePullEnd; ((try dsimp only); (repeat' split) <;> (try simp_all (maxDischargeDepth := 16) [Prod.ext_iff]) <;> (try (obtain ⟨_, rfl⟩ := ‹_ ∧ _ = (_ : Part)›)) <;> (try simp_all (maxDischargeDepth := 16) [Prod.ext_iff]) <;> (repeat' split) <;> (try (obtain ⟨_, rfl⟩ := ‹_ ∧ _ = (_ : Part)›)) <;> (try simp_all (maxDischargeDepth := 16) [Prod.ext_iff]) <;> (repeat' split) <;> (try simp_all (maxDischargeDepth := 16) [Prod.ext_iff]))

@[simp] theorem Part.drainPullEnds_wf (x1 : Nat) (x2 : Part) (hw : Mem.wf x2.dram = true) : Mem.wf
    (Part.drainPullEnds x1 x2).dram = true := by
  induction x1 generalizing x2 with
  | zero => simpa [Part.drainPullEnds] using hw
  | succ n ih => unfold Part.drainPullEnds; ((try dsimp only); (repeat' split) <;> (try simp_all (maxDischargeDepth := 16) [Prod.ext_iff]) <;> (try (obtain ⟨_, rfl⟩ := ‹_ ∧ _ = (_ : Part)›)) <;> (try simp_all (maxDischargeDepth := 16) [Prod.ext_iff]) <;> (repeat' split) <;> (try (obtain ⟨_, rfl⟩ := ‹_ ∧ _ = (_ : Part)›)) <;> (try simp_all (maxDischargeDepth := 16) [Prod.ext_iff]) <;> (repeat' split) <;> (try simp_all (maxDischargeDepth := 16) [Prod.ext_iff]))

@[simp] theorem Part.settlePulls_wf (x1 : Nat) (x2 : Part) (hw : Mem.wf x2.dram = true) : Mem.wf (Part.settlePulls
    x1 x2).dram = true := by
  induction x1 generalizing x2 with
  | zero => simpa [Part.settlePulls] using hw
  | succ n ih => unfold Part.settlePulls; ((try dsimp only); (repeat' split) <;> (try simp_all (maxDischargeDepth := 16) [Prod.ext_iff]) <;> (try (obtain ⟨_, rfl⟩ := ‹_ ∧ _ = (_ : Part)›)) <;> (try simp_all (maxDischargeDepth := 16) [Prod.ext_iff]) <;> (repeat' split) <;> (try (obtain ⟨_, rfl⟩ := ‹_ ∧ _ = (_ : Part)›)) <;> (try simp_all (maxDischargeDepth := 16) [Prod.ext_iff]) <;> (repeat' split) <;> (try simp_all (maxDischargeDepth := 16) [Prod.ext_iff]))

@[simp] theorem Part.pullsEnded_wf (p : Part) (hw : Mem.wf p.dram = true) : Mem.wf (Part.pullsEnded p).dram = true
    := by
  unfold Part.pullsEnded; (repeat' split) <;> simp_all (maxDischargeDepth := 16)

@[simp] theorem Part.relayReturned_wf (p : Part) (hw : Mem.wf p.dram = true) : Mem.wf (Part.relayReturned p).dram =
    true := by
  unfold Part.relayReturned; (repeat' split) <;> simp_all (maxDischargeDepth := 16)

@[simp] theorem Part.startUpload_wf (p : Part) (hw : Mem.wf p.dram = true) : Mem.wf (Part.startUpload p).dram = true
    := by
  unfold Part.startUpload; (repeat' split) <;> simp_all (maxDischargeDepth := 16)

@[simp] theorem Part.packRecords_wf (n : StationNo) (x1 : List Bytes) (x2 : Part) (hw : Mem.wf x2.dram = true) :
    Mem.wf (Part.packRecords n x1 x2).2.dram = true := by
  induction x1 generalizing x2 with
  | nil => simpa [Part.packRecords] using hw
  | cons r rs ih => unfold Part.packRecords; ((try dsimp only); (repeat' split) <;> (try simp_all (maxDischargeDepth := 16) [Prod.ext_iff]) <;> (try (obtain ⟨_, rfl⟩ := ‹_ ∧ _ = (_ : Part)›)) <;> (try simp_all (maxDischargeDepth := 16) [Prod.ext_iff]) <;> (repeat' split) <;> (try (obtain ⟨_, rfl⟩ := ‹_ ∧ _ = (_ : Part)›)) <;> (try simp_all (maxDischargeDepth := 16) [Prod.ext_iff]) <;> (repeat' split) <;> (try simp_all (maxDischargeDepth := 16) [Prod.ext_iff]))

@[simp] theorem Part.takePullData_wf (n : StationNo) (tag : Byte) (b : Bytes) (p : Part) (hw : Mem.wf p.dram = true)
    : Mem.wf (Part.takePullData n tag b p).dram = true := by
  unfold Part.takePullData; ((try dsimp only); (repeat' split) <;> (try simp_all (maxDischargeDepth := 16) [Prod.ext_iff]) <;> (try (obtain ⟨_, rfl⟩ := ‹_ ∧ _ = (_ : Part)›)) <;> (try simp_all (maxDischargeDepth := 16) [Prod.ext_iff]) <;> (repeat' split) <;> (try (obtain ⟨_, rfl⟩ := ‹_ ∧ _ = (_ : Part)›)) <;> (try simp_all (maxDischargeDepth := 16) [Prod.ext_iff]) <;> (repeat' split) <;> (try simp_all (maxDischargeDepth := 16) [Prod.ext_iff]))

@[simp] theorem Part.pullData_wf (p : Part) (hw : Mem.wf p.dram = true) : Mem.wf (Part.pullData p).dram = true := by
  unfold Part.pullData; ((try dsimp only); (repeat' split) <;> (try simp_all (maxDischargeDepth := 16) [Prod.ext_iff]) <;> (try (obtain ⟨_, rfl⟩ := ‹_ ∧ _ = (_ : Part)›)) <;> (try simp_all (maxDischargeDepth := 16) [Prod.ext_iff]) <;> (repeat' split) <;> (try (obtain ⟨_, rfl⟩ := ‹_ ∧ _ = (_ : Part)›)) <;> (try simp_all (maxDischargeDepth := 16) [Prod.ext_iff]) <;> (repeat' split) <;> (try simp_all (maxDischargeDepth := 16) [Prod.ext_iff]))

@[simp] theorem Part.ownRead_wf (p : Part) (hw : Mem.wf p.dram = true) : Mem.wf (Part.ownRead p).dram = true := by
  unfold Part.ownRead; ((try dsimp only); (repeat' split) <;> (try simp_all (maxDischargeDepth := 16) [Prod.ext_iff]) <;> (try (obtain ⟨_, rfl⟩ := ‹_ ∧ _ = (_ : Part)›)) <;> (try simp_all (maxDischargeDepth := 16) [Prod.ext_iff]) <;> (repeat' split) <;> (try (obtain ⟨_, rfl⟩ := ‹_ ∧ _ = (_ : Part)›)) <;> (try simp_all (maxDischargeDepth := 16) [Prod.ext_iff]) <;> (repeat' split) <;> (try simp_all (maxDischargeDepth := 16) [Prod.ext_iff]))

@[simp] theorem Part.sendRelease_wf (n : StationNo) (s : Nat) (p : Part) (hw : Mem.wf p.dram = true) : Mem.wf
    (Part.sendRelease n s p).2.dram = true := by
  unfold Part.sendRelease; (repeat' split) <;> simp_all (maxDischargeDepth := 16)

@[simp] theorem Part.passRelease_wf (n : StationNo) (s : Nat) (p : Part) (hw : Mem.wf p.dram = true) : Mem.wf
    (Part.passRelease n s p).dram = true := by
  unfold Part.passRelease; ((try dsimp only); (repeat' split) <;> (try simp_all (maxDischargeDepth := 16) [Prod.ext_iff]) <;> (try (obtain ⟨_, rfl⟩ := ‹_ ∧ _ = (_ : Part)›)) <;> (try simp_all (maxDischargeDepth := 16) [Prod.ext_iff]) <;> (repeat' split) <;> (try (obtain ⟨_, rfl⟩ := ‹_ ∧ _ = (_ : Part)›)) <;> (try simp_all (maxDischargeDepth := 16) [Prod.ext_iff]) <;> (repeat' split) <;> (try simp_all (maxDischargeDepth := 16) [Prod.ext_iff]))

@[simp] theorem Part.takeAck_wf (n : StationNo) (s : Nat) (p : Part) (hw : Mem.wf p.dram = true) : Mem.wf
    (Part.takeAck n s p).dram = true := by
  unfold Part.takeAck; ((try dsimp only); (repeat' split) <;> (try simp_all (maxDischargeDepth := 16) [Prod.ext_iff]) <;> (try (obtain ⟨_, rfl⟩ := ‹_ ∧ _ = (_ : Part)›)) <;> (try simp_all (maxDischargeDepth := 16) [Prod.ext_iff]) <;> (repeat' split) <;> (try (obtain ⟨_, rfl⟩ := ‹_ ∧ _ = (_ : Part)›)) <;> (try simp_all (maxDischargeDepth := 16) [Prod.ext_iff]) <;> (repeat' split) <;> (try simp_all (maxDischargeDepth := 16) [Prod.ext_iff]))

@[simp] theorem Part.ackExpiry_wf (p : Part) (hw : Mem.wf p.dram = true) : Mem.wf (Part.ackExpiry p).dram = true :=
    by
  unfold Part.ackExpiry; ((try dsimp only); (repeat' split) <;> (try simp_all (maxDischargeDepth := 16) [Prod.ext_iff]) <;> (try (obtain ⟨_, rfl⟩ := ‹_ ∧ _ = (_ : Part)›)) <;> (try simp_all (maxDischargeDepth := 16) [Prod.ext_iff]) <;> (repeat' split) <;> (try (obtain ⟨_, rfl⟩ := ‹_ ∧ _ = (_ : Part)›)) <;> (try simp_all (maxDischargeDepth := 16) [Prod.ext_iff]) <;> (repeat' split) <;> (try simp_all (maxDischargeDepth := 16) [Prod.ext_iff]))

@[simp] theorem Part.blockSent_wf (b : Buf) (first : Bool) (p : Part) (hw : Mem.wf p.dram = true) : Mem.wf
    (Part.blockSent b first p).dram = true := by
  unfold Part.blockSent; ((try dsimp only); (repeat' split) <;> (try simp_all (maxDischargeDepth := 16) [Prod.ext_iff]) <;> (try (obtain ⟨_, rfl⟩ := ‹_ ∧ _ = (_ : Part)›)) <;> (try simp_all (maxDischargeDepth := 16) [Prod.ext_iff]) <;> (repeat' split) <;> (try (obtain ⟨_, rfl⟩ := ‹_ ∧ _ = (_ : Part)›)) <;> (try simp_all (maxDischargeDepth := 16) [Prod.ext_iff]) <;> (repeat' split) <;> (try simp_all (maxDischargeDepth := 16) [Prod.ext_iff]))

@[simp] theorem Part.trunkSent_wf (f : TFrame) (p : Part) (hw : Mem.wf p.dram = true) : Mem.wf (Part.trunkSent f
    p).dram = true := by
  unfold Part.trunkSent; (repeat' split) <;> simp_all (maxDischargeDepth := 16)

@[simp] theorem Part.blockAck_wf (p : Part) (hw : Mem.wf p.dram = true) : Mem.wf (Part.blockAck p).dram = true := by
  unfold Part.blockAck; (repeat' split) <;> simp_all (maxDischargeDepth := 16)

@[simp] theorem Part.fileHead_wf (p : Part) (hw : Mem.wf p.dram = true) : Mem.wf (Part.fileHead p).dram = true := by
  unfold Part.fileHead Part.takeFile; ((try dsimp only); (repeat' split) <;> (try simp_all (maxDischargeDepth := 16) [Prod.ext_iff]) <;> (try (obtain ⟨_, rfl⟩ := ‹_ ∧ _ = (_ : Part)›)) <;> (try simp_all (maxDischargeDepth := 16) [Prod.ext_iff]) <;> (repeat' split) <;> (try (obtain ⟨_, rfl⟩ := ‹_ ∧ _ = (_ : Part)›)) <;> (try simp_all (maxDischargeDepth := 16) [Prod.ext_iff]) <;> (repeat' split) <;> (try simp_all (maxDischargeDepth := 16) [Prod.ext_iff]))

@[simp] theorem Part.filePart_wf (p : Part) (hw : Mem.wf p.dram = true) : Mem.wf (Part.filePart p).dram = true := by
  unfold Part.filePart Part.takeFile; ((try dsimp only); (repeat' split) <;> (try simp_all (maxDischargeDepth := 16) [Prod.ext_iff]) <;> (try (obtain ⟨_, rfl⟩ := ‹_ ∧ _ = (_ : Part)›)) <;> (try simp_all (maxDischargeDepth := 16) [Prod.ext_iff]) <;> (repeat' split) <;> (try (obtain ⟨_, rfl⟩ := ‹_ ∧ _ = (_ : Part)›)) <;> (try simp_all (maxDischargeDepth := 16) [Prod.ext_iff]) <;> (repeat' split) <;> (try simp_all (maxDischargeDepth := 16) [Prod.ext_iff]))

@[simp] theorem Part.fileEnd_wf (p : Part) (hw : Mem.wf p.dram = true) : Mem.wf (Part.fileEnd p).dram = true := by
  unfold Part.fileEnd Part.takeFile; ((try dsimp only); (repeat' split) <;> (try simp_all (maxDischargeDepth := 16) [Prod.ext_iff]) <;> (try (obtain ⟨_, rfl⟩ := ‹_ ∧ _ = (_ : Part)›)) <;> (try simp_all (maxDischargeDepth := 16) [Prod.ext_iff]) <;> (repeat' split) <;> (try (obtain ⟨_, rfl⟩ := ‹_ ∧ _ = (_ : Part)›)) <;> (try simp_all (maxDischargeDepth := 16) [Prod.ext_iff]) <;> (repeat' split) <;> (try simp_all (maxDischargeDepth := 16) [Prod.ext_iff]))

@[simp] theorem Part.trunkClaim_wf (p : Part) (hw : Mem.wf p.dram = true) : Mem.wf (Part.trunkClaim p).dram = true
    := by
  unfold Part.trunkClaim; (repeat' split) <;> simp_all (maxDischargeDepth := 16)

@[simp] theorem Part.carrierUp_wf (p : Part) (hw : Mem.wf p.dram = true) : Mem.wf (Part.carrierUp p).dram = true :=
    by
  unfold Part.carrierUp; (repeat' split) <;> simp_all (maxDischargeDepth := 16)

@[simp] theorem Part.carrierLoss_wf (p : Part) (hw : Mem.wf p.dram = true) : Mem.wf (Part.carrierLoss p).dram = true
    := by
  unfold Part.carrierLoss; ((try dsimp only); (repeat' split) <;> (try simp_all (maxDischargeDepth := 16) [Prod.ext_iff]) <;> (try (obtain ⟨_, rfl⟩ := ‹_ ∧ _ = (_ : Part)›)) <;> (try simp_all (maxDischargeDepth := 16) [Prod.ext_iff]) <;> (repeat' split) <;> (try (obtain ⟨_, rfl⟩ := ‹_ ∧ _ = (_ : Part)›)) <;> (try simp_all (maxDischargeDepth := 16) [Prod.ext_iff]) <;> (repeat' split) <;> (try simp_all (maxDischargeDepth := 16) [Prod.ext_iff]))

@[simp] theorem Part.sessionTick_wf (p : Part) (hw : Mem.wf p.dram = true) : Mem.wf (Part.sessionTick p).dram = true
    := by
  unfold Part.sessionTick; (repeat' split) <;> simp_all (maxDischargeDepth := 16)

@[simp] theorem Part.logonExpiry_wf (p : Part) (hw : Mem.wf p.dram = true) : Mem.wf (Part.logonExpiry p).dram = true
    := by
  unfold Part.logonExpiry; (repeat' split) <;> simp_all (maxDischargeDepth := 16)

@[simp] theorem Part.ownRetry_wf (p : Part) (hw : Mem.wf p.dram = true) : Mem.wf (Part.ownRetry p).dram = true := by
  unfold Part.ownRetry; (repeat' split) <;> simp_all (maxDischargeDepth := 16)

@[simp] theorem Part.pullRetry_wf (p : Part) (hw : Mem.wf p.dram = true) : Mem.wf (Part.pullRetry p).dram = true :=
    by
  unfold Part.pullRetry; (repeat' split) <;> simp_all (maxDischargeDepth := 16)

@[simp] theorem Part.downloadExpiry_wf (p : Part) (hw : Mem.wf p.dram = true) : Mem.wf (Part.downloadExpiry p).dram
    = true := by
  unfold Part.downloadExpiry; (repeat' split) <;> simp_all (maxDischargeDepth := 16)

@[simp] theorem Part.windowStart_wf (night : Nat) (p : Part) (hw : Mem.wf p.dram = true) : Mem.wf (Part.windowStart
    night p).dram = true := by
  unfold Part.windowStart; (repeat' split) <;> simp_all (maxDischargeDepth := 16)

@[simp] theorem Part.windowEnd_wf (p : Part) (hw : Mem.wf p.dram = true) : Mem.wf (Part.windowEnd p).dram = true :=
    by
  unfold Part.windowEnd; (repeat' split) <;> simp_all (maxDischargeDepth := 16)

@[simp] theorem Part.windowChange_wf (before : Option Nat) (after : Option Nat) (p : Part) (hw : Mem.wf p.dram =
    true) : Mem.wf (Part.windowChange before after p).dram = true := by
  unfold Part.windowChange; (repeat' split) <;> simp_all (maxDischargeDepth := 16)

@[simp] theorem Part.clockTo_wf (c : Clock) (p : Part) (hw : Mem.wf p.dram = true) : Mem.wf (Part.clockTo c p).dram
    = true := by
  unfold Part.clockTo; ((try dsimp only); (repeat' split) <;> (try simp_all (maxDischargeDepth := 16) [Prod.ext_iff]) <;> (try (obtain ⟨_, rfl⟩ := ‹_ ∧ _ = (_ : Part)›)) <;> (try simp_all (maxDischargeDepth := 16) [Prod.ext_iff]) <;> (repeat' split) <;> (try (obtain ⟨_, rfl⟩ := ‹_ ∧ _ = (_ : Part)›)) <;> (try simp_all (maxDischargeDepth := 16) [Prod.ext_iff]) <;> (repeat' split) <;> (try simp_all (maxDischargeDepth := 16) [Prod.ext_iff]))

@[simp] theorem Part.setClock_wf (day : Nat) (minute : Nat) (second : Nat) (p : Part) (hw : Mem.wf p.dram = true) :
    Mem.wf (Part.setClock day minute second p).dram = true := by
  unfold Part.setClock; (repeat' split) <;> simp_all (maxDischargeDepth := 16)

@[simp] theorem Part.clockTick_wf (p : Part) (hw : Mem.wf p.dram = true) : Mem.wf (Part.clockTick p).dram = true :=
    by
  unfold Part.clockTick; (repeat' split) <;> simp_all (maxDischargeDepth := 16)

@[simp] theorem Part.welcome_wf (p : Part) (hw : Mem.wf p.dram = true) : Mem.wf (Part.welcome p).dram = true := by
  unfold Part.welcome; ((try dsimp only); (repeat' split) <;> (try simp_all (maxDischargeDepth := 16) [Prod.ext_iff]) <;> (try (obtain ⟨_, rfl⟩ := ‹_ ∧ _ = (_ : Part)›)) <;> (try simp_all (maxDischargeDepth := 16) [Prod.ext_iff]) <;> (repeat' split) <;> (try (obtain ⟨_, rfl⟩ := ‹_ ∧ _ = (_ : Part)›)) <;> (try simp_all (maxDischargeDepth := 16) [Prod.ext_iff]) <;> (repeat' split) <;> (try simp_all (maxDischargeDepth := 16) [Prod.ext_iff]))

@[simp] theorem Part.setJoining_wf (j : Joining) (p : Part) (hw : Mem.wf p.dram = true) : Mem.wf (Part.setJoining j
    p).dram = true := by
  unfold Part.setJoining; ((try dsimp only); (repeat' split) <;> (try simp_all (maxDischargeDepth := 16) [Prod.ext_iff]) <;> (try (obtain ⟨_, rfl⟩ := ‹_ ∧ _ = (_ : Part)›)) <;> (try simp_all (maxDischargeDepth := 16) [Prod.ext_iff]) <;> (repeat' split) <;> (try (obtain ⟨_, rfl⟩ := ‹_ ∧ _ = (_ : Part)›)) <;> (try simp_all (maxDischargeDepth := 16) [Prod.ext_iff]) <;> (repeat' split) <;> (try simp_all (maxDischargeDepth := 16) [Prod.ext_iff]))

@[simp] theorem Part.enterListen_wf (p : Part) (hw : Mem.wf p.dram = true) : Mem.wf (Part.enterListen p).dram = true
    := by
  unfold Part.enterListen; (repeat' split) <;> simp_all (maxDischargeDepth := 16)

@[simp] theorem Part.sendPresence_wf (p : Part) (hw : Mem.wf p.dram = true) : Mem.wf (Part.sendPresence p).dram =
    true := by
  unfold Part.sendPresence; ((try dsimp only); (repeat' split) <;> (try simp_all (maxDischargeDepth := 16) [Prod.ext_iff]) <;> (try (obtain ⟨_, rfl⟩ := ‹_ ∧ _ = (_ : Part)›)) <;> (try simp_all (maxDischargeDepth := 16) [Prod.ext_iff]) <;> (repeat' split) <;> (try (obtain ⟨_, rfl⟩ := ‹_ ∧ _ = (_ : Part)›)) <;> (try simp_all (maxDischargeDepth := 16) [Prod.ext_iff]) <;> (repeat' split) <;> (try simp_all (maxDischargeDepth := 16) [Prod.ext_iff]))

@[simp] theorem Part.presenceTick_wf (p : Part) (hw : Mem.wf p.dram = true) : Mem.wf (Part.presenceTick p).dram =
    true := by
  unfold Part.presenceTick; ((try dsimp only); (repeat' split) <;> (try simp_all (maxDischargeDepth := 16) [Prod.ext_iff]) <;> (try (obtain ⟨_, rfl⟩ := ‹_ ∧ _ = (_ : Part)›)) <;> (try simp_all (maxDischargeDepth := 16) [Prod.ext_iff]) <;> (repeat' split) <;> (try (obtain ⟨_, rfl⟩ := ‹_ ∧ _ = (_ : Part)›)) <;> (try simp_all (maxDischargeDepth := 16) [Prod.ext_iff]) <;> (repeat' split) <;> (try simp_all (maxDischargeDepth := 16) [Prod.ext_iff]))

@[simp] theorem Part.enterSync_wf (p : Part) (hw : Mem.wf p.dram = true) : Mem.wf (Part.enterSync p).dram = true :=
    by
  unfold Part.enterSync; ((try dsimp only); (repeat' split) <;> (try simp_all (maxDischargeDepth := 16) [Prod.ext_iff]) <;> (try (obtain ⟨_, rfl⟩ := ‹_ ∧ _ = (_ : Part)›)) <;> (try simp_all (maxDischargeDepth := 16) [Prod.ext_iff]) <;> (repeat' split) <;> (try (obtain ⟨_, rfl⟩ := ‹_ ∧ _ = (_ : Part)›)) <;> (try simp_all (maxDischargeDepth := 16) [Prod.ext_iff]) <;> (repeat' split) <;> (try simp_all (maxDischargeDepth := 16) [Prod.ext_iff]))

@[simp] theorem Part.syncCheck_wf (p : Part) (hw : Mem.wf p.dram = true) : Mem.wf (Part.syncCheck p).dram = true :=
    by
  unfold Part.syncCheck; (repeat' split) <;> simp_all (maxDischargeDepth := 16)

@[simp] theorem Part.endAnnouncing_wf (p : Part) (hw : Mem.wf p.dram = true) : Mem.wf (Part.endAnnouncing p).dram =
    true := by
  unfold Part.endAnnouncing; (repeat' split) <;> simp_all (maxDischargeDepth := 16)

@[simp] theorem Part.readyCheck_wf (g : Nat) (p : Part) (hw : Mem.wf p.dram = true) : Mem.wf (Part.readyCheck g
    p).dram = true := by
  unfold Part.readyCheck; ((try dsimp only); (repeat' split) <;> (try simp_all (maxDischargeDepth := 16) [Prod.ext_iff]) <;> (try (obtain ⟨_, rfl⟩ := ‹_ ∧ _ = (_ : Part)›)) <;> (try simp_all (maxDischargeDepth := 16) [Prod.ext_iff]) <;> (repeat' split) <;> (try (obtain ⟨_, rfl⟩ := ‹_ ∧ _ = (_ : Part)›)) <;> (try simp_all (maxDischargeDepth := 16) [Prod.ext_iff]) <;> (repeat' split) <;> (try simp_all (maxDischargeDepth := 16) [Prod.ext_iff]))

@[simp] theorem Part.holderNotice_wf (n : StationNo) (d : PresenceData) (p : Part) (hw : Mem.wf p.dram = true) :
    Mem.wf (Part.holderNotice n d p).dram = true := by
  unfold Part.holderNotice; (repeat' split) <;> simp_all (maxDischargeDepth := 16)

@[simp] theorem Part.lateRelease_wf (n : StationNo) (d : PresenceData) (p : Part) (hw : Mem.wf p.dram = true) :
    Mem.wf (Part.lateRelease n d p).dram = true := by
  unfold Part.lateRelease; ((try dsimp only); (repeat' split) <;> (try simp_all (maxDischargeDepth := 16) [Prod.ext_iff]) <;> (try (obtain ⟨_, rfl⟩ := ‹_ ∧ _ = (_ : Part)›)) <;> (try simp_all (maxDischargeDepth := 16) [Prod.ext_iff]) <;> (repeat' split) <;> (try (obtain ⟨_, rfl⟩ := ‹_ ∧ _ = (_ : Part)›)) <;> (try simp_all (maxDischargeDepth := 16) [Prod.ext_iff]) <;> (repeat' split) <;> (try simp_all (maxDischargeDepth := 16) [Prod.ext_iff]))

@[simp] theorem Part.peerNotice_wf (n : StationNo) (taken : Option PresenceData) (p : Part) (hw : Mem.wf p.dram =
    true) : Mem.wf (Part.peerNotice n taken p).dram = true := by
  unfold Part.peerNotice; ((try dsimp only); (repeat' split) <;> (try simp_all (maxDischargeDepth := 16) [Prod.ext_iff]) <;> (try (obtain ⟨_, rfl⟩ := ‹_ ∧ _ = (_ : Part)›)) <;> (try simp_all (maxDischargeDepth := 16) [Prod.ext_iff]) <;> (repeat' split) <;> (try (obtain ⟨_, rfl⟩ := ‹_ ∧ _ = (_ : Part)›)) <;> (try simp_all (maxDischargeDepth := 16) [Prod.ext_iff]) <;> (repeat' split) <;> (try simp_all (maxDischargeDepth := 16) [Prod.ext_iff]))

@[simp] theorem Part.clockFrom_wf (n : StationNo) (d : PresenceData) (p : Part) (hw : Mem.wf p.dram = true) : Mem.wf
    (Part.clockFrom n d p).dram = true := by
  unfold Part.clockFrom; (repeat' split) <;> simp_all (maxDischargeDepth := 16)

@[simp] theorem Part.takePeer_wf (n : StationNo) (d : PresenceData) (p : Part) (hw : Mem.wf p.dram = true) : Mem.wf
    (Part.takePeer n d p).dram = true := by
  unfold Part.takePeer; (repeat' split) <;> simp_all (maxDischargeDepth := 16)

@[simp] theorem Part.takeOwn_wf (p : Part) (hw : Mem.wf p.dram = true) : Mem.wf (Part.takeOwn p).dram = true := by
  unfold Part.takeOwn; (repeat' split) <;> simp_all (maxDischargeDepth := 16)

@[simp] theorem Part.presence_wf (p : Part) (hw : Mem.wf p.dram = true) : Mem.wf (Part.presence p).dram = true := by
  unfold Part.presence; (repeat' split) <;> simp_all (maxDischargeDepth := 16)

@[simp] theorem Part.peerSilence_wf (n : StationNo) (p : Part) (hw : Mem.wf p.dram = true) : Mem.wf
    (Part.peerSilence n p).dram = true := by
  unfold Part.peerSilence; ((try dsimp only); (repeat' split) <;> (try simp_all (maxDischargeDepth := 16) [Prod.ext_iff]) <;> (try (obtain ⟨_, rfl⟩ := ‹_ ∧ _ = (_ : Part)›)) <;> (try simp_all (maxDischargeDepth := 16) [Prod.ext_iff]) <;> (repeat' split) <;> (try (obtain ⟨_, rfl⟩ := ‹_ ∧ _ = (_ : Part)›)) <;> (try simp_all (maxDischargeDepth := 16) [Prod.ext_iff]) <;> (repeat' split) <;> (try simp_all (maxDischargeDepth := 16) [Prod.ext_iff]))

@[simp] theorem Part.configPassed_wf (c : ConfigBlock) (p : Part) (hw : Mem.wf p.dram = true) : Mem.wf
    (Part.configPassed c p).dram = true := by
  unfold Part.configPassed; (repeat' split) <;> simp_all (maxDischargeDepth := 16)

@[simp] theorem Part.configRead_wf (block : Bytes) (p : Part) (hw : Mem.wf p.dram = true) : Mem.wf (Part.configRead
    block p).dram = true := by
  unfold Part.configRead; (repeat' split) <;> simp_all (maxDischargeDepth := 16)

@[simp] theorem Part.loopEnd_wf (passed : Bool) (p : Part) (hw : Mem.wf p.dram = true) : Mem.wf (Part.loopEnd passed
    p).dram = true := by
  unfold Part.loopEnd; (repeat' split) <;> simp_all (maxDischargeDepth := 16)

@[simp] theorem Part.loopResult_wf (front : List Bool) (frame : List Bool) (p : Part) (hw : Mem.wf p.dram = true) :
    Mem.wf (Part.loopResult front frame p).dram = true := by
  unfold Part.loopResult; (repeat' split) <;> simp_all (maxDischargeDepth := 16)

@[simp] theorem Part.warmStaging_wf (h : HeaderCopy) (p : Part) (hw : Mem.wf p.dram = true) : Mem.wf
    (Part.warmStaging h p).dram = true := by
  unfold Part.warmStaging; (repeat' split) <;> simp_all (maxDischargeDepth := 16)

@[simp] theorem Part.warmStart_wf (h : HeaderCopy) (p : Part) (hw : Mem.wf p.dram = true) : Mem.wf (Part.warmStart h
    p).dram = true := by
  unfold Part.warmStart; (repeat' split) <;> simp_all (maxDischargeDepth := 16)

@[simp] theorem Part.coldStart_wf (p : Part) (hw : Mem.wf p.dram = true) : Mem.wf (Part.coldStart p).dram = true :=
    by
  unfold Part.coldStart; (repeat' split) <;> simp_all (maxDischargeDepth := 16)

@[simp] theorem Part.headerRead_wf (p : Part) (hw : Mem.wf p.dram = true) : Mem.wf (Part.headerRead p).dram = true
    := by
  unfold Part.headerRead; (repeat' split) <;> simp_all (maxDischargeDepth := 16)

@[simp] theorem Part.bankSwitched_wf (p : Part) (hw : Mem.wf p.dram = true) : Mem.wf (Part.bankSwitched p).dram =
    true := by
  unfold Part.bankSwitched; (repeat' split) <;> simp_all (maxDischargeDepth := 16)

@[simp] theorem Part.pricingHeaderNotice_wf (p : Part) (hw : Mem.wf p.dram = true) : Mem.wf
    (Part.pricingHeaderNotice p).dram = true := by
  unfold Part.pricingHeaderNotice; (repeat' split) <;> simp_all (maxDischargeDepth := 16)

@[simp] theorem Part.startHeaderNotice_wf (p : Part) (hw : Mem.wf p.dram = true) : Mem.wf (Part.startHeaderNotice
    p).dram = true := by
  unfold Part.startHeaderNotice; (repeat' split) <;> simp_all (maxDischargeDepth := 16)

@[simp] theorem Part.headerNotice_wf (h : HeaderCopy) (u : HeaderUser) (p : Part) (hw : Mem.wf p.dram = true) :
    Mem.wf (Part.headerNotice h u p).dram = true := by
  unfold Part.headerNotice; (repeat' split) <;> simp_all (maxDischargeDepth := 16)

@[simp] theorem Part.foldl_headerNotice_wf (hc : HeaderCopy) (l : List HeaderUser) (p : Part) (h : Mem.wf p.dram = true) :
    Mem.wf (l.foldl (fun r u => Part.headerNotice hc u r) p).dram = true :=
  foldl_wf _ (fun q x hq => by (repeat' split) <;> simp (maxDischargeDepth := 16) [hq]) _ _ h

@[simp] theorem Part.headerWritten_wf (p : Part) (hw : Mem.wf p.dram = true) : Mem.wf (Part.headerWritten p).dram =
    true := by
  unfold Part.headerWritten; (repeat' split) <;> simp_all (maxDischargeDepth := 16)

@[simp] theorem Part.scanComplete_wf (p : Part) (hw : Mem.wf p.dram = true) : Mem.wf (Part.scanComplete p).dram =
    true := by
  unfold Part.scanComplete; ((try dsimp only); (repeat' split) <;> (try simp_all (maxDischargeDepth := 16) [Prod.ext_iff]) <;> (try (obtain ⟨_, rfl⟩ := ‹_ ∧ _ = (_ : Part)›)) <;> (try simp_all (maxDischargeDepth := 16) [Prod.ext_iff]) <;> (repeat' split) <;> (try (obtain ⟨_, rfl⟩ := ‹_ ∧ _ = (_ : Part)›)) <;> (try simp_all (maxDischargeDepth := 16) [Prod.ext_iff]) <;> (repeat' split) <;> (try simp_all (maxDischargeDepth := 16) [Prod.ext_iff]))

@[simp] theorem Part.listenExpiry_wf (p : Part) (hw : Mem.wf p.dram = true) : Mem.wf (Part.listenExpiry p).dram =
    true := by
  unfold Part.listenExpiry; (repeat' split) <;> simp_all (maxDischargeDepth := 16)

@[simp] theorem Part.tillBind_wf (n : PortNo) (p : Part) (hw : Mem.wf p.dram = true) : Mem.wf (Part.tillBind n
    p).dram = true := by
  unfold Part.tillBind Part.executeLabel Part.executeRequest; ((try dsimp only); (repeat' split) <;> (try simp_all (maxDischargeDepth := 16) [Prod.ext_iff]) <;> (try (obtain ⟨_, rfl⟩ := ‹_ ∧ _ = (_ : Part)›)) <;> (try simp_all (maxDischargeDepth := 16) [Prod.ext_iff]) <;> (repeat' split) <;> (try (obtain ⟨_, rfl⟩ := ‹_ ∧ _ = (_ : Part)›)) <;> (try simp_all (maxDischargeDepth := 16) [Prod.ext_iff]) <;> (repeat' split) <;> (try simp_all (maxDischargeDepth := 16) [Prod.ext_iff]))

@[simp] theorem Part.tillUnbind_wf (n : PortNo) (p : Part) (hw : Mem.wf p.dram = true) : Mem.wf (Part.tillUnbind n
    p).dram = true := by
  unfold Part.tillUnbind Part.executeLabel Part.executeRequest; ((try dsimp only); (repeat' split) <;> (try simp_all (maxDischargeDepth := 16) [Prod.ext_iff]) <;> (try (obtain ⟨_, rfl⟩ := ‹_ ∧ _ = (_ : Part)›)) <;> (try simp_all (maxDischargeDepth := 16) [Prod.ext_iff]) <;> (repeat' split) <;> (try (obtain ⟨_, rfl⟩ := ‹_ ∧ _ = (_ : Part)›)) <;> (try simp_all (maxDischargeDepth := 16) [Prod.ext_iff]) <;> (repeat' split) <;> (try simp_all (maxDischargeDepth := 16) [Prod.ext_iff]))

@[simp] theorem Part.tillRetry_wf (n : PortNo) (p : Part) (hw : Mem.wf p.dram = true) : Mem.wf (Part.tillRetry n
    p).dram = true := by
  unfold Part.tillRetry Part.executeLabel Part.executeRequest; ((try dsimp only); (repeat' split) <;> (try simp_all (maxDischargeDepth := 16) [Prod.ext_iff]) <;> (try (obtain ⟨_, rfl⟩ := ‹_ ∧ _ = (_ : Part)›)) <;> (try simp_all (maxDischargeDepth := 16) [Prod.ext_iff]) <;> (repeat' split) <;> (try (obtain ⟨_, rfl⟩ := ‹_ ∧ _ = (_ : Part)›)) <;> (try simp_all (maxDischargeDepth := 16) [Prod.ext_iff]) <;> (repeat' split) <;> (try simp_all (maxDischargeDepth := 16) [Prod.ext_iff]))

@[simp] theorem Part.journalFirst_wf (p : Part) (hw : Mem.wf p.dram = true) : Mem.wf (Part.journalFirst p).dram =
    true := by
  unfold Part.journalFirst; (repeat' split) <;> simp_all (maxDischargeDepth := 16)

@[simp] theorem Part.journalSecond_wf (p : Part) (hw : Mem.wf p.dram = true) : Mem.wf (Part.journalSecond p).dram =
    true := by
  unfold Part.journalSecond; (repeat' split) <;> simp_all (maxDischargeDepth := 16)

@[simp] theorem Part.ownersTake_wf (p : Part) (hw : Mem.wf p.dram = true) : Mem.wf (Part.ownersTake p).dram = true
    := by
  unfold Part.ownersTake; ((try dsimp only); (repeat' split) <;> (try simp_all (maxDischargeDepth := 16) [Prod.ext_iff]) <;> (try (obtain ⟨_, rfl⟩ := ‹_ ∧ _ = (_ : Part)›)) <;> (try simp_all (maxDischargeDepth := 16) [Prod.ext_iff]) <;> (repeat' split) <;> (try (obtain ⟨_, rfl⟩ := ‹_ ∧ _ = (_ : Part)›)) <;> (try simp_all (maxDischargeDepth := 16) [Prod.ext_iff]) <;> (repeat' split) <;> (try simp_all (maxDischargeDepth := 16) [Prod.ext_iff]))

@[simp] theorem Part.closeCaller_wf (tag : Byte) (x : CallEnd) (tail : Option Nat) (p : Part) (hw : Mem.wf p.dram =
    true) : Mem.wf (Part.closeCaller tag x tail p).dram = true := by
  unfold Part.closeCaller; ((try dsimp only); (repeat' split) <;> (try simp_all (maxDischargeDepth := 16) [Prod.ext_iff]) <;> (try (obtain ⟨_, rfl⟩ := ‹_ ∧ _ = (_ : Part)›)) <;> (try simp_all (maxDischargeDepth := 16) [Prod.ext_iff]) <;> (repeat' split) <;> (try (obtain ⟨_, rfl⟩ := ‹_ ∧ _ = (_ : Part)›)) <;> (try simp_all (maxDischargeDepth := 16) [Prod.ext_iff]) <;> (repeat' split) <;> (try simp_all (maxDischargeDepth := 16) [Prod.ext_iff]))

@[simp] theorem Part.turnNotSent_wf (what : TurnWhat) (p : Part) (hw : Mem.wf p.dram = true) : Mem.wf
    (Part.turnNotSent what p).dram = true := by
  unfold Part.turnNotSent; (repeat' split) <;> simp_all (maxDischargeDepth := 16)

@[simp] theorem Part.turn_wf (what : TurnWhat) (dest : StationNo) (kind : Nat) (payload : Bytes) (p : Part) (hw :
    Mem.wf p.dram = true) : Mem.wf (Part.turn what dest kind payload p).dram = true := by
  unfold Part.turn; ((try dsimp only); (repeat' split) <;> (try simp_all (maxDischargeDepth := 16) [Prod.ext_iff]) <;> (try (obtain ⟨_, rfl⟩ := ‹_ ∧ _ = (_ : Part)›)) <;> (try simp_all (maxDischargeDepth := 16) [Prod.ext_iff]) <;> (repeat' split) <;> (try (obtain ⟨_, rfl⟩ := ‹_ ∧ _ = (_ : Part)›)) <;> (try simp_all (maxDischargeDepth := 16) [Prod.ext_iff]) <;> (repeat' split) <;> (try simp_all (maxDischargeDepth := 16) [Prod.ext_iff]))

@[simp] theorem Part.sendEnd_wf (c : Conn) (p : Part) (hw : Mem.wf p.dram = true) : Mem.wf (Part.sendEnd c p).dram =
    true := by
  unfold Part.sendEnd; (repeat' split) <;> simp_all (maxDischargeDepth := 16)

@[simp] theorem Part.sendData_wf (c : Conn) (pos : Nat) (most : Nat) (again : Bool) (p : Part) (hw : Mem.wf p.dram =
    true) : Mem.wf (Part.sendData c pos most again p).dram = true := by
  unfold Part.sendData; ((try dsimp only); (repeat' split) <;> (try simp_all (maxDischargeDepth := 16) [Prod.ext_iff]) <;> (try (obtain ⟨_, rfl⟩ := ‹_ ∧ _ = (_ : Part)›)) <;> (try simp_all (maxDischargeDepth := 16) [Prod.ext_iff]) <;> (repeat' split) <;> (try (obtain ⟨_, rfl⟩ := ‹_ ∧ _ = (_ : Part)›)) <;> (try simp_all (maxDischargeDepth := 16) [Prod.ext_iff]) <;> (repeat' split) <;> (try simp_all (maxDischargeDepth := 16) [Prod.ext_iff]))

@[simp] theorem Part.sendNext_wf (c : Conn) (p : Part) (hw : Mem.wf p.dram = true) : Mem.wf (Part.sendNext c p).dram
    = true := by
  unfold Part.sendNext; (repeat' split) <;> simp_all (maxDischargeDepth := 16)

@[simp] theorem Part.sendFirst_wf (c : Conn) (p : Part) (hw : Mem.wf p.dram = true) : Mem.wf (Part.sendFirst c
    p).dram = true := by
  unfold Part.sendFirst; (repeat' split) <;> simp_all (maxDischargeDepth := 16)

@[simp] theorem Part.turnSent_wf (what : TurnWhat) (p : Part) (hw : Mem.wf p.dram = true) : Mem.wf (Part.turnSent
    what p).dram = true := by
  unfold Part.turnSent; ((try dsimp only); (repeat' split) <;> (try simp_all (maxDischargeDepth := 16) [Prod.ext_iff]) <;> (try (obtain ⟨_, rfl⟩ := ‹_ ∧ _ = (_ : Part)›)) <;> (try simp_all (maxDischargeDepth := 16) [Prod.ext_iff]) <;> (repeat' split) <;> (try (obtain ⟨_, rfl⟩ := ‹_ ∧ _ = (_ : Part)›)) <;> (try simp_all (maxDischargeDepth := 16) [Prod.ext_iff]) <;> (repeat' split) <;> (try simp_all (maxDischargeDepth := 16) [Prod.ext_iff]))

@[simp] theorem Part.sendReceipt_wf (c : Conn) (good : Bool) (p : Part) (hw : Mem.wf p.dram = true) : Mem.wf
    (Part.sendReceipt c good p).dram = true := by
  unfold Part.sendReceipt; (repeat' split) <;> simp_all (maxDischargeDepth := 16)

@[simp] theorem Part.receiptBad_wf (c : Conn) (p : Part) (hw : Mem.wf p.dram = true) : Mem.wf (Part.receiptBad c
    p).dram = true := by
  unfold Part.receiptBad; (repeat' split) <;> simp_all (maxDischargeDepth := 16)

@[simp] theorem Part.turnLost_wf (p : Part) (hw : Mem.wf p.dram = true) : Mem.wf (Part.turnLost p).dram = true := by
  unfold Part.turnLost; (repeat' split) <;> simp_all (maxDischargeDepth := 16)

@[simp] theorem Part.turnExpired_wf (p : Part) (hw : Mem.wf p.dram = true) : Mem.wf (Part.turnExpired p).dram = true
    := by
  unfold Part.turnExpired; (repeat' split) <;> simp_all (maxDischargeDepth := 16)

@[simp] theorem Part.strayTurn_wf (it : RxItem) (p : Part) (hw : Mem.wf p.dram = true) : Mem.wf (Part.strayTurn it
    p).dram = true := by
  unfold Part.strayTurn; (repeat' split) <;> simp_all (maxDischargeDepth := 16)

@[simp] theorem Part.deferCall_wf (caller : StationNo) (tag : Byte) (r : Request) (p : Part) (hw : Mem.wf p.dram =
    true) : Mem.wf (Part.deferCall caller tag r p).dram = true := by
  unfold Part.deferCall; ((try dsimp only); (repeat' split) <;> (try simp_all (maxDischargeDepth := 16) [Prod.ext_iff]) <;> (try (obtain ⟨_, rfl⟩ := ‹_ ∧ _ = (_ : Part)›)) <;> (try simp_all (maxDischargeDepth := 16) [Prod.ext_iff]) <;> (repeat' split) <;> (try (obtain ⟨_, rfl⟩ := ‹_ ∧ _ = (_ : Part)›)) <;> (try simp_all (maxDischargeDepth := 16) [Prod.ext_iff]) <;> (repeat' split) <;> (try simp_all (maxDischargeDepth := 16) [Prod.ext_iff]))

@[simp] theorem Part.callReceived_wf (p : Part) (hw : Mem.wf p.dram = true) : Mem.wf (Part.callReceived p).dram =
    true := by
  unfold Part.callReceived; ((try dsimp only); (repeat' split) <;> (try simp_all (maxDischargeDepth := 16) [Prod.ext_iff]) <;> (try (obtain ⟨_, rfl⟩ := ‹_ ∧ _ = (_ : Part)›)) <;> (try simp_all (maxDischargeDepth := 16) [Prod.ext_iff]) <;> (repeat' split) <;> (try (obtain ⟨_, rfl⟩ := ‹_ ∧ _ = (_ : Part)›)) <;> (try simp_all (maxDischargeDepth := 16) [Prod.ext_iff]) <;> (repeat' split) <;> (try simp_all (maxDischargeDepth := 16) [Prod.ext_iff]))

@[simp] theorem Part.takeVerdict_wf (c : Conn) (v : Verdict) (p : Part) (hw : Mem.wf p.dram = true) : Mem.wf
    (Part.takeVerdict c v p).dram = true := by
  unfold Part.takeVerdict; (repeat' split) <;> simp_all (maxDischargeDepth := 16)

@[simp] theorem Part.answerReceived_wf (p : Part) (hw : Mem.wf p.dram = true) : Mem.wf (Part.answerReceived p).dram
    = true := by
  unfold Part.answerReceived; (repeat' split) <;> simp_all (maxDischargeDepth := 16)

@[simp] theorem Part.recallAnswered_wf (c : Conn) (v : Option Verdict) (p : Part) (hw : Mem.wf p.dram = true) :
    Mem.wf (Part.recallAnswered c v p).dram = true := by
  unfold Part.recallAnswered; (repeat' split) <;> simp_all (maxDischargeDepth := 16)

@[simp] theorem Part.recallAnswerReceived_wf (p : Part) (hw : Mem.wf p.dram = true) : Mem.wf
    (Part.recallAnswerReceived p).dram = true := by
  unfold Part.recallAnswerReceived; (repeat' split) <;> simp_all (maxDischargeDepth := 16)

@[simp] theorem Part.takeData_wf (it : RxItem) (c : Conn) (e : OpenCall) (b : Bytes) (p : Part) (hw : Mem.wf p.dram
    = true) : Mem.wf (Part.takeData it c e b p).dram = true := by
  unfold Part.takeData; (repeat' split) <;> simp_all (maxDischargeDepth := 16)

@[simp] theorem Part.dataReceived_wf (p : Part) (hw : Mem.wf p.dram = true) : Mem.wf (Part.dataReceived p).dram =
    true := by
  unfold Part.dataReceived; (repeat' split) <;> simp_all (maxDischargeDepth := 16)

@[simp] theorem Part.takeReceipt_wf (c : Conn) (good : Bool) (enough : Bool) (p : Part) (hw : Mem.wf p.dram = true)
    : Mem.wf (Part.takeReceipt c good enough p).dram = true := by
  unfold Part.takeReceipt; ((try dsimp only); (repeat' split) <;> (try simp_all (maxDischargeDepth := 16) [Prod.ext_iff]) <;> (try (obtain ⟨_, rfl⟩ := ‹_ ∧ _ = (_ : Part)›)) <;> (try simp_all (maxDischargeDepth := 16) [Prod.ext_iff]) <;> (repeat' split) <;> (try (obtain ⟨_, rfl⟩ := ‹_ ∧ _ = (_ : Part)›)) <;> (try simp_all (maxDischargeDepth := 16) [Prod.ext_iff]) <;> (repeat' split) <;> (try simp_all (maxDischargeDepth := 16) [Prod.ext_iff]))

@[simp] theorem Part.receiptAfterEnd_wf (c : Conn) (good : Bool) (p : Part) (hw : Mem.wf p.dram = true) : Mem.wf
    (Part.receiptAfterEnd c good p).dram = true := by
  unfold Part.receiptAfterEnd; (repeat' split) <;> simp_all (maxDischargeDepth := 16)

@[simp] theorem Part.receiptReceived_wf (p : Part) (hw : Mem.wf p.dram = true) : Mem.wf (Part.receiptReceived
    p).dram = true := by
  unfold Part.receiptReceived; (repeat' split) <;> simp_all (maxDischargeDepth := 16)

@[simp] theorem Part.takeCallEnd_wf (c : Conn) (sent : Nat) (tail : Nat) (p : Part) (hw : Mem.wf p.dram = true) :
    Mem.wf (Part.takeCallEnd c sent tail p).dram = true := by
  unfold Part.takeCallEnd; ((try dsimp only); (repeat' split) <;> (try simp_all (maxDischargeDepth := 16) [Prod.ext_iff]) <;> (try (obtain ⟨_, rfl⟩ := ‹_ ∧ _ = (_ : Part)›)) <;> (try simp_all (maxDischargeDepth := 16) [Prod.ext_iff]) <;> (repeat' split) <;> (try (obtain ⟨_, rfl⟩ := ‹_ ∧ _ = (_ : Part)›)) <;> (try simp_all (maxDischargeDepth := 16) [Prod.ext_iff]) <;> (repeat' split) <;> (try simp_all (maxDischargeDepth := 16) [Prod.ext_iff]))

@[simp] theorem Part.endReceived_wf (p : Part) (hw : Mem.wf p.dram = true) : Mem.wf (Part.endReceived p).dram = true
    := by
  unfold Part.endReceived; (repeat' split) <;> simp_all (maxDischargeDepth := 16)

@[simp] theorem Part.takeRecall_wf (e : OpenCall) (p : Part) (hw : Mem.wf p.dram = true) : Mem.wf (Part.takeRecall e
    p).dram = true := by
  unfold Part.takeRecall; (repeat' split) <;> simp_all (maxDischargeDepth := 16)

@[simp] theorem Part.recallReceived_wf (p : Part) (hw : Mem.wf p.dram = true) : Mem.wf (Part.recallReceived p).dram
    = true := by
  unfold Part.recallReceived; ((try dsimp only); (repeat' split) <;> (try simp_all (maxDischargeDepth := 16) [Prod.ext_iff]) <;> (try (obtain ⟨_, rfl⟩ := ‹_ ∧ _ = (_ : Part)›)) <;> (try simp_all (maxDischargeDepth := 16) [Prod.ext_iff]) <;> (repeat' split) <;> (try (obtain ⟨_, rfl⟩ := ‹_ ∧ _ = (_ : Part)›)) <;> (try simp_all (maxDischargeDepth := 16) [Prod.ext_iff]) <;> (repeat' split) <;> (try simp_all (maxDischargeDepth := 16) [Prod.ext_iff]))

@[simp] theorem Part.recallTimeout_wf (tag : Byte) (p : Part) (hw : Mem.wf p.dram = true) : Mem.wf
    (Part.recallTimeout tag p).dram = true := by
  unfold Part.recallTimeout; (repeat' split) <;> simp_all (maxDischargeDepth := 16)

@[simp] theorem Part.recallRetry_wf (tag : Byte) (p : Part) (hw : Mem.wf p.dram = true) : Mem.wf (Part.recallRetry
    tag p).dram = true := by
  unfold Part.recallRetry; (repeat' split) <;> simp_all (maxDischargeDepth := 16)

@[simp] theorem Part.callDropped_wf (tag : Byte) (p : Part) (hw : Mem.wf p.dram = true) : Mem.wf (Part.callDropped
    tag p).dram = true := by
  unfold Part.callDropped; (repeat' split) <;> simp_all (maxDischargeDepth := 16)

@[simp] theorem Part.sentNotice_wf (o : FrameOwner) (p : Part) (hw : Mem.wf p.dram = true) : Mem.wf (Part.sentNotice
    o p).dram = true := by
  unfold Part.sentNotice; (repeat' split) <;> simp_all (maxDischargeDepth := 16)

@[simp] theorem Part.droppedNotice_wf (o : FrameOwner) (p : Part) (hw : Mem.wf p.dram = true) : Mem.wf
    (Part.droppedNotice o p).dram = true := by
  unfold Part.droppedNotice; (repeat' split) <;> simp_all (maxDischargeDepth := 16)

@[simp] theorem Part.withdrawnNotice_wf (o : FrameOwner) (p : Part) (hw : Mem.wf p.dram = true) : Mem.wf
    (Part.withdrawnNotice o p).dram = true := by
  unfold Part.withdrawnNotice; (repeat' split) <;> simp_all (maxDischargeDepth := 16)

@[simp] theorem Part.handBack_wf (c : Cls) (p : Part) (hw : Mem.wf p.dram = true) : Mem.wf (Part.handBack c p).dram
    = true := by
  unfold Part.handBack; (repeat' split) <;> simp_all (maxDischargeDepth := 16)

@[simp] theorem Part.lostContention_wf (p : Part) (hw : Mem.wf p.dram = true) : Mem.wf (Part.lostContention p).dram
    = true := by
  unfold Part.lostContention; (repeat' split) <;> simp_all (maxDischargeDepth := 16)

@[simp] theorem Part.frameSent_wf (p : Part) (hw : Mem.wf p.dram = true) : Mem.wf (Part.frameSent p).dram = true :=
    by
  unfold Part.frameSent; (repeat' split) <;> simp_all (maxDischargeDepth := 16)

@[simp] theorem Part.collided_wf (c : Cls) (q : QFrame) (p : Part) (hw : Mem.wf p.dram = true) : Mem.wf
    (Part.collided c q p).dram = true := by
  unfold Part.collided; (repeat' split) <;> simp_all (maxDischargeDepth := 16)

@[simp] theorem Part.collision_wf (p : Part) (hw : Mem.wf p.dram = true) : Mem.wf (Part.collision p).dram = true :=
    by
  unfold Part.collision; (repeat' split) <;> simp_all (maxDischargeDepth := 16)

@[simp] theorem Part.underrun_wf (p : Part) (hw : Mem.wf p.dram = true) : Mem.wf (Part.underrun p).dram = true := by
  unfold Part.underrun; (repeat' split) <;> simp_all (maxDischargeDepth := 16)

@[simp] theorem Part.turnExpiry_wf (p : Part) (hw : Mem.wf p.dram = true) : Mem.wf (Part.turnExpiry p).dram = true
    := by
  unfold Part.turnExpiry; (repeat' split) <;> simp_all (maxDischargeDepth := 16)

@[simp] theorem Part.rxWriteBurst_wf (l : Line) (p : Part) (hw : Mem.wf p.dram = true) : Mem.wf (Part.rxWriteBurst l
    p).dram = true := by
  unfold Part.rxWriteBurst; ((try dsimp only); (repeat' split) <;> (try simp_all (maxDischargeDepth := 16) [Prod.ext_iff]) <;> (try (obtain ⟨_, rfl⟩ := ‹_ ∧ _ = (_ : Part)›)) <;> (try simp_all (maxDischargeDepth := 16) [Prod.ext_iff]) <;> (repeat' split) <;> (try (obtain ⟨_, rfl⟩ := ‹_ ∧ _ = (_ : Part)›)) <;> (try simp_all (maxDischargeDepth := 16) [Prod.ext_iff]) <;> (repeat' split) <;> (try simp_all (maxDischargeDepth := 16) [Prod.ext_iff]))

@[simp] theorem Part.lostTurn_wf (inTurn : Bool) (p : Part) (hw : Mem.wf p.dram = true) : Mem.wf (Part.lostTurn
    inTurn p).dram = true := by
  unfold Part.lostTurn; (repeat' split) <;> simp_all (maxDischargeDepth := 16)

@[simp] theorem Part.endFrame_wf (l : Line) (r : RxFrame) (p : Part) (hw : Mem.wf p.dram = true) : Mem.wf
    (Part.endFrame l r p).dram = true := by
  unfold Part.endFrame; ((try dsimp only); (repeat' split) <;> (try simp_all (maxDischargeDepth := 16) [Prod.ext_iff]) <;> (try (obtain ⟨_, rfl⟩ := ‹_ ∧ _ = (_ : Part)›)) <;> (try simp_all (maxDischargeDepth := 16) [Prod.ext_iff]) <;> (repeat' split) <;> (try (obtain ⟨_, rfl⟩ := ‹_ ∧ _ = (_ : Part)›)) <;> (try simp_all (maxDischargeDepth := 16) [Prod.ext_iff]) <;> (repeat' split) <;> (try simp_all (maxDischargeDepth := 16) [Prod.ext_iff]))

@[simp] theorem Part.received_wf (l : Line) (bits : List Bool) (p : Part) (hw : Mem.wf p.dram = true) : Mem.wf
    (Part.received l bits p).dram = true := by
  unfold Part.received; ((try dsimp only); (repeat' split) <;> (try simp_all (maxDischargeDepth := 16) [Prod.ext_iff]) <;> (try (obtain ⟨_, rfl⟩ := ‹_ ∧ _ = (_ : Part)›)) <;> (try simp_all (maxDischargeDepth := 16) [Prod.ext_iff]) <;> (repeat' split) <;> (try (obtain ⟨_, rfl⟩ := ‹_ ∧ _ = (_ : Part)›)) <;> (try simp_all (maxDischargeDepth := 16) [Prod.ext_iff]) <;> (repeat' split) <;> (try simp_all (maxDischargeDepth := 16) [Prod.ext_iff]))

@[simp] theorem Part.abortFrame_wf (l : Line) (r : RxFrame) (p : Part) (hw : Mem.wf p.dram = true) : Mem.wf
    (Part.abortFrame l r p).dram = true := by
  unfold Part.abortFrame; (repeat' split) <;> simp_all (maxDischargeDepth := 16)

@[simp] theorem Part.aborted_wf (l : Line) (bits : List Bool) (p : Part) (hw : Mem.wf p.dram = true) : Mem.wf
    (Part.aborted l bits p).dram = true := by
  unfold Part.aborted; ((try dsimp only); (repeat' split) <;> (try simp_all (maxDischargeDepth := 16) [Prod.ext_iff]) <;> (try (obtain ⟨_, rfl⟩ := ‹_ ∧ _ = (_ : Part)›)) <;> (try simp_all (maxDischargeDepth := 16) [Prod.ext_iff]) <;> (repeat' split) <;> (try (obtain ⟨_, rfl⟩ := ‹_ ∧ _ = (_ : Part)›)) <;> (try simp_all (maxDischargeDepth := 16) [Prod.ext_iff]) <;> (repeat' split) <;> (try simp_all (maxDischargeDepth := 16) [Prod.ext_iff]))

@[simp] theorem Part.trunkFrameSent_wf (p : Part) (hw : Mem.wf p.dram = true) : Mem.wf (Part.trunkFrameSent p).dram
    = true := by
  unfold Part.trunkFrameSent; (repeat' split) <;> simp_all (maxDischargeDepth := 16)

@[simp] theorem Part.linkSent_wf (k : Link) (p : Part) (hw : Mem.wf p.dram = true) : Mem.wf (Part.linkSent k p).dram
    = true := by
  unfold Part.linkSent; (repeat' split) <;> simp_all (maxDischargeDepth := 16)

@[simp] theorem Part.burstEffect_wf (t : Tok) (p : Part) (hw : Mem.wf p.dram = true) : Mem.wf (Part.burstEffect t
    p).dram = true := by
  unfold Part.burstEffect; (repeat' split) <;> simp_all (maxDischargeDepth := 16)

@[simp] theorem Part.finishBurst_wf (u : BurstUser) (t : Tok) (p : Part) (hw : Mem.wf p.dram = true) : Mem.wf
    (Part.finishBurst u t p).dram = true := by
  unfold Part.finishBurst; (repeat' split) <;> simp_all (maxDischargeDepth := 16)

@[simp] theorem Grant.finish_wf (g : Grant) (p : Part) (hw : Mem.wf p.dram = true) : Mem.wf (Grant.finish g p).dram
    = true := by
  unfold Grant.finish; (repeat' split) <;> simp_all (maxDischargeDepth := 16)

/-! ### what finished bursts have written keeps the form too -/

@[simp] theorem Part.headerWriteBurst_written (p : Part) (hw : Mem.wf p.written = true) :
    Mem.wf p.headerWriteBurst.written = true := by
  unfold Part.headerWriteBurst; (repeat' split) <;> simp_all

@[simp] theorem Part.clearGuestBurst_written (p : Part) (hw : Mem.wf p.written = true) :
    Mem.wf p.clearGuestBurst.written = true := by
  unfold Part.clearGuestBurst; dsimp only; (repeat' split) <;> simp_all

@[simp] theorem Part.journalFirst_written (p : Part) (hw : Mem.wf p.written = true) :
    Mem.wf p.journalFirst.written = true := by
  unfold Part.journalFirst; (repeat' split) <;> simp_all

@[simp] theorem Part.journalSecond_written (p : Part) (hw : Mem.wf p.written = true) :
    Mem.wf p.journalSecond.written = true := by
  unfold Part.journalSecond; dsimp only; (repeat' split) <;> simp_all

@[simp] theorem Part.rxWriteBurst_written (l : Line) (p : Part) (hw : Mem.wf p.written = true) :
    Mem.wf (p.rxWriteBurst l).written = true := by
  unfold Part.rxWriteBurst; dsimp only; (repeat' split) <;> simp_all

@[simp] theorem Part.storeBurst_written (parts : List (Nat × Bytes)) (p : Part) (hw : Mem.wf p.written = true) :
    Mem.wf (p.storeBurst parts).written = true := by
  unfold Part.storeBurst; (repeat' split) <;> simp_all [Part.modWritten]

@[simp] theorem Part.wipeBurst_written (lo hi : Nat) (p : Part) (hw : Mem.wf p.written = true) :
    Mem.wf (p.wipeBurst lo hi).written = true := by
  unfold Part.wipeBurst; simp_all [Part.modWritten]

@[simp] theorem Part.burstEffect_written (t : Tok) (p : Part) (hw : Mem.wf p.written = true) :
    Mem.wf (p.burstEffect t).written = true := by
  unfold Part.burstEffect; cases t <;> simp [hw]

@[simp] theorem Part.finishBurst_written (u : BurstUser) (t : Tok) (p : Part) (hw : Mem.wf p.written = true) :
    Mem.wf (p.finishBurst u t).written = true := by
  unfold Part.finishBurst; simp [hw]

@[simp] theorem Grant.finish_written (g : Grant) (p : Part) (hw : Mem.wf p.written = true) :
    Mem.wf (g.finish p).written = true := by
  unfold Grant.finish; cases g <;> simp [hw]

end Sys2Proof.Machine
end

