-- ==== Sys2Proof/Laws/Framing.lean ====
section
/-! SUPPORT. The common framer: a built frame read bit by bit comes out as its body with the CRC, and the CRC of any bytes is
good. -/

namespace Sys2Proof.Machine

/-! ### the CRC (R198) -/

/-- The division of the register is linear. -/
theorem crcShift_xor (n : Nat) (x y : BitVec 16) : crcShift (x ^^^ y) n = crcShift x n ^^^ crcShift y n := by
  induction n generalizing x y with
  | zero => rfl
  | succ n ih =>
    have h : (if (x ^^^ y).getLsbD 0 then ((x ^^^ y) >>> 1) ^^^ 0x8408#16 else (x ^^^ y) >>> 1) =
        (if x.getLsbD 0 then (x >>> 1) ^^^ 0x8408#16 else x >>> 1) ^^^
          (if y.getLsbD 0 then (y >>> 1) ^^^ 0x8408#16 else y >>> 1) := by
      rw [BitVec.getLsbD_xor, BitVec.ushiftRight_xor_distrib]
      cases x.getLsbD 0 <;> cases y.getLsbD 0 <;> simp only [BitVec.xor_assoc, Bool.xor_false, Bool.xor_true, Bool.not_true,
        Bool.not_false, if_true, if_false, Bool.false_eq_true]
      · rw [BitVec.xor_comm (y >>> 1)]
      · rw [BitVec.xor_comm (y >>> 1), ← BitVec.xor_assoc (0x8408#16), BitVec.xor_self, BitVec.zero_xor]
    simp only [crcShift, h, ih]

theorem crcRegister_append (bs cs : Bytes) : crcRegister (bs ++ cs) = cs.foldl crcByte (crcRegister bs) :=
  List.foldl_append

/-- The register after its own complement, low byte first, is the residue: one case for each high byte. -/
theorem crc_residue_high : ∀ h : Fin 256,
    crcByte (crcShift (BitVec.ofNat 16 (256 * h.val + 255)) 8) (BitVec.ofNat 8 (255 - h.val)) = 0xF0B8#16 := by decide +kernel

/-- Whatever the register holds, its complement sent low byte first leaves the fixed residue (R198). -/
theorem crc_residue (r : BitVec 16) : [BitVec.ofNat 8 (~~~ r).toNat, BitVec.ofNat 8 ((~~~ r).toNat / 256)].foldl crcByte r =
    0xF0B8#16 := by
  have hr := r.isLt
  have hn : (~~~ r).toNat = 65535 - r.toNat := by simp [BitVec.toNat_not]
  have h1 : r ^^^ (BitVec.ofNat 8 (~~~ r).toNat).setWidth 16 = BitVec.ofNat 16 (256 * (r.toNat / 256) + 255) := by
    apply BitVec.eq_of_getLsbD_eq
    intro i hi
    have hp : (255 : Nat) = 2 ^ 8 - 1 := rfl
    rw [show 256 * (r.toNat / 256) + 255 = 2 ^ 8 * (r.toNat / 2 ^ 8) + (2 ^ 8 - 1) from rfl]
    simp only [BitVec.getLsbD_xor, BitVec.getLsbD_setWidth, BitVec.getLsbD_ofNat, hi, decide_true, Bool.true_and]
    rw [Nat.testBit_two_pow_mul_add _ (by decide : 2 ^ 8 - 1 < 2 ^ 8)]
    rw [show (~~~ r).toNat.testBit i = (~~~ r).getLsbD i from rfl, BitVec.getLsbD_not]
    by_cases h8 : i < 8
    · rw [if_pos h8, Nat.testBit_two_pow_sub_one]; simp [h8, BitVec.getLsbD]; omega
    · simp only [h8, hi, decide_false, Bool.false_and, Bool.xor_false, if_false]
      rw [Nat.testBit_div_two_pow, Nat.sub_add_cancel (by omega)]; rfl
  have h2 : BitVec.ofNat 8 ((~~~ r).toNat / 256) = BitVec.ofNat 8 (255 - r.toNat / 256) := by
    congr 1; rw [hn]; omega
  simp only [List.foldl_cons, List.foldl_nil]
  rw [show crcByte r (BitVec.ofNat 8 (~~~ r).toNat) = crcShift (r ^^^ (BitVec.ofNat 8 (~~~ r).toNat).setWidth 16) 8 from rfl, h1, h2]
  exact crc_residue_high ⟨r.toNat / 256, by omega⟩

/-- Bytes with their CRC after them pass the check. -/
@[simp] theorem crcGood_withCrc (bs : Bytes) : crcGood (withCrc bs) = true := by
  rw [crcGood, withCrc, crcRegister_append, crcBytes, crcValue, crc_residue]; rfl

/-- The CRC bytes a transmitter sends after a body are those `withCrc` puts after it. -/
theorem crcSent_register (bs : Bytes) : crcSent (crcRegister bs) = crcBytes bs := rfl

/-! ### zero insertion (R12) -/

theorem stuff_append (o : Nat) (a b : List Bool) :
    stuff o (a ++ b) = ((stuff o a).1 ++ (stuff (stuff o a).2 b).1, (stuff (stuff o a).2 b).2) := by
  induction a generalizing o with
  | nil => rfl
  | cons x a ih =>
    simp only [List.cons_append, stuff]
    split
    · split <;> simp [ih]
    · simp [ih]

theorem stuff_ones (o : Nat) (bs : List Bool) (h : o ≤ 4) : (stuff o bs).2 ≤ 4 := by
  induction bs generalizing o with
  | nil => exact h
  | cons b bs ih =>
    simp only [stuff]
    split
    · split
      · exact ih 0 (by omega)
      · exact ih (o + 1) (by omega)
    · exact ih 0 (by omega)

/-! ### a receiver (R13) -/

theorem Deframe.feeds_append (most : Option Nat) (d : Deframe) (a b : List Bool) :
    d.feeds most (a ++ b) = (d.feeds most a).feeds most b := List.foldl_append

/-- The run of 1 bits and the mark of a removed 0 have no part in assembling bytes. -/
theorem Deframe.takeBit_marks (d : Deframe) (b : Bool) (n : Nat) (z : Bool) :
    { d with ones := n, zeroOut := z }.takeBit b = { d.takeBit b with ones := n, zeroOut := z } := by
  unfold Deframe.takeBit; dsimp only; split <;> rfl

theorem Deframe.takeBit_reached (d : Deframe) (b : Bool) : (d.takeBit b).reached = d.reached := by
  unfold Deframe.takeBit; dsimp only; split <;> rfl

theorem Deframe.takeBit_zeroOut (d : Deframe) (b : Bool) : (d.takeBit b).zeroOut = d.zeroOut := by
  unfold Deframe.takeBit; dsimp only; split <;> rfl

theorem Deframe.feeds_cons (most : Option Nat) (d : Deframe) (b : Bool) (bs : List Bool) :
    d.feeds most (b :: bs) = (d.feed most b).feeds most bs := rfl

theorem Deframe.feed_false (most : Option Nat) (d : Deframe) (hr : d.reached = .body) (h5 : d.ones ≠ 5) (h6 : d.ones ≠ 6) :
    d.feed most false = { d.takeBit false with ones := 0, zeroOut := false } := by
  rw [← Deframe.takeBit_marks]; simp only [Deframe.feed]; rw [hr]; simp [h5, h6]

theorem Deframe.feed_true (most : Option Nat) (d : Deframe) (hr : d.reached = .body) (h6 : d.ones ≠ 6) :
    d.feed most true = { d.takeBit true with ones := d.ones + 1 } := by
  have h := Deframe.takeBit_marks d true (d.ones + 1) d.zeroOut
  rw [hr] at h
  simp only [Deframe.feed]; rw [hr]; simp only [if_true, if_neg h6]
  exact h.trans (congrArg (fun z => { d.takeBit true with ones := d.ones + 1, zeroOut := z }) (d.takeBit_zeroOut true).symm)

/-- The 0 after five 1 bits is removed. -/
theorem Deframe.feed_removed (most : Option Nat) (d : Deframe) (hr : d.reached = .body) (h5 : d.ones = 5) :
    d.feed most false = { d with ones := 0, zeroOut := true } := by
  simp only [Deframe.feed]; rw [hr]; simp [h5]

/-- The bits of a body, zeros inserted, come out as the bits themselves. -/
theorem Deframe.feeds_stuff (most : Option Nat) (bs : List Bool) (d : Deframe) (hr : d.reached = .body) (ho : d.ones ≤ 4) :
    ∃ z, d.feeds most (stuff d.ones bs).1 =
      { bs.foldl Deframe.takeBit d with ones := (stuff d.ones bs).2, zeroOut := z } := by
  have keep : ∀ (bs : List Bool) (d : Deframe) (n : Nat) (z : Bool),
      bs.foldl Deframe.takeBit { d with ones := n, zeroOut := z } =
        { bs.foldl Deframe.takeBit d with ones := n, zeroOut := z } := by
    intro bs
    induction bs with
    | nil => intros; rfl
    | cons b bs ih => intro d n z; rw [List.foldl_cons, Deframe.takeBit_marks, ih]; rfl
  induction bs generalizing d with
  | nil => exact ⟨d.zeroOut, rfl⟩
  | cons b bs ih =>
    have step (b : Bool) (n : Nat) (z : Bool) (hn : n ≤ 4) :
        ∃ z', ({ d.takeBit b with ones := n, zeroOut := z } : Deframe).feeds most (stuff n bs).1 =
          { (b :: bs).foldl Deframe.takeBit d with ones := (stuff n bs).2, zeroOut := z' } := by
      obtain ⟨z', h⟩ := ih { d.takeBit b with ones := n, zeroOut := z } (by rw [← hr]; exact d.takeBit_reached b) hn
      exact ⟨z', by rw [h, keep]; rfl⟩
    have h5 : d.ones ≠ 5 := by omega
    have h6 : d.ones ≠ 6 := by omega
    cases b with
    | false =>
      rw [show stuff d.ones (false :: bs) = (false :: (stuff 0 bs).1, (stuff 0 bs).2) from rfl, Deframe.feeds_cons,
        Deframe.feed_false _ _ hr h5 h6]
      exact step false 0 false (by omega)
    | true =>
      by_cases h4 : d.ones = 4
      · rw [show stuff d.ones (true :: bs) = (true :: false :: (stuff 0 bs).1, (stuff 0 bs).2) by simp [stuff, h4],
          Deframe.feeds_cons, Deframe.feed_true _ _ hr h6]
        have h := Deframe.feed_removed most { d.takeBit true with ones := d.ones + 1 } ((d.takeBit_reached true).trans hr)
          (congrArg (· + 1) h4)
        obtain ⟨z, hz⟩ := step true 0 true (by omega)
        exact ⟨z, (congrArg (fun e => Deframe.feeds most e (stuff 0 bs).1) h).trans hz⟩
      · rw [show stuff d.ones (true :: bs) = (true :: (stuff (d.ones + 1) bs).1, (stuff (d.ones + 1) bs).2) by simp [stuff, h4],
          Deframe.feeds_cons, Deframe.feed_true _ _ hr h6]
        obtain ⟨z, hz⟩ := step true (d.ones + 1) d.zeroOut (by omega)
        exact ⟨z, by rw [← hz]; congr 1; simp [← Deframe.takeBit_zeroOut d true]⟩

/-- A byte's bits, least significant first, spell it. -/
@[simp] theorem bitsByte_byteBits (b : Byte) : bitsByte (byteBits b) = b := by
  have h : ∀ n : Fin 256, bitsByte (byteBits (BitVec.ofFin n)) = BitVec.ofFin n := by decide +kernel
  exact h b.toFin

theorem byteBits_eq (b : Byte) : byteBits b =
    [b.getLsbD 0, b.getLsbD 1, b.getLsbD 2, b.getLsbD 3, b.getLsbD 4, b.getLsbD 5, b.getLsbD 6, b.getLsbD 7] := rfl

/-- A byte's eight bits join as the byte. -/
theorem Deframe.takeByte (r : Reached) (o : Nat) (z : Bool) (b : Byte) (got : Bytes) :
    (byteBits b).foldl Deframe.takeBit ⟨r, o, z, [], got⟩ = ⟨r, o, z, [], got ++ [b]⟩ := by
  conv_rhs => rw [← bitsByte_byteBits b]
  simp [byteBits_eq, Deframe.takeBit]

/-- The bits of whole bytes are assembled to them. -/
theorem Deframe.takeBytes (bs : Bytes) (r : Reached) (o : Nat) (z : Bool) (got : Bytes) :
    (bytesBits bs).foldl Deframe.takeBit ⟨r, o, z, [], got⟩ = ⟨r, o, z, [], got ++ bs⟩ := by
  induction bs generalizing got with
  | nil => simp [bytesBits]
  | cons b bs ih =>
    rw [show bytesBits (b :: bs) = byteBits b ++ bytesBits bs from rfl, List.foldl_append, Deframe.takeByte, ih]
    simp

/-- The frame a receiver holds at the closing flag after these whole bytes: the flag's seven bits stand behind them. -/
def Deframe.closedWith (got : Bytes) : Deframe :=
  { reached := .closed, ones := 0, zeroOut := false, bits := [false, true, true, true, true, true, true], got := got }

@[simp] theorem Deframe.closedWith_body (got : Bytes) : (Deframe.closedWith got).body = got := by
  simp [Deframe.closedWith, Deframe.body, Deframe.bodyBits, Deframe.flagTaken]

@[simp] theorem Deframe.closedWith_odd (got : Bytes) : (Deframe.closedWith got).odd = 0 := by
  simp [Deframe.closedWith, Deframe.odd, Deframe.bodyBits, Deframe.flagTaken]

/-- The closing flag after whole bytes closes the frame. -/
theorem Deframe.feeds_closing (most : Option Nat) (o : Nat) (z : Bool) (got : Bytes) (h : o ≤ 4) (hg : got ≠ []) :
    Deframe.feeds most ⟨.body, o, z, [], got⟩ flagBits = Deframe.closedWith got := by
  have h5 : ¬ o = 5 := by omega
  have h6 : ¬ o = 6 := by omega
  have hl : got.length ≠ 0 := fun e => hg (List.length_eq_zero_iff.mp e)
  simp [Deframe.feeds, flagBits, Deframe.feed, h5, h6, Deframe.takeBit, Deframe.flagInBody, Deframe.bodyBits,
    Deframe.flagTaken, Deframe.closedWith, hg]

/-- The opening flag, at once where a line looks for it. -/
theorem Deframe.feeds_opening (l : Line) :
    Deframe.feeds (openingWithin l) {} flagBits = { reached := .body, ones := 0 } := by
  cases l <;> decide

/-- A built frame, read bit by bit, is a closed frame whose bytes are the body and its CRC, with no odd bit (R12, R13). -/
theorem Deframe.feeds_frameBits (l : Line) (body : Bytes) :
    Deframe.feeds (openingWithin l) {} (frameBits body) = Deframe.closedWith (withCrc body) := by
  obtain ⟨z, hf⟩ := Deframe.feeds_stuff (openingWithin l) (bytesBits (withCrc body)) ⟨.body, 0, true, [], []⟩ rfl (by decide)
  rw [Deframe.takeBytes] at hf
  rw [frameBits, List.append_assoc, Deframe.feeds_append, Deframe.feeds_opening, Deframe.feeds_append]
  refine Eq.trans (congrArg (fun d => Deframe.feeds (openingWithin l) d flagBits) hf) ?_
  exact Deframe.feeds_closing _ _ _ _ (stuff_ones 0 _ (by omega)) (by simp [withCrc, crcBytes])

end Sys2Proof.Machine
end

