-- ==== Sys2Proof/Laws/Transmit.lean ====
section
/-! SUPPORT. The class queues, the branch transmitter, the buffer pool and the framers: what each shared operation does, in one
lemma each. -/

namespace Sys2Proof.Machine

/-! ### the class queues -/

@[simp] theorem Forwarding.setQueue_queue (f : Forwarding) (c : Cls) (l : List QFrame) : (f.setQueue c l).queue c = l := by
  cases c <;> rfl

theorem Forwarding.setQueue_queue_other (f : Forwarding) (c d : Cls) (l : List QFrame) (h : d ≠ c) :
    (f.setQueue c l).queue d = f.queue d := by
  cases c <;> cases d <;> first | rfl | exact absurd rfl h

/-- A class whose queue holds a frame makes the transmitter have one to offer. -/
theorem Forwarding.bestClass_of_queue (f : Forwarding) (c : Cls) (q : QFrame) (rest : List QFrame) (h : f.queue c = q :: rest) :
    f.bestClass.isSome = true := by
  unfold Forwarding.bestClass
  cases c <;> simp [List.find?_isSome, h]

/-! ### the branch transmitter -/

/-- Restaging touches the sender alone, of the branch interface. -/
theorem Part.restage_branch (l : Line) (before : Option Buf) (p : Part) :
    (p.restage l before).branch = { p.branch with sender := (p.restage l before).branch.sender } := by
  unfold Part.restage Part.opens Part.kickRead
  cases l <;> dsimp only <;> (repeat' split) <;> simp [Part.modSender]

/-- The transmitter rests: WAITING where a class queue holds a frame, IDLE otherwise. -/
@[simp] theorem Part.txRest_branch (p : Part) :
    p.txRest.branch =
      { p.branch with tx := if p.fwd.bestClass.isSome then .waiting else .idle, turn := none, sender := p.branch.sender.rest } :=
  rfl

@[simp] theorem Part.sentNotice_deaf (o : FrameOwner) (p : Part) (h : o.deaf = true) : p.sentNotice o = p := by
  cases o <;> simp_all [FrameOwner.deaf, Part.sentNotice]

@[simp] theorem Part.droppedNotice_mute (o : FrameOwner) (p : Part) (h : o.mute = true) : p.droppedNotice o = p := by
  cases o <;> simp_all [FrameOwner.mute, Part.droppedNotice]

/-! ### the framers -/

section framers
variable (f : Framer → Framer) (g : LineCounters → LineCounters) (p : Part)
@[simp] theorem Part.modFramer_branch_branch : (p.modFramer .branch f).branch = { p.branch with framer := f p.branch.framer } := rfl
@[simp] theorem Part.modFramer_branch_trunk : (p.modFramer .branch f).trunkFramer = p.trunkFramer := rfl
@[simp] theorem Part.modFramer_branch_label : (p.modFramer .branch f).labelFramer = p.labelFramer := rfl
@[simp] theorem Part.modFramer_branch_guest : (p.modFramer .branch f).guestFramer = p.guestFramer := rfl
@[simp] theorem Part.modFramer_trunk_trunk : (p.modFramer .trunk f).trunkFramer = f p.trunkFramer := rfl
@[simp] theorem Part.modFramer_trunk_label : (p.modFramer .trunk f).labelFramer = p.labelFramer := rfl
@[simp] theorem Part.modFramer_trunk_guest : (p.modFramer .trunk f).guestFramer = p.guestFramer := rfl
@[simp] theorem Part.modFramer_label_trunk : (p.modFramer .label f).trunkFramer = p.trunkFramer := rfl
@[simp] theorem Part.modFramer_label_label : (p.modFramer .label f).labelFramer = f p.labelFramer := rfl
@[simp] theorem Part.modFramer_label_guest : (p.modFramer .label f).guestFramer = p.guestFramer := rfl
@[simp] theorem Part.modFramer_guest_trunk : (p.modFramer .guest f).trunkFramer = p.trunkFramer := rfl
@[simp] theorem Part.modFramer_guest_label : (p.modFramer .guest f).labelFramer = p.labelFramer := rfl
@[simp] theorem Part.modFramer_guest_guest : (p.modFramer .guest f).guestFramer = f p.guestFramer := rfl
theorem Part.countLine_eq (l : Line) : p.countLine l g = p.modFramer l fun fr => { fr with ctr := g fr.ctr } := rfl
@[simp] theorem Part.modFramer_framer (l : Line) : (p.modFramer l f).framer l = f (p.framer l) := by cases l <;> rfl
theorem Part.modFramer_framer_other (l m : Line) (h : m ≠ l) : (p.modFramer l f).framer m = p.framer m := by
  cases l <;> cases m <;> first | rfl | exact absurd rfl h
end framers

/-! ### the buffer pool (R66 to R68) -/

/-- A granted request takes the head of the free list. -/
theorem Forwarding.take_granted (f : Forwarding) (u : User) (b : Buf) (g : Forwarding) (h : f.take u = (some b, g)) :
    f.refusal u = none ∧ f.free = b.num :: g.free ∧ b.mark = u.mark ∧ b.len = 0 := by
  unfold Forwarding.take at h
  split at h
  · simp at h
  · simp at h
  · rename_i h1 h2
    simp only [Prod.mk.injEq, Option.some.injEq] at h
    obtain ⟨rfl, rfl⟩ := h
    exact ⟨h1, h2, rfl, rfl⟩

/-- A refused request changes one refusal counter and nothing else of the pool. -/
theorem Forwarding.take_refused (f : Forwarding) (u : User) (r : Refused) (h : f.refusal u = some r) :
    f.take u = (none, { f with ctr := r.count f.ctr }) := by
  unfold Forwarding.take; rw [h]

/-- A user without a limit of its own is granted a buffer while the free list stands above the reserve. -/
theorem Forwarding.take_other (f : Forwarding) (n : Nat) (rest : List Nat) (hf : f.free = n :: rest)
    (h : Config.controlReserve < f.free.length) :
    f.take .other =
      (some ⟨n, .plain, 0⟩,
        { f with free := rest, ctr := { f.ctr with lowestFree := min f.ctr.lowestFree rest.length } }) := by
  have hr : f.refusal .other = none := by
    have h0 : ¬ f.free.length = 0 := by simp [Config.controlReserve] at h; omega
    have h1 : ¬ f.free.length ≤ Config.controlReserve := by omega
    simp [Forwarding.refusal, h1, h0]
  simp [Forwarding.take, hr, hf, User.mark, bit]

/-- A frame built for such a user stands in the buffer it was given, and its bursts are asked. -/
theorem Part.build_other (u : BurstUser) (p : Part) (bs : Bytes) (n : Nat) (rest : List Nat) (hf : p.fwd.free = n :: rest)
    (h : Config.controlReserve < p.fwd.free.length) :
    p.build u .other bs =
      (some ⟨n, .plain, bs.length⟩,
        { p with
          fwd := { p.fwd with free := rest, ctr := { p.fwd.ctr with lowestFree := min p.fwd.ctr.lowestFree rest.length } }
          dram := Mem.writeBytes p.dram (bufAddr n) bs }.askStore u (cutBlocks bs.length (bufAddr n) bs)) := by
  simp [Part.build, Part.takeBuffer, Forwarding.take_other _ _ _ hf h, Part.fill, Part.write, Part.modDram]

theorem bufAddr_le (n : Nat) (h : n < Config.poolSize) : bufAddr n + Config.bufferBytes ≤ Config.labelBase := by
  simp only [bufAddr, Config.poolBase, Config.bufferBytes, Config.labelBase, Config.poolSize] at *; omega

/-- A turn frame handed over in an open turn gap, with a buffer to be had, is sent: it carries its bytes, and nothing but the
branch interface, the buffer pool and memory moves (R9). -/
theorem Part.turn_sent (p : Part) (what : TurnWhat) (dest : StationNo) (kind : Nat) (payload : Bytes)
    (hg : p.branch.turnGap = true) (ht : p.branch.tx = .idle ∨ p.branch.tx = .waiting)
    (hf : Config.controlReserve < p.fwd.free.length) (hn : ∀ n, p.fwd.free.head? = some n → n < Config.poolSize)
    (hl : payload.length + 3 ≤ Config.bufferBytes) :
    (p.turn what dest kind payload).sends what (plainBody dest.val kind payload) ∧
      (p.turn what dest kind payload).call = p.call ∧ (p.turn what dest kind payload).price = p.price ∧
      (p.turn what dest kind payload).trk = p.trk ∧ (p.turn what dest kind payload).fwd.waiting = p.fwd.waiting := by
  cases hfree : p.fwd.free with
  | nil => rw [hfree] at hf; simp [Config.controlReserve] at hf
  | cons n rest =>
    have hb := Part.build_other .lineBuild p (plainBody dest.val kind payload) n rest hfree hf
    have hn' : n < Config.poolSize := hn n (by rw [hfree]; rfl)
    have hlen : (plainBody dest.val kind payload).length = payload.length + 3 := by simp [plainBody]
    have hd : bufAddr n + (plainBody dest.val kind payload).length ≤ Config.dramSize := by
      have := bufAddr_le n hn'
      simp only [Config.labelBase, Config.dramSize] at *; omega
    have ht' : p.sendTurn what dest kind payload = (true, ?_) := by
      simp only [Part.sendTurn, hb]
      rw [if_pos ⟨hg, ht⟩]
    simp only [Part.turn, ht']
    refine ⟨⟨?_, ?_, ⟨n, .plain, (plainBody dest.val kind payload).length⟩, ?_, ?_⟩, ?_, ?_, ?_, ?_⟩
    · rw [Part.restage_branch]; rfl
    · rw [Part.restage_branch]; rfl
    · rw [Part.restage_branch]; rfl
    · simp [Part.bufBytes, Part.read, Mem.readBytes_writeBytes _ _ _ hd]
    · simp
    · simp
    · simp
    · simp

end Sys2Proof.Machine
end

