-- ==== Sys2Proof/Tests/Slice0.lean ====
section
/-! SUPPORT. The author's tests: terms the well-formedness check refuses, single steps on small states, and for each statement
of the obligations that has hypotheses a state and operands that meet them (`meets_<statement>`, one clause for each set of
hypotheses, at the ends of its ranges). -/

namespace Sys2Proof.Tests

open Sys2Proof.Machine

set_option linter.unusedVariables false
set_option linter.unusedTactic false
set_option linter.unnecessarySeqFocus false
set_option linter.unreachableTactic false
set_option Elab.async false

/-! ### what the well-formedness check refuses -/

theorem test_refuses_recessive_start_bit : (Instr.kindByteReceived .branch [true] [] [] []).wellFormed = false := by decide
theorem test_refuses_long_header : (Instr.kindByteReceived .branch [false] (List.replicate 7 false) [] []).wellFormed = false := by
  decide
theorem test_refuses_header_on_a_link : (Instr.frameReceived .trunk [] [true] flag [] flag).wellFormed = false := by decide
theorem test_refuses_no_bits : (Instr.kindByteReceived .guest [] [] [] []).wellFormed = false := by decide
theorem test_refuses_no_closing_flag : (Instr.frameReceived .label [] [] flag [] []).wellFormed = false := by decide
theorem test_refuses_false_closing_flag : (Instr.frameReceived .label [] [] flag [] [true]).wellFormed = false := by decide
theorem test_refuses_abort_without_bits : (Instr.frameAbort .trunk []).wellFormed = false := by decide
theorem test_refuses_short_loop_front : (Instr.loopTestResult [false] (flag ++ flag)).wellFormed = false := by decide
theorem test_refuses_loop_without_flag : (Instr.loopTestResult (List.replicate 7 false) (flag ++ [true])).wellFormed = false := by
  decide
theorem test_refuses_short_configuration : (Instr.configReadDone (List.replicate 255 0)).wellFormed = false := by
  decide +kernel
theorem test_refuses_bare_stx : (Instr.tillFrameReceived 0 [1, 0x02]).wellFormed = false := by decide
theorem test_refuses_bare_etx : (Instr.tillFrameReceived 0 [0x03, 1]).wellFormed = false := by decide
theorem test_accepts_a_frame : (Instr.frameReceived .branch [false] (headerBits .till 5) flag [] flag).wellFormed = true := by
  decide
theorem test_accepts_a_till_frame : (Instr.tillFrameReceived 7 [1, 0x10, 0x22]).wellFormed = true := by decide

/-! ### small checks of arithmetic and layout -/

/-- The published check value of this CRC. -/
theorem test_crc_check_value : crcValue [0x31, 0x32, 0x33, 0x34, 0x35, 0x36, 0x37, 0x38, 0x39] = 0x906E := by decide +kernel
theorem test_round_half_up : rhu 5 10 = 1 ∧ rhu 4 10 = 0 ∧ rhu 15 10 = 2 := by decide
theorem test_till_escapes : gather (some []) 0 (escape [0x02, 0x41, 0x10]) = (0, some [0x02, 0x41, 0x10]) := by decide
theorem test_clock_wraps : (Clock.mk true 65535 1439 59).advance = ⟨true, 0, 0, 0⟩ := by decide
theorem test_no_word_is_a_command : decodeTableWord 16 0 = none := by decide

/-! ### small states -/

/-- A configuration: station 2, every line fitted, every port enabled, port 0 a supervisor, night from 23:00 for two hours. -/
def conf : ConfigBlock :=
  { station := 2, zone := 1, branchCode := 7, fastLine := true, trunkFitted := true, labelFitted := true, guestFitted := true
    enableMask := 0xFF, supervisorMask := 1, guestPrefix := 0x0A000, gDay := 10, gNight := 5, nightStart := 1380
    nightLength := 120, holdLimit := 24, supplyLevel := 0, statics := [] }

/-- A READY part with nothing under way, and a pool of 20 free buffers. -/
def part : Part :=
  { cfg := some conf, branch := { tx := .idle, rxReady := true }, pres := { joining := .ready }, gst := { cleared := 256 }
    fwd := { routes := Vector.ofFn fun i => initialRoute conf i.val, free := List.range 20 } }

/-- A RUNNING state of a part, on an idle memory port. -/
def run (p : Part) : State := { pending := [], supply := { watch := .running }, arb := {}, part := p }

/-- The member of the receive queue that buffer 383 holds. -/
def item (l : Line) (st : StationNo) (n : Nat) : RxItem := ⟨⟨383, .plain, n⟩, l, .control, st, false⟩

/-- The bytes of a frame in buffer 383. -/
def stored (bs : Bytes) (p : Part) : Part := { p with dram := Mem.writeBytes p.dram (bufAddr 383) bs }

/-- A frame that the forwarding engine keeps. -/
def waiting (l : Line) (st : StationNo) (bs : Bytes) (p : Part) : Part :=
  stored bs { p with fwd := { p.fwd with waiting := [item l st bs.length] } }

/-- A frame that has been dispatched to a block. -/
def given (d : Dispatch) (l : Line) (st : StationNo) (bs : Bytes) (p : Part) : Part :=
  stored bs { p with fwd := { p.fwd with taken := [(d, item l st bs.length)] } }

/-- A branch frame from station 5, dispatched to a block. -/
def heard (d : Dispatch) (kind : Nat) (payload : Bytes) (p : Part) : Part := given d .branch 5 (plainBody 2 kind payload) p

/-- What `heard` puts in the queue. -/
def heardItem (payload : Bytes) : RxItem := item .branch 5 (payload.length + 3)

/-- A PRICE frame from station 5, dispatched to the pricing unit. -/
def priced (kind : Nat) (payload : Bytes) (p : Part) : Part :=
  stored (plainBody 2 kind payload) { p with price := { p.price with inbox := [.frame (heardItem payload)] } }

def body (kind : Nat) (payload : Bytes) : BranchBody := ⟨2, kind, false, [], some 0, payload⟩

/-- A frame in hand of the branch transmitter. -/
def frame (o : FrameOwner) (collisions : Nat) : QFrame := ⟨⟨300, .plain, 4⟩, collisions, o, false⟩

def inHand (c : Cls) (q : QFrame) (tx : Tx) : Part :=
  { part with branch := { part.branch with tx := tx }, fwd := part.fwd.setQueue c [q] }

/-- Start bit and header of a branch frame of station 5; nothing on a link. -/
def front (l : Line) : List Bool := startOf l ++ headerOf l .till 5

/-- A frame in reception on a line: these bytes of its body are read, and nothing after them. -/
def rx (l : Line) (got : Bytes) (b : Option Buf) : RxFrame := ⟨front l, ⟨.body, 0, true, [], got⟩, true, false, true, b, false⟩

def receiving (l : Line) (x : RxFrame) (p : Part) : Part := p.modFramer l fun f => { f with rx := some x }

/-- An open turn gap. -/
def gap (p : Part) : Part := { p with branch := { p.branch with turnGap := true } }

/-- A call to station 5 under tag 9. -/
def call (o : CallOwner) (r : Request) (st : OpenState) : OpenCall :=
  { owner := o, peer := 5, tag := 9, request := r, state := st, stage := 2, received := 0, expect := none, recallTag := 4
    recallTimer := true, enough := false, endEarly := false }

/-- A connection with station 5 under tag 9. -/
def conn (role : Role) (ph : Phase) (r : Request) : Conn := ⟨role, 5, 9, r, ph, 0, 1, 0, 1, 0, false⟩

def calling (e : OpenCall) (c : Option Conn) (p : Part) : Part := { p with call := { p.call with opens := [e], conn := c } }

def serving (c : Conn) (p : Part) : Part := { p with call := { p.call with conn := some c } }

/-- The only entry of the active bank: sold by the piece. -/
def milk : BankEntry :=
  { code := 5, p := 199, kind := 0, ref := 0, promo := 0, value := 0, m := 0, c := 0, recCrc := 0, held := 150, valid := true
    hold := true, startKnown := true, count := 1, startDay := 3, startMinute := 10 }

def selling (e : BankEntry) (p : Part) : Part :=
  { p with
    price := { p.price with activeCount := 1, activeGen := 7 }, dram := Mem.writeBytes p.dram (entryAddr .a 0) e.bytes }

/-- The only staged record: index 0 of generation 9. -/
def staged (s : Staging) (p : Part) : Part := { p with price := { p.price with staging := s } }

def stage (st : StagingState) (n : Option Nat) : Staging := { state := st, generation := 9, n := n }

/-- A price record on the line. -/
def priceRecord : Bytes := withCrc ({ code := 5, p := 199, kind := 0, ref := 0, promo := 0, value := 0, m := 0, c := 0 } : PriceRecord).bytes

/-- An entry dearer than `milk`. -/
def dear : BankEntry :=
  { milk with p := 200, held := 0, hold := false, startKnown := false, count := 0, startDay := 0, startMinute := 0 }

/-- A merge walk at the first of two staged records, `e`, with the active bank holding at most one entry. -/
def merging (old : Option BankEntry) (e : BankEntry) : Part :=
  { part with
    price := { activeCount := old.toList.length, staging := stage .activating (some 2), walk := some ⟨0, 0, 0, 0, false⟩ }
    dram := Mem.writeBytes (Mem.writeBytes [(Config.mapBase, 1)] (entryAddr .b 0) e.bytes) (entryAddr .a 0)
      ((old.map BankEntry.bytes).getD []) }

/-- A request waits at port 0. -/
def request (k : Byte) (b : Bytes) : TillRequest := ⟨1, k, b, .taken⟩

def port (x : Port) (p : Part) : Part := { p with till := { p.till with ports := p.till.ports.set 0 x } }

def asks (k : Byte) (b : Bytes) (y : Option Sale) (p : Part) : Part :=
  port { state := if y.isSome then .inSale else .idle, sale := y, req := some (request k b) } p

/-- A sale with one line of three, tallied nowhere. -/
def sale : Sale := { number := 1, lines := [⟨5, 3, 199, 597, false, false⟩], running := 597, tenders := 0, tally := [] }

/-- An entry has just been read for the request at port 0. -/
def looked (k : Byte) (b : Bytes) (y : Search) (x : Option Sale) (p : Part) : State :=
  { run (port { state := if x.isSome then .inSale else .idle, sale := x, req := some ⟨1, k, b, .looking y⟩ } p) with
    arb := { port := some (.burst (.lookup 0) (.lookup 0)) } }

/-- A label entry. -/
def label (st : LabelState) : LabelEntry :=
  { id := 1, item := 6, layout := .price, state := st, queue := none, shown := .blank, sent := none, tag := none, attempts := 4
    due := none, battery := .ok, signal := 0, walked := false }

def shelf (e : LabelEntry) (p : Part) : Part := { p with dram := Mem.writeBytes p.dram (labelAddr 0) e.bytes }

/-- A guest at index 0. -/
def guest (last tokens : Nat) : Guest :=
  { device := 77, admitted := 0, lastActive := last, tokens := tokens, up := 0, down := 0, drops := 0, limited := some 0 }

def hosting (g : Guest) (p : Part) : Part := { p with dram := Mem.writeBytes p.dram (guestAddr 0) g.bytes }

/-- A packet of `n` bytes from one address to another. -/
def packet (n dest source : Nat) : Bytes := be 2 n ++ be 4 dest ++ be 4 source ++ List.replicate (n - 10) 0

/-- A presence of station 5. -/
def shown (active : Nat) (night : Night) : PresenceData :=
  { station := 5, zone := 1, joining := .ready, flags := 0, activeGen := active, stagingGen := 0, stagingState := .empty
    night := night, nightDay := 0, firstUnreleased := 1, nextSeq := 1, day := 0, minute := 0, second := 0 }

def peers (d : PresenceData) (p : Part) : Part :=
  { p with pres := { p.pres with peers := p.pres.peers.set 5 { state := .present, last := some d, silence := true } } }

/-- A kept PRESENCE of a station. -/
def kept (st : StationNo) (d : PresenceData) : KeptPresence :=
  ⟨st, withCrc (plainBody 255 kindPresence (presencePayload { d with station := st.val }))⟩

def clock (day minute second : Nat) (p : Part) : Part := { p with pres := { p.pres with clock := ⟨true, day, minute, second⟩ } }

/-- A configuration block that passes. -/
def block : Bytes :=
  withCrc ([2, 0, 1, 0, 7, 2, 7, 0xFF, 1, 0x0A, 0, 0, 10, 5] ++ be 2 1380 ++ be 2 120 ++ [24, 0, 0] ++ List.replicate 233 0)

/-- The journal of a part whose records 1 to 9 stand, and record 10 is accepted. -/
def journal : Journal := { next := 11, commit := 10 }

def ledger (j : Journal) (p : Part) : Part := { p with jrn := j }

/-- A record that stands in its slot. -/
def slot (q : Nat) (p : Part) : Part := { p with dram := Mem.writeBytes p.dram (slotAddr q) (recordBytes q 0 0 0 false (.saleOpen 7)) }

/-- A session of the holder with this upload entry. -/
def session (ph : NightPhase) (es : List Upload) (p : Part) : Part :=
  { p with
    trk := { p.trk with line := .up, night := .holding, phase := ph, table := es, turn := es.head?.map (·.station) } }

def upload (st : StationNo) (o : Option Block) : Upload := ⟨st, 1, some 20, 0, 2, 0, 0, .pulling, o⟩

def carton (st : StationNo) : Block := ⟨st, 1, 1, 1, ⟨200, .relay, 0⟩, false, true, false⟩

/-- The trunk line UP. -/
def trunkUp (p : Part) : Part := { p with trk := { p.trk with line := .up } }

/-- The default route to the trunk. -/
def toTrunk (p : Part) : Part := (trunkUp p).recomputeDefault

/-- An order in the label window. -/
def order : Order := ⟨3, 0, 1, .blank, true, false⟩

def ordering (p : Part) : Part := { p with lab := { p.lab with headUp := true, headTimer := true, window := [order] } }

/-- The cells of 256 guest entries, the first of them idle longest. -/
def house : Mem := (guestAddr 0 + 6, 1) :: (List.range' 1 255).flatMap fun j => [(guestAddr j + 6, 1), (guestAddr j + 14, 1)]

/-- Every guest entry is taken; a packet of another guest waits. -/
def fullHouse : State :=
  run { given .guest .guest 0 ([1] ++ be 6 77 ++ packet 10 0x08080808 0) (toTrunk part) with
        gst := { cleared := 256, radioUp := true, radioTimer := true, meterTime := 60001, budget := 1536 }
        dram := (stored ([1] ++ be 6 77 ++ packet 10 0x08080808 0) part).dram ++ house }

/-! ### single steps -/

/-- What a step leaves, where it answers a next state. -/
def after (o : Host.Outcome State Fault Refusal) : State :=
  match o with
  | .next t => t
  | _ => State.powerUp

/-- LOOKUP of two pieces held at 1.50 replies OK with HOLD, 1.50 each and 3.00 in all. -/
theorem test_lookup_replies_held_price :
    ((after (exec .dramBurstDone (after (exec (.lookup 0)
        (run (asks 1 (be 6 5 ++ be 3 2) none (selling milk part))))))).part.port 0).last.map
        (fun l => (l.content.take 12, crcGood l.content)) =
      some ([1, 1, 0, 2, 0, 0, 0, 150, 0, 0, 1, 44], true) := by
  decide +kernel

/-- A queued command is taken by a step, and the queue moves up. -/
theorem test_step_takes_a_command :
    (after (step { run part with pending := [.refreshDue, .meterTick] })).pending = [.meterTick] := by
  decide +kernel

/-- The fourth collision of a frame drops it, and the transmitter rests. -/
theorem test_collision_drop :
    (after (exec .collision (run (inHand .price (frame .price 3) (.sending .price))))).part.branch.tx = .idle := by
  decide +kernel

/-! ### helping lemmas -/

theorem read_eq_zero (m : Mem) (a : Nat) (h : ∀ c ∈ m, c.1 ≠ a) : Mem.read m a = 0 := by
  induction m with
  | nil => rfl
  | cons c rest ih =>
    obtain ⟨k, v⟩ := c
    have hk : k ≠ a := h (k, v) (by simp)
    simp [Mem.read, hk, ih fun d hd => h d (by simp [hd])]

/-- Nothing listed at or past an entry: no label there. -/
theorem labelAt_none (p : Part) (i : Nat) (h : ∀ c ∈ p.dram, c.1 < labelAddr i) : p.labelAt i = none := by
  have r : ∀ a, labelAddr i ≤ a → Mem.read p.dram a = 0 := fun a ha =>
    read_eq_zero _ _ fun c hc e => by have := h c hc; omega
  have z : fieldAt (p.labelBytes i) 0 3 = 0 := by
    simp [Part.labelBytes, Part.read, fieldAt, sub, Mem.readBytes, Config.labelBytes, beNat, r (labelAddr i) (by omega),
      r (labelAddr i + 1) (by omega), r (labelAddr i + 1 + 1) (by omega)]
  simp [Part.labelAt, z]

/-- Nothing listed past the first entry, which is in use: it alone is in use. -/
theorem inUse_first (p : Part) (h : ∀ c ∈ p.dram, c.1 < labelAddr 1) (h0 : (p.labelAt 0).isSome = true) :
    p.labelsInUse = [0] := by
  have r : List.range Config.labelSlots = [0] ++ List.range' 1 4095 := by
    simp [Config.labelSlots, List.range_eq_range', List.range'_eq_cons_iff]
  have n : (List.range' 1 4095).filter (fun i => (p.labelAt i).isSome) = [] := by
    simp only [List.filter_eq_nil_iff, List.mem_range'_1]
    intro i hi
    rw [labelAt_none p i fun c hc => by have := h c hc; unfold labelAddr Config.labelBytes at *; omega]
    decide
  unfold Part.labelsInUse
  rw [r, List.filter_append, n]
  simp [h0]

theorem read_append_of_lt (m m' : Mem) (a : Nat) (h : ∀ c ∈ m, c.1 < a) : Mem.read (m ++ m') a = Mem.read m' a := by
  induction m with
  | nil => rfl
  | cons c rest ih =>
    obtain ⟨k, v⟩ := c
    have hk : k ≠ a := Nat.ne_of_lt (h (k, v) (by simp))
    simp [Mem.read, hk, ih fun d hd => h d (by simp [hd])]

theorem read_houses (n s j k : Nat) (hk : k < 32) :
    Mem.read ((List.range' s n).flatMap fun j => [(guestAddr j + 6, 1), (guestAddr j + 14, 1)]) (guestAddr j + k) =
      if s ≤ j ∧ j < s + n ∧ (k = 6 ∨ k = 14) then 1 else 0 := by
  induction n generalizing s with
  | zero => simp [Mem.read]; omega
  | succ n ih =>
    simp only [List.range'_succ, List.flatMap_cons, List.cons_append, List.nil_append, Mem.read, ih]
    unfold guestAddr Config.guestBytes
    split_ifs <;> first | rfl | omega

/-- The entry `j` of the full house. -/
theorem fullHouse_guest (j : Nat) (hj : j < 256) :
    fullHouse.part.guestAt j = some ⟨0, 0, if j = 0 then 0 else 1, 0, 0, 0, 0, none⟩ := by
  have low : ∀ c ∈ (stored ([1] ++ be 6 77 ++ packet 10 0x08080808 0) part).dram, c.1 < Config.guestBase := by decide +kernel
  have r : ∀ k < 32, Mem.read fullHouse.part.dram (guestAddr j + k) = if k = 6 ∨ (k = 14 ∧ j ≠ 0) then 1 else 0 := by
    intro k hk
    show Mem.read (_ ++ house) _ = _
    rw [read_append_of_lt _ _ _ fun c hc => Nat.lt_of_lt_of_le (low c hc) (by unfold guestAddr; omega)]
    have b := read_houses 255 1 j k hk
    unfold house
    rw [Mem.read, b]
    unfold guestAddr Config.guestBytes
    split_ifs <;> first | rfl | omega
  have bs : fullHouse.part.read (guestAddr j) 32 =
      [0, 0, 0, 0, 0, 0, 1, 0, 0, 0, 0, 0, 0, 0, if j = 0 then 0 else 1, 0, 0, 0, 0, 0, 0, 0, 0, 0, 0, 0, 0, 0, 0, 0, 0, 0] := by
    have z := r 0 (by decide)
    simp only [Nat.add_zero] at z
    rcases Nat.eq_zero_or_pos j with rfl | j0
    · simp [Part.read, Mem.readBytes, Nat.add_assoc, z, r]
    · simp [Part.read, Mem.readBytes, Nat.add_assoc, z, r, Nat.ne_of_gt j0]
  have up : ¬ fullHouse.part.gst.cleared < Config.guestSlots := by decide
  unfold Part.guestAt
  rw [if_neg up]
  show parseGuest (fullHouse.part.read (guestAddr j) 32) = _
  rw [bs]
  by_cases j0 : j = 0
  · subst j0; decide +kernel
  · simp only [j0, if_false]; decide +kernel

/-! ### what meets the hypotheses of each statement -/

theorem meets_EveryCommandAnswers :
    (∃ s : State, s.pending = []) ∧
    (∃ (c : Instr) (s : State), s.supply.takesEvents = false ∧ c ∉ [Instr.dramBurstDone, .refreshDue, .supplyLow,
      .supplyGood, .resetAssert, .resetRelease]) :=
  ⟨⟨State.powerUp, by (repeat' apply And.intro) <;> decide +kernel⟩,
   ⟨.meterTick, State.powerUp, by (repeat' apply And.intro) <;> decide +kernel⟩⟩

theorem meets_MemoryControllerKept :
    (∃ s t : State, s.memoryController ∧ step s = .next t) :=
  ⟨State.powerUp, State.powerUp, by exact ⟨⟨⟨by decide, fun r => by cases r <;> decide⟩, by decide, by decide⟩, rfl⟩⟩

theorem meets_MemoryStaysCanonical :
    (∃ s t : State, Mem.wf s.part.dram = true ∧ Mem.wf s.part.written = true ∧ step s = .next t) :=
  ⟨run (selling milk part), (run (selling milk part)).idle, by (repeat' apply And.intro) <;> first | decide +kernel | rfl⟩

theorem meets_ContendingStation :
    (∃ (s : State) (c : Cls), s.supply.takesEvents = true ∧ s.part.branch.tx = .waiting ∧ s.part.fwd.bestClass = some
      c ∧ s.part.branch.framer.rx = none ∧ s.part.branch.turnGap = false) ∧
    (∃ (s : State) (c : Cls), s.supply.takesEvents = true ∧ s.part.branch.tx = .idle ∧ s.part.fwd.bestClass = none ∧
      s.part.branch.framer.rx = none ∧ s.part.branch.turnGap = false) ∧
    (∃ (s : State) (c : Cls), s.supply.takesEvents = true ∧ s.part.branch.loop = false ∧ s.part.branch.framer.rx =
      none ∧ s.part.branch.rxReady = true ∧ s.part.branch.tx = .waiting ∧ s.part.fwd.bestClass = some c ∧
      s.part.branch.turnGap = false) ∧
    (∃ (s : State) (c : Cls), s.supply.takesEvents = true ∧ s.part.branch.loop = false ∧ s.part.branch.framer.rx =
      none ∧ s.part.branch.rxReady = true ∧ (s.part.branch.tx = .disabled ∨ s.part.branch.tx = .idle ∨
      (s.part.branch.tx = .waiting ∧ (s.part.branch.turnGap = true ∨ s.part.fwd.bestClass = none))) ∧
      s.part.fifoSettled .branch) ∧
    (∃ (s : State) (c : Cls), s.supply.takesEvents = true ∧ s.part.branch.loop = false ∧ s.part.branch.framer.rx =
      none ∧ s.part.branch.rxReady = true ∧ (s.part.branch.tx = .disabled ∨ s.part.branch.tx = .idle ∨
      (s.part.branch.tx = .waiting ∧ (s.part.branch.turnGap = true ∨ s.part.fwd.bestClass = none))) ∧
      s.part.fifoSettled .branch) ∧
    (∃ (s : State) (c : Cls), ∃ q rest, s.supply.takesEvents = true ∧ s.part.branch.tx = .contending c ∧
      s.part.fwd.queue c = q :: rest ∧ q.withdrawn = false) :=
  ⟨⟨run (inHand .till (frame .price 0) .waiting), .till, by (repeat' apply And.intro) <;> decide +kernel⟩,
   ⟨run (part), .control, by (repeat' apply And.intro) <;> decide +kernel⟩,
   ⟨run (inHand .till (frame .price 0) .waiting), .till, by (repeat' apply And.intro) <;> decide +kernel⟩,
   ⟨run (part), .control, by (repeat' apply And.intro) <;> first | decide +kernel | (intro c rest h; cases h)⟩,
   ⟨run (gap (inHand .till (frame .price 0) .waiting)), .till, by (repeat' apply And.intro) <;> first | decide +kernel | (intro c rest h; cases h)⟩,
   ⟨run (inHand .guest (frame .price 0) (.contending .guest)), .guest, frame .price 0, [], by (repeat' apply And.intro) <;> decide +kernel⟩⟩

theorem meets_FrameSentLeavesItsQueue :
    (∃ (s : State) (c : Cls) (q : QFrame) (rest : List QFrame), s.supply.takesEvents = true ∧ s.part.branch.tx =
      .sending c ∧ s.part.fwd.queue c = q :: rest ∧ q.owner.deaf = true) ∧
    (∃ (s : State) (c : Cls) (q : QFrame) (rest : List QFrame), ∃ tag e, s.supply.takesEvents = true ∧
      s.part.branch.tx = .sending c ∧ s.part.fwd.queue c = q :: rest ∧ q.owner = .call tag ∧ s.part.call.opens = [e]
      ∧ e.tag = tag ∧ s.part.call.conn = none) ∧
    (∃ (s : State) (c : Cls) (q : QFrame) (rest : List QFrame), ∃ tag d, s.supply.takesEvents = true ∧
      s.part.branch.tx = .sending c ∧ s.part.fwd.queue c = q :: rest ∧ q.owner = .recall tag ∧ s.part.call.deferred =
      [d] ∧ d.recallTag = tag) ∧
    (∃ (s : State) (c : Cls) (q : QFrame) (rest : List QFrame), ∃ d, s.supply.takesEvents = true ∧ s.part.branch.tx =
      .sending c ∧ s.part.fwd.queue c = q :: rest ∧ q.owner = .claim d ∧ s.part.trk.night = .claiming ∧
      s.part.trk.nightDay = d ∧ s.part.nightNow = some d ∧ (∀ n, s.part.trk.holderFor d = some n →
      s.part.ownStation.val ≤ n.val)) ∧
    (∃ (s : State) (x : TurnFrame), s.supply.takesEvents = true ∧ s.part.branch.tx = .sendingTurn ∧
      s.part.branch.turn = some x ∧ x.what ≠ .answerAccept) ∧
    (∃ (s : State) (x : TurnFrame), s.supply.takesEvents = true ∧ s.part.branch.tx = .sendingTurn ∧
      s.part.branch.turn = some x ∧ x.what ≠ .answerAccept) ∧
    (∃ (s : State) (x : TurnFrame), s.supply.takesEvents = true ∧ s.part.branch.tx = .sendingTurn ∧
      s.part.branch.turn = some x ∧ x.what ≠ .answerAccept) ∧
    (∃ (s : State) (x : TurnFrame), ∃ c, s.supply.takesEvents = true ∧ s.part.branch.tx = .sendingTurn ∧
      s.part.branch.turn = some x ∧ x.what = .answerAccept ∧ s.part.call.conn = some c ∧ c.phase = .awaitSend ∧
      s.bufferFree ∧ c.request = .fetch 7 0 336) ∧
    (∃ (s : State) (x : TurnFrame), ∃ c, s.supply.takesEvents = true ∧ s.part.branch.tx = .sendingTurn ∧
      s.part.branch.turn = some x ∧ x.what = .answerAccept ∧ s.part.call.conn = some c ∧ c.phase = .awaitSend ∧
      s.bufferFree ∧ c.request = .pull 9 64) :=
  ⟨⟨run (inHand .price (frame .price 0) (.sending .price)), .price, frame .price 0, [], by (repeat' apply And.intro) <;> decide +kernel⟩,
   ⟨run (calling (call .trunk (.pull 1 64) .queued) none (inHand .till (frame (.call 9) 0) (.sending .till))), .till, frame (.call 9) 0, [], 9, call .trunk (.pull 1 64) .queued, by (repeat' apply And.intro) <;> decide +kernel⟩,
   ⟨run ({ inHand .till (frame (.recall 4) 0) (.sending .till) with call := { deferred := [⟨5, 9, 4, .fetch 7 0 1, .recallQueued, true, false⟩] } }), .till, frame (.recall 4) 0, [], 4, ⟨5, 9, 4, .fetch 7 0 1, .recallQueued, true, false⟩, by (repeat' apply And.intro) <;> decide +kernel⟩,
   ⟨run (clock 9 1400 0 (trunkUp { inHand .control (frame (.claim 9) 0) (.sending .control) with trk := { night := .claiming, nightDay := 9 } })), .control, frame (.claim 9) 0, [], 9, by (repeat' apply And.intro) <;> first | decide +kernel | (intro n hn; cases hn)⟩,
   ⟨run ({ part with branch := { part.branch with tx := .sendingTurn, turn := some ⟨⟨300, .plain, 4⟩, .answerBusy⟩ } }), ⟨⟨300, .plain, 4⟩, .answerBusy⟩, by (repeat' apply And.intro) <;> decide +kernel⟩,
   ⟨run ({ part with branch := { part.branch with tx := .sendingTurn, turn := some ⟨⟨300, .plain, 4⟩, .receipt true⟩ } }), ⟨⟨300, .plain, 4⟩, .receipt true⟩, by (repeat' apply And.intro) <;> decide +kernel⟩,
   ⟨run ({ part with branch := { part.branch with tx := .sendingTurn, turn := some ⟨⟨300, .plain, 4⟩, .answerDefer 4⟩ } }), ⟨⟨300, .plain, 4⟩, .answerDefer 4⟩, by (repeat' apply And.intro) <;> decide +kernel⟩,
   ⟨run (selling milk ({ part with branch := { part.branch with tx := .sendingTurn, turn := some ⟨⟨300, .plain, 4⟩, .answerAccept⟩ }, call := { conn := some (conn .callee .awaitSend (.fetch 7 0 336)) } })), ⟨⟨300, .plain, 4⟩, .answerAccept⟩, conn .callee .awaitSend (.fetch 7 0 336), by (repeat' apply And.intro) <;> decide +kernel⟩,
   ⟨run (ledger journal (slot 9 ({ part with branch := { part.branch with tx := .sendingTurn, turn := some ⟨⟨300, .plain, 4⟩, .answerAccept⟩ }, call := { conn := some (conn .callee .awaitSend (.pull 9 64)) } }))), ⟨⟨300, .plain, 4⟩, .answerAccept⟩, conn .callee .awaitSend (.pull 9 64), by (repeat' apply And.intro) <;> decide +kernel⟩⟩

theorem meets_CollisionRetriesThenDrops :
    (∃ (s : State) (c : Cls) (q : QFrame) (rest : List QFrame), s.supply.takesEvents = true ∧ s.part.branch.tx =
      .sending c ∧ s.part.fwd.queue c = q :: rest ∧ q.withdrawn = false ∧ q.owner.mute = true ∧ q.collisions < 3) ∧
    (∃ (s : State) (c : Cls) (q : QFrame) (rest : List QFrame), s.supply.takesEvents = true ∧ s.part.branch.tx =
      .sending c ∧ s.part.fwd.queue c = q :: rest ∧ q.withdrawn = false ∧ q.owner.mute = true ∧ q.collisions = 3) :=
  ⟨⟨run (inHand .price (frame .price 2) (.sending .price)), .price, frame .price 2, [], by (repeat' apply And.intro) <;> decide +kernel⟩,
   ⟨run (inHand .price (frame .price 3) (.sending .price)), .price, frame .price 3, [], by (repeat' apply And.intro) <;> decide +kernel⟩⟩

theorem meets_UnderrunKeepsTheFrame :
    (∃ (s : State) (c : Cls) (q : QFrame) (rest : List QFrame), s.supply.takesEvents = true ∧ s.part.branch.tx =
      .sending c ∧ s.part.fwd.queue c = q :: rest ∧ q.withdrawn = false) ∧
    (∃ (s : State) (k : Link), s.supply.takesEvents = true ∧ (s.part.txBuf (Link.line k)).isSome = true ∧ (k ≠ .trunk
      ∨ s.part.trk.line = .up)) ∧
    (∃ (s : State) (k : Link), s.supply.takesEvents = true ∧ (s.part.txBuf (Link.line k)).isSome = true ∧ k = .trunk
      ∧ s.part.trk.line ≠ .up) :=
  ⟨⟨run (inHand .price (frame .price 0) (.sending .price)), .price, frame .price 0, [], by (repeat' apply And.intro) <;> decide +kernel⟩,
   ⟨run ({ part with fwd := { part.fwd with radio := [⟨⟨300, .guest, 4⟩, 0, true⟩] } }), .guest, by (repeat' apply And.intro) <;> decide +kernel⟩,
   ⟨run ({ part with fwd := { part.fwd with packets := [⟨⟨300, .guest, 4⟩, .packet, true⟩] } }), .trunk, by (repeat' apply And.intro) <;> decide +kernel⟩⟩

theorem meets_TurnGapAndReceiverReady :
    (∃ s : State, s.supply.takesEvents = true ∧ s.part.branch.turnGap = true ∧ s.part.call.conn = none) ∧
    (∃ s : State, ∃ c, s.supply.takesEvents = true ∧ s.part.branch.turnGap = true ∧ s.part.call.conn = some c ∧
      c.phase = .awaitReceipt) ∧
    (∃ s : State, ∃ c, s.supply.takesEvents = true ∧ s.part.branch.turnGap = true ∧ s.part.call.conn = some c ∧
      c.phase = .awaitSilence) ∧
    (∃ s : State, ∃ c, s.supply.takesEvents = true ∧ s.part.branch.turnGap = true ∧ s.part.call.conn = some c ∧
      c.phase = .awaitSend) ∧
    (∃ s : State, ∃ c, s.supply.takesEvents = true ∧ s.part.branch.turnGap = true ∧ s.part.call.conn = some c ∧
      c.phase = .awaitRecallAnswer) ∧
    (∃ s : State, ∃ c, s.supply.takesEvents = true ∧ s.part.branch.turnGap = true ∧ s.part.call.conn = some c ∧ ∃ e,
      c.phase = .awaitAnswer ∧ s.part.call.opens = [e] ∧ e.tag = c.tag) ∧
    (∃ s : State, ∃ c, s.supply.takesEvents = true ∧ s.part.branch.turnGap = true ∧ s.part.call.conn = some c ∧ ∃ e,
      c.phase = .awaitData ∧ s.part.call.opens = [e] ∧ e.tag = c.tag) ∧
    (∃ s : State, s.supply.takesEvents = true ∧ s.part.lineBusy = false) :=
  ⟨⟨run (gap part), by (repeat' apply And.intro) <;> decide +kernel⟩,
   ⟨run (gap (serving (conn .callee .awaitReceipt (.pull 1 64)) part)), conn .callee .awaitReceipt (.pull 1 64), by (repeat' apply And.intro) <;> decide +kernel⟩,
   ⟨run (gap (serving (conn .callee .awaitSilence (.pull 1 64)) part)), conn .callee .awaitSilence (.pull 1 64), by (repeat' apply And.intro) <;> decide +kernel⟩,
   ⟨run (gap (serving (conn .callee .awaitSend (.pull 1 64)) part)), conn .callee .awaitSend (.pull 1 64), by (repeat' apply And.intro) <;> decide +kernel⟩,
   ⟨run (gap (serving (conn .callee .awaitRecallAnswer (.pull 1 64)) part)), conn .callee .awaitRecallAnswer (.pull 1 64), by (repeat' apply And.intro) <;> decide +kernel⟩,
   ⟨run (gap (calling (call .trunk (.pull 1 64) .connected) (some (conn .caller .awaitAnswer (.pull 1 64))) part)), conn .caller .awaitAnswer (.pull 1 64), by (repeat' apply And.intro) <;> first | decide +kernel | exact ⟨_, rfl, rfl, rfl⟩⟩,
   ⟨run (gap (calling (call .trunk (.pull 1 64) .connected) (some (conn .caller .awaitData (.pull 1 64))) part)), conn .caller .awaitData (.pull 1 64), by (repeat' apply And.intro) <;> first | decide +kernel | exact ⟨_, rfl, rfl, rfl⟩⟩,
   ⟨run (part), by (repeat' apply And.intro) <;> decide +kernel⟩⟩

theorem meets_KindByteAsksABuffer :
    (∃ (s : State) (l : Line) (cls : Cls) (st : StationNo) (dest kind : Byte) (opening body : List Bool) (d :
      Deframe), s.supply.takesEvents = true ∧ s.part.receives l = true ∧ s.part.canBegin l = true ∧ (s.part.framer
      l).fifo = [] ∧ (l = .branch → s.part.pres.joining.filterKeeps = true ∧ (dest.toNat = s.part.ownStation.val ∨
      dest.toNat = 255)) ∧ d = ({} : Deframe).feeds (openingWithin l) (opening ++ body) ∧ d.reached = .body ∧ d.got =
      (if l = .branch then [dest, kind] else [kind]) ∧ (l = .branch ∧ kind.toNat = kindPresence)) ∧
    (∃ (s : State) (l : Line) (cls : Cls) (st : StationNo) (dest kind : Byte) (opening body : List Bool) (d :
      Deframe), s.supply.takesEvents = true ∧ s.part.receives l = true ∧ s.part.canBegin l = true ∧ (s.part.framer
      l).fifo = [] ∧ (l = .branch → s.part.pres.joining.filterKeeps = true ∧ (dest.toNat = s.part.ownStation.val ∨
      dest.toNat = 255)) ∧ d = ({} : Deframe).feeds (openingWithin l) (opening ++ body) ∧ d.reached = .body ∧ d.got =
      (if l = .branch then [dest, kind] else [kind]) ∧ ¬ (l = .branch ∧ kind.toNat = kindPresence) ∧ (s.part.fwd.take
      (rxUser l cls kind)).1 ≠ none) ∧
    (∃ (s : State) (l : Line) (cls : Cls) (st : StationNo) (dest kind : Byte) (opening body : List Bool) (d :
      Deframe), s.supply.takesEvents = true ∧ s.part.receives l = true ∧ s.part.canBegin l = true ∧ (s.part.framer
      l).fifo = [] ∧ (l = .branch → s.part.pres.joining.filterKeeps = true ∧ (dest.toNat = s.part.ownStation.val ∨
      dest.toNat = 255)) ∧ d = ({} : Deframe).feeds (openingWithin l) (opening ++ body) ∧ d.reached = .body ∧ d.got =
      (if l = .branch then [dest, kind] else [kind]) ∧ ¬ (l = .branch ∧ kind.toNat = kindPresence) ∧ (s.part.fwd.take
      (rxUser l cls kind)).1 = none) :=
  ⟨⟨run (part), .branch, .control, 5, 255, 1, flagBits, (stuff 0 (bytesBits [255, 1])).1, ⟨.body, 0, false, [], [255, 1]⟩, by (repeat' apply And.intro) <;> first | decide +kernel | (intro h; cases h) | exact fun _ => ⟨rfl, Or.inl rfl⟩ | exact fun _ => ⟨rfl, Or.inr rfl⟩⟩,
   ⟨run (part), .branch, .control, 5, 2, 8, flagBits, (stuff 0 (bytesBits [2, 8])).1, ⟨.body, 0, false, [], [2, 8]⟩, by (repeat' apply And.intro) <;> first | decide +kernel | (intro h; cases h) | exact fun _ => ⟨rfl, Or.inl rfl⟩ | exact fun _ => ⟨rfl, Or.inr rfl⟩⟩,
   ⟨run ({ part with fwd := { part.fwd with free := [] } }), .trunk, .control, 5, 0, 2, flagBits, (stuff 0 (bytesBits [2])).1, ⟨.body, 0, false, [], [2]⟩, by (repeat' apply And.intro) <;> first | decide +kernel | (intro h; cases h) | exact fun _ => ⟨rfl, Or.inl rfl⟩ | exact fun _ => ⟨rfl, Or.inr rfl⟩⟩⟩

theorem meets_BadFrameDiscardedOnce :
    (∃ (s : State) (l : Line) (r : RxFrame) (start header opening body closing : List Bool) (d : Deframe),
      s.supply.takesEvents = true ∧ s.part.receives l = true ∧ s.part.reads l r (start ++ header ++ opening ++ body
      ++ closing) d ∧ d.reached = .closed ∧ r.passed = false) ∧
    (∃ (s : State) (l : Line) (r : RxFrame) (start header opening body closing : List Bool) (d : Deframe),
      s.supply.takesEvents = true ∧ s.part.receives l = true ∧ s.part.reads l r (start ++ header ++ opening ++ body
      ++ closing) d ∧ d.reached = .closed ∧ r.overrun = true) ∧
    (∃ (s : State) (l : Line) (r : RxFrame) (start header opening body closing : List Bool) (d : Deframe),
      s.supply.takesEvents = true ∧ s.part.receives l = true ∧ s.part.reads l r (start ++ header ++ opening ++ body
      ++ closing) d ∧ d.reached = .closed ∧ r.overrun = false ∧ frameLong l d.body = true) ∧
    (∃ (s : State) (l : Line) (r : RxFrame) (start header opening body closing : List Bool) (d : Deframe),
      s.supply.takesEvents = true ∧ s.part.receives l = true ∧ s.part.reads l r (start ++ header ++ opening ++ body
      ++ closing) d ∧ d.reached = .closed ∧ frameLong l d.body = false ∧ d.odd = 1) ∧
    (∃ (s : State) (l : Line) (r : RxFrame) (start header opening body closing : List Bool) (d : Deframe),
      s.supply.takesEvents = true ∧ s.part.receives l = true ∧ s.part.reads l r (start ++ header ++ opening ++ body
      ++ closing) d ∧ d.reached = .closed ∧ frameLong l d.body = false ∧ d.odd = 7) ∧
    (∃ (s : State) (l : Line) (r : RxFrame) (start header opening body closing : List Bool) (d : Deframe),
      s.supply.takesEvents = true ∧ s.part.receives l = true ∧ s.part.reads l r (start ++ header ++ opening ++ body
      ++ closing) d ∧ d.reached = .closed ∧ d.odd = 0 ∧ d.body.length < (if l = .branch then 5 else 3)) ∧
    (∃ (s : State) (l : Line) (r : RxFrame) (start header opening body closing : List Bool) (d : Deframe),
      s.supply.takesEvents = true ∧ s.part.receives l = true ∧ s.part.reads l r (start ++ header ++ opening ++ body
      ++ closing) d ∧ d.reached = .closed ∧ crcGood d.body = false ∧ r.inTurn = true ∧ s.part.call.conn ≠ none) :=
  ⟨⟨run (receiving .branch ({ rx .branch [3, 8, 0, 0, 0] none with passed := false }) (part)), .branch, { rx .branch [3, 8, 0, 0, 0] none with passed := false }, [], [], [], [], flagBits, ⟨.closed, 0, false, [false, true, true, true, true, true, true], [3, 8, 0, 0, 0]⟩, by (repeat' apply And.intro) <;> first | decide +kernel | (intro c rest h; cases h) | exact Or.inr rfl⟩,
   ⟨run (receiving .branch ({ rx .branch [2, 8, 0, 0, 0] (some ⟨300, .plain, 0⟩) with overrun := true }) (part)), .branch, { rx .branch [2, 8, 0, 0, 0] (some ⟨300, .plain, 0⟩) with overrun := true }, [], [], [], [], flagBits, ⟨.closed, 0, false, [false, true, true, true, true, true, true], [2, 8, 0, 0, 0]⟩, by (repeat' apply And.intro) <;> first | decide +kernel | (intro c rest h; cases h) | exact Or.inr rfl⟩,
   ⟨run (receiving .trunk (rx .trunk (List.replicate 2049 0) (some ⟨300, .plain, 0⟩)) (part)), .trunk, rx .trunk (List.replicate 2049 0) (some ⟨300, .plain, 0⟩), [], [], [], [], flagBits, ⟨.closed, 0, false, [false, true, true, true, true, true, true], (List.replicate 2049 0)⟩, by (repeat' apply And.intro) <;> first | decide +kernel | (intro c rest h; cases h) | exact Or.inr rfl⟩,
   ⟨run (receiving .guest ({ rx .guest [1, 0, 0, 0, 0] (some ⟨300, .plain, 0⟩) with frame := ⟨.body, 0, true, [false], [1, 0, 0, 0, 0]⟩ }) (part)), .guest, { rx .guest [1, 0, 0, 0, 0] (some ⟨300, .plain, 0⟩) with frame := ⟨.body, 0, true, [false], [1, 0, 0, 0, 0]⟩ }, [], [], [], [], flagBits, ⟨.closed, 0, false, [], [1, 0, 0, 0, 0, 0xFC]⟩, by (repeat' apply And.intro) <;> first | decide +kernel | (intro c rest h; cases h) | exact Or.inr rfl⟩,
   ⟨run (receiving .guest ({ rx .guest [1, 0, 0, 0] (some ⟨300, .plain, 0⟩) with frame := ⟨.body, 5, true, List.replicate 7 true, [1, 0, 0, 0]⟩ }) (part)), .guest, { rx .guest [1, 0, 0, 0] (some ⟨300, .plain, 0⟩) with frame := ⟨.body, 5, true, List.replicate 7 true, [1, 0, 0, 0]⟩ }, [], [], [], [], flagBits, ⟨.closed, 0, true, List.replicate 5 true, [1, 0, 0, 0, 0xFF]⟩, by (repeat' apply And.intro) <;> first | decide +kernel | (intro c rest h; cases h) | exact Or.inr rfl⟩,
   ⟨run (receiving .branch (rx .branch [2, 8, 0, 0] (some ⟨300, .plain, 0⟩)) (part)), .branch, rx .branch [2, 8, 0, 0] (some ⟨300, .plain, 0⟩), [], [], [], [], flagBits, ⟨.closed, 0, false, [false, true, true, true, true, true, true], [2, 8, 0, 0]⟩, by (repeat' apply And.intro) <;> first | decide +kernel | (intro c rest h; cases h) | exact Or.inr rfl⟩,
   ⟨run (receiving .branch ({ rx .branch [2, 8, 0, 0, 0] (some ⟨300, .plain, 0⟩) with inTurn := true }) (serving (conn .callee .awaitReceipt (.pull 1 1)) part)), .branch, { rx .branch [2, 8, 0, 0, 0] (some ⟨300, .plain, 0⟩) with inTurn := true }, [], [], [], [], flagBits, ⟨.closed, 0, false, [false, true, true, true, true, true, true], [2, 8, 0, 0, 0]⟩, by (repeat' apply And.intro) <;> first | decide +kernel | (intro c rest h; cases h) | exact Or.inr rfl⟩⟩

theorem meets_GoodFrameKept :
    (∃ (s : State) (l : Line) (r : RxFrame) (start header opening body closing : List Bool) (d : Deframe),
      s.supply.takesEvents = true ∧ s.part.receives l = true ∧ s.part.reads l r (start ++ header ++ opening ++ body
      ++ closing) d ∧ d.reached = .closed ∧ r.passed = true ∧ r.overrun = false ∧ r.asked = true ∧ d.odd = 0 ∧
      frameLong l d.body = false ∧ (if l = .branch then 5 else 3) ≤ d.body.length ∧ crcGood d.body = true ∧
      bufferless l (byteAt d.body (kindAt l)) = true ∧ r.buf = none) ∧
    (∃ (s : State) (l : Line) (r : RxFrame) (start header opening body closing : List Bool) (d : Deframe),
      s.supply.takesEvents = true ∧ s.part.receives l = true ∧ s.part.reads l r (start ++ header ++ opening ++ body
      ++ closing) d ∧ d.reached = .closed ∧ r.passed = true ∧ r.overrun = false ∧ r.asked = true ∧ d.odd = 0 ∧
      frameLong l d.body = false ∧ (if l = .branch then 5 else 3) ≤ d.body.length ∧ crcGood d.body = true ∧
      bufferless l (byteAt d.body (kindAt l)) = false ∧ r.buf = none) ∧
    (∃ (s : State) (l : Line) (r : RxFrame) (start header opening body closing : List Bool) (d : Deframe),
      s.supply.takesEvents = true ∧ s.part.receives l = true ∧ s.part.reads l r (start ++ header ++ opening ++ body
      ++ closing) d ∧ d.reached = .closed ∧ r.passed = true ∧ r.overrun = false ∧ r.asked = true ∧ d.odd = 0 ∧
      frameLong l d.body = false ∧ (if l = .branch then 5 else 3) ≤ d.body.length ∧ crcGood d.body = true ∧
      bufferless l (byteAt d.body (kindAt l)) = false ∧ r.buf = none) ∧
    (∃ (s : State) (l : Line) (r : RxFrame) (start header opening body closing : List Bool) (d : Deframe),
      s.supply.takesEvents = true ∧ s.part.receives l = true ∧ s.part.reads l r (start ++ header ++ opening ++ body
      ++ closing) d ∧ d.reached = .closed ∧ r.passed = true ∧ r.overrun = false ∧ r.asked = true ∧ d.odd = 0 ∧
      frameLong l d.body = false ∧ (if l = .branch then 5 else 3) ≤ d.body.length ∧ crcGood d.body = true ∧ (∃ b a
      bs, bufferless l (byteAt d.body (kindAt l)) = false ∧ r.buf = some b ∧ (s.part.framer l).fifo = [⟨some b, a,
      bs, false⟩] ∧ a + bs.length = r.frame.got.length ∧ a < d.body.length - 2 ∧ d.body.length ≤ Config.bufferBytes)) ∧
    (∃ (s : State) (l : Line) (b : Buf) (a : Nat) (bs : Bytes) (it : RxItem), bs ≠ [] ∧ s.arb.port = some (.burst
      (Line.receiver l) (.rxWrite l)) ∧ (s.part.framer l).fifo = [⟨some b, a, bs, true⟩] ∧ bs.length ≤ 32 - a % 32 ∧
      bufAddr b.num + a + bs.length ≤ Config.dramSize ∧ s.part.fwd.filling = [it] ∧ it.buf.num = b.num ∧
      s.part.fwd.waiting = []) ∧
    (∃ (s : State) (cls : Cls) (st : StationNo) (body : Bytes), s.supply.takesEvents = true ∧ s.part.receives .branch
      = true ∧ s.part.canBegin .branch = true ∧ s.part.branch.framer.fifo = [] ∧ s.part.pres.joining.filterKeeps =
      true ∧ s.part.destPasses (byteAt body 0) = true ∧ (byteAt body 1).toNat = kindPresence ∧ 3 ≤ body.length ∧
      body.length ≤ 62) :=
  ⟨⟨run (receiving .branch (rx .branch (withCrc [2, 1, 0]) none) (part)), .branch, rx .branch (withCrc [2, 1, 0]) none, [], [], [], [], flagBits, ⟨.closed, 0, false, [false, true, true, true, true, true, true], (withCrc [2, 1, 0])⟩, by (repeat' apply And.intro) <;> first | decide +kernel | (intro c rest h; cases h) | exact Or.inr rfl⟩,
   ⟨run (receiving .branch (rx .branch (withCrc [2, 8, 0]) none) (part)), .branch, rx .branch (withCrc [2, 8, 0]) none, [], [], [], [], flagBits, ⟨.closed, 0, false, [false, true, true, true, true, true, true], (withCrc [2, 8, 0])⟩, by (repeat' apply And.intro) <;> first | decide +kernel | (intro c rest h; cases h) | exact Or.inr rfl⟩,
   ⟨run (receiving .guest (rx .guest (withCrc [1]) none) (part)), .guest, rx .guest (withCrc [1]) none, [], [], [], [], flagBits, ⟨.closed, 0, false, [false, true, true, true, true, true, true], (withCrc [1])⟩, by (repeat' apply And.intro) <;> first | decide +kernel | (intro c rest h; cases h) | exact Or.inr rfl⟩,
   ⟨run (receiving .branch (rx .branch (withCrc [2, 8, 0]) (some ⟨300, .plain, 0⟩)) ({ part with branch := { part.branch with framer := { fifo := [⟨some ⟨300, .plain, 0⟩, 0, withCrc [2, 8, 0], false⟩] } } })), .branch, rx .branch (withCrc [2, 8, 0]) (some ⟨300, .plain, 0⟩), [], [], [], [], flagBits, ⟨.closed, 0, false, [false, true, true, true, true, true, true], (withCrc [2, 8, 0])⟩, by (repeat' apply And.intro) <;> first | decide +kernel | exact Or.inr rfl | (intro c rest h; cases h; decide +kernel) | exact ⟨_, _, _, by decide +kernel, rfl, rfl, by decide +kernel, by decide +kernel, by decide +kernel⟩⟩,
   ⟨{ run { part with branch := { part.branch with framer := { fifo := [⟨some ⟨300, .plain, 3⟩, 0, [2, 8, 0], true⟩], draining := true } }, fwd := { part.fwd with filling := [⟨⟨300, .plain, 3⟩, .branch, .till, 5, false⟩] } } with arb := { port := some (.burst .lineReceive (.rxWrite .branch)) } }, .branch, ⟨300, .plain, 3⟩, 0, [2, 8, 0], ⟨⟨300, .plain, 3⟩, .branch, .till, 5, false⟩, by (repeat' apply And.intro) <;> decide +kernel⟩,
   ⟨run (part), .control, 5, [2, 1, 0], by (repeat' apply And.intro) <;> decide +kernel⟩⟩

theorem meets_FrameSpoiled :
    (∃ (s : State) (l : Line) (r : RxFrame), s.supply.takesEvents = true ∧ (s.part.framer l).rx = some r ∧ r.storing
      l = true ∧ 64 ≤ fifoBytes (s.part.framer l).fifo) ∧
    (∃ (s : State) (l : Line) (r : RxFrame), ∃ (bits : List Bool) (d : Deframe), s.supply.takesEvents = true ∧
      s.part.receives l = true ∧ s.part.reads l r bits d ∧ d.reached = .aborted ∧ r.inTurn = false) ∧
    (∃ (s : State) (l : Line) (r : RxFrame), ∃ (bits : List Bool) (d : Deframe), s.supply.takesEvents = true ∧
      s.part.receives l = true ∧ s.part.reads l r bits d ∧ d.reached = .aborted ∧ l = .branch ∧ r.inTurn = true ∧
      s.part.call.conn ≠ none) ∧
    (∃ (s : State) (l : Line) (r : RxFrame), ∃ (bits : List Bool) (d : Deframe), s.supply.takesEvents = true ∧
      s.part.receives l = true ∧ s.part.reads l r bits d ∧ d.reached = .aborted ∧ r.buf = none) :=
  ⟨⟨run (receiving .branch (rx .branch [2, 8, 0] (some ⟨300, .plain, 0⟩)) { part with branch := { part.branch with framer := { fifo := [⟨some ⟨300, .plain, 0⟩, 0, List.replicate 64 0, false⟩] } } }), .branch, rx .branch [2, 8, 0] (some ⟨300, .plain, 0⟩), by (repeat' apply And.intro) <;> decide +kernel⟩,
   ⟨run (receiving .branch (rx .branch [2, 8, 0] (some ⟨300, .plain, 0⟩)) (part)), .branch, rx .branch [2, 8, 0] (some ⟨300, .plain, 0⟩), List.replicate 7 true, ⟨.aborted, 7, true, List.replicate 6 true, [2, 8, 0]⟩, by (repeat' apply And.intro) <;> first | decide +kernel | (intro c rest h; cases h) | exact Or.inr rfl⟩,
   ⟨run (receiving .branch ({ rx .branch [2, 8, 0] none with inTurn := true }) (serving (conn .callee .awaitReceipt (.pull 1 1)) part)), .branch, { rx .branch [2, 8, 0] none with inTurn := true }, List.replicate 7 true, ⟨.aborted, 7, true, List.replicate 6 true, [2, 8, 0]⟩, by (repeat' apply And.intro) <;> first | decide +kernel | (intro c rest h; cases h) | exact Or.inr rfl⟩,
   ⟨run (receiving .label (rx .label [4] none) (part)), .label, rx .label [4] none, List.replicate 7 true, ⟨.aborted, 7, true, List.replicate 6 true, [4]⟩, by (repeat' apply And.intro) <;> first | decide +kernel | (intro c rest h; cases h) | exact Or.inr rfl⟩⟩

theorem meets_CallGetsItsVerdict :
    (∃ (s : State) (it : RxItem) (b : BranchBody), s.supply.takesEvents = true ∧ s.part.branchFrame .calls kindCall =
      some (it, b) ∧ s.part.call.conn.isSome = true) ∧
    (∃ (s : State) (it : RxItem) (b : BranchBody), s.supply.takesEvents = true ∧ s.part.branchFrame .calls kindCall =
      some (it, b) ∧ s.part.call.conn = none ∧ s.turnOpen ∧ 2 ≤ b.payload.length ∧ parseRequest b.payload = none) ∧
    (∃ (s : State) (it : RxItem) (b : BranchBody), s.supply.takesEvents = true ∧ s.part.branchFrame .calls kindCall =
      some (it, b) ∧ s.part.call.conn = none ∧ s.turnOpen ∧ 2 ≤ b.payload.length ∧ parseRequest b.payload = some
      (.pull 1 64) ∧ ¬ (s.part.pres.joining = .sync ∨ s.part.pres.joining = .ready)) ∧
    (∃ (s : State) (it : RxItem) (b : BranchBody), s.supply.takesEvents = true ∧ s.part.branchFrame .calls kindCall =
      some (it, b) ∧ s.part.call.conn = none ∧ s.turnOpen ∧ 2 ≤ b.payload.length ∧ parseRequest b.payload = some
      (.pull 1 64) ∧ (Request.pull 1 64).serves s.part = true) ∧
    (∃ (s : State) (it : RxItem) (b : BranchBody), s.supply.takesEvents = true ∧ s.part.branchFrame .calls kindCall =
      some (it, b) ∧ s.part.call.conn = none ∧ s.turnOpen ∧ 2 ≤ b.payload.length ∧ parseRequest b.payload = some
      (.fetch 9 0 336) ∧ (Request.fetch 9 0 336).serves s.part = false ∧ (Request.fetch 9 0 336).staged s.part = true
      ∧ s.part.call.deferred = []) ∧
    (∃ (s : State) (it : RxItem) (b : BranchBody), s.supply.takesEvents = true ∧ s.part.branchFrame .calls kindCall =
      some (it, b) ∧ s.part.call.conn = none ∧ s.turnOpen ∧ 2 ≤ b.payload.length ∧ parseRequest b.payload = some
      (.fetch 9 0 336) ∧ (Request.fetch 9 0 336).serves s.part = false ∧ (Request.fetch 9 0 336).staged s.part = true
      ∧ (∀ d ∈ s.part.call.deferred, ¬ (d.caller = it.station ∧ d.callTag = byteAt b.payload 1)) ∧ 4 ≤
      s.part.call.deferred.length) ∧
    (∃ (s : State) (it : RxItem) (b : BranchBody), s.supply.takesEvents = true ∧ s.part.branchFrame .calls kindCall =
      some (it, b) ∧ s.part.call.conn = none ∧ s.turnOpen ∧ 2 ≤ b.payload.length ∧ parseRequest b.payload = some
      (.fetch 9 0 336) ∧ (Request.fetch 9 0 336).serves s.part = false ∧ (Request.fetch 9 0 336).staged s.part =
      false) :=
  ⟨⟨run (heard .calls kindCall (callPayload 9 (.pull 1 64)) (serving (conn .caller .awaitAnswer (.pull 1 1)) part)), heardItem (callPayload 9 (.pull 1 64)), body kindCall (callPayload 9 (.pull 1 64)), by (repeat' apply And.intro) <;> decide +kernel⟩,
   ⟨run (heard .calls kindCall (callPayload 9 (.fetch 9 0 337)) (gap part)), heardItem (callPayload 9 (.fetch 9 0 337)), body kindCall (callPayload 9 (.fetch 9 0 337)), by (repeat' apply And.intro) <;> decide +kernel⟩,
   ⟨run (heard .calls kindCall (callPayload 9 (.pull 1 64)) (gap { part with pres := { joining := .announcing } })), heardItem (callPayload 9 (.pull 1 64)), body kindCall (callPayload 9 (.pull 1 64)), by (repeat' apply And.intro) <;> decide +kernel⟩,
   ⟨run (heard .calls kindCall (callPayload 9 (.pull 1 64)) (gap part)), heardItem (callPayload 9 (.pull 1 64)), body kindCall (callPayload 9 (.pull 1 64)), by (repeat' apply And.intro) <;> decide +kernel⟩,
   ⟨run (heard .calls kindCall (callPayload 9 (.fetch 9 0 336)) (gap (staged (stage .gaps none) part))), heardItem (callPayload 9 (.fetch 9 0 336)), body kindCall (callPayload 9 (.fetch 9 0 336)), by (repeat' apply And.intro) <;> decide +kernel⟩,
   ⟨run (heard .calls kindCall (callPayload 9 (.fetch 9 0 336)) (gap { staged (stage .receiving none) part with call := { deferred := List.replicate 4 ⟨3, 1, 1, .fetch 9 0 1, .waiting, true, false⟩ } })), heardItem (callPayload 9 (.fetch 9 0 336)), body kindCall (callPayload 9 (.fetch 9 0 336)), by (repeat' apply And.intro) <;> decide +kernel⟩,
   ⟨run (heard .calls kindCall (callPayload 9 (.fetch 9 0 336)) (gap part)), heardItem (callPayload 9 (.fetch 9 0 336)), body kindCall (callPayload 9 (.fetch 9 0 336)), by (repeat' apply And.intro) <;> decide +kernel⟩⟩

theorem meets_AnswerMovesTheCall :
    (∃ (s : State) (it : RxItem) (b : BranchBody), s.supply.takesEvents = true ∧ s.part.branchFrame .calls kindAnswer
      = some (it, b) ∧ s.part.call.conn = none) ∧
    (∃ (s : State) (it : RxItem) (b : BranchBody), ∃ c e v, s.supply.takesEvents = true ∧ s.part.branchFrame .calls
      kindAnswer = some (it, b) ∧ s.part.call.conn = some c ∧ c.phase = .awaitAnswer ∧ c.peer = it.station ∧ c.tag =
      byteAt b.payload 0 ∧ s.part.call.opens = [e] ∧ e.tag = c.tag ∧ parseVerdict b.payload = some v) ∧
    (∃ (s : State) (it : RxItem) (b : BranchBody), ∃ c e v, s.supply.takesEvents = true ∧ s.part.branchFrame .calls
      kindAnswer = some (it, b) ∧ s.part.call.conn = some c ∧ c.phase = .awaitAnswer ∧ c.peer = it.station ∧ c.tag =
      byteAt b.payload 0 ∧ s.part.call.opens = [e] ∧ e.tag = c.tag ∧ parseVerdict b.payload = some v) ∧
    (∃ (s : State) (it : RxItem) (b : BranchBody), ∃ c e v, s.supply.takesEvents = true ∧ s.part.branchFrame .calls
      kindAnswer = some (it, b) ∧ s.part.call.conn = some c ∧ c.phase = .awaitAnswer ∧ c.peer = it.station ∧ c.tag =
      byteAt b.payload 0 ∧ s.part.call.opens = [e] ∧ e.tag = c.tag ∧ parseVerdict b.payload = some v) ∧
    (∃ (s : State) (it : RxItem) (b : BranchBody), ∃ c e v, s.supply.takesEvents = true ∧ s.part.branchFrame .calls
      kindAnswer = some (it, b) ∧ s.part.call.conn = some c ∧ c.phase = .awaitAnswer ∧ c.peer = it.station ∧ c.tag =
      byteAt b.payload 0 ∧ s.part.call.opens = [e] ∧ e.tag = c.tag ∧ parseVerdict b.payload = some v) ∧
    (∃ (s : State) (it : RxItem) (b : BranchBody), ∃ c e v, s.supply.takesEvents = true ∧ s.part.branchFrame .calls
      kindAnswer = some (it, b) ∧ s.part.call.conn = some c ∧ c.phase = .awaitAnswer ∧ c.peer = it.station ∧ c.tag =
      byteAt b.payload 0 ∧ s.part.call.opens = [e] ∧ e.tag = c.tag ∧ parseVerdict b.payload = some v) :=
  ⟨⟨run (heard .calls kindAnswer (answerPayload 9 0 0) (part)), heardItem (answerPayload 9 0 0), body kindAnswer (answerPayload 9 0 0), by (repeat' apply And.intro) <;> decide +kernel⟩,
   ⟨run (heard .calls kindAnswer (answerPayload 9 0 0) (calling (call .trunk (.pull 1 64) .queued) (some (conn .caller .awaitAnswer (.pull 1 64))) part)), heardItem (answerPayload 9 0 0), body kindAnswer (answerPayload 9 0 0), conn .caller .awaitAnswer (.pull 1 64), call .trunk (.pull 1 64) .queued, .accept, by (repeat' apply And.intro) <;> decide +kernel⟩,
   ⟨run (heard .calls kindAnswer (answerPayload 9 1 4) (calling (call .trunk (.pull 1 64) .queued) (some (conn .caller .awaitAnswer (.pull 1 64))) part)), heardItem (answerPayload 9 1 4), body kindAnswer (answerPayload 9 1 4), conn .caller .awaitAnswer (.pull 1 64), call .trunk (.pull 1 64) .queued, .defer 4, by (repeat' apply And.intro) <;> decide +kernel⟩,
   ⟨run (heard .calls kindAnswer (answerPayload 9 2 0) (calling (call .trunk (.pull 1 64) .queued) (some (conn .caller .awaitAnswer (.pull 1 64))) part)), heardItem (answerPayload 9 2 0), body kindAnswer (answerPayload 9 2 0), conn .caller .awaitAnswer (.pull 1 64), call .trunk (.pull 1 64) .queued, .busy, by (repeat' apply And.intro) <;> decide +kernel⟩,
   ⟨run (heard .calls kindAnswer (answerPayload 9 3 2) (calling (call .trunk (.pull 1 64) .queued) (some (conn .caller .awaitAnswer (.pull 1 64))) part)), heardItem (answerPayload 9 3 2), body kindAnswer (answerPayload 9 3 2), conn .caller .awaitAnswer (.pull 1 64), call .trunk (.pull 1 64) .queued, .refuse (some .noSuchGen), by (repeat' apply And.intro) <;> decide +kernel⟩,
   ⟨run (heard .calls kindAnswer (answerPayload 9 3 0) (calling (call .trunk (.pull 1 64) .queued) (some (conn .caller .awaitAnswer (.pull 1 64))) part)), heardItem (answerPayload 9 3 0), body kindAnswer (answerPayload 9 3 0), conn .caller .awaitAnswer (.pull 1 64), call .trunk (.pull 1 64) .queued, .refuse none, by (repeat' apply And.intro) <;> decide +kernel⟩⟩

theorem meets_DataIsReceipted :
    (∃ (s : State) (it : RxItem) (b : BranchBody) (c : Conn) (e : OpenCall), ∃ n x, s.supply.takesEvents = true ∧
      s.part.branchFrame .calls kindData = some (it, b) ∧ s.part.call.conn = some c ∧ c.phase = .awaitData ∧ c.peer =
      it.station ∧ c.tag = byteAt b.payload 0 ∧ s.part.call.opens = [e] ∧ e.tag = c.tag ∧ s.turnOpen ∧ e.accepts
      b.payload = some (n, x) ∧ e.owner = .trunk) ∧
    (∃ (s : State) (it : RxItem) (b : BranchBody) (c : Conn) (e : OpenCall), ∃ n x, s.supply.takesEvents = true ∧
      s.part.branchFrame .calls kindData = some (it, b) ∧ s.part.call.conn = some c ∧ c.phase = .awaitData ∧ c.peer =
      it.station ∧ c.tag = byteAt b.payload 0 ∧ s.part.call.opens = [e] ∧ e.tag = c.tag ∧ s.turnOpen ∧ e.accepts
      b.payload = some (n, x) ∧ e.owner = .pricing) ∧
    (∃ (s : State) (it : RxItem) (b : BranchBody) (c : Conn) (e : OpenCall), s.supply.takesEvents = true ∧
      s.part.branchFrame .calls kindData = some (it, b) ∧ s.part.call.conn = some c ∧ c.phase = .awaitData ∧ c.peer =
      it.station ∧ c.tag = byteAt b.payload 0 ∧ s.part.call.opens = [e] ∧ e.tag = c.tag ∧ s.turnOpen ∧ e.accepts
      b.payload = none ∧ c.bad = 0) ∧
    (∃ (s : State) (r : RxFrame) (d : Deframe) (c : Conn) (e : OpenCall), ∃ start header opening body closing,
      s.supply.takesEvents = true ∧ s.part.receives .branch = true ∧ r.inTurn = true ∧ s.part.call.conn = some c ∧
      c.phase = .awaitData ∧ s.part.call.opens = [e] ∧ e.tag = c.tag ∧ s.part.reads .branch r (start ++ header ++
      opening ++ body ++ closing) d ∧ d.reached = .closed ∧ d.body ≠ [] ∧ (r.passed = false ∨ crcGood d.body = false)
      ∧ s.bufferFree ∧ (s.part.branch.tx = .idle ∨ s.part.branch.tx = .waiting)) ∧
    (∃ (s : State) (r : RxFrame) (d : Deframe) (c : Conn) (e : OpenCall), ∃ start header opening body closing,
      s.supply.takesEvents = true ∧ s.part.receives .branch = true ∧ r.inTurn = true ∧ s.part.call.conn = some c ∧
      c.phase = .awaitData ∧ s.part.call.opens = [e] ∧ e.tag = c.tag ∧ s.part.reads .branch r (start ++ header ++
      opening ++ body ++ closing) d ∧ d.reached = .closed ∧ d.body ≠ [] ∧ (r.passed = false ∨ crcGood d.body = false)
      ∧ s.bufferFree ∧ (s.part.branch.tx = .idle ∨ s.part.branch.tx = .waiting)) ∧
    (∃ (s : State) (r : RxFrame) (d : Deframe) (c : Conn) (e : OpenCall), ∃ start header opening body closing,
      s.supply.takesEvents = true ∧ s.part.receives .branch = true ∧ r.inTurn = true ∧ s.part.call.conn = some c ∧
      c.phase = .awaitData ∧ s.part.call.opens = [e] ∧ e.tag = c.tag ∧ s.part.reads .branch r (start ++ header ++
      opening ++ body ++ closing) d ∧ d.reached = .closed ∧ d.body ≠ [] ∧ (r.passed = false ∨ crcGood d.body = false)
      ∧ s.bufferFree ∧ (s.part.branch.tx = .idle ∨ s.part.branch.tx = .waiting)) ∧
    (∃ (s : State) (r : RxFrame) (d : Deframe) (c : Conn) (e : OpenCall), ∃ start header opening body closing,
      s.supply.takesEvents = true ∧ s.part.receives .branch = true ∧ r.inTurn = true ∧ s.part.call.conn = some c ∧
      c.phase = .awaitData ∧ s.part.call.opens = [e] ∧ e.tag = c.tag ∧ s.part.reads .branch r (start ++ header ++
      opening ++ body ++ closing) d ∧ d.reached = .closed ∧ d.body ≠ [] ∧ (r.passed = false ∨ crcGood d.body = false)
      ∧ s.bufferFree ∧ (s.part.branch.tx = .idle ∨ s.part.branch.tx = .waiting)) ∧
    (∃ (s : State) (r : RxFrame) (d : Deframe) (c : Conn) (e : OpenCall), ∃ bits, s.supply.takesEvents = true ∧
      s.part.receives .branch = true ∧ r.inTurn = true ∧ s.part.call.conn = some c ∧ c.phase = .awaitData ∧
      s.part.call.opens = [e] ∧ e.tag = c.tag ∧ s.part.reads .branch r bits d ∧ d.reached = .aborted ∧
      s.part.branch.turnGap = false) :=
  ⟨⟨run (heard .calls kindData (pullDataPayload 9 11 [recordBytes 4 0 0 0 false (.saleOpen 7)]) (gap (calling (call .trunk (.pull 1 64) .connected) (some (conn .caller .awaitData (.pull 1 64))) part))), heardItem (pullDataPayload 9 11 [recordBytes 4 0 0 0 false (.saleOpen 7)]), body kindData (pullDataPayload 9 11 [recordBytes 4 0 0 0 false (.saleOpen 7)]), conn .caller .awaitData (.pull 1 64), call .trunk (.pull 1 64) .connected, 1, some 5, by (repeat' apply And.intro) <;> decide +kernel⟩,
   ⟨run (heard .calls kindData (fetchDataPayload 9 0 1 [priceRecord]) (gap (calling (call .pricing (.fetch 9 0 336) .connected) (some (conn .caller .awaitData (.fetch 9 0 336))) part))), heardItem (fetchDataPayload 9 0 1 [priceRecord]), body kindData (fetchDataPayload 9 0 1 [priceRecord]), conn .caller .awaitData (.fetch 9 0 336), call .pricing (.fetch 9 0 336) .connected, 1, none, by (repeat' apply And.intro) <;> decide +kernel⟩,
   ⟨run (heard .calls kindData [9, 0] (gap (calling (call .trunk (.pull 1 64) .connected) (some (conn .caller .awaitData (.pull 1 64))) part))), heardItem [9, 0], body kindData [9, 0], conn .caller .awaitData (.pull 1 64), call .trunk (.pull 1 64) .connected, by (repeat' apply And.intro) <;> decide +kernel⟩,
   ⟨run (receiving .branch ({ rx .branch [2, 8, 0, 0, 0] none with inTurn := true }) (calling (call .trunk (.pull 1 64) .connected) (some ({ conn .caller .awaitData (.pull 1 64) with bad := 0 })) part)), { rx .branch [2, 8, 0, 0, 0] none with inTurn := true }, ⟨.closed, 0, false, [false, true, true, true, true, true, true], [2, 8, 0, 0, 0]⟩, { conn .caller .awaitData (.pull 1 64) with bad := 0 }, call .trunk (.pull 1 64) .connected, [], [], [], [], flagBits, by (repeat' apply And.intro) <;> first | decide +kernel | (intro c rest h; cases h) | exact Or.inr rfl | exact Or.inl rfl⟩,
   ⟨run (receiving .branch ({ rx .branch [2, 8, 0, 0, 0] none with inTurn := true }) (calling (call .trunk (.pull 1 64) .connected) (some ({ conn .caller .awaitData (.pull 1 64) with bad := 1 })) part)), { rx .branch [2, 8, 0, 0, 0] none with inTurn := true }, ⟨.closed, 0, false, [false, true, true, true, true, true, true], [2, 8, 0, 0, 0]⟩, { conn .caller .awaitData (.pull 1 64) with bad := 1 }, call .trunk (.pull 1 64) .connected, [], [], [], [], flagBits, by (repeat' apply And.intro) <;> first | decide +kernel | (intro c rest h; cases h) | exact Or.inr rfl | exact Or.inl rfl⟩,
   ⟨run (receiving .branch ({ rx .branch (withCrc [3, 8, 0]) none with inTurn := true, passed := false }) (calling (call .trunk (.pull 1 64) .connected) (some ({ conn .caller .awaitData (.pull 1 64) with bad := 0 })) part)), { rx .branch (withCrc [3, 8, 0]) none with inTurn := true, passed := false }, ⟨.closed, 0, false, [false, true, true, true, true, true, true], (withCrc [3, 8, 0])⟩, { conn .caller .awaitData (.pull 1 64) with bad := 0 }, call .trunk (.pull 1 64) .connected, [], [], [], [], flagBits, by (repeat' apply And.intro) <;> first | decide +kernel | (intro c rest h; cases h) | exact Or.inr rfl | exact Or.inl rfl⟩,
   ⟨run (receiving .branch ({ rx .branch (withCrc [3, 8, 0]) none with inTurn := true, passed := false }) (calling (call .trunk (.pull 1 64) .connected) (some ({ conn .caller .awaitData (.pull 1 64) with bad := 1 })) part)), { rx .branch (withCrc [3, 8, 0]) none with inTurn := true, passed := false }, ⟨.closed, 0, false, [false, true, true, true, true, true, true], (withCrc [3, 8, 0])⟩, { conn .caller .awaitData (.pull 1 64) with bad := 1 }, call .trunk (.pull 1 64) .connected, [], [], [], [], flagBits, by (repeat' apply And.intro) <;> first | decide +kernel | (intro c rest h; cases h) | exact Or.inr rfl | exact Or.inl rfl⟩,
   ⟨run (receiving .branch ({ rx .branch [2, 8, 0] none with inTurn := true }) (calling (call .trunk (.pull 1 64) .connected) (some ({ conn .caller .awaitData (.pull 1 64) with bad := 0 })) part)), { rx .branch [2, 8, 0] none with inTurn := true }, ⟨.aborted, 7, true, List.replicate 6 true, [2, 8, 0]⟩, { conn .caller .awaitData (.pull 1 64) with bad := 0 }, call .trunk (.pull 1 64) .connected, List.replicate 7 true, by (repeat' apply And.intro) <;> first | decide +kernel | (intro c rest h; cases h) | exact Or.inr rfl⟩⟩

theorem meets_ReceiptMovesTheService :
    (∃ (s : State) (it : RxItem) (b : BranchBody) (c : Conn) (good enough : Bool), s.supply.takesEvents = true ∧
      s.part.branchFrame .calls kindReceipt = some (it, b) ∧ s.part.call.conn = some c ∧ c.peer = it.station ∧ c.tag
      = byteAt b.payload 0 ∧ parseReceipt b.payload = some (good, enough) ∧ s.turnOpen ∧ c.phase = .awaitReceipt ∧
      good = true ∧ (c.enough = true ∨ enough = true ∨ c.request.maximum ≤ c.sent + c.count) ∧ c.request.maximum =
      c.sent + c.count) ∧
    (∃ (s : State) (it : RxItem) (b : BranchBody) (c : Conn) (good enough : Bool), s.supply.takesEvents = true ∧
      s.part.branchFrame .calls kindReceipt = some (it, b) ∧ s.part.call.conn = some c ∧ c.peer = it.station ∧ c.tag
      = byteAt b.payload 0 ∧ parseReceipt b.payload = some (good, enough) ∧ s.turnOpen ∧ c.phase = .awaitReceipt ∧
      good = true ∧ (c.enough = true ∨ enough = true ∨ c.request.maximum ≤ c.sent + c.count) ∧ enough = true) ∧
    (∃ (s : State) (it : RxItem) (b : BranchBody) (c : Conn) (good enough : Bool), s.supply.takesEvents = true ∧
      s.part.branchFrame .calls kindReceipt = some (it, b) ∧ s.part.call.conn = some c ∧ c.peer = it.station ∧ c.tag
      = byteAt b.payload 0 ∧ parseReceipt b.payload = some (good, enough) ∧ s.turnOpen ∧ c.phase = .awaitReceipt ∧
      good = true ∧ c.enough = false ∧ enough = false ∧ c.sent + c.count < c.request.maximum) ∧
    (∃ (s : State) (it : RxItem) (b : BranchBody) (c : Conn) (good enough : Bool), s.supply.takesEvents = true ∧
      s.part.branchFrame .calls kindReceipt = some (it, b) ∧ s.part.call.conn = some c ∧ c.peer = it.station ∧ c.tag
      = byteAt b.payload 0 ∧ parseReceipt b.payload = some (good, enough) ∧ s.turnOpen ∧ c.phase = .awaitReceipt ∧
      good = false ∧ c.times ≤ 1) ∧
    (∃ (s : State) (it : RxItem) (b : BranchBody) (c : Conn) (good enough : Bool), s.supply.takesEvents = true ∧
      s.part.branchFrame .calls kindReceipt = some (it, b) ∧ s.part.call.conn = some c ∧ c.peer = it.station ∧ c.tag
      = byteAt b.payload 0 ∧ parseReceipt b.payload = some (good, enough) ∧ s.turnOpen ∧ c.phase = .awaitReceipt ∧
      good = false ∧ 2 ≤ c.times) ∧
    (∃ (s : State) (it : RxItem) (b : BranchBody) (c : Conn) (good enough : Bool), s.supply.takesEvents = true ∧
      s.part.branchFrame .calls kindReceipt = some (it, b) ∧ s.part.call.conn = some c ∧ c.peer = it.station ∧ c.tag
      = byteAt b.payload 0 ∧ parseReceipt b.payload = some (good, enough) ∧ s.turnOpen ∧ c.phase = .awaitSilence ∧
      good = false ∧ c.times ≤ 1) ∧
    (∃ (s : State) (it : RxItem) (b : BranchBody) (c : Conn) (good enough : Bool), s.supply.takesEvents = true ∧
      s.part.branchFrame .calls kindReceipt = some (it, b) ∧ s.part.call.conn = some c ∧ c.peer = it.station ∧ c.tag
      = byteAt b.payload 0 ∧ parseReceipt b.payload = some (good, enough) ∧ s.turnOpen ∧ c.phase = .awaitSilence ∧
      (good = true ∨ 2 ≤ c.times) ∧ good = true) ∧
    (∃ (s : State) (it : RxItem) (b : BranchBody) (c : Conn) (good enough : Bool), s.supply.takesEvents = true ∧
      s.part.branchFrame .calls kindReceipt = some (it, b) ∧ s.part.call.conn = some c ∧ c.peer = it.station ∧ c.tag
      = byteAt b.payload 0 ∧ parseReceipt b.payload = some (good, enough) ∧ s.turnOpen ∧ c.phase = .awaitSilence ∧
      (good = true ∨ 2 ≤ c.times) ∧ 2 ≤ c.times) :=
  ⟨⟨run (heard .calls kindReceipt (receiptPayload 9 true false) (gap (serving (conn .callee .awaitReceipt (.pull 1 1)) part))), heardItem (receiptPayload 9 true false), body kindReceipt (receiptPayload 9 true false), conn .callee .awaitReceipt (.pull 1 1), true, false, by (repeat' apply And.intro) <;> decide +kernel⟩,
   ⟨run (heard .calls kindReceipt (receiptPayload 9 true true) (gap (serving (conn .callee .awaitReceipt (.pull 1 64)) part))), heardItem (receiptPayload 9 true true), body kindReceipt (receiptPayload 9 true true), conn .callee .awaitReceipt (.pull 1 64), true, true, by (repeat' apply And.intro) <;> decide +kernel⟩,
   ⟨run (heard .calls kindReceipt (receiptPayload 9 true false) (gap (serving (conn .callee .awaitReceipt (.pull 1 64)) part))), heardItem (receiptPayload 9 true false), body kindReceipt (receiptPayload 9 true false), conn .callee .awaitReceipt (.pull 1 64), true, false, by (repeat' apply And.intro) <;> decide +kernel⟩,
   ⟨run (heard .calls kindReceipt (receiptPayload 9 false false) (gap (serving (conn .callee .awaitReceipt (.pull 1 1)) part))), heardItem (receiptPayload 9 false false), body kindReceipt (receiptPayload 9 false false), conn .callee .awaitReceipt (.pull 1 1), false, false, by (repeat' apply And.intro) <;> decide +kernel⟩,
   ⟨run (heard .calls kindReceipt (receiptPayload 9 false false) (gap (serving ({ conn .callee .awaitReceipt (.pull 1 1) with times := 2 }) part))), heardItem (receiptPayload 9 false false), body kindReceipt (receiptPayload 9 false false), { conn .callee .awaitReceipt (.pull 1 1) with times := 2 }, false, false, by (repeat' apply And.intro) <;> decide +kernel⟩,
   ⟨run (heard .calls kindReceipt (receiptPayload 9 false false) (gap (serving (conn .callee .awaitSilence (.pull 1 64)) part))), heardItem (receiptPayload 9 false false), body kindReceipt (receiptPayload 9 false false), conn .callee .awaitSilence (.pull 1 64), false, false, by (repeat' apply And.intro) <;> decide +kernel⟩,
   ⟨run (heard .calls kindReceipt (receiptPayload 9 true false) (gap (serving (conn .callee .awaitSilence (.pull 1 64)) part))), heardItem (receiptPayload 9 true false), body kindReceipt (receiptPayload 9 true false), conn .callee .awaitSilence (.pull 1 64), true, false, by (repeat' apply And.intro) <;> decide +kernel⟩,
   ⟨run (heard .calls kindReceipt (receiptPayload 9 false true) (gap (serving ({ conn .callee .awaitSilence (.pull 1 64) with times := 2 }) part))), heardItem (receiptPayload 9 false true), body kindReceipt (receiptPayload 9 false true), { conn .callee .awaitSilence (.pull 1 64) with times := 2 }, false, true, by (repeat' apply And.intro) <;> decide +kernel⟩⟩

theorem meets_EndEndsTheCall :
    (∃ (s : State) (it : RxItem) (b : BranchBody) (c : Conn) (e : OpenCall), s.supply.takesEvents = true ∧
      s.part.branchFrame .calls kindEnd = some (it, b) ∧ s.part.call.conn = some c ∧ c.phase = .awaitData ∧ c.peer =
      it.station ∧ c.tag = byteAt b.payload 0 ∧ b.payload.length = c.request.endLength ∧ s.part.call.opens = [e] ∧
      e.tag = c.tag ∧ fieldAt b.payload 1 2 = e.received ∧ e.enough = true) ∧
    (∃ (s : State) (it : RxItem) (b : BranchBody) (c : Conn) (e : OpenCall), s.supply.takesEvents = true ∧
      s.part.branchFrame .calls kindEnd = some (it, b) ∧ s.part.call.conn = some c ∧ c.phase = .awaitData ∧ c.peer =
      it.station ∧ c.tag = byteAt b.payload 0 ∧ b.payload.length = c.request.endLength ∧ s.part.call.opens = [e] ∧
      e.tag = c.tag ∧ fieldAt b.payload 1 2 = e.received ∧ e.enough = false) ∧
    (∃ (s : State) (it : RxItem) (b : BranchBody) (c : Conn) (e : OpenCall), s.supply.takesEvents = true ∧
      s.part.branchFrame .calls kindEnd = some (it, b) ∧ s.part.call.conn = some c ∧ c.phase = .awaitData ∧ c.peer =
      it.station ∧ c.tag = byteAt b.payload 0 ∧ b.payload.length = c.request.endLength ∧ s.part.call.opens = [e] ∧
      e.tag = c.tag ∧ fieldAt b.payload 1 2 ≠ e.received) :=
  ⟨⟨run (heard .calls kindEnd (endPayload 9 3 (.pull 1 64) 11) (calling ({ call .trunk (.pull 1 64) .connected with received := 3, enough := true }) (some (conn .caller .awaitData (.pull 1 64))) part)), heardItem (endPayload 9 3 (.pull 1 64) 11), body kindEnd (endPayload 9 3 (.pull 1 64) 11), conn .caller .awaitData (.pull 1 64), { call .trunk (.pull 1 64) .connected with received := 3, enough := true }, by (repeat' apply And.intro) <;> decide +kernel⟩,
   ⟨run (heard .calls kindEnd (endPayload 9 3 (.pull 1 64) 11) (calling ({ call .trunk (.pull 1 64) .connected with received := 3, enough := false }) (some (conn .caller .awaitData (.pull 1 64))) part)), heardItem (endPayload 9 3 (.pull 1 64) 11), body kindEnd (endPayload 9 3 (.pull 1 64) 11), conn .caller .awaitData (.pull 1 64), { call .trunk (.pull 1 64) .connected with received := 3, enough := false }, by (repeat' apply And.intro) <;> decide +kernel⟩,
   ⟨run (heard .calls kindEnd (endPayload 9 2 (.pull 1 64) 11) (calling ({ call .trunk (.pull 1 64) .connected with received := 3, enough := false }) (some (conn .caller .awaitData (.pull 1 64))) part)), heardItem (endPayload 9 2 (.pull 1 64) 11), body kindEnd (endPayload 9 2 (.pull 1 64) 11), conn .caller .awaitData (.pull 1 64), { call .trunk (.pull 1 64) .connected with received := 3, enough := false }, by (repeat' apply And.intro) <;> decide +kernel⟩⟩

theorem meets_RecallFindsItsCall :
    (∃ (s : State) (it : RxItem) (b : BranchBody), ∃ e, s.supply.takesEvents = true ∧ s.part.branchFrame .calls
      kindRecall = some (it, b) ∧ s.part.call.conn = none ∧ s.turnOpen ∧ s.part.call.opens = [e] ∧ e.peer =
      it.station ∧ e.tag = byteAt b.payload 0 ∧ e.state = .waitingRecall ∧ e.recallTag = byteAt b.payload 1) ∧
    (∃ (s : State) (it : RxItem) (b : BranchBody), s.supply.takesEvents = true ∧ s.part.branchFrame .calls kindRecall
      = some (it, b) ∧ s.part.call.conn = none ∧ s.turnOpen ∧ (∀ e ∈ s.part.call.opens, ¬ (e.peer = it.station ∧
      e.tag = byteAt b.payload 0 ∧ e.state = .waitingRecall ∧ e.recallTag = byteAt b.payload 1))) ∧
    (∃ (s : State) (it : RxItem) (b : BranchBody) (c : Conn), s.supply.takesEvents = true ∧ s.part.branchFrame .calls
      kindAnswer = some (it, b) ∧ s.part.call.conn = some c ∧ c.phase = .awaitRecallAnswer ∧ c.peer = it.station ∧
      c.tag = byteAt b.payload 0 ∧ parseVerdict b.payload ≠ some .accept) ∧
    (∃ (s : State) (it : RxItem) (b : BranchBody) (c : Conn), s.supply.takesEvents = true ∧ s.part.branchFrame .calls
      kindAnswer = some (it, b) ∧ s.part.call.conn = some c ∧ c.phase = .awaitRecallAnswer ∧ c.peer = it.station ∧
      c.tag = byteAt b.payload 0 ∧ ∃ g first count, parseVerdict b.payload = some .accept ∧ c.request = .fetch g
      first count ∧ s.part.holds g = true ∧ 1 ≤ count ∧ first < Config.bankSlots ∧ s.turnOpen) :=
  ⟨⟨run (heard .calls kindRecall (recallPayload 9 4 (.fetch 9 0 1)) (gap (calling (call .pricing (.fetch 9 0 336) .waitingRecall) none part))), heardItem (recallPayload 9 4 (.fetch 9 0 1)), body kindRecall (recallPayload 9 4 (.fetch 9 0 1)), call .pricing (.fetch 9 0 336) .waitingRecall, by (repeat' apply And.intro) <;> decide +kernel⟩,
   ⟨run (heard .calls kindRecall (recallPayload 9 4 (.fetch 9 0 1)) (gap part)), heardItem (recallPayload 9 4 (.fetch 9 0 1)), body kindRecall (recallPayload 9 4 (.fetch 9 0 1)), by (repeat' apply And.intro) <;> decide +kernel⟩,
   ⟨run (heard .calls kindAnswer (answerPayload 9 2 0) (serving (conn .callee .awaitRecallAnswer (.fetch 7 0 336)) part)), heardItem (answerPayload 9 2 0), body kindAnswer (answerPayload 9 2 0), conn .callee .awaitRecallAnswer (.fetch 7 0 336), by (repeat' apply And.intro) <;> decide +kernel⟩,
   ⟨run (heard .calls kindAnswer (answerPayload 9 0 0) (gap (serving (conn .callee .awaitRecallAnswer (.fetch 7 0 336)) (selling milk part)))), heardItem (answerPayload 9 0 0), body kindAnswer (answerPayload 9 0 0), conn .callee .awaitRecallAnswer (.fetch 7 0 336), by (repeat' apply And.intro) <;> first | decide +kernel | exact ⟨7, 0, 336, by decide +kernel, rfl, by decide +kernel, by decide, by decide, by decide +kernel, Or.inl rfl, by decide +kernel, by decide +kernel⟩⟩⟩

theorem meets_CallTimersRunOut :
    (∃ (s : State) (e : OpenCall), s.supply.takesEvents = true ∧ s.part.call.opens = [e] ∧ e.state = .waitingRecall ∧
      e.recallTimer = true) ∧
    (∃ (s : State) (d : Deferred), ∃ g first count, s.supply.takesEvents = true ∧ s.part.call.deferred = [d] ∧
      d.state = .waiting ∧ d.lifetime = true ∧ d.request = .fetch g first count ∧ s.part.holds g = true ∧ 8 <
      s.part.fwd.free.length) ∧
    (∃ (s : State) (d : Deferred), ∃ g first count, s.supply.takesEvents = true ∧ s.part.call.deferred = [d] ∧
      d.state = .waiting ∧ d.lifetime = true ∧ d.request = .fetch g first count ∧ s.part.holds g = true ∧
      s.part.fwd.free = []) :=
  ⟨⟨run (calling (call .pricing (.fetch 9 0 336) .waitingRecall) none part), call .pricing (.fetch 9 0 336) .waitingRecall, by (repeat' apply And.intro) <;> decide +kernel⟩,
   ⟨run ({ selling milk part with call := { deferred := [⟨5, 9, 4, .fetch 7 0 1, .waiting, true, false⟩] } }), ⟨5, 9, 4, .fetch 7 0 1, .waiting, true, false⟩, 7, 0, 1, by (repeat' apply And.intro) <;> decide +kernel⟩,
   ⟨run ({ selling milk part with call := { deferred := [⟨5, 9, 4, .fetch 7 0 1, .waiting, true, false⟩] }, fwd := { part.fwd with free := [] } }), ⟨5, 9, 4, .fetch 7 0 1, .waiting, true, false⟩, 7, 0, 1, by (repeat' apply And.intro) <;> decide +kernel⟩⟩

set_option maxRecDepth 20000 in
theorem meets_ConfigurationDecides :
    (∃ (s : State) (block : Bytes), ∃ c, s.supply.takesEvents = true ∧ s.part.pres.joining = .config ∧ parseConfig
      block = some c) ∧
    (∃ (s : State) (block : Bytes), s.supply.takesEvents = true ∧ s.part.pres.joining = .config ∧ parseConfig block =
      none) :=
  ⟨⟨run ({ pres := { joining := .config } }), block, conf, by (repeat' apply And.intro) <;> decide +kernel⟩,
   ⟨run ({ pres := { joining := .config } }), [], by (repeat' apply And.intro) <;> decide +kernel⟩⟩

theorem meets_SelfTestEndsInMemory :
    (∃ s : State, ∃ (front frame : List Bool), s.supply.takesEvents = true ∧ s.part.pres.joining = .selfTest ∧
      s.part.branch.loop = true) ∧
    (∃ s : State, ∃ (front frame : List Bool), s.supply.takesEvents = true ∧ s.part.pres.joining = .selfTest ∧
      s.part.branch.loop = true) ∧
    (∃ s : State, ∃ (c : Cls) (n : StationNo), s.supply.takesEvents = true ∧ s.part.pres.joining = .selfTest ∧
      s.part.branch.loop = true) :=
  ⟨⟨run ({ part with pres := { joining := .selfTest }, branch := { loop := true } }), [], [], by (repeat' apply And.intro) <;> decide +kernel⟩,
   ⟨run ({ part with pres := { joining := .selfTest }, branch := { loop := true } }), (false :: headerBits .control 2), (frameBits (run part).part.testFrame), by (repeat' apply And.intro) <;> decide +kernel⟩,
   ⟨run ({ part with pres := { joining := .selfTest }, branch := { loop := true } }), .control, 2, by (repeat' apply And.intro) <;> decide +kernel⟩⟩

theorem meets_HeaderDecidesTheStart :
    (∃ (s : State) (bs : Bytes), s.supply.takesEvents = true ∧ s.part.pres.joining = .memory ∧ s.part.hdr.readData =
      some bs ∧ s.part.hdr.inFlight = none ∧ parseHeader bs = none) ∧
    (∃ (s : State) (bs : Bytes), ∃ h, s.supply.takesEvents = true ∧ s.part.pres.joining = .memory ∧
      s.part.hdr.readData = some bs ∧ s.part.hdr.inFlight = none ∧ parseHeader bs = some h ∧ h.stagingState = .empty) :=
  ⟨⟨run ({ part with pres := { joining := .memory }, hdr := { readData := some [] } }), [], by (repeat' apply And.intro) <;> decide +kernel⟩,
   ⟨run ({ part with pres := { joining := .memory }, hdr := { readData := some (HeaderCopy.bytes {}) } }), HeaderCopy.bytes {}, {}, by (repeat' apply And.intro) <;> decide +kernel⟩⟩

theorem meets_ScanStopsAndCompletes :
    (∃ (s : State) (sc : Scan), s.supply.takesEvents = true ∧ s.part.jrn.scan = some sc ∧ sc.stage = .failed ∧
      sc.aside = [] ∧ sc.marks = []) ∧
    (∃ (s : State) (sc : Scan), ∃ m, s.supply.takesEvents = true ∧ s.part.jrn.scan = some sc ∧ sc.stage = .failed ∧
      sc.aside = [] ∧ sc.marks = [m] ∧ m.port < 8 ∧ sc.e + 1 ≤ Config.sequenceMax ∧ sc.e - 1 - s.part.jrn.release <
      Config.ringSlots) ∧
    (∃ (s : State) (sc : Scan), s.supply.takesEvents = true ∧ s.part.jrn.scan = some sc ∧ sc.stage = .abandoning ∧ (∀
      a ∈ s.part.jrn.appends, a.requester ≠ .scan) ∧ s.part.jrn.waiting = [] ∧ s.part.pres.joining = .journalScan ∧
      s.part.lab.warm = .due) :=
  ⟨⟨run ({ part with pres := { joining := .journalScan }, lab := { warm := .due }, jrn := { scan := some ⟨.failed, 1, [], [], 0⟩ } }), ⟨.failed, 1, [], [], 0⟩, by (repeat' apply And.intro) <;> decide +kernel⟩,
   ⟨run ({ part with pres := { joining := .journalScan }, lab := { warm := .due }, jrn := { scan := some ⟨.failed, 16384, [⟨7, 1, 10, 0, false⟩], [], 0⟩ } }), ⟨.failed, 16384, [⟨7, 1, 10, 0, false⟩], [], 0⟩, ⟨7, 1, 10, 0, false⟩, by (repeat' apply And.intro) <;> decide +kernel⟩,
   ⟨run ({ part with pres := { joining := .journalScan }, lab := { warm := .due }, jrn := { scan := some ⟨.abandoning, 1, [], [], 0⟩ } }), ⟨.abandoning, 1, [], [], 0⟩, by (repeat' apply And.intro) <;> decide +kernel⟩⟩

theorem meets_PresenceIsSent :
    (∃ s : State, s.supply.takesEvents = true ∧ s.part.pres.joining = .listen ∧ s.part.pres.listenTimer = true ∧
      s.part.branch.tx = .disabled ∧ s.bufferFree ∧ s.part.lab.headUp = false) ∧
    (∃ s : State, s.supply.takesEvents = true ∧ s.part.pres.presenceTimer = true ∧ s.part.pres.joining.sendsPresence
      = true ∧ s.part.trk.line ≠ .up ∧ (∀ q ∈ s.part.fwd.control, ∀ b, q.owner ≠ .presence b) ∧ s.bufferFree) ∧
    (∃ s : State, s.supply.takesEvents = true ∧ s.part.pres.presenceTimer = true ∧ s.part.pres.joining.sendsPresence
      = true ∧ s.part.trk.line ≠ .up ∧ (∀ q ∈ s.part.fwd.control, ∀ b, q.owner ≠ .presence b) ∧ s.part.fwd.free = []) ∧
    (∃ s : State, ∃ before q behind b, s.supply.takesEvents = true ∧ s.part.pres.presenceTimer = true ∧
      s.part.pres.joining.sendsPresence = true ∧ s.part.trk.line ≠ .up ∧ s.part.fwd.control = before ++ q :: behind ∧
      q.owner = .presence b ∧ (∀ x ∈ before ++ behind, ∀ b, x.owner ≠ .presence b) ∧ (before = [] →
      s.part.branch.tx.inHand ≠ some .control) ∧ s.bufferFree ∧ before ≠ []) ∧
    (∃ s : State, ∃ before q behind b, s.supply.takesEvents = true ∧ s.part.pres.presenceTimer = true ∧
      s.part.pres.joining.sendsPresence = true ∧ s.part.trk.line ≠ .up ∧ s.part.fwd.control = before ++ q :: behind ∧
      q.owner = .presence b ∧ (∀ x ∈ before ++ behind, ∀ b, x.owner ≠ .presence b) ∧ (before = [] →
      s.part.branch.tx.inHand ≠ some .control) ∧ s.bufferFree ∧ before = []) ∧
    (∃ s : State, ∃ q rest b, s.supply.takesEvents = true ∧ s.part.pres.presenceTimer = true ∧
      s.part.pres.joining.sendsPresence = true ∧ s.part.trk.line ≠ .up ∧ s.part.fwd.control = q :: rest ∧ q.owner =
      .presence b ∧ s.part.branch.tx.inHand = some .control) :=
  ⟨⟨run ({ part with pres := { joining := .listen, listenTimer := true }, branch := {} }), by (repeat' apply And.intro) <;> decide +kernel⟩,
   ⟨run ({ part with pres := { joining := .announcing, presenceTimer := true } }), by (repeat' apply And.intro) <;> first | decide +kernel | (intro q hq; cases hq)⟩,
   ⟨run ({ part with pres := { joining := .ready, presenceTimer := true }, fwd := { free := [] } }), by (repeat' apply And.intro) <;> first | decide +kernel | (intro q hq; cases hq)⟩,
   ⟨run ({ part with branch := { part.branch with tx := .contending .control }, fwd := part.fwd.setQueue .control [frame (.claim 9) 0, frame (.presence true) 0], pres := { joining := .sync, presenceTimer := true } }), [frame (.claim 9) 0], frame (.presence true) 0, [], true, by (repeat' apply And.intro) <;> first | decide +kernel | (intro x hx b e; simp only [List.nil_append, List.append_nil, List.mem_singleton] at hx; subst hx; cases e)⟩,
   ⟨run ({ part with branch := { part.branch with tx := .waiting }, fwd := part.fwd.setQueue .control [frame (.presence false) 0, frame (.claim 9) 0], pres := { joining := .sync, presenceTimer := true } }), [], frame (.presence false) 0, [frame (.claim 9) 0], false, by (repeat' apply And.intro) <;> first | decide +kernel | (intro x hx b e; simp only [List.nil_append, List.append_nil, List.mem_singleton] at hx; subst hx; cases e)⟩,
   ⟨run ({ inHand .control (frame (.presence false) 0) (.contending .control) with pres := { joining := .sync, presenceTimer := true } }), frame (.presence false) 0, [], false, by (repeat' apply And.intro) <;> decide +kernel⟩⟩

/-- The first PRESENCE of an ANNOUNCING part, in sending after `i` collisions. -/
def announcing (i : Nat) (p : Part) : Part :=
  { p with
    branch := { p.branch with tx := .sending .control }, fwd := p.fwd.setQueue .control [frame (.presence true) i]
    pres := { p.pres with joining := .announcing } }

/-- A presence of station 5 that shows generation `g` has reached a part in joining state `j`. -/
def greeted (j : Joining) (target : Option Nat) (g : Nat) (p : Part) : Part :=
  clock 0 0 0 { p with pres := { p.pres with joining := j, syncTarget := target, inbox := [kept 5 (shown g .claiming)] } }

/-- The header write of a switch to generation 9 is done, in a SYNC whose peer shows `g`. -/
def switched (g : Nat) : Part :=
  peers (shown g .none)
    { part with
      price := { staging := stage .activating (some 2), switching := some 1 }
      hdr := { inFlight := some ({}, [.pricing]), finished := true }
      pres := { joining := .sync, syncTarget := some g, coldStarted := true } }

/-- Only station 5 has shown a presence. -/
theorem only_peer (s : State) (n : StationNo) (h : ∀ m, m ≠ n → s.part.shown m = none) (P : PresenceData → Prop) :
    ∀ m x, m ≠ n → s.part.shown m = some x → P x := by
  intro m x hm hx
  rw [h m hm] at hx
  cases hx

theorem meets_PresenceIsSent_announced :
    (∃ s : State, ∃ i c q rest, s.supply.takesEvents = true ∧ s.part.lab.headUp = false ∧ s.part.trk.line ≠ .up ∧
      s.part.branch.tx = .sending c ∧ s.part.fwd.queue c = q :: rest ∧ q.owner = .presence true ∧
      s.part.pres.joining = .announcing ∧ (i = Instr.frameSent ∨ (i = .collision ∧ q.collisions = 3 ∧ q.withdrawn = false)) ∧
      s.part.pres.coldStarted = false ∧ s.part.branchGeneration.getD 0 ≤ s.part.price.activeGen ∧ i = .frameSent) ∧
    (∃ s : State, ∃ i c q rest, s.supply.takesEvents = true ∧ s.part.lab.headUp = false ∧ s.part.trk.line ≠ .up ∧
      s.part.branch.tx = .sending c ∧ s.part.fwd.queue c = q :: rest ∧ q.owner = .presence true ∧
      s.part.pres.joining = .announcing ∧ (i = Instr.frameSent ∨ (i = .collision ∧ q.collisions = 3 ∧ q.withdrawn = false)) ∧
      s.part.pres.coldStarted = false ∧ s.part.branchGeneration.getD 0 = s.part.price.activeGen ∧ i = .collision) ∧
    (∃ s : State, ∃ i c q rest g, s.supply.takesEvents = true ∧ s.part.lab.headUp = false ∧ s.part.trk.line ≠ .up ∧
      s.part.branch.tx = .sending c ∧ s.part.fwd.queue c = q :: rest ∧ q.owner = .presence true ∧
      s.part.pres.joining = .announcing ∧ (i = Instr.frameSent ∨ (i = .collision ∧ q.collisions = 3 ∧ q.withdrawn = false)) ∧
      g = s.part.branchGeneration.getD 0 ∧ (s.part.pres.coldStarted = true ∨ s.part.price.activeGen < g) ∧
      s.part.price.switching = none ∧ g ≤ s.part.price.activeGen ∧ g = 0) ∧
    (∃ s : State, ∃ i c q rest g, s.supply.takesEvents = true ∧ s.part.lab.headUp = false ∧ s.part.trk.line ≠ .up ∧
      s.part.branch.tx = .sending c ∧ s.part.fwd.queue c = q :: rest ∧ q.owner = .presence true ∧
      s.part.pres.joining = .announcing ∧ (i = Instr.frameSent ∨ (i = .collision ∧ q.collisions = 3 ∧ q.withdrawn = false)) ∧
      g = s.part.branchGeneration.getD 0 ∧ (s.part.pres.coldStarted = true ∨ s.part.price.activeGen < g) ∧
      s.part.price.switching = none ∧ s.part.price.staging.state ≠ .empty ∧ g ≤ s.part.price.staging.generation) ∧
    (∃ s : State, ∃ i c q rest g, s.supply.takesEvents = true ∧ s.part.lab.headUp = false ∧ s.part.trk.line ≠ .up ∧
      s.part.branch.tx = .sending c ∧ s.part.fwd.queue c = q :: rest ∧ q.owner = .presence true ∧
      s.part.pres.joining = .announcing ∧ (i = Instr.frameSent ∨ (i = .collision ∧ q.collisions = 3 ∧ q.withdrawn = false)) ∧
      g = s.part.branchGeneration.getD 0 ∧ (s.part.pres.coldStarted = true ∨ s.part.price.activeGen < g) ∧
      s.part.price.switching = none ∧ s.part.price.activeGen < g ∧ s.part.price.staging = {} ∧ s.bufferFree) :=
  ⟨⟨run (announcing 0 part), .frameSent, .control, frame (.presence true) 0, [], by (repeat' apply And.intro) <;> decide +kernel⟩,
   ⟨run (announcing 3 (selling milk (peers (shown 7 .none) part))), .collision, .control, frame (.presence true) 3, [], by (repeat' apply And.intro) <;> decide +kernel⟩,
   ⟨run (announcing 0 { part with pres := { coldStarted := true } }), .frameSent, .control, frame (.presence true) 0, [], 0, by (repeat' apply And.intro) <;> decide +kernel⟩,
   ⟨run (announcing 3 (staged (stage .receiving (some 2)) (peers (shown 9 .none) part))), .collision, .control, frame (.presence true) 3, [], 9, by (repeat' apply And.intro) <;> decide +kernel⟩,
   ⟨run (announcing 0 (peers (shown 9 .none) part)), .frameSent, .control, frame (.presence true) 0, [], 9, by (repeat' apply And.intro) <;> decide +kernel⟩⟩

theorem meets_PresenceIsSent_synced :
    (∃ s : State, ∃ k rest d cfg n, s.supply.takesEvents = true ∧ s.part.lab.headUp = false ∧ s.part.trk.line ≠ .up ∧
      s.part.pres.inbox = k :: rest ∧ k.read = some d ∧ n = k.station ∧ s.part.cfg = some cfg ∧ n ≠ cfg.station ∧
      s.part.pres.clock.valid = true ∧ (d.night = .claiming ∨ d.night = .standby) ∧ s.part.trk.table = [] ∧
      s.part.price.activeGen < d.activeGen ∧ s.part.price.staging.fetches = [] ∧
      (∀ m x, m ≠ n → s.part.shown m = some x → x.activeGen ≤ d.activeGen) ∧ s.part.pres.joining = .ready ∧
      s.part.price.staging.state = .empty ∧ s.part.price.switching = none ∧ s.bufferFree) ∧
    (∃ s : State, ∃ k rest d cfg n, s.supply.takesEvents = true ∧ s.part.lab.headUp = false ∧ s.part.trk.line ≠ .up ∧
      s.part.pres.inbox = k :: rest ∧ k.read = some d ∧ n = k.station ∧ s.part.cfg = some cfg ∧ n ≠ cfg.station ∧
      s.part.pres.clock.valid = true ∧ (d.night = .claiming ∨ d.night = .standby) ∧ s.part.trk.table = [] ∧
      s.part.price.activeGen < d.activeGen ∧ s.part.price.staging.fetches = [] ∧
      (∀ m x, m ≠ n → s.part.shown m = some x → x.activeGen ≤ d.activeGen) ∧ s.part.pres.joining = .sync ∧
      s.part.pres.syncTarget.getD 0 < d.activeGen ∧ s.part.price.staging.state = .receiving ∧
      s.part.price.staging.generation < d.activeGen ∧ s.part.call.deferred = [] ∧ s.part.price.switching = none ∧
      s.bufferFree) ∧
    (∃ s : State, ∃ k rest d cfg n, s.supply.takesEvents = true ∧ s.part.lab.headUp = false ∧ s.part.trk.line ≠ .up ∧
      s.part.pres.inbox = k :: rest ∧ k.read = some d ∧ n = k.station ∧ s.part.cfg = some cfg ∧ n ≠ cfg.station ∧
      s.part.pres.clock.valid = true ∧ (d.night = .claiming ∨ d.night = .standby) ∧ s.part.trk.table = [] ∧
      s.part.price.activeGen < d.activeGen ∧ s.part.price.staging.fetches = [] ∧
      (∀ m x, m ≠ n → s.part.shown m = some x → x.activeGen ≤ d.activeGen) ∧ s.part.pres.joining = .ready ∧
      (s.part.price.staging.state = .receiving ∨ s.part.price.staging.state = .complete) ∧
      d.activeGen = s.part.price.staging.generation) ∧
    (∃ s : State, ∃ n cfg, s.supply.takesEvents = true ∧ s.part.lab.headUp = false ∧ s.part.trk.line ≠ .up ∧
      s.part.pres.joining = .sync ∧ s.part.cfg = some cfg ∧ (s.part.peer n).state = .present ∧
      (s.part.peer n).silence = true ∧ s.part.trk.holder = none ∧ s.part.price.staging.state = .empty ∧
      (s.part.pres.coldStarted = false ∨ s.part.pres.switched = true) ∧
      (∀ m x, m ≠ n → s.part.shown m = some x → x.activeGen ≤ s.part.price.activeGen)) ∧
    (∃ s : State, ∃ h holds g n, s.supply.takesEvents = true ∧ s.part.lab.headUp = false ∧ s.part.trk.line ≠ .up ∧
      s.part.pres.joining = .sync ∧ s.part.hdr.inFlight = some (h, [.pricing]) ∧ s.part.hdr.finished = true ∧
      s.part.hdr.waiting = [] ∧ s.part.price.switching = some holds ∧ g = s.part.price.staging.generation ∧
      s.part.price.staging.n = some n ∧ s.part.price.events = [] ∧ s.part.price.syncWaits = none ∧
      s.part.jrn.scan = none ∧ s.part.jrn.accepts [.priceActivated g s.part.price.activeGen n holds] = true ∧
      s.part.lab.warm = .none ∧ (∀ i, i < 4096 → s.part.labelAt i = none) ∧ s.part.branchGeneration.getD 0 = g) ∧
    (∃ s : State, ∃ h holds g n, s.supply.takesEvents = true ∧ s.part.lab.headUp = false ∧ s.part.trk.line ≠ .up ∧
      s.part.pres.joining = .sync ∧ s.part.hdr.inFlight = some (h, [.pricing]) ∧ s.part.hdr.finished = true ∧
      s.part.hdr.waiting = [] ∧ s.part.price.switching = some holds ∧ g = s.part.price.staging.generation ∧
      s.part.price.staging.n = some n ∧ s.part.price.events = [] ∧ s.part.price.syncWaits = none ∧
      s.part.jrn.scan = none ∧ s.part.jrn.accepts [.priceActivated g s.part.price.activeGen n holds] = true ∧
      s.part.lab.warm = .none ∧ (∀ i, i < 4096 → s.part.labelAt i = none) ∧ g < s.part.branchGeneration.getD 0 ∧
      s.part.pres.syncTarget = s.part.branchGeneration) :=
  ⟨⟨run (greeted .ready none 9 part), kept 5 (shown 9 .claiming), [], shown 9 .claiming, conf, 5, by (repeat' apply And.intro) <;> first | decide +kernel | exact only_peer _ _ (by decide +kernel) _⟩,
   ⟨run (greeted .sync (some 8) 9 (staged { stage .receiving (some 3) with generation := 8 } part)), kept 5 (shown 9 .claiming), [], shown 9 .claiming, conf, 5, by (repeat' apply And.intro) <;> first | decide +kernel | exact only_peer _ _ (by decide +kernel) _⟩,
   ⟨run (greeted .ready none 9 (staged (stage .complete (some 3)) part)), kept 5 (shown 9 .claiming), [], shown 9 .claiming, conf, 5, by (repeat' apply And.intro) <;> first | decide +kernel | exact only_peer _ _ (by decide +kernel) _⟩,
   ⟨run (peers (shown 9 .none) { part with pres := { joining := .sync, syncTarget := some 9 } }), 5, conf, by (repeat' apply And.intro) <;> first | decide +kernel | exact only_peer _ _ (by decide +kernel) _⟩,
   ⟨run (switched 9), {}, 1, 9, 2, by (repeat' apply And.intro) <;> first | decide +kernel | (intro i hi; exact labelAt_none _ i (by simp [run, switched, peers, part]))⟩,
   ⟨run (switched 10), {}, 1, 9, 2, by (repeat' apply And.intro) <;> first | decide +kernel | (intro i hi; exact labelAt_none _ i (by simp [run, switched, peers, part]))⟩⟩

theorem meets_PeersComeAndGo :
    (∃ (s : State) (k : KeptPresence) (rest : List KeptPresence), s.supply.takesEvents = true ∧ s.part.pres.inbox = k
      :: rest ∧ k.read = none) ∧
    (∃ (s : State) (k : KeptPresence) (rest : List KeptPresence), ∃ d, s.supply.takesEvents = true ∧
      s.part.pres.inbox = k :: rest ∧ k.read = some d ∧ k.station = s.part.ownStation ∧ (s.part.pres.joining =
      .listen ∨ s.part.pres.joining = .ready) ∧ s.part.pres.joining = .listen) ∧
    (∃ (s : State) (k : KeptPresence) (rest : List KeptPresence), ∃ d, s.supply.takesEvents = true ∧
      s.part.pres.inbox = k :: rest ∧ k.read = some d ∧ k.station = s.part.ownStation ∧ (s.part.pres.joining =
      .listen ∨ s.part.pres.joining = .ready) ∧ s.part.pres.joining = .ready) ∧
    (∃ (s : State) (k : KeptPresence) (rest : List KeptPresence), ∃ d c, s.supply.takesEvents = true ∧
      s.part.pres.inbox = k :: rest ∧ k.read = some d ∧ s.part.cfg = some c ∧ k.station ≠ c.station ∧
      s.part.pres.joining = .listen ∧ (d.night = .claiming ∨ d.night = .standby) ∧ s.part.trk.table = [] ∧
      s.part.price.staging.state = .empty ∧ s.part.pres.clock.valid = true) ∧
    (∃ (s : State) (k : KeptPresence) (rest : List KeptPresence), ∃ d c, s.supply.takesEvents = true ∧
      s.part.pres.inbox = k :: rest ∧ k.read = some d ∧ s.part.cfg = some c ∧ k.station ≠ c.station ∧
      s.part.pres.joining = .listen ∧ (d.night = .claiming ∨ d.night = .standby) ∧ s.part.trk.table = [] ∧
      s.part.price.staging.state = .empty ∧ s.part.pres.clock.valid = false ∧ d.timeValid = true ∧ d.minute ≤ 1439 ∧
      d.second ≤ 59) ∧
    (∃ (s : State) (n : StationNo) (c : ConfigBlock), s.supply.takesEvents = true ∧ s.part.cfg = some c ∧
      (s.part.peer n).state = .present ∧ (s.part.peer n).silence = true ∧ s.part.pres.joining ≠ .sync ∧
      s.part.trk.holder = none ∧ s.part.price.staging.state = .empty) :=
  ⟨⟨run ({ part with pres := { joining := .ready, inbox := [⟨5, []⟩] } }), ⟨5, []⟩, [], by (repeat' apply And.intro) <;> decide +kernel⟩,
   ⟨run ({ part with pres := { joining := .listen, inbox := [kept 2 (shown 0 .none)] } }), kept 2 (shown 0 .none), [], { shown 0 .none with station := 2 }, by (repeat' apply And.intro) <;> decide +kernel⟩,
   ⟨run ({ part with pres := { joining := .ready, inbox := [kept 2 (shown 0 .none)] } }), kept 2 (shown 0 .none), [], { shown 0 .none with station := 2 }, by (repeat' apply And.intro) <;> decide +kernel⟩,
   ⟨run (clock 0 0 0 ({ part with pres := { joining := .listen, inbox := [kept 5 (shown 0 .claiming)] } })), kept 5 (shown 0 .claiming), [], shown 0 .claiming, conf, by (repeat' apply And.intro) <;> decide +kernel⟩,
   ⟨run ({ part with pres := { joining := .listen, inbox := [kept 15 { shown 0 .standby with flags := 128, minute := 1439, second := 59 }] } }), kept 15 { shown 0 .standby with flags := 128, minute := 1439, second := 59 }, [], { shown 0 .standby with station := 15, flags := 128, minute := 1439, second := 59 }, conf, by (repeat' apply And.intro) <;> decide +kernel⟩,
   ⟨run (peers (shown 0 .none) part), 5, conf, by (repeat' apply And.intro) <;> decide +kernel⟩⟩

theorem meets_ClockAdvances :
    (∃ s : State, s.supply.takesEvents = true ∧ s.part.pres.clock.valid = false) ∧
    (∃ s : State, ∃ c, s.supply.takesEvents = true ∧ c = s.part.pres.clock ∧ c.valid = true ∧ s.part.nightNow = none
      ∧ (s.part.modPres fun x => { x with clock := x.clock.advance }).nightNow = none ∧ s.part.price.trigger =
      .disarmed) ∧
    (∃ s : State, ∃ c, s.supply.takesEvents = true ∧ c = s.part.pres.clock ∧ c.valid = true ∧ s.part.nightNow = none
      ∧ (s.part.modPres fun x => { x with clock := x.clock.advance }).nightNow = none ∧ s.part.price.trigger =
      .disarmed) ∧
    (∃ s : State, ∃ c, s.supply.takesEvents = true ∧ c = s.part.pres.clock ∧ c.valid = true ∧ s.part.nightNow = none
      ∧ (s.part.modPres fun x => { x with clock := x.clock.advance }).nightNow = none ∧ s.part.price.trigger =
      .disarmed) ∧
    (∃ s : State, ∃ c, s.supply.takesEvents = true ∧ c = s.part.pres.clock ∧ c.valid = true ∧ s.part.nightNow = none
      ∧ (s.part.modPres fun x => { x with clock := x.clock.advance }).nightNow = none ∧ s.part.price.trigger =
      .disarmed) ∧
    (∃ s : State, ∃ c, s.supply.takesEvents = true ∧ c = s.part.pres.clock ∧ c.valid = true ∧ s.part.nightNow = none
      ∧ (s.part.modPres fun x => { x with clock := x.clock.advance }).nightNow = none ∧ s.part.price.trigger =
      .disarmed) :=
  ⟨⟨run (part), by (repeat' apply And.intro) <;> decide +kernel⟩,
   ⟨run (clock 1 600 58 part), ⟨true, 1, 600, 58⟩, by (repeat' apply And.intro) <;> decide +kernel⟩,
   ⟨run (clock 1 1378 59 part), ⟨true, 1, 1378, 59⟩, by (repeat' apply And.intro) <;> decide +kernel⟩,
   ⟨run (clock 1 600 59 part), ⟨true, 1, 600, 59⟩, by (repeat' apply And.intro) <;> decide +kernel⟩,
   ⟨run ({ clock 65534 1439 59 part with cfg := none }), ⟨true, 65534, 1439, 59⟩, by (repeat' apply And.intro) <;> decide +kernel⟩,
   ⟨run ({ clock 65535 1439 59 part with cfg := none }), ⟨true, 65535, 1439, 59⟩, by (repeat' apply And.intro) <;> decide +kernel⟩⟩

theorem meets_PoolDecidesEachRequest :
    (∃ (f : Forwarding) (u : User), f.free = []) ∧
    (∃ (f : Forwarding) (u : User), f.free ≠ [] ∧ f.free.length ≤ 8 ∧ u ≠ .control) ∧
    (∃ (f : Forwarding) (u : User), 8 < f.free.length ∧ u = .guest ∧ 192 ≤ f.guestCount) ∧
    (∃ (f : Forwarding) (u : User), 8 < f.free.length ∧ u = .relay ∧ 32 ≤ f.relayCount) ∧
    (∃ (f : Forwarding) (u : User), ∃ n rest, f.free = n :: rest ∧ (u = .control ∨ (8 < f.free.length ∧ (u = .guest →
      f.guestCount < 192) ∧ (u = .relay → f.relayCount < 32)))) ∧
    (∃ (f : Forwarding) (u : User), ∃ n rest, f.free = n :: rest ∧ (u = .control ∨ (8 < f.free.length ∧ (u = .guest →
      f.guestCount < 192) ∧ (u = .relay → f.relayCount < 32)))) ∧
    (∃ (f : Forwarding) (u : User), ∃ n rest, f.free = n :: rest ∧ (u = .control ∨ (8 < f.free.length ∧ (u = .guest →
      f.guestCount < 192) ∧ (u = .relay → f.relayCount < 32)))) ∧
    (∃ (f : Forwarding) (u : User), f.guestCount ≤ 192) :=
  ⟨⟨{ part.fwd with free := [] }, .control, by (repeat' apply And.intro) <;> decide +kernel⟩,
   ⟨{ part.fwd with free := List.range 8 }, .other, by (repeat' apply And.intro) <;> decide +kernel⟩,
   ⟨{ part.fwd with free := List.range 9, guestCount := 192 }, .guest, by (repeat' apply And.intro) <;> decide +kernel⟩,
   ⟨{ part.fwd with free := List.range 9, relayCount := 32 }, .relay, by (repeat' apply And.intro) <;> decide +kernel⟩,
   ⟨{ part.fwd with free := [3] }, .control, 3, [], by (repeat' apply And.intro) <;> decide +kernel⟩,
   ⟨{ part.fwd with free := List.range 9, guestCount := 191 }, .guest, 0, [1, 2, 3, 4, 5, 6, 7, 8], by (repeat' apply And.intro) <;> decide +kernel⟩,
   ⟨{ part.fwd with free := List.range 9, relayCount := 31 }, .relay, 0, [1, 2, 3, 4, 5, 6, 7, 8], by (repeat' apply And.intro) <;> decide +kernel⟩,
   ⟨{ part.fwd with guestCount := 192 }, .guest, by (repeat' apply And.intro) <;> decide +kernel⟩⟩

theorem meets_LookupGivesTheLongestPrefix :
    (∃ (f : Forwarding) (a : Nat), ∃ e, f.lookup a = some e) ∧
    (∃ (f : Forwarding) (a : Nat), ∃ j : Fin 32, f.lookup a = none) :=
  ⟨⟨part.fwd, 0x0A0002FF, ⟨0x0A000200, 24, .localGuest, .own, true⟩, by (repeat' apply And.intro) <;> decide +kernel⟩,
   ⟨{}, 0, 0, by (repeat' apply And.intro) <;> decide +kernel⟩⟩

theorem meets_DefaultRouteFollowsTheTrunk :
    (∃ (s : State) (k : KeptPresence) (rest : List KeptPresence) (d : PresenceData) (c : ConfigBlock),
      s.supply.takesEvents = true ∧ s.part.pres.inbox = k :: rest ∧ k.read = some d ∧ s.part.cfg = some c ∧ k.station
      ≠ c.station ∧ s.part.pres.joining = .listen ∧ (d.night = .claiming ∨ d.night = .standby) ∧ s.part.trk.table =
      [] ∧ s.part.price.staging.state = .empty ∧ s.part.pres.clock.valid = true) ∧
    (∃ (s : State) (n : StationNo), s.supply.takesEvents = true ∧ s.part.cfg.isSome = true ∧ (s.part.peer n).state =
      .present ∧ (s.part.peer n).silence = true ∧ s.part.pres.joining ≠ .sync ∧ s.part.trk.holder = none ∧
      s.part.price.staging.state = .empty) ∧
    (∃ s : State, s.supply.takesEvents = true ∧ s.part.cfg.isSome = true ∧ s.part.trunkFitted = true ∧
      s.part.trk.line = .down ∧ (∀ d, s.part.nightNow = some d → s.part.pres.joining.nightExchange = true →
      (s.part.trk.night = .none ∨ s.part.trk.night = .standby) → s.part.trk.holderFor d ≠ none)) ∧
    (∃ s : State, s.supply.takesEvents = true ∧ s.part.cfg.isSome = true ∧ s.part.trunkFitted = true ∧
      s.part.trk.line = .down ∧ (∀ d, s.part.nightNow = some d → s.part.pres.joining.nightExchange = true →
      (s.part.trk.night = .none ∨ s.part.trk.night = .standby) → s.part.trk.holderFor d ≠ none)) ∧
    (∃ s : State, ∃ d, s.supply.takesEvents = true ∧ s.part.cfg.isSome = true ∧ s.part.trunkFitted = true ∧
      s.part.trk.line = .down ∧ s.part.nightNow = some d ∧ s.part.pres.joining.nightExchange = true ∧
      (s.part.trk.night = .none ∨ s.part.trk.night = .standby) ∧ s.part.trk.holderFor d = none ∧ s.bufferFree) ∧
    (∃ s : State, s.supply.takesEvents = true ∧ s.part.cfg.isSome = true ∧ s.part.trk.line = .up ∧ s.part.trk.night ≠
      .holding) ∧
    (∃ s : State, s.supply.takesEvents = true ∧ s.part.cfg.isSome = true ∧ s.part.trk.line = .up ∧ s.part.trk.night =
      .holding) :=
  ⟨⟨run (clock 0 0 0 ({ part with pres := { joining := .listen, inbox := [kept 5 (shown 0 .claiming)] } })), kept 5 (shown 0 .claiming), [], shown 0 .claiming, conf, by (repeat' apply And.intro) <;> decide +kernel⟩,
   ⟨run (peers (shown 0 .none) part), 5, by (repeat' apply And.intro) <;> decide +kernel⟩,
   ⟨run ({ part with trk := { line := .down } }), by (repeat' apply And.intro) <;> first | decide +kernel | (intro d hd; cases hd)⟩,
   ⟨run (clock 9 1400 0 ({ part with trk := { line := .down, holder := some (5, 9) } })), by (repeat' apply And.intro) <;> first | decide +kernel | (intro d hd _ _; cases hd; decide +kernel)⟩,
   ⟨run (clock 9 1400 0 ({ part with trk := { line := .down } })), 9, by (repeat' apply And.intro) <;> decide +kernel⟩,
   ⟨run (trunkUp part), by (repeat' apply And.intro) <;> decide +kernel⟩,
   ⟨run (session .upload [upload 2 (some (carton 2))] part), by (repeat' apply And.intro) <;> decide +kernel⟩⟩

theorem meets_PacketsAreRouted :
    (∃ (s : State) (it : RxItem) (b : Bytes) (p : Part), s.supply.takesEvents = true ∧ s.part.engineFrame .trunk =
      some (it, b) ∧ fieldAt b 0 1 = 1 ∧ it.buf.num < Config.poolSize ∧ p = s.part.engineTakes it ∧ s.part.trk.line ≠
      .up) ∧
    (∃ (s : State) (it : RxItem) (b : Bytes) (p : Part), s.supply.takesEvents = true ∧ s.part.engineFrame .trunk =
      some (it, b) ∧ fieldAt b 0 1 = 1 ∧ it.buf.num < Config.poolSize ∧ p = s.part.engineTakes it ∧ s.part.trk.line =
      .up ∧ s.part.inGuestBlock (packetDest (b.drop 1)) = true ∧ s.part.inGuestBlock (packetSource (b.drop 1)) =
      true) ∧
    (∃ (s : State) (it : RxItem) (b : Bytes) (p : Part), ∃ e, s.supply.takesEvents = true ∧ s.part.engineFrame .trunk
      = some (it, b) ∧ fieldAt b 0 1 = 1 ∧ it.buf.num < Config.poolSize ∧ p = s.part.engineTakes it ∧ s.part.trk.line
      = .up ∧ ¬ (s.part.inGuestBlock (packetDest (b.drop 1)) = true ∧ s.part.inGuestBlock (packetSource (b.drop 1)) =
      true) ∧ s.part.fwd.lookup (packetDest (b.drop 1)) = some e ∧ e.exit = .discard) ∧
    (∃ (s : State) (it : RxItem) (b : Bytes) (p : Part), ∃ e, s.supply.takesEvents = true ∧ s.part.engineFrame .trunk
      = some (it, b) ∧ fieldAt b 0 1 = 1 ∧ it.buf.num < Config.poolSize ∧ p = s.part.engineTakes it ∧ s.part.trk.line
      = .up ∧ ¬ (s.part.inGuestBlock (packetDest (b.drop 1)) = true ∧ s.part.inGuestBlock (packetSource (b.drop 1)) =
      true) ∧ s.part.fwd.lookup (packetDest (b.drop 1)) = some e ∧ e.exit = .trunk ∧ s.part.fwd.exchange = [] ∧
      s.part.fwd.packets = []) ∧
    (∃ (s : State) (it : RxItem) (b : Bytes) (p : Part), ∃ e, s.supply.takesEvents = true ∧ s.part.engineFrame .trunk
      = some (it, b) ∧ fieldAt b 0 1 = 1 ∧ it.buf.num < Config.poolSize ∧ p = s.part.engineTakes it ∧ s.part.trk.line
      = .up ∧ ¬ (s.part.inGuestBlock (packetDest (b.drop 1)) = true ∧ s.part.inGuestBlock (packetSource (b.drop 1)) =
      true) ∧ s.part.fwd.lookup (packetDest (b.drop 1)) = some e ∧ e.exit = .trunk ∧ s.part.fwd.exchange = [] ∧
      s.part.fwd.packets = []) ∧
    (∃ (s : State) (it : RxItem) (b : Bytes) (p : Part), ∃ e, s.supply.takesEvents = true ∧ s.part.engineFrame .trunk
      = some (it, b) ∧ fieldAt b 0 1 = 1 ∧ it.buf.num < Config.poolSize ∧ p = s.part.engineTakes it ∧ s.part.trk.line
      = .up ∧ ¬ (s.part.inGuestBlock (packetDest (b.drop 1)) = true ∧ s.part.inGuestBlock (packetSource (b.drop 1)) =
      true) ∧ s.part.fwd.lookup (packetDest (b.drop 1)) = some e ∧ e.exit = .station s.part.ownStation) ∧
    (∃ (s : State) (it : RxItem) (b : Bytes) (p : Part), ∃ e, ∃ n, s.supply.takesEvents = true ∧ s.part.engineFrame
      .trunk = some (it, b) ∧ fieldAt b 0 1 = 1 ∧ it.buf.num < Config.poolSize ∧ p = s.part.engineTakes it ∧
      s.part.trk.line = .up ∧ ¬ (s.part.inGuestBlock (packetDest (b.drop 1)) = true ∧ s.part.inGuestBlock
      (packetSource (b.drop 1)) = true) ∧ s.part.fwd.lookup (packetDest (b.drop 1)) = some e ∧ e.exit = .station n ∧
      n ≠ s.part.ownStation ∧ (b.drop 1).length ≤ 1024) ∧
    (∃ (s : State) (it : RxItem) (b : Bytes) (p : Part), ∃ e, ∃ n, s.supply.takesEvents = true ∧ s.part.engineFrame
      .trunk = some (it, b) ∧ fieldAt b 0 1 = 1 ∧ it.buf.num < Config.poolSize ∧ p = s.part.engineTakes it ∧
      s.part.trk.line = .up ∧ ¬ (s.part.inGuestBlock (packetDest (b.drop 1)) = true ∧ s.part.inGuestBlock
      (packetSource (b.drop 1)) = true) ∧ s.part.fwd.lookup (packetDest (b.drop 1)) = some e ∧ e.exit = .station n ∧
      n ≠ s.part.ownStation ∧ 1024 < (b.drop 1).length) ∧
    (∃ (s : State) (it : RxItem) (bs : Bytes) (b : BranchBody) (p : Part), s.supply.takesEvents = true ∧
      s.part.engineFrame .branch = some (it, bs) ∧ b = parseBody bs ∧ b.kind = 0x02 ∧ it.buf.num < Config.poolSize ∧
      p = s.part.engineTakes it ∧ (b.datagramOrigin = none ∨ wholePacket b.payload = false)) ∧
    (∃ (s : State) (it : RxItem) (bs : Bytes) (b : BranchBody) (p : Part), ∃ o, s.supply.takesEvents = true ∧
      s.part.engineFrame .branch = some (it, bs) ∧ b = parseBody bs ∧ b.kind = 0x02 ∧ it.buf.num < Config.poolSize ∧
      p = s.part.engineTakes it ∧ b.datagramOrigin = some o ∧ wholePacket b.payload = true ∧ s.part.inGuestBlock
      (packetDest b.payload) = true ∧ s.part.inGuestBlock (packetSource b.payload) = true) ∧
    (∃ (s : State) (it : RxItem) (bs : Bytes) (b : BranchBody) (p : Part), ∃ o, ∃ e, s.supply.takesEvents = true ∧
      s.part.engineFrame .branch = some (it, bs) ∧ b = parseBody bs ∧ b.kind = 0x02 ∧ it.buf.num < Config.poolSize ∧
      p = s.part.engineTakes it ∧ b.datagramOrigin = some o ∧ wholePacket b.payload = true ∧ ¬ (s.part.inGuestBlock
      (packetDest b.payload) = true ∧ s.part.inGuestBlock (packetSource b.payload) = true) ∧ s.part.fwd.lookup
      (packetDest b.payload) = some e ∧ e.exit = .discard) ∧
    (∃ (s : State) (it : RxItem) (bs : Bytes) (b : BranchBody) (p : Part), ∃ o, ∃ e, s.supply.takesEvents = true ∧
      s.part.engineFrame .branch = some (it, bs) ∧ b = parseBody bs ∧ b.kind = 0x02 ∧ it.buf.num < Config.poolSize ∧
      p = s.part.engineTakes it ∧ b.datagramOrigin = some o ∧ wholePacket b.payload = true ∧ ¬ (s.part.inGuestBlock
      (packetDest b.payload) = true ∧ s.part.inGuestBlock (packetSource b.payload) = true) ∧ s.part.fwd.lookup
      (packetDest b.payload) = some e ∧ e.exit = .trunk ∧ s.part.trk.line ≠ .up) ∧
    (∃ (s : State) (it : RxItem) (bs : Bytes) (b : BranchBody) (p : Part), ∃ o, ∃ e, s.supply.takesEvents = true ∧
      s.part.engineFrame .branch = some (it, bs) ∧ b = parseBody bs ∧ b.kind = 0x02 ∧ it.buf.num < Config.poolSize ∧
      p = s.part.engineTakes it ∧ b.datagramOrigin = some o ∧ wholePacket b.payload = true ∧ ¬ (s.part.inGuestBlock
      (packetDest b.payload) = true ∧ s.part.inGuestBlock (packetSource b.payload) = true) ∧ s.part.fwd.lookup
      (packetDest b.payload) = some e ∧ e.exit = .trunk ∧ s.part.trk.line = .up ∧ s.part.fwd.exchange = [] ∧
      s.part.fwd.packets = []) ∧
    (∃ (s : State) (it : RxItem) (bs : Bytes) (b : BranchBody) (p : Part), ∃ o, ∃ e, s.supply.takesEvents = true ∧
      s.part.engineFrame .branch = some (it, bs) ∧ b = parseBody bs ∧ b.kind = 0x02 ∧ it.buf.num < Config.poolSize ∧
      p = s.part.engineTakes it ∧ b.datagramOrigin = some o ∧ wholePacket b.payload = true ∧ ¬ (s.part.inGuestBlock
      (packetDest b.payload) = true ∧ s.part.inGuestBlock (packetSource b.payload) = true) ∧ s.part.fwd.lookup
      (packetDest b.payload) = some e ∧ e.exit = .trunk ∧ s.part.trk.line = .up ∧ s.part.fwd.exchange = [] ∧
      s.part.fwd.packets = []) ∧
    (∃ (s : State) (it : RxItem) (bs : Bytes) (b : BranchBody) (p : Part), ∃ o, ∃ e, ∃ n, s.supply.takesEvents = true
      ∧ s.part.engineFrame .branch = some (it, bs) ∧ b = parseBody bs ∧ b.kind = 0x02 ∧ it.buf.num < Config.poolSize
      ∧ p = s.part.engineTakes it ∧ b.datagramOrigin = some o ∧ wholePacket b.payload = true ∧ ¬ (s.part.inGuestBlock
      (packetDest b.payload) = true ∧ s.part.inGuestBlock (packetSource b.payload) = true) ∧ s.part.fwd.lookup
      (packetDest b.payload) = some e ∧ e.exit = .station n ∧ (n = s.part.ownStation ∨ n = it.station ∨ o ≠ none) ∧ n
      = it.station) ∧
    (∃ (s : State) (it : RxItem) (bs : Bytes) (b : BranchBody) (p : Part), ∃ o, ∃ e, ∃ n, s.supply.takesEvents = true
      ∧ s.part.engineFrame .branch = some (it, bs) ∧ b = parseBody bs ∧ b.kind = 0x02 ∧ it.buf.num < Config.poolSize
      ∧ p = s.part.engineTakes it ∧ b.datagramOrigin = some o ∧ wholePacket b.payload = true ∧ ¬ (s.part.inGuestBlock
      (packetDest b.payload) = true ∧ s.part.inGuestBlock (packetSource b.payload) = true) ∧ s.part.fwd.lookup
      (packetDest b.payload) = some e ∧ e.exit = .station n ∧ (n = s.part.ownStation ∨ n = it.station ∨ o ≠ none) ∧ o
      ≠ none) ∧
    (∃ (s : State) (it : RxItem) (bs : Bytes) (b : BranchBody) (p : Part), ∃ o, ∃ e, ∃ n, s.supply.takesEvents = true
      ∧ s.part.engineFrame .branch = some (it, bs) ∧ b = parseBody bs ∧ b.kind = 0x02 ∧ it.buf.num < Config.poolSize
      ∧ p = s.part.engineTakes it ∧ b.datagramOrigin = some o ∧ wholePacket b.payload = true ∧ ¬ (s.part.inGuestBlock
      (packetDest b.payload) = true ∧ s.part.inGuestBlock (packetSource b.payload) = true) ∧ s.part.fwd.lookup
      (packetDest b.payload) = some e ∧ e.exit = .station n ∧ n ≠ s.part.ownStation ∧ n ≠ it.station ∧ o = none ∧
      1024 < b.payload.length) ∧
    (∃ (s : State) (it : RxItem) (bs : Bytes) (b : BranchBody) (p : Part), ∃ o, ∃ e, ∃ n, s.supply.takesEvents = true
      ∧ s.part.engineFrame .branch = some (it, bs) ∧ b = parseBody bs ∧ b.kind = 0x02 ∧ it.buf.num < Config.poolSize
      ∧ p = s.part.engineTakes it ∧ b.datagramOrigin = some o ∧ wholePacket b.payload = true ∧ ¬ (s.part.inGuestBlock
      (packetDest b.payload) = true ∧ s.part.inGuestBlock (packetSource b.payload) = true) ∧ s.part.fwd.lookup
      (packetDest b.payload) = some e ∧ e.exit = .station n ∧ n ≠ s.part.ownStation ∧ n ≠ it.station ∧ o = none ∧
      b.payload.length ≤ 1024) :=
  ⟨⟨run (waiting .trunk 0 (1 :: packet 10 1 2) (part)), item .trunk 0 (1 :: packet 10 1 2).length, (1 :: packet 10 1 2), (run (waiting .trunk 0 (1 :: packet 10 1 2) (part))).part.engineTakes (item .trunk 0 (1 :: packet 10 1 2).length), by (repeat' apply And.intro) <;> decide +kernel⟩,
   ⟨run (waiting .trunk 0 (1 :: packet 10 0x0A000001 0x0A000FFF) (trunkUp part)), item .trunk 0 (1 :: packet 10 0x0A000001 0x0A000FFF).length, (1 :: packet 10 0x0A000001 0x0A000FFF), (run (waiting .trunk 0 (1 :: packet 10 0x0A000001 0x0A000FFF) (trunkUp part))).part.engineTakes (item .trunk 0 (1 :: packet 10 0x0A000001 0x0A000FFF).length), by (repeat' apply And.intro) <;> decide +kernel⟩,
   ⟨run (waiting .trunk 0 (1 :: packet 10 0x0A000900 0) (trunkUp part)), item .trunk 0 (1 :: packet 10 0x0A000900 0).length, (1 :: packet 10 0x0A000900 0), (run (waiting .trunk 0 (1 :: packet 10 0x0A000900 0) (trunkUp part))).part.engineTakes (item .trunk 0 (1 :: packet 10 0x0A000900 0).length), ⟨0x0A000000, 20, .discard, .builtIn, true⟩, by (repeat' apply And.intro) <;> decide +kernel⟩,
   ⟨run (waiting .trunk 0 (1 :: packet 10 0x08080808 0) (toTrunk part)), item .trunk 0 (1 :: packet 10 0x08080808 0).length, (1 :: packet 10 0x08080808 0), (run (waiting .trunk 0 (1 :: packet 10 0x08080808 0) (toTrunk part))).part.engineTakes (item .trunk 0 (1 :: packet 10 0x08080808 0).length), ⟨0, 0, .trunk, .default, true⟩, by (repeat' apply And.intro) <;> decide +kernel⟩,
   ⟨run (waiting .trunk 0 (1 :: packet 10 0x08080808 0x0A000FFF) (toTrunk part)), item .trunk 0 (1 :: packet 10 0x08080808 0x0A000FFF).length, (1 :: packet 10 0x08080808 0x0A000FFF), (run (waiting .trunk 0 (1 :: packet 10 0x08080808 0x0A000FFF) (toTrunk part))).part.engineTakes (item .trunk 0 (1 :: packet 10 0x08080808 0x0A000FFF).length), ⟨0, 0, .trunk, .default, true⟩, by (repeat' apply And.intro) <;> decide +kernel⟩,
   ⟨run (waiting .trunk 0 (1 :: packet 10 0x0A000601 0) ({ trunkUp part with fwd := { (trunkUp part : Part).fwd with routes := part.fwd.routes.set 16 ⟨0x0A000600, 24, .station 2, .learned, true⟩ } })), item .trunk 0 (1 :: packet 10 0x0A000601 0).length, (1 :: packet 10 0x0A000601 0), (run (waiting .trunk 0 (1 :: packet 10 0x0A000601 0) ({ trunkUp part with fwd := { (trunkUp part : Part).fwd with routes := part.fwd.routes.set 16 ⟨0x0A000600, 24, .station 2, .learned, true⟩ } }))).part.engineTakes (item .trunk 0 (1 :: packet 10 0x0A000601 0).length), ⟨0x0A000600, 24, .station 2, .learned, true⟩, by (repeat' apply And.intro) <;> decide +kernel⟩,
   ⟨run (waiting .trunk 0 (1 :: packet 1024 0x0A000601 0) ({ trunkUp part with fwd := { (trunkUp part : Part).fwd with routes := part.fwd.routes.set 16 ⟨0x0A000600, 24, .station 6, .learned, true⟩ } })), item .trunk 0 (1 :: packet 1024 0x0A000601 0).length, (1 :: packet 1024 0x0A000601 0), (run (waiting .trunk 0 (1 :: packet 1024 0x0A000601 0) ({ trunkUp part with fwd := { (trunkUp part : Part).fwd with routes := part.fwd.routes.set 16 ⟨0x0A000600, 24, .station 6, .learned, true⟩ } }))).part.engineTakes (item .trunk 0 (1 :: packet 1024 0x0A000601 0).length), ⟨0x0A000600, 24, .station 6, .learned, true⟩, 6, by (repeat' apply And.intro) <;> decide +kernel⟩,
   ⟨run (waiting .trunk 0 (1 :: packet 1025 0x0A000601 0) ({ trunkUp part with fwd := { (trunkUp part : Part).fwd with routes := part.fwd.routes.set 16 ⟨0x0A000600, 24, .station 6, .learned, true⟩ } })), item .trunk 0 (1 :: packet 1025 0x0A000601 0).length, (1 :: packet 1025 0x0A000601 0), (run (waiting .trunk 0 (1 :: packet 1025 0x0A000601 0) ({ trunkUp part with fwd := { (trunkUp part : Part).fwd with routes := part.fwd.routes.set 16 ⟨0x0A000600, 24, .station 6, .learned, true⟩ } }))).part.engineTakes (item .trunk 0 (1 :: packet 1025 0x0A000601 0).length), ⟨0x0A000600, 24, .station 6, .learned, true⟩, 6, by (repeat' apply And.intro) <;> decide +kernel⟩,
   ⟨run (waiting .branch 5 (plainBody 2 kindDatagram [0, 0]) (part)), item .branch 5 (plainBody 2 kindDatagram [0, 0]).length, (plainBody 2 kindDatagram [0, 0]), parseBody (plainBody 2 kindDatagram [0, 0]), (run (waiting .branch 5 (plainBody 2 kindDatagram [0, 0]) (part))).part.engineTakes (item .branch 5 (plainBody 2 kindDatagram [0, 0]).length), by (repeat' apply And.intro) <;> decide +kernel⟩,
   ⟨run (waiting .branch 5 (plainBody 2 kindDatagram (packet 10 0x0A000001 0x0A000FFF)) (part)), item .branch 5 (plainBody 2 kindDatagram (packet 10 0x0A000001 0x0A000FFF)).length, (plainBody 2 kindDatagram (packet 10 0x0A000001 0x0A000FFF)), parseBody (plainBody 2 kindDatagram (packet 10 0x0A000001 0x0A000FFF)), (run (waiting .branch 5 (plainBody 2 kindDatagram (packet 10 0x0A000001 0x0A000FFF)) (part))).part.engineTakes (item .branch 5 (plainBody 2 kindDatagram (packet 10 0x0A000001 0x0A000FFF)).length), none, by (repeat' apply And.intro) <;> decide +kernel⟩,
   ⟨run (waiting .branch 5 (plainBody 2 kindDatagram (packet 10 0x0A000900 0)) (part)), item .branch 5 (plainBody 2 kindDatagram (packet 10 0x0A000900 0)).length, (plainBody 2 kindDatagram (packet 10 0x0A000900 0)), parseBody (plainBody 2 kindDatagram (packet 10 0x0A000900 0)), (run (waiting .branch 5 (plainBody 2 kindDatagram (packet 10 0x0A000900 0)) (part))).part.engineTakes (item .branch 5 (plainBody 2 kindDatagram (packet 10 0x0A000900 0)).length), none, ⟨0x0A000000, 20, .discard, .builtIn, true⟩, by (repeat' apply And.intro) <;> decide +kernel⟩,
   ⟨run (waiting .branch 5 (plainBody 2 kindDatagram (packet 10 0x08080808 0)) ({ toTrunk part with trk := { line := .down } })), item .branch 5 (plainBody 2 kindDatagram (packet 10 0x08080808 0)).length, (plainBody 2 kindDatagram (packet 10 0x08080808 0)), parseBody (plainBody 2 kindDatagram (packet 10 0x08080808 0)), (run (waiting .branch 5 (plainBody 2 kindDatagram (packet 10 0x08080808 0)) ({ toTrunk part with trk := { line := .down } }))).part.engineTakes (item .branch 5 (plainBody 2 kindDatagram (packet 10 0x08080808 0)).length), none, ⟨0, 0, .trunk, .default, true⟩, by (repeat' apply And.intro) <;> decide +kernel⟩,
   ⟨run (waiting .branch 5 (plainBody 2 kindDatagram (packet 10 0x08080808 0)) (toTrunk part)), item .branch 5 (plainBody 2 kindDatagram (packet 10 0x08080808 0)).length, (plainBody 2 kindDatagram (packet 10 0x08080808 0)), parseBody (plainBody 2 kindDatagram (packet 10 0x08080808 0)), (run (waiting .branch 5 (plainBody 2 kindDatagram (packet 10 0x08080808 0)) (toTrunk part))).part.engineTakes (item .branch 5 (plainBody 2 kindDatagram (packet 10 0x08080808 0)).length), none, ⟨0, 0, .trunk, .default, true⟩, by (repeat' apply And.intro) <;> decide +kernel⟩,
   ⟨run (waiting .branch 5 (plainBody 2 kindDatagram (packet 10 0x08080808 0x0A000601)) (toTrunk part)), item .branch 5 (plainBody 2 kindDatagram (packet 10 0x08080808 0x0A000601)).length, (plainBody 2 kindDatagram (packet 10 0x08080808 0x0A000601)), parseBody (plainBody 2 kindDatagram (packet 10 0x08080808 0x0A000601)), (run (waiting .branch 5 (plainBody 2 kindDatagram (packet 10 0x08080808 0x0A000601)) (toTrunk part))).part.engineTakes (item .branch 5 (plainBody 2 kindDatagram (packet 10 0x08080808 0x0A000601)).length), none, ⟨0, 0, .trunk, .default, true⟩, by (repeat' apply And.intro) <;> decide +kernel⟩,
   ⟨run (waiting .branch 5 (plainBody 2 kindDatagram (packet 10 0x0A000601 0)) ({ part with fwd := { (part : Part).fwd with routes := part.fwd.routes.set 16 ⟨0x0A000600, 24, .station 5, .learned, true⟩ } })), item .branch 5 (plainBody 2 kindDatagram (packet 10 0x0A000601 0)).length, (plainBody 2 kindDatagram (packet 10 0x0A000601 0)), parseBody (plainBody 2 kindDatagram (packet 10 0x0A000601 0)), (run (waiting .branch 5 (plainBody 2 kindDatagram (packet 10 0x0A000601 0)) ({ part with fwd := { (part : Part).fwd with routes := part.fwd.routes.set 16 ⟨0x0A000600, 24, .station 5, .learned, true⟩ } }))).part.engineTakes (item .branch 5 (plainBody 2 kindDatagram (packet 10 0x0A000601 0)).length), none, ⟨0x0A000600, 24, .station 5, .learned, true⟩, 5, by (repeat' apply And.intro) <;> decide +kernel⟩,
   ⟨run (waiting .branch 5 (datagramBody 2 (some 3) (packet 10 0x0A000601 0)) ({ part with fwd := { (part : Part).fwd with routes := part.fwd.routes.set 16 ⟨0x0A000600, 24, .station 6, .learned, true⟩ } })), item .branch 5 (datagramBody 2 (some 3) (packet 10 0x0A000601 0)).length, (datagramBody 2 (some 3) (packet 10 0x0A000601 0)), parseBody (datagramBody 2 (some 3) (packet 10 0x0A000601 0)), (run (waiting .branch 5 (datagramBody 2 (some 3) (packet 10 0x0A000601 0)) ({ part with fwd := { (part : Part).fwd with routes := part.fwd.routes.set 16 ⟨0x0A000600, 24, .station 6, .learned, true⟩ } }))).part.engineTakes (item .branch 5 (datagramBody 2 (some 3) (packet 10 0x0A000601 0)).length), some 3, ⟨0x0A000600, 24, .station 6, .learned, true⟩, 6, by (repeat' apply And.intro) <;> decide +kernel⟩,
   ⟨run (waiting .branch 5 (plainBody 2 kindDatagram (packet 1025 0x0A000601 0)) ({ part with fwd := { (part : Part).fwd with routes := part.fwd.routes.set 16 ⟨0x0A000600, 24, .station 6, .learned, true⟩ } })), item .branch 5 (plainBody 2 kindDatagram (packet 1025 0x0A000601 0)).length, (plainBody 2 kindDatagram (packet 1025 0x0A000601 0)), parseBody (plainBody 2 kindDatagram (packet 1025 0x0A000601 0)), (run (waiting .branch 5 (plainBody 2 kindDatagram (packet 1025 0x0A000601 0)) ({ part with fwd := { (part : Part).fwd with routes := part.fwd.routes.set 16 ⟨0x0A000600, 24, .station 6, .learned, true⟩ } }))).part.engineTakes (item .branch 5 (plainBody 2 kindDatagram (packet 1025 0x0A000601 0)).length), none, ⟨0x0A000600, 24, .station 6, .learned, true⟩, 6, by (repeat' apply And.intro) <;> decide +kernel⟩,
   ⟨run (waiting .branch 5 (plainBody 2 kindDatagram (packet 1024 0x0A000601 0)) ({ part with fwd := { (part : Part).fwd with routes := part.fwd.routes.set 16 ⟨0x0A000600, 24, .station 6, .learned, true⟩ } })), item .branch 5 (plainBody 2 kindDatagram (packet 1024 0x0A000601 0)).length, (plainBody 2 kindDatagram (packet 1024 0x0A000601 0)), parseBody (plainBody 2 kindDatagram (packet 1024 0x0A000601 0)), (run (waiting .branch 5 (plainBody 2 kindDatagram (packet 1024 0x0A000601 0)) ({ part with fwd := { (part : Part).fwd with routes := part.fwd.routes.set 16 ⟨0x0A000600, 24, .station 6, .learned, true⟩ } }))).part.engineTakes (item .branch 5 (plainBody 2 kindDatagram (packet 1024 0x0A000601 0)).length), none, ⟨0x0A000600, 24, .station 6, .learned, true⟩, 6, by (repeat' apply And.intro) <;> decide +kernel⟩⟩

theorem meets_LinkFrameSentAndUnknownKind :
    (∃ (s : State) (x : TFrame) (rest : List TFrame) (f : Forwarding), s.supply.takesEvents = true ∧
      s.part.fwd.exchange = [] ∧ s.part.fwd.packets = x :: rest ∧ x.begun = true ∧ (∀ y ∈ rest, y.begun = false) ∧
      x.what = .packet ∧ f = { s.part.fwd with packets := rest }.giveBack x.buf ∧ s.part.trk.line = .up) ∧
    (∃ (s : State) (x : TFrame) (rest : List TFrame) (f : Forwarding), s.supply.takesEvents = true ∧
      s.part.fwd.exchange = [] ∧ s.part.fwd.packets = x :: rest ∧ x.begun = true ∧ (∀ y ∈ rest, y.begun = false) ∧
      x.what = .packet ∧ f = { s.part.fwd with packets := rest }.giveBack x.buf ∧ s.part.trk.line ≠ .up) ∧
    (∃ (s : State) (x : LFrame) (rest : List LFrame), s.supply.takesEvents = true ∧ x.begun = true ∧
      s.part.fwd.labels = x :: rest ∧ ∃ o, s.part.lab.window = [o] ∧ o.tag = x.tag) ∧
    (∃ (s : State) (x : LFrame) (rest : List LFrame), s.supply.takesEvents = true ∧ x.begun = true ∧ s.part.fwd.radio
      = x :: rest) ∧
    (∃ (s : State) (it y : RxItem), s.supply.takesEvents = true ∧ it.line = .branch ∧ it.buf.num ≠ y.buf.num ∧
      (knownKind (parseBody (s.part.bufBytes it.buf)).kind = false ∨ ((parseBody (s.part.bufBytes it.buf)).chained =
      true ∧ (parseBody (s.part.bufBytes it.buf)).kind ≠ 0x02)) ∧ s.part.fwd.waiting = [it] ∧ knownKind (parseBody
      (s.part.bufBytes it.buf)).kind = false) ∧
    (∃ (s : State) (it y : RxItem), s.supply.takesEvents = true ∧ it.line = .branch ∧ it.buf.num ≠ y.buf.num ∧
      (knownKind (parseBody (s.part.bufBytes it.buf)).kind = false ∨ ((parseBody (s.part.bufBytes it.buf)).chained =
      true ∧ (parseBody (s.part.bufBytes it.buf)).kind ≠ 0x02)) ∧ s.part.fwd.waiting = [it] ∧ (parseBody
      (s.part.bufBytes it.buf)).chained = true) ∧
    (∃ (s : State) (it y : RxItem), s.supply.takesEvents = true ∧ it.line = .branch ∧ it.buf.num ≠ y.buf.num ∧
      (knownKind (parseBody (s.part.bufBytes it.buf)).kind = false ∨ ((parseBody (s.part.bufBytes it.buf)).chained =
      true ∧ (parseBody (s.part.bufBytes it.buf)).kind ≠ 0x02)) ∧ s.part.fwd.waiting = [it, y] ∧ goesTo y.line
      (s.part.bufBytes y.buf) = .engine) ∧
    (∃ (s : State) (it y : RxItem), ∃ d, s.supply.takesEvents = true ∧ it.line = .branch ∧ it.buf.num ≠ y.buf.num ∧
      (knownKind (parseBody (s.part.bufBytes it.buf)).kind = false ∨ ((parseBody (s.part.bufBytes it.buf)).chained =
      true ∧ (parseBody (s.part.bufBytes it.buf)).kind ≠ 0x02)) ∧ s.part.fwd.waiting = [it, y] ∧ goesTo y.line
      (s.part.bufBytes y.buf) = .block d) ∧
    (∃ (s : State) (it y : RxItem), s.supply.takesEvents = true ∧ it.line = .branch ∧ it.buf.num ≠ y.buf.num ∧
      (knownKind (parseBody (s.part.bufBytes it.buf)).kind = false ∨ ((parseBody (s.part.bufBytes it.buf)).chained =
      true ∧ (parseBody (s.part.bufBytes it.buf)).kind ≠ 0x02)) ∧ s.part.fwd.waiting = [it, y] ∧ goesTo y.line
      (s.part.bufBytes y.buf) = .pricing) :=
  ⟨⟨run ({ trunkUp part with fwd := { part.fwd with packets := [⟨⟨300, .guest, 4⟩, .packet, true⟩] } }), ⟨⟨300, .guest, 4⟩, .packet, true⟩, [], ({ part.fwd with packets := [] } : Forwarding).giveBack ⟨300, .guest, 4⟩, by (repeat' apply And.intro) <;> first | decide +kernel | (intro y hy; cases hy)⟩,
   ⟨run ({ part with fwd := { part.fwd with packets := [⟨⟨300, .guest, 4⟩, .packet, true⟩] } }), ⟨⟨300, .guest, 4⟩, .packet, true⟩, [], ({ part.fwd with packets := [] } : Forwarding).giveBack ⟨300, .guest, 4⟩, by (repeat' apply And.intro) <;> first | decide +kernel | (intro y hy; cases hy)⟩,
   ⟨run ({ ordering part with fwd := { part.fwd with labels := [⟨⟨300, .plain, 4⟩, 3, true⟩] } }), ⟨⟨300, .plain, 4⟩, 3, true⟩, [], by (repeat' apply And.intro) <;> first | decide +kernel | exact ⟨_, rfl, rfl⟩⟩,
   ⟨run ({ part with fwd := { part.fwd with radio := [⟨⟨300, .plain, 4⟩, 3, true⟩] } }), ⟨⟨300, .plain, 4⟩, 3, true⟩, [], by (repeat' apply And.intro) <;> decide +kernel⟩,
   ⟨run (waiting .branch 5 (plainBody 2 0x0E []) part), item .branch 5 3, ⟨⟨382, .plain, (plainBody 2 8 []).length⟩, .branch, .control, 5, false⟩, by (repeat' apply And.intro) <;> decide +kernel⟩,
   ⟨run (waiting .branch 5 (plainBody 2 (kindCall + 128) [1, 0]) part), item .branch 5 5, ⟨⟨382, .plain, (plainBody 2 8 []).length⟩, .branch, .control, 5, false⟩, by (repeat' apply And.intro) <;> decide +kernel⟩,
   ⟨run ({ waiting .branch 5 (plainBody 2 0x0E []) part with fwd := { part.fwd with waiting := [item .branch 5 3, ⟨⟨382, .plain, (plainBody 2 0x0F []).length⟩, .branch, .control, 5, false⟩] }, dram := Mem.writeBytes (Mem.writeBytes [] (bufAddr 383) (plainBody 2 0x0E [])) (bufAddr 382) (plainBody 2 0x0F []) }), item .branch 5 3, ⟨⟨382, .plain, (plainBody 2 0x0F []).length⟩, .branch, .control, 5, false⟩, by (repeat' apply And.intro) <;> decide +kernel⟩,
   ⟨run ({ waiting .branch 5 (plainBody 2 0x0E []) part with fwd := { part.fwd with waiting := [item .branch 5 3, ⟨⟨382, .plain, (plainBody 2 kindCall []).length⟩, .branch, .control, 5, false⟩] }, dram := Mem.writeBytes (Mem.writeBytes [] (bufAddr 383) (plainBody 2 0x0E [])) (bufAddr 382) (plainBody 2 kindCall []) }), item .branch 5 3, ⟨⟨382, .plain, (plainBody 2 kindCall []).length⟩, .branch, .control, 5, false⟩, .calls, by (repeat' apply And.intro) <;> decide +kernel⟩,
   ⟨run ({ waiting .branch 5 (plainBody 2 0x0E []) part with fwd := { part.fwd with waiting := [item .branch 5 3, ⟨⟨382, .plain, (plainBody 2 kindPriceEnd []).length⟩, .branch, .control, 5, false⟩] }, dram := Mem.writeBytes (Mem.writeBytes [] (bufAddr 383) (plainBody 2 0x0E [])) (bufAddr 382) (plainBody 2 kindPriceEnd []) }), item .branch 5 3, ⟨⟨382, .plain, (plainBody 2 kindPriceEnd []).length⟩, .branch, .control, 5, false⟩, by (repeat' apply And.intro) <;> decide +kernel⟩⟩

theorem meets_EffectivePrice :
    (∃ e : BankEntry, (e.promo = 0 ∨ e.promo = 2)) ∧
    (∃ e : BankEntry, (e.promo = 0 ∨ e.promo = 2)) ∧
    (∃ e : BankEntry, e.promo = 1 ∧ 1 ≤ e.p ∧ e.p - (2 * (e.p * e.value) + 100) / 200 = 0) ∧
    (∃ e : BankEntry, e.promo = 1 ∧ (e.p = 0 ∨ e.p - (2 * (e.p * e.value) + 100) / 200 ≠ 0)) ∧
    (∃ e : BankEntry, e.promo = 1 ∧ (e.p = 0 ∨ e.p - (2 * (e.p * e.value) + 100) / 200 ≠ 0)) ∧
    (∃ e : BankEntry, (e.promo = 0 ∨ e.promo = 2 ∨ (e.promo = 1 ∧ 1 ≤ e.value ∧ e.value ≤ 90)) ∧ e.p ≤ 9999999 ∧ 1 ≤
      e.p) ∧
    (∃ e : BankEntry, (e.promo = 0 ∨ e.promo = 2 ∨ (e.promo = 1 ∧ 1 ≤ e.value ∧ e.value ≤ 90)) ∧ e.p ≤ 9999999 ∧ 1 ≤
      e.p) ∧
    (∃ e : BankEntry, (e.promo = 0 ∨ e.promo = 2 ∨ (e.promo = 1 ∧ 1 ≤ e.value ∧ e.value ≤ 90)) ∧ e.p ≤ 9999999 ∧ e.p
      = 0) :=
  ⟨⟨milk, by (repeat' apply And.intro) <;> decide +kernel⟩,
   ⟨{ milk with promo := 2, value := 3, m := 500 }, by (repeat' apply And.intro) <;> decide +kernel⟩,
   ⟨{ milk with promo := 1, value := 90, p := 1 }, by (repeat' apply And.intro) <;> decide +kernel⟩,
   ⟨{ milk with promo := 1, value := 90, p := 0 }, by (repeat' apply And.intro) <;> decide +kernel⟩,
   ⟨{ milk with promo := 1, value := 1 }, by (repeat' apply And.intro) <;> decide +kernel⟩,
   ⟨{ milk with promo := 1, value := 1, p := 9999999 }, by (repeat' apply And.intro) <;> decide +kernel⟩,
   ⟨{ milk with promo := 1, value := 90, p := 1 }, by (repeat' apply And.intro) <;> decide +kernel⟩,
   ⟨{ milk with p := 0 }, by (repeat' apply And.intro) <;> decide +kernel⟩⟩

theorem meets_ChargedPriceAndAmounts :
    (∃ e : BankEntry, e.hold = true) ∧
    (∃ e : BankEntry, e.hold = false) ∧
    (∃ e : BankEntry, ∃ q : Nat, (q = 0 ∨ (e.kind = 0 ∧ 999 < q) ∨ (e.kind ≠ 0 ∧ 99999 < q))) ∧
    (∃ e : BankEntry, ∃ q : Nat, (q = 0 ∨ (e.kind = 0 ∧ 999 < q) ∨ (e.kind ≠ 0 ∧ 99999 < q))) ∧
    (∃ e : BankEntry, ∃ q : Nat, (q = 0 ∨ (e.kind = 0 ∧ 999 < q) ∨ (e.kind ≠ 0 ∧ 99999 < q))) ∧
    (∃ e : BankEntry, ∃ q : Nat, e.kind = 0 ∧ 1 ≤ q ∧ q ≤ 999) ∧
    (∃ e : BankEntry, ∃ q : Nat, e.kind = 0 ∧ 1 ≤ q ∧ q ≤ 999) ∧
    (∃ e : BankEntry, ∃ q : Nat, e.kind ≠ 0 ∧ 1 ≤ q ∧ q ≤ 99999) ∧
    (∃ e : BankEntry, ∃ q : Nat, e.kind ≠ 0 ∧ 1 ≤ q ∧ q ≤ 99999) ∧
    (∃ e : BankEntry, ∃ n m told q total : Nat, 2 ≤ n) ∧
    (∃ e : BankEntry, ∃ x, x = (if e.kind ≠ 0 ∧ e.ref = 1 then (2 * (e.effective * 1000) + 1000) / 2000 else if
      e.kind ≠ 0 ∧ e.ref = 2 then (2 * (e.effective * 100) + 1000) / 2000 else e.effective) ∧ x ≤ 999999) ∧
    (∃ e : BankEntry, ∃ x, x = (if e.kind ≠ 0 ∧ e.ref = 1 then (2 * (e.effective * 1000) + 1000) / 2000 else if
      e.kind ≠ 0 ∧ e.ref = 2 then (2 * (e.effective * 100) + 1000) / 2000 else e.effective) ∧ x ≤ 999999) ∧
    (∃ e : BankEntry, ∃ x, x = (if e.kind ≠ 0 ∧ e.ref = 1 then (2 * (e.effective * 1000) + 1000) / 2000 else if
      e.kind ≠ 0 ∧ e.ref = 2 then (2 * (e.effective * 100) + 1000) / 2000 else e.effective) ∧ 999999 < x) ∧
    (∃ e : BankEntry, ∃ x, x = (if e.kind ≠ 0 ∧ e.ref = 1 then (2 * (e.effective * 1000) + 1000) / 2000 else if
      e.kind ≠ 0 ∧ e.ref = 2 then (2 * (e.effective * 100) + 1000) / 2000 else e.effective) ∧ 999999 < x) ∧
    (∃ e : BankEntry, ∃ x, x = (if e.kind ≠ 0 ∧ e.ref = 1 then (2 * (e.effective * 1000) + 1000) / 2000 else if
      e.kind ≠ 0 ∧ e.ref = 2 then (2 * (e.effective * 100) + 1000) / 2000 else e.effective) ∧ 999999 < x) ∧
    (∃ e : BankEntry, (e.kind ≠ 0 ∨ e.c = 0 ∨ e.ref = 0)) ∧
    (∃ e : BankEntry, (e.kind ≠ 0 ∨ e.c = 0 ∨ e.ref = 0)) ∧
    (∃ e : BankEntry, ∃ r u, ((e.ref = 1 ∧ r = 1000) ∨ (e.ref = 2 ∧ r = 100) ∨ (e.ref = 3 ∧ r = 1)) ∧ e.kind = 0 ∧ 1
      ≤ e.c ∧ u = (2 * (e.effective * r) + e.c) / (2 * e.c) ∧ u ≤ 999999) ∧
    (∃ e : BankEntry, ∃ r u, ((e.ref = 1 ∧ r = 1000) ∨ (e.ref = 2 ∧ r = 100) ∨ (e.ref = 3 ∧ r = 1)) ∧ e.kind = 0 ∧ 1
      ≤ e.c ∧ u = (2 * (e.effective * r) + e.c) / (2 * e.c) ∧ 999999 < u) ∧
    (∃ e : BankEntry, ∃ r u, ((e.ref = 1 ∧ r = 1000) ∨ (e.ref = 2 ∧ r = 100) ∨ (e.ref = 3 ∧ r = 1)) ∧ e.kind = 0 ∧ 1
      ≤ e.c ∧ u = (2 * (e.effective * r) + e.c) / (2 * e.c) ∧ u ≤ 999999) ∧
    (∃ e : BankEntry, ∃ r u, ((e.ref = 1 ∧ r = 1000) ∨ (e.ref = 2 ∧ r = 100) ∨ (e.ref = 3 ∧ r = 1)) ∧ e.kind = 0 ∧ 1
      ≤ e.c ∧ u = (2 * (e.effective * r) + e.c) / (2 * e.c) ∧ 999999 < u) ∧
    (∃ e : BankEntry, (e.promo ≠ 1 ∧ e.promo ≠ 2)) ∧
    (∃ e : BankEntry, e.promo = 1 ∧ e.p ≤ 999999) ∧
    (∃ e : BankEntry, e.promo = 1 ∧ 999999 < e.p) ∧
    (∃ e : BankEntry, e.promo = 2 ∧ e.m ≤ 999999) ∧
    (∃ e : BankEntry, e.promo = 2 ∧ 999999 < e.m) :=
  ⟨⟨milk, by (repeat' apply And.intro) <;> decide +kernel⟩,
   ⟨{ milk with hold := false }, by (repeat' apply And.intro) <;> decide +kernel⟩,
   ⟨milk, 0, by (repeat' apply And.intro) <;> decide +kernel⟩,
   ⟨milk, 1000, by (repeat' apply And.intro) <;> decide +kernel⟩,
   ⟨{ milk with kind := 1 }, 100000, by (repeat' apply And.intro) <;> decide +kernel⟩,
   ⟨milk, 1, by (repeat' apply And.intro) <;> decide +kernel⟩,
   ⟨milk, 999, by (repeat' apply And.intro) <;> decide +kernel⟩,
   ⟨{ milk with kind := 3 }, 1, by (repeat' apply And.intro) <;> decide +kernel⟩,
   ⟨{ milk with kind := 1 }, 99999, by (repeat' apply And.intro) <;> decide +kernel⟩,
   ⟨milk, 2, 1, 0, 1, 0, by (repeat' apply And.intro) <;> decide +kernel⟩,
   ⟨{ milk with p := 999999, promo := 0, value := 0, c := 0, ref := 3 }, 999999, by (repeat' apply And.intro) <;> decide +kernel⟩,
   ⟨{ milk with p := 999999, kind := 1, ref := 1 }, 999999, by (repeat' apply And.intro) <;> decide +kernel⟩,
   ⟨{ milk with p := 1000000, promo := 0, value := 0, c := 0, ref := 0 }, 1000000, by (repeat' apply And.intro) <;> decide +kernel⟩,
   ⟨{ milk with p := 1000000, kind := 1, ref := 1 }, 1000000, by (repeat' apply And.intro) <;> decide +kernel⟩,
   ⟨{ milk with p := 9999999, kind := 1, ref := 2 }, 1000000, by (repeat' apply And.intro) <;> decide +kernel⟩,
   ⟨{ milk with p := 999999, promo := 0, value := 0, c := 0, ref := 3 }, by (repeat' apply And.intro) <;> decide +kernel⟩,
   ⟨{ milk with kind := 1, c := 1, ref := 1 }, by (repeat' apply And.intro) <;> decide +kernel⟩,
   ⟨{ milk with p := 999999, promo := 0, value := 0, c := 1, ref := 3 }, 1, 999999, by (repeat' apply And.intro) <;> decide +kernel⟩,
   ⟨{ milk with p := 1000000, promo := 0, value := 0, c := 1, ref := 3 }, 1, 1000000, by (repeat' apply And.intro) <;> decide +kernel⟩,
   ⟨{ milk with p := 999, promo := 0, value := 0, c := 1000, ref := 1 }, 1000, 999, by (repeat' apply And.intro) <;> decide +kernel⟩,
   ⟨{ milk with p := 10000, promo := 0, value := 0, c := 1, ref := 2 }, 100, 1000000, by (repeat' apply And.intro) <;> decide +kernel⟩,
   ⟨{ milk with p := 999999, promo := 0, value := 0, c := 0, ref := 0 }, by (repeat' apply And.intro) <;> decide +kernel⟩,
   ⟨{ milk with p := 999999, promo := 1, value := 90, c := 0, ref := 0 }, by (repeat' apply And.intro) <;> decide +kernel⟩,
   ⟨{ milk with p := 1000000, promo := 1, value := 90, c := 0, ref := 0 }, by (repeat' apply And.intro) <;> decide +kernel⟩,
   ⟨{ milk with promo := 2, value := 9, m := 999999 }, by (repeat' apply And.intro) <;> decide +kernel⟩,
   ⟨{ milk with promo := 2, value := 9, m := 1000000 }, by (repeat' apply And.intro) <;> decide +kernel⟩⟩

/-- A tally entry of three pieces a group: two groups told with their discounts, `c` pieces counted. -/
def tallied (c : Nat) : TallyEntry := ⟨5, 3, c, [⟨1, 10, 10⟩, ⟨2, 20, 25⟩]⟩

theorem meets_ChargedPriceAndAmounts_reversed :
    (∃ (k g v d : Nat) (rest : List GroupRecord), 1 ≤ k ∧ k < g ∧ k + 1 = g) ∧
    (∃ (k g v d : Nat) (rest : List GroupRecord), 1 ≤ k ∧ g ≤ k ∧ k = g) ∧
    (∃ (x : Sale) (l : SaleLine), l.tallied = false) ∧
    (∃ (x : Sale) (l : SaleLine), ∃ t before behind, l.tallied = true ∧ x.tally = before ++ t :: behind ∧ t.item = l.item ∧
      (∀ u ∈ before ++ behind, u.item ≠ l.item) ∧ t.count - l.q = 0) ∧
    (∃ (x : Sale) (l : SaleLine), ∃ t before behind, l.tallied = true ∧ x.tally = before ++ t :: behind ∧ t.item = l.item ∧
      (∀ u ∈ before ++ behind, u.item ≠ l.item) ∧ t.count - l.q = 1) :=
  ⟨⟨1, 2, 20, 25, [⟨1, 10, 10⟩], by decide⟩,
   ⟨1, 1, 20, 25, [], by decide⟩,
   ⟨sale, ⟨5, 3, 199, 597, false, false⟩, by decide⟩,
   ⟨{ sale with tally := [tallied 9] }, ⟨5, 9, 199, 1791, true, false⟩, tallied 9, [], [], by (repeat' apply And.intro) <;> decide⟩,
   ⟨{ sale with tally := [{ tallied 3 with item := 4 }, tallied 10] }, ⟨5, 9, 199, 1791, true, false⟩, tallied 10, [{ tallied 3 with item := 4 }], [], by (repeat' apply And.intro) <;> decide⟩⟩

theorem meets_HeadsAndPartsAreStaged :
    (∃ (s : State) (it : RxItem) (rest : List Handed) (b : BranchBody), s.supply.takesEvents = true ∧
      s.part.pricingTakes = true ∧ s.part.price.inbox = .frame it :: rest ∧ (∀ c, rest.head? ≠ some (.completion c))
      ∧ b = parseBody (s.part.bufBytes it.buf) ∧ b.kind = kindPriceHead ∧ b.payload.length = 10 ∧ 1 ≤ fieldAt
      b.payload 4 2 ∧ fieldAt b.payload 4 2 ≤ 32768 ∧ fieldAt b.payload 8 2 ≤ 1439 ∧ s.part.price.activeGen < fieldAt
      b.payload 0 4 ∧ s.part.price.staging.state = .empty ∧ s.part.hdr.inFlight = none) ∧
    (∃ (s : State) (it : RxItem) (rest : List Handed) (b : BranchBody), s.supply.takesEvents = true ∧
      s.part.pricingTakes = true ∧ s.part.price.inbox = .frame it :: rest ∧ (∀ c, rest.head? ≠ some (.completion c))
      ∧ b = parseBody (s.part.bufBytes it.buf) ∧ b.kind = kindPriceHead ∧ b.payload.length = 10 ∧ 1 ≤ fieldAt
      b.payload 4 2 ∧ fieldAt b.payload 4 2 ≤ 32768 ∧ fieldAt b.payload 8 2 ≤ 1439 ∧ s.part.price.activeGen < fieldAt
      b.payload 0 4 ∧ s.part.price.staging.state = .empty ∧ s.part.hdr.inFlight = none) ∧
    (∃ (s : State) (it : RxItem) (rest : List Handed) (b : BranchBody), s.supply.takesEvents = true ∧
      s.part.pricingTakes = true ∧ s.part.price.inbox = .frame it :: rest ∧ (∀ c, rest.head? ≠ some (.completion c))
      ∧ b = parseBody (s.part.bufBytes it.buf) ∧ b.kind = kindPriceHead ∧ (b.payload.length ≠ 10 ∨ fieldAt b.payload
      4 2 = 0 ∨ 32768 < fieldAt b.payload 4 2 ∨ 1439 < fieldAt b.payload 8 2 ∨ fieldAt b.payload 0 4 ≤
      s.part.price.activeGen)) ∧
    (∃ (s : State) (it : RxItem) (rest : List Handed) (b : BranchBody), s.supply.takesEvents = true ∧
      s.part.pricingTakes = true ∧ s.part.price.inbox = .frame it :: rest ∧ (∀ c, rest.head? ≠ some (.completion c))
      ∧ b = parseBody (s.part.bufBytes it.buf) ∧ b.kind = kindPriceHead ∧ (b.payload.length ≠ 10 ∨ fieldAt b.payload
      4 2 = 0 ∨ 32768 < fieldAt b.payload 4 2 ∨ 1439 < fieldAt b.payload 8 2 ∨ fieldAt b.payload 0 4 ≤
      s.part.price.activeGen)) ∧
    (∃ (s : State) (it : RxItem) (rest : List Handed) (b : BranchBody), s.supply.takesEvents = true ∧
      s.part.pricingTakes = true ∧ s.part.price.inbox = .frame it :: rest ∧ (∀ c, rest.head? ≠ some (.completion c))
      ∧ b = parseBody (s.part.bufBytes it.buf) ∧ b.kind = kindPriceHead ∧ (b.payload.length ≠ 10 ∨ fieldAt b.payload
      4 2 = 0 ∨ 32768 < fieldAt b.payload 4 2 ∨ 1439 < fieldAt b.payload 8 2 ∨ fieldAt b.payload 0 4 ≤
      s.part.price.activeGen)) ∧
    (∃ (s : State) (it : RxItem) (rest : List Handed) (b : BranchBody), s.supply.takesEvents = true ∧
      s.part.pricingTakes = true ∧ s.part.price.inbox = .frame it :: rest ∧ (∀ c, rest.head? ≠ some (.completion c))
      ∧ b = parseBody (s.part.bufBytes it.buf) ∧ b.kind = kindPriceHead ∧ (b.payload.length ≠ 10 ∨ fieldAt b.payload
      4 2 = 0 ∨ 32768 < fieldAt b.payload 4 2 ∨ 1439 < fieldAt b.payload 8 2 ∨ fieldAt b.payload 0 4 ≤
      s.part.price.activeGen)) ∧
    (∃ (s : State) (it : RxItem) (rest : List Handed) (b : BranchBody), s.supply.takesEvents = true ∧
      s.part.pricingTakes = true ∧ s.part.price.inbox = .frame it :: rest ∧ (∀ c, rest.head? ≠ some (.completion c))
      ∧ b = parseBody (s.part.bufBytes it.buf) ∧ b.kind = kindPriceHead ∧ (b.payload.length ≠ 10 ∨ fieldAt b.payload
      4 2 = 0 ∨ 32768 < fieldAt b.payload 4 2 ∨ 1439 < fieldAt b.payload 8 2 ∨ fieldAt b.payload 0 4 ≤
      s.part.price.activeGen)) ∧
    (∃ (s : State) (it : RxItem) (rest : List Handed) (b : BranchBody), s.supply.takesEvents = true ∧
      s.part.recordsTake = true ∧ s.part.price.inbox = .frame it :: rest ∧ (∀ c, rest.head? ≠ some (.completion c)) ∧
      b = parseBody (s.part.bufBytes it.buf) ∧ b.kind = kindPricePart ∧ (fieldAt b.payload 0 4 ≠
      s.part.price.staging.generation ∨ b.payload.length ≠ 7 + 24 * fieldAt b.payload 6 1 ∨ fieldAt b.payload 6 1 = 0
      ∨ 42 < fieldAt b.payload 6 1 ∨ s.part.price.staging.state = .empty ∨ s.part.price.staging.state = .complete ∨
      s.part.price.staging.state = .activating)) ∧
    (∃ (s : State) (it : RxItem) (rest : List Handed) (b : BranchBody), s.supply.takesEvents = true ∧
      s.part.recordsTake = true ∧ s.part.price.inbox = .frame it :: rest ∧ (∀ c, rest.head? ≠ some (.completion c)) ∧
      b = parseBody (s.part.bufBytes it.buf) ∧ b.kind = kindPricePart ∧ (fieldAt b.payload 0 4 ≠
      s.part.price.staging.generation ∨ b.payload.length ≠ 7 + 24 * fieldAt b.payload 6 1 ∨ fieldAt b.payload 6 1 = 0
      ∨ 42 < fieldAt b.payload 6 1 ∨ s.part.price.staging.state = .empty ∨ s.part.price.staging.state = .complete ∨
      s.part.price.staging.state = .activating)) ∧
    (∃ (s : State) (it : RxItem) (rest : List Handed) (b : BranchBody), s.supply.takesEvents = true ∧
      s.part.recordsTake = true ∧ s.part.price.inbox = .frame it :: rest ∧ (∀ c, rest.head? ≠ some (.completion c)) ∧
      b = parseBody (s.part.bufBytes it.buf) ∧ b.kind = kindPricePart ∧ (fieldAt b.payload 0 4 ≠
      s.part.price.staging.generation ∨ b.payload.length ≠ 7 + 24 * fieldAt b.payload 6 1 ∨ fieldAt b.payload 6 1 = 0
      ∨ 42 < fieldAt b.payload 6 1 ∨ s.part.price.staging.state = .empty ∨ s.part.price.staging.state = .complete ∨
      s.part.price.staging.state = .activating)) ∧
    (∃ (s : State) (it : RxItem) (rest : List Handed) (b : BranchBody), ∃ n i bs, s.supply.takesEvents = true ∧
      s.part.recordsTake = true ∧ s.part.price.inbox = .frame it :: rest ∧ (∀ c, rest.head? ≠ some (.completion c)) ∧
      b = parseBody (s.part.bufBytes it.buf) ∧ b.kind = kindPricePart ∧ s.part.price.staging.generation = fieldAt
      b.payload 0 4 ∧ (s.part.price.staging.state = .receiving ∨ s.part.price.staging.state = .gaps) ∧
      s.part.price.staging.n = some n ∧ n ≤ 32768 ∧ fieldAt b.payload 4 2 = i ∧ i < n ∧ fieldAt b.payload 6 1 = 1 ∧
      b.payload.length = 31 ∧ bs = sub b.payload 7 24 ∧ crcGood bs = false) ∧
    (∃ (s : State) (it : RxItem) (rest : List Handed) (b : BranchBody), ∃ n i bs, ∃ j e, s.supply.takesEvents = true
      ∧ s.part.recordsTake = true ∧ s.part.price.inbox = .frame it :: rest ∧ (∀ c, rest.head? ≠ some (.completion c))
      ∧ b = parseBody (s.part.bufBytes it.buf) ∧ b.kind = kindPricePart ∧ s.part.price.staging.generation = fieldAt
      b.payload 0 4 ∧ (s.part.price.staging.state = .receiving ∨ s.part.price.staging.state = .gaps) ∧
      s.part.price.staging.n = some n ∧ n ≤ 32768 ∧ fieldAt b.payload 4 2 = i ∧ i < n ∧ fieldAt b.payload 6 1 = 1 ∧
      b.payload.length = 31 ∧ bs = sub b.payload 7 24 ∧ crcGood bs = true ∧ s.part.marked i = false ∧ j < n ∧ j ≠ i ∧
      s.part.marked j = false ∧ e = (parsePriceRecord bs).toEntry (crcField bs 22)) :=
  ⟨⟨run (priced kindPriceHead (be 4 1 ++ be 2 32768 ++ be 2 0 ++ be 2 1439) (part)), heardItem (be 4 1 ++ be 2 32768 ++ be 2 0 ++ be 2 1439), [], body kindPriceHead (be 4 1 ++ be 2 32768 ++ be 2 0 ++ be 2 1439), by (repeat' apply And.intro) <;> first | decide +kernel | (intro c h; cases h)⟩,
   ⟨run (priced kindPriceHead (be 4 1 ++ be 2 1 ++ be 2 65535 ++ be 2 0) (part)), heardItem (be 4 1 ++ be 2 1 ++ be 2 65535 ++ be 2 0), [], body kindPriceHead (be 4 1 ++ be 2 1 ++ be 2 65535 ++ be 2 0), by (repeat' apply And.intro) <;> first | decide +kernel | (intro c h; cases h)⟩,
   ⟨run (priced kindPriceHead [] (part)), heardItem [], [], body kindPriceHead [], by (repeat' apply And.intro) <;> first | decide +kernel | (intro c h; cases h)⟩,
   ⟨run (priced kindPriceHead (be 4 1 ++ be 2 0 ++ be 2 0 ++ be 2 0) (part)), heardItem (be 4 1 ++ be 2 0 ++ be 2 0 ++ be 2 0), [], body kindPriceHead (be 4 1 ++ be 2 0 ++ be 2 0 ++ be 2 0), by (repeat' apply And.intro) <;> first | decide +kernel | (intro c h; cases h)⟩,
   ⟨run (priced kindPriceHead (be 4 1 ++ be 2 32769 ++ be 2 0 ++ be 2 0) (part)), heardItem (be 4 1 ++ be 2 32769 ++ be 2 0 ++ be 2 0), [], body kindPriceHead (be 4 1 ++ be 2 32769 ++ be 2 0 ++ be 2 0), by (repeat' apply And.intro) <;> first | decide +kernel | (intro c h; cases h)⟩,
   ⟨run (priced kindPriceHead (be 4 1 ++ be 2 1 ++ be 2 0 ++ be 2 1440) (part)), heardItem (be 4 1 ++ be 2 1 ++ be 2 0 ++ be 2 1440), [], body kindPriceHead (be 4 1 ++ be 2 1 ++ be 2 0 ++ be 2 1440), by (repeat' apply And.intro) <;> first | decide +kernel | (intro c h; cases h)⟩,
   ⟨run (priced kindPriceHead (be 4 7 ++ be 2 1 ++ be 2 0 ++ be 2 0) ({ part with price := { activeGen := 7 } })), heardItem (be 4 7 ++ be 2 1 ++ be 2 0 ++ be 2 0), [], body kindPriceHead (be 4 7 ++ be 2 1 ++ be 2 0 ++ be 2 0), by (repeat' apply And.intro) <;> first | decide +kernel | (intro c h; cases h)⟩,
   ⟨run (priced kindPricePart (be 4 9 ++ be 2 0 ++ be 1 1 ++ priceRecord) (part)), heardItem (be 4 9 ++ be 2 0 ++ be 1 1 ++ priceRecord), [], body kindPricePart (be 4 9 ++ be 2 0 ++ be 1 1 ++ priceRecord), by (repeat' apply And.intro) <;> first | decide +kernel | (intro c h; cases h)⟩,
   ⟨run (priced kindPricePart (be 4 9 ++ be 2 0 ++ be 1 0 ++ []) (staged (stage .receiving (some 2)) part)), heardItem (be 4 9 ++ be 2 0 ++ be 1 0 ++ []), [], body kindPricePart (be 4 9 ++ be 2 0 ++ be 1 0 ++ []), by (repeat' apply And.intro) <;> first | decide +kernel | (intro c h; cases h)⟩,
   ⟨run (priced kindPricePart (be 4 9 ++ be 2 0 ++ be 1 43 ++ []) (staged (stage .receiving (some 2)) part)), heardItem (be 4 9 ++ be 2 0 ++ be 1 43 ++ []), [], body kindPricePart (be 4 9 ++ be 2 0 ++ be 1 43 ++ []), by (repeat' apply And.intro) <;> first | decide +kernel | (intro c h; cases h)⟩,
   ⟨run (priced kindPricePart (be 4 9 ++ be 2 1 ++ be 1 1 ++ List.replicate 24 0) (staged (stage .receiving (some 2)) part)), heardItem (be 4 9 ++ be 2 1 ++ be 1 1 ++ List.replicate 24 0), [], body kindPricePart (be 4 9 ++ be 2 1 ++ be 1 1 ++ List.replicate 24 0), 2, 1, List.replicate 24 0, by (repeat' apply And.intro) <;> first | decide +kernel | (intro c h; cases h)⟩,
   ⟨run (priced kindPricePart (be 4 9 ++ be 2 1 ++ be 1 1 ++ priceRecord) (staged (stage .receiving (some 2)) part)), heardItem (be 4 9 ++ be 2 1 ++ be 1 1 ++ priceRecord), [], body kindPricePart (be 4 9 ++ be 2 1 ++ be 1 1 ++ priceRecord), 2, 1, priceRecord, 0, (parsePriceRecord priceRecord).toEntry (crcField priceRecord 22), by (repeat' apply And.intro) <;> first | decide +kernel | (intro c h; cases h)⟩⟩

/-- A head of generation 12. -/
def newerHead : Bytes := be 4 12 ++ be 2 5 ++ be 2 3 ++ be 2 4

/-- A record every field of which is out of its range, but the item code. -/
def oddRecord : Bytes :=
  withCrc ({ code := 5, p := 16777215, kind := 9, ref := 9, promo := 1, value := 99, m := 1, c := 100000 } : PriceRecord).bytes

/-- A record whose item code is out of its range. -/
def codeless : Bytes := withCrc ({ code := 0, p := 199, kind := 0, ref := 0, promo := 0, value := 0, m := 0, c := 0 } : PriceRecord).bytes

theorem meets_HeadsAndPartsAreStaged_over :
    (∃ s : State, ∃ it rest b, s.supply.takesEvents = true ∧ s.part.pricingTakes = true ∧
      s.part.price.inbox = .frame it :: rest ∧ (∀ c, rest.head? ≠ some (.completion c)) ∧
      b = parseBody (s.part.bufBytes it.buf) ∧ b.kind = kindPriceHead ∧ b.payload.length = 10 ∧
      1 ≤ fieldAt b.payload 4 2 ∧ fieldAt b.payload 4 2 ≤ 32768 ∧ fieldAt b.payload 8 2 ≤ 1439 ∧
      s.part.price.activeGen < fieldAt b.payload 0 4 ∧ s.part.price.staging.state ≠ .empty ∧
      s.part.price.staging.generation < fieldAt b.payload 0 4 ∧ s.part.call.deferred = [] ∧
      s.part.price.staging.fetches ≠ [] ∧ s.part.hdr.inFlight = none) ∧
    (∃ s : State, ∃ it rest b, s.supply.takesEvents = true ∧ s.part.pricingTakes = true ∧
      s.part.price.inbox = .frame it :: rest ∧ (∀ c, rest.head? ≠ some (.completion c)) ∧
      b = parseBody (s.part.bufBytes it.buf) ∧ b.kind = kindPriceHead ∧ s.part.price.staging.state ≠ .empty ∧
      fieldAt b.payload 0 4 = s.part.price.staging.generation) ∧
    (∃ s : State, ∃ it rest b n i bs j e, s.supply.takesEvents = true ∧ s.part.recordsTake = true ∧
      s.part.price.inbox = .frame it :: rest ∧ (∀ c, rest.head? ≠ some (.completion c)) ∧
      b = parseBody (s.part.bufBytes it.buf) ∧ b.kind = kindPricePart ∧
      s.part.price.staging.generation = fieldAt b.payload 0 4 ∧
      (s.part.price.staging.state = .receiving ∨ s.part.price.staging.state = .gaps) ∧ s.part.price.staging.n = some n ∧
      n ≤ 32768 ∧ fieldAt b.payload 4 2 = i ∧ i < n ∧ fieldAt b.payload 6 1 = 1 ∧ b.payload.length = 31 ∧
      bs = sub b.payload 7 24 ∧ crcGood bs = true ∧ s.part.marked i = false ∧ j < n ∧ j ≠ i ∧ s.part.marked j = false ∧
      e = (parsePriceRecord bs).toEntry (crcField bs 22) ∧ e.valid = true ∧
      (parsePriceRecord bs).clamp ≠ parsePriceRecord bs) ∧
    (∃ s : State, ∃ it rest b n i bs j e, s.supply.takesEvents = true ∧ s.part.recordsTake = true ∧
      s.part.price.inbox = .frame it :: rest ∧ (∀ c, rest.head? ≠ some (.completion c)) ∧
      b = parseBody (s.part.bufBytes it.buf) ∧ b.kind = kindPricePart ∧
      s.part.price.staging.generation = fieldAt b.payload 0 4 ∧
      (s.part.price.staging.state = .receiving ∨ s.part.price.staging.state = .gaps) ∧ s.part.price.staging.n = some n ∧
      n ≤ 32768 ∧ fieldAt b.payload 4 2 = i ∧ i < n ∧ fieldAt b.payload 6 1 = 1 ∧ b.payload.length = 31 ∧
      bs = sub b.payload 7 24 ∧ crcGood bs = true ∧ s.part.marked i = false ∧ j < n ∧ j ≠ i ∧ s.part.marked j = false ∧
      e = (parsePriceRecord bs).toEntry (crcField bs 22) ∧ e.valid = false) ∧
    (∃ (r : PriceRecord) (crc : Nat) (e : BankEntry), e = r.toEntry crc ∧ r.code = 100000000000000) ∧
    (∃ (r : PriceRecord) (crc : Nat) (e : BankEntry), e = r.toEntry crc ∧ r.code = 99999999999999 ∧ r.promo = 3) ∧
    (∃ (r : PriceRecord) (crc : Nat) (e : BankEntry), e = r.toEntry crc ∧ r.code = 1 ∧ r.promo = 1 ∧ r.value = 1) ∧
    (∃ (r : PriceRecord) (crc : Nat) (e : BankEntry), e = r.toEntry crc ∧ r.code = 1 ∧ r.promo = 1 ∧ r.value = 0) ∧
    (∃ (r : PriceRecord) (crc : Nat) (e : BankEntry), e = r.toEntry crc ∧ r.code = 1 ∧ r.promo = 2 ∧ r.value = 2 ∧
      r.m = 1 ∧ r.kind = 4) ∧
    (∃ (r : PriceRecord) (crc : Nat) (e : BankEntry), e = r.toEntry crc ∧ r.code = 1 ∧ r.promo = 2 ∧ r.value = 1) :=
  ⟨⟨run (priced kindPriceHead newerHead { part with price := { staging := { stage .gaps (some 3) with fetches := [⟨9, 9, 0, 5, 5⟩] } }, call := { opens := [call .pricing (.fetch 9 0 5) .connected] } }), heardItem newerHead, [], body kindPriceHead newerHead, by (repeat' apply And.intro) <;> first | decide +kernel | (intro c h; cases h)⟩,
   ⟨run (priced kindPriceHead newerHead (staged { stage .gaps (some 3) with generation := 12 } part)), heardItem newerHead, [], body kindPriceHead newerHead, by (repeat' apply And.intro) <;> first | decide +kernel | (intro c h; cases h)⟩,
   ⟨run (priced kindPricePart (be 4 9 ++ be 2 1 ++ be 1 1 ++ oddRecord) (staged (stage .receiving (some 2)) part)), heardItem (be 4 9 ++ be 2 1 ++ be 1 1 ++ oddRecord), [], body kindPricePart (be 4 9 ++ be 2 1 ++ be 1 1 ++ oddRecord), 2, 1, oddRecord, 0, (parsePriceRecord oddRecord).toEntry (crcField oddRecord 22), by (repeat' apply And.intro) <;> first | decide +kernel | (intro c h; cases h)⟩,
   ⟨run (priced kindPricePart (be 4 9 ++ be 2 1 ++ be 1 1 ++ codeless) (staged (stage .gaps (some 2)) part)), heardItem (be 4 9 ++ be 2 1 ++ be 1 1 ++ codeless), [], body kindPricePart (be 4 9 ++ be 2 1 ++ be 1 1 ++ codeless), 2, 1, codeless, 0, (parsePriceRecord codeless).toEntry (crcField codeless 22), by (repeat' apply And.intro) <;> first | decide +kernel | (intro c h; cases h)⟩,
   ⟨⟨100000000000000, 0, 0, 0, 0, 0, 0, 0⟩, 7, _, rfl, rfl⟩,
   ⟨⟨99999999999999, 0, 0, 0, 3, 0, 0, 0⟩, 7, _, rfl, rfl, rfl⟩,
   ⟨⟨1, 0, 0, 0, 1, 1, 0, 0⟩, 7, _, rfl, rfl, rfl, rfl⟩,
   ⟨⟨1, 0, 0, 0, 1, 0, 0, 0⟩, 7, _, rfl, rfl, rfl, rfl⟩,
   ⟨⟨1, 0, 4, 0, 2, 2, 1, 0⟩, 7, _, rfl, rfl, rfl, rfl, rfl, rfl⟩,
   ⟨⟨1, 0, 0, 0, 2, 1, 0, 0⟩, 7, _, rfl, rfl, rfl, rfl⟩⟩

theorem meets_EndDecidesTheStaging :
    (∃ s : State, ∃ it rest b st n c, s.supply.takesEvents = true ∧ (∀ m, s.part.shown m = none) ∧
      s.part.call.deferred = [] ∧ s.part.hdr.inFlight = none ∧ s.part.pricingTakes = true ∧ s.part.price.inbox =
      .frame it :: rest ∧ (∀ x, rest.head? ≠ some (.completion x)) ∧ b = parseBody (s.part.bufBytes it.buf) ∧ b.kind
      = kindPriceEnd ∧ st = s.part.price.staging ∧ st.state = .receiving ∧ b.payload.length = 10 ∧ st.generation =
      fieldAt b.payload 0 4 ∧ n = fieldAt b.payload 4 2 ∧ c = fieldAt b.payload 6 4 ∧ st.n = some n ∧ s.part.mapFull
      n = false) ∧
    (∃ s : State, ∃ it rest b st n c, s.supply.takesEvents = true ∧ (∀ m, s.part.shown m = none) ∧
      s.part.call.deferred = [] ∧ s.part.hdr.inFlight = none ∧ s.part.pricingTakes = true ∧ s.part.price.inbox =
      .frame it :: rest ∧ (∀ x, rest.head? ≠ some (.completion x)) ∧ b = parseBody (s.part.bufBytes it.buf) ∧ b.kind
      = kindPriceEnd ∧ st = s.part.price.staging ∧ st.state = .receiving ∧ b.payload.length = 10 ∧ st.generation =
      fieldAt b.payload 0 4 ∧ n = fieldAt b.payload 4 2 ∧ c = fieldAt b.payload 6 4 ∧ st.n = some n ∧ s.part.mapFull
      n = true ∧ st.check = c ∧ s.part.triggerHolds = false) ∧
    (∃ s : State, ∃ it rest b st n c, s.supply.takesEvents = true ∧ (∀ m, s.part.shown m = none) ∧
      s.part.call.deferred = [] ∧ s.part.hdr.inFlight = none ∧ s.part.pricingTakes = true ∧ s.part.price.inbox =
      .frame it :: rest ∧ (∀ x, rest.head? ≠ some (.completion x)) ∧ b = parseBody (s.part.bufBytes it.buf) ∧ b.kind
      = kindPriceEnd ∧ st = s.part.price.staging ∧ st.state = .receiving ∧ b.payload.length = 10 ∧ st.generation =
      fieldAt b.payload 0 4 ∧ n = fieldAt b.payload 4 2 ∧ c = fieldAt b.payload 6 4 ∧ ((st.n = some n ∧
      s.part.mapFull n = true ∧ st.check ≠ c) ∨ (∃ k, st.n = some k ∧ k ≠ n)) ∧ st.n = some n) ∧
    (∃ s : State, ∃ it rest b st n c, s.supply.takesEvents = true ∧ (∀ m, s.part.shown m = none) ∧
      s.part.call.deferred = [] ∧ s.part.hdr.inFlight = none ∧ s.part.pricingTakes = true ∧ s.part.price.inbox =
      .frame it :: rest ∧ (∀ x, rest.head? ≠ some (.completion x)) ∧ b = parseBody (s.part.bufBytes it.buf) ∧ b.kind
      = kindPriceEnd ∧ st = s.part.price.staging ∧ st.state = .receiving ∧ b.payload.length = 10 ∧ st.generation =
      fieldAt b.payload 0 4 ∧ n = fieldAt b.payload 4 2 ∧ c = fieldAt b.payload 6 4 ∧ ((st.n = some n ∧
      s.part.mapFull n = true ∧ st.check ≠ c) ∨ (∃ k, st.n = some k ∧ k ≠ n)) ∧ st.n ≠ some n) ∧
    (∃ s : State, s.supply.takesEvents = true ∧ (∀ m, s.part.shown m = none) ∧ s.part.call.deferred = [] ∧
      s.part.hdr.inFlight = none ∧ s.part.price.pauseTimer = true ∧ s.part.price.staging.state = .receiving) ∧
    (∃ s : State, s.supply.takesEvents = true ∧ (∀ m, s.part.shown m = none) ∧ s.part.call.deferred = [] ∧
      s.part.hdr.inFlight = none ∧ s.part.price.recount = true) :=
  ⟨⟨run (priced kindPriceEnd (be 4 9 ++ be 2 2 ++ be 4 0) (staged (stage .receiving (some 2)) part)), heardItem (be 4 9 ++ be 2 2 ++ be 4 0), [], body kindPriceEnd (be 4 9 ++ be 2 2 ++ be 4 0), stage .receiving (some 2), 2, 0, by (repeat' apply And.intro) <;> first | decide +kernel | (intro c h; cases h)⟩,
   ⟨run (priced kindPriceEnd (be 4 9 ++ be 2 1 ++ be 4 6) ({ staged ({ stage .receiving (some 1) with effDay := 1, check := 6 }) part with dram := [(Config.mapBase, 1)] })), heardItem (be 4 9 ++ be 2 1 ++ be 4 6), [], body kindPriceEnd (be 4 9 ++ be 2 1 ++ be 4 6), { stage .receiving (some 1) with effDay := 1, check := 6 }, 1, 6, by (repeat' apply And.intro) <;> first | decide +kernel | (intro c h; cases h)⟩,
   ⟨run (priced kindPriceEnd (be 4 9 ++ be 2 1 ++ be 4 7) ({ staged ({ stage .receiving (some 1) with effDay := 1, check := 6 }) part with dram := [(Config.mapBase, 1)] })), heardItem (be 4 9 ++ be 2 1 ++ be 4 7), [], body kindPriceEnd (be 4 9 ++ be 2 1 ++ be 4 7), { stage .receiving (some 1) with effDay := 1, check := 6 }, 1, 7, by (repeat' apply And.intro) <;> first | decide +kernel | (intro c h; cases h) | exact Or.inl (by decide +kernel)⟩,
   ⟨run (priced kindPriceEnd (be 4 9 ++ be 2 2 ++ be 4 6) ({ staged ({ stage .receiving (some 1) with effDay := 1, check := 6 }) part with dram := [(Config.mapBase, 1)] })), heardItem (be 4 9 ++ be 2 2 ++ be 4 6), [], body kindPriceEnd (be 4 9 ++ be 2 2 ++ be 4 6), { stage .receiving (some 1) with effDay := 1, check := 6 }, 2, 6, by (repeat' apply And.intro) <;> first | decide +kernel | (intro c h; cases h) | exact Or.inr ⟨1, by decide, by decide⟩⟩,
   ⟨run ({ part with price := { pauseTimer := true, staging := stage .receiving (some 2) } }), by (repeat' apply And.intro) <;> decide +kernel⟩,
   ⟨run ({ part with price := { recount := true } }), by (repeat' apply And.intro) <;> decide +kernel⟩⟩

theorem meets_MissingRecordsAreFetched :
    (∃ (s : State) (st : Staging) (n : Nat) (src : StationNo), s.supply.takesEvents = true ∧ s.bufferFree ∧
      s.part.price.fetchTimer = true ∧ st = s.part.price.staging ∧ st.state = .gaps ∧ st.fetches = [] ∧ st.n = some n
      ∧ 1 ≤ n ∧ n ≤ 336 ∧ (∀ i, i < n → s.part.marked i = false) ∧ s.part.price.recount = false ∧ nextSource
      s.part.price.lastSource s.part.fetchSources = some src ∧ s.part.price.inbox = [] ∧ s.part.call.opens = [] ∧
      s.part.txEnabled = true) ∧
    (∃ (s : State) (st : Staging) (n : Nat) (src : StationNo), s.supply.takesEvents = true ∧ s.bufferFree ∧
      s.part.price.fetchTimer = true ∧ st = s.part.price.staging ∧ st.state = .gaps ∧ st.fetches = [] ∧ st.n = some n
      ∧ 1 ≤ n ∧ n ≤ 336 ∧ (∀ i, i < n → s.part.marked i = false) ∧ s.part.price.recount = false ∧ nextSource
      s.part.price.lastSource s.part.fetchSources = some src ∧ s.part.price.inbox = [] ∧ s.part.call.opens = [] ∧
      s.part.txEnabled = true) ∧
    (∃ (s : State) (buf : Buf) (peer : StationNo) (tag : Byte) (r : Request), s.supply.takesEvents = true ∧
      s.part.recordsTake = true ∧ s.part.price.inbox = [.data buf peer tag r] ∧ (∀ f ∈ s.part.price.staging.fetches,
      f.tag ≠ tag)) ∧
    (∃ (s : State) (buf : Buf) (peer : StationNo) (tag : Byte) (r : Request), ∃ f k, s.supply.takesEvents = true ∧
      s.part.recordsTake = true ∧ s.part.price.inbox = [.data buf peer tag r] ∧ s.part.price.staging.fetches = [f] ∧
      f.tag = tag ∧ f.generation = s.part.price.staging.generation ∧ s.part.price.staging.state ≠ .empty ∧
      s.part.price.staging.n = some k ∧ fieldAt (parseBody (s.part.bufBytes buf)).payload 4 2 ≠ k ∧ f.source ∉
      s.part.price.staging.skips) ∧
    (∃ (s : State) (buf : Buf) (peer : StationNo) (tag : Byte) (r : Request), ∃ f st b k i bs, s.supply.takesEvents =
      true ∧ s.part.recordsTake = true ∧ s.part.price.inbox = [.data buf peer tag r] ∧ st = s.part.price.staging ∧ b
      = (parseBody (s.part.bufBytes buf)).payload ∧ st.fetches = [f] ∧ f.tag = tag ∧ f.generation = st.generation ∧
      (st.state = .receiving ∨ st.state = .gaps) ∧ fieldAt b 4 2 = k ∧ (st.n = some k ∨ st.n = none) ∧ k ≤ 32768 ∧
      b.length = 30 ∧ fieldAt b 1 1 = 1 ∧ fieldAt b 2 2 = i ∧ i < k ∧ bs = sub b 6 24 ∧ crcGood bs = false) ∧
    (∃ (s : State) (buf : Buf) (peer : StationNo) (tag : Byte) (r : Request), ∃ f st b k i bs, s.supply.takesEvents =
      true ∧ s.part.recordsTake = true ∧ s.part.price.inbox = [.data buf peer tag r] ∧ st = s.part.price.staging ∧ b
      = (parseBody (s.part.bufBytes buf)).payload ∧ st.fetches = [f] ∧ f.tag = tag ∧ f.generation = st.generation ∧
      (st.state = .receiving ∨ st.state = .gaps) ∧ fieldAt b 4 2 = k ∧ (st.n = some k ∨ st.n = none) ∧ k ≤ 32768 ∧
      b.length = 30 ∧ fieldAt b 1 1 = 1 ∧ fieldAt b 2 2 = i ∧ i < k ∧ bs = sub b 6 24 ∧ crcGood bs = false) ∧
    (∃ (s : State) (buf : Buf) (peer : StationNo) (tag : Byte) (r : Request), ∃ f st b k i bs, ∃ j e,
      s.supply.takesEvents = true ∧ s.part.recordsTake = true ∧ s.part.price.inbox = [.data buf peer tag r] ∧ st =
      s.part.price.staging ∧ b = (parseBody (s.part.bufBytes buf)).payload ∧ st.fetches = [f] ∧ f.tag = tag ∧
      f.generation = st.generation ∧ (st.state = .receiving ∨ st.state = .gaps) ∧ fieldAt b 4 2 = k ∧ (st.n = some k
      ∨ st.n = none) ∧ k ≤ 32768 ∧ b.length = 30 ∧ fieldAt b 1 1 = 1 ∧ fieldAt b 2 2 = i ∧ i < k ∧ bs = sub b 6 24 ∧
      crcGood bs = true ∧ s.part.marked i = false ∧ j < k ∧ j ≠ i ∧ s.part.marked j = false ∧ e = (parsePriceRecord
      bs).toEntry (crcField bs 22)) :=
  ⟨⟨run ({ peers (shown 9 .none) part with price := { fetchTimer := true, staging := stage .gaps (some 1) } }), stage .gaps (some 1), 1, 5, by (repeat' apply And.intro) <;> decide +kernel⟩,
   ⟨run ({ peers (shown 9 .none) part with price := { fetchTimer := true, staging := stage .gaps (some 336) } }), stage .gaps (some 336), 336, 5, by (repeat' apply And.intro) <;> decide +kernel⟩,
   ⟨run ({ part with price := { staging := {}, inbox := [.data ⟨383, .plain, 0⟩ 5 9 (.fetch 9 0 336)] } }), ⟨383, .plain, 0⟩, 5, 9, .fetch 9 0 336, by (repeat' apply And.intro) <;> decide +kernel⟩,
   ⟨run ({ part with price := { staging := { stage .gaps (some 2) with fetches := [⟨9, 9, 0, 336, 5⟩] }, inbox := [.data ⟨383, .plain, 0⟩ 5 9 (.fetch 9 0 336)] } }), ⟨383, .plain, 0⟩, 5, 9, .fetch 9 0 336, ⟨9, 9, 0, 336, 5⟩, 2, by (repeat' apply And.intro) <;> decide +kernel⟩,
   ⟨run (stored (plainBody 2 kindData (be 1 9 ++ be 1 1 ++ be 2 1 ++ be 2 2 ++ List.replicate 24 0)) { part with price := { staging := { stage .gaps (some 2) with fetches := [⟨9, 9, 0, 336, 5⟩] }, inbox := [.data ⟨383, .plain, 33⟩ 5 9 (.fetch 9 0 336)] } }), ⟨383, .plain, 33⟩, 5, 9, .fetch 9 0 336, ⟨9, 9, 0, 336, 5⟩, { stage .gaps (some 2) with fetches := [⟨9, 9, 0, 336, 5⟩] }, (be 1 9 ++ be 1 1 ++ be 2 1 ++ be 2 2 ++ List.replicate 24 0), 2, 1, List.replicate 24 0, by (repeat' apply And.intro) <;> decide +kernel⟩,
   ⟨run (stored (plainBody 2 kindData (be 1 9 ++ be 1 1 ++ be 2 1 ++ be 2 2 ++ List.replicate 24 0)) { part with price := { staging := { stage .receiving none with fetches := [⟨9, 9, 0, 336, 5⟩] }, inbox := [.data ⟨383, .plain, 33⟩ 5 9 (.fetch 9 0 336)] } }), ⟨383, .plain, 33⟩, 5, 9, .fetch 9 0 336, ⟨9, 9, 0, 336, 5⟩, { stage .receiving none with fetches := [⟨9, 9, 0, 336, 5⟩] }, (be 1 9 ++ be 1 1 ++ be 2 1 ++ be 2 2 ++ List.replicate 24 0), 2, 1, List.replicate 24 0, by (repeat' apply And.intro) <;> decide +kernel⟩,
   ⟨run (stored (plainBody 2 kindData (be 1 9 ++ be 1 1 ++ be 2 1 ++ be 2 2 ++ priceRecord)) { part with price := { staging := { stage .gaps (some 2) with fetches := [⟨9, 9, 0, 336, 5⟩] }, inbox := [.data ⟨383, .plain, 33⟩ 5 9 (.fetch 9 0 336)] } }), ⟨383, .plain, 33⟩, 5, 9, .fetch 9 0 336, ⟨9, 9, 0, 336, 5⟩, { stage .gaps (some 2) with fetches := [⟨9, 9, 0, 336, 5⟩] }, (be 1 9 ++ be 1 1 ++ be 2 1 ++ be 2 2 ++ priceRecord), 2, 1, priceRecord, 0, (parsePriceRecord priceRecord).toEntry (crcField priceRecord 22), by (repeat' apply And.intro) <;> decide +kernel⟩⟩

/-- DATA of a fetch call with one record. -/
def fetched (n k : Nat) (r : Bytes) : Bytes := be 1 9 ++ be 1 1 ++ be 2 n ++ be 2 k ++ r

/-- DATA of the open fetch of the staging has reached the pricing unit. -/
def fetchedInto (st : Staging) (bs : Bytes) (p : Part) : Part :=
  stored (plainBody 2 kindData bs)
    { p with price := { staging := { st with fetches := [⟨9, 9, 0, 336, 5⟩] }, inbox := [.data ⟨383, .plain, 33⟩ 5 9 (.fetch 9 0 336)] } }

/-- A fetch of `n` records of generation 9 is open, `got` of them received, in a phase of its call. -/
def fetching (n got : Nat) (e : OpenState) (ph : Phase) : Part :=
  { part with
    price := { staging := { stage .gaps (some 2) with fetches := [⟨9, 9, 0, n, 5⟩] } }
    call := { opens := [{ call .pricing (.fetch 9 0 n) e with received := got }], conn := some (conn .caller ph (.fetch 9 0 n)) } }

theorem meets_MissingRecordsAreFetched_ended :
    (∃ s : State, ∃ buf peer tag r f st b k i bs, s.supply.takesEvents = true ∧ s.part.recordsTake = true ∧
      s.part.price.inbox = [.data buf peer tag r] ∧ st = s.part.price.staging ∧
      b = (parseBody (s.part.bufBytes buf)).payload ∧ st.fetches = [f] ∧ f.tag = tag ∧ f.generation = st.generation ∧
      (st.state = .receiving ∨ st.state = .gaps) ∧ fieldAt b 4 2 = k ∧ (st.n = some k ∨ st.n = none) ∧ k ≤ 32768 ∧
      b.length = 30 ∧ fieldAt b 1 1 = 1 ∧ fieldAt b 2 2 = i ∧ i < k ∧ bs = sub b 6 24 ∧ crcGood bs = false ∧ st.n = none ∧
      ∃ j, j < k ∧ s.part.marked j = false) ∧
    (∃ s : State, ∃ buf peer tag r f st b k i bs j e, s.supply.takesEvents = true ∧ s.part.recordsTake = true ∧
      s.part.price.inbox = [.data buf peer tag r] ∧ st = s.part.price.staging ∧
      b = (parseBody (s.part.bufBytes buf)).payload ∧ st.fetches = [f] ∧ f.tag = tag ∧ f.generation = st.generation ∧
      (st.state = .receiving ∨ st.state = .gaps) ∧ fieldAt b 4 2 = k ∧ (st.n = some k ∨ st.n = none) ∧ k ≤ 32768 ∧
      b.length = 30 ∧ fieldAt b 1 1 = 1 ∧ fieldAt b 2 2 = i ∧ i < k ∧ bs = sub b 6 24 ∧ crcGood bs = true ∧
      s.part.marked i = false ∧ j < k ∧ j ≠ i ∧ s.part.marked j = false ∧
      e = (parsePriceRecord bs).toEntry (crcField bs 22) ∧ e.valid = true ∧
      (parsePriceRecord bs).clamp ≠ parsePriceRecord bs) ∧
    (∃ s : State, ∃ buf peer tag r f st b k i bs, s.supply.takesEvents = true ∧ s.part.recordsTake = true ∧
      s.part.price.inbox = [.data buf peer tag r] ∧ st = s.part.price.staging ∧
      b = (parseBody (s.part.bufBytes buf)).payload ∧ st.fetches = [f] ∧ f.tag = tag ∧ f.generation = st.generation ∧
      (st.state = .receiving ∨ st.state = .gaps) ∧ fieldAt b 4 2 = k ∧ (st.n = some k ∨ st.n = none) ∧ k ≤ 32768 ∧
      b.length = 30 ∧ fieldAt b 1 1 = 1 ∧ fieldAt b 2 2 = i ∧ i < k ∧ bs = sub b 6 24 ∧ crcGood bs = true ∧ st.n = none ∧
      (∀ j, j < k → s.part.marked j = true) ∧ st.fileCheck = none ∧ s.part.call.deferred = [] ∧
      s.part.hdr.inFlight = none) ∧
    (∃ s : State, ∃ f e it b c x, s.supply.takesEvents = true ∧ s.part.price.staging.fetches = [f] ∧ f.tag = e.tag ∧
      s.part.call.opens = [e] ∧ e.owner = .pricing ∧ s.part.price.inbox = [] ∧ s.part.trk.inbox = [] ∧
      (∀ m, s.part.shown m = none) ∧ f.source ∉ s.part.price.staging.skips ∧
      s.part.branchFrame .calls kindEnd = some (it, b) ∧ s.part.call.conn = some c ∧ c.phase = .awaitData ∧
      c.peer = it.station ∧ c.tag = byteAt b.payload 0 ∧ e.tag = c.tag ∧ b.payload.length = c.request.endLength ∧
      x = (if fieldAt b.payload 1 2 = e.received then (if e.enough = true then CallEnd.endedEarly else .complete) else .broken) ∧
      x = .complete ∧ x.skips f.count e.received = true) ∧
    (∃ s : State, ∃ f e it b c x, s.supply.takesEvents = true ∧ s.part.price.staging.fetches = [f] ∧ f.tag = e.tag ∧
      s.part.call.opens = [e] ∧ e.owner = .pricing ∧ s.part.price.inbox = [] ∧ s.part.trk.inbox = [] ∧
      (∀ m, s.part.shown m = none) ∧ f.source ∉ s.part.price.staging.skips ∧
      s.part.branchFrame .calls kindEnd = some (it, b) ∧ s.part.call.conn = some c ∧ c.phase = .awaitData ∧
      c.peer = it.station ∧ c.tag = byteAt b.payload 0 ∧ e.tag = c.tag ∧ b.payload.length = c.request.endLength ∧
      x = (if fieldAt b.payload 1 2 = e.received then (if e.enough = true then CallEnd.endedEarly else .complete) else .broken) ∧
      x = .broken ∧ x.skips f.count e.received = false) ∧
    (∃ s : State, ∃ f e it b c v x, s.supply.takesEvents = true ∧ s.part.price.staging.fetches = [f] ∧ f.tag = e.tag ∧
      s.part.call.opens = [e] ∧ e.owner = .pricing ∧ s.part.price.inbox = [] ∧ s.part.trk.inbox = [] ∧
      (∀ m, s.part.shown m = none) ∧ f.source ∉ s.part.price.staging.skips ∧
      s.part.branchFrame .calls kindAnswer = some (it, b) ∧ s.part.call.conn = some c ∧ c.phase = .awaitAnswer ∧
      c.peer = it.station ∧ c.tag = byteAt b.payload 0 ∧ e.tag = c.tag ∧ parseVerdict b.payload = some v ∧ v = .busy ∧
      x = CallEnd.busy) ∧
    (∃ s : State, ∃ f e it b c v x r, s.supply.takesEvents = true ∧ s.part.price.staging.fetches = [f] ∧ f.tag = e.tag ∧
      s.part.call.opens = [e] ∧ e.owner = .pricing ∧ s.part.price.inbox = [] ∧ s.part.trk.inbox = [] ∧
      (∀ m, s.part.shown m = none) ∧ f.source ∉ s.part.price.staging.skips ∧
      s.part.branchFrame .calls kindAnswer = some (it, b) ∧ s.part.call.conn = some c ∧ c.phase = .awaitAnswer ∧
      c.peer = it.station ∧ c.tag = byteAt b.payload 0 ∧ e.tag = c.tag ∧ parseVerdict b.payload = some v ∧
      v = .refuse r ∧ x = CallEnd.refused r) ∧
    (∃ s : State, ∃ f e c x, s.supply.takesEvents = true ∧ s.part.price.staging.fetches = [f] ∧ f.tag = e.tag ∧
      s.part.call.opens = [e] ∧ e.owner = .pricing ∧ s.part.price.inbox = [] ∧ s.part.trk.inbox = [] ∧
      (∀ m, s.part.shown m = none) ∧ f.source ∉ s.part.price.staging.skips ∧ s.part.branch.turnGap = true ∧
      s.part.call.conn = some c ∧ e.tag = c.tag ∧ c.phase = .awaitAnswer ∧ x = CallEnd.noAnswer) ∧
    (∃ s : State, ∃ f e c x, s.supply.takesEvents = true ∧ s.part.price.staging.fetches = [f] ∧ f.tag = e.tag ∧
      s.part.call.opens = [e] ∧ e.owner = .pricing ∧ s.part.price.inbox = [] ∧ s.part.trk.inbox = [] ∧
      (∀ m, s.part.shown m = none) ∧ f.source ∉ s.part.price.staging.skips ∧ s.part.branch.turnGap = true ∧
      s.part.call.conn = some c ∧ e.tag = c.tag ∧ c.phase = .awaitData ∧ x = CallEnd.broken) ∧
    (∃ s : State, ∃ f e, s.supply.takesEvents = true ∧ s.part.price.staging.fetches = [f] ∧ f.tag = e.tag ∧
      s.part.call.opens = [e] ∧ e.owner = .pricing ∧ s.part.price.inbox = [] ∧ s.part.trk.inbox = [] ∧
      (∀ m, s.part.shown m = none) ∧ f.source ∉ s.part.price.staging.skips ∧ e.state = .waitingRecall ∧
      e.recallTimer = true) :=
  ⟨⟨run (fetchedInto (stage .receiving none) (fetched 1 2 (List.replicate 24 0)) part), ⟨383, .plain, 33⟩, 5, 9, .fetch 9 0 336, ⟨9, 9, 0, 336, 5⟩, { stage .receiving none with fetches := [⟨9, 9, 0, 336, 5⟩] }, fetched 1 2 (List.replicate 24 0), 2, 1, List.replicate 24 0, by (repeat' apply And.intro) <;> first | decide +kernel | exact ⟨0, by decide +kernel⟩⟩,
   ⟨run (fetchedInto (stage .receiving none) (fetched 1 2 oddRecord) part), ⟨383, .plain, 33⟩, 5, 9, .fetch 9 0 336, ⟨9, 9, 0, 336, 5⟩, { stage .receiving none with fetches := [⟨9, 9, 0, 336, 5⟩] }, fetched 1 2 oddRecord, 2, 1, oddRecord, 0, (parsePriceRecord oddRecord).toEntry (crcField oddRecord 22), by (repeat' apply And.intro) <;> decide +kernel⟩,
   ⟨run (fetchedInto (stage .receiving none) (fetched 0 1 priceRecord) { part with dram := [(Config.mapBase, 1)] }), ⟨383, .plain, 33⟩, 5, 9, .fetch 9 0 336, ⟨9, 9, 0, 336, 5⟩, { stage .receiving none with fetches := [⟨9, 9, 0, 336, 5⟩] }, fetched 0 1 priceRecord, 1, 0, priceRecord, by (repeat' apply And.intro) <;> decide +kernel⟩,
   ⟨run (heard .calls kindEnd (be 1 9 ++ be 2 3 ++ be 2 9) (fetching 5 3 .connected .awaitData)), ⟨9, 9, 0, 5, 5⟩, { call .pricing (.fetch 9 0 5) .connected with received := 3 }, heardItem (be 1 9 ++ be 2 3 ++ be 2 9), body kindEnd (be 1 9 ++ be 2 3 ++ be 2 9), conn .caller .awaitData (.fetch 9 0 5), .complete, by (repeat' apply And.intro) <;> decide +kernel⟩,
   ⟨run (heard .calls kindEnd (be 1 9 ++ be 2 4 ++ be 2 9) (fetching 5 3 .connected .awaitData)), ⟨9, 9, 0, 5, 5⟩, { call .pricing (.fetch 9 0 5) .connected with received := 3 }, heardItem (be 1 9 ++ be 2 4 ++ be 2 9), body kindEnd (be 1 9 ++ be 2 4 ++ be 2 9), conn .caller .awaitData (.fetch 9 0 5), .broken, by (repeat' apply And.intro) <;> decide +kernel⟩,
   ⟨run (heard .calls kindAnswer (be 1 9 ++ be 1 2 ++ be 1 0) (fetching 5 0 .connected .awaitAnswer)), ⟨9, 9, 0, 5, 5⟩, call .pricing (.fetch 9 0 5) .connected, heardItem (be 1 9 ++ be 1 2 ++ be 1 0), body kindAnswer (be 1 9 ++ be 1 2 ++ be 1 0), conn .caller .awaitAnswer (.fetch 9 0 5), .busy, .busy, by (repeat' apply And.intro) <;> decide +kernel⟩,
   ⟨run (heard .calls kindAnswer (be 1 9 ++ be 1 3 ++ be 1 5) (fetching 5 0 .connected .awaitAnswer)), ⟨9, 9, 0, 5, 5⟩, call .pricing (.fetch 9 0 5) .connected, heardItem (be 1 9 ++ be 1 3 ++ be 1 5), body kindAnswer (be 1 9 ++ be 1 3 ++ be 1 5), conn .caller .awaitAnswer (.fetch 9 0 5), .refuse (Reason.ofCode 5), .refused (Reason.ofCode 5), Reason.ofCode 5, by (repeat' apply And.intro) <;> decide +kernel⟩,
   ⟨run (gap (fetching 5 0 .connected .awaitAnswer)), ⟨9, 9, 0, 5, 5⟩, call .pricing (.fetch 9 0 5) .connected, conn .caller .awaitAnswer (.fetch 9 0 5), .noAnswer, by (repeat' apply And.intro) <;> decide +kernel⟩,
   ⟨run (gap (fetching 5 1 .connected .awaitData)), ⟨9, 9, 0, 5, 5⟩, { call .pricing (.fetch 9 0 5) .connected with received := 1 }, conn .caller .awaitData (.fetch 9 0 5), .broken, by (repeat' apply And.intro) <;> decide +kernel⟩,
   ⟨run (fetching 5 0 .waitingRecall .awaitAnswer), ⟨9, 9, 0, 5, 5⟩, call .pricing (.fetch 9 0 5) .waitingRecall, by (repeat' apply And.intro) <;> decide +kernel⟩⟩

theorem meets_ActivationWalksAndSwitches :
    (∃ s : State, s.supply.takesEvents = true ∧ s.part.price.trigger = .fired ∧ s.part.price.staging.state =
      .complete ∧ s.part.hdr.inFlight = none) ∧
    (∃ s : State, ∃ w, ∃ e n cur, s.supply.takesEvents = true ∧ s.arb.port = some (.burst .staging .mergeStep) ∧
      s.part.price.walk = some w ∧ w.ended = false ∧ w.index < 32768 ∧ s.part.goodEntry s.part.inactive w.index =
      some e ∧ e.valid = true ∧ s.part.marked w.index = true ∧ w.before < e.code ∧ s.part.price.staging.n = some n ∧
      w.index < n ∧ cur = s.part.cursorTo e.code s.part.price.activeCount w.cursor ∧ ∃ o, cur <
      s.part.price.activeCount ∧ s.part.goodEntry s.part.price.active cur = some o ∧ o.code = e.code ∧ o.charged <
      e.effective) ∧
    (∃ s : State, ∃ w, ∃ e n cur, s.supply.takesEvents = true ∧ s.arb.port = some (.burst .staging .mergeStep) ∧
      s.part.price.walk = some w ∧ w.ended = false ∧ w.index < 32768 ∧ s.part.goodEntry s.part.inactive w.index =
      some e ∧ e.valid = true ∧ s.part.marked w.index = true ∧ w.before < e.code ∧ s.part.price.staging.n = some n ∧
      w.index < n ∧ cur = s.part.cursorTo e.code s.part.price.activeCount w.cursor ∧ ¬ cur <
      s.part.price.activeCount) ∧
    (∃ s : State, ∃ w, s.supply.takesEvents = true ∧ s.arb.port = some (.burst .staging .mergeStep) ∧
      s.part.price.walk = some w ∧ w.ended = false ∧ w.index < 32768 ∧ (∀ e, s.part.goodEntry s.part.inactive w.index
      = some e → e.valid = false ∨ s.part.marked w.index = false ∨ e.code ≤ w.before) ∧ s.part.call.deferred = []) ∧
    (∃ s : State, ∃ w n, s.supply.takesEvents = true ∧ s.part.price.walk = some w ∧ w.ended = true ∧ s.part.asks.idle
      .staging = true ∧ s.part.price.staging.n = some n ∧ s.part.hdr.inFlight = none) ∧
    (∃ s : State, ∃ h holds g n, s.supply.takesEvents = true ∧ s.part.hdr.inFlight = some (h, [.pricing]) ∧
      s.part.hdr.finished = true ∧ s.part.hdr.waiting = [] ∧ s.part.price.switching = some holds ∧ g =
      s.part.price.staging.generation ∧ s.part.price.staging.n = some n ∧ s.part.price.events = [] ∧
      s.part.price.syncWaits = none ∧ s.part.pres.joining = .ready ∧ s.part.jrn.scan = none ∧ s.part.jrn.accepts
      [.priceActivated g s.part.price.activeGen n holds] = true ∧ s.part.lab.warm = .none ∧ (∀ i, i < 4096 →
      s.part.labelAt i = none)) :=
  ⟨⟨run ({ part with price := { trigger := .fired, staging := stage .complete (some 2) } }), by (repeat' apply And.intro) <;> decide +kernel⟩,
   ⟨{ run (merging (some milk) dear) with arb := { port := some (.burst .staging .mergeStep) } }, ⟨0, 0, 0, 0, false⟩, dear, 2, 0, by (repeat' apply And.intro) <;> first | decide +kernel | exact ⟨milk, by decide +kernel, by decide +kernel, by decide +kernel, by decide +kernel⟩⟩,
   ⟨{ run (merging none dear) with arb := { port := some (.burst .staging .mergeStep) } }, ⟨0, 0, 0, 0, false⟩, dear, 2, 0, by (repeat' apply And.intro) <;> decide +kernel⟩,
   ⟨{ run { part with price := { walk := some ⟨0, 0, 0, 0, false⟩, staging := stage .activating (some 2) } } with arb := { port := some (.burst .staging .mergeStep) } }, ⟨0, 0, 0, 0, false⟩, by (repeat' apply And.intro) <;> first | decide +kernel | (intro e he; have h0 : ({ run { part with price := { walk := some ⟨0, 0, 0, 0, false⟩, staging := stage .activating (some 2) } } with arb := { port := some (.burst .staging .mergeStep) } } : State).part.goodEntry .b 0 = none := (by decide +kernel); rw [h0] at he; cases he)⟩,
   ⟨run ({ part with price := { walk := some ⟨2, 0, 0, 1, true⟩, staging := stage .activating (some 2) } }), ⟨2, 0, 0, 1, true⟩, 2, by (repeat' apply And.intro) <;> decide +kernel⟩,
   ⟨run ({ part with price := { switching := some 1, staging := stage .activating (some 2) }, hdr := { inFlight := some ({}, [.pricing]), finished := true } }), {}, 1, 9, 2, by (repeat' apply And.intro) <;> first | (intro i hi; exact labelAt_none _ _ (by intro c hc; cases hc)) | decide +kernel⟩⟩

theorem meets_HoldsAreCountedAndReleased :
    (∃ (s : State) (item i : Nat) (e : BankEntry), s.supply.takesEvents = true ∧ (s.part.find item).1 = .entry i e ∧
      i < 32768 ∧ s.part.price.events = [.notCurrent item] ∧ e.count < 4096) ∧
    (∃ (s : State) (item i : Nat) (e : BankEntry), s.supply.takesEvents = true ∧ (s.part.find item).1 = .entry i e ∧
      i < 32768 ∧ s.part.price.events = [.current item] ∧ e.count = 0) ∧
    (∃ (s : State) (item i : Nat) (e : BankEntry), s.supply.takesEvents = true ∧ (s.part.find item).1 = .entry i e ∧
      i < 32768 ∧ s.part.price.events = [.current item] ∧ 1 ≤ e.count) ∧
    (∃ (s : State) (item i : Nat) (e : BankEntry), s.supply.takesEvents = true ∧ (s.part.find item).1 = .entry i e ∧
      i < 32768 ∧ s.part.price.events = [.current item] ∧ 1 ≤ e.count) ∧
    (∃ s : State, s.supply.takesEvents = true ∧ s.part.pres.clock.valid = true ∧ s.part.price.sweepDue = true ∧
      s.part.price.sweep = none ∧ s.part.price.activeCount = 0) ∧
    (∃ s : State, s.supply.takesEvents = true ∧ s.part.pres.clock.valid = true ∧ s.part.price.sweepDue = true ∧
      s.part.price.sweep = none ∧ s.part.price.activeCount ≠ 0) ∧
    (∃ (s : State) (i : Nat) (next : Option Nat) (cfg : ConfigBlock) (c : Clock), s.supply.takesEvents = true ∧
      s.arb.port = some (.burst .bank .sweepStep) ∧ s.part.price.sweep = some i ∧ i < 32768 ∧ s.part.cfg = some cfg ∧
      c = s.part.pres.clock ∧ next = (if i + 1 < s.part.price.activeCount then some (i + 1) else none) ∧ (∀ e,
      s.part.goodEntry s.part.price.active i = some e → e.valid = false ∨ e.hold = false)) ∧
    (∃ (s : State) (i : Nat) (next : Option Nat) (cfg : ConfigBlock) (c : Clock), ∃ e, s.supply.takesEvents = true ∧
      s.arb.port = some (.burst .bank .sweepStep) ∧ s.part.price.sweep = some i ∧ i < 32768 ∧ s.part.cfg = some cfg ∧
      c = s.part.pres.clock ∧ next = (if i + 1 < s.part.price.activeCount then some (i + 1) else none) ∧
      s.part.goodEntry s.part.price.active i = some e ∧ e.valid = true ∧ e.hold = true ∧ e.startKnown = false) ∧
    (∃ (s : State) (i : Nat) (next : Option Nat) (cfg : ConfigBlock) (c : Clock), ∃ e, s.supply.takesEvents = true ∧
      s.arb.port = some (.burst .bank .sweepStep) ∧ s.part.price.sweep = some i ∧ i < 32768 ∧ s.part.cfg = some cfg ∧
      c = s.part.pres.clock ∧ next = (if i + 1 < s.part.price.activeCount then some (i + 1) else none) ∧
      s.part.goodEntry s.part.price.active i = some e ∧ e.valid = true ∧ e.hold = true ∧ e.startKnown = true ∧
      e.startDay * 1440 + e.startMinute + cfg.holdLimit * 60 ≤ c.day * 1440 + c.minute ∧ s.part.jrn.scan = none ∧
      s.part.jrn.accepts [.holdReleased e.code e.held e.count] = true) ∧
    (∃ (s : State) (i : Nat) (next : Option Nat) (cfg : ConfigBlock) (c : Clock), ∃ e, s.supply.takesEvents = true ∧
      s.arb.port = some (.burst .bank .sweepStep) ∧ s.part.price.sweep = some i ∧ i < 32768 ∧ s.part.cfg = some cfg ∧
      c = s.part.pres.clock ∧ next = (if i + 1 < s.part.price.activeCount then some (i + 1) else none) ∧
      s.part.goodEntry s.part.price.active i = some e ∧ e.valid = true ∧ e.hold = true ∧ e.startKnown = true ∧ c.day
      * 1440 + c.minute < e.startDay * 1440 + e.startMinute + cfg.holdLimit * 60) :=
  ⟨⟨run ({ selling ({ milk with count := 4095 }) part with price := { activeCount := 1, activeGen := 7, events := [.notCurrent 5] } }), 5, 0, { milk with count := 4095 }, by (repeat' apply And.intro) <;> decide +kernel⟩,
   ⟨run ({ selling ({ milk with count := 0 }) part with price := { activeCount := 1, activeGen := 7, events := [.current 5] } }), 5, 0, { milk with count := 0 }, by (repeat' apply And.intro) <;> decide +kernel⟩,
   ⟨run ({ selling (milk) part with price := { activeCount := 1, activeGen := 7, events := [.current 5] } }), 5, 0, milk, by (repeat' apply And.intro) <;> decide +kernel⟩,
   ⟨run ({ selling ({ milk with count := 4096 }) part with price := { activeCount := 1, activeGen := 7, events := [.current 5] } }), 5, 0, { milk with count := 4096 }, by (repeat' apply And.intro) <;> decide +kernel⟩,
   ⟨run (clock 0 0 0 { part with price := { sweepDue := true } }), by (repeat' apply And.intro) <;> decide +kernel⟩,
   ⟨run (clock 0 0 0 { part with price := { activeCount := 1, sweepDue := true } }), by (repeat' apply And.intro) <;> decide +kernel⟩,
   ⟨{ run (clock 0 0 0 { part with price := { activeCount := 1, sweep := some 0 } }) with arb := { port := some (.burst .bank .sweepStep) } }, 0, none, conf, ⟨true, 0, 0, 0⟩, by (repeat' apply And.intro) <;> first | decide +kernel | (intro e he; have h0 : ({ run (clock 0 0 0 { part with price := { activeCount := 1, sweep := some 0 } }) with arb := { port := some (.burst .bank .sweepStep) } } : State).part.goodEntry .a 0 = none := (by decide +kernel); rw [h0] at he; cases he)⟩,
   ⟨{ run (clock 0 0 0 { selling ({ milk with startKnown := false }) part with price := { activeCount := 1, sweep := some 0 } }) with arb := { port := some (.burst .bank .sweepStep) } }, 0, none, conf, ⟨true, 0, 0, 0⟩, { milk with startKnown := false }, by (repeat' apply And.intro) <;> decide +kernel⟩,
   ⟨{ run (clock 4 10 0 { selling (milk) part with price := { activeCount := 1, sweep := some 0 } }) with arb := { port := some (.burst .bank .sweepStep) } }, 0, none, conf, ⟨true, 4, 10, 0⟩, milk, by (repeat' apply And.intro) <;> decide +kernel⟩,
   ⟨{ run (clock 4 9 59 { selling (milk) part with price := { activeCount := 1, sweep := some 0 } }) with arb := { port := some (.burst .bank .sweepStep) } }, 0, none, conf, ⟨true, 4, 9, 59⟩, milk, by (repeat' apply And.intro) <;> decide +kernel⟩⟩

theorem meets_TillFrameIsTaken :
    (∃ (s : State) (n : PortNo) (chars bs : Bytes) (x : Port), s.supply.takesEvents = true ∧ x = s.part.port n ∧
      x.held = false ∧ gather (some []) 0 chars = (0, some bs) ∧ crcGood bs = false) ∧
    (∃ (s : State) (n : PortNo) (chars bs : Bytes) (x : Port), s.supply.takesEvents = true ∧ x = s.part.port n ∧
      x.held = false ∧ gather (some []) 0 chars = (0, some bs) ∧ crcGood bs = true ∧ (bs.length < 4 ∨ ∃ k,
      TillKind.ofCode (byteAt bs 1).toNat = some k ∧ bs.length ≠ 4 + k.bodyLength) ∧ bs.length = 3) ∧
    (∃ (s : State) (n : PortNo) (chars bs : Bytes) (x : Port), s.supply.takesEvents = true ∧ x = s.part.port n ∧
      x.held = false ∧ gather (some []) 0 chars = (0, some bs) ∧ crcGood bs = true ∧ (bs.length < 4 ∨ ∃ k,
      TillKind.ofCode (byteAt bs 1).toNat = some k ∧ bs.length ≠ 4 + k.bodyLength) ∧ bs.length = 5) ∧
    (∃ (s : State) (n : PortNo) (chars bs : Bytes) (x : Port), s.supply.takesEvents = true ∧ x = s.part.port n ∧
      x.held = false ∧ gather (some []) 0 chars = (0, some bs) ∧ crcGood bs = true ∧ contentFits bs = true ∧
      (s.part.serving = .noReply ∨ s.part.portEnabled n = false) ∧ s.part.serving = .noReply) ∧
    (∃ (s : State) (n : PortNo) (chars bs : Bytes) (x : Port), s.supply.takesEvents = true ∧ x = s.part.port n ∧
      x.held = false ∧ gather (some []) 0 chars = (0, some bs) ∧ crcGood bs = true ∧ contentFits bs = true ∧
      (s.part.serving = .noReply ∨ s.part.portEnabled n = false) ∧ s.part.portEnabled n = false) ∧
    (∃ (s : State) (n : PortNo) (chars bs : Bytes) (x : Port), ∃ (y : Port), s.supply.takesEvents = true ∧ x =
      s.part.port n ∧ x.held = false ∧ gather (some []) 0 chars = (0, some bs) ∧ crcGood bs = true ∧ contentFits bs =
      true ∧ s.part.serving ≠ .noReply ∧ s.part.portEnabled n = true ∧ y =
      { x with ignoring := false, ctr := { x.ctr with good := bump x.ctr.good }, silence := true, grace := false, state := if x.state = .offline then (if x.sale.isSome = true then .inSale else .idle) else x.state }
      ∧ x.req = none ∧ x.out = none ∧ x.busy = [] ∧ (∀ l, x.last = some l → ¬ (l.seq = byteAt bs 0 ∧ l.kind = byteAt
      bs 1)) ∧ TillKind.ofCode (byteAt bs 1).toNat ≠ none) ∧
    (∃ (s : State) (n : PortNo) (chars bs : Bytes) (x : Port), ∃ (y : Port), ∃ l, s.supply.takesEvents = true ∧ x =
      s.part.port n ∧ x.held = false ∧ gather (some []) 0 chars = (0, some bs) ∧ crcGood bs = true ∧ contentFits bs =
      true ∧ s.part.serving ≠ .noReply ∧ s.part.portEnabled n = true ∧ y =
      { x with ignoring := false, ctr := { x.ctr with good := bump x.ctr.good }, silence := true, grace := false, state := if x.state = .offline then (if x.sale.isSome = true then .inSale else .idle) else x.state }
      ∧ x.req = none ∧ x.out = none ∧ x.busy = [] ∧ x.last = some l ∧ l.seq = byteAt bs 0 ∧ l.kind = byteAt bs 1) ∧
    (∃ (s : State) (n : PortNo) (chars bs : Bytes) (x : Port), ∃ (y : Port), s.supply.takesEvents = true ∧ x =
      s.part.port n ∧ x.held = false ∧ gather (some []) 0 chars = (0, some bs) ∧ crcGood bs = true ∧ contentFits bs =
      true ∧ s.part.serving ≠ .noReply ∧ s.part.portEnabled n = true ∧ y =
      { x with ignoring := false, ctr := { x.ctr with good := bump x.ctr.good }, silence := true, grace := false, state := if x.state = .offline then (if x.sale.isSome = true then .inSale else .idle) else x.state }
      ∧ (x.req ≠ none ∨ x.out ≠ none ∨ x.busy ≠ []) ∧ x.busy.length < 4) ∧
    (∃ (s : State) (n : PortNo) (chars bs : Bytes) (x : Port), ∃ (y : Port), s.supply.takesEvents = true ∧ x =
      s.part.port n ∧ x.held = false ∧ gather (some []) 0 chars = (0, some bs) ∧ crcGood bs = true ∧ contentFits bs =
      true ∧ s.part.serving ≠ .noReply ∧ s.part.portEnabled n = true ∧ y =
      { x with ignoring := false, ctr := { x.ctr with good := bump x.ctr.good }, silence := true, grace := false, state := if x.state = .offline then (if x.sale.isSome = true then .inSale else .idle) else x.state }
      ∧ 4 ≤ x.busy.length) :=
  ⟨⟨run (part), 0, escape [0, 1], [0, 1], {}, by (repeat' apply And.intro) <;> decide +kernel⟩,
   ⟨run (part), 0, escape (withCrc [1]), (withCrc [1]), {}, by (repeat' apply And.intro) <;> first | decide +kernel | exact Or.inl (by decide)⟩,
   ⟨run (part), 0, escape (withCrc [1, 8, 0]), (withCrc [1, 8, 0]), {}, by (repeat' apply And.intro) <;> first | decide +kernel | exact Or.inr ⟨.status, by decide, by decide⟩⟩,
   ⟨run ({ cfg := some conf }), 0, escape (withCrc [1, 8]), (withCrc [1, 8]), {}, by (repeat' apply And.intro) <;> decide +kernel⟩,
   ⟨run ({ part with cfg := some { conf with enableMask := 0xFE } }), 0, escape (withCrc [1, 8]), (withCrc [1, 8]), {}, by (repeat' apply And.intro) <;> decide +kernel⟩,
   ⟨run (part), 0, escape (withCrc [1, 8]), (withCrc [1, 8]), {}, { state := .idle, silence := true, ctr := { good := 1 } }, by (repeat' apply And.intro) <;> first | decide +kernel | (intro l hl; cases hl)⟩,
   ⟨run (port { last := some ⟨1, 8, []⟩ } part), 0, escape (withCrc [1, 8]), (withCrc [1, 8]), { last := some ⟨1, 8, []⟩ }, { state := .idle, silence := true, ctr := { good := 1 }, last := some ⟨1, 8, []⟩ }, ⟨1, 8, []⟩, by (repeat' apply And.intro) <;> decide +kernel⟩,
   ⟨run (port { out := some [2], busy := [[2], [2], [2]] } part), 0, escape (withCrc [1, 8]), (withCrc [1, 8]), { out := some [2], busy := [[2], [2], [2]] }, { state := .idle, silence := true, ctr := { good := 1 }, out := some [2], busy := [[2], [2], [2]] }, by (repeat' apply And.intro) <;> decide +kernel⟩,
   ⟨run (port { busy := [[2], [2], [2], [2]] } part), 0, escape (withCrc [1, 8]), (withCrc [1, 8]), { busy := [[2], [2], [2], [2]] }, { state := .idle, silence := true, ctr := { good := 1 }, busy := [[2], [2], [2], [2]] }, by (repeat' apply And.intro) <;> decide +kernel⟩⟩

theorem meets_TillLineAndTimers :
    (∃ (s : State) (n : PortNo) (x : Port), ∃ (stx : Bool), s.supply.takesEvents = true ∧ x = s.part.port n ∧ x.held
      = false) ∧
    (∃ (s : State) (n : PortNo) (x : Port), ∃ framing, s.supply.takesEvents = true ∧ x = s.part.port n ∧
      s.part.portEnabled n = true ∧ framing = (if x.errCounted = true then x.ctr.framing - 1 else x.ctr.framing) ∧
      x.working = false ∧ x.sale = none) ∧
    (∃ (s : State) (n : PortNo) (x : Port), ∃ framing, ∃ y, s.supply.takesEvents = true ∧ x = s.part.port n ∧
      s.part.portEnabled n = true ∧ framing = (if x.errCounted = true then x.ctr.framing - 1 else x.ctr.framing) ∧
      x.working = false ∧ x.sale = some y ∧ s.part.jrn.scan = none ∧ s.part.jrn.accepts [.saleAbandon y.number
      .tillRestart y.running y.tenders false] = true) ∧
    (∃ (s : State) (n : PortNo) (x : Port), ∃ framing, s.supply.takesEvents = true ∧ x = s.part.port n ∧
      s.part.portEnabled n = true ∧ framing = (if x.errCounted = true then x.ctr.framing - 1 else x.ctr.framing) ∧
      x.working = false ∧ x.state ≠ .offline) ∧
    (∃ (s : State) (n : PortNo) (x : Port), ∃ framing, s.supply.takesEvents = true ∧ x = s.part.port n ∧
      s.part.portEnabled n = true ∧ framing = (if x.errCounted = true then x.ctr.framing - 1 else x.ctr.framing) ∧
      x.state = .offline) ∧
    (∃ (s : State) (n : PortNo) (x : Port), ∃ framing, s.supply.takesEvents = true ∧ x = s.part.port n ∧
      s.part.portEnabled n = true ∧ framing = (if x.errCounted = true then x.ctr.framing - 1 else x.ctr.framing) ∧
      x.state = .offline) ∧
    (∃ (s : State) (n : PortNo) (x : Port), ∃ framing, s.supply.takesEvents = true ∧ x = s.part.port n ∧
      s.part.portEnabled n = true ∧ framing = (if x.errCounted = true then x.ctr.framing - 1 else x.ctr.framing) ∧
      x.working = true ∧ x.state ≠ .offline) ∧
    (∃ (s : State) (n : PortNo) (x : Port), s.supply.takesEvents = true ∧ x = s.part.port n ∧ x.silence = true ∧
      x.state ≠ .offline) ∧
    (∃ (s : State) (n : PortNo) (x : Port), ∃ y, s.supply.takesEvents = true ∧ x = s.part.port n ∧ x.grace = true ∧
      x.state = .offline ∧ x.sale = some y ∧ s.part.jrn.scan = none ∧ s.part.jrn.accepts [.saleAbandon y.number
      .tillLost y.running y.tenders false] = true) ∧
    (∃ (s : State) (n : PortNo) (x : Port), ∃ o, s.supply.takesEvents = true ∧ x = s.part.port n ∧ x.out = some o ∧
      x.outBusy = false ∧ x.busy = []) ∧
    (∃ (s : State) (n : PortNo) (x : Port), ∃ o, s.supply.takesEvents = true ∧ x = s.part.port n ∧ x.out = some o ∧
      x.outBusy = false ∧ x.busy ≠ []) :=
  ⟨⟨run (part), 7, {}, true, by (repeat' apply And.intro) <;> decide +kernel⟩,
   ⟨run (part), 0, {}, 0, by (repeat' apply And.intro) <;> decide +kernel⟩,
   ⟨run (port { state := .inSale, sale := some sale, silence := true } part), 0, { state := .inSale, sale := some sale, silence := true }, 0, sale, by (repeat' apply And.intro) <;> decide +kernel⟩,
   ⟨run (port { state := .inSale, sale := some sale, silence := true } part), 0, { state := .inSale, sale := some sale, silence := true }, 0, by (repeat' apply And.intro) <;> decide +kernel⟩,
   ⟨run (port { req := some (request 8 []), errCounted := true, ctr := { framing := 3 } } part), 0, { req := some (request 8 []), errCounted := true, ctr := { framing := 3 } }, 2, by (repeat' apply And.intro) <;> decide +kernel⟩,
   ⟨run (port { sale := some sale, grace := true } part), 0, { sale := some sale, grace := true }, 0, by (repeat' apply And.intro) <;> decide +kernel⟩,
   ⟨run (port { state := .idle, req := some (request 8 []), errCounted := true } part), 0, { state := .idle, req := some (request 8 []), errCounted := true }, 0, by (repeat' apply And.intro) <;> decide +kernel⟩,
   ⟨run (port { state := .inSale, sale := some sale, silence := true } part), 0, { state := .inSale, sale := some sale, silence := true }, by (repeat' apply And.intro) <;> decide +kernel⟩,
   ⟨run (port { sale := some sale, grace := true } part), 0, { sale := some sale, grace := true }, sale, by (repeat' apply And.intro) <;> decide +kernel⟩,
   ⟨run (port { out := some [2] } part), 0, { out := some [2] }, [2], by (repeat' apply And.intro) <;> decide +kernel⟩,
   ⟨run (port { out := some [2], busy := [[3]] } part), 0, { out := some [2], busy := [[3]] }, [2], by (repeat' apply And.intro) <;> decide +kernel⟩⟩

theorem meets_LinesAreSoldAndVoided :
    (∃ (s : State) (n : PortNo) (r : TillRequest) (x : Sale), ∃ y, (s.part.port n).sale = some x ∧ s.part.jrn.scan =
      none ∧ s.asked n r .line ∧ s.part.serving ≠ .none ∧ itemFieldsFit r.body = true ∧ x.lines.length < 500 ∧ y =
      s.part.beginSearch (fieldAt r.body 0 6) ∧ y.reads = true) ∧
    (∃ (s : State) (n : PortNo) (r : TillRequest) (x : Sale), ∃ y, (s.part.port n).sale = some x ∧ s.part.jrn.scan =
      none ∧ s.asked n r .line ∧ s.part.serving ≠ .none ∧ itemFieldsFit r.body = true ∧ x.lines.length < 500 ∧ y =
      s.part.beginSearch (fieldAt r.body 0 6) ∧ y.reads = false) ∧
    (∃ (s : State) (n : PortNo) (r : TillRequest) (x : Sale), ∃ y code q e charged a, ∃ (x' : Sale) (rec : List
      Content), (s.part.port n).sale = some x ∧ s.part.jrn.scan = none ∧ s.looks n r .line y ∧ s.part.middle y = some
      e ∧ e.code = y.code ∧ e.valid = true ∧ code = fieldAt r.body 0 6 ∧ q = fieldAt r.body 6 3 ∧ e.lineAmount q =
      .amount charged a ∧ x.running + a ≤ 999999999 ∧ e.promo ≠ 2 ∧ rec = [Content.item x.number (x.lines.length + 1)
      code q charged a s.part.price.activeGen ⟨e.hold, false, s.part.staleServed⟩] ∧ x' =
      { x with lines := x.lines ++ [⟨code, q, charged, a, false, false⟩], running := x.running + a } ∧
      s.part.jrn.accepts rec = true) ∧
    (∃ (s : State) (n : PortNo) (r : TillRequest) (x : Sale), ∃ y code q e charged a, ∃ (x' : Sale) (rec : List
      Content), (s.part.port n).sale = some x ∧ s.part.jrn.scan = none ∧ s.looks n r .line y ∧ s.part.middle y = some
      e ∧ e.code = y.code ∧ e.valid = true ∧ code = fieldAt r.body 0 6 ∧ q = fieldAt r.body 6 3 ∧ e.lineAmount q =
      .amount charged a ∧ x.running + a ≤ 999999999 ∧ e.promo ≠ 2 ∧ rec = [Content.item x.number (x.lines.length + 1)
      code q charged a s.part.price.activeGen ⟨e.hold, false, s.part.staleServed⟩] ∧ x' =
      { x with lines := x.lines ++ [⟨code, q, charged, a, false, false⟩], running := x.running + a } ∧
      s.part.jrn.accepts rec = true) ∧
    (∃ (s : State) (n : PortNo) (r : TillRequest) (x : Sale), ∃ y code q e charged a, ∃ (x' : Sale) (rec : List
      Content), (s.part.port n).sale = some x ∧ s.part.jrn.scan = none ∧ s.looks n r .line y ∧ s.part.middle y = some
      e ∧ e.code = y.code ∧ e.valid = true ∧ code = fieldAt r.body 0 6 ∧ q = fieldAt r.body 6 3 ∧ e.lineAmount q =
      .amount charged a ∧ x.running + a ≤ 999999999 ∧ e.promo ≠ 2 ∧ rec = [Content.item x.number (x.lines.length + 1)
      code q charged a s.part.price.activeGen ⟨e.hold, false, s.part.staleServed⟩] ∧ x' =
      { x with lines := x.lines ++ [⟨code, q, charged, a, false, false⟩], running := x.running + a } ∧
      s.part.jrn.accepts rec = false) ∧
    (∃ (s : State) (n : PortNo) (r : TillRequest) (x : Sale), ∃ y code q e charged a, ∃ (g d : Nat) (x' : Sale) (rec
      : List Content), (s.part.port n).sale = some x ∧ s.part.jrn.scan = none ∧ s.looks n r .line y ∧ s.part.middle y
      = some e ∧ e.code = y.code ∧ e.valid = true ∧ code = fieldAt r.body 0 6 ∧ q = fieldAt r.body 6 3 ∧ e.lineAmount
      q = .amount charged a ∧ x.running + a ≤ 999999999 ∧ e.promo = 2 ∧ x.tally = [] ∧ g = q / e.value ∧ d = min (g *
      (e.value * charged - e.m)) (x.running + a) ∧ rec = Content.item x.number (x.lines.length + 1) code q charged a
      s.part.price.activeGen ⟨e.hold, false, s.part.staleServed⟩ :: (if 1 ≤ d then [Content.discount x.number
      (x.lines.length + 1) code g d] else []) ∧ x' =
      { x with lines := x.lines ++ [⟨code, q, charged, a, true, false⟩], running := x.running + a - d, tally := [⟨code, e.value, q, if 1 ≤ g then [⟨g, e.value * charged - e.m, d⟩] else []⟩] }
      ∧ s.part.jrn.accepts rec = true) ∧
    (∃ (s : State) (n : PortNo) (r : TillRequest) (x : Sale), ∃ (k : Nat) (l : SaleLine) (back : Nat) (rec : List
      Content), (s.part.port n).sale = some x ∧ s.part.jrn.scan = none ∧ s.asked n r .void ∧ k = fieldAt r.body 0 2 ∧
      1 ≤ k ∧ x.lines[k - 1]? = some l ∧ l.voided = false ∧ back = ((x.reversalOf l).map (·.r)).getD 0 ∧ l.amount ≤
      x.running + back ∧ x.running + back - l.amount ≤ 999999999 ∧ rec = Content.void x.number k l.item l.q l.amount
      :: (if 1 ≤ back then [Content.reversal x.number k l.item (((x.reversalOf l).map (·.k)).getD 0) back] else []) ∧
      s.part.jrn.accepts rec = true) :=
  ⟨⟨run (asks 3 (be 6 5 ++ be 3 1) (some sale) (selling milk part)), 0, request 3 (be 6 5 ++ be 3 1), sale, ⟨.a, 5, 0, 1, 15⟩, by (repeat' apply And.intro) <;> decide +kernel⟩,
   ⟨run (asks 3 (be 6 5 ++ be 3 1) (some sale) part), 0, request 3 (be 6 5 ++ be 3 1), sale, ⟨.a, 5, 0, 0, 15⟩, by (repeat' apply And.intro) <;> decide +kernel⟩,
   ⟨looked 3 (be 6 5 ++ be 3 3) ⟨.a, 5, 0, 1, 15⟩ (some ({ sale with running := 999999402 })) (selling ({ milk with hold := false }) (part)), 0, ⟨1, 3, (be 6 5 ++ be 3 3), .looking ⟨.a, 5, 0, 1, 15⟩⟩, { sale with running := 999999402 }, ⟨.a, 5, 0, 1, 15⟩, 5, 3, { milk with hold := false }, 199, 597, { sale with running := 999999999, lines := [⟨5, 3, 199, 597, false, false⟩, ⟨5, 3, 199, 597, false, false⟩] }, [.item 1 2 5 3 199 597 7 ⟨false, false, false⟩], by (repeat' apply And.intro) <;> decide +kernel⟩,
   ⟨looked 3 (be 6 5 ++ be 3 1) ⟨.a, 5, 0, 1, 15⟩ (some ({ sale with lines := List.replicate 499 ⟨5, 3, 199, 597, false, false⟩ })) (selling (milk) (part)), 0, ⟨1, 3, (be 6 5 ++ be 3 1), .looking ⟨.a, 5, 0, 1, 15⟩⟩, { sale with lines := List.replicate 499 ⟨5, 3, 199, 597, false, false⟩ }, ⟨.a, 5, 0, 1, 15⟩, 5, 1, milk, 150, 150, { sale with lines := List.replicate 499 ⟨5, 3, 199, 597, false, false⟩ ++ [⟨5, 1, 150, 150, false, false⟩], running := 747 }, [.item 1 500 5 1 150 150 7 ⟨true, false, false⟩], by (repeat' apply And.intro) <;> decide +kernel⟩,
   ⟨looked 3 (be 6 5 ++ be 3 3) ⟨.a, 5, 0, 1, 15⟩ (some (sale)) (selling ({ milk with hold := false }) (ledger { next := 16377, commit := 1 } part)), 0, ⟨1, 3, (be 6 5 ++ be 3 3), .looking ⟨.a, 5, 0, 1, 15⟩⟩, sale, ⟨.a, 5, 0, 1, 15⟩, 5, 3, { milk with hold := false }, 199, 597, { sale with running := 1194, lines := [⟨5, 3, 199, 597, false, false⟩, ⟨5, 3, 199, 597, false, false⟩] }, [.item 1 2 5 3 199 597 7 ⟨false, false, false⟩], by (repeat' apply And.intro) <;> decide +kernel⟩,
   ⟨looked 3 (be 6 5 ++ be 3 2) ⟨.a, 5, 0, 1, 15⟩ (some (sale)) (selling ({ milk with hold := false, promo := 2, value := 2, m := 300 }) (part)), 0, ⟨1, 3, (be 6 5 ++ be 3 2), .looking ⟨.a, 5, 0, 1, 15⟩⟩, sale, ⟨.a, 5, 0, 1, 15⟩, 5, 2, { milk with hold := false, promo := 2, value := 2, m := 300 }, 199, 398, 1, 98, { sale with running := 897, lines := [⟨5, 3, 199, 597, false, false⟩, ⟨5, 2, 199, 398, true, false⟩], tally := [⟨5, 2, 2, [⟨1, 98, 98⟩]⟩] }, [.item 1 2 5 2 199 398 7 ⟨false, false, false⟩, .discount 1 2 5 1 98], by (repeat' apply And.intro) <;> decide +kernel⟩,
   ⟨run (asks 4 (be 2 1) (some sale) part), 0, request 4 (be 2 1), sale, 1, ⟨5, 3, 199, 597, false, false⟩, 0, [.void 1 1 5 3 597], by (repeat' apply And.intro) <;> decide +kernel⟩⟩

theorem meets_LinesAreSoldAndVoided_turnedAway :
    (∃ s : State, ∃ n r x k l back, (s.part.port n).sale = some x ∧ s.part.jrn.scan = none ∧ s.asked n r .void ∧
      k = fieldAt r.body 0 2 ∧ 1 ≤ k ∧ x.lines[k - 1]? = some l ∧ back = ((x.reversalOf l).map (·.r)).getD 0 ∧
      l.voided = true) ∧
    (∃ s : State, ∃ n r x k l back, (s.part.port n).sale = some x ∧ s.part.jrn.scan = none ∧ s.asked n r .void ∧
      k = fieldAt r.body 0 2 ∧ 1 ≤ k ∧ x.lines[k - 1]? = some l ∧ back = ((x.reversalOf l).map (·.r)).getD 0 ∧
      l.voided = false ∧ x.running + back + 1 = l.amount) ∧
    (∃ s : State, ∃ n r x k l back, (s.part.port n).sale = some x ∧ s.part.jrn.scan = none ∧ s.asked n r .void ∧
      k = fieldAt r.body 0 2 ∧ 1 ≤ k ∧ x.lines[k - 1]? = some l ∧ back = ((x.reversalOf l).map (·.r)).getD 0 ∧
      l.voided = false ∧ 999999999 + l.amount < x.running + back) ∧
    (∃ s : State, ∃ n r x k l back rec, (s.part.port n).sale = some x ∧ s.part.jrn.scan = none ∧ s.asked n r .void ∧
      k = fieldAt r.body 0 2 ∧ 1 ≤ k ∧ x.lines[k - 1]? = some l ∧ l.voided = false ∧
      back = ((x.reversalOf l).map (·.r)).getD 0 ∧ l.amount ≤ x.running + back ∧ x.running + back - l.amount = 999999999 ∧
      rec = Content.void x.number k l.item l.q l.amount ::
        (if 1 ≤ back then [Content.reversal x.number k l.item (((x.reversalOf l).map (·.k)).getD 0) back] else []) ∧
      s.part.jrn.accepts rec = true ∧ back = 10) :=
  ⟨⟨run (asks 4 (be 2 1) (some { sale with lines := [⟨5, 3, 199, 597, false, true⟩] }) part), 0, request 4 (be 2 1), { sale with lines := [⟨5, 3, 199, 597, false, true⟩] }, 1, ⟨5, 3, 199, 597, false, true⟩, 0, by (repeat' apply And.intro) <;> decide +kernel⟩,
   ⟨run (asks 4 (be 2 1) (some { sale with running := 596 }) part), 0, request 4 (be 2 1), { sale with running := 596 }, 1, ⟨5, 3, 199, 597, false, false⟩, 0, by (repeat' apply And.intro) <;> decide +kernel⟩,
   ⟨run (asks 4 (be 2 1) (some { sale with running := 999999990, lines := [⟨5, 3, 199, 0, true, false⟩], tally := [⟨5, 3, 3, [⟨1, 10, 10⟩]⟩] }) part), 0, request 4 (be 2 1), { sale with running := 999999990, lines := [⟨5, 3, 199, 0, true, false⟩], tally := [⟨5, 3, 3, [⟨1, 10, 10⟩]⟩] }, 1, ⟨5, 3, 199, 0, true, false⟩, 10, by (repeat' apply And.intro) <;> decide +kernel⟩,
   ⟨run (asks 4 (be 2 1) (some { sale with running := 999999989, lines := [⟨5, 3, 199, 0, true, false⟩], tally := [⟨5, 3, 3, [⟨1, 10, 10⟩]⟩] }) part), 0, request 4 (be 2 1), { sale with running := 999999989, lines := [⟨5, 3, 199, 0, true, false⟩], tally := [⟨5, 3, 3, [⟨1, 10, 10⟩]⟩] }, 1, ⟨5, 3, 199, 0, true, false⟩, 10, [.void 1 1 5 3 0, .reversal 1 1 5 1 10], by (repeat' apply And.intro) <;> decide +kernel⟩⟩

theorem meets_SalesOpenTenderAndClose :
    (∃ (s : State) (n : PortNo) (r : TillRequest), s.part.jrn.scan = none ∧ s.asked n r .openSale ∧ s.part.serving ≠
      .none ∧ (s.part.port n).sale = none ∧ s.part.jrn.accepts [.saleOpen s.part.price.activeGen] = true) ∧
    (∃ (s : State) (n : PortNo) (r : TillRequest), ∃ x m a, s.part.jrn.scan = none ∧ s.asked n r .tender ∧
      (s.part.port n).sale = some x ∧ Method.ofCode (fieldAt r.body 0 1) = some m ∧ a = fieldAt r.body 1 4 ∧ 1 ≤ a ∧
      x.tenders + a ≤ 999999999 ∧ s.part.jrn.accepts [.tender x.number m a] = true) ∧
    (∃ (s : State) (n : PortNo) (r : TillRequest), ∃ x, s.part.jrn.scan = none ∧ s.asked n r .close ∧ (s.part.port
      n).sale = some x ∧ x.tenders < x.running) ∧
    (∃ (s : State) (n : PortNo) (r : TillRequest), ∃ x, s.part.jrn.scan = none ∧ s.asked n r .close ∧ (s.part.port
      n).sale = some x ∧ x.running ≤ x.tenders ∧ s.part.jrn.accepts [.saleClose x.number x.running x.tenders
      (x.tenders - x.running)] = true) ∧
    (∃ (s : State) (n : PortNo) (r : TillRequest), ∃ x, s.part.jrn.scan = none ∧ s.asked n r .abandon ∧ (s.part.port
      n).sale = some x ∧ s.part.jrn.accepts [.saleAbandon x.number .till x.running x.tenders false] = true) :=
  ⟨⟨run (asks 2 [] none (part)), 0, request 2 [], by (repeat' apply And.intro) <;> decide +kernel⟩,
   ⟨run (asks 5 (be 1 3 ++ be 4 1) (some { sale with tenders := 999999998 }) (part)), 0, request 5 (be 1 3 ++ be 4 1), { sale with tenders := 999999998 }, .voucher, 1, by (repeat' apply And.intro) <;> decide +kernel⟩,
   ⟨run (asks 6 [] (some { sale with tenders := 596 }) (part)), 0, request 6 [], { sale with tenders := 596 }, by (repeat' apply And.intro) <;> decide +kernel⟩,
   ⟨run (asks 6 [] (some { sale with tenders := 597 }) (part)), 0, request 6 [], { sale with tenders := 597 }, by (repeat' apply And.intro) <;> decide +kernel⟩,
   ⟨run (asks 7 [] (some sale) (part)), 0, request 7 [], sale, by (repeat' apply And.intro) <;> decide +kernel⟩⟩

theorem meets_RequestsAnsweredAtOnce :
    (∃ (s : State) (n : PortNo) (r : TillRequest), ∃ y, s.asked n r .lookup ∧ s.part.serving ≠ .none ∧ itemFieldsFit
      r.body = true ∧ y = s.part.beginSearch (fieldAt r.body 0 6) ∧ y.reads = true) ∧
    (∃ (s : State) (n : PortNo) (r : TillRequest), ∃ y, s.asked n r .lookup ∧ s.part.serving ≠ .none ∧ itemFieldsFit
      r.body = true ∧ y = s.part.beginSearch (fieldAt r.body 0 6) ∧ y.reads = false) ∧
    (∃ (s : State) (n : PortNo) (r : TillRequest), ∃ y k, s.looks n r k y ∧ s.part.middle y = none) ∧
    (∃ (s : State) (n : PortNo) (r : TillRequest), ∃ y k, ∃ e, s.looks n r k y ∧ s.part.middle y = some e ∧ e.code =
      y.code ∧ e.valid = false) ∧
    (∃ (s : State) (n : PortNo) (r : TillRequest), ∃ y k, ∃ e z, s.looks n r k y ∧ s.part.middle y = some e ∧ e.code
      ≠ y.code ∧ z = (if y.code < e.code then { y with hi := (y.lo + y.hi) / 2, left := y.left - 1 } else
      { y with lo := (y.lo + y.hi) / 2 + 1, left := y.left - 1 }) ∧ z.lo < z.hi ∧ 0 < z.left) ∧
    (∃ (s : State) (n : PortNo) (r : TillRequest), ∃ y k, ∃ e z, s.looks n r k y ∧ s.part.middle y = some e ∧ e.code
      ≠ y.code ∧ z = (if y.code < e.code then { y with hi := (y.lo + y.hi) / 2, left := y.left - 1 } else
      { y with lo := (y.lo + y.hi) / 2 + 1, left := y.left - 1 }) ∧ z.lo < z.hi ∧ 0 < z.left) ∧
    (∃ (s : State) (n : PortNo) (r : TillRequest), ∃ y k, ∃ e z, s.looks n r k y ∧ s.part.middle y = some e ∧ e.code
      ≠ y.code ∧ z = (if y.code < e.code then { y with hi := (y.lo + y.hi) / 2, left := y.left - 1 } else
      { y with lo := (y.lo + y.hi) / 2 + 1, left := y.left - 1 }) ∧ ¬ (z.lo < z.hi ∧ 0 < z.left)) ∧
    (∃ (s : State) (n : PortNo) (r : TillRequest), ∃ y k, ∃ e z, s.looks n r k y ∧ s.part.middle y = some e ∧ e.code
      ≠ y.code ∧ z = (if y.code < e.code then { y with hi := (y.lo + y.hi) / 2, left := y.left - 1 } else
      { y with lo := (y.lo + y.hi) / 2 + 1, left := y.left - 1 }) ∧ ¬ (z.lo < z.hi ∧ 0 < z.left)) ∧
    (∃ (s : State) (n : PortNo) (r : TillRequest), ∃ y k, ∃ e, s.looks n r k y ∧ s.part.middle y = some e ∧ e.code =
      y.code ∧ e.valid = true ∧ k = .lookup) ∧
    (∃ (s : State) (n : PortNo) (r : TillRequest), ∃ y k, ∃ e, s.looks n r k y ∧ s.part.middle y = some e ∧ e.code =
      y.code ∧ e.valid = true ∧ k = .lookup) ∧
    (∃ (s : State) (n : PortNo) (r : TillRequest), ∃ y k, ∃ e, s.looks n r k y ∧ s.part.middle y = some e ∧ e.code =
      y.code ∧ e.valid = true ∧ k = .lookup) ∧
    (∃ (s : State) (n : PortNo) (r : TillRequest), ∃ st lv body, s.asked n r .status ∧ st = (if (s.part.port n).state
      = .offline then 0 else if (s.part.port n).state = .idle then 1 else 2) ∧ lv = (if s.part.serving = .full then 0
      else if s.part.serving = .stale then 1 else 2) ∧ body =
      (match (s.part.port n).sale with
       | some x => be 4 x.number ++ be 2 x.lines.length ++ be 4 x.running ++ be 4 x.tenders ++ be 2 x.tally.length
       | none => List.replicate 16 0)) ∧
    (∃ (s : State) (n : PortNo) (r : TillRequest), ∃ st lv body, s.asked n r .status ∧ st = (if (s.part.port n).state
      = .offline then 0 else if (s.part.port n).state = .idle then 1 else 2) ∧ lv = (if s.part.serving = .full then 0
      else if s.part.serving = .stale then 1 else 2) ∧ body =
      (match (s.part.port n).sale with
       | some x => be 4 x.number ++ be 2 x.lines.length ++ be 4 x.running ++ be 4 x.tenders ++ be 2 x.tally.length
       | none => List.replicate 16 0)) ∧
    (∃ (s : State) (n : PortNo) (r : TillRequest), ∃ st lv body, s.asked n r .status ∧ st = (if (s.part.port n).state
      = .offline then 0 else if (s.part.port n).state = .idle then 1 else 2) ∧ lv = (if s.part.serving = .full then 0
      else if s.part.serving = .stale then 1 else 2) ∧ body =
      (match (s.part.port n).sale with
       | some x => be 4 x.number ++ be 2 x.lines.length ++ be 4 x.running ++ be 4 x.tenders ++ be 2 x.tally.length
       | none => List.replicate 16 0)) :=
  ⟨⟨run (asks 1 (be 6 5 ++ be 3 1) none (selling milk part)), 0, request 1 (be 6 5 ++ be 3 1), ⟨.a, 5, 0, 1, 15⟩, by (repeat' apply And.intro) <;> decide +kernel⟩,
   ⟨run (asks 1 (be 6 5 ++ be 3 1) none (part)), 0, request 1 (be 6 5 ++ be 3 1), ⟨.a, 5, 0, 0, 15⟩, by (repeat' apply And.intro) <;> decide +kernel⟩,
   ⟨looked 1 (be 6 5 ++ be 3 1) ⟨.a, 5, 0, 1, 15⟩ none (part), 0, ⟨1, 1, (be 6 5 ++ be 3 1), .looking ⟨.a, 5, 0, 1, 15⟩⟩, ⟨.a, 5, 0, 1, 15⟩, .lookup, by (repeat' apply And.intro) <;> decide +kernel⟩,
   ⟨looked 1 (be 6 5 ++ be 3 1) ⟨.a, 5, 0, 1, 15⟩ none (selling { milk with valid := false } part), 0, ⟨1, 1, (be 6 5 ++ be 3 1), .looking ⟨.a, 5, 0, 1, 15⟩⟩, ⟨.a, 5, 0, 1, 15⟩, .lookup, { milk with valid := false }, by (repeat' apply And.intro) <;> decide +kernel⟩,
   ⟨looked 1 (be 6 5 ++ be 3 1) ⟨.a, 5, 0, 3, 15⟩ none ({ part with dram := Mem.writeBytes [] (entryAddr .a 1) ({ milk with code := 6 } : BankEntry).bytes }), 0, ⟨1, 1, (be 6 5 ++ be 3 1), .looking ⟨.a, 5, 0, 3, 15⟩⟩, ⟨.a, 5, 0, 3, 15⟩, .lookup, { milk with code := 6 }, ⟨.a, 5, 0, 1, 14⟩, by (repeat' apply And.intro) <;> decide +kernel⟩,
   ⟨looked 1 (be 6 5 ++ be 3 1) ⟨.a, 5, 0, 3, 15⟩ none ({ part with dram := Mem.writeBytes [] (entryAddr .a 1) ({ milk with code := 4 } : BankEntry).bytes }), 0, ⟨1, 1, (be 6 5 ++ be 3 1), .looking ⟨.a, 5, 0, 3, 15⟩⟩, ⟨.a, 5, 0, 3, 15⟩, .lookup, { milk with code := 4 }, ⟨.a, 5, 2, 3, 14⟩, by (repeat' apply And.intro) <;> decide +kernel⟩,
   ⟨looked 1 (be 6 5 ++ be 3 1) ⟨.a, 5, 0, 1, 15⟩ none (selling { milk with code := 6 } part), 0, ⟨1, 1, (be 6 5 ++ be 3 1), .looking ⟨.a, 5, 0, 1, 15⟩⟩, ⟨.a, 5, 0, 1, 15⟩, .lookup, { milk with code := 6 }, ⟨.a, 5, 0, 0, 14⟩, by (repeat' apply And.intro) <;> decide +kernel⟩,
   ⟨looked 1 (be 6 5 ++ be 3 1) ⟨.a, 5, 0, 3, 1⟩ none ({ part with dram := Mem.writeBytes [] (entryAddr .a 1) ({ milk with code := 4 } : BankEntry).bytes }), 0, ⟨1, 1, (be 6 5 ++ be 3 1), .looking ⟨.a, 5, 0, 3, 1⟩⟩, ⟨.a, 5, 0, 3, 1⟩, .lookup, { milk with code := 4 }, ⟨.a, 5, 2, 3, 0⟩, by (repeat' apply And.intro) <;> decide +kernel⟩,
   ⟨looked 1 (be 6 5 ++ be 3 1) ⟨.a, 5, 0, 1, 15⟩ none (selling milk part), 0, ⟨1, 1, (be 6 5 ++ be 3 1), .looking ⟨.a, 5, 0, 1, 15⟩⟩, ⟨.a, 5, 0, 1, 15⟩, .lookup, milk, by (repeat' apply And.intro) <;> decide +kernel⟩,
   ⟨looked 1 (be 6 5 ++ be 3 1000) ⟨.a, 5, 0, 1, 15⟩ none (selling milk part), 0, ⟨1, 1, (be 6 5 ++ be 3 1000), .looking ⟨.a, 5, 0, 1, 15⟩⟩, ⟨.a, 5, 0, 1, 15⟩, .lookup, milk, by (repeat' apply And.intro) <;> decide +kernel⟩,
   ⟨looked 1 (be 6 5 ++ be 3 999) ⟨.a, 5, 0, 1, 15⟩ none (selling { milk with hold := false, p := 9999999, kind := 0 } part), 0, ⟨1, 1, (be 6 5 ++ be 3 999), .looking ⟨.a, 5, 0, 1, 15⟩⟩, ⟨.a, 5, 0, 1, 15⟩, .lookup, { milk with hold := false, p := 9999999, kind := 0 }, by (repeat' apply And.intro) <;> decide +kernel⟩,
   ⟨run (asks 8 [] none (part)), 0, request 8 [], 1, 0, List.replicate 16 0, by (repeat' apply And.intro) <;> decide +kernel⟩,
   ⟨run (asks 8 [] (some sale) (part)), 0, request 8 [], 2, 0, be 4 1 ++ be 2 1 ++ be 4 597 ++ be 4 0 ++ be 2 0, by (repeat' apply And.intro) <;> decide +kernel⟩,
   ⟨run ({ asks 8 [] (some sale) part with pres := { joining := .duplicate } }), 0, request 8 [], 2, 2, be 4 1 ++ be 2 1 ++ be 4 597 ++ be 4 0 ++ be 2 0, by (repeat' apply And.intro) <;> decide +kernel⟩⟩

/-- The code of a request's kind. -/
def codeOf : TillKind → Byte
  | .lookup => 1 | .openSale => 2 | .line => 3 | .void => 4 | .tender => 5 | .close => 6 | .abandon => 7 | .status => 8
  | .bind => 9 | .unbind => 10 | .query => 11 | .retry => 12

theorem asked_of (k : TillKind) (b : Bytes) (y : Option Sale) (p : Part) :
    (run (asks (codeOf k) b y p)).asked 0 (request (codeOf k) b) k ∧ ((run (asks (codeOf k) b y p)).part.port 0).sale = y := by
  cases k <;> exact ⟨⟨rfl, by simp [run, asks, port, Part.port], rfl, rfl, by simp [run, asks, port, Part.port]⟩,
    by simp [run, asks, port, Part.port]⟩

/-- A part whose level serves nothing. -/
def unserving : Part := { part with pres := { joining := .sync, coldStarted := true } }

/-- Bodies one field of which lies just outside its range. -/
def outsiders : List (TillKind × Bytes) :=
  [(.lookup, be 6 0 ++ be 3 1), (.lookup, be 6 100000000000000 ++ be 3 1), (.lookup, be 6 5 ++ be 3 0),
   (.line, be 6 0 ++ be 3 1), (.line, be 6 100000000000000 ++ be 3 1), (.line, be 6 5 ++ be 3 0),
   (.void, be 2 0), (.void, be 2 2),
   (.tender, be 1 0 ++ be 4 1), (.tender, be 1 4 ++ be 4 1), (.tender, be 1 1 ++ be 4 0), (.tender, be 1 3 ++ be 4 1000000000),
   (.bind, be 3 0 ++ be 6 5 ++ be 1 1), (.bind, be 3 16777215 ++ be 6 5 ++ be 1 1), (.bind, be 3 1 ++ be 6 0 ++ be 1 1),
   (.bind, be 3 1 ++ be 6 100000000000000 ++ be 1 1), (.bind, be 3 1 ++ be 6 5 ++ be 1 0), (.bind, be 3 1 ++ be 6 5 ++ be 1 4),
   (.unbind, be 3 0), (.unbind, be 3 16777215), (.query, be 3 0), (.query, be 3 16777215), (.retry, be 3 0),
   (.retry, be 3 16777215)]

theorem outsiders_outOfRange : ∀ x ∈ outsiders, x.1.outOfRange 1 x.2 := by
  unfold outsiders
  simp only [List.forall_mem_cons, List.not_mem_nil, false_implies, implies_true, and_true, TillKind.outOfRange]
  (repeat' apply And.intro) <;> decide +kernel

theorem meets_RequestsAnsweredAtOnce_turnedAway :
    (∀ k ∈ [TillKind.bind, .unbind, .query, .retry], ∀ y : Option Sale, ∃ s : State, ∃ n r, s.asked n r k ∧
      (s.part.port n).sale = y ∧ s.part.supervisor n = false) ∧
    (∀ k ∈ [TillKind.lookup, .openSale, .line, .bind, .unbind, .query, .retry], ∀ y : Option Sale, ∃ s : State, ∃ n r,
      s.asked n r k ∧ (s.part.port n).sale = y ∧ s.part.supervisor n = true ∧ s.part.serving = .none) ∧
    (∀ k ∈ [TillKind.openSale, .bind, .unbind, .query, .retry], ∃ s : State, ∃ n r, s.asked n r k ∧
      (s.part.port n).sale ≠ none ∧ s.part.supervisor n = true ∧ s.part.serving ≠ .none) ∧
    (∀ k ∈ [TillKind.line, .void, .tender, .close, .abandon], ∃ s : State, ∃ n r, s.asked n r k ∧
      (s.part.port n).sale = none ∧ s.part.supervisor n = true ∧ s.part.serving ≠ .none) ∧
    (∀ x ∈ outsiders, ∃ s : State, ∃ n r, s.asked n r x.1 ∧ r.body = x.2 ∧
      ((s.part.port n).sale = if x.1 ∈ [TillKind.line, .void, .tender] then some sale else none) ∧
      s.part.supervisor n = true ∧ s.part.serving ≠ .none ∧ x.1.outOfRange sale.lines.length r.body) ∧
    (∃ s : State, ∃ n chars bs x content, s.supply.takesEvents = true ∧ x = s.part.port n ∧ x.held = false ∧
      gather (some []) 0 chars = (0, some bs) ∧ crcGood bs = true ∧ 4 ≤ bs.length ∧
      TillKind.ofCode (byteAt bs 1).toNat = none ∧ s.part.serving ≠ .noReply ∧ s.part.portEnabled n = true ∧ x.req = none ∧
      x.out = none ∧ x.busy = [] ∧ x.lows = [] ∧ (∀ l, x.last = some l → ¬ (l.seq = byteAt bs 0 ∧ l.kind = byteAt bs 1)) ∧
      content = s.part.replyContent (byteAt bs 0) (byteAt bs 1) .badRequest false false []) :=
  ⟨fun k _ y => ⟨_, 0, _, (asked_of k [] y { part with cfg := some { conf with supervisorMask := 0 } }).1, (asked_of k [] y _).2, rfl⟩,
   fun k _ y => ⟨_, 0, _, (asked_of k [] y unserving).1, (asked_of k [] y _).2, rfl, show unserving.serving = .none by decide +kernel⟩,
   fun k _ => ⟨_, 0, _, (asked_of k [] (some sale) part).1, by rw [(asked_of k [] (some sale) part).2]; nofun, rfl,
     show part.serving ≠ .none by decide +kernel⟩,
   fun k _ => ⟨_, 0, _, (asked_of k [] none part).1, (asked_of k [] none _).2, rfl, show part.serving ≠ .none by decide +kernel⟩,
   fun x hx => ⟨_, 0, _, (asked_of x.1 x.2 _ part).1, rfl, (asked_of x.1 x.2 _ _).2, rfl,
     show part.serving ≠ .none by decide +kernel, outsiders_outOfRange x hx⟩,
   ⟨run part, 7, escape (withCrc [7, 13]), withCrc [7, 13], (run part).part.port 7, _, by decide +kernel, rfl, by decide +kernel, by decide +kernel, by decide +kernel, by decide +kernel, by decide +kernel, by decide +kernel, by decide +kernel, by decide +kernel, by decide +kernel, by decide +kernel, by decide +kernel, by decide +kernel, rfl⟩⟩

theorem meets_SupervisorRequestsReachTheLabels :
    (∃ (s : State) (n : PortNo) (r : TillRequest) (id : Nat), ∃ item l i e, s.part.supervisor n = true ∧
      s.part.serving ≠ .none ∧ (s.part.port n).sale = none ∧ s.part.labelsReady = true ∧ s.part.lab.headUp = false ∧
      id = fieldAt r.body 0 3 ∧ 1 ≤ id ∧ id ≤ 16777214 ∧ s.asked n r .bind ∧ s.part.findLabel id = none ∧ item =
      fieldAt r.body 3 6 ∧ 1 ≤ item ∧ item ≤ 99999999999999 ∧ Layout.ofCode (fieldAt r.body 9 1) = some l ∧
      ((List.range 4096).find? fun j => (s.part.labelAt j).isNone) = some i ∧ (s.part.find item).1 = .notFound ∧
      s.part.price.events = [] ∧ e =
      ({ id := id, item := item, layout := l, state := .queued, queue := some .routine, shown := .unknown, sent := none, tag := none, attempts := 0, due := none, battery := .ok, signal := 0, walked := true }
      : LabelEntry)) ∧
    (∃ (s : State) (n : PortNo) (r : TillRequest) (id : Nat), ∃ i e w u v gone, ∃ item l e', s.part.supervisor n =
      true ∧ s.part.serving ≠ .none ∧ (s.part.port n).sale = none ∧ s.part.labelsReady = true ∧ s.part.lab.headUp =
      false ∧ id = fieldAt r.body 0 3 ∧ 1 ≤ id ∧ id ≤ 16777214 ∧ s.part.findLabel id = some (i, e) ∧
      s.part.price.events = [] ∧ w = (if e.state = .sent then s.part.lab.window.map fun o => if some o.tag = e.tag
      then { o with orphan := true } else o else s.part.lab.window) ∧ u = (if e.state = .queued then
      s.part.lab.urgent.filter fun x => decide (x ≠ i) else s.part.lab.urgent) ∧ v = (if e.state = .queued then
      s.part.lab.routine.filter fun x => decide (x ≠ i) else s.part.lab.routine) ∧ gone = (if e.state ≠ .current ∧
      s.part.accounts e = true then [LabelEvent.current e.item] else []) ∧ s.asked n r .bind ∧ item = fieldAt r.body
      3 6 ∧ 1 ≤ item ∧ item ≤ 99999999999999 ∧ Layout.ofCode (fieldAt r.body 9 1) = some l ∧ (s.part.find item).1 =
      .notFound ∧ e' =
      ({ id := id, item := item, layout := l, state := .queued, queue := some .routine, shown := .unknown, sent := none, tag := none, attempts := 0, due := none, battery := e.battery, signal := e.signal, walked := true }
      : LabelEntry)) ∧
    (∃ (s : State) (n : PortNo) (r : TillRequest) (id : Nat), ∃ i e w u v gone, ∃ item l e', s.part.supervisor n =
      true ∧ s.part.serving ≠ .none ∧ (s.part.port n).sale = none ∧ s.part.labelsReady = true ∧ s.part.lab.headUp =
      false ∧ id = fieldAt r.body 0 3 ∧ 1 ≤ id ∧ id ≤ 16777214 ∧ s.part.findLabel id = some (i, e) ∧
      s.part.price.events = [] ∧ w = (if e.state = .sent then s.part.lab.window.map fun o => if some o.tag = e.tag
      then { o with orphan := true } else o else s.part.lab.window) ∧ u = (if e.state = .queued then
      s.part.lab.urgent.filter fun x => decide (x ≠ i) else s.part.lab.urgent) ∧ v = (if e.state = .queued then
      s.part.lab.routine.filter fun x => decide (x ≠ i) else s.part.lab.routine) ∧ gone = (if e.state ≠ .current ∧
      s.part.accounts e = true then [LabelEvent.current e.item] else []) ∧ s.asked n r .bind ∧ item = fieldAt r.body
      3 6 ∧ 1 ≤ item ∧ item ≤ 99999999999999 ∧ Layout.ofCode (fieldAt r.body 9 1) = some l ∧ (s.part.find item).1 =
      .notFound ∧ e' =
      ({ id := id, item := item, layout := l, state := .queued, queue := some .routine, shown := .unknown, sent := none, tag := none, attempts := 0, due := none, battery := e.battery, signal := e.signal, walked := true }
      : LabelEntry)) ∧
    (∃ (s : State) (n : PortNo) (r : TillRequest) (id : Nat), ∃ i e w u v gone, s.part.supervisor n = true ∧
      s.part.serving ≠ .none ∧ (s.part.port n).sale = none ∧ s.part.labelsReady = true ∧ s.part.lab.headUp = false ∧
      id = fieldAt r.body 0 3 ∧ 1 ≤ id ∧ id ≤ 16777214 ∧ s.part.findLabel id = some (i, e) ∧ s.part.price.events = []
      ∧ w = (if e.state = .sent then s.part.lab.window.map fun o => if some o.tag = e.tag then
      { o with orphan := true } else o else s.part.lab.window) ∧ u = (if e.state = .queued then
      s.part.lab.urgent.filter fun x => decide (x ≠ i) else s.part.lab.urgent) ∧ v = (if e.state = .queued then
      s.part.lab.routine.filter fun x => decide (x ≠ i) else s.part.lab.routine) ∧ gone = (if e.state ≠ .current ∧
      s.part.accounts e = true then [LabelEvent.current e.item] else []) ∧ s.asked n r .unbind) ∧
    (∃ (s : State) (n : PortNo) (r : TillRequest) (id : Nat), ∃ i e w u v gone, s.part.supervisor n = true ∧
      s.part.serving ≠ .none ∧ (s.part.port n).sale = none ∧ s.part.labelsReady = true ∧ s.part.lab.headUp = false ∧
      id = fieldAt r.body 0 3 ∧ 1 ≤ id ∧ id ≤ 16777214 ∧ s.part.findLabel id = some (i, e) ∧ s.part.price.events = []
      ∧ w = (if e.state = .sent then s.part.lab.window.map fun o => if some o.tag = e.tag then
      { o with orphan := true } else o else s.part.lab.window) ∧ u = (if e.state = .queued then
      s.part.lab.urgent.filter fun x => decide (x ≠ i) else s.part.lab.urgent) ∧ v = (if e.state = .queued then
      s.part.lab.routine.filter fun x => decide (x ≠ i) else s.part.lab.routine) ∧ gone = (if e.state ≠ .current ∧
      s.part.accounts e = true then [LabelEvent.current e.item] else []) ∧ s.asked n r .unbind) ∧
    (∃ (s : State) (n : PortNo) (r : TillRequest) (id : Nat), ∃ i e body, s.part.supervisor n = true ∧ s.part.serving
      ≠ .none ∧ (s.part.port n).sale = none ∧ s.part.labelsReady = true ∧ s.part.lab.headUp = false ∧ id = fieldAt
      r.body 0 3 ∧ 1 ≤ id ∧ id ≤ 16777214 ∧ s.asked n r .query ∧ s.part.findLabel id = some (i, e) ∧ body = be 6
      e.item ++ be 1
      (match e.layout with
       | .price => 1
       | .priceUnit => 2
       | .priceUnitPromo => 3)
      ++ be 1
      (match e.state with
       | .current => 0
       | .queued => 1
       | .sent => 2
       | .retryWait => 3
       | .unreachable => 4)
      ++ be 2 e.attempts ++ be 1
      (match e.battery with
       | .ok => 0
       | .low => 1
       | .critical => 2)
       ++ be 1 e.signal) ∧
    (∃ (s : State) (n : PortNo) (r : TillRequest) (id : Nat), ∃ i e, s.part.supervisor n = true ∧ s.part.serving ≠
      .none ∧ (s.part.port n).sale = none ∧ s.part.labelsReady = true ∧ s.part.lab.headUp = false ∧ id = fieldAt
      r.body 0 3 ∧ 1 ≤ id ∧ id ≤ 16777214 ∧ s.asked n r .retry ∧ s.part.findLabel id = some (i, e) ∧ e.state =
      .unreachable ∧ (s.part.find e.item).1 = .notFound) ∧
    (∃ (s : State) (n : PortNo) (r : TillRequest) (id : Nat), ∃ i e, s.part.supervisor n = true ∧ s.part.serving ≠
      .none ∧ (s.part.port n).sale = none ∧ s.part.labelsReady = true ∧ s.part.lab.headUp = false ∧ id = fieldAt
      r.body 0 3 ∧ 1 ≤ id ∧ id ≤ 16777214 ∧ s.asked n r .retry ∧ s.part.findLabel id = some (i, e) ∧ e.state ≠
      .unreachable) ∧
    (∃ (s : State) (n : PortNo) (r : TillRequest) (id : Nat), s.part.supervisor n = true ∧ s.part.serving ≠ .none ∧
      (s.part.port n).sale = none ∧ s.part.labelsReady = true ∧ s.part.lab.headUp = false ∧ id = fieldAt r.body 0 3 ∧
      1 ≤ id ∧ id ≤ 16777214 ∧ s.part.findLabel id = none ∧ s.asked n r .unbind) ∧
    (∃ (s : State) (n : PortNo) (r : TillRequest) (id : Nat), s.part.supervisor n = true ∧ s.part.serving ≠ .none ∧
      (s.part.port n).sale = none ∧ s.part.labelsReady = true ∧ s.part.lab.headUp = false ∧ id = fieldAt r.body 0 3 ∧
      1 ≤ id ∧ id ≤ 16777214 ∧ s.part.findLabel id = none ∧ s.asked n r .query) ∧
    (∃ (s : State) (n : PortNo) (r : TillRequest) (id : Nat), s.part.supervisor n = true ∧ s.part.serving ≠ .none ∧
      (s.part.port n).sale = none ∧ s.part.labelsReady = true ∧ s.part.lab.headUp = false ∧ id = fieldAt r.body 0 3 ∧
      1 ≤ id ∧ id ≤ 16777214 ∧ s.part.findLabel id = none ∧ s.asked n r .retry) ∧
    (∃ (s : State) (n : PortNo) (r : TillRequest) (id : Nat), ∃ k c, id = fieldAt r.body 0 3 ∧ 1 ≤ id ∧ id ≤ 16777214
      ∧ (k, c) ∈ [(TillKind.bind, Instr.bind n), (.unbind, .unbind n), (.query, .labelQuery n), (.retry, .labelRetry
      n)] ∧ s.asked n r k ∧ s.part.supervisor n = true ∧ s.part.serving ≠ .none ∧ (s.part.port n).sale = none ∧ (k =
      .bind → 1 ≤ fieldAt r.body 3 6 ∧ fieldAt r.body 3 6 ≤ 99999999999999 ∧ 1 ≤ fieldAt r.body 9 1 ∧ fieldAt r.body
      9 1 ≤ 3) ∧ s.part.labelsReady = false) ∧
    (∃ (s : State) (n : PortNo) (r : TillRequest) (id : Nat), ∃ k c, id = fieldAt r.body 0 3 ∧ 1 ≤ id ∧ id ≤ 16777214
      ∧ (k, c) ∈ [(TillKind.bind, Instr.bind n), (.unbind, .unbind n), (.query, .labelQuery n), (.retry, .labelRetry
      n)] ∧ s.asked n r k ∧ s.part.supervisor n = true ∧ s.part.serving ≠ .none ∧ (s.part.port n).sale = none ∧ (k =
      .bind → 1 ≤ fieldAt r.body 3 6 ∧ fieldAt r.body 3 6 ≤ 99999999999999 ∧ 1 ≤ fieldAt r.body 9 1 ∧ fieldAt r.body
      9 1 ≤ 3) ∧ s.part.labelsReady = false) ∧
    (∃ (s : State) (n : PortNo) (r : TillRequest) (id : Nat), ∃ k c, id = fieldAt r.body 0 3 ∧ 1 ≤ id ∧ id ≤ 16777214
      ∧ (k, c) ∈ [(TillKind.bind, Instr.bind n), (.unbind, .unbind n), (.query, .labelQuery n), (.retry, .labelRetry
      n)] ∧ s.asked n r k ∧ s.part.supervisor n = true ∧ s.part.serving ≠ .none ∧ (s.part.port n).sale = none ∧ (k =
      .bind → 1 ≤ fieldAt r.body 3 6 ∧ fieldAt r.body 3 6 ≤ 99999999999999 ∧ 1 ≤ fieldAt r.body 9 1 ∧ fieldAt r.body
      9 1 ≤ 3) ∧ s.part.labelsReady = false) ∧
    (∃ (s : State) (n : PortNo) (r : TillRequest) (id : Nat), ∃ k c, id = fieldAt r.body 0 3 ∧ 1 ≤ id ∧ id ≤ 16777214
      ∧ (k, c) ∈ [(TillKind.bind, Instr.bind n), (.unbind, .unbind n), (.query, .labelQuery n), (.retry, .labelRetry
      n)] ∧ s.asked n r k ∧ s.part.supervisor n = true ∧ s.part.serving ≠ .none ∧ (s.part.port n).sale = none ∧ (k =
      .bind → 1 ≤ fieldAt r.body 3 6 ∧ fieldAt r.body 3 6 ≤ 99999999999999 ∧ 1 ≤ fieldAt r.body 9 1 ∧ fieldAt r.body
      9 1 ≤ 3) ∧ s.part.labelsReady = false) ∧
    (∃ (s : State) (n : PortNo) (r : TillRequest) (id : Nat), ∃ i e body, id = fieldAt r.body 0 3 ∧ 1 ≤ id ∧ id ≤
      16777214 ∧ s.supply.takesEvents = true ∧ (s.part.port n).req = some r ∧ TillKind.ofCode r.kind.toNat = some
      .query ∧ r.work = .handed ∧ (s.part.port n).lows = [] ∧ s.part.labelsReady = true ∧ s.part.findLabel id = some
      (i, e) ∧ body = be 6 e.item ++ be 1
      (match e.layout with
       | .price => 1
       | .priceUnit => 2
       | .priceUnitPromo => 3)
      ++ be 1
      (match e.state with
       | .current => 0
       | .queued => 1
       | .sent => 2
       | .retryWait => 3
       | .unreachable => 4)
      ++ be 2 e.attempts ++ be 1
      (match e.battery with
       | .ok => 0
       | .low => 1
       | .critical => 2)
       ++ be 1 e.signal) :=
  ⟨⟨run (asks 9 (be 3 16777214 ++ be 6 99999999999999 ++ be 1 3) none (part)), 0, request 9 (be 3 16777214 ++ be 6 99999999999999 ++ be 1 3), 16777214, 99999999999999, .priceUnitPromo, 0, { id := 16777214, item := 99999999999999, layout := .priceUnitPromo, state := .queued, queue := some .routine, shown := .unknown, sent := none, tag := none, attempts := 0, due := none, battery := .ok, signal := 0, walked := true }, by (repeat' apply And.intro) <;> first | (simp only [Part.findLabel, List.findSome?_eq_none_iff]; intro i _; rw [labelAt_none _ _ (by intro c hc; cases hc)]) | decide +kernel⟩,
   ⟨run ({ asks 9 (be 3 1 ++ be 6 7 ++ be 1 3) none (shelf (label .current) part) with lab := {} }), 0, request 9 (be 3 1 ++ be 6 7 ++ be 1 3), 1, 0, label .current, [], [], [], [], 7, .priceUnitPromo, { id := 1, item := 7, layout := .priceUnitPromo, state := .queued, queue := some .routine, shown := .unknown, sent := none, tag := none, attempts := 0, due := none, battery := .ok, signal := 0, walked := true }, by (repeat' apply And.intro) <;> decide +kernel⟩,
   ⟨run ({ asks 9 (be 3 1 ++ be 6 7 ++ be 1 3) none (shelf (label .queued) part) with lab := { urgent := [0, 3], routine := [0] } }), 0, request 9 (be 3 1 ++ be 6 7 ++ be 1 3), 1, 0, label .queued, [], [3], [], [.current 6], 7, .priceUnitPromo, { id := 1, item := 7, layout := .priceUnitPromo, state := .queued, queue := some .routine, shown := .unknown, sent := none, tag := none, attempts := 0, due := none, battery := .ok, signal := 0, walked := true }, by (repeat' apply And.intro) <;> decide +kernel⟩,
   ⟨run ({ asks 10 (be 3 1) none (shelf ({ label .sent with tag := some 3 }) part) with lab := { window := [order] } }), 0, request 10 (be 3 1), 1, 0, { label .sent with tag := some 3 }, [{ order with orphan := true }], [], [], [.current 6], by (repeat' apply And.intro) <;> decide +kernel⟩,
   ⟨run ({ asks 10 (be 3 1) none (shelf (label .current) part) with lab := {} }), 0, request 10 (be 3 1), 1, 0, label .current, [], [], [], [], by (repeat' apply And.intro) <;> decide +kernel⟩,
   ⟨run (asks 11 (be 3 1) none (shelf (label .current) part)), 0, request 11 (be 3 1), 1, 0, label .current, be 6 6 ++ be 1 1 ++ be 1 0 ++ be 2 4 ++ be 1 0 ++ be 1 0, by (repeat' apply And.intro) <;> decide +kernel⟩,
   ⟨run (asks 12 (be 3 1) none (shelf (label .unreachable) part)), 0, request 12 (be 3 1), 1, 0, label .unreachable, by (repeat' apply And.intro) <;> decide +kernel⟩,
   ⟨run (asks 12 (be 3 1) none (shelf (label .current) part)), 0, request 12 (be 3 1), 1, 0, label .current, by (repeat' apply And.intro) <;> decide +kernel⟩,
   ⟨run (asks 10 (be 3 1) none (part)), 0, request 10 (be 3 1), 1, by (repeat' apply And.intro) <;> first | (simp only [Part.findLabel, List.findSome?_eq_none_iff]; intro i _; rw [labelAt_none _ _ (by intro c hc; cases hc)]) | decide +kernel⟩,
   ⟨run (asks 11 (be 3 1) none (part)), 0, request 11 (be 3 1), 1, by (repeat' apply And.intro) <;> first | (simp only [Part.findLabel, List.findSome?_eq_none_iff]; intro i _; rw [labelAt_none _ _ (by intro c hc; cases hc)]) | decide +kernel⟩,
   ⟨run (asks 12 (be 3 1) none (part)), 0, request 12 (be 3 1), 1, by (repeat' apply And.intro) <;> first | (simp only [Part.findLabel, List.findSome?_eq_none_iff]; intro i _; rw [labelAt_none _ _ (by intro c hc; cases hc)]) | decide +kernel⟩,
   ⟨run ({ asks 9 (be 3 1 ++ be 6 7 ++ be 1 3) none part with lab := { warm := .due } }), 0, request 9 (be 3 1 ++ be 6 7 ++ be 1 3), 1, .bind, .bind 0, by (repeat' apply And.intro) <;> decide +kernel⟩,
   ⟨run ({ asks 10 (be 3 1) none part with lab := { warm := .due } }), 0, request 10 (be 3 1), 1, .unbind, .unbind 0, by (repeat' apply And.intro) <;> decide +kernel⟩,
   ⟨run ({ asks 11 (be 3 1) none part with lab := { warm := .due } }), 0, request 11 (be 3 1), 1, .query, .labelQuery 0, by (repeat' apply And.intro) <;> decide +kernel⟩,
   ⟨run ({ asks 12 (be 3 1) none part with lab := { warm := .due } }), 0, request 12 (be 3 1), 1, .retry, .labelRetry 0, by (repeat' apply And.intro) <;> decide +kernel⟩,
   ⟨run (port { state := .idle, req := some ⟨1, 11, (be 3 1), .handed⟩ } { shelf (label .current) part with pres := { joining := .duplicate } }), 0, ⟨1, 11, (be 3 1), .handed⟩, 1, 0, label .current, be 6 6 ++ be 1 1 ++ be 1 0 ++ be 2 4 ++ be 1 0 ++ be 1 0, by (repeat' apply And.intro) <;> decide +kernel⟩⟩

theorem meets_RecordsAreAcceptedCommittedAndRead :
    (∃ (j : Journal) (a b : Content), j.release < j.next) ∧
    (∃ (p : Part) (r : Requester) (till : Nat) (cs : List Content), p.jrn.accepts cs = true) ∧
    (∃ (p : Part) (r : Requester) (till : Nat) (cs : List Content), p.jrn.accepts cs = false) ∧
    (∃ (s : State) (q : QueuedRecord) (rest : List QueuedRecord) (slot : Nat), s.supply.takesEvents = true ∧
      s.part.jrn.queue = q :: rest ∧ q.bytes.length = 64 ∧ slot = 0x200000 + 64 * (q.seq % 16384) ∧ s.arb.port = some
      (.burst .journal .journalFirst)) ∧
    (∃ (s : State) (q : QueuedRecord) (rest : List QueuedRecord) (slot : Nat), s.supply.takesEvents = true ∧
      s.part.jrn.queue = q :: rest ∧ q.bytes.length = 64 ∧ slot = 0x200000 + 64 * (q.seq % 16384) ∧ s.arb.port = some
      (.burst .journal .journalFirst)) ∧
    (∃ (s : State) (q : QueuedRecord) (rest : List QueuedRecord) (slot : Nat), s.supply.takesEvents = true ∧
      s.part.jrn.queue = q :: rest ∧ q.bytes.length = 64 ∧ slot = 0x200000 + 64 * (q.seq % 16384) ∧ s.arb.port = some
      (.burst .journal .journalSecond)) ∧
    (∃ (s : State) (q : QueuedRecord) (rest : List QueuedRecord) (slot : Nat), s.supply.takesEvents = true ∧
      s.part.jrn.queue = q :: rest ∧ q.bytes.length = 64 ∧ slot = 0x200000 + 64 * (q.seq % 16384) ∧ s.arb.port = some
      (.burst .journal .journalSecond)) ∧
    (∃ s : State, ∃ k, s.supply.takesEvents = true ∧ s.part.jrn.crcWritten = k + 1 ∧ s.part.jrn.appends = []) ∧
    (∃ s : State, ∃ k n r x o body hold noTally, s.supply.takesEvents = true ∧ s.part.jrn.crcWritten = k + 1 ∧
      s.part.jrn.appends = [⟨s.part.jrn.commit, .till n⟩] ∧ x = s.part.port n ∧ x.req = some r ∧ r.work = .appended o
      body hold noTally ∧ x.lows = [] ∧ x.state ≠ .offline) ∧
    (∃ s : State, ∃ k n r x o body hold noTally, s.supply.takesEvents = true ∧ s.part.jrn.crcWritten = k + 1 ∧
      s.part.jrn.appends = [⟨s.part.jrn.commit, .till n⟩] ∧ x = s.part.port n ∧ x.req = some r ∧ r.work = .appended o
      body hold noTally ∧ x.lows = [] ∧ x.state ≠ .offline) ∧
    (∃ s : State, ∃ k n r x o body hold noTally, s.supply.takesEvents = true ∧ s.part.jrn.crcWritten = k + 1 ∧
      s.part.jrn.appends = [⟨s.part.jrn.commit, .till n⟩] ∧ x = s.part.port n ∧ x.req = some r ∧ r.work = .appended o
      body hold noTally ∧ x.lows = [] ∧ x.state ≠ .offline) ∧
    (∃ (p : Part) (q : Nat), (q = 0 ∨ p.jrn.next ≤ q)) ∧
    (∃ (p : Part) (q : Nat), (q = 0 ∨ p.jrn.next ≤ q)) ∧
    (∃ (p : Part) (q : Nat), 1 ≤ q ∧ q < p.jrn.next ∧ p.jrn.commit ≤ q) ∧
    (∃ (p : Part) (q : Nat), ∃ bs, 1 ≤ q ∧ q < p.jrn.next ∧ q < p.jrn.commit ∧ bs = p.read (0x200000 + 64 * (q %
      16384)) 64 ∧ fieldAt bs 0 4 ≠ q) ∧
    (∃ (p : Part) (q : Nat), ∃ bs, 1 ≤ q ∧ q < p.jrn.next ∧ q < p.jrn.commit ∧ bs = p.read (0x200000 + 64 * (q %
      16384)) 64 ∧ fieldAt bs 0 4 = q ∧ crcGood bs = false) ∧
    (∃ (p : Part) (q : Nat), ∃ bs, 1 ≤ q ∧ q < p.jrn.next ∧ q < p.jrn.commit ∧ bs = p.read (0x200000 + 64 * (q %
      16384)) 64 ∧ fieldAt bs 0 4 = q ∧ crcGood bs = true) :=
  ⟨⟨journal, .saleOpen 7, .saleClose 1 0 0 0, by (repeat' apply And.intro) <;> decide +kernel⟩,
   ⟨ledger { next := 16128, commit := 1 } part, .pricing, 255, [.saleOpen 7], by (repeat' apply And.intro) <;> decide +kernel⟩,
   ⟨ledger { next := 16129, commit := 1 } part, .pricing, 255, [.saleOpen 7], by (repeat' apply And.intro) <;> decide +kernel⟩,
   ⟨{ run (ledger { journal with queue := [⟨10, recordBytes 10 0 0 0 false (.saleOpen 7)⟩] } part) with arb := { port := some (.burst .journal .journalFirst) } }, ⟨10, recordBytes 10 0 0 0 false (.saleOpen 7)⟩, [], slotAddr 10, by (repeat' apply And.intro) <;> decide +kernel⟩,
   ⟨{ run (ledger { journal with queue := [⟨32767, recordBytes 32767 0 0 0 false (.saleOpen 7)⟩] } part) with arb := { port := some (.burst .journal .journalFirst) } }, ⟨32767, recordBytes 32767 0 0 0 false (.saleOpen 7)⟩, [], 0x2FFFC0, by (repeat' apply And.intro) <;> decide +kernel⟩,
   ⟨{ run (ledger { journal with queue := [⟨16384, recordBytes 16384 0 0 0 false (.saleOpen 7)⟩] } part) with arb := { port := some (.burst .journal .journalSecond) } }, ⟨16384, recordBytes 16384 0 0 0 false (.saleOpen 7)⟩, [], 0x200000, by (repeat' apply And.intro) <;> decide +kernel⟩,
   ⟨{ run (ledger { journal with queue := [⟨10, recordBytes 10 0 0 0 false (.saleOpen 7)⟩, ⟨11, recordBytes 11 0 0 0 false (.saleOpen 7)⟩] } part) with arb := { port := some (.burst .journal .journalSecond) } }, ⟨10, recordBytes 10 0 0 0 false (.saleOpen 7)⟩, [⟨11, recordBytes 11 0 0 0 false (.saleOpen 7)⟩], slotAddr 10, by (repeat' apply And.intro) <;> decide +kernel⟩,
   ⟨run (ledger { crcWritten := 1 } part), 0, by (repeat' apply And.intro) <;> decide +kernel⟩,
   ⟨run (port { state := .inSale, sale := some sale, req := some ⟨1, 2, [], .appended .keep [] false false⟩ } (ledger { journal with crcWritten := 1, appends := [⟨10, .till 0⟩] } part)), 0, 0, ⟨1, 2, [], .appended .keep [] false false⟩, { state := .inSale, sale := some sale, req := some ⟨1, 2, [], .appended .keep [] false false⟩ }, .keep, [], false, false, by (repeat' apply And.intro) <;> decide +kernel⟩,
   ⟨run (port { state := .idle, sale := none, req := some ⟨1, 2, [], .appended (.opens 1) [] false false⟩ } (ledger { journal with crcWritten := 1, appends := [⟨10, .till 0⟩] } part)), 0, 0, ⟨1, 2, [], .appended (.opens 1) [] false false⟩, { state := .idle, sale := none, req := some ⟨1, 2, [], .appended (.opens 1) [] false false⟩ }, (.opens 1), [], false, false, by (repeat' apply And.intro) <;> decide +kernel⟩,
   ⟨run (port { state := .inSale, sale := some sale, req := some ⟨1, 2, [], .appended .closes [] false false⟩ } (ledger { journal with crcWritten := 1, appends := [⟨10, .till 0⟩] } part)), 0, 0, ⟨1, 2, [], .appended .closes [] false false⟩, { state := .inSale, sale := some sale, req := some ⟨1, 2, [], .appended .closes [] false false⟩ }, .closes, [], false, false, by (repeat' apply And.intro) <;> decide +kernel⟩,
   ⟨ledger journal part, 0, by (repeat' apply And.intro) <;> decide +kernel⟩,
   ⟨ledger journal part, 11, by (repeat' apply And.intro) <;> decide +kernel⟩,
   ⟨ledger journal part, 10, by (repeat' apply And.intro) <;> decide +kernel⟩,
   ⟨ledger journal part, 9, List.replicate 64 0, by (repeat' apply And.intro) <;> decide +kernel⟩,
   ⟨ledger journal { part with dram := [(slotAddr 9 + 3, 9)] }, 9, [0, 0, 0, 9] ++ List.replicate 60 0, by (repeat' apply And.intro) <;> decide +kernel⟩,
   ⟨ledger journal (slot 1 part), 1, recordBytes 1 0 0 0 false (.saleOpen 7), by (repeat' apply And.intro) <;> decide +kernel⟩⟩

theorem meets_ReleasesMoveWithTheHeader :
    (∃ (s : State) (it : RxItem) (b : BranchBody) (q : Nat), s.supply.takesEvents = true ∧ s.part.branchFrame
      .journal kindRelease = some (it, b) ∧ b.payload.length = 6 ∧ q = fieldAt b.payload 2 4 ∧ s.part.trk.holderFor
      (fieldAt b.payload 0 2) = some it.station ∧ s.part.pres.joining ≠ .duplicate ∧ s.part.jrn.pending.getD
      s.part.jrn.release < q ∧ q < s.part.jrn.next ∧ s.part.hdr.inFlight = none) ∧
    (∃ (s : State) (it : RxItem) (b : BranchBody) (q : Nat), s.supply.takesEvents = true ∧ s.part.branchFrame
      .journal kindRelease = some (it, b) ∧ b.payload.length = 6 ∧ q = fieldAt b.payload 2 4 ∧ s.part.trk.holderFor
      (fieldAt b.payload 0 2) = some it.station ∧ s.part.pres.joining ≠ .duplicate ∧ s.part.jrn.pending.getD
      s.part.jrn.release < q ∧ q < s.part.jrn.next ∧ (∃ h users, s.part.hdr.inFlight = some (h, users) ∧
      HeaderUser.journal ∈ users)) ∧
    (∃ (s : State) (it : RxItem) (b : BranchBody) (q : Nat), s.supply.takesEvents = true ∧ s.part.branchFrame
      .journal kindRelease = some (it, b) ∧ b.payload.length = 6 ∧ q = fieldAt b.payload 2 4 ∧ s.part.trk.holderFor
      (fieldAt b.payload 0 2) = some it.station ∧ s.part.pres.joining ≠ .duplicate ∧ s.part.jrn.pending.getD
      s.part.jrn.release < q ∧ q < s.part.jrn.next ∧ (∃ h users, s.part.hdr.inFlight = some (h, users) ∧
      HeaderUser.journal ∉ users)) ∧
    (∃ (s : State) (it : RxItem) (b : BranchBody) (q : Nat), s.supply.takesEvents = true ∧ s.part.branchFrame
      .journal kindRelease = some (it, b) ∧ b.payload.length = 6 ∧ q = fieldAt b.payload 2 4 ∧ s.part.trk.holderFor
      (fieldAt b.payload 0 2) = some it.station ∧ s.part.pres.joining ≠ .duplicate ∧ (q ≤ s.part.jrn.pending.getD
      s.part.jrn.release ∨ s.part.jrn.next ≤ q) ∧ q ≤ s.part.jrn.pending.getD s.part.jrn.release) ∧
    (∃ (s : State) (it : RxItem) (b : BranchBody) (q : Nat), s.supply.takesEvents = true ∧ s.part.branchFrame
      .journal kindRelease = some (it, b) ∧ b.payload.length = 6 ∧ q = fieldAt b.payload 2 4 ∧ s.part.trk.holderFor
      (fieldAt b.payload 0 2) = some it.station ∧ s.part.pres.joining ≠ .duplicate ∧ (q ≤ s.part.jrn.pending.getD
      s.part.jrn.release ∨ s.part.jrn.next ≤ q) ∧ s.part.jrn.next ≤ q) ∧
    (∃ (s : State) (it : RxItem) (b : BranchBody) (q : Nat), s.supply.takesEvents = true ∧ s.part.branchFrame
      .journal kindRelease = some (it, b) ∧ b.payload.length = 6 ∧ q = fieldAt b.payload 2 4 ∧ (s.part.trk.holderFor
      (fieldAt b.payload 0 2) ≠ some it.station ∨ s.part.pres.joining = .duplicate)) ∧
    (∃ (s : State) (h : HeaderCopy), s.supply.takesEvents = true ∧ s.part.hdr.inFlight = some (h, [.journal]) ∧
      s.part.hdr.finished = true ∧ s.part.hdr.waiting = [] ∧ s.part.jrn.pending = some h.release) ∧
    (∃ (s : State) (h : HeaderCopy), ∃ q, s.supply.takesEvents = true ∧ s.part.hdr.inFlight = some (h, [.journal]) ∧
      s.part.hdr.finished = true ∧ s.part.hdr.waiting = [] ∧ s.part.jrn.pending = some q ∧ q ≠ h.release) :=
  ⟨⟨run (heard .journal kindRelease (be 2 4 ++ be 4 10) ({ ledger journal part with trk := { holder := some (5, 4) }, hdr := {} })), heardItem (be 2 4 ++ be 4 10), body kindRelease (be 2 4 ++ be 4 10), 10, by (repeat' apply And.intro) <;> decide +kernel⟩,
   ⟨run (heard .journal kindRelease (be 2 4 ++ be 4 10) ({ ledger journal part with trk := { holder := some (5, 4) }, hdr := { inFlight := some ({}, [.journal]) } })), heardItem (be 2 4 ++ be 4 10), body kindRelease (be 2 4 ++ be 4 10), 10, by (repeat' apply And.intro) <;> first | decide +kernel | exact ⟨_, _, rfl, by decide⟩⟩,
   ⟨run (heard .journal kindRelease (be 2 4 ++ be 4 10) ({ ledger journal part with trk := { holder := some (5, 4) }, hdr := { inFlight := some ({}, [.pricing]) } })), heardItem (be 2 4 ++ be 4 10), body kindRelease (be 2 4 ++ be 4 10), 10, by (repeat' apply And.intro) <;> first | decide +kernel | exact ⟨_, _, rfl, by decide⟩⟩,
   ⟨run (heard .journal kindRelease (be 2 4 ++ be 4 0) ({ ledger journal part with trk := { holder := some (5, 4) }, hdr := {} })), heardItem (be 2 4 ++ be 4 0), body kindRelease (be 2 4 ++ be 4 0), 0, by (repeat' apply And.intro) <;> decide +kernel⟩,
   ⟨run (heard .journal kindRelease (be 2 4 ++ be 4 11) ({ ledger journal part with trk := { holder := some (5, 4) }, hdr := {} })), heardItem (be 2 4 ++ be 4 11), body kindRelease (be 2 4 ++ be 4 11), 11, by (repeat' apply And.intro) <;> decide +kernel⟩,
   ⟨run (heard .journal kindRelease (be 2 3 ++ be 4 1) ({ ledger journal part with trk := { holder := some (5, 4) }, hdr := {} })), heardItem (be 2 3 ++ be 4 1), body kindRelease (be 2 3 ++ be 4 1), 1, by (repeat' apply And.intro) <;> decide +kernel⟩,
   ⟨run ({ part with jrn := { journal with pending := some 3 }, hdr := { inFlight := some ({ release := 3 }, [.journal]), finished := true } }), { release := 3 }, by (repeat' apply And.intro) <;> decide +kernel⟩,
   ⟨run ({ part with jrn := { journal with pending := some 4 }, hdr := { inFlight := some ({ release := 3 }, [.journal]), finished := true } }), { release := 3 }, 4, by (repeat' apply And.intro) <;> decide +kernel⟩⟩

theorem meets_LabelHeadComesAndGoes :
    (∃ (s : State) (it : RxItem) (b : Bytes), s.supply.takesEvents = true ∧ s.part.linkFrame .label .label = some
      (it, b) ∧ s.part.lab.urgent = [] ∧ s.part.lab.routine = [] ∧ fieldAt b 0 1 = 4) ∧
    (∃ (s : State) (it : RxItem) (b : Bytes), s.supply.takesEvents = true ∧ s.part.linkFrame .label .label = some
      (it, b) ∧ s.part.lab.urgent = [] ∧ s.part.lab.routine = [] ∧ fieldAt b 0 1 ≠ 2 ∧ fieldAt b 0 1 ≠ 3 ∧ fieldAt b
      0 1 ≠ 4) ∧
    (∃ s : State, s.supply.takesEvents = true ∧ s.part.lab.headUp = true ∧ s.part.lab.headTimer = true ∧
      s.part.lab.window = []) ∧
    (∃ s : State, ∃ o e, s.supply.takesEvents = true ∧ s.part.lab.headUp = true ∧ s.part.lab.headTimer = true ∧
      s.part.lab.window = [o] ∧ s.part.labelAt o.index = some e ∧ o.index < 4096 ∧ e.state = .sent ∧ e.tag = some
      o.tag ∧ (s.part.find e.item).1 = .notFound) :=
  ⟨⟨run (given .label .label 0 [4] (part)), item .label 0 [4].length, [4], by (repeat' apply And.intro) <;> decide +kernel⟩,
   ⟨run (given .label .label 0 [5] (part)), item .label 0 [5].length, [5], by (repeat' apply And.intro) <;> decide +kernel⟩,
   ⟨run ({ part with lab := { headUp := true, headTimer := true } }), by (repeat' apply And.intro) <;> decide +kernel⟩,
   ⟨run (ordering (shelf ({ label .sent with tag := some 3, sent := some .blank }) part)), order, { label .sent with tag := some 3, sent := some .blank }, by (repeat' apply And.intro) <;> decide +kernel⟩⟩

set_option maxRecDepth 20000 in
theorem meets_OrdersAndReports :
    (∃ (s : State) (i b : Nat) (free : List Nat) (e : LabelEntry) (c : LabelContent), s.supply.takesEvents = true ∧
      s.part.ordersGo = true ∧ s.part.lab.urgent = [] ∧ s.part.lab.routine = [i] ∧ s.part.labelAt i = some e ∧ i <
      4096 ∧ (((s.part.find e.item).1 = .notFound ∧ c = .blank) ∨ ∃ k x, (s.part.find e.item).1 = .entry k x ∧ c =
      e.layout.cut x.stage5.1 x.stage5.2.1 x.stage5.2.2) ∧ (e.shown = .unknown ∨ e.shown ≠ c) ∧ s.part.lab.window =
      [] ∧ s.part.fwd.free = b :: free ∧ s.bufferFree ∧ (s.part.find e.item).1 = .notFound) ∧
    (∃ (s : State) (i b : Nat) (free : List Nat) (e : LabelEntry) (c : LabelContent), s.supply.takesEvents = true ∧
      s.part.ordersGo = true ∧ s.part.lab.urgent = [] ∧ s.part.lab.routine = [i] ∧ s.part.labelAt i = some e ∧ i <
      4096 ∧ (((s.part.find e.item).1 = .notFound ∧ c = .blank) ∨ ∃ k x, (s.part.find e.item).1 = .entry k x ∧ c =
      e.layout.cut x.stage5.1 x.stage5.2.1 x.stage5.2.2) ∧ (e.shown = .unknown ∨ e.shown ≠ c) ∧ s.part.lab.window =
      [] ∧ s.part.fwd.free = b :: free ∧ s.bufferFree) ∧
    (∃ (s : State) (o : Order) (e : LabelEntry), ∃ it b bat, s.supply.takesEvents = true ∧ s.part.lab.headUp = true ∧
      s.part.lab.urgent = [] ∧ s.part.lab.routine = [] ∧ s.part.lab.walk = .none ∧ s.part.lab.window = [o] ∧
      s.part.labelAt o.index = some e ∧ o.index < 4096 ∧ o.sentNotice = true ∧ o.orphan = false ∧ s.part.price.events
      = [] ∧ s.part.linkFrame .label .label = some (it, b) ∧ fieldAt b 0 1 = 2 ∧ b.length = 8 ∧ Battery.ofCode
      (fieldAt b 6 1) = some bat ∧ (o.tag ≠ byteAt b 1 ∨ o.id ≠ fieldAt b 2 3) ∧ fieldAt b 5 1 ≤ 2) ∧
    (∃ (s : State) (o : Order) (e : LabelEntry), ∃ it b bat, s.supply.takesEvents = true ∧ s.part.lab.headUp = true ∧
      s.part.lab.urgent = [] ∧ s.part.lab.routine = [] ∧ s.part.lab.walk = .none ∧ s.part.lab.window = [o] ∧
      s.part.labelAt o.index = some e ∧ o.index < 4096 ∧ o.sentNotice = true ∧ o.orphan = false ∧ s.part.price.events
      = [] ∧ s.part.linkFrame .label .label = some (it, b) ∧ fieldAt b 0 1 = 2 ∧ b.length = 8 ∧ Battery.ofCode
      (fieldAt b 6 1) = some bat ∧ (o.tag ≠ byteAt b 1 ∨ o.id ≠ fieldAt b 2 3) ∧ fieldAt b 5 1 ≤ 2) ∧
    (∃ (s : State) (o : Order) (e : LabelEntry), ∃ it b bat, ∃ c, s.supply.takesEvents = true ∧ s.part.lab.headUp =
      true ∧ s.part.lab.urgent = [] ∧ s.part.lab.routine = [] ∧ s.part.lab.walk = .none ∧ s.part.lab.window = [o] ∧
      s.part.labelAt o.index = some e ∧ o.index < 4096 ∧ o.sentNotice = true ∧ o.orphan = false ∧ s.part.price.events
      = [] ∧ s.part.linkFrame .label .label = some (it, b) ∧ fieldAt b 0 1 = 2 ∧ b.length = 8 ∧ Battery.ofCode
      (fieldAt b 6 1) = some bat ∧ o.tag = byteAt b 1 ∧ o.id = fieldAt b 2 3 ∧ fieldAt b 5 1 = 0 ∧ (((s.part.find
      e.item).1 = .notFound ∧ c = .blank) ∨ ∃ k x, (s.part.find e.item).1 = .entry k x ∧ c = e.layout.cut x.stage5.1
      x.stage5.2.1 x.stage5.2.2) ∧ o.content = c) ∧
    (∃ (s : State) (o : Order) (e : LabelEntry), ∃ it b bat, ∃ c, s.supply.takesEvents = true ∧ s.part.lab.headUp =
      true ∧ s.part.lab.urgent = [] ∧ s.part.lab.routine = [] ∧ s.part.lab.walk = .none ∧ s.part.lab.window = [o] ∧
      s.part.labelAt o.index = some e ∧ o.index < 4096 ∧ o.sentNotice = true ∧ o.orphan = false ∧ s.part.price.events
      = [] ∧ s.part.linkFrame .label .label = some (it, b) ∧ fieldAt b 0 1 = 2 ∧ b.length = 8 ∧ Battery.ofCode
      (fieldAt b 6 1) = some bat ∧ o.tag = byteAt b 1 ∧ o.id = fieldAt b 2 3 ∧ fieldAt b 5 1 = 0 ∧ (((s.part.find
      e.item).1 = .notFound ∧ c = .blank) ∨ ∃ k x, (s.part.find e.item).1 = .entry k x ∧ c = e.layout.cut x.stage5.1
      x.stage5.2.1 x.stage5.2.2) ∧ o.content = c) ∧
    (∃ (s : State) (o : Order) (e : LabelEntry), ∃ it b bat, ∃ c w u, s.supply.takesEvents = true ∧ s.part.lab.headUp
      = true ∧ s.part.lab.urgent = [] ∧ s.part.lab.routine = [] ∧ s.part.lab.walk = .none ∧ s.part.lab.window = [o] ∧
      s.part.labelAt o.index = some e ∧ o.index < 4096 ∧ o.sentNotice = true ∧ o.orphan = false ∧ s.part.price.events
      = [] ∧ s.part.linkFrame .label .label = some (it, b) ∧ fieldAt b 0 1 = 2 ∧ b.length = 8 ∧ Battery.ofCode
      (fieldAt b 6 1) = some bat ∧ o.tag = byteAt b 1 ∧ o.id = fieldAt b 2 3 ∧ fieldAt b 5 1 = 0 ∧ (((s.part.find
      e.item).1 = .notFound ∧ c = .blank ∧ u = PushQueue.routine) ∨ ∃ k x, (s.part.find e.item).1 = .entry k x ∧ c =
      e.layout.cut x.stage5.1 x.stage5.2.1 x.stage5.2.2 ∧ u = if x.hold = true then .urgent else .routine) ∧
      (o.content ≠ c ∨ o.content = .unknown) ∧ s.part.ordersGo = false ∧ w =
      { e with battery := bat, signal := fieldAt b 7 1, shown := o.content, attempts := 0, tag := none, due := none, state := .queued, queue := some u }) ∧
    (∃ (s : State) (o : Order) (e : LabelEntry), ∃ it b bat, ∃ c w u, s.supply.takesEvents = true ∧ s.part.lab.headUp
      = true ∧ s.part.lab.urgent = [] ∧ s.part.lab.routine = [] ∧ s.part.lab.walk = .none ∧ s.part.lab.window = [o] ∧
      s.part.labelAt o.index = some e ∧ o.index < 4096 ∧ o.sentNotice = true ∧ o.orphan = false ∧ s.part.price.events
      = [] ∧ s.part.linkFrame .label .label = some (it, b) ∧ fieldAt b 0 1 = 2 ∧ b.length = 8 ∧ Battery.ofCode
      (fieldAt b 6 1) = some bat ∧ o.tag = byteAt b 1 ∧ o.id = fieldAt b 2 3 ∧ fieldAt b 5 1 = 0 ∧ (((s.part.find
      e.item).1 = .notFound ∧ c = .blank ∧ u = PushQueue.routine) ∨ ∃ k x, (s.part.find e.item).1 = .entry k x ∧ c =
      e.layout.cut x.stage5.1 x.stage5.2.1 x.stage5.2.2 ∧ u = if x.hold = true then .urgent else .routine) ∧
      (o.content ≠ c ∨ o.content = .unknown) ∧ s.part.ordersGo = false ∧ w =
      { e with battery := bat, signal := fieldAt b 7 1, shown := o.content, attempts := 0, tag := none, due := none, state := .queued, queue := some u }) ∧
    (∃ (s : State) (o : Order) (e : LabelEntry), ∃ it b bat, ∃ c w u, s.supply.takesEvents = true ∧ s.part.lab.headUp
      = true ∧ s.part.lab.urgent = [] ∧ s.part.lab.routine = [] ∧ s.part.lab.walk = .none ∧ s.part.lab.window = [o] ∧
      s.part.labelAt o.index = some e ∧ o.index < 4096 ∧ o.sentNotice = true ∧ o.orphan = false ∧ s.part.price.events
      = [] ∧ s.part.linkFrame .label .label = some (it, b) ∧ fieldAt b 0 1 = 2 ∧ b.length = 8 ∧ Battery.ofCode
      (fieldAt b 6 1) = some bat ∧ o.tag = byteAt b 1 ∧ o.id = fieldAt b 2 3 ∧ fieldAt b 5 1 = 0 ∧ (((s.part.find
      e.item).1 = .notFound ∧ c = .blank ∧ u = PushQueue.routine) ∨ ∃ k x, (s.part.find e.item).1 = .entry k x ∧ c =
      e.layout.cut x.stage5.1 x.stage5.2.1 x.stage5.2.2 ∧ u = if x.hold = true then .urgent else .routine) ∧
      (o.content ≠ c ∨ o.content = .unknown) ∧ s.part.ordersGo = false ∧ w =
      { e with battery := bat, signal := fieldAt b 7 1, shown := o.content, attempts := 0, tag := none, due := none, state := .queued, queue := some u }) ∧
    (∃ (s : State) (o : Order) (e : LabelEntry), ∃ it b bat, s.supply.takesEvents = true ∧ s.part.lab.headUp = true ∧
      s.part.lab.urgent = [] ∧ s.part.lab.routine = [] ∧ s.part.lab.walk = .none ∧ s.part.lab.window = [o] ∧
      s.part.labelAt o.index = some e ∧ o.index < 4096 ∧ o.sentNotice = true ∧ o.orphan = false ∧ s.part.price.events
      = [] ∧ s.part.linkFrame .label .label = some (it, b) ∧ fieldAt b 0 1 = 2 ∧ b.length = 8 ∧ Battery.ofCode
      (fieldAt b 6 1) = some bat ∧ o.tag = byteAt b 1 ∧ o.id = fieldAt b 2 3 ∧ fieldAt b 5 1 = 1 ∧ e.attempts + 1 < 5
      ∧ e.attempts = 3) ∧
    (∃ (s : State) (o : Order) (e : LabelEntry), ∃ it b bat, s.supply.takesEvents = true ∧ s.part.lab.headUp = true ∧
      s.part.lab.urgent = [] ∧ s.part.lab.routine = [] ∧ s.part.lab.walk = .none ∧ s.part.lab.window = [o] ∧
      s.part.labelAt o.index = some e ∧ o.index < 4096 ∧ o.sentNotice = true ∧ o.orphan = false ∧ s.part.price.events
      = [] ∧ s.part.linkFrame .label .label = some (it, b) ∧ fieldAt b 0 1 = 2 ∧ b.length = 8 ∧ Battery.ofCode
      (fieldAt b 6 1) = some bat ∧ o.tag = byteAt b 1 ∧ o.id = fieldAt b 2 3 ∧ fieldAt b 5 1 = 2) ∧
    (∃ (s : State) (o : Order) (e : LabelEntry), s.supply.takesEvents = true ∧ s.part.lab.headUp = true ∧
      s.part.lab.urgent = [] ∧ s.part.lab.routine = [] ∧ s.part.lab.walk = .none ∧ s.part.lab.window = [o] ∧
      s.part.labelAt o.index = some e ∧ o.index < 4096 ∧ o.sentNotice = true ∧ o.orphan = false ∧ s.part.price.events
      = [] ∧ e.attempts + 1 < 5 ∧ e.attempts = 3) ∧
    (∃ (s : State) (o : Order) (e : LabelEntry), s.supply.takesEvents = true ∧ s.part.lab.headUp = true ∧
      s.part.lab.urgent = [] ∧ s.part.lab.routine = [] ∧ s.part.lab.walk = .none ∧ s.part.lab.window = [o] ∧
      s.part.labelAt o.index = some e ∧ o.index < 4096 ∧ o.sentNotice = true ∧ o.orphan = false ∧ s.part.price.events
      = [] ∧ e.attempts + 1 = 5) :=
  ⟨⟨run ({ shelf ({ label .queued with shown := .unknown }) part with lab := { headUp := true, routine := [0] } }), 0, 0, [1, 2, 3, 4, 5, 6, 7, 8, 9, 10, 11, 12, 13, 14, 15, 16, 17, 18, 19], { label .queued with shown := .unknown }, .blank, by (repeat' apply And.intro) <;> first | decide +kernel | exact Or.inl (by decide +kernel)⟩,
   ⟨run ({ shelf ({ label .queued with item := 5, shown := .unknown, queue := some .routine }) (selling milk part) with lab := { headUp := true, routine := [0] } }), 0, 0, [1, 2, 3, 4, 5, 6, 7, 8, 9, 10, 11, 12, 13, 14, 15, 16, 17, 18, 19], { label .queued with item := 5, shown := .unknown, queue := some .routine }, .priced (.value 199) .none .none, by (repeat' apply And.intro) <;> first | decide +kernel | exact Or.inr ⟨0, milk, by decide +kernel, by decide +kernel⟩⟩,
   ⟨run (given .label .label 0 ([2, 4] ++ be 3 1 ++ [0, 0, 9]) ({ ordering (shelf ({ label .sent with tag := some 3, sent := some .blank }) part) with lab := { headUp := true, window := [order] } })), order, { label .sent with tag := some 3, sent := some .blank }, item .label 0 ([2, 4] ++ be 3 1 ++ [0, 0, 9]).length, ([2, 4] ++ be 3 1 ++ [0, 0, 9]), .ok, by (repeat' apply And.intro) <;> decide +kernel⟩,
   ⟨run (given .label .label 0 ([2, 3] ++ be 3 1 ++ [2, 0, 9]) ({ ordering (shelf ({ label .sent with tag := some 3, sent := some .blank }) part) with lab := { headUp := true, window := [{ order with id := 2 }] } })), { order with id := 2 }, { label .sent with tag := some 3, sent := some .blank }, item .label 0 ([2, 3] ++ be 3 1 ++ [2, 0, 9]).length, ([2, 3] ++ be 3 1 ++ [2, 0, 9]), .ok, by (repeat' apply And.intro) <;> decide +kernel⟩,
   ⟨run (given .label .label 0 ([2, 3] ++ be 3 1 ++ [0, 0, 9]) ({ ordering (shelf ({ label .sent with tag := some 3, sent := some .blank }) part) with lab := { headUp := true, window := [order] } })), order, { label .sent with tag := some 3, sent := some .blank }, item .label 0 ([2, 3] ++ be 3 1 ++ [0, 0, 9]).length, ([2, 3] ++ be 3 1 ++ [0, 0, 9]), .ok, .blank, by (repeat' apply And.intro) <;> first | decide +kernel | exact Or.inl (by decide +kernel)⟩,
   ⟨run (given .label .label 0 ([2, 3] ++ be 3 1 ++ [0, 0, 9]) ({ ordering (shelf ({ label .sent with item := 5, tag := some 3, sent := some .blank }) (selling milk part)) with lab := { headUp := true, window := [{ order with content := .priced (.value 199) .none .none }] }, pres := { joining := .duplicate } })), { order with content := .priced (.value 199) .none .none }, { label .sent with item := 5, tag := some 3, sent := some .blank }, item .label 0 ([2, 3] ++ be 3 1 ++ [0, 0, 9]).length, ([2, 3] ++ be 3 1 ++ [0, 0, 9]), .ok, .priced (.value 199) .none .none, by (repeat' apply And.intro) <;> first | decide +kernel | exact Or.inr ⟨0, milk, by decide +kernel, by decide +kernel⟩⟩,
   ⟨run (given .label .label 0 ([2, 3] ++ be 3 1 ++ [0, 0, 9]) ({ ordering (shelf ({ label .sent with item := 5, tag := some 3, sent := some .blank }) (selling milk part)) with lab := { headUp := true, window := [{ order with content := .blank }] }, pres := { joining := .duplicate } })), { order with content := .blank }, { label .sent with item := 5, tag := some 3, sent := some .blank }, item .label 0 ([2, 3] ++ be 3 1 ++ [0, 0, 9]).length, ([2, 3] ++ be 3 1 ++ [0, 0, 9]), .ok, .priced (.value 199) .none .none, { { label .sent with item := 5, tag := some 3, sent := some .blank } with battery := .ok, signal := 9, shown := .blank, attempts := 0, tag := none, due := none, state := .queued, queue := some .urgent }, .urgent, by (repeat' apply And.intro) <;> first | decide +kernel | exact Or.inr ⟨0, milk, by decide +kernel, by decide +kernel, by decide +kernel⟩⟩,
   ⟨run (given .label .label 0 ([2, 3] ++ be 3 1 ++ [0, 0, 9]) ({ ordering (shelf ({ label .sent with item := 5, tag := some 3, sent := some .blank }) (selling milk part)) with lab := { headUp := true, window := [{ order with content := .unknown }] }, pres := { joining := .duplicate } })), { order with content := .unknown }, { label .sent with item := 5, tag := some 3, sent := some .blank }, item .label 0 ([2, 3] ++ be 3 1 ++ [0, 0, 9]).length, ([2, 3] ++ be 3 1 ++ [0, 0, 9]), .ok, .priced (.value 199) .none .none, { { label .sent with item := 5, tag := some 3, sent := some .blank } with battery := .ok, signal := 9, shown := .unknown, attempts := 0, tag := none, due := none, state := .queued, queue := some .urgent }, .urgent, by (repeat' apply And.intro) <;> first | decide +kernel | exact Or.inr ⟨0, milk, by decide +kernel, by decide +kernel, by decide +kernel⟩⟩,
   ⟨run (given .label .label 0 ([2, 3] ++ be 3 1 ++ [0, 0, 9]) ({ ordering (shelf ({ label .sent with item := 5, tag := some 3, sent := some .blank }) (part)) with lab := { headUp := true, window := [{ order with content := .unknown }] }, pres := { joining := .duplicate } })), { order with content := .unknown }, { label .sent with item := 5, tag := some 3, sent := some .blank }, item .label 0 ([2, 3] ++ be 3 1 ++ [0, 0, 9]).length, ([2, 3] ++ be 3 1 ++ [0, 0, 9]), .ok, .blank, { { label .sent with item := 5, tag := some 3, sent := some .blank } with battery := .ok, signal := 9, shown := .unknown, attempts := 0, tag := none, due := none, state := .queued, queue := some .routine }, .routine, by (repeat' apply And.intro) <;> first | decide +kernel | exact Or.inl (by decide +kernel)⟩,
   ⟨run (given .label .label 0 ([2, 3] ++ be 3 1 ++ [1, 0, 9]) ({ ordering (shelf ({ label .sent with tag := some 3, sent := some .blank, attempts := 3 }) part) with lab := { headUp := true, window := [order] } })), order, { label .sent with tag := some 3, sent := some .blank, attempts := 3 }, item .label 0 ([2, 3] ++ be 3 1 ++ [1, 0, 9]).length, ([2, 3] ++ be 3 1 ++ [1, 0, 9]), .ok, by (repeat' apply And.intro) <;> decide +kernel⟩,
   ⟨run (given .label .label 0 ([2, 3] ++ be 3 1 ++ [2, 0, 9]) ({ ordering (shelf ({ label .sent with tag := some 3, sent := some .blank }) part) with lab := { headUp := true, window := [order] } })), order, { label .sent with tag := some 3, sent := some .blank }, item .label 0 ([2, 3] ++ be 3 1 ++ [2, 0, 9]).length, ([2, 3] ++ be 3 1 ++ [2, 0, 9]), .ok, by (repeat' apply And.intro) <;> decide +kernel⟩,
   ⟨run ({ ordering (shelf ({ label .sent with tag := some 3, sent := some .blank, attempts := 3 }) part) with lab := { headUp := true, window := [order] } }), order, { label .sent with tag := some 3, sent := some .blank, attempts := 3 }, by (repeat' apply And.intro) <;> decide +kernel⟩,
   ⟨run ({ ordering (shelf ({ label .sent with tag := some 3, sent := some .blank }) part) with lab := { headUp := true, window := [order] } }), order, { label .sent with tag := some 3, sent := some .blank }, by (repeat' apply And.intro) <;> decide +kernel⟩⟩

theorem meets_OrdersAndReports_orphaned :
    ∃ (s : State) (o : Order), s.supply.takesEvents = true ∧ s.part.lab.urgent = [] ∧ s.part.lab.routine = [] ∧
      s.part.lab.window = [o] ∧ o.sentNotice = true ∧ o.orphan = true :=
  ⟨run { part with lab := { headUp := true, window := [{ order with orphan := true }] } }, { order with orphan := true }, by (repeat' apply And.intro) <;> decide +kernel⟩

set_option maxRecDepth 20000 in
theorem meets_NoticesRetriesAndWalks :
    (∃ s : State, ∃ it b, ∃ (i : Nat) (e e' : LabelEntry) (bat : Battery), s.supply.takesEvents = true ∧
      s.part.price.events = [] ∧ s.part.ordersGo = false ∧ s.part.linkFrame .label .label = some (it, b) ∧ fieldAt b
      0 1 = 3 ∧ b.length = 6 ∧ s.part.labelsReady = true ∧ s.part.lab.headUp = true ∧ s.part.findLabel (fieldAt b 1
      3) = some (i, e) ∧ Battery.ofCode (fieldAt b 4 1) = some bat ∧ fieldAt b 1 3 ≠ 0 ∧ e' =
      { e with battery := bat } ∧ (fieldAt b 5 1 = 0 ∨ (fieldAt b 5 1 = 1 ∧ (e.state = .queued ∨ e.state = .sent)))) ∧
    (∃ s : State, ∃ it b, ∃ (i : Nat) (e e' : LabelEntry) (bat : Battery), s.supply.takesEvents = true ∧
      s.part.price.events = [] ∧ s.part.ordersGo = false ∧ s.part.linkFrame .label .label = some (it, b) ∧ fieldAt b
      0 1 = 3 ∧ b.length = 6 ∧ s.part.labelsReady = true ∧ s.part.lab.headUp = true ∧ s.part.findLabel (fieldAt b 1
      3) = some (i, e) ∧ Battery.ofCode (fieldAt b 4 1) = some bat ∧ fieldAt b 1 3 ≠ 0 ∧ e' =
      { e with battery := bat } ∧ (fieldAt b 5 1 = 0 ∨ (fieldAt b 5 1 = 1 ∧ (e.state = .queued ∨ e.state = .sent)))) ∧
    (∃ s : State, ∃ it b, ∃ (i : Nat) (e e' : LabelEntry) (bat : Battery), ∃ (w : LabelEntry), s.supply.takesEvents =
      true ∧ s.part.price.events = [] ∧ s.part.ordersGo = false ∧ s.part.linkFrame .label .label = some (it, b) ∧
      fieldAt b 0 1 = 3 ∧ b.length = 6 ∧ s.part.labelsReady = true ∧ s.part.lab.headUp = true ∧ s.part.findLabel
      (fieldAt b 1 3) = some (i, e) ∧ Battery.ofCode (fieldAt b 4 1) = some bat ∧ fieldAt b 1 3 ≠ 0 ∧ e' =
      { e with battery := bat } ∧ fieldAt b 5 1 = 1 ∧ (e.state = .current ∨ e.state = .retryWait ∨ e.state =
      .unreachable) ∧ (s.part.find e.item).1 = .notFound ∧ w =
      { e' with state := .queued, queue := some .routine, tag := none, due := none, shown := if e.state = .current then .unknown else e.shown, attempts := if e.state = .unreachable then 0 else e.attempts }) ∧
    (∃ s : State, ∃ it b, ∃ (i : Nat) (e e' : LabelEntry) (bat : Battery), ∃ (w : LabelEntry), s.supply.takesEvents =
      true ∧ s.part.price.events = [] ∧ s.part.ordersGo = false ∧ s.part.linkFrame .label .label = some (it, b) ∧
      fieldAt b 0 1 = 3 ∧ b.length = 6 ∧ s.part.labelsReady = true ∧ s.part.lab.headUp = true ∧ s.part.findLabel
      (fieldAt b 1 3) = some (i, e) ∧ Battery.ofCode (fieldAt b 4 1) = some bat ∧ fieldAt b 1 3 ≠ 0 ∧ e' =
      { e with battery := bat } ∧ fieldAt b 5 1 = 1 ∧ (e.state = .current ∨ e.state = .retryWait ∨ e.state =
      .unreachable) ∧ (s.part.find e.item).1 = .notFound ∧ w =
      { e' with state := .queued, queue := some .routine, tag := none, due := none, shown := if e.state = .current then .unknown else e.shown, attempts := if e.state = .unreachable then 0 else e.attempts }) ∧
    (∃ s : State, ∃ it b, ∃ (i : Nat) (e e' : LabelEntry) (bat : Battery), ∃ (w : LabelEntry), s.supply.takesEvents =
      true ∧ s.part.price.events = [] ∧ s.part.ordersGo = false ∧ s.part.linkFrame .label .label = some (it, b) ∧
      fieldAt b 0 1 = 3 ∧ b.length = 6 ∧ s.part.labelsReady = true ∧ s.part.lab.headUp = true ∧ s.part.findLabel
      (fieldAt b 1 3) = some (i, e) ∧ Battery.ofCode (fieldAt b 4 1) = some bat ∧ fieldAt b 1 3 ≠ 0 ∧ e' =
      { e with battery := bat } ∧ fieldAt b 5 1 = 1 ∧ (e.state = .current ∨ e.state = .retryWait ∨ e.state =
      .unreachable) ∧ (s.part.find e.item).1 = .notFound ∧ w =
      { e' with state := .queued, queue := some .routine, tag := none, due := none, shown := if e.state = .current then .unknown else e.shown, attempts := if e.state = .unreachable then 0 else e.attempts }) ∧
    (∃ s : State, ∃ it b, s.supply.takesEvents = true ∧ s.part.price.events = [] ∧ s.part.ordersGo = false ∧
      s.part.linkFrame .label .label = some (it, b) ∧ fieldAt b 0 1 = 3 ∧ b.length = 6 ∧ s.part.labelsReady = true ∧
      s.part.lab.headUp = true ∧ s.part.findLabel (fieldAt b 1 3) = none) ∧
    (∃ s : State, s.supply.takesEvents = true ∧ s.part.price.events = [] ∧ s.part.ordersGo = false ∧
      s.part.labelsReady = true ∧ s.part.labelsInUse = []) ∧
    (∃ s : State, ∃ i e d, s.supply.takesEvents = true ∧ s.part.price.events = [] ∧ s.part.ordersGo = false ∧
      s.part.labelsReady = true ∧ s.part.labelsInUse = [i] ∧ s.part.labelAt i = some e ∧ e.state = .retryWait ∧ e.due
      = some d ∧ d ≤ s.part.lab.retrySeconds + 1 ∧ (s.part.find e.item).1 = .notFound) ∧
    (∃ s : State, ∃ i, s.supply.takesEvents = true ∧ s.part.price.events = [] ∧ s.part.ordersGo = false ∧
      s.part.lab.walk = .walking i ∧ (s.part.labelAt i = none ∨ ∃ e, s.part.labelAt i = some e ∧ e.walked = true) ∧ i
      + 1 < 4096) ∧
    (∃ s : State, ∃ i, s.supply.takesEvents = true ∧ s.part.price.events = [] ∧ s.part.ordersGo = false ∧
      s.part.lab.walk = .walking i ∧ (s.part.labelAt i = none ∨ ∃ e, s.part.labelAt i = some e ∧ e.walked = true) ∧ i
      + 1 < 4096) ∧
    (∃ s : State, ∃ i, ∃ (e : LabelEntry), ∃ (w : LabelEntry), s.supply.takesEvents = true ∧ s.part.price.events = []
      ∧ s.part.ordersGo = false ∧ s.part.lab.walk = .walking i ∧ s.part.labelAt i = some e ∧ i + 1 < 4096 ∧ e.walked
      = false ∧ (s.part.find e.item).1 = .notFound ∧ e.shown = .blank ∧ e.state ≠ .sent ∧ w =
      { e with walked := true, state := .current, queue := if e.state = .queued then none else e.queue, attempts := if e.state = .retryWait ∨ e.state = .unreachable then 0 else e.attempts, due := if e.state = .retryWait ∨ e.state = .unreachable then none else e.due }) ∧
    (∃ s : State, ∃ i, ∃ (e : LabelEntry), ∃ (w : LabelEntry), s.supply.takesEvents = true ∧ s.part.price.events = []
      ∧ s.part.ordersGo = false ∧ s.part.lab.walk = .walking i ∧ s.part.labelAt i = some e ∧ i + 1 < 4096 ∧ e.walked
      = false ∧ (s.part.find e.item).1 = .notFound ∧ e.shown = .blank ∧ e.state ≠ .sent ∧ w =
      { e with walked := true, state := .current, queue := if e.state = .queued then none else e.queue, attempts := if e.state = .retryWait ∨ e.state = .unreachable then 0 else e.attempts, due := if e.state = .retryWait ∨ e.state = .unreachable then none else e.due }) ∧
    (∃ s : State, ∃ i, ∃ (e : LabelEntry), ∃ (w : LabelEntry), s.supply.takesEvents = true ∧ s.part.price.events = []
      ∧ s.part.ordersGo = false ∧ s.part.lab.walk = .walking i ∧ s.part.labelAt i = some e ∧ i + 1 < 4096 ∧ e.walked
      = false ∧ (s.part.find e.item).1 = .notFound ∧ e.shown = .blank ∧ e.state ≠ .sent ∧ w =
      { e with walked := true, state := .current, queue := if e.state = .queued then none else e.queue, attempts := if e.state = .retryWait ∨ e.state = .unreachable then 0 else e.attempts, due := if e.state = .retryWait ∨ e.state = .unreachable then none else e.due }) ∧
    (∃ s : State, ∃ i, ∃ (e : LabelEntry), ∃ (w : LabelEntry), s.supply.takesEvents = true ∧ s.part.price.events = []
      ∧ s.part.ordersGo = false ∧ s.part.lab.walk = .walking i ∧ s.part.labelAt i = some e ∧ i + 1 < 4096 ∧ e.walked
      = false ∧ (s.part.find e.item).1 = .notFound ∧ (e.shown ≠ .blank ∨ e.state = .sent) ∧ w = (if e.state =
      .current then { e with walked := true, state := .queued, queue := some .routine, tag := none, due := none }
      else { e with walked := true })) ∧
    (∃ s : State, ∃ i, ∃ (e : LabelEntry), ∃ (w : LabelEntry), s.supply.takesEvents = true ∧ s.part.price.events = []
      ∧ s.part.ordersGo = false ∧ s.part.lab.walk = .walking i ∧ s.part.labelAt i = some e ∧ i + 1 < 4096 ∧ e.walked
      = false ∧ (s.part.find e.item).1 = .notFound ∧ (e.shown ≠ .blank ∨ e.state = .sent) ∧ w = (if e.state =
      .current then { e with walked := true, state := .queued, queue := some .routine, tag := none, due := none }
      else { e with walked := true })) ∧
    (∃ s : State, ∃ i, s.supply.takesEvents = true ∧ s.part.price.events = [] ∧ s.part.ordersGo = false ∧
      s.part.lab.walk = .walking i ∧ s.part.labelAt i = none ∧ i = 4095 ∧ s.part.price.activeCount = 0) ∧
    (∃ s : State, s.supply.takesEvents = true ∧ s.part.price.events = [] ∧ s.part.ordersGo = false ∧ s.part.lab.warm
      = .pass ∧ s.part.lab.headUp = false ∧ (∀ j, j < 4096 → s.part.labelAt j = none)) ∧
    (∃ s : State, ∃ i e, s.supply.takesEvents = true ∧ s.part.price.events = [] ∧ s.part.ordersGo = false ∧
      s.part.lab.warm = .pass ∧ s.part.lab.headUp = false ∧ i < 4096 ∧ s.part.labelAt i = some e ∧ (∀ j, j < 4096 → j
      ≠ i → s.part.labelAt j = none) ∧ crcGood (s.part.labelBytes i) = false) ∧
    (∃ s : State, ∃ i e, s.supply.takesEvents = true ∧ s.part.price.events = [] ∧ s.part.ordersGo = false ∧
      s.part.lab.warm = .pass ∧ s.part.lab.headUp = false ∧ i < 4096 ∧ s.part.labelAt i = some e ∧ (∀ j, j < 4096 → j
      ≠ i → s.part.labelAt j = none) ∧ crcGood (s.part.labelBytes i) = true ∧ e.walked = false ∧ (s.part.find
      e.item).1 = .notFound ∧ (e.state = .current ∨ e.state = .unreachable)) ∧
    (∃ s : State, ∃ i e, s.supply.takesEvents = true ∧ s.part.price.events = [] ∧ s.part.ordersGo = false ∧
      s.part.lab.warm = .pass ∧ s.part.lab.headUp = false ∧ i < 4096 ∧ s.part.labelAt i = some e ∧ (∀ j, j < 4096 → j
      ≠ i → s.part.labelAt j = none) ∧ crcGood (s.part.labelBytes i) = true ∧ e.walked = false ∧ (s.part.find
      e.item).1 = .notFound ∧ (e.state = .current ∨ e.state = .unreachable)) ∧
    (∃ s : State, ∃ i e, ∃ (w : LabelEntry), s.supply.takesEvents = true ∧ s.part.price.events = [] ∧ s.part.ordersGo
      = false ∧ s.part.lab.warm = .pass ∧ s.part.lab.headUp = false ∧ i < 4096 ∧ s.part.labelAt i = some e ∧ (∀ j, j
      < 4096 → j ≠ i → s.part.labelAt j = none) ∧ crcGood (s.part.labelBytes i) = true ∧ e.walked = false ∧
      (s.part.find e.item).1 = .notFound ∧ e.state ≠ .current ∧ e.state ≠ .unreachable ∧ w =
      { e with state := .queued, queue := some .routine, tag := none, due := none }) ∧
    (∃ s : State, ∃ u : State, ∃ e, s.supply.takesEvents = true ∧ s.part.price.events = [] ∧ s.part.ordersGo = false
      ∧ u = { s with part := { s.part with price := { s.part.price with events := [.countPass] } } } ∧
      s.part.lab.walk = .counting ∧ s.part.price.activeCount = 1 ∧ s.part.goodEntry s.part.price.active 0 = some e) :=
  ⟨⟨run (given .label .label 0 ([3] ++ be 3 1 ++ [1, 0]) ({ shelf (label .current) part with lab := { headUp := true, window := List.replicate 8 order } })), item .label 0 ([3] ++ be 3 1 ++ [1, 0]).length, ([3] ++ be 3 1 ++ [1, 0]), 0, label .current, { label .current with battery := .low }, .low, by (repeat' apply And.intro) <;> decide +kernel⟩,
   ⟨run (given .label .label 0 ([3] ++ be 3 1 ++ [1, 1]) ({ shelf { label .sent with tag := some 3, sent := some .blank } part with lab := { headUp := true, window := List.replicate 8 order } })), item .label 0 ([3] ++ be 3 1 ++ [1, 1]).length, ([3] ++ be 3 1 ++ [1, 1]), 0, { label .sent with tag := some 3, sent := some .blank }, { { label .sent with tag := some 3, sent := some .blank } with battery := .low }, .low, by (repeat' apply And.intro) <;> decide +kernel⟩,
   ⟨run (given .label .label 0 ([3] ++ be 3 1 ++ [1, 1]) ({ shelf (label .current) part with lab := { headUp := true, window := List.replicate 8 order } })), item .label 0 ([3] ++ be 3 1 ++ [1, 1]).length, ([3] ++ be 3 1 ++ [1, 1]), 0, label .current, { label .current with battery := .low }, .low, { label .queued with battery := .low, queue := some .routine, shown := .unknown }, by (repeat' apply And.intro) <;> decide +kernel⟩,
   ⟨run (given .label .label 0 ([3] ++ be 3 1 ++ [1, 1]) ({ shelf ({ label .retryWait with due := some 1 }) part with lab := { headUp := true, window := List.replicate 8 order } })), item .label 0 ([3] ++ be 3 1 ++ [1, 1]).length, ([3] ++ be 3 1 ++ [1, 1]), 0, { label .retryWait with due := some 1 }, { { label .retryWait with due := some 1 } with battery := .low }, .low, { label .queued with battery := .low, queue := some .routine }, by (repeat' apply And.intro) <;> decide +kernel⟩,
   ⟨run (given .label .label 0 ([3] ++ be 3 1 ++ [1, 1]) ({ shelf (label .unreachable) part with lab := { headUp := true, window := List.replicate 8 order } })), item .label 0 ([3] ++ be 3 1 ++ [1, 1]).length, ([3] ++ be 3 1 ++ [1, 1]), 0, label .unreachable, { label .unreachable with battery := .low }, .low, { label .queued with battery := .low, queue := some .routine, attempts := 0 }, by (repeat' apply And.intro) <;> decide +kernel⟩,
   ⟨run (given .label .label 0 ([3] ++ be 3 1 ++ [1, 0]) ({ part with lab := { headUp := true, window := List.replicate 8 order } })), item .label 0 ([3] ++ be 3 1 ++ [1, 0]).length, ([3] ++ be 3 1 ++ [1, 0]), by (repeat' apply And.intro) <;> first | (simp only [Part.findLabel, List.findSome?_eq_none_iff]; intro i _; rw [labelAt_none _ _ (by have h : ∀ c ∈ (given .label .label 0 ([3] ++ be 3 1 ++ [1, 0]) part).dram, c.1 < Config.labelBase := (by decide +kernel); intro c hc; have := h c hc; unfold labelAddr; omega)]) | decide +kernel⟩,
   ⟨run (part), by (repeat' apply And.intro) <;> first | (simp only [Part.labelsInUse, List.filter_eq_nil_iff]; intro i _; rw [labelAt_none _ _ (by intro c hc; cases hc)]; decide) | decide +kernel⟩,
   ⟨run (shelf ({ label .retryWait with due := some 1 }) part), 0, { label .retryWait with due := some 1 }, 1, by (repeat' apply And.intro) <;> first | exact inUse_first _ (by decide +kernel) (by decide +kernel) | decide +kernel⟩,
   ⟨run ({ part with lab := { walk := .walking 4094 } }), 4094, by (repeat' apply And.intro) <;> first | decide +kernel | exact Or.inl (by decide +kernel)⟩,
   ⟨run ({ shelf { label .current with walked := true } part with lab := { walk := .walking 0 } }), 0, by (repeat' apply And.intro) <;> first | decide +kernel | exact Or.inr ⟨{ label .current with walked := true }, by decide +kernel, rfl⟩⟩,
   ⟨run ({ shelf (label .current) part with lab := { walk := .walking 0 } }), 0, label .current, { label .current with walked := true }, by (repeat' apply And.intro) <;> decide +kernel⟩,
   ⟨run ({ shelf ({ label .queued with queue := some .routine }) part with lab := { walk := .walking 0 } }), 0, { label .queued with queue := some .routine }, { label .current with walked := true }, by (repeat' apply And.intro) <;> decide +kernel⟩,
   ⟨run ({ shelf (label .unreachable) part with lab := { walk := .walking 0 } }), 0, label .unreachable, { label .current with walked := true, attempts := 0 }, by (repeat' apply And.intro) <;> decide +kernel⟩,
   ⟨run ({ shelf ({ label .current with shown := .unknown }) part with lab := { walk := .walking 0 } }), 0, { label .current with shown := .unknown }, { label .queued with shown := .unknown, walked := true, queue := some .routine }, by (repeat' apply And.intro) <;> decide +kernel⟩,
   ⟨run ({ shelf ({ label .sent with tag := some 3, sent := some .blank }) part with lab := { walk := .walking 0 } }), 0, { label .sent with tag := some 3, sent := some .blank }, { { label .sent with tag := some 3, sent := some .blank } with walked := true }, by (repeat' apply And.intro) <;> decide +kernel⟩,
   ⟨run ({ part with lab := { walk := .walking 4095 } }), 4095, by (repeat' apply And.intro) <;> decide +kernel⟩,
   ⟨run ({ part with lab := { warm := .pass } }), by (repeat' apply And.intro) <;> first | (intro i hi; exact labelAt_none _ _ (by intro c hc; cases hc)) | decide +kernel⟩,
   ⟨run ({ part with lab := { warm := .pass }, dram := [(labelAddr 0, 1)] }), 0, parseLabel (({ part with dram := [(labelAddr 0, 1)] } : Part).labelBytes 0), by (repeat' apply And.intro) <;> first | (intro j hj hn; have h : ∀ c ∈ ([(labelAddr 0, 1)] : Mem), c.1 < labelAddr 1 := (by decide +kernel); exact labelAt_none _ _ fun c hc => Nat.lt_of_lt_of_le (h c hc) (by unfold labelAddr Config.labelBytes; omega)) | decide +kernel⟩,
   ⟨run ({ shelf (label .current) part with lab := { warm := .pass } }), 0, label .current, by (repeat' apply And.intro) <;> first | (intro j hj hn; have h : ∀ c ∈ ((shelf (label .current) part).dram : Mem), c.1 < labelAddr 1 := (by decide +kernel); exact labelAt_none _ _ fun c hc => Nat.lt_of_lt_of_le (h c hc) (by unfold labelAddr Config.labelBytes; omega)) | decide +kernel⟩,
   ⟨run ({ shelf (label .unreachable) part with lab := { warm := .pass } }), 0, label .unreachable, by (repeat' apply And.intro) <;> first | (intro j hj hn; have h : ∀ c ∈ ((shelf (label .unreachable) part).dram : Mem), c.1 < labelAddr 1 := (by decide +kernel); exact labelAt_none _ _ fun c hc => Nat.lt_of_lt_of_le (h c hc) (by unfold labelAddr Config.labelBytes; omega)) | decide +kernel⟩,
   ⟨run ({ shelf ({ label .sent with tag := some 3, sent := some .blank }) part with lab := { warm := .pass } }), 0, { label .sent with tag := some 3, sent := some .blank }, { { label .sent with tag := some 3, sent := some .blank } with state := .queued, queue := some .routine, tag := none }, by (repeat' apply And.intro) <;> first | (intro j hj hn; have h : ∀ c ∈ ((shelf ({ label .sent with tag := some 3, sent := some .blank }) part).dram : Mem), c.1 < labelAddr 1 := (by decide +kernel); exact labelAt_none _ _ fun c hc => Nat.lt_of_lt_of_le (h c hc) (by unfold labelAddr Config.labelBytes; omega)) | decide +kernel⟩,
   ⟨run ({ selling milk part with price := { activeCount := 1 }, lab := { walk := .counting } }), run ({ selling milk part with price := { activeCount := 1, events := [.countPass] }, lab := { walk := .counting } }), milk, by (repeat' apply And.intro) <;> decide +kernel⟩⟩

theorem meets_RadioAndMeter :
    (∃ (s : State) (it : RxItem) (b : Bytes), s.supply.takesEvents = true ∧ s.part.linkFrame .guest .guest = some
      (it, b) ∧ it.stale = false ∧ fieldAt b 0 1 = 4 ∧ s.part.gst.radioUp = true) ∧
    (∃ (s : State) (it : RxItem) (b : Bytes), ∃ m rest, s.supply.takesEvents = true ∧ s.part.linkFrame .guest .guest
      = some (it, b) ∧ it.stale = false ∧ fieldAt b 0 1 = 4 ∧ s.part.gst.radioUp = false ∧ s.bufferFree ∧
      s.part.fwd.guestCount < 192 ∧ s.part.fwd.free = m :: rest) ∧
    (∃ (s : State) (it : RxItem) (b : Bytes), s.supply.takesEvents = true ∧ s.part.linkFrame .guest .guest = some
      (it, b) ∧ it.stale = false ∧ fieldAt b 0 1 ≠ 1 ∧ fieldAt b 0 1 ≠ 4 ∧ s.part.gst.radioUp = true) ∧
    (∃ (s : State) (i : Nat), s.supply.takesEvents = true ∧ s.part.gst.radioUp = true ∧ s.part.gst.radioTimer = true
      ∧ s.part.admitted = [i]) ∧
    (∃ (s : State) (now : Nat), s.supply.takesEvents = true ∧ now = (s.part.gst.meterTime + 10) % 4294967296 ∧
      s.part.admitted = []) ∧
    (∃ (s : State) (now : Nat), ∃ i g share tokens, s.supply.takesEvents = true ∧ now = (s.part.gst.meterTime + 10) %
      4294967296 ∧ s.part.admitted = [i] ∧ s.part.guestAt i = some g ∧ (now + 4294967296 - g.lastActive) % 4294967296
      < 1000 ∧ share = s.part.budget ∧ tokens = min (max (4 * share) 1536) (min g.tokens (max (4 * share) 1536) +
      share) ∧ tokens ≠ g.tokens) ∧
    (∃ (s : State) (now : Nat), ∃ i g m rest, s.supply.takesEvents = true ∧ now = (s.part.gst.meterTime + 10) %
      4294967296 ∧ s.part.admitted = [i] ∧ s.part.guestAt i = some g ∧ 600000 ≤ (now + 4294967296 - g.lastActive) %
      4294967296 ∧ s.part.gst.radioUp = true ∧ s.bufferFree ∧ s.part.fwd.guestCount < 192 ∧ s.part.fwd.free = m ::
      rest) :=
  ⟨⟨run (given .guest .guest 0 [4] ({ part with gst := { cleared := 256, radioUp := true, radioTimer := true } })), item .guest 0 [4].length, [4], by (repeat' apply And.intro) <;> decide +kernel⟩,
   ⟨run (given .guest .guest 0 [4] ({ { part with fwd := { part.fwd with guestCount := 191 } } with gst := { cleared := 256, radioUp := false, radioTimer := false } })), item .guest 0 [4].length, [4], 0, [1, 2, 3, 4, 5, 6, 7, 8, 9, 10, 11, 12, 13, 14, 15, 16, 17, 18, 19], by (repeat' apply And.intro) <;> decide +kernel⟩,
   ⟨run (given .guest .guest 0 [5] ({ part with gst := { cleared := 256, radioUp := true, radioTimer := true } })), item .guest 0 [5].length, [5], by (repeat' apply And.intro) <;> decide +kernel⟩,
   ⟨run ({ hosting (guest 0 0) part with gst := { cleared := 256, radioUp := true, radioTimer := true } }), 0, by (repeat' apply And.intro) <;> decide +kernel⟩,
   ⟨run ({ part with gst := { cleared := 256, radioUp := true, radioTimer := true, meterTime := 4294967290 } }), 4, by (repeat' apply And.intro) <;> decide +kernel⟩,
   ⟨run ({ hosting (guest 0 1500) part with gst := { cleared := 256, radioUp := true, radioTimer := true, meterTime := 980 } }), 990, 0, guest 0 1500, 100, 1536, by (repeat' apply And.intro) <;> decide +kernel⟩,
   ⟨run ({ hosting (guest 0 0) part with gst := { cleared := 256, radioUp := true, radioTimer := true, meterTime := 599990 } }), 600000, 0, guest 0 0, 0, [1, 2, 3, 4, 5, 6, 7, 8, 9, 10, 11, 12, 13, 14, 15, 16, 17, 18, 19], by (repeat' apply And.intro) <;> decide +kernel⟩⟩

set_option maxHeartbeats 4000000 in
set_option maxRecDepth 20000 in
theorem meets_GuestsAreAdmittedAndPoliced :
    (∃ (s : State) (it : RxItem) (b packet : Bytes), s.supply.takesEvents = true ∧ s.part.linkFrame .guest .guest =
      some (it, b) ∧ it.stale = false ∧ fieldAt b 0 1 = 1 ∧ s.part.gst.radioUp = true ∧ packet = b.drop 7 ∧
      it.buf.num < Config.poolSize ∧ (fieldAt b 1 6 = 0 ∨ fieldAt b 1 6 = 281474976710655 ∨ packet.length < 10 ∨ 1536
      < packet.length ∨ packetLength packet ≠ packet.length)) ∧
    (∃ (s : State) (it : RxItem) (b packet : Bytes), s.supply.takesEvents = true ∧ s.part.linkFrame .guest .guest =
      some (it, b) ∧ it.stale = false ∧ fieldAt b 0 1 = 1 ∧ s.part.gst.radioUp = true ∧ packet = b.drop 7 ∧
      it.buf.num < Config.poolSize ∧ (fieldAt b 1 6 = 0 ∨ fieldAt b 1 6 = 281474976710655 ∨ packet.length < 10 ∨ 1536
      < packet.length ∨ packetLength packet ≠ packet.length)) ∧
    (∃ (s : State) (it : RxItem) (b packet : Bytes), s.supply.takesEvents = true ∧ s.part.linkFrame .guest .guest =
      some (it, b) ∧ it.stale = false ∧ fieldAt b 0 1 = 1 ∧ s.part.gst.radioUp = true ∧ packet = b.drop 7 ∧
      it.buf.num < Config.poolSize ∧ (fieldAt b 1 6 = 0 ∨ fieldAt b 1 6 = 281474976710655 ∨ packet.length < 10 ∨ 1536
      < packet.length ∨ packetLength packet ≠ packet.length)) ∧
    (∃ (s : State) (it : RxItem) (b packet : Bytes), s.supply.takesEvents = true ∧ s.part.linkFrame .guest .guest =
      some (it, b) ∧ it.stale = false ∧ fieldAt b 0 1 = 1 ∧ s.part.gst.radioUp = true ∧ packet = b.drop 7 ∧
      it.buf.num < Config.poolSize ∧ (fieldAt b 1 6 = 0 ∨ fieldAt b 1 6 = 281474976710655 ∨ packet.length < 10 ∨ 1536
      < packet.length ∨ packetLength packet ≠ packet.length)) ∧
    (∃ (s : State) (it : RxItem) (b packet : Bytes), s.supply.takesEvents = true ∧ s.part.linkFrame .guest .guest =
      some (it, b) ∧ it.stale = false ∧ fieldAt b 0 1 = 1 ∧ s.part.gst.radioUp = true ∧ packet = b.drop 7 ∧
      it.buf.num < Config.poolSize ∧ (fieldAt b 1 6 = 0 ∨ fieldAt b 1 6 = 281474976710655 ∨ packet.length < 10 ∨ 1536
      < packet.length ∨ packetLength packet ≠ packet.length)) ∧
    (∃ (s : State) (it : RxItem) (b packet : Bytes), ∃ i g, ∃ c e, s.supply.takesEvents = true ∧ s.part.linkFrame
      .guest .guest = some (it, b) ∧ it.stale = false ∧ fieldAt b 0 1 = 1 ∧ s.part.gst.radioUp = true ∧ packet =
      b.drop 7 ∧ it.buf.num < Config.poolSize ∧ fieldAt b 1 6 ≠ 0 ∧ fieldAt b 1 6 ≠ 281474976710655 ∧ 10 ≤
      packet.length ∧ packet.length ≤ 1536 ∧ packetLength packet = packet.length ∧ s.part.findGuest (fieldAt b 1 6) =
      some (i, g) ∧ s.part.cfg = some c ∧ packet.length ≤ g.tokens ∧ s.part.inGuestBlock (packetDest packet) = false
      ∧ s.part.fwd.lookup (packetDest packet) = some e ∧ e.exit = .trunk ∧ s.part.trk.line = .up ∧
      s.part.fwd.exchange = [] ∧ s.part.fwd.packets = []) ∧
    (∃ (s : State) (it : RxItem) (b packet : Bytes), ∃ i g, ∃ c e, s.supply.takesEvents = true ∧ s.part.linkFrame
      .guest .guest = some (it, b) ∧ it.stale = false ∧ fieldAt b 0 1 = 1 ∧ s.part.gst.radioUp = true ∧ packet =
      b.drop 7 ∧ it.buf.num < Config.poolSize ∧ fieldAt b 1 6 ≠ 0 ∧ fieldAt b 1 6 ≠ 281474976710655 ∧ 10 ≤
      packet.length ∧ packet.length ≤ 1536 ∧ packetLength packet = packet.length ∧ s.part.findGuest (fieldAt b 1 6) =
      some (i, g) ∧ s.part.cfg = some c ∧ packet.length ≤ g.tokens ∧ s.part.inGuestBlock (packetDest packet) = false
      ∧ s.part.fwd.lookup (packetDest packet) = some e ∧ e.exit = .trunk ∧ s.part.trk.line = .up ∧
      s.part.fwd.exchange = [] ∧ s.part.fwd.packets = []) ∧
    (∃ (s : State) (it : RxItem) (b packet : Bytes), ∃ i g, s.supply.takesEvents = true ∧ s.part.linkFrame .guest
      .guest = some (it, b) ∧ it.stale = false ∧ fieldAt b 0 1 = 1 ∧ s.part.gst.radioUp = true ∧ packet = b.drop 7 ∧
      it.buf.num < Config.poolSize ∧ fieldAt b 1 6 ≠ 0 ∧ fieldAt b 1 6 ≠ 281474976710655 ∧ 10 ≤ packet.length ∧
      packet.length ≤ 1536 ∧ packetLength packet = packet.length ∧ s.part.findGuest (fieldAt b 1 6) = some (i, g) ∧
      g.tokens < packet.length ∧ s.part.limitedDue g = false) ∧
    (∃ (s : State) (it : RxItem) (b packet : Bytes), s.supply.takesEvents = true ∧ s.part.linkFrame .guest .guest =
      some (it, b) ∧ it.stale = false ∧ fieldAt b 0 1 = 1 ∧ s.part.gst.radioUp = true ∧ packet = b.drop 7 ∧
      it.buf.num < Config.poolSize ∧ fieldAt b 1 6 ≠ 0 ∧ fieldAt b 1 6 ≠ 281474976710655 ∧ 10 ≤ packet.length ∧
      packet.length ≤ 1536 ∧ packetLength packet = packet.length ∧ s.part.findGuest (fieldAt b 1 6) = none ∧
      s.part.pres.joining.guestAdmission = false) ∧
    (∃ (s : State) (it : RxItem) (b packet : Bytes), ∃ c e free, ∃ i m, s.supply.takesEvents = true ∧
      s.part.linkFrame .guest .guest = some (it, b) ∧ it.stale = false ∧ fieldAt b 0 1 = 1 ∧ s.part.gst.radioUp =
      true ∧ packet = b.drop 7 ∧ it.buf.num < Config.poolSize ∧ fieldAt b 1 6 ≠ 0 ∧ fieldAt b 1 6 ≠ 281474976710655 ∧
      10 ≤ packet.length ∧ packet.length ≤ 1536 ∧ packetLength packet = packet.length ∧ s.part.findGuest (fieldAt b 1
      6) = none ∧ s.part.pres.joining.guestAdmission = true ∧ s.part.gst.cleared = 256 ∧ s.part.cfg = some c ∧
      s.part.gst.budget ≠ 0 ∧ s.bufferFree ∧ s.part.fwd.guestCount < 191 ∧ it.buf.num ∉ s.part.fwd.free ∧
      s.part.inGuestBlock (packetDest packet) = false ∧ s.part.fwd.lookup (packetDest packet) = some e ∧ e.exit =
      .trunk ∧ s.part.trk.line = .up ∧ s.part.fwd.exchange = [] ∧ s.part.fwd.packets = [] ∧ s.part.fwd.free = m ::
      free ∧ ((List.range 256).find? fun j => (s.part.guestAt j).isNone) = some i) ∧
    (∃ (s : State) (it : RxItem) (b packet : Bytes), ∃ c e free, ∃ i g m n, s.supply.takesEvents = true ∧
      s.part.linkFrame .guest .guest = some (it, b) ∧ it.stale = false ∧ fieldAt b 0 1 = 1 ∧ s.part.gst.radioUp =
      true ∧ packet = b.drop 7 ∧ it.buf.num < Config.poolSize ∧ fieldAt b 1 6 ≠ 0 ∧ fieldAt b 1 6 ≠ 281474976710655 ∧
      10 ≤ packet.length ∧ packet.length ≤ 1536 ∧ packetLength packet = packet.length ∧ s.part.findGuest (fieldAt b 1
      6) = none ∧ s.part.pres.joining.guestAdmission = true ∧ s.part.gst.cleared = 256 ∧ s.part.cfg = some c ∧
      s.part.gst.budget ≠ 0 ∧ s.bufferFree ∧ s.part.fwd.guestCount < 191 ∧ it.buf.num ∉ s.part.fwd.free ∧
      s.part.inGuestBlock (packetDest packet) = false ∧ s.part.fwd.lookup (packetDest packet) = some e ∧ e.exit =
      .trunk ∧ s.part.trk.line = .up ∧ s.part.fwd.exchange = [] ∧ s.part.fwd.packets = [] ∧ s.part.fwd.free = m :: n
      :: free ∧ s.part.fwd.free.Nodup ∧ 10 ≤ s.part.fwd.free.length ∧ (∀ j, j < 256 → s.part.guestAt j ≠ none) ∧ i <
      256 ∧ s.part.guestAt i = some g ∧ 60000 < s.part.idle g ∧ (∀ j h, j < 256 → j ≠ i → s.part.guestAt j = some h →
      s.part.idle h < s.part.idle g)) ∧
    (∃ (s : State) (it : RxItem) (b packet : Bytes) (p : Part) (e : RouteEntry) (i : Nat), s.supply.takesEvents =
      true ∧ s.part.engineFrame .trunk = some (it, b) ∧ fieldAt b 0 1 = 1 ∧ it.buf.num < Config.poolSize ∧ p =
      s.part.engineTakes it ∧ packet = b.drop 1 ∧ i = packetDest packet % 256 ∧ s.part.trk.line = .up ∧
      s.part.inGuestBlock (packetSource packet) = false ∧ s.part.fwd.lookup (packetDest packet) = some e ∧ e.exit =
      .localGuest ∧ (s.part.gst.radioUp = false ∨ 1536 < packet.length ∨ s.part.guestAt i = none) ∧
      s.part.gst.radioUp = false) ∧
    (∃ (s : State) (it : RxItem) (b packet : Bytes) (p : Part) (e : RouteEntry) (i : Nat), s.supply.takesEvents =
      true ∧ s.part.engineFrame .trunk = some (it, b) ∧ fieldAt b 0 1 = 1 ∧ it.buf.num < Config.poolSize ∧ p =
      s.part.engineTakes it ∧ packet = b.drop 1 ∧ i = packetDest packet % 256 ∧ s.part.trk.line = .up ∧
      s.part.inGuestBlock (packetSource packet) = false ∧ s.part.fwd.lookup (packetDest packet) = some e ∧ e.exit =
      .localGuest ∧ (s.part.gst.radioUp = false ∨ 1536 < packet.length ∨ s.part.guestAt i = none) ∧ 1536 <
      packet.length) ∧
    (∃ (s : State) (it : RxItem) (b packet : Bytes) (p : Part) (e : RouteEntry) (i : Nat), s.supply.takesEvents =
      true ∧ s.part.engineFrame .trunk = some (it, b) ∧ fieldAt b 0 1 = 1 ∧ it.buf.num < Config.poolSize ∧ p =
      s.part.engineTakes it ∧ packet = b.drop 1 ∧ i = packetDest packet % 256 ∧ s.part.trk.line = .up ∧
      s.part.inGuestBlock (packetSource packet) = false ∧ s.part.fwd.lookup (packetDest packet) = some e ∧ e.exit =
      .localGuest ∧ (s.part.gst.radioUp = false ∨ 1536 < packet.length ∨ s.part.guestAt i = none) ∧ s.part.guestAt i
      = none) ∧
    (∃ (s : State) (it : RxItem) (b packet : Bytes) (p : Part) (e : RouteEntry) (i : Nat), ∃ g, s.supply.takesEvents
      = true ∧ s.part.engineFrame .trunk = some (it, b) ∧ fieldAt b 0 1 = 1 ∧ it.buf.num < Config.poolSize ∧ p =
      s.part.engineTakes it ∧ packet = b.drop 1 ∧ i = packetDest packet % 256 ∧ s.part.trk.line = .up ∧
      s.part.inGuestBlock (packetSource packet) = false ∧ s.part.fwd.lookup (packetDest packet) = some e ∧ e.exit =
      .localGuest ∧ s.part.gst.radioUp = true ∧ packet.length ≤ 1536 ∧ s.part.guestAt i = some g ∧ packet.length ≤
      g.tokens) ∧
    (∃ (s : State) (it : RxItem) (b packet : Bytes) (p : Part) (e : RouteEntry) (i : Nat), ∃ g, s.supply.takesEvents
      = true ∧ s.part.engineFrame .trunk = some (it, b) ∧ fieldAt b 0 1 = 1 ∧ it.buf.num < Config.poolSize ∧ p =
      s.part.engineTakes it ∧ packet = b.drop 1 ∧ i = packetDest packet % 256 ∧ s.part.trk.line = .up ∧
      s.part.inGuestBlock (packetSource packet) = false ∧ s.part.fwd.lookup (packetDest packet) = some e ∧ e.exit =
      .localGuest ∧ s.part.gst.radioUp = true ∧ packet.length ≤ 1536 ∧ s.part.guestAt i = some g ∧ packet.length ≤
      g.tokens) ∧
    (∃ (s : State) (it : RxItem) (b packet : Bytes) (p : Part) (e : RouteEntry) (i : Nat), ∃ g, s.supply.takesEvents
      = true ∧ s.part.engineFrame .trunk = some (it, b) ∧ fieldAt b 0 1 = 1 ∧ it.buf.num < Config.poolSize ∧ p =
      s.part.engineTakes it ∧ packet = b.drop 1 ∧ i = packetDest packet % 256 ∧ s.part.trk.line = .up ∧
      s.part.inGuestBlock (packetSource packet) = false ∧ s.part.fwd.lookup (packetDest packet) = some e ∧ e.exit =
      .localGuest ∧ s.part.gst.radioUp = true ∧ packet.length ≤ 1536 ∧ s.part.guestAt i = some g ∧ g.tokens <
      packet.length ∧ s.part.limitedDue g = false) ∧
    (∃ (s : State) (c : Clock) (k : ConfigBlock) (d i m : Nat) (g : Guest) (rest : List Nat) (p : Part),
      s.supply.takesEvents = true ∧ c = s.part.pres.clock.advance ∧ s.part.pres.clock.valid = true ∧ s.part.nightNow
      = none ∧ p = (s.part.modPres fun x => { x with clock := c }) ∧ p.nightNow = some d ∧ s.part.trk.line ≠ .up ∧
      s.part.cfg = some k ∧ k.gNight = 0 ∧ s.part.price.trigger = .disarmed ∧ s.part.jrn.scan = none ∧
      s.part.jrn.accepts (p.reportContents d) = false ∧ s.part.admitted = [i] ∧ s.part.guestAt i = some g ∧
      s.part.gst.radioUp = true ∧ s.part.fwd.free = m :: rest ∧ s.bufferFree ∧ s.part.fwd.guestCount < 192) :=
  ⟨⟨run (given .guest .guest 0 ([1] ++ be 6 0 ++ (packet 10 0x08080808 0)) ({ part with gst := { cleared := 256, radioUp := true, radioTimer := true } })), item .guest 0 ([1] ++ be 6 0 ++ (packet 10 0x08080808 0)).length, ([1] ++ be 6 0 ++ (packet 10 0x08080808 0)), (packet 10 0x08080808 0), by (repeat' apply And.intro) <;> decide +kernel⟩,
   ⟨run (given .guest .guest 0 ([1] ++ be 6 281474976710655 ++ (packet 10 0x08080808 0)) ({ part with gst := { cleared := 256, radioUp := true, radioTimer := true } })), item .guest 0 ([1] ++ be 6 281474976710655 ++ (packet 10 0x08080808 0)).length, ([1] ++ be 6 281474976710655 ++ (packet 10 0x08080808 0)), (packet 10 0x08080808 0), by (repeat' apply And.intro) <;> decide +kernel⟩,
   ⟨run (given .guest .guest 0 ([1] ++ be 6 77 ++ (be 9 0)) ({ part with gst := { cleared := 256, radioUp := true, radioTimer := true } })), item .guest 0 ([1] ++ be 6 77 ++ (be 9 0)).length, ([1] ++ be 6 77 ++ (be 9 0)), (be 9 0), by (repeat' apply And.intro) <;> decide +kernel⟩,
   ⟨run (given .guest .guest 0 ([1] ++ be 6 77 ++ (packet 1537 0x08080808 0)) ({ part with gst := { cleared := 256, radioUp := true, radioTimer := true } })), item .guest 0 ([1] ++ be 6 77 ++ (packet 1537 0x08080808 0)).length, ([1] ++ be 6 77 ++ (packet 1537 0x08080808 0)), (packet 1537 0x08080808 0), by (repeat' apply And.intro) <;> decide +kernel⟩,
   ⟨run (given .guest .guest 0 ([1] ++ be 6 77 ++ (packet 10 0 0 ++ [0])) ({ part with gst := { cleared := 256, radioUp := true, radioTimer := true } })), item .guest 0 ([1] ++ be 6 77 ++ (packet 10 0 0 ++ [0])).length, ([1] ++ be 6 77 ++ (packet 10 0 0 ++ [0])), (packet 10 0 0 ++ [0]), by (repeat' apply And.intro) <;> decide +kernel⟩,
   ⟨run (given .guest .guest 0 ([1] ++ be 6 77 ++ (packet 10 0x08080808 0)) ({ hosting (guest 0 10) (toTrunk part) with gst := { cleared := 256, radioUp := true, radioTimer := true } })), item .guest 0 ([1] ++ be 6 77 ++ (packet 10 0x08080808 0)).length, ([1] ++ be 6 77 ++ (packet 10 0x08080808 0)), (packet 10 0x08080808 0), 0, guest 0 10, conf, ⟨0, 0, .trunk, .default, true⟩, by (repeat' apply And.intro) <;> decide +kernel⟩,
   ⟨run (given .guest .guest 0 ([1] ++ be 6 77 ++ (packet 1536 0x08080808 0)) ({ hosting (guest 0 1536) (toTrunk part) with gst := { cleared := 256, radioUp := true, radioTimer := true } })), item .guest 0 ([1] ++ be 6 77 ++ (packet 1536 0x08080808 0)).length, ([1] ++ be 6 77 ++ (packet 1536 0x08080808 0)), (packet 1536 0x08080808 0), 0, guest 0 1536, conf, ⟨0, 0, .trunk, .default, true⟩, by (repeat' apply And.intro) <;> decide +kernel⟩,
   ⟨run (given .guest .guest 0 ([1] ++ be 6 77 ++ (packet 10 0x08080808 0)) ({ hosting (guest 0 9) part with gst := { cleared := 256, radioUp := true, radioTimer := true } })), item .guest 0 ([1] ++ be 6 77 ++ (packet 10 0x08080808 0)).length, ([1] ++ be 6 77 ++ (packet 10 0x08080808 0)), (packet 10 0x08080808 0), 0, guest 0 9, by (repeat' apply And.intro) <;> decide +kernel⟩,
   ⟨run (given .guest .guest 0 ([1] ++ be 6 77 ++ (packet 10 0x08080808 0)) ({ { part with pres := { joining := .listen } } with gst := { cleared := 256, radioUp := true, radioTimer := true } })), item .guest 0 ([1] ++ be 6 77 ++ (packet 10 0x08080808 0)).length, ([1] ++ be 6 77 ++ (packet 10 0x08080808 0)), (packet 10 0x08080808 0), by (repeat' apply And.intro) <;> decide +kernel⟩,
   ⟨run (given .guest .guest 0 ([1] ++ be 6 77 ++ (packet 1536 0x08080808 0)) ({ { toTrunk part with fwd := { (toTrunk part).fwd with guestCount := 190 } } with gst := { cleared := 256, radioUp := true, radioTimer := true, budget := 1536 } })), item .guest 0 ([1] ++ be 6 77 ++ (packet 1536 0x08080808 0)).length, ([1] ++ be 6 77 ++ (packet 1536 0x08080808 0)), (packet 1536 0x08080808 0), conf, ⟨0, 0, .trunk, .default, true⟩, [1, 2, 3, 4, 5, 6, 7, 8, 9, 10, 11, 12, 13, 14, 15, 16, 17, 18, 19], 0, 0, by (repeat' apply And.intro) <;> decide +kernel⟩,
   ⟨fullHouse, item .guest 0 ([1] ++ be 6 77 ++ packet 10 0x08080808 0).length, ([1] ++ be 6 77 ++ packet 10 0x08080808 0), packet 10 0x08080808 0, conf, ⟨0, 0, .trunk, .default, true⟩, [2, 3, 4, 5, 6, 7, 8, 9, 10, 11, 12, 13, 14, 15, 16, 17, 18, 19], 0, ⟨0, 0, 0, 0, 0, 0, 0, none⟩, 0, 1, by (repeat' apply And.intro) <;> first | (intro j hj; rw [fullHouse_guest j hj]; simp) | (intro j h hj hn e; rw [fullHouse_guest j hj] at e; cases e; rw [if_neg hn]; decide) | (simp only [Part.findGuest, List.findSome?_eq_none_iff]; intro i hi; rw [fullHouse_guest i (by simpa [Config.guestSlots] using hi)]; rfl) | decide +kernel⟩,
   ⟨run (waiting .trunk 0 (1 :: (packet 10 0x0A000200 0)) ({ hosting (guest 0 10) (trunkUp part) with gst := { cleared := 256, radioUp := false, radioTimer := false } })), item .trunk 0 (1 :: (packet 10 0x0A000200 0)).length, (1 :: (packet 10 0x0A000200 0)), (packet 10 0x0A000200 0), (run (waiting .trunk 0 (1 :: (packet 10 0x0A000200 0)) ({ hosting (guest 0 10) (trunkUp part) with gst := { cleared := 256, radioUp := false, radioTimer := false } }))).part.engineTakes (item .trunk 0 (1 :: (packet 10 0x0A000200 0)).length), ⟨0x0A000200, 24, .localGuest, .own, true⟩, 0, by (repeat' apply And.intro) <;> decide +kernel⟩,
   ⟨run (waiting .trunk 0 (1 :: (packet 1537 0x0A000200 0)) ({ hosting (guest 0 10) (trunkUp part) with gst := { cleared := 256, radioUp := true, radioTimer := true } })), item .trunk 0 (1 :: (packet 1537 0x0A000200 0)).length, (1 :: (packet 1537 0x0A000200 0)), (packet 1537 0x0A000200 0), (run (waiting .trunk 0 (1 :: (packet 1537 0x0A000200 0)) ({ hosting (guest 0 10) (trunkUp part) with gst := { cleared := 256, radioUp := true, radioTimer := true } }))).part.engineTakes (item .trunk 0 (1 :: (packet 1537 0x0A000200 0)).length), ⟨0x0A000200, 24, .localGuest, .own, true⟩, 0, by (repeat' apply And.intro) <;> decide +kernel⟩,
   ⟨run (waiting .trunk 0 (1 :: (packet 10 0x0A000200 0)) ({ trunkUp part with gst := { cleared := 256, radioUp := true, radioTimer := true } })), item .trunk 0 (1 :: (packet 10 0x0A000200 0)).length, (1 :: (packet 10 0x0A000200 0)), (packet 10 0x0A000200 0), (run (waiting .trunk 0 (1 :: (packet 10 0x0A000200 0)) ({ trunkUp part with gst := { cleared := 256, radioUp := true, radioTimer := true } }))).part.engineTakes (item .trunk 0 (1 :: (packet 10 0x0A000200 0)).length), ⟨0x0A000200, 24, .localGuest, .own, true⟩, 0, by (repeat' apply And.intro) <;> decide +kernel⟩,
   ⟨run (waiting .trunk 0 (1 :: (packet 10 0x0A000200 0)) ({ hosting (guest 0 10) (trunkUp part) with gst := { cleared := 256, radioUp := true, radioTimer := true } })), item .trunk 0 (1 :: (packet 10 0x0A000200 0)).length, (1 :: (packet 10 0x0A000200 0)), (packet 10 0x0A000200 0), (run (waiting .trunk 0 (1 :: (packet 10 0x0A000200 0)) ({ hosting (guest 0 10) (trunkUp part) with gst := { cleared := 256, radioUp := true, radioTimer := true } }))).part.engineTakes (item .trunk 0 (1 :: (packet 10 0x0A000200 0)).length), ⟨0x0A000200, 24, .localGuest, .own, true⟩, 0, guest 0 10, by (repeat' apply And.intro) <;> decide +kernel⟩,
   ⟨run (waiting .trunk 0 (1 :: (packet 1536 0x0A000200 0)) ({ hosting (guest 0 1536) (trunkUp part) with gst := { cleared := 256, radioUp := true, radioTimer := true } })), item .trunk 0 (1 :: (packet 1536 0x0A000200 0)).length, (1 :: (packet 1536 0x0A000200 0)), (packet 1536 0x0A000200 0), (run (waiting .trunk 0 (1 :: (packet 1536 0x0A000200 0)) ({ hosting (guest 0 1536) (trunkUp part) with gst := { cleared := 256, radioUp := true, radioTimer := true } }))).part.engineTakes (item .trunk 0 (1 :: (packet 1536 0x0A000200 0)).length), ⟨0x0A000200, 24, .localGuest, .own, true⟩, 0, guest 0 1536, by (repeat' apply And.intro) <;> decide +kernel⟩,
   ⟨run (waiting .trunk 0 (1 :: (packet 10 0x0A000200 0)) ({ hosting (guest 0 9) (trunkUp part) with gst := { cleared := 256, radioUp := true, radioTimer := true } })), item .trunk 0 (1 :: (packet 10 0x0A000200 0)).length, (1 :: (packet 10 0x0A000200 0)), (packet 10 0x0A000200 0), (run (waiting .trunk 0 (1 :: (packet 10 0x0A000200 0)) ({ hosting (guest 0 9) (trunkUp part) with gst := { cleared := 256, radioUp := true, radioTimer := true } }))).part.engineTakes (item .trunk 0 (1 :: (packet 10 0x0A000200 0)).length), ⟨0x0A000200, 24, .localGuest, .own, true⟩, 0, guest 0 9, by (repeat' apply And.intro) <;> decide +kernel⟩,
   ⟨run ({ clock 9 1379 59 ({ hosting (guest 0 5) (ledger { next := 16122, commit := 1 } part) with gst := { cleared := 256, radioUp := true, radioTimer := true } }) with cfg := some { conf with gNight := 0 } }), ⟨true, 9, 1380, 0⟩, { conf with gNight := 0 }, 9, 0, 0, guest 0 5, [1, 2, 3, 4, 5, 6, 7, 8, 9, 10, 11, 12, 13, 14, 15, 16, 17, 18, 19], (run ({ clock 9 1379 59 ({ hosting (guest 0 5) (ledger { next := 16122, commit := 1 } part) with gst := { cleared := 256, radioUp := true, radioTimer := true } }) with cfg := some { conf with gNight := 0 } })).part.modPres fun x => { x with clock := ⟨true, 9, 1380, 0⟩ }, by (repeat' apply And.intro) <;> decide +kernel⟩⟩

/-- A packet of device 77, as the radio hands it over. -/
def fromGuest : Bytes := [1] ++ be 6 77 ++ packet 10 0x08080808 0

/-- A packet to the guest at index 0, as head office sends it. -/
def toGuest : Bytes := [1] ++ packet 10 0x0A000200 0x08080808

/-- The guest unit with its radio up, at meter time `m`. -/
def radioAt (m : Nat) : Guests := { cleared := 256, radioUp := true, radioTimer := true, meterTime := m }

/-- The full house at the first meter time at which no guest is idle too long. -/
def busyHouse : State :=
  { fullHouse with part := { fullHouse.part with gst := { fullHouse.part.gst with meterTime := 60000 } } }

theorem busyHouse_guest (j : Nat) (hj : j < 256) :
    ∃ g, busyHouse.part.guestAt j = some g ∧ g.device = 0 ∧ busyHouse.part.idle g ≤ 60000 := by
  refine ⟨⟨0, 0, if j = 0 then 0 else 1, 0, 0, 0, 0, none⟩, fullHouse_guest j hj, rfl, ?_⟩
  by_cases h : j = 0
  · simp only [h, if_true]; decide +kernel
  · simp only [h, if_false]; decide +kernel

theorem busyHouse_unknown : busyHouse.part.findGuest (fieldAt fromGuest 1 6) = none := by
  simp only [Part.findGuest, List.findSome?_eq_none_iff]
  intro i hi
  obtain ⟨g, h, z, -⟩ := busyHouse_guest i (by simpa [Config.guestSlots] using hi)
  have d : (0 : Nat) ≠ fieldAt fromGuest 1 6 := by decide +kernel
  rw [h]
  simp only [z, if_neg d]

theorem busyHouse_busy : ∀ j, j < 256 → ∃ g, busyHouse.part.guestAt j = some g ∧ busyHouse.part.idle g ≤ 60000 :=
  fun j hj => (busyHouse_guest j hj).imp fun _ h => ⟨h.1, h.2.2⟩

/-- A packet to a guest has come whose budget is one byte short, and who has not been told. -/
def shortOfBudget : State :=
  run { waiting .trunk 0 toGuest (hosting { guest 0 9 with limited := none } (toTrunk part)) with gst := radioAt 7 }

theorem meets_GuestsAreAdmittedAndPoliced_told :
    (∃ s : State, ∃ it b packet i g m rest, s.supply.takesEvents = true ∧ s.part.linkFrame .guest .guest = some (it, b) ∧
      it.stale = false ∧ fieldAt b 0 1 = 1 ∧ s.part.gst.radioUp = true ∧ packet = b.drop 7 ∧ it.buf.num < Config.poolSize ∧
      fieldAt b 1 6 ≠ 0 ∧ fieldAt b 1 6 ≠ 281474976710655 ∧ 10 ≤ packet.length ∧ packet.length ≤ 1536 ∧
      packetLength packet = packet.length ∧ s.part.findGuest (fieldAt b 1 6) = some (i, g) ∧ g.tokens + 1 = packet.length ∧
      s.part.limitedDue g = true ∧ g.limited = none ∧ s.bufferFree ∧ s.part.fwd.guestCount < 192 ∧
      s.part.fwd.free = m :: rest) ∧
    (∃ s : State, ∃ it b packet i g m rest x, s.supply.takesEvents = true ∧
      s.part.linkFrame .guest .guest = some (it, b) ∧ it.stale = false ∧ fieldAt b 0 1 = 1 ∧ s.part.gst.radioUp = true ∧
      packet = b.drop 7 ∧ it.buf.num < Config.poolSize ∧ fieldAt b 1 6 ≠ 0 ∧ fieldAt b 1 6 ≠ 281474976710655 ∧
      10 ≤ packet.length ∧ packet.length ≤ 1536 ∧ packetLength packet = packet.length ∧
      s.part.findGuest (fieldAt b 1 6) = some (i, g) ∧ g.tokens + 1 = packet.length ∧ s.part.limitedDue g = true ∧
      g.limited = some x ∧ s.bufferFree ∧ s.part.fwd.guestCount = 191 ∧ s.part.fwd.free = m :: rest) ∧
    (∃ s : State, ∃ it b packet m rest, s.supply.takesEvents = true ∧ s.part.linkFrame .guest .guest = some (it, b) ∧
      it.stale = false ∧ fieldAt b 0 1 = 1 ∧ s.part.gst.radioUp = true ∧ packet = b.drop 7 ∧ it.buf.num < Config.poolSize ∧
      fieldAt b 1 6 ≠ 0 ∧ fieldAt b 1 6 ≠ 281474976710655 ∧ 10 ≤ packet.length ∧ packet.length ≤ 1536 ∧
      packetLength packet = packet.length ∧ s.part.findGuest (fieldAt b 1 6) = none ∧
      s.part.pres.joining.guestAdmission = true ∧ s.part.gst.cleared = 256 ∧ s.bufferFree ∧ s.part.fwd.guestCount < 192 ∧
      s.part.fwd.free = m :: rest ∧ ∀ j, j < 256 → ∃ g, s.part.guestAt j = some g ∧ s.part.idle g ≤ 60000) ∧
    (∃ s : State, ∃ it b packet p e i g m rest, s.supply.takesEvents = true ∧ s.part.engineFrame .trunk = some (it, b) ∧
      fieldAt b 0 1 = 1 ∧ it.buf.num < Config.poolSize ∧ p = s.part.engineTakes it ∧ packet = b.drop 1 ∧
      i = packetDest packet % 256 ∧ s.part.trk.line = .up ∧ s.part.inGuestBlock (packetSource packet) = false ∧
      s.part.fwd.lookup (packetDest packet) = some e ∧ e.exit = .localGuest ∧ s.part.gst.radioUp = true ∧
      packet.length ≤ 1536 ∧ s.part.guestAt i = some g ∧ g.tokens + 1 = packet.length ∧ s.part.limitedDue g = true ∧
      s.bufferFree ∧ s.part.fwd.guestCount < 192 ∧ s.part.fwd.free = m :: rest) := by
  refine ⟨⟨run { given .guest .guest 0 fromGuest (hosting { guest 0 9 with limited := none } part) with gst := radioAt 7 }, item .guest 0 17, fromGuest, packet 10 0x08080808 0, 0, { guest 0 9 with limited := none }, 0, List.range' 1 19, ?_⟩,
   ⟨run { given .guest .guest 0 fromGuest (hosting (guest 0 9) { part with fwd := { part.fwd with guestCount := 191 } }) with gst := radioAt 1000 }, item .guest 0 17, fromGuest, packet 10 0x08080808 0, 0, guest 0 9, 0, List.range' 1 19, 0, ?_⟩,
   ⟨busyHouse, item .guest 0 17, fromGuest, packet 10 0x08080808 0, 0, List.range' 1 19, ?_⟩,
   ⟨shortOfBudget, item .trunk 0 11, toGuest, packet 10 0x0A000200 0x08080808, shortOfBudget.part.engineTakes (item .trunk 0 11), ⟨0x0A000200, 24, .localGuest, .own, true⟩, 0, { guest 0 9 with limited := none }, 0, List.range' 1 19, ?_⟩⟩
  · (repeat' apply And.intro) <;> decide +kernel
  · (repeat' apply And.intro) <;> decide +kernel
  · refine ⟨?_, ?_, ?_, ?_, ?_, ?_, ?_, ?_, ?_, ?_, ?_, ?_, busyHouse_unknown, ?_, ?_, ?_, ?_, ?_, busyHouse_busy⟩ <;>
      (repeat' apply And.intro) <;> decide +kernel
  · (repeat' apply And.intro) <;> decide +kernel

theorem meets_WindowStartReports :
    (∃ (s : State) (c : Clock) (d : Nat) (p : Part), s.supply.takesEvents = true ∧ c = s.part.pres.clock.advance ∧
      s.part.pres.clock.valid = true ∧ s.part.nightNow = none ∧ p = (s.part.modPres fun x => { x with clock := c }) ∧
      p.nightNow = some d ∧ s.part.trk.line ≠ .up ∧ (∀ k, s.part.cfg = some k → k.gNight ≠ 0) ∧ s.part.price.trigger
      = .disarmed ∧ s.part.jrn.scan = none ∧ s.part.jrn.accepts (p.reportContents d) = true) ∧
    (∃ (s : State) (c : Clock) (d : Nat) (p : Part), s.supply.takesEvents = true ∧ c = s.part.pres.clock.advance ∧
      s.part.pres.clock.valid = true ∧ s.part.nightNow = none ∧ p = (s.part.modPres fun x => { x with clock := c }) ∧
      p.nightNow = some d ∧ s.part.trk.line ≠ .up ∧ (∀ k, s.part.cfg = some k → k.gNight ≠ 0) ∧ s.part.price.trigger
      = .disarmed ∧ s.part.jrn.scan = none ∧ s.part.jrn.accepts (p.reportContents d) = false) ∧
    (∃ (part zone : Nat) (fields : Bytes), fields.length ≤ 50 ∧ fields.length = 50) ∧
    (∃ (part zone : Nat) (fields : Bytes), fields.length ≤ 50) ∧
    (∃ (p : Part) (d zone state night : Nat) (twos ones : List Nat → Bytes) (two one : LineCounters → List Nat), (∀
      l, twos l = (l.map (be 2)).flatten) ∧ (∀ l, ones l = (l.map fun n => be 1 (min 255 n)).flatten) ∧ (∀ x, two x =
      [x.sent, x.kept, x.crc, x.residue, x.long, x.aborted, x.overrun, x.noBuffer]) ∧ (∀ x, one x = [x.sent, x.kept,
      x.crc, x.residue, x.long, x.aborted, x.overrun]) ∧ (∀ c, p.cfg = some c → zone = c.zone) ∧ (p.cfg = none → zone
      = 0) ∧ state =
      (match p.price.staging.state with
       | .empty => 0
       | .receiving => 1
       | .gaps => 2
       | .complete => 3
       | .activating => 4) ∧ night =
      (match p.trk.night with
       | .none => 0
       | .claiming => 1
       | .holding => 2
       | .standby => 3
       | .done => 4
       | .failed => 5
       | .cut => 6)) ∧
    (∃ (p : Part) (d zone state night : Nat) (twos ones : List Nat → Bytes) (two one : LineCounters → List Nat), (∀
      l, twos l = (l.map (be 2)).flatten) ∧ (∀ l, ones l = (l.map fun n => be 1 (min 255 n)).flatten) ∧ (∀ x, two x =
      [x.sent, x.kept, x.crc, x.residue, x.long, x.aborted, x.overrun, x.noBuffer]) ∧ (∀ x, one x = [x.sent, x.kept,
      x.crc, x.residue, x.long, x.aborted, x.overrun]) ∧ (∀ c, p.cfg = some c → zone = c.zone) ∧ (p.cfg = none → zone
      = 0) ∧ state =
      (match p.price.staging.state with
       | .empty => 0
       | .receiving => 1
       | .gaps => 2
       | .complete => 3
       | .activating => 4) ∧ night =
      (match p.trk.night with
       | .none => 0
       | .claiming => 1
       | .holding => 2
       | .standby => 3
       | .done => 4
       | .failed => 5
       | .cut => 6)) :=
  ⟨⟨run (clock 9 1379 59 (ledger { next := 16121, commit := 1 } part)), ⟨true, 9, 1380, 0⟩, 9, clock 9 1380 0 (ledger { next := 16121, commit := 1 } part), by (repeat' apply And.intro) <;> first | decide +kernel | (intro k hk; cases hk; decide)⟩,
   ⟨run (clock 9 1379 59 (ledger { next := 16122, commit := 1 } part)), ⟨true, 9, 1380, 0⟩, 9, clock 9 1380 0 (ledger { next := 16122, commit := 1 } part), by (repeat' apply And.intro) <;> first | decide +kernel | (intro k hk; cases hk; decide)⟩,
   ⟨2, 1, List.replicate 50 0, by (repeat' apply And.intro) <;> decide +kernel⟩,
   ⟨1, 0, [], by (repeat' apply And.intro) <;> decide +kernel⟩,
   ⟨part, 9, 1, 0, 0, fun l => (l.map (be 2)).flatten, fun l => (l.map fun n => be 1 (min 255 n)).flatten, fun x => [x.sent, x.kept, x.crc, x.residue, x.long, x.aborted, x.overrun, x.noBuffer], fun x => [x.sent, x.kept, x.crc, x.residue, x.long, x.aborted, x.overrun], by (repeat' apply And.intro) <;> first | decide +kernel | exact fun _ => rfl | (intro c hc; cases hc; rfl)⟩,
   ⟨{ session .upload [] part with cfg := none, price := { staging := stage .activating (some 2) } }, 9, 0, 4, 2, fun l => (l.map (be 2)).flatten, fun l => (l.map fun n => be 1 (min 255 n)).flatten, fun x => [x.sent, x.kept, x.crc, x.residue, x.long, x.aborted, x.overrun, x.noBuffer], fun x => [x.sent, x.kept, x.crc, x.residue, x.long, x.aborted, x.overrun], by (repeat' apply And.intro) <;> first | decide +kernel | exact fun _ => rfl | (intro c hc; cases hc; rfl)⟩⟩

theorem meets_SessionsBeginAndEnd :
    (∃ (s : State) (it : RxItem) (b : BranchBody) (d : Nat), s.supply.takesEvents = true ∧ s.part.branchFrame .trunk
      kindClaim = some (it, b) ∧ b.payload.length = 2 ∧ d = fieldAt b.payload 0 2 ∧ (s.part.trk.night = .none ∨
      s.part.trk.night = .done) ∧ s.part.trk.holderFor d = none) ∧
    (∃ (s : State) (it : RxItem) (b : BranchBody) (d : Nat), s.supply.takesEvents = true ∧ s.part.branchFrame .trunk
      kindClaim = some (it, b) ∧ b.payload.length = 2 ∧ d = fieldAt b.payload 0 2 ∧ (s.part.trk.night = .none ∨
      s.part.trk.night = .done) ∧ s.part.trk.holderFor d = some 6 ∧ it.station < 6) ∧
    (∃ (s : State) (it : RxItem) (b : BranchBody) (d : Nat), s.supply.takesEvents = true ∧ s.part.branchFrame .trunk
      kindClaim = some (it, b) ∧ b.payload.length = 2 ∧ d = fieldAt b.payload 0 2 ∧ (s.part.trk.night = .none ∨
      s.part.trk.night = .done) ∧ s.part.trk.holderFor d = some 5 ∧ ¬ it.station < 5) ∧
    (∃ (s : State) (it : RxItem) (b : BranchBody) (d : Nat), ∃ q, s.supply.takesEvents = true ∧ s.part.branchFrame
      .trunk kindClaim = some (it, b) ∧ b.payload.length = 2 ∧ d = fieldAt b.payload 0 2 ∧ s.part.trk.night =
      .claiming ∧ s.part.trk.nightDay = d ∧ it.station ≠ s.part.ownStation ∧ s.part.trk.holderFor d = none ∧
      s.part.fwd.control = [q] ∧ q.owner = .claim d ∧ s.part.branch.tx.inHand ≠ some .control) ∧
    (∃ (s : State) (it : RxItem) (b : BranchBody) (d : Nat), ∃ m rest, s.supply.takesEvents = true ∧
      s.part.branchFrame .trunk kindClaim = some (it, b) ∧ b.payload.length = 2 ∧ d = fieldAt b.payload 0 2 ∧
      s.part.trk.night = .holding ∧ s.part.trk.nightDay = d ∧ s.part.trk.holderFor d = some s.part.ownStation ∧
      it.station < s.part.ownStation ∧ s.part.fwd.exchange = [] ∧ s.part.trk.pull = .idle ∧ (∀ e ∈ s.part.trk.table,
      e.openBlock = none) ∧ s.part.trk.blocks = [] ∧ s.part.trk.line = .up ∧ s.part.fwd.packets = [] ∧ s.bufferFree ∧
      s.part.fwd.free = m :: rest ∧ s.part.trk.helloSent = false) ∧
    (∃ (s : State) (it : RxItem) (b : BranchBody) (d : Nat), ∃ m rest, s.supply.takesEvents = true ∧
      s.part.branchFrame .trunk kindClaim = some (it, b) ∧ b.payload.length = 2 ∧ d = fieldAt b.payload 0 2 ∧
      s.part.trk.night = .holding ∧ s.part.trk.nightDay = d ∧ s.part.trk.holderFor d = some s.part.ownStation ∧
      it.station < s.part.ownStation ∧ s.part.fwd.exchange = [] ∧ s.part.trk.pull = .idle ∧ (∀ e ∈ s.part.trk.table,
      e.openBlock = none) ∧ s.part.trk.blocks = [] ∧ s.part.trk.line = .up ∧ s.part.fwd.packets = [] ∧ s.bufferFree ∧
      s.part.fwd.free = m :: rest ∧ s.part.trk.helloSent = true) ∧
    (∃ (s : State) (it : RxItem) (b : Bytes), ∃ p, s.supply.takesEvents = true ∧ s.part.engineFrame .trunk = some
      (it, b) ∧ p = s.part.engineTakes it ∧ fieldAt b 0 1 ≠ 1 ∧ fieldAt b 0 1 ≠ 2) ∧
    (∃ (s : State) (it : RxItem) (b : Bytes), s.supply.takesEvents = true ∧ s.part.linkFrame .trunk .trunk = some
      (it, b) ∧ fieldAt b 0 1 = 2 ∧ s.part.trk.night ≠ .holding) ∧
    (∃ (s : State) (c : Clock) (d : Nat) (p : Part), s.supply.takesEvents = true ∧ c = s.part.pres.clock.advance ∧
      s.part.pres.clock.valid = true ∧ s.part.nightNow = some d ∧ p = (s.part.modPres fun x => { x with clock := c })
      ∧ p.nightNow = none ∧ s.part.price.trigger = .disarmed ∧ (s.part.trk.night = .none ∨ s.part.trk.night = .done ∨
      s.part.trk.night = .failed ∨ s.part.trk.night = .cut) ∧ s.part.trk.night = .none) ∧
    (∃ (s : State) (c : Clock) (d : Nat) (p : Part), s.supply.takesEvents = true ∧ c = s.part.pres.clock.advance ∧
      s.part.pres.clock.valid = true ∧ s.part.nightNow = some d ∧ p = (s.part.modPres fun x => { x with clock := c })
      ∧ p.nightNow = none ∧ s.part.price.trigger = .disarmed ∧ (s.part.trk.night = .none ∨ s.part.trk.night = .done ∨
      s.part.trk.night = .failed ∨ s.part.trk.night = .cut) ∧ s.part.trk.night = .cut) ∧
    (∃ (s : State) (c : Clock) (d : Nat) (p : Part), s.supply.takesEvents = true ∧ c = s.part.pres.clock.advance ∧
      s.part.pres.clock.valid = true ∧ s.part.nightNow = some d ∧ p = (s.part.modPres fun x => { x with clock := c })
      ∧ p.nightNow = none ∧ s.part.price.trigger = .disarmed ∧ s.part.trk.night = .standby) ∧
    (∃ (s : State) (c : Clock) (d : Nat) (p : Part), ∃ q, s.supply.takesEvents = true ∧ c = s.part.pres.clock.advance
      ∧ s.part.pres.clock.valid = true ∧ s.part.nightNow = some d ∧ p = (s.part.modPres fun x =>
      { x with clock := c }) ∧ p.nightNow = none ∧ s.part.price.trigger = .disarmed ∧ s.part.trk.night = .claiming ∧
      s.part.fwd.control = [q] ∧ q.owner = .claim s.part.trk.nightDay ∧ s.part.branch.tx.inHand ≠ some .control) ∧
    (∃ (s : State) (c : Clock) (d : Nat) (p : Part), ∃ m rest, s.supply.takesEvents = true ∧ c =
      s.part.pres.clock.advance ∧ s.part.pres.clock.valid = true ∧ s.part.nightNow = some d ∧ p = (s.part.modPres fun
      x => { x with clock := c }) ∧ p.nightNow = none ∧ s.part.price.trigger = .disarmed ∧ s.part.trk.night =
      .holding ∧ s.part.fwd.exchange = [] ∧ s.part.trk.pull = .idle ∧ (∀ e ∈ s.part.trk.table, e.openBlock = none) ∧
      s.part.trk.blocks = [] ∧ s.part.trk.line = .up ∧ s.part.fwd.packets = [] ∧ s.bufferFree ∧ s.part.fwd.free = m
      :: rest) ∧
    (∃ s : State, ∃ what m rest, s.supply.takesEvents = true ∧ s.part.trk.night = .holding ∧ s.part.fwd.exchange = []
      ∧ s.part.trk.sessionTimer = true ∧ s.part.trk.owed = [what] ∧ s.bufferFree ∧ s.part.trk.line = .up ∧
      s.part.fwd.free = m :: rest ∧ s.part.fwd.packets = [] ∧ (s.part.messageBytes what).length ≤ 2048) ∧
    (∃ s : State, ∃ b n, s.supply.takesEvents = true ∧ s.part.trk.night = .holding ∧ s.part.fwd.exchange = [] ∧
      s.part.trk.pull = .idle ∧ (∀ e ∈ s.part.trk.table, e.openBlock = none) ∧ s.part.trk.ackTimer = true ∧ n =
      s.part.trk.expiries + 1 ∧ n < 3 ∧ s.part.trk.blocks = [b] ∧ b.queued = true ∧ b.inRelay = true ∧
      s.part.trk.line = .up ∧ s.part.fwd.packets = []) ∧
    (∃ s : State, s.supply.takesEvents = true ∧ s.part.trk.night = .holding ∧ s.part.fwd.exchange = [] ∧
      s.part.trk.pull = .idle ∧ (∀ e ∈ s.part.trk.table, e.openBlock = none) ∧ s.part.trk.blocks = [] ∧
      s.part.trk.logonTimer = true ∧ s.part.trk.phase = .logon) ∧
    (∃ s : State, s.supply.takesEvents = true ∧ s.part.trk.night = .holding ∧ s.part.fwd.exchange = [] ∧
      s.part.trk.pull = .idle ∧ (∀ e ∈ s.part.trk.table, e.openBlock = none) ∧ s.part.trk.blocks = [] ∧
      s.part.trk.downloadTimer = true ∧ s.part.trk.phase = .download) :=
  ⟨⟨run (heard .trunk kindClaim (be 2 4) ({ part with trk := { holder := none } })), heardItem (be 2 4), body kindClaim (be 2 4), 4, by (repeat' apply And.intro) <;> decide +kernel⟩,
   ⟨run (heard .trunk kindClaim (be 2 4) ({ part with trk := { holder := some (6, 4) } })), heardItem (be 2 4), body kindClaim (be 2 4), 4, by (repeat' apply And.intro) <;> decide +kernel⟩,
   ⟨run (heard .trunk kindClaim (be 2 4) ({ part with trk := { holder := some (5, 4) } })), heardItem (be 2 4), body kindClaim (be 2 4), 4, by (repeat' apply And.intro) <;> decide +kernel⟩,
   ⟨run (heard .trunk kindClaim (be 2 4) ({ inHand .control (frame (.claim 4) 0) .waiting with trk := { night := .claiming, nightDay := 4 } })), heardItem (be 2 4), body kindClaim (be 2 4), 4, frame (.claim 4) 0, by (repeat' apply And.intro) <;> decide +kernel⟩,
   ⟨run (given .trunk .branch 1 (plainBody 2 kindClaim (be 2 4)) ({ session .upload [] part with trk := { (session .upload [] part).trk with nightDay := 4, holder := some (2, 4), helloSent := false } })), item .branch 1 5, body kindClaim (be 2 4), 4, 0, [1, 2, 3, 4, 5, 6, 7, 8, 9, 10, 11, 12, 13, 14, 15, 16, 17, 18, 19], by (repeat' apply And.intro) <;> decide +kernel⟩,
   ⟨run (given .trunk .branch 1 (plainBody 2 kindClaim (be 2 4)) ({ session .upload [] part with trk := { (session .upload [] part).trk with nightDay := 4, holder := some (2, 4), helloSent := true } })), item .branch 1 5, body kindClaim (be 2 4), 4, 0, [1, 2, 3, 4, 5, 6, 7, 8, 9, 10, 11, 12, 13, 14, 15, 16, 17, 18, 19], by (repeat' apply And.intro) <;> decide +kernel⟩,
   ⟨run (waiting .trunk 0 [3] (part)), item .trunk 0 [3].length, [3], (run (waiting .trunk 0 [3] (part))).part.engineTakes (item .trunk 0 [3].length), by (repeat' apply And.intro) <;> decide +kernel⟩,
   ⟨run (given .trunk .trunk 0 [2, 4] (part)), item .trunk 0 [2, 4].length, [2, 4], by (repeat' apply And.intro) <;> decide +kernel⟩,
   ⟨run (clock 9 59 59 ({ part with trk := { night := .none } })), ⟨true, 9, 60, 0⟩, 8, (run (clock 9 59 59 ({ part with trk := { night := .none } }))).part.modPres fun x => { x with clock := ⟨true, 9, 60, 0⟩ }, by (repeat' apply And.intro) <;> decide +kernel⟩,
   ⟨run (clock 9 59 59 ({ part with trk := { night := .cut } })), ⟨true, 9, 60, 0⟩, 8, (run (clock 9 59 59 ({ part with trk := { night := .cut } }))).part.modPres fun x => { x with clock := ⟨true, 9, 60, 0⟩ }, by (repeat' apply And.intro) <;> decide +kernel⟩,
   ⟨run (clock 9 59 59 ({ part with trk := { night := .standby } })), ⟨true, 9, 60, 0⟩, 8, (run (clock 9 59 59 ({ part with trk := { night := .standby } }))).part.modPres fun x => { x with clock := ⟨true, 9, 60, 0⟩ }, by (repeat' apply And.intro) <;> decide +kernel⟩,
   ⟨run (clock 9 59 59 ({ inHand .control (frame (.claim 8) 0) .waiting with trk := { night := .claiming, nightDay := 8 } })), ⟨true, 9, 60, 0⟩, 8, (run (clock 9 59 59 ({ inHand .control (frame (.claim 8) 0) .waiting with trk := { night := .claiming, nightDay := 8 } }))).part.modPres fun x => { x with clock := ⟨true, 9, 60, 0⟩ }, frame (.claim 8) 0, by (repeat' apply And.intro) <;> decide +kernel⟩,
   ⟨run (clock 9 59 59 (session .upload [] part)), ⟨true, 9, 60, 0⟩, 8, (run (clock 9 59 59 (session .upload [] part))).part.modPres fun x => { x with clock := ⟨true, 9, 60, 0⟩ }, 0, [1, 2, 3, 4, 5, 6, 7, 8, 9, 10, 11, 12, 13, 14, 15, 16, 17, 18, 19], by (repeat' apply And.intro) <;> decide +kernel⟩,
   ⟨run ({ session .upload [] part with trk := { (session .upload [] part).trk with sessionTimer := true, owed := [.hello] } }), .hello, 0, [1, 2, 3, 4, 5, 6, 7, 8, 9, 10, 11, 12, 13, 14, 15, 16, 17, 18, 19], by (repeat' apply And.intro) <;> decide +kernel⟩,
   ⟨run ({ session .upload [] part with trk := { (session .upload [] part).trk with ackTimer := true, expiries := 1, blocks := [⟨2, 1, 16, 16, ⟨200, .relay, 1032⟩, true, true, true⟩] } }), ⟨2, 1, 16, 16, ⟨200, .relay, 1032⟩, true, true, true⟩, 2, by (repeat' apply And.intro) <;> decide +kernel⟩,
   ⟨run ({ session .upload [] part with trk := { (session .upload [] part).trk with logonTimer := true, phase := .logon } }), by (repeat' apply And.intro) <;> decide +kernel⟩,
   ⟨run ({ session .upload [] part with trk := { (session .upload [] part).trk with downloadTimer := true, phase := .download } }), by (repeat' apply And.intro) <;> decide +kernel⟩⟩

/-- A BLOCK of the own station in buffer `n`. -/
def ownBlock (n : Nat) (queued : Bool) : Block := ⟨2, 1, 16, 16, ⟨n, .relay, 1032⟩, queued, true, true⟩

/-- Two BLOCKs stand in the exchange queue, the first of them begun. -/
def underWay : List TFrame := [⟨⟨200, .relay, 1032⟩, .block true, true⟩, ⟨⟨201, .relay, 1032⟩, .block true, false⟩]

/-- The acknowledgement timer runs for the third time over two outstanding BLOCKs, a pull and an open BLOCK. -/
def unacknowledged (pull : Pull) (exchange : List TFrame) : State :=
  run
    { session .upload [⟨5, 1, none, 0, 17, 0, 0, .pulling, some (ownBlock 250 false)⟩] part with
      trk :=
        { (session .upload [⟨5, 1, none, 0, 17, 0, 0, .pulling, some (ownBlock 250 false)⟩] part).trk with
          ackTimer := true, expiries := 2, blocks := [ownBlock 200 true, ownBlock 201 true, ownBlock 202 false], pull := pull
          own := .paused, sessionTimer := true }
      fwd := { part.fwd with relayCount := 4, exchange := exchange }
      call := { opens := [call .trunk (.pull 1 20) .connected] } }

/-- The BLOCKs of these buffers are those the framer has begun. -/
def hasBegun (s : State) (b : Block) : Bool := s.part.fwd.exchange.any fun x => x.begun && decide (x.buf.num = b.buf.num)

theorem meets_SessionsBeginAndEnd_unacknowledged :
    (∃ (s : State) (begun : Block → Bool), s.supply.takesEvents = true ∧ s.part.trk.night = .holding ∧
      s.part.trk.ackTimer = true ∧ s.part.trk.expiries = 2 ∧
      (∀ x ∈ s.part.fwd.exchange, x.what.isBlock = true ∧ ∃ b ∈ s.part.trk.blocks, b.buf.num = x.buf.num) ∧
      (∀ b, begun b = s.part.fwd.exchange.any fun x => x.begun && decide (x.buf.num = b.buf.num)) ∧
      s.part.trk.pull = .idle ∧ s.part.trk.blocks ≠ [] ∧ s.part.fwd.exchange = []) ∧
    (∃ (s : State) (begun : Block → Bool), ∃ tag dropped, s.supply.takesEvents = true ∧ s.part.trk.night = .holding ∧
      s.part.trk.ackTimer = true ∧ s.part.trk.expiries = 2 ∧
      (∀ x ∈ s.part.fwd.exchange, x.what.isBlock = true ∧ ∃ b ∈ s.part.trk.blocks, b.buf.num = x.buf.num) ∧
      (∀ b, begun b = s.part.fwd.exchange.any fun x => x.begun && decide (x.buf.num = b.buf.num)) ∧
      s.part.trk.pull = .opened tag dropped ∧ s.part.trk.blocks ≠ [] ∧ s.part.fwd.exchange = underWay) :=
  ⟨⟨unacknowledged .idle [], hasBegun (unacknowledged .idle []), by (repeat' apply And.intro) <;> first | exact fun _ => rfl | decide +kernel⟩,
   ⟨unacknowledged (.opened 9 false) underWay, hasBegun (unacknowledged (.opened 9 false) underWay), 9, false, by (repeat' apply And.intro) <;> first | exact fun _ => rfl | decide +kernel⟩⟩

theorem meets_UploadReadsAndPulls :
    (∃ (s : State) (it : RxItem) (day minute second d n : Nat) (f : Bool) (p : Part), s.supply.takesEvents = true ∧
      s.part.expectedMessage = some (it, .welcome day minute second f) ∧ p = (s.part.modPres fun x =>
      { x with clock := ⟨true, day, minute, second⟩ }) ∧ s.part.nightNow = some d ∧ p.nightNow = some d ∧
      s.part.price.trigger = .disarmed ∧ s.part.trk.blocks = [] ∧ s.part.trk.inbox = [] ∧ n = s.part.jrn.release + 1
      ∧ n < s.part.jrn.next) ∧
    (∃ (s : State) (e : Upload) (b : Block) (k : Nat), ∃ bs, ∃ u t' : State, s.supply.takesEvents = true ∧
      s.part.trk.night = .holding ∧ s.part.trk.phase = .upload ∧ s.part.trk.table = [e] ∧ s.part.trk.turn = some
      e.station ∧ e.status = .pulling ∧ s.part.trk.blocks = [] ∧ e.snapshot = some k ∧ e.nextPack + 1 < k ∧
      e.openBlock = some b ∧ b.count + 1 < 16 ∧ b.buf.num < Config.poolSize ∧ s.part.ownStation = e.station ∧
      s.part.trk.inbox = [] ∧ s.part.readAnswer e.nextPack = .record bs ∧ u =
      { s with part := { s.part with trk := { s.part.trk with own := .reading } } } ∧ t' =
      { s with part := { s.part with trk := { s.part.trk with own := .retryTimer } } }) ∧
    (∃ (s : State) (e : Upload) (b : Block) (k : Nat), s.supply.takesEvents = true ∧ s.part.trk.night = .holding ∧
      s.part.trk.phase = .upload ∧ s.part.trk.table = [e] ∧ s.part.trk.turn = some e.station ∧ e.status = .pulling ∧
      s.part.trk.blocks = [] ∧ e.snapshot = some k ∧ e.nextPack + 1 < k ∧ e.openBlock = some b ∧ b.count + 1 < 16 ∧
      b.buf.num < Config.poolSize ∧ s.part.ownStation = e.station ∧ s.part.trk.own = .reading ∧ s.part.readAnswer
      e.nextPack = .notCommitted ∧ e.nextPack = s.part.jrn.commit) ∧
    (∃ (s : State) (e : Upload) (b : Block) (k : Nat), ∃ buf tag r bs, s.supply.takesEvents = true ∧ s.part.trk.night
      = .holding ∧ s.part.trk.phase = .upload ∧ s.part.trk.table = [e] ∧ s.part.trk.turn = some e.station ∧ e.status
      = .pulling ∧ s.part.trk.blocks = [] ∧ e.snapshot = some k ∧ e.nextPack + 1 < k ∧ e.openBlock = some b ∧ b.count
      + 1 < 16 ∧ b.buf.num < Config.poolSize ∧ s.part.ownStation ≠ e.station ∧ s.part.trk.inbox = [.data buf
      e.station tag r] ∧ s.part.trk.pull = .opened tag false ∧ bs = (parseBody (s.part.bufBytes buf)).payload ∧
      fieldAt bs 1 1 = 1 ∧ fieldAt bs 6 4 = e.nextPack ∧ bs.length = 70) ∧
    (∃ (s : State) (e : Upload) (b : Block) (k : Nat), ∃ m rest, s.supply.takesEvents = true ∧ s.part.trk.night =
      .holding ∧ s.part.trk.phase = .upload ∧ s.part.trk.table = [e] ∧ s.part.trk.turn = some e.station ∧ e.status =
      .pulling ∧ s.part.trk.blocks = [] ∧ e.snapshot = some k ∧ e.nextPack + 1 < k ∧ e.openBlock = some b ∧ b.count +
      1 < 16 ∧ b.buf.num < Config.poolSize ∧ s.part.ownStation ≠ e.station ∧ s.part.trk.pull = .delay ∧
      s.part.trk.inbox = [] ∧ s.bufferFree ∧ s.part.fwd.free = m :: rest ∧ s.part.call.opens = [] ∧ s.part.txEnabled
      = true ∧ s.part.fwd.relayCount = 1) ∧
    (∃ (s : State) (buf : Buf) (peer : StationNo) (tag : Byte) (r : Request), s.supply.takesEvents = true ∧
      s.part.trk.night ≠ .holding ∧ s.part.trk.inbox = [.data buf peer tag r] ∧ s.part.trk.blocks = []) :=
  ⟨⟨run (given .trunk .trunk 0 ([2, 2] ++ be 2 9 ++ be 2 1439 ++ [59, 1]) (clock 9 1400 0 (ledger { next := 2, commit := 2 } (session .logon [] part)))), item .trunk 0 ([2, 2] ++ be 2 9 ++ be 2 1439 ++ [59, 1]).length, 9, 1439, 59, 9, 1, true, (run (given .trunk .trunk 0 ([2, 2] ++ be 2 9 ++ be 2 1439 ++ [59, 1]) (clock 9 1400 0 (ledger { next := 2, commit := 2 } (session .logon [] part))))).part.modPres fun x => { x with clock := ⟨true, 9, 1439, 59⟩ }, by (repeat' apply And.intro) <;> decide +kernel⟩,
   ⟨run (ledger { next := 21, commit := 21 } (slot 2 (session .upload [upload 2 (some (carton 2))] part))), upload 2 (some (carton 2)), carton 2, 20, recordBytes 2 0 0 0 false (.saleOpen 7), run ({ ledger { next := 21, commit := 21 } (slot 2 (session .upload [upload 2 (some (carton 2))] part)) with trk := { (ledger { next := 21, commit := 21 } (slot 2 (session .upload [upload 2 (some (carton 2))] part))).trk with own := .reading } }), run ({ ledger { next := 21, commit := 21 } (slot 2 (session .upload [upload 2 (some (carton 2))] part)) with trk := { (ledger { next := 21, commit := 21 } (slot 2 (session .upload [upload 2 (some (carton 2))] part))).trk with own := .retryTimer } }), by (repeat' apply And.intro) <;> decide +kernel⟩,
   ⟨run (ledger { next := 21, commit := 18 } { session .upload [{ upload 2 (some ({ carton 2 with count := 14 })) with nextPack := 18 }] part with trk := { (session .upload [{ upload 2 (some ({ carton 2 with count := 14 })) with nextPack := 18 }] part).trk with own := .reading } }), { upload 2 (some ({ carton 2 with count := 14 })) with nextPack := 18 }, { carton 2 with count := 14 }, 20, by (repeat' apply And.intro) <;> decide +kernel⟩,
   ⟨run ({ stored (plainBody 2 kindData (pullDataPayload 9 20 [recordBytes 2 0 0 0 false (.saleOpen 7)])) (session .upload [upload 5 (some (carton 5))] part) with trk := { (stored (plainBody 2 kindData (pullDataPayload 9 20 [recordBytes 2 0 0 0 false (.saleOpen 7)])) (session .upload [upload 5 (some (carton 5))] part)).trk with pull := .opened 9 false, inbox := [.data ⟨383, .plain, 73⟩ 5 9 (.pull 2 18)] } }), upload 5 (some (carton 5)), carton 5, 20, ⟨383, .plain, 73⟩, 9, .pull 2 18, (pullDataPayload 9 20 [recordBytes 2 0 0 0 false (.saleOpen 7)]), by (repeat' apply And.intro) <;> decide +kernel⟩,
   ⟨run ({ session .upload [upload 5 (some (carton 5))] part with fwd := { part.fwd with relayCount := 1 }, trk := { (session .upload [upload 5 (some (carton 5))] part).trk with pull := .delay } }), upload 5 (some (carton 5)), carton 5, 20, 0, [1, 2, 3, 4, 5, 6, 7, 8, 9, 10, 11, 12, 13, 14, 15, 16, 17, 18, 19], by (repeat' apply And.intro) <;> decide +kernel⟩,
   ⟨run ({ part with trk := { inbox := [.data ⟨383, .plain, 73⟩ 5 9 (.pull 2 18)] } }), ⟨383, .plain, 73⟩, 5, 9, .pull 2 18, by (repeat' apply And.intro) <;> decide +kernel⟩⟩

/-- The entry of the own station, with records left to read. -/
def ownEntry : Upload := ⟨2, 1, some 20, 0, 20, 0, 0, .pulling, none⟩

/-- The entry of peer 5. -/
def peerEntry (retries shorts : Nat) (snapshot : Option Nat) : Upload := ⟨5, 1, snapshot, 0, 17, retries, shorts, .pulling, none⟩

/-- Peer 5 has the turn, with entry `x`, and its pull stands in a phase of its call with `got` records received. -/
def pulling (x : Upload) (got : Nat) (e : OpenState) (ph : Phase) (p : Part) : Part :=
  { session .upload [ownEntry, x] p with
    trk :=
      { (session .upload [ownEntry, x] p).trk with
        turn := some 5, pull := .opened 9 false, blocks := [ownBlock 200 true] }
    call := { p.call with opens := [{ call .trunk (.pull 1 20) e with received := got }], conn := some (conn .caller ph (.pull 1 20)) }
    fwd := { p.fwd with relayCount := 1 } }

/-- The open call of the pull. -/
def pullCall (got : Nat) (e : OpenState) : OpenCall := { call .trunk (.pull 1 20) e with received := got }

/-- What every ending of a pull takes for granted. -/
def pullStands (o x : Upload) (e : OpenCall) (d : Bool) (s : State) : Prop :=
  s.supply.takesEvents = true ∧ s.part.trk.night = .holding ∧ s.part.trk.phase = .upload ∧ s.part.trk.table = [o, x] ∧
    o.station = s.part.ownStation ∧ o.status = .pulling ∧ x.station ≠ o.station ∧ x.status = .pulling ∧
    s.part.trk.turn = some x.station ∧ x.packed = false ∧ x.openBlock = none ∧ (∀ b ∈ s.part.trk.blocks, b.queued = true) ∧
    s.part.trk.pull = .opened e.tag d ∧ s.part.trk.inbox = [] ∧ s.part.price.inbox = [] ∧ s.part.call.opens = [e] ∧
    e.owner = .trunk ∧ e.peer = x.station

/-- An END to the pull has come; `y` is the entry with its snapshot. -/
def endStands (x y : Upload) (e : OpenCall) (it : RxItem) (b : BranchBody) (c : Conn) (s : State) : Prop :=
  s.part.branchFrame .calls kindEnd = some (it, b) ∧ s.part.call.conn = some c ∧ c.phase = .awaitData ∧
    c.peer = it.station ∧ c.tag = byteAt b.payload 0 ∧ e.tag = c.tag ∧ b.payload.length = c.request.endLength ∧
    y = { x with snapshot := some (x.snapshot.getD (fieldAt b.payload 3 4)) }

/-- An END with this count and this first sequence not yet committed. -/
def endOf (count first : Nat) : Bytes := be 1 9 ++ be 2 count ++ be 4 first

theorem meets_UploadReadsAndPulls_ended :
    (∃ s o x e d it b c y, pullStands o x e d s ∧ endStands x y e it b c s ∧ fieldAt b.payload 1 2 ≠ e.received ∧
      y.packed = false ∧ y.retries = 2) ∧
    (∃ s o x e d it b c y, pullStands o x e d s ∧ endStands x y e it b c s ∧ fieldAt b.payload 1 2 ≠ e.received ∧
      y.packed = false ∧ y.retries = 3) ∧
    (∃ s o x e d it b c y, pullStands o x e d s ∧ endStands x y e it b c s ∧ fieldAt b.payload 1 2 = e.received ∧
      e.received = 0 ∧ y.packed = false ∧ x.shorts = 1) ∧
    (∃ s o x e d it b c y, pullStands o x e d s ∧ endStands x y e it b c s ∧ fieldAt b.payload 1 2 = e.received ∧
      e.received = 0 ∧ y.packed = false ∧ x.shorts = 2) ∧
    (∃ s o x e d it b c y k m rest, pullStands o x e d s ∧ endStands x y e it b c s ∧
      fieldAt b.payload 1 2 = e.received ∧ e.received ≠ 0 ∧ y.packed = false ∧ y.snapshot = some k ∧ s.bufferFree ∧
      s.part.fwd.free = m :: rest ∧ s.part.txEnabled = true ∧ s.part.fwd.relayCount = 1 ∧ it.buf.mark = .plain ∧
      k - y.nextPack = 64) ∧
    (∃ s o x e d it b c y z, pullStands o x e d s ∧ endStands x y e it b c s ∧ fieldAt b.payload 1 2 = e.received ∧
      y.packed = true ∧ z = (if e.received = 0 then y else { y with retries := 0, shorts := 0 }) ∧
      z.acknowledged = false ∧ e.received ≠ 0) ∧
    (∃ s o x e d it b c y z, pullStands o x e d s ∧ endStands x y e it b c s ∧ fieldAt b.payload 1 2 = e.received ∧
      y.packed = true ∧ z = (if e.received = 0 then y else { y with retries := 0, shorts := 0 }) ∧
      z.acknowledged = true ∧ e.received = 0) ∧
    (∃ s o x e d it b c v, pullStands o x e d s ∧ s.part.branchFrame .calls kindAnswer = some (it, b) ∧
      s.part.call.conn = some c ∧ c.phase = .awaitAnswer ∧ c.peer = it.station ∧ c.tag = byteAt b.payload 0 ∧
      e.tag = c.tag ∧ parseVerdict b.payload = some v ∧ v = .busy ∧ x.retries = 3) ∧
    (∃ s o x e d it b c v r, pullStands o x e d s ∧ s.part.branchFrame .calls kindAnswer = some (it, b) ∧
      s.part.call.conn = some c ∧ c.phase = .awaitAnswer ∧ c.peer = it.station ∧ c.tag = byteAt b.payload 0 ∧
      e.tag = c.tag ∧ parseVerdict b.payload = some v ∧ v = .refuse r) ∧
    (∃ s o x e d c, pullStands o x e d s ∧ s.part.branch.turnGap = true ∧ s.part.call.conn = some c ∧ e.tag = c.tag ∧
      c.phase = .awaitAnswer ∧ x.retries = 0) ∧
    (∃ s o x e d c, pullStands o x e d s ∧ s.part.branch.turnGap = true ∧ s.part.call.conn = some c ∧ e.tag = c.tag ∧
      c.phase = .awaitData ∧ x.retries = 3) ∧
    (∃ s o x e d, pullStands o x e d s ∧ e.state = .waitingRecall ∧ e.recallTimer = true ∧ x.retries = 2) := by
  refine ⟨⟨run (heard .calls kindEnd (endOf 4 20) (pulling (peerEntry 2 0 none) 3 .connected .awaitData part)), ownEntry, peerEntry 2 0 none, pullCall 3 .connected, false, heardItem (endOf 4 20), body kindEnd (endOf 4 20), conn .caller .awaitData (.pull 1 20), peerEntry 2 0 (some 20), ?_⟩,
   ⟨run (heard .calls kindEnd (endOf 4 20) (pulling (peerEntry 3 0 none) 3 .connected .awaitData part)), ownEntry, peerEntry 3 0 none, pullCall 3 .connected, false, heardItem (endOf 4 20), body kindEnd (endOf 4 20), conn .caller .awaitData (.pull 1 20), peerEntry 3 0 (some 20), ?_⟩,
   ⟨run (heard .calls kindEnd (endOf 0 20) (pulling (peerEntry 0 1 none) 0 .connected .awaitData part)), ownEntry, peerEntry 0 1 none, pullCall 0 .connected, false, heardItem (endOf 0 20), body kindEnd (endOf 0 20), conn .caller .awaitData (.pull 1 20), peerEntry 0 1 (some 20), ?_⟩,
   ⟨run (heard .calls kindEnd (endOf 0 20) (pulling (peerEntry 0 2 (some 30)) 0 .connected .awaitData part)), ownEntry, peerEntry 0 2 (some 30), pullCall 0 .connected, false, heardItem (endOf 0 20), body kindEnd (endOf 0 20), conn .caller .awaitData (.pull 1 20), peerEntry 0 2 (some 30), ?_⟩,
   ⟨run (heard .calls kindEnd (endOf 4 81) (pulling (peerEntry 3 2 none) 4 .connected .awaitData part)), ownEntry, peerEntry 3 2 none, pullCall 4 .connected, false, heardItem (endOf 4 81), body kindEnd (endOf 4 81), conn .caller .awaitData (.pull 1 20), peerEntry 3 2 (some 81), 81, 0, List.range' 1 19, ?_⟩,
   ⟨run (heard .calls kindEnd (endOf 4 17) (pulling (peerEntry 3 2 none) 4 .connected .awaitData part)), ownEntry, peerEntry 3 2 none, pullCall 4 .connected, false, heardItem (endOf 4 17), body kindEnd (endOf 4 17), conn .caller .awaitData (.pull 1 20), peerEntry 3 2 (some 17), peerEntry 0 0 (some 17), ?_⟩,
   ⟨run (heard .calls kindEnd (endOf 0 17) (pulling { peerEntry 3 2 none with acked := 16 } 0 .connected .awaitData part)), ownEntry, { peerEntry 3 2 none with acked := 16 }, pullCall 0 .connected, false, heardItem (endOf 0 17), body kindEnd (endOf 0 17), conn .caller .awaitData (.pull 1 20), { peerEntry 3 2 (some 17) with acked := 16 }, { peerEntry 3 2 (some 17) with acked := 16 }, ?_⟩,
   ⟨run (heard .calls kindAnswer (be 1 9 ++ be 1 2 ++ be 1 0) (pulling (peerEntry 3 0 none) 0 .connected .awaitAnswer part)), ownEntry, peerEntry 3 0 none, pullCall 0 .connected, false, heardItem (be 1 9 ++ be 1 2 ++ be 1 0), body kindAnswer (be 1 9 ++ be 1 2 ++ be 1 0), conn .caller .awaitAnswer (.pull 1 20), .busy, ?_⟩,
   ⟨run (heard .calls kindAnswer (be 1 9 ++ be 1 3 ++ be 1 1) (pulling (peerEntry 3 0 none) 0 .connected .awaitAnswer part)), ownEntry, peerEntry 3 0 none, pullCall 0 .connected, false, heardItem (be 1 9 ++ be 1 3 ++ be 1 1), body kindAnswer (be 1 9 ++ be 1 3 ++ be 1 1), conn .caller .awaitAnswer (.pull 1 20), .refuse (Reason.ofCode 1), Reason.ofCode 1, ?_⟩,
   ⟨run (gap (pulling (peerEntry 0 0 none) 0 .connected .awaitAnswer part)), ownEntry, peerEntry 0 0 none, pullCall 0 .connected, false, conn .caller .awaitAnswer (.pull 1 20), ?_⟩,
   ⟨run (gap (pulling (peerEntry 3 0 none) 2 .connected .awaitData part)), ownEntry, peerEntry 3 0 none, pullCall 2 .connected, false, conn .caller .awaitData (.pull 1 20), ?_⟩,
   ⟨run (pulling (peerEntry 2 0 none) 0 .waitingRecall .awaitAnswer part), ownEntry, peerEntry 2 0 none, pullCall 0 .waitingRecall, false, ?_⟩⟩ <;>
    (repeat' apply And.intro) <;> decide +kernel

theorem meets_AcksAndFilesAreTaken :
    (∃ (s : State) (it : RxItem) (n : StationNo) (q : Nat) (e : Upload), s.supply.takesEvents = true ∧
      s.part.expectedMessage = some (it, .blockAck n.val q) ∧ s.part.trk.table = [e] ∧ e.station = n ∧ q ≤ e.acked ∧
      q = e.acked) ∧
    (∃ (s : State) (it : RxItem) (n : StationNo) (q : Nat) (e : Upload), ∃ b k, s.supply.takesEvents = true ∧
      s.part.expectedMessage = some (it, .blockAck n.val q) ∧ s.part.trk.table = [e] ∧ e.station = n ∧ e.acked < q ∧
      s.part.trk.blocks = [b] ∧ b.station = n ∧ b.last = q ∧ b.queued = true ∧ b.inRelay = true ∧ s.part.fwd.exchange
      = [] ∧ n = s.part.ownStation ∧ e.nextPack = q + 1 ∧ e.openBlock = none ∧ e.snapshot = some k ∧ q + 1 < k ∧
      e.status = .pulling ∧ s.part.trk.turn = some n ∧ s.part.trk.own = .reading ∧ s.part.trk.pull = .idle ∧
      s.part.trk.inbox = [] ∧ s.part.jrn.highestTaken < q ∧ q < s.part.jrn.next ∧ s.part.hdr.inFlight = none) ∧
    (∃ (s : State) (it : RxItem) (n q : Nat), s.supply.takesEvents = true ∧ s.part.expectedMessage = some (it,
      .blockAck n q) ∧ 16 ≤ n) ∧
    (∃ (s : State) (x : TFrame), s.supply.takesEvents = true ∧ s.part.fwd.exchange = [x] ∧ s.part.fwd.packets = [] ∧
      x.begun = true ∧ x.what = .bye true ∧ s.part.trk.night = .holding ∧ s.part.trk.phase = .closing) ∧
    (∃ (s : State) (it : RxItem) (b : Bytes) (m : Nat) (rest : List Nat), s.supply.takesEvents = true ∧
      s.part.recordsTake = true ∧ s.part.price.inbox = [] ∧ s.bufferFree ∧ s.part.fwd.free = m :: rest ∧ b.length ≤
      1024 ∧ it.buf.num < Config.poolSize ∧ s.part.expectedMessage = some (it, .fileHead b) ∧ fieldAt b 0 4 ≤
      s.part.price.activeGen) ∧
    (∃ (s : State) (it : RxItem) (b : Bytes) (m : Nat) (rest : List Nat), s.supply.takesEvents = true ∧
      s.part.recordsTake = true ∧ s.part.price.inbox = [] ∧ s.bufferFree ∧ s.part.fwd.free = m :: rest ∧ b.length ≤
      1024 ∧ it.buf.num < Config.poolSize ∧ s.part.expectedMessage = some (it, .filePart b) ∧ fieldAt b 0 4 ≠
      s.part.price.staging.generation) ∧
    (∃ (s : State) (it : RxItem) (b : Bytes) (m : Nat) (rest : List Nat), ∃ n more, s.supply.takesEvents = true ∧
      s.part.recordsTake = true ∧ s.part.price.inbox = [] ∧ s.bufferFree ∧ s.part.fwd.free = m :: rest ∧ b.length ≤
      1024 ∧ it.buf.num < Config.poolSize ∧ s.part.expectedMessage = some (it, .fileEnd b) ∧ rest = n :: more ∧
      fieldAt b 0 4 ≠ s.part.price.staging.generation ∧ 10 ≤ s.part.fwd.free.length ∧ s.part.fwd.free.Nodup ∧
      s.part.trk.line = .up ∧ s.part.fwd.exchange = [] ∧ s.part.fwd.packets = [] ∧ it.buf.num ∉ s.part.fwd.free) :=
  ⟨⟨run (given .trunk .trunk 0 ([2, 4, 2] ++ be 4 0) (ledger { next := 21, commit := 21 } { session .upload [⟨2, 1, some 20, 0, 17, 0, 0, .pulling, none⟩] part with trk := { (session .upload [⟨2, 1, some 20, 0, 17, 0, 0, .pulling, none⟩] part).trk with own := .reading, blocks := [⟨2, 1, 16, 16, ⟨200, .relay, 1032⟩, true, true, true⟩] } })), item .trunk 0 ([2, 4, 2] ++ be 4 0).length, 2, 0, ⟨2, 1, some 20, 0, 17, 0, 0, .pulling, none⟩, by (repeat' apply And.intro) <;> decide +kernel⟩,
   ⟨run (given .trunk .trunk 0 ([2, 4, 2] ++ be 4 16) (ledger { next := 21, commit := 21 } { session .upload [⟨2, 1, some 20, 0, 17, 0, 0, .pulling, none⟩] part with trk := { (session .upload [⟨2, 1, some 20, 0, 17, 0, 0, .pulling, none⟩] part).trk with own := .reading, blocks := [⟨2, 1, 16, 16, ⟨200, .relay, 1032⟩, true, true, true⟩] } })), item .trunk 0 ([2, 4, 2] ++ be 4 16).length, 2, 16, ⟨2, 1, some 20, 0, 17, 0, 0, .pulling, none⟩, ⟨2, 1, 16, 16, ⟨200, .relay, 1032⟩, true, true, true⟩, 20, by (repeat' apply And.intro) <;> decide +kernel⟩,
   ⟨run (given .trunk .trunk 0 ([2, 4, 16] ++ be 4 5) (ledger { next := 21, commit := 21 } { session .upload [⟨2, 1, some 20, 0, 17, 0, 0, .pulling, none⟩] part with trk := { (session .upload [⟨2, 1, some 20, 0, 17, 0, 0, .pulling, none⟩] part).trk with own := .reading, blocks := [⟨2, 1, 16, 16, ⟨200, .relay, 1032⟩, true, true, true⟩] } })), item .trunk 0 ([2, 4, 16] ++ be 4 5).length, 16, 5, by (repeat' apply And.intro) <;> decide +kernel⟩,
   ⟨run ({ session .closing [] part with fwd := { part.fwd with exchange := [⟨⟨300, .plain, 2⟩, .bye true, true⟩] } }), ⟨⟨300, .plain, 2⟩, .bye true, true⟩, by (repeat' apply And.intro) <;> decide +kernel⟩,
   ⟨run (given .trunk .trunk 0 ([2, 6] ++ (be 4 7 ++ be 6 0)) (selling milk (session .download [] part))), item .trunk 0 ([2, 6] ++ (be 4 7 ++ be 6 0)).length, (be 4 7 ++ be 6 0), 0, [1, 2, 3, 4, 5, 6, 7, 8, 9, 10, 11, 12, 13, 14, 15, 16, 17, 18, 19], by (repeat' apply And.intro) <;> decide +kernel⟩,
   ⟨run (given .trunk .trunk 0 ([2, 7] ++ (be 4 1)) (session .download [] part)), item .trunk 0 ([2, 7] ++ (be 4 1)).length, (be 4 1), 0, [1, 2, 3, 4, 5, 6, 7, 8, 9, 10, 11, 12, 13, 14, 15, 16, 17, 18, 19], by (repeat' apply And.intro) <;> decide +kernel⟩,
   ⟨run (given .trunk .trunk 0 ([2, 8] ++ (be 4 1 ++ be 6 0)) (session .download [] part)), item .trunk 0 ([2, 8] ++ (be 4 1 ++ be 6 0)).length, (be 4 1 ++ be 6 0), 0, [1, 2, 3, 4, 5, 6, 7, 8, 9, 10, 11, 12, 13, 14, 15, 16, 17, 18, 19], 1, [2, 3, 4, 5, 6, 7, 8, 9, 10, 11, 12, 13, 14, 15, 16, 17, 18, 19], by (repeat' apply And.intro) <;> decide +kernel⟩⟩

/-- Peer 5's BLOCK stands acknowledged by nobody; its snapshot is `k`, and these frames wait in the CONTROL class queue. -/
def acknowledging (k : Nat) (control : List QFrame) : State :=
  run
    (given .trunk .trunk 0 ([2, 4, 5] ++ be 4 16)
      { session .upload [ownEntry, peerEntry 0 0 (some k)] part with
        trk :=
          { (session .upload [ownEntry, peerEntry 0 0 (some k)] part).trk with
            turn := none, nightDay := 9, blocks := [{ ownBlock 200 true with station := 5 }] }
        fwd := { part.fwd with relayCount := 1, control := control } })

/-- A presence of peer 5 shows its first unreleased sequence, in a night acknowledged through 16. -/
def releasing (first : Nat) (night : Night) : State :=
  run
    (clock 9 1400 0
      { session .upload [] part with
        trk := { night := night, nightDay := 9, table := [{ peerEntry 0 0 (some 20) with acked := 16 }] }
        pres := { part.pres with inbox := [kept 5 { shown 0 .standby with firstUnreleased := first }] } })

/-- What an acknowledgement of a peer's BLOCK takes for granted. -/
def ackStands (it : RxItem) (n : StationNo) (q k m : Nat) (o e : Upload) (b : Block) (rest : List Nat) (s : State) : Prop :=
  s.supply.takesEvents = true ∧ s.part.expectedMessage = some (it, .blockAck n.val q) ∧ n ≠ s.part.ownStation ∧
    s.part.trk.table = [o, e] ∧ e.station = n ∧ o.station ≠ n ∧ o.status = .pulling ∧ e.status = .pulling ∧
    s.part.trk.turn = none ∧ s.part.trk.own = .idle ∧ s.part.trk.pull = .idle ∧ s.part.trk.inbox = [] ∧ e.acked < q ∧
    e.nextPack = q + 1 ∧ e.openBlock = none ∧ e.snapshot = some k ∧ s.part.trk.blocks = [b] ∧ b.station = n ∧ b.last = q ∧
    b.queued = true ∧ b.inRelay = true ∧ s.part.fwd.exchange = [] ∧ s.part.fwd.free = m :: rest ∧ m < Config.poolSize

theorem meets_AcksAndFilesAreTaken_released :
    (∃ s it n q k m o e b rest, ∃ before behind : List QFrame, ackStands it n q k m o e b rest s ∧
      s.part.fwd.control = before ++ [] ++ behind ∧ (∀ x ∈ before ++ behind, x.owner ≠ .release n) ∧ k = q + 2) ∧
    (∃ s it n q k m o e b rest, ∃ (before behind : List QFrame) (x : QFrame), ackStands it n q k m o e b rest s ∧
      s.part.fwd.control = before ++ [x] ++ behind ∧ (∀ x ∈ before ++ behind, x.owner ≠ .release n) ∧
      x.owner = .release n ∧ (before = [] → s.part.branch.tx.inHand ≠ some .control) ∧ k = q + 1 ∧ before ≠ []) ∧
    (∃ s it n q k m o e b rest, ∃ (before behind : List QFrame) (x : QFrame), ackStands it n q k m o e b rest s ∧
      s.part.fwd.control = before ++ [x] ++ behind ∧ (∀ x ∈ before ++ behind, x.owner ≠ .release n) ∧
      x.owner = .release n ∧ (before = [] → s.part.branch.tx.inHand ≠ some .control) ∧ before = []) ∧
    (∃ s : State, ∃ k more d c n e m rest, s.supply.takesEvents = true ∧ s.part.pres.inbox = k :: more ∧
      k.read = some d ∧ n = k.station ∧ s.part.cfg = some c ∧ n ≠ c.station ∧ s.part.pres.joining = .ready ∧
      s.part.pres.clock.valid = true ∧ (d.night = .claiming ∨ d.night = .standby) ∧
      d.activeGen ≤ s.part.price.activeGen ∧ s.part.price.staging.state = .empty ∧ s.part.trk.night = .done ∧
      s.part.nightNow = some s.part.trk.nightDay ∧ s.part.trk.table = [e] ∧ e.station = n ∧
      d.firstUnreleased + 1 = e.acked + 1 ∧ (∀ x ∈ s.part.fwd.control, x.owner ≠ .release n) ∧
      s.part.fwd.free = m :: rest ∧ m < Config.poolSize) ∧
    (∃ s : State, ∃ k more d c n e, s.supply.takesEvents = true ∧ s.part.pres.inbox = k :: more ∧ k.read = some d ∧
      n = k.station ∧ s.part.cfg = some c ∧ n ≠ c.station ∧ s.part.pres.joining = .ready ∧
      s.part.pres.clock.valid = true ∧ (d.night = .claiming ∨ d.night = .standby) ∧
      d.activeGen ≤ s.part.price.activeGen ∧ s.part.price.staging.state = .empty ∧ s.part.trk.night = .holding ∧
      s.part.nightNow = some s.part.trk.nightDay ∧ s.part.trk.table = [e] ∧ e.station = n ∧
      e.acked + 1 = d.firstUnreleased) := by
  refine ⟨⟨acknowledging 18 [], item .trunk 0 7, 5, 16, 18, 0, ownEntry, peerEntry 0 0 (some 18), { ownBlock 200 true with station := 5 }, List.range' 1 19, [], [], ?_⟩,
   ⟨acknowledging 17 [frame (.claim 9) 0, frame (.release 5) 0], item .trunk 0 7, 5, 16, 17, 0, ownEntry, peerEntry 0 0 (some 17), { ownBlock 200 true with station := 5 }, List.range' 1 19, [frame (.claim 9) 0], [], frame (.release 5) 0, ?_⟩,
   ⟨acknowledging 17 [frame (.release 5) 0, frame (.claim 9) 0], item .trunk 0 7, 5, 16, 17, 0, ownEntry, peerEntry 0 0 (some 17), { ownBlock 200 true with station := 5 }, List.range' 1 19, [], [frame (.claim 9) 0], frame (.release 5) 0, ?_⟩,
   ⟨releasing 16 .done, kept 5 { shown 0 .standby with firstUnreleased := 16 }, [], { shown 0 .standby with firstUnreleased := 16 }, conf, 5, { peerEntry 0 0 (some 20) with acked := 16 }, 0, List.range' 1 19, ?_⟩,
   ⟨releasing 17 .holding, kept 5 { shown 0 .standby with firstUnreleased := 17 }, [], { shown 0 .standby with firstUnreleased := 17 }, conf, 5, { peerEntry 0 0 (some 20) with acked := 16 }, ?_⟩⟩ <;>
    (repeat' apply And.intro) <;> decide +kernel

theorem meets_BurstsAndRefresh :
    (∃ (a : Arb) (k : Asks), ∃ (b : Bool), 4 ≤ a.postponed) ∧
    (∃ (a : Arb) (k : Asks), ∃ (b : Bool), a.postponed < 4 ∧ (b = false ∨ ∀ r, k.presented r = none)) ∧
    (∃ (a : Arb) (k : Asks), ∃ (b : Bool), a.postponed < 4 ∧ (b = false ∨ ∀ r, k.presented r = none)) ∧
    (∃ (a : Arb) (k : Asks), ∃ (b : Bool), a.postponed < 4 ∧ (b = false ∨ ∀ r, k.presented r = none)) ∧
    (∃ (a : Arb) (k : Asks), ∃ r, a.postponed < 4 ∧ (k.presented r).isSome = true ∧ a.passed.of r = 16 ∧ (∀ q,
      Req.all.idxOf q < Req.all.idxOf r → (k.presented q).isSome = true → a.passed.of q ≠ 16)) ∧
    (∃ (a : Arb) (k : Asks), ∃ r, a.postponed < 4 ∧ (k.presented r).isSome = true ∧ (∀ q, (k.presented q).isSome =
      true → a.passed.of q ≠ 16) ∧ (∀ q, Req.all.idxOf q < Req.all.idxOf r → k.presented q = none)) ∧
    (∃ (a : Arb) (k : Asks), ∃ (c : Choice) (r : Req), k.presented r = none) ∧
    (∃ (a : Arb) (k : Asks), ∃ (c : Choice) (r : Req), (k.presented r).isSome = true ∧ c ≠ .requester r) ∧
    (∃ (k : Asks) (r : Req), ∃ pre x post t, k.of r = pre ++ x :: post ∧ (∀ y ∈ pre, y.now = none) ∧ x.now = some t) ∧
    (∃ (k : Asks) (r : Req), ∃ pre x post t, k.of r = pre ++ x :: post ∧ (∀ y ∈ pre, y.now = none) ∧ x.now = some t) ∧
    (∃ (p : Part) (u : BurstUser) (t : Tok), (∀ x ∈ p.asks.of u.req, x.user ≠ u)) ∧
    (∃ (p : Part) (u : BurstUser) (t : Tok), ∃ pre x post, p.asks.of u.req = pre ++ x :: post ∧ (∀ y ∈ pre, y.user ≠
      u) ∧ x.user = u) ∧
    (∃ (p : Part) (u : BurstUser) (t : Tok), ∃ (pre : List Asked) (later : List Tok) (post : List Asked) (more : List
      Tok), p.asks.of u.req = pre ++ ⟨u, none, later⟩ :: post ∧ (∀ y ∈ pre ++ post, y.user ≠ u)) ∧
    (∃ (p : Part) (u : BurstUser) (t : Tok), ∃ (pre : List Asked) (later : List Tok) (post : List Asked) (more : List
      Tok), p.asks.of u.req = pre ++ ⟨u, none, later⟩ :: post ∧ (∀ y ∈ pre ++ post, y.user ≠ u)) ∧
    (∃ (s : State) (c : Choice), (∀ r, c = .requester r → (s.part.asks.presented r).isSome = true) ∧ (c = .urgent ∨ c
      = .refresh)) ∧
    (∃ (s : State) (c : Choice), ∃ r pre x post k, ∃ q, (∀ r, c = .requester r → (s.part.asks.presented r).isSome =
      true) ∧ c = .requester r ∧ s.part.asks.of r = pre ++ x :: post ∧ (∀ y ∈ pre, y.now = none) ∧ x.now = some k ∧ q
      ≠ r) ∧
    (∃ s : State, s.supply.watch = .running ∧ s.supply.stopping = false ∧ s.arb.port.isSome = true) ∧
    (∃ s : State, s.supply.watch = .running ∧ s.supply.stopping = false ∧ s.arb.port = some .refresh ∧
      s.arb.postponed = 0 ∧ (∀ r, s.part.asks.presented r = none)) ∧
    (∃ s : State, s.supply.stopping = true ∧ s.arb.port = some .refresh) ∧
    (∃ (s : State) (u : BurstUser) (k : Tok), ∃ h us, s.supply.stopping = false ∧ s.arb.port = some (.burst u k) ∧ k
      = .headerWrite ∧ s.part.hdr.inFlight = some (h, us)) ∧
    (∃ (s : State) (u : BurstUser) (k : Tok), s.supply.stopping = false ∧ s.arb.port = some (.burst u k) ∧ k =
      .headerRead) ∧
    (∃ (s : State) (u : BurstUser) (k : Tok), ∃ l c b rest n lo, s.supply.stopping = false ∧ s.arb.port = some
      (.burst u k) ∧ k = .rxWrite l ∧ (s.part.framer l).fifo = c :: rest ∧ c.buf = some b ∧ c.ready = true ∧ n = min
      c.bytes.length (32 - c.at_ % 32) ∧ lo = bufAddr b.num + c.at_ ∧ lo + n ≤ 0x400000) ∧
    (∃ (s : State) (u : BurstUser) (k : Tok), ∃ l c b rest n lo, s.supply.stopping = false ∧ s.arb.port = some
      (.burst u k) ∧ k = .rxWrite l ∧ (s.part.framer l).fifo = c :: rest ∧ c.buf = some b ∧ c.ready = true ∧ n = min
      c.bytes.length (32 - c.at_ % 32) ∧ lo = bufAddr b.num + c.at_ ∧ lo + n ≤ 0x400000) ∧
    (∃ (s : State) (u : BurstUser) (k : Tok), ∃ l c b rest n lo, s.supply.stopping = false ∧ s.arb.port = some
      (.burst u k) ∧ k = .rxWrite l ∧ (s.part.framer l).fifo = c :: rest ∧ c.buf = some b ∧ c.ready = true ∧ n = min
      c.bytes.length (32 - c.at_ % 32) ∧ lo = bufAddr b.num + c.at_ ∧ lo + n ≤ 0x400000) ∧
    (∃ (s : State) (u : BurstUser) (k : Tok), ∃ l b n, s.supply.stopping = false ∧ s.arb.port = some (.burst u k) ∧ k
      = .txRead l ∧ s.part.txBuf l = some b ∧ (s.part.sender l).stale = false ∧ n = min 32 (b.len - (s.part.sender
      l).fetched)) ∧
    (∃ (s : State) (u : BurstUser) (k : Tok), ∃ l b n, s.supply.stopping = false ∧ s.arb.port = some (.burst u k) ∧ k
      = .txRead l ∧ s.part.txBuf l = some b ∧ (s.part.sender l).stale = false ∧ n = min 32 (b.len - (s.part.sender
      l).fetched)) ∧
    (∃ (s : State) (u : BurstUser) (k : Tok), ∃ lo bs more, s.supply.stopping = false ∧ s.arb.port = some (.burst u
      k) ∧ k = .store ((lo, bs) :: more) ∧ lo + bs.length ≤ 0x400000 ∧ more = []) ∧
    (∃ (s : State) (u : BurstUser) (k : Tok), ∃ lo bs more, s.supply.stopping = false ∧ s.arb.port = some (.burst u
      k) ∧ k = .store ((lo, bs) :: more) ∧ lo + bs.length ≤ 0x400000 ∧ more ≠ []) ∧
    (∃ (s : State) (u : BurstUser) (k : Tok), ∃ lo hi, s.supply.stopping = false ∧ s.arb.port = some (.burst u k) ∧ k
      = .wipe lo hi ∧ lo < hi) ∧
    (∃ (s : State) (u : BurstUser) (k : Tok), ∃ lo hi, s.supply.stopping = false ∧ s.arb.port = some (.burst u k) ∧ k
      = .wipe lo hi ∧ lo < hi ∧ 32 * (lo / 32 + 1) < hi) ∧
    (∃ (s : State) (u : BurstUser) (k : Tok), ∃ n, s.supply.stopping = false ∧ s.arb.port = some (.burst u k) ∧ k =
      .load n) ∧
    (∃ (s : State) (u : BurstUser) (k : Tok), ∃ n, s.supply.stopping = false ∧ s.arb.port = some (.burst u k) ∧ k =
      .load n ∧ 2 ≤ n) ∧
    (∃ (s : State) (u : BurstUser) (k : Tok), ∃ n lo, s.supply.stopping = false ∧ s.arb.port = some (.burst u k) ∧ k
      = .guestClear ∧ s.part.gst.cleared = n ∧ n < 256 ∧ lo = 0x3F0000 + 32 * n) ∧
    (∃ (s : State) (u : BurstUser) (k : Tok), ∃ n lo, s.supply.stopping = false ∧ s.arb.port = some (.burst u k) ∧ k
      = .guestClear ∧ s.part.gst.cleared = n ∧ n < 256 ∧ lo = 0x3F0000 + 32 * n) ∧
    (∃ (s : State) (u : BurstUser) (k : Tok), ∃ sc, s.supply.stopping = false ∧ s.arb.port = some (.burst u k) ∧ k =
      .scanFirst ∧ s.part.jrn.scan = some sc) ∧
    (∃ (s : State) (u : BurstUser) (k : Tok), ∃ sc bs, s.supply.stopping = false ∧ s.arb.port = some (.burst u k) ∧ k
      = .scanSecond ∧ s.part.jrn.scan = some sc ∧ sc.stage = .reading ∧ bs = s.part.read (0x200000 + 64 * (sc.e %
      16384)) 64 ∧ crcGood bs = true ∧ fieldAt bs 0 4 = sc.e) ∧
    (∃ (s : State) (u : BurstUser) (k : Tok), ∃ sc bs, s.supply.stopping = false ∧ s.arb.port = some (.burst u k) ∧ k
      = .scanSecond ∧ s.part.jrn.scan = some sc ∧ sc.stage = .reading ∧ bs = s.part.read (0x200000 + 64 * (sc.e %
      16384)) 64 ∧ (crcGood bs = false ∨ fieldAt bs 0 4 ≠ sc.e)) :=
  ⟨⟨{ postponed := 4 }, {}, true, by (repeat' apply And.intro) <;> decide +kernel⟩,
   ⟨{ postponed := 3 }, { line := [⟨.lineSend, some (.txRead .branch), []⟩] }, false, by (repeat' apply And.intro) <;> first | decide +kernel | exact Or.inl rfl⟩,
   ⟨{ postponed := 1 }, {}, true, by (repeat' apply And.intro) <;> first | decide +kernel | (intro r; cases r <;> decide) | exact Or.inr (by intro r; cases r <;> rfl) | exact Or.inl rfl⟩,
   ⟨{}, { till := [⟨.journal, none, [.journalSecond]⟩] }, true, by (repeat' apply And.intro) <;> first | decide +kernel | (intro r; cases r <;> decide) | exact Or.inr (by intro r; cases r <;> rfl) | exact Or.inl rfl⟩,
   ⟨{ postponed := 3, passed := { guest := 16, line := 15 } }, { guest := [⟨.guestTable, some .guestClear, []⟩], line := [⟨.lineSend, some (.txRead .branch), []⟩] }, .guest, by (repeat' apply And.intro) <;> first | decide +kernel | (intro q hq; revert hq; cases q <;> decide)⟩,
   ⟨{ passed := { line := 15 } }, { price := [⟨.staging, some .mergeStep, []⟩], guest := [⟨.guestTable, some .guestClear, []⟩] }, .price, by (repeat' apply And.intro) <;> first | decide +kernel | (intro q; cases q <;> decide) | (intro q; cases q <;> intro hq <;> first | rfl | (revert hq; decide))⟩,
   ⟨{}, { line := [⟨.journal, none, [.journalSecond]⟩] }, .refresh, .line, by (repeat' apply And.intro) <;> decide +kernel⟩,
   ⟨{ passed := { till := 16 } }, { till := [⟨.journal, some .journalFirst, [.journalSecond]⟩] }, .urgent, .till, by (repeat' apply And.intro) <;> decide +kernel⟩,
   ⟨{ till := [⟨.journal, none, [.journalSecond]⟩, ⟨.lookup 3, some (.lookup 3), []⟩] }, .till, [⟨.journal, none, [.journalSecond]⟩], ⟨.lookup 3, some (.lookup 3), []⟩, [], .lookup 3, by (repeat' apply And.intro) <;> first | decide +kernel | (intro r hr; cases hr; decide +kernel) | (intro y hy; simp only [List.mem_singleton] at hy; subst hy; rfl) | (intro r hr; cases hr; done) | (intro y hy; cases hy; done)⟩,
   ⟨{ till := [⟨.journal, some .journalFirst, [.journalSecond]⟩] }, .till, [], ⟨.journal, some .journalFirst, [.journalSecond]⟩, [], .journalFirst, by (repeat' apply And.intro) <;> first | decide +kernel | (intro r hr; cases hr; decide +kernel) | (intro y hy; simp only [List.mem_singleton] at hy; subst hy; rfl) | (intro r hr; cases hr; done) | (intro y hy; cases hy; done)⟩,
   ⟨{ part with asks := { till := [⟨.lookup 3, some (.lookup 3), []⟩] } }, .journal, .journalFirst, by (repeat' apply And.intro) <;> first | decide +kernel | (intro x hx; revert x; decide +kernel)⟩,
   ⟨{ part with asks := { till := [⟨.lookup 3, some (.lookup 3), []⟩, ⟨.journal, some .journalFirst, [.journalSecond]⟩] } }, .journal, .journalFirst, [⟨.lookup 3, some (.lookup 3), []⟩], ⟨.journal, some .journalFirst, [.journalSecond]⟩, [], by (repeat' apply And.intro) <;> first | decide +kernel | (intro x hx; revert x; decide +kernel)⟩,
   ⟨{ part with asks := { till := [⟨.journal, none, [.journalSecond]⟩, ⟨.lookup 3, some (.lookup 3), []⟩] } }, .journal, .journalFirst, [], [.journalSecond], [⟨.lookup 3, some (.lookup 3), []⟩], [], by (repeat' apply And.intro) <;> first | decide +kernel | (intro x hx; revert x; decide +kernel)⟩,
   ⟨{ part with asks := { till := [⟨.journal, none, []⟩] } }, .journal, .journalFirst, [], [], [], [], by (repeat' apply And.intro) <;> first | decide +kernel | (intro x hx; revert x; decide +kernel)⟩,
   ⟨run (part), .urgent, by (repeat' apply And.intro) <;> first | decide +kernel | (intro r hr; cases hr; decide +kernel) | (intro y hy; simp only [List.mem_singleton] at hy; subst hy; rfl) | (intro r hr; cases hr; done) | (intro y hy; cases hy; done)⟩,
   ⟨run ({ part with asks := { till := [⟨.journal, none, [.journalSecond]⟩, ⟨.lookup 3, some (.lookup 3), []⟩], line := [⟨.lineSend, some (.txRead .branch), []⟩] } }), .requester .till, .till, [⟨.journal, none, [.journalSecond]⟩], ⟨.lookup 3, some (.lookup 3), []⟩, [], .lookup 3, .line, by (repeat' apply And.intro) <;> first | decide +kernel | (intro r hr; cases hr; decide +kernel) | (intro y hy; simp only [List.mem_singleton] at hy; subst hy; rfl) | (intro r hr; cases hr; done) | (intro y hy; cases hy; done)⟩,
   ⟨{ run (part) with arb := { port := some (.burst .lineReceive (.load 1)) } }, by (repeat' apply And.intro) <;> decide +kernel⟩,
   ⟨{ run part with arb := { port := some .refresh } }, by (repeat' apply And.intro) <;> first | decide +kernel | (intro r; cases r <;> decide) | exact Or.inr (by intro r; cases r <;> rfl) | exact Or.inl rfl⟩,
   ⟨{ run part with arb := { port := some .refresh }, supply := { watch := .running, stopping := true } }, by (repeat' apply And.intro) <;> decide +kernel⟩,
   ⟨{ run ({ part with hdr := { inFlight := some ({}, [.pricing]) } }) with arb := { port := some (.burst .pricingHeader .headerWrite) } }, .pricingHeader, .headerWrite, {}, [.pricing], by (repeat' apply And.intro) <;> decide +kernel⟩,
   ⟨{ run (part) with arb := { port := some (.burst .memory .headerRead) } }, .memory, .headerRead, by (repeat' apply And.intro) <;> decide +kernel⟩,
   ⟨{ run ({ part with branch := { part.branch with framer := { fifo := [⟨some ⟨300, .plain, 0⟩, 0, List.replicate 34 7, false⟩], draining := true } } }) with arb := { port := some (.burst .lineReceive (.rxWrite .branch)) } }, .lineReceive, .rxWrite .branch, .branch, ⟨some ⟨300, .plain, 0⟩, 0, List.replicate 34 7, false⟩, ⟨300, .plain, 0⟩, [], 32, bufAddr 300 + 0, by (repeat' apply And.intro) <;> decide +kernel⟩,
   ⟨{ run ({ part with branch := { part.branch with framer := { fifo := [⟨some ⟨300, .plain, 0⟩, 0, List.replicate 64 7, true⟩], draining := true } } }) with arb := { port := some (.burst .lineReceive (.rxWrite .branch)) } }, .lineReceive, .rxWrite .branch, .branch, ⟨some ⟨300, .plain, 0⟩, 0, List.replicate 64 7, true⟩, ⟨300, .plain, 0⟩, [], 32, bufAddr 300 + 0, by (repeat' apply And.intro) <;> decide +kernel⟩,
   ⟨{ run ({ part with branch := { part.branch with framer := { fifo := [⟨some ⟨300, .plain, 0⟩, 2016, List.replicate 5 7, true⟩], draining := true } } }) with arb := { port := some (.burst .lineReceive (.rxWrite .branch)) } }, .lineReceive, .rxWrite .branch, .branch, ⟨some ⟨300, .plain, 0⟩, 2016, List.replicate 5 7, true⟩, ⟨300, .plain, 0⟩, [], 5, bufAddr 300 + 2016, by (repeat' apply And.intro) <;> decide +kernel⟩,
   ⟨{ run ({ part with fwd := { part.fwd with packets := [⟨⟨300, .guest, 40⟩, .packet, true⟩] }, links := { trunk := { reading := true, fetched := 0 } } }) with arb := { port := some (.burst .trunkSend (.txRead .trunk)) } }, .trunkSend, .txRead .trunk, .trunk, ⟨300, .guest, 40⟩, 32, by (repeat' apply And.intro) <;> decide +kernel⟩,
   ⟨{ run ({ part with fwd := { part.fwd with packets := [⟨⟨300, .guest, 40⟩, .packet, true⟩] }, links := { trunk := { reading := true, fetched := 32 } } }) with arb := { port := some (.burst .trunkSend (.txRead .trunk)) } }, .trunkSend, .txRead .trunk, .trunk, ⟨300, .guest, 40⟩, 8, by (repeat' apply And.intro) <;> decide +kernel⟩,
   ⟨{ run (part) with arb := { port := some (.burst .lineReceive (.store [(0x3FFFFF, [7])])) } }, .lineReceive, .store [(0x3FFFFF, [7])], 0x3FFFFF, [7], [], by (repeat' apply And.intro) <;> decide +kernel⟩,
   ⟨{ run (part) with arb := { port := some (.burst .labelTable (.store [(0, [7]), (1, [8])])) } }, .labelTable, .store [(0, [7]), (1, [8])], 0, [7], [(1, [8])], by (repeat' apply And.intro) <;> decide +kernel⟩,
   ⟨{ run (part) with arb := { port := some (.burst .staging (.wipe 5 32)) } }, .staging, .wipe 5 32, 5, 32, by (repeat' apply And.intro) <;> decide +kernel⟩,
   ⟨{ run (part) with arb := { port := some (.burst .staging (.wipe 5 33)) } }, .staging, .wipe 5 33, 5, 33, by (repeat' apply And.intro) <;> decide +kernel⟩,
   ⟨{ run (part) with arb := { port := some (.burst .bank (.load 1)) } }, .bank, .load 1, 1, by (repeat' apply And.intro) <;> decide +kernel⟩,
   ⟨{ run (part) with arb := { port := some (.burst .bank (.load 2)) } }, .bank, .load 2, 2, by (repeat' apply And.intro) <;> decide +kernel⟩,
   ⟨{ run ({ part with gst := { cleared := 0 } }) with arb := { port := some (.burst .guestTable .guestClear) } }, .guestTable, .guestClear, 0, 4128768, by (repeat' apply And.intro) <;> decide +kernel⟩,
   ⟨{ run ({ part with gst := { cleared := 255 } }) with arb := { port := some (.burst .guestTable .guestClear) } }, .guestTable, .guestClear, 255, 4136928, by (repeat' apply And.intro) <;> decide +kernel⟩,
   ⟨{ run ({ slot 1 part with jrn := { scan := some { stage := .reading, e := 1, marks := [], aside := [], read := 0 } } }) with arb := { port := some (.burst .journal .scanFirst) } }, .journal, .scanFirst, { stage := .reading, e := 1, marks := [], aside := [], read := 0 }, by (repeat' apply And.intro) <;> decide +kernel⟩,
   ⟨{ run ({ slot 1 part with jrn := { scan := some { stage := .reading, e := 1, marks := [], aside := [], read := 0 } } }) with arb := { port := some (.burst .journal .scanSecond) } }, .journal, .scanSecond, { stage := .reading, e := 1, marks := [], aside := [], read := 0 }, recordBytes 1 0 0 0 false (.saleOpen 7), by (repeat' apply And.intro) <;> decide +kernel⟩,
   ⟨{ run ({ slot 1 part with jrn := { scan := some { stage := .reading, e := 2, marks := [], aside := [], read := 0 } } }) with arb := { port := some (.burst .journal .scanSecond) } }, .journal, .scanSecond, { stage := .reading, e := 2, marks := [], aside := [], read := 0 }, List.replicate 64 0, by (repeat' apply And.intro) <;> decide +kernel⟩⟩

theorem meets_SupplyAndReset :
    (∃ p : Part, p.cfg = none) ∧
    (∃ p : Part, ∃ c, p.cfg = some c) ∧
    (∃ s : State, s.supply.watch ≠ .running) ∧
    (∃ s : State, ∃ w row, s.supply.watch = w ∧ w ≠ .running ∧ row = (if w = .held then s.arb.row else 0) ∧
      s.supply.pin = false) ∧
    (∃ s : State, ∃ w row, s.supply.watch = w ∧ w ≠ .running ∧ row = (if w = .held then s.arb.row else 0) ∧
      s.supply.pin = false) ∧
    (∃ s : State, ∃ w row, s.supply.watch = w ∧ w ≠ .running ∧ row = (if w = .held then s.arb.row else 0) ∧
      s.supply.pin = true) ∧
    (∃ s : State, s.supply.watch = .running ∧ s.supply.stopping = false ∧ s.supply.pin = false) ∧
    (∃ s : State, s.supply.watch = .running ∧ s.supply.stopping = false ∧ s.supply.pin = true ∧ s.arb.port = none ∧
      s.arb.postponed < 4) :=
  ⟨⟨{}, by (repeat' apply And.intro) <;> decide +kernel⟩,
   ⟨part, conf, by (repeat' apply And.intro) <;> decide +kernel⟩,
   ⟨{ run part with supply := { watch := .held, pin := false }, arb := { row := 5, postponed := 3 } }, by (repeat' apply And.intro) <;> decide +kernel⟩,
   ⟨{ run part with supply := { watch := .held, pin := false }, arb := { row := 4095, postponed := 3 } }, .held, 4095, by (repeat' apply And.intro) <;> decide +kernel⟩,
   ⟨{ run part with supply := { watch := .waiting, pin := false }, arb := { row := 5, postponed := 3 } }, .waiting, 0, by (repeat' apply And.intro) <;> decide +kernel⟩,
   ⟨{ run part with supply := { watch := .held, pin := true }, arb := { row := 5, postponed := 3 } }, .held, 5, by (repeat' apply And.intro) <;> decide +kernel⟩,
   ⟨run (part), by (repeat' apply And.intro) <;> decide +kernel⟩,
   ⟨{ run part with supply := { watch := .running, pin := true }, arb := { row := 5, postponed := 3 } }, by (repeat' apply And.intro) <;> decide +kernel⟩⟩

theorem meets_CrcIsOneForAll :
    (∃ (l : Line) (overrun : Bool) (body : Bytes), crcGood body = false) ∧
    (∃ (p : Part) (n : PortNo) (bs : Bytes), crcGood bs = false) ∧
    (∃ (p : Part) (bank : BankName) (i : Nat), crcGood (p.entryBytes bank i) = false) ∧
    (∃ (p : Part) (q : Nat) (bs : Bytes), p.readAnswer q = .record bs) ∧
    (∃ (p : Part) (i : Nat), crcGood (p.labelBytes i) = false ∧ (p.labelAt i).isSome = true) ∧
    (∃ bs : Bytes, crcGood bs = false) ∧
    (∃ (p : Part) (i : Nat) (bs : Bytes), crcGood bs = false) :=
  ⟨⟨.branch, false, [2, 8, 0, 0, 0], by (repeat' apply And.intro) <;> decide +kernel⟩,
   ⟨part, 0, [], by (repeat' apply And.intro) <;> decide +kernel⟩,
   ⟨part, .a, 0, by (repeat' apply And.intro) <;> decide +kernel⟩,
   ⟨ledger journal (slot 1 part), 1, recordBytes 1 0 0 0 false (.saleOpen 7), by (repeat' apply And.intro) <;> decide +kernel⟩,
   ⟨{ part with dram := [(labelAddr 0, 1)] }, 0, by (repeat' apply And.intro) <;> decide +kernel⟩,
   ⟨[], by (repeat' apply And.intro) <;> decide +kernel⟩,
   ⟨part, 0, [], by (repeat' apply And.intro) <;> decide +kernel⟩⟩

end Sys2Proof.Tests
end

section
/-! PROOFS. Running a command, and the loop test of SELF TEST. -/

open Sys2Proof
namespace Sys2Proof.Machine

/-! ### running a command of the line -/

/-- A command that acts on the blocks answers the part it makes, with the port settled. -/
theorem exec_of_run {c : Instr} {f : Part → Part} (hc : ∀ s, exec c s = s.run f) {s : State}
    (h : s.supply.takesEvents = true) : exec c s = .next { s with part := f s.part }.settle :=
  (hc s).trans (s.run_takes f h)

@[simp] theorem State.settle_framer (s : State) (l : Line) : s.settle.part.framer l = s.part.framer l := by
  cases l <;> simp [Part.framer]

@[simp] theorem State.settle_sender (s : State) (l : Line) : s.settle.part.sender l = s.part.sender l := by
  cases l <;> simp [Part.sender]

/-! ### self test (R15, R40, R41) -/

theorem exec_loopTestResult (front frame : List Bool) (s : State) :
    exec (.loopTestResult front frame) s = s.run (Part.loopResult front frame) := rfl

theorem exec_loopTestTimeout (s : State) : exec .loopTestTimeout s = s.run (Part.loopEnd false) := rfl

/-- Where the joining state sends no label orders, the check for them does nothing (R48, R139). -/
theorem Part.checkOrders_of_no_orders (p : Part) (h : p.pres.joining.labelOrders = false) : p.checkOrders = p := by
  have hgo : p.ordersGo = false := by simp [Part.ordersGo, h]
  unfold Part.checkOrders
  cases p.lab.urgent.length + p.lab.routine.length with
  | zero => rfl
  | succ n => simp [Part.takeOrders, hgo]

/-- A station outside the night exchange makes no claim (R48, R171). -/
theorem Part.claimCheck_of_no_night (p : Part) (h : p.pres.joining.nightExchange = false) : p.claimCheck = p := by
  unfold Part.claimCheck
  split
  · rfl
  · simp [h]

/-- MEMORY is entered, and no other block has anything to take of it (R48). -/
theorem Part.setJoining_memory (p : Part) :
    p.setJoining .memory = p.modPres fun x => { x with joining := .memory } := by
  have horders : (p.modPres fun x => { x with joining := .memory }).checkOrders = _ := Part.checkOrders_of_no_orders _ rfl
  have hclaim : (p.modPres fun x => { x with joining := .memory }).claimCheck = _ := Part.claimCheck_of_no_night _ rfl
  simp [Part.setJoining, horders, hclaim]

/-- The end of the loop test: out of the loop, MEMORY entered with the mark of what was read, the header read asked. -/
theorem Part.loopEnd_selfTest (passed : Bool) (p : Part) (hj : p.pres.joining = .selfTest) (hl : p.branch.loop = true) :
    p.loopEnd passed =
      (((p.modBranch fun b => { b with loop := false }).modPres fun x => { x with lineFault := !passed }).setJoining
        .memory).ask .memory .headerRead := by
  simp [Part.loopEnd, hj, hl]

section
variable {s : State} {passed : Bool} (hj : s.part.pres.joining = .selfTest) (hl : s.part.branch.loop = true)
include hj hl

theorem State.loopEnd_shows :
    let t := { s with part := s.part.loopEnd passed }.settle
    t.part.branch = { s.part.branch with loop := false } ∧
      t.part.pres = { s.part.pres with joining := .memory, lineFault := !passed } ∧ t.awaits .memory .headerRead ∧
      Unchanged [.branch, .pres] s t := by
  rw [Part.loopEnd_selfTest passed s.part hj hl]
  refine ⟨by simp [Part.setJoining_memory], by simp [Part.setJoining_memory], State.settle_awaits _ _ _ (Part.ask_has _ _ _),
    State.unchanged_of_part _ _ _ fun b hb => ?_⟩
  cases b <;> simp [Piece.same, Part.setJoining_memory] at hb ⊢
end

/-- The test frame, looped back bit by bit, comes out as itself. -/
theorem loopedBody_testFrame (p : Part) (c : Cls) (n : StationNo) :
    loopedBody (false :: headerBits c n)
      (frameBits (plainBody p.ownStation.val 0x01 ((List.range 16).map (BitVec.ofNat 8)))) = some p.testFrame := by
  have hlen : (headerBits c n).length = 6 := by simp [headerBits, msbBits]
  have hclosed (got : Bytes) : (Deframe.closedWith got).reached = .closed := rfl
  simp [loopedBody, Deframe.feeds_frameBits, hlen, hclosed, startBit, frontBits, Part.testFrame, kindPresence]

end Sys2Proof.Machine

open Sys2Proof.Machine

/-- Settles O23, by what the end of the loop test does with any result, and the test frame read back through the framing laws. -/
theorem selfTestEndsInMemory : Obligations.SelfTestEndsInMemory := by
  intro s hev hj hl
  refine ⟨fun front frame => ?_, fun c n => ?_, ?_⟩
  · obtain ⟨hb, hp, ha, hu⟩ := State.loopEnd_shows hj hl (passed := match loopedBody front frame with
      | some body => crcGood body && decide (body = s.part.testFrame)
      | none => false)
    refine ⟨_, exec_of_run (exec_loopTestResult front frame) hev, hb, hp.trans ?_, ha, hu⟩
    cases loopedBody front frame <;> rfl
  · obtain ⟨-, hp, -, -⟩ := State.loopEnd_shows hj hl (passed := true)
    refine ⟨_, exec_of_run (exec_loopTestResult _ _) hev, ?_⟩
    simp only [Part.loopResult, loopedBody_testFrame]
    simp [Part.testFrame] at hp ⊢
    simp [hp]
  · obtain ⟨hb, hp, ha, hu⟩ := State.loopEnd_shows hj hl (passed := false)
    exact ⟨_, exec_of_run exec_loopTestTimeout hev, hb, hp, ha, hu⟩
end

section
/-! PROOFS. The branch transmitter in contention, and the start bit of another station. -/

open Sys2Proof
namespace Sys2Proof.Machine

/-! ### what moves nothing but the branch interface -/

/-- A part that differs in the branch interface and the bursts asked alone. -/
theorem State.unchanged_of_branch {s : State} {q : Part} {b : Branch} {a : Asks}
    (h : q = { s.part with branch := b, asks := a }) : Unchanged [.branch] s { s with part := q }.settle := by
  subst h
  refine State.unchanged_of_part _ _ _ fun x hx => ?_
  cases x <;> simp [Piece.same] at hx ⊢

/-- Asking for the bytes of the frame on the branch line moves the sender and the bursts asked. -/
theorem Part.kickRead_branch_eq (p : Part) :
    ∃ (x : Sender) (a : Asks), p.kickRead .branch = { p with branch := { p.branch with sender := x }, asks := a } := by
  unfold Part.kickRead
  split
  · exact ⟨_, _, rfl⟩
  · split <;> exact ⟨_, _, rfl⟩

/-- Restaging the branch line moves the sender and the bursts asked. -/
theorem Part.restage_branch_eq (before : Option Buf) (p : Part) :
    ∃ (x : Sender) (a : Asks), p.restage .branch before = { p with branch := { p.branch with sender := x }, asks := a } := by
  unfold Part.restage
  split
  · exact p.kickRead_branch_eq
  · obtain ⟨x, a, h⟩ := ((p.modSender .branch Sender.fresh).opens .branch).kickRead_branch_eq
    exact ⟨x, a, h⟩

/-- A frame in hand that stays queued, and whose withdrawal was not refused, leaves the transmitter WAITING (R7, R10). -/
theorem Part.handBack_eq {c : Cls} {q : QFrame} {rest : List QFrame} (p : Part) (hq : p.fwd.queue c = q :: rest)
    (hw : q.withdrawn = false) :
    ∃ (x : Sender) (a : Asks),
      p.handBack c = { p with branch := { p.branch with tx := .waiting, turn := none, sender := x }, asks := a } := by
  have hb := p.fwd.bestClass_of_queue c q rest hq
  obtain ⟨x, a, h⟩ := p.txRest.restage_branch_eq p.staged
  refine ⟨x, a, ?_⟩
  have hkept : p.handBack c = p.txRest.restage .branch p.staged := by simp [Part.handBack, hq, hw]
  rw [hkept, h]
  simp [Part.txRest, hb, Part.modBranch]

/-! ### contention (R2, R4, R5) -/

theorem exec_releaseGap (s : State) : exec .releaseGap s = s.run Part.releaseGap := rfl
theorem exec_contentionWon (s : State) : exec .contentionWon s = s.run Part.wonContention := rfl
theorem exec_contentionLost (s : State) : exec .contentionLost s = s.run Part.lostContention := rfl
theorem exec_kindByteReceived (l : Line) (start header opening body : List Bool) (s : State) :
    exec (.kindByteReceived l start header opening body) s = s.run (Part.kindByte l (start ++ header ++ opening ++ body)) :=
  rfl

theorem Part.releaseGap_waiting {p : Part} {c : Cls} (ht : p.branch.tx = .waiting) (hc : p.fwd.bestClass = some c)
    (hr : p.branch.framer.rx = none) (hg : p.branch.turnGap = false) :
    p.releaseGap = (p.modBranch fun b => { b with gapCount := Config.releaseGap }).contend [Machine.startBit] c := by
  simp [Part.releaseGap, Part.lineBusy, Tx.onLine, ht, hr, hg, Part.offer, hc]

theorem Part.releaseGap_idle {p : Part} (ht : p.branch.tx = .idle) (hc : p.fwd.bestClass = none)
    (hr : p.branch.framer.rx = none) (hg : p.branch.turnGap = false) :
    p.releaseGap = p.modBranch fun b => { b with gapCount := Config.releaseGap } := by
  simp [Part.releaseGap, Part.lineBusy, Tx.onLine, ht, hr, hg, Part.offer, hc]

theorem Part.lostContention_eq {p : Part} {c : Cls} {q : QFrame} {rest : List QFrame} (ht : p.branch.tx = .contending c)
    (hq : p.fwd.queue c = q :: rest) (hw : q.withdrawn = false) :
    ∃ (x : Sender) (a : Asks),
      p.lostContention =
        { p with
          branch :=
            { p.branch with
              tx := .waiting, turn := none, sender := x, contentionLost := bump p.branch.contentionLost
              framer := { p.branch.framer with rx := some (RxFrame.begun false) } }
          asks := a } := by
  obtain ⟨x, a, h⟩ := ((p.modBranch fun b => { b with contentionLost := bump b.contentionLost }).readOn false).handBack_eq
    hq hw
  exact ⟨x, a, Eq.trans (by simp only [Part.lostContention, ht]) h⟩

/-! ### a settled receive FIFO -/

/-- A settled receive FIFO has nothing to go on to (R14). -/
theorem Part.drain_settled {p : Part} {l : Line} (h : p.fifoSettled l) : p.drain l = p := by
  have hempty : ∀ n, p.drainEmpty l n = p := by
    intro n
    cases n with
    | zero => rfl
    | succ n =>
      unfold Part.drainEmpty
      split
      · next b a rest hf => exact absurd rfl ((h _ _ hf).1 rfl rfl)
      · rfl
  unfold Part.drain
  rw [hempty]
  unfold Part.kickWrite
  split
  · rfl
  · next c rest hf => exact if_neg fun hc => by simp [(h c rest hf).2 hc.1] at hc

/-! ### another station's start bit (R3, R4) -/

/-- The receiver may begin a frame on the branch line: the own transmitter has none on it. -/
theorem Part.canBegin_branch {p : Part} (hr : p.branch.framer.rx = none) (hready : p.branch.rxReady = true)
    (ht : p.branch.tx.onLine = false) : p.canBegin .branch = true := by
  simp [Part.canBegin, Part.framer, hr, hready, ht]

theorem Part.kindByte_startAlone {p : Part} (hl : p.branch.loop = false) (hb : p.canBegin .branch = true) :
    p.kindByte .branch startAlone = p.foreignStart := by
  simp [Part.kindByte, Part.receives, hl, hb]

/-- A start bit read by a station that does not join the contention begins a frame, and the turn gap closes. -/
theorem Part.readFrame_startAlone {p : Part} (hb : p.canBegin .branch = true) (hs : p.fifoSettled .branch) :
    p.readFrame .branch startAlone =
      p.modBranch fun b =>
        { b with
          turnGap := false, gapCount := 0
          framer := { b.framer with rx := some { RxFrame.begun b.turnGap with front := [false] } } } := by
  refine Eq.trans ?_ (Part.drain_settled (l := .branch) (p := p.modBranch fun b =>
    { b with
      turnGap := false, gapCount := 0
      framer := { b.framer with rx := some { RxFrame.begun b.turnGap with front := [false] } } }) hs)
  simp only [Part.readFrame, hb, opensFrame, startAlone, List.head?_cons, decide_true, and_self, if_true]
  rfl

end Sys2Proof.Machine

open Sys2Proof.Machine

/-- Settles O6, one event of the contention at a time. -/
theorem contendingStation : Obligations.ContendingStation := by
  intro s c hev
  refine ⟨fun ht hc hr hg => ?_, fun ht hc hr hg => ?_, fun hl hr hready => ⟨fun ht hc hg => ?_, fun ht hs => ?_⟩,
    fun ht => ?_, fun q rest ht hq hw => ?_⟩
  · refine ⟨_, exec_of_run exec_releaseGap hev, ?_⟩
    rw [Part.releaseGap_waiting ht hc hr hg]
    exact ⟨by simp [Part.contend]; rfl, State.unchanged_of_branch rfl⟩
  · refine ⟨_, exec_of_run exec_releaseGap hev, ?_⟩
    rw [Part.releaseGap_idle ht hc hr hg]
    exact ⟨by simp [Config.releaseGap], State.unchanged_of_branch rfl⟩
  · refine ⟨_, exec_of_run (exec_kindByteReceived _ _ _ _ _) hev, ?_⟩
    have hf : s.part.kindByte .branch startAlone = s.part.contend [] c :=
      (Part.kindByte_startAlone hl (Part.canBegin_branch hr hready (by simp [ht, Tx.onLine]))).trans
        (by simp [Part.foreignStart, ht, hc, hg])
    simp only [List.append_nil, show [false] = startAlone from rfl, hf]
    exact ⟨by simp [Part.contend], State.unchanged_of_branch rfl⟩
  · have hb := Part.canBegin_branch hr hready (p := s.part) (by rcases ht with h | h | ⟨h, -⟩ <;> simp [h, Tx.onLine])
    have hf : s.part.foreignStart = s.part.readFrame .branch startAlone := by
      unfold Part.foreignStart
      rcases ht with h | h | ⟨h, h' | h'⟩
      · simp [h]
      · simp [h]
      · simp only [h, h', if_true]
        split <;> rfl
      · simp [h, h']
    refine ⟨_, exec_of_run (exec_kindByteReceived _ _ _ _ _) hev, ?_⟩
    simp only [List.append_nil, show [false] = startAlone from rfl, Part.kindByte_startAlone hl hb, hf,
      Part.readFrame_startAlone hb hs]
    exact ⟨by simp, State.unchanged_of_branch rfl⟩
  · refine ⟨_, exec_of_run exec_contentionWon hev, ?_⟩
    simp only [Part.wonContention, ht]
    exact ⟨by simp, State.unchanged_of_branch rfl⟩
  · obtain ⟨x, a, h⟩ := Part.lostContention_eq ht hq hw
    refine ⟨_, exec_of_run exec_contentionLost hev, ?_⟩
    rw [h]
    exact ⟨by simp, State.unchanged_of_branch rfl⟩
end

section
/-! PROOFS. Collisions and underruns. -/

open Sys2Proof
namespace Sys2Proof.Machine

/-! ### collisions and underruns of the branch line (R7, R8) -/

theorem exec_collision (s : State) : exec .collision s = s.run Part.collision := rfl
theorem exec_transmitUnderrun (s : State) : exec .transmitUnderrun s = s.run Part.underrun := rfl
theorem exec_linkUnderrun (k : Link) (s : State) : exec (.linkUnderrun k) s = s.run (Part.linkUnderrun k) := rfl

/-- A part that differs in the branch interface, the forwarding engine and the bursts asked alone. -/
theorem State.unchanged_of_branch_fwd {s : State} {q : Part} {b : Branch} {f : Forwarding} {a : Asks}
    (h : q = { s.part with branch := b, fwd := f, asks := a }) : Unchanged [.branch, .fwd] s { s with part := q }.settle := by
  subst h
  refine State.unchanged_of_part _ _ _ fun x hx => ?_
  cases x <;> simp [Piece.same] at hx ⊢

/-- A frame in hand leaves its queue, its buffer returns and the transmitter rests (R6, R7). -/
theorem Part.handLeaves_eq {c : Cls} {q : QFrame} {rest : List QFrame} (p : Part) (hq : p.fwd.queue c = q :: rest) :
    ∃ (x : Sender) (a : Asks),
      p.handLeaves c =
        { p with
          fwd := (p.fwd.setQueue c rest).giveBack q.buf
          branch :=
            { p.branch with
              tx := ((p.fwd.setQueue c rest).giveBack q.buf).restTx, turn := none, sender := x }
          asks := a } := by
  obtain ⟨x, a, h⟩ := (p.dequeue c).txRest.restage_branch_eq p.staged
  refine ⟨x, a, Eq.trans h ?_⟩
  simp [Part.dequeue, hq, Part.txRest, Part.modBranch, Part.modFwd, Part.giveBack, Forwarding.restTx]

theorem Part.raiseCollisions_fwd {c : Cls} {q : QFrame} {rest : List QFrame} (p : Part) (hq : p.fwd.queue c = q :: rest) :
    p.raiseCollisions c =
      p.modFwd fun f => f.setQueue c ({ q with collisions := q.collisions + 1 } :: rest) := by
  simp [Part.raiseCollisions, Part.modFwd, hq]

/-- A frame below the limit of collisions stays at the head of its queue, its count raised (R7). -/
theorem Part.collision_retries {p : Part} {c : Cls} {q : QFrame} {rest : List QFrame} (ht : p.branch.tx = .sending c)
    (hq : p.fwd.queue c = q :: rest) (hw : q.withdrawn = false) (h3 : q.collisions < 3) :
    ∃ (x : Sender) (a : Asks),
      p.collision =
        { p with
          fwd := p.fwd.setQueue c ({ q with collisions := q.collisions + 1 } :: rest)
          branch :=
            { p.branch with
              tx := .waiting, turn := none, sender := x, collisions := bump p.branch.collisions
              framer := { p.branch.framer with rx := some (RxFrame.begun false) } }
          asks := a } := by
  obtain ⟨x, a, h⟩ := ((((p.modBranch fun b => { b with collisions := bump b.collisions }).readOn false)).modFwd fun f =>
    f.setQueue c ({ q with collisions := q.collisions + 1 } :: rest)).handBack_eq (Forwarding.setQueue_queue _ _ _) hw
  refine ⟨x, a, Eq.trans ?_ h⟩
  simp only [Part.collision, ht, hq, Part.collided, hw, Bool.false_eq_true, if_false, Config.maxCollisions, h3, if_true]
  rw [Part.raiseCollisions_fwd (q := q) (rest := rest) _ (by exact hq), hw]

/-- A frame at the limit leaves its queue, is counted as dropped, and its owner, where it is mute, does nothing (R7). -/
theorem Part.collision_drops {p : Part} {c : Cls} {q : QFrame} {rest : List QFrame} (ht : p.branch.tx = .sending c)
    (hq : p.fwd.queue c = q :: rest) (hw : q.withdrawn = false) (hm : q.owner.mute = true) (h3 : ¬ q.collisions < 3) :
    ∃ (x : Sender) (a : Asks),
      p.collision =
        { p with
          fwd := (p.fwd.setQueue c rest).giveBack q.buf
          branch :=
            { p.branch with
              tx := ((p.fwd.setQueue c rest).giveBack q.buf).restTx, turn := none, sender := x
              collisions := bump p.branch.collisions, collisionDrops := bump p.branch.collisionDrops
              framer := { p.branch.framer with rx := some (RxFrame.begun false) } }
          asks := a } := by
  obtain ⟨x, a, h⟩ := ((((p.modBranch fun b => { b with collisions := bump b.collisions }).readOn false)).modBranch fun b =>
    { b with collisionDrops := bump b.collisionDrops }).handLeaves_eq hq
  refine ⟨x, a, Eq.trans ?_ h⟩
  simp [Part.collision, ht, hq, Part.collided, hw, Config.maxCollisions, h3, hm]

/-- An underrun keeps the frame in hand where it is (R8). -/
theorem Part.underrun_eq {p : Part} {c : Cls} {q : QFrame} {rest : List QFrame} (ht : p.branch.tx = .sending c)
    (hq : p.fwd.queue c = q :: rest) (hw : q.withdrawn = false) :
    ∃ (x : Sender) (a : Asks),
      p.underrun =
        { p with
          branch :=
            { p.branch with
              tx := .waiting, turn := none, sender := x
              framer :=
                { p.branch.framer with
                  rx := some (RxFrame.begun false)
                  ctr := { p.branch.framer.ctr with underruns := bump p.branch.framer.ctr.underruns } } }
          asks := a } := by
  obtain ⟨x, a, h⟩ := (((p.countLine .branch LineCounters.countUnderrun).readOn false)).handBack_eq hq hw
  exact ⟨x, a, Eq.trans (by simp only [Part.underrun, ht]) h⟩

/-! ### underruns of the links (R12, R64) -/

/-- Asking for the bytes of a frame leaves what is driven and what is staged. -/
theorem Part.kickRead_sender (l : Line) (p : Part) :
    ((p.kickRead l).sender l).shift = (p.sender l).shift ∧ ((p.kickRead l).sender l).staging = (p.sender l).staging ∧
      ((p.kickRead l).sender l).fetched = (p.sender l).fetched := by
  unfold Part.kickRead
  split
  · exact ⟨rfl, rfl, rfl⟩
  · split
    · cases l <;> exact ⟨rfl, rfl, rfl⟩
    · exact ⟨rfl, rfl, rfl⟩

/-- A frame sent again from its first byte: the abort and the opening flag are driven, with nothing staged (R12). -/
theorem Part.sendAgain_sender (l : Line) (p : Part) :
    ((p.sendAgain l).sender l).shift = some (openingShift (abortBits l)) ∧ ((p.sendAgain l).sender l).staging = [] ∧
      ((p.sendAgain l).sender l).fetched = 0 := by
  obtain ⟨hshift, hstaging, hfetched⟩ :=
    (p.modSender l fun s => { s.fresh with shift := some (openingShift (abortBits l)) }).kickRead_sender l
  refine ⟨hshift.trans ?_, hstaging.trans ?_, hfetched.trans ?_⟩ <;> simp [Sender.fresh]

theorem Part.kickRead_framer (l m : Line) (p : Part) : (p.kickRead l).framer m = p.framer m := by
  unfold Part.kickRead
  split
  · rfl
  · split <;> cases l <;> cases m <;> rfl

theorem Part.sendAgain_framer (l m : Line) (p : Part) : (p.sendAgain l).framer m = p.framer m := by
  simp [Part.sendAgain, Part.kickRead_framer]

/-- A frame of a link is sent again, but by a trunk framer whose line is not UP (R12, R64). -/
theorem Part.linkUnderrun_again {p : Part} {k : Link} (hk : (p.txBuf (Link.line k)).isSome = true)
    (hup : k ≠ .trunk ∨ p.trk.line = .up) :
    p.linkUnderrun k = (p.countLine (Link.line k) LineCounters.countUnderrun).sendAgain (Link.line k) := by
  have hnot : ¬ (k = .trunk ∧ p.trk.line ≠ .up) := fun ⟨h, hd⟩ => hup.elim (fun hn => hn h) hd
  simp only [Part.linkUnderrun, hk, if_true, if_neg hnot]

theorem Part.linkUnderrun_unbegun {p : Part} (hk : (p.txBuf .trunk).isSome = true) (hdown : p.trk.line ≠ .up) :
    p.linkUnderrun .trunk = (p.countLine .trunk LineCounters.countUnderrun).trunkUnbegun := by
  simp [Part.linkUnderrun, Link.line, hk, hdown]

/-- The abort of a link, and the opening flag behind it. -/
theorem openingShift_abort (k : Link) :
    openingShift (abortBits (Link.line k)) =
      ⟨List.replicate (if k = .trunk then 8 else 7) true ++ flagBits, .body, 0, 0xFFFF, 0⟩ := by
  cases k <;> rfl

end Sys2Proof.Machine

open Sys2Proof.Machine

/-- Settles O8: below the limit of collisions the frame is kept, from it on it is dropped. -/
theorem collisionRetriesThenDrops : Obligations.CollisionRetriesThenDrops := by
  intro s c q rest hev ht hq hw hm
  refine ⟨_, exec_of_run exec_collision hev, ?_⟩
  by_cases h3 : q.collisions < 3
  · obtain ⟨x, a, h⟩ := Part.collision_retries ht hq hw h3
    rw [h]
    exact ⟨State.unchanged_of_branch_fwd rfl, fun _ => ⟨by simp, by simp⟩, fun h => by omega⟩
  · obtain ⟨x, a, h⟩ := Part.collision_drops ht hq hw hm h3
    rw [h]
    exact ⟨State.unchanged_of_branch_fwd rfl, fun h => absurd h h3, fun _ => ⟨by simp, by simp⟩⟩

/-- Settles O9: the branch frame stays in hand, a link frame is sent again, and a trunk frame off a line that is not UP is begun no
more. -/
theorem underrunKeepsTheFrame : Obligations.UnderrunKeepsTheFrame := by
  refine ⟨fun s c q rest hev ht hq hw => ?_, fun s k hev hk => ?_⟩
  · obtain ⟨x, a, h⟩ := Part.underrun_eq ht hq hw
    refine ⟨_, exec_of_run exec_transmitUnderrun hev, ?_⟩
    rw [h]
    exact ⟨by simp, State.unchanged_of_branch rfl⟩
  · refine ⟨_, exec_of_run (exec_linkUnderrun k) hev, ?_⟩
    by_cases hup : k ≠ .trunk ∨ s.part.trk.line = .up
    · obtain ⟨hshift, hstaging, hfetched⟩ :=
        (s.part.countLine (Link.line k) LineCounters.countUnderrun).sendAgain_sender (Link.line k)
      rw [Part.linkUnderrun_again hk hup]
      refine ⟨?_, ?_, ?_, fun _ => ⟨?_, State.unchanged_of_part _ _ _ fun b hb => ?_⟩, fun h hd => ?_⟩
      · simp [Part.sendAgain_framer, Part.countLine, LineCounters.countUnderrun]
      · simpa using hstaging
      · simpa using hfetched
      · rw [State.settle_sender, ← openingShift_abort]; exact hshift
      · cases k <;> cases b <;> simp [Piece.same, Link.line] at hb ⊢
      · exact absurd hup (by simp [h, hd])
    · obtain ⟨rfl, hd⟩ : k = .trunk ∧ s.part.trk.line ≠ .up := by simpa using hup
      rw [Part.linkUnderrun_unbegun hk hd]
      refine ⟨?_, ?_, ?_, fun h => absurd h hup, fun _ _ => ⟨?_, State.unchanged_of_part _ _ _ fun b hb => ?_⟩⟩
      · simp [Part.trunkUnbegun, Link.line, Part.countLine, LineCounters.countUnderrun, Part.framer]
      · simp [Part.trunkUnbegun, Link.line, Sender.fresh]
      · simp [Part.trunkUnbegun, Link.line, Sender.fresh]
      · simp [Part.trunkUnbegun]
      · cases b <;> simp [Piece.same] at hb ⊢
end

section
/-! PROOFS. A frame read from its start up to its kind byte. -/

open Sys2Proof
namespace Sys2Proof.Machine

/-! ### the front of a frame (R1, R5) -/

/-- The header of a branch frame is read as the class and the station number it was built of. -/
theorem frontClass_header (c : Cls) (n : StationNo) : frontClass (startBit :: headerBits c n) = c := by
  revert n; cases c <;> decide

theorem frontStation_header (c : Cls) (n : StationNo) : frontStation (startBit :: headerBits c n) = n := by
  revert n; cases c <;> decide

theorem headerBits_length (c : Cls) (n : StationNo) : (headerBits c n).length = 6 := by simp [headerBits, msbBits]

/-- What stands before the opening flag of a frame of this line. -/
def frontFor (l : Line) (c : Cls) (n : StationNo) : List Bool := startOf l ++ headerOf l c n

theorem frontFor_length (l : Line) (c : Cls) (n : StationNo) : (frontFor l c n).length = frontOf l := by
  cases l <;> simp [frontFor, startOf, headerOf, frontOf, frontBits, headerBits_length]

theorem frontFor_opens (l : Line) (c : Cls) (n : StationNo) (bits : List Bool) : opensFrame l (frontFor l c n ++ bits) = true := by
  cases l <;> simp [frontFor, startOf, opensFrame]

/-- A link frame carries no header; its class and station read as 0. -/
theorem frontFor_class (l : Line) (c : Cls) (n : StationNo) :
    frontClass (frontFor l c n) = if l = .branch then c else .control := by
  cases l
  case branch => simpa [frontFor, startOf, headerOf] using frontClass_header c n
  all_goals rfl

theorem frontFor_station (l : Line) (c : Cls) (n : StationNo) :
    frontStation (frontFor l c n) = if l = .branch then n else 0 := by
  cases l
  case branch => simpa [frontFor, startOf, headerOf] using frontStation_header c n
  all_goals rfl

theorem rxUser_frontFor (l : Line) (c : Cls) (n : StationNo) (kind : Byte) :
    rxUser l (frontClass (frontFor l c n)) kind = rxUser l c kind := by
  rw [frontFor_class]; cases l <;> rfl

/-! ### a frame read from its start (R13 to R16) -/

/-- A frame begun falls in a turn gap on the branch line alone (R3). -/
def Part.startsInTurn (p : Part) (l : Line) : Bool := decide (l = .branch) && p.branch.turnGap

/-- The record of a frame of this line, begun with its first bits and read up to `d`, before any byte of it is looked at. -/
def Part.opened (p : Part) (l : Line) (front : List Bool) (d : Deframe) : RxFrame :=
  { RxFrame.begun (p.startsInTurn l) with front := front, frame := d }

/-- A frame read from its first bit: the start bit is taken, then the bytes the bits complete, then the FIFO goes on. -/
theorem Part.readFrame_begins {p : Part} {l : Line} {front rest : List Bool} (hb : p.canBegin l = true)
    (ho : opensFrame l (front ++ rest) = true) (hf : front.length = frontOf l) :
    p.readFrame l (front ++ rest) =
      ((((p.startBit l).countGap l (front ++ rest)).setRx l
        (p.opened l front (({} : Deframe).feeds (openingWithin l) rest))).bodyBytes l 0
          (({} : Deframe).feeds (openingWithin l) rest).got).drain l := by
  have hn : frontOf l - (RxFrame.begun (p.startsInTurn l)).front.length = front.length := hf.symm
  have hrx : ((p.beginRx l).framer l).rx = some (RxFrame.begun (p.startsInTurn l)) := by
    cases l <;> simp [Part.beginRx, Part.startsInTurn]
  have hset (r : RxFrame) : ((p.beginRx l).countGap l (front ++ rest)).setRx l r =
      ((p.startBit l).countGap l (front ++ rest)).setRx l r := by
    cases l <;> rfl
  rw [Part.readFrame, if_pos ⟨hb, ho⟩, Part.readBits, hrx]
  simp only [hn, List.take_left, List.drop_left, hset]
  rfl

/-- A byte that is stored joins the receive FIFO; the kind byte asks for a buffer (R14, R16, R17). -/
theorem Part.bodyByte_stored {p : Part} {l : Line} {i : Nat} {b : Byte} {r : RxFrame} (hr : (p.framer l).rx = some r)
    (hs : r.storing l = true)
    (hd : l = .branch → i = 0 → p.pres.joining.filterKeeps = true ∧ p.destPasses b = true)
    (hl : frameLong l (r.frame.got.take (i + 1)) = false) (hi : i < Config.bufferBytes)
    (hf : fifoBytes (p.framer l).fifo < Config.fifoSize) :
    p.bodyByte l i b =
      if i = kindAt l then (p.modFramer l fun f => { f with fifo := pushByte b f.fifo }).askRxBuffer l r
      else p.modFramer l fun f => { f with fifo := pushByte b f.fifo } := by
  have hfilter : ¬ (l = .branch ∧ i = 0 ∧ (p.pres.joining.filterKeeps && p.destPasses b) = false) :=
    fun ⟨h1, h2, h3⟩ => by simp [hd h1 h2] at h3
  have hlong : ¬ (frameLong l (r.frame.got.take (i + 1)) = true ∨ Config.bufferBytes ≤ i) := by simp [hl, hi]
  rw [Part.bodyByte, hr]
  simp only [hs, if_neg hfilter, if_neg hlong, if_neg (Nat.not_le.mpr hf), Bool.true_eq_false, if_false]

/-- Two bytes, or fewer, are not LONG. -/
theorem frameLong_short (l : Line) (body : Bytes) (h : body.length ≤ 2) : frameLong l body = false := by
  cases l
  case branch =>
    have h0 : body.length - crcLength = 0 := by simp [crcLength]; omega
    have hk : (parseBody []).kind = 0 := rfl
    have hp : (parseBody []).payload = [] := rfl
    simp [frameLong, h0, hk, hp, kindPresence]
  all_goals exact decide_eq_false (Nat.not_lt.mpr (h.trans (by decide)))

/-- The bytes of a frame from its first up to its kind byte, kept by the filter, join an empty FIFO, and the kind byte asks for a
buffer (R14, R16, R17). -/
theorem Part.bodyBytes_toKind {p : Part} {l : Line} {r : RxFrame} {dest kind : Byte} (hr : (p.framer l).rx = some r)
    (hs : r.storing l = true) (hgot : r.frame.got = if l = .branch then [dest, kind] else [kind])
    (hd : l = .branch → p.pres.joining.filterKeeps = true ∧ p.destPasses dest = true) (hf : (p.framer l).fifo = []) :
    p.bodyBytes l 0 r.frame.got =
      (p.modFramer l fun f => { f with fifo := [⟨none, 0, r.frame.got, false⟩] }).askRxBuffer l r := by
  by_cases hl : l = .branch
  · subst hl
    rw [if_pos rfl] at hgot
    have h0 := Part.bodyByte_stored (i := 0) (b := dest) hr hs (fun h _ => hd h)
      (frameLong_short _ _ (by simp [hgot])) (by decide) (by simp [hf, fifoBytes, Config.fifoSize])
    have h1 := Part.bodyByte_stored (p := p.bodyByte .branch 0 dest) (l := .branch) (i := 1) (b := kind) (r := r)
      (by simp [h0, kindAt, hr]) hs (by simp) (frameLong_short _ _ (by simp [hgot])) (by decide)
      (by simp [h0, kindAt, hf, pushByte, fifoBytes, Config.fifoSize])
    rw [hgot, Part.bodyBytes, Part.bodyBytes, Part.bodyBytes, h1, h0]
    simp [kindAt, Part.modFramer, Part.modBranch, show p.branch.framer.fifo = [] from hf, pushByte]
  · have hk : kindAt l = 0 := by cases l <;> first | rfl | exact absurd rfl hl
    rw [if_neg hl] at hgot
    have h0 := Part.bodyByte_stored (i := 0) (b := kind) hr hs (fun h => absurd h hl)
      (frameLong_short _ _ (by simp [hgot])) (by decide) (by simp [hf, fifoBytes, Config.fifoSize])
    rw [hgot, Part.bodyBytes, Part.bodyBytes, h0, if_pos hk.symm]
    cases l <;> simp_all [Part.modFramer, Part.framer, pushByte]

/-! ### the buffer of a frame (R17, R62) -/

theorem Part.askRxBuffer_bufferless {p : Part} {l : Line} {r : RxFrame} (h : bufferless l (r.kind l) = true) :
    p.askRxBuffer l r = p.setRx l { r with asked := true } := if_pos h

/-- The receive queue's member of a frame in this buffer (R62). -/
def RxFrame.item (r : RxFrame) (l : Line) (b : Buf) : RxItem := ⟨b, l, frontClass r.front, frontStation r.front, false⟩

theorem Part.askRxBuffer_granted {p : Part} {l : Line} {r : RxFrame} {b : Buf} {f : Forwarding}
    (h : bufferless l (r.kind l) = false) (ht : p.fwd.take (rxUser l (frontClass r.front) (r.kind l)) = (some b, f)) :
    p.askRxBuffer l r =
      (({ p with fwd := { f with filling := f.filling ++ [r.item l b] } } : Part).modFramer l fun x =>
        { x with fifo := openTo b x.fifo }).setRx l { r with asked := true, buf := some b } := by
  simp only [Part.askRxBuffer, h, Bool.false_eq_true, if_false, Part.takeBuffer, ht]
  rfl

theorem Part.askRxBuffer_refused {p : Part} {l : Line} {r : RxFrame} {f : Forwarding}
    (h : bufferless l (r.kind l) = false) (ht : p.fwd.take (rxUser l (frontClass r.front) (r.kind l)) = (none, f)) :
    p.askRxBuffer l r =
      (({ p with fwd := f } : Part).modFramer l fun x => { x with fifo := dropOpen x.fifo }).setRx l
        { r with asked := true } := by
  simp only [Part.askRxBuffer, h, Bool.false_eq_true, if_false, Part.takeBuffer, ht]

/-- A chunk of two bytes, or fewer, of a frame still arriving has no burst to ask (R14). -/
theorem Part.fifoSettled_short {p : Part} {l : Line} {b : Option Buf} {bs : Bytes}
    (hf : (p.framer l).fifo = [⟨b, 0, bs, false⟩]) (hl : bs.length ≤ 2) : p.fifoSettled l := by
  intro c rest h
  obtain ⟨rfl, -⟩ := List.cons.inj (hf.symm.trans h)
  refine ⟨(fun hw => by cases hw), fun hready => ?_⟩
  simp [Chunk.ready, Chunk.room, Config.burst, crcLength] at hready
  omega

theorem Part.fifoSettled_nil {p : Part} {l : Line} (hf : (p.framer l).fifo = []) : p.fifoSettled l := by
  intro c rest h
  cases hf.symm.trans h

/-! ### KIND_BYTE_RECEIVED -/

/-- Bits that begin a frame, beyond its start bit, are read. -/
theorem Part.kindByte_begins {p : Part} {l : Line} {bits : List Bool} (hrec : p.receives l = true) (hb : p.canBegin l = true)
    (hlen : l = .branch → 1 < bits.length) : p.kindByte l bits = p.readFrame l bits := by
  have halone : ¬ (l = .branch ∧ p.canBegin .branch = true ∧ bits = startAlone) := by
    rintro ⟨h, -, rfl⟩
    exact absurd (hlen h) (by decide)
  have hnone : p.reached l = none := by
    have := (Bool.and_eq_true_iff.mp hb).1
    simpa [Part.reached] using this
  rw [Part.kindByte, if_neg (by simp [hrec]), if_neg halone, Part.stillArriving, hnone]

/-- The part in which the kind byte of a frame asks for its buffer: the frame read up to `d`, its bytes in the FIFO. -/
def Part.atKind (p : Part) (l : Line) (front rest : List Bool) (d : Deframe) : Part :=
  ((p.startBit l).countGap l (front ++ rest)).modFramer l fun f =>
    { f with rx := some (p.opened l front d), fifo := [⟨none, 0, d.got, false⟩] }

/-- A frame read from its start up to its kind byte, kept by the filter, asks for its buffer, and then its FIFO goes on. -/
theorem Part.readFrame_toKind {p : Part} {l : Line} {front bits : List Bool} {dest kind : Byte}
    {d : Deframe} (hb : p.canBegin l = true) (hf : (p.framer l).fifo = [])
    (hdest : l = .branch → p.pres.joining.filterKeeps = true ∧ p.destPasses dest = true)
    (ho : opensFrame l (front ++ bits) = true) (hfront : front.length = frontOf l)
    (hd : d = ({} : Deframe).feeds (openingWithin l) bits) (hgot : d.got = if l = .branch then [dest, kind] else [kind]) :
    p.readFrame l (front ++ bits) = ((p.atKind l front bits d).askRxBuffer l (p.opened l front d)).drain l := by
  rw [Part.readFrame_begins hb ho hfront, ← hd]
  have h := Part.bodyBytes_toKind (p := ((p.startBit l).countGap l (front ++ bits)).setRx l (p.opened l front d)) (l := l)
    (r := p.opened l front d) (dest := dest) (kind := kind) (by simp [Part.setRx]) (by simp [Part.opened, RxFrame.storing, RxFrame.begun]) hgot
    (by rintro rfl; exact hdest rfl) (by cases l <;> exact hf)
  refine (congrArg (Part.drain l) h).trans ?_
  cases l <;> rfl

/-- The part in which the buffer of a frame is decided: the pool as it then stands, and what the framer of the line holds. -/
def Part.decided (p : Part) (l : Line) (front rest : List Bool) (d : Deframe) (f : Forwarding) (r : RxFrame)
    (fifo : List Chunk) : Part :=
  ({ p.atKind l front rest d with fwd := f } : Part).modFramer l fun x => { x with rx := some r, fifo := fifo }

section
variable {p : Part} {l : Line} {front rest : List Bool} {d : Deframe} {f : Forwarding} {r : RxFrame} {fifo : List Chunk}

@[simp] theorem Part.decided_fwd : (p.decided l front rest d f r fifo).fwd = f := by simp [Part.decided]

@[simp] theorem Part.decided_framer :
    ((p.decided l front rest d f r fifo).framer l).rx = some r ∧ ((p.decided l front rest d f r fifo).framer l).fifo = fifo := by
  simp [Part.decided]

theorem State.decided_shows {s : State} :
    let t := { s with part := s.part.decided l front rest d f r fifo }.settle
    t.part.fwd = f ∧ (t.part.framer l).rx = some r ∧ (t.part.framer l).fifo = fifo := by
  simp

theorem Part.decided_branch : (p.decided .branch front rest d f r fifo).branch.turnGap = false ∧
    (p.decided .branch front rest d f r fifo).branch.gapCount = gapAfter 0 (front ++ rest) := ⟨rfl, rfl⟩

theorem State.unchanged_decided {s : State} : Unchanged [.branch, .trunkFramer, .labelFramer, .guestFramer, .fwd] s
    { s with part := s.part.decided l front rest d f r fifo }.settle := by
  refine State.unchanged_of_part _ _ _ fun b hb => ?_
  cases l <;> cases b <;> simp [Piece.same, Part.decided, Part.atKind, Part.startBit, Part.countGap] at hb ⊢

/-- A frame up to its kind byte that takes no buffer. -/
theorem Part.atKind_bufferless (h : bufferless l ((p.opened l front d).kind l) = true) :
    (p.atKind l front rest d).askRxBuffer l (p.opened l front d) =
      p.decided l front rest d p.fwd { p.opened l front d with asked := true } [⟨none, 0, d.got, false⟩] := by
  rw [Part.askRxBuffer_bufferless h]
  cases l <;> rfl

/-- A frame up to its kind byte that is given the buffer `b`. -/
theorem Part.atKind_granted {b : Buf} (h : bufferless l ((p.opened l front d).kind l) = false)
    (ht : p.fwd.take (rxUser l (frontClass front) ((p.opened l front d).kind l)) = (some b, f)) :
    (p.atKind l front rest d).askRxBuffer l (p.opened l front d) =
      p.decided l front rest d { f with filling := f.filling ++ [(p.opened l front d).item l b] }
        { p.opened l front d with asked := true, buf := some b } [⟨some b, 0, d.got, false⟩] := by
  rw [Part.askRxBuffer_granted h (f := f) (b := b) (Eq.trans (by cases l <;> rfl) ht)]
  cases l <;> rfl

/-- A frame up to its kind byte that is refused its buffer. -/
theorem Part.atKind_refused (h : bufferless l ((p.opened l front d).kind l) = false)
    (ht : p.fwd.take (rxUser l (frontClass front) ((p.opened l front d).kind l)) = (none, f)) :
    (p.atKind l front rest d).askRxBuffer l (p.opened l front d) =
      p.decided l front rest d f { p.opened l front d with asked := true } [] := by
  rw [Part.askRxBuffer_refused h (f := f) (Eq.trans (by cases l <;> rfl) ht)]
  cases l <;> rfl

end

theorem Part.destPasses_iff (p : Part) (dest : Byte) :
    p.destPasses dest = true ↔ dest.toNat = p.ownStation.val ∨ dest.toNat = 255 := by
  rw [Part.destPasses, Bool.or_eq_true, decide_eq_true_iff, decide_eq_true_iff, allStations]

end Sys2Proof.Machine

open Sys2Proof.Machine

/-- Settles O11: the frame is read up to its kind byte, the pool then grants or refuses its buffer, and the FIFO has no burst to ask
yet. -/
theorem kindByteAsksABuffer : Obligations.KindByteAsksABuffer := by
  intro s l cls st dest kind opening body d hev hrec hb hf hdest hd hbody hgot
  have hbits : startOf l ++ headerOf l cls st ++ opening ++ body = frontFor l cls st ++ (opening ++ body) := by
    simp [frontFor]
  have hlen : l = .branch → 1 < (frontFor l cls st ++ (opening ++ body)).length := by
    rintro rfl
    rw [List.length_append, frontFor_length]; simp [frontOf, frontBits]; omega
  have hpasses : l = .branch → s.part.pres.joining.filterKeeps = true ∧ s.part.destPasses dest = true :=
    fun h => ⟨(hdest h).1, (s.part.destPasses_iff dest).mpr (hdest h).2⟩
  have hresult := (Part.kindByte_begins hrec hb hlen).trans
    (Part.readFrame_toKind hb hf hpasses (frontFor_opens ..) (frontFor_length ..) hd hgot)
  have hshort : d.got.length ≤ 2 := by rw [hgot]; split <;> simp
  have hkind : (s.part.opened l (frontFor l cls st) d).kind l = kind := by
    cases l <;> simp [Part.opened, RxFrame.kind, hgot, byteAt, kindAt]
  refine ⟨_, exec_of_run (exec_kindByteReceived _ _ _ _ _) hev, ?_⟩
  rw [hbits, hresult]
  by_cases hless : l = .branch ∧ kind.toNat = kindPresence
  · rw [Part.atKind_bufferless (by rw [hkind]; simp [bufferless, hless]),
      Part.drain_settled (Part.fifoSettled_short Part.decided_framer.2 hshort)]
    refine ⟨State.unchanged_decided, ?_, fun _ => State.decided_shows, fun h => absurd hless h⟩
    rintro rfl
    simpa using Part.decided_branch
  · have hneeds : bufferless l ((s.part.opened l (frontFor l cls st) d).kind l) = false := by
      rw [hkind]; simpa [bufferless] using hless
    have huser := rxUser_frontFor l cls st kind
    rcases htake : s.part.fwd.take (rxUser l cls kind) with ⟨_ | b, f⟩
    · rw [Part.atKind_refused hneeds (by rw [hkind, huser]; exact htake),
        Part.drain_settled (Part.fifoSettled_nil Part.decided_framer.2)]
      refine ⟨State.unchanged_decided, ?_, fun h => absurd h hless, fun _ => ⟨fun _ _ h => by simp at h, fun g h => ?_⟩⟩
      · rintro rfl
        simpa using Part.decided_branch
      · obtain ⟨-, rfl⟩ := Prod.mk.inj h
        exact State.decided_shows
    · rw [Part.atKind_granted hneeds (by rw [hkind, huser]; exact htake),
        Part.drain_settled (Part.fifoSettled_short Part.decided_framer.2 hshort)]
      refine ⟨State.unchanged_decided, ?_, fun h => absurd h hless, fun _ => ⟨fun b' g h => ?_, fun _ h => by simp at h⟩⟩
      · rintro rfl
        simpa using Part.decided_branch
      · obtain ⟨hb, rfl⟩ := Prod.mk.inj h
        obtain rfl := Option.some.inj hb
        obtain ⟨hfwd, hrx, hfifo⟩ := State.decided_shows
        refine ⟨hfwd.trans ?_, hrx, hfifo⟩
        simp [RxFrame.item, Part.opened, frontFor_class, frontFor_station]
end

section
/-! PROOFS. A call lost in its turn while no buffer is free. -/

open Sys2Proof
namespace Sys2Proof.Machine

/-! ### a call lost while its owner fetches on, with no free buffer (R28, R33, R85)

A call that ends NO ANSWER hands its owner a completion record, and the pricing unit takes it within the step and places its
next fetch. Where no buffer is free that call ends NO ANSWER at once (R20; assumption 13), so NO ANSWER rises by more than
one in one step. The states below stand for that case in each way a turn can be lost. -/

/-- The PRICE FETCH the pricing unit has open at station 5, for generation 7. -/
def starvedCall : OpenCall :=
  { owner := .pricing, peer := 5, tag := 9, request := .fetch 7 0 1, state := .connected, stage := 0, received := 0
    expect := none, recallTag := 0, recallTimer := false, enough := false, endEarly := false }

/-- Its connection, in AWAIT ANSWER. -/
def starvedConn : Conn := ⟨.caller, 5, 9, .fetch 7 0 1, .awaitAnswer, 0, 0, 0, 0, 0, false⟩

/-- Station 5 is PRESENT and shows generation 7 as active, so it is a source of it. -/
def starvedSource : Peer :=
  { state := .present, silence := true
    last := some
      { station := 5, zone := 0, joining := .ready, flags := 0, activeGen := 7, stagingGen := 0, stagingState := .empty
        night := .none, nightDay := 0, firstUnreleased := 1, nextSeq := 1, day := 0, minute := 0, second := 0 } }

/-- A READY station whose staging has GAPS in generation 7, with that call open, no free buffer, and this frame in reception on
the branch line; with none in reception the turn gap is open. -/
def starved (rx : Option RxFrame) : State :=
  { pending := [], supply := { watch := .running }, arb := {}
    part :=
      { branch := { tx := .idle, rxReady := true, turnGap := rx.isNone, framer := { rx := rx } }
        pres := { joining := .ready, peers := (Vector.replicate 16 {}).set 5 starvedSource }
        price := { staging := { state := .gaps, generation := 7, n := some 1, fetches := [⟨9, 7, 0, 1, 5⟩] } }
        call := { opens := [starvedCall], conn := some starvedConn }
        fwd := { free := [] } } }

/-- A branch frame begun in the open turn gap, with these bytes of its body read, its kind byte come, and no buffer. -/
def starvedFrame (got : Bytes) : RxFrame :=
  { front := false :: headerBits .till 5, frame := { reached := .body, ones := 0, got := got }, passed := true
    inTurn := true, asked := true, buf := none, overrun := false }

/-- Calls counted NO ANSWER in the state a command answers. -/
def noAnswers : Host.Outcome State Fault Refusal → Nat
  | .next t => t.part.call.ctr.noAnswer
  | .fault _ | .refused _ => 0

/-- A step of a starved station that counts NO ANSWER three times gives no turn-lost notice as `State.turnLostTo` has it. -/
theorem not_turnLostTo_starved {rx : Option RxFrame} {x : Instr} {t : State} (hx : exec x (starved rx) = .next t)
    (h3 : noAnswers (exec x (starved rx)) = 3) : ¬ (starved rx).turnLostTo starvedConn t := by
  rintro ⟨-, -, -, -, hlost⟩
  have h1 : t.part.call.ctr.noAnswer = 1 := (hlost starvedCall rfl rfl rfl).2
  rw [hx] at h3
  exact absurd (h1.symm.trans h3) (by decide)

/-- The starved frame stands in reception, and these bits bring it to `d` without a further byte. -/
theorem starved_reads {got : Bytes} {bits : List Bool} {d : Deframe} (h : 1 < got.length)
    (hd : d = (starvedFrame got).frame.feeds (openingWithin .branch) bits)
    (hroom : d.got.length - got.length ≤ Config.fifoSize) :
    (starved (some (starvedFrame got))).part.reads .branch (starvedFrame got) bits d :=
  ⟨rfl, by simp [starvedFrame, headerBits, msbBits, frontOf, frontBits], hd, Or.inl ⟨rfl, h⟩,
    by simpa [starved, starvedFrame, Part.framer, fifoBytes] using hroom, fun c rest hf => by cases hf⟩

end Sys2Proof.Machine

open Sys2Proof.Machine

/-- Refutes O10: at TURN_EXPIRY the call ends NO ANSWER, and the fetches its owner then places end NO ANSWER too. -/
theorem not_turnGapAndReceiverReady : ¬ Obligations.TurnGapAndReceiverReady := by
  intro h
  obtain ⟨-, hexpiry, -⟩ := h (starved none) rfl
  obtain ⟨t, ht, -, hlost, -, -⟩ := hexpiry starvedConn rfl rfl
  exact not_turnLostTo_starved ht (by decide +kernel) hlost

/-- Refutes O12: a frame with a bad CRC, begun in the open turn gap, loses the turn of a call whose owner fetches on. -/
theorem not_badFrameDiscardedOnce : ¬ Obligations.BadFrameDiscardedOnce := by
  intro h
  obtain ⟨t, ht, hcause⟩ := h (starved (some (starvedFrame [2, 8, 0, 0, 0]))) .branch (starvedFrame [2, 8, 0, 0, 0])
    [] [] [] [] flagBits (Deframe.closedWith [2, 8, 0, 0, 0]) rfl rfl
    (starved_reads (by decide) (by decide +kernel) (by decide +kernel)) rfl
  have hcrc : crcGood [2, 8, 0, 0, 0] = false := by decide +kernel
  have hlong : frameLong .branch [2, 8, 0, 0, 0] = false := by decide +kernel
  obtain ⟨-, -, -, -, hturn⟩ := hcause (fun c => { c with crc := bump c.crc }) (by
    simp only [starvedFrame, Deframe.closedWith_body, Deframe.closedWith_odd, hlong, hcrc]
    simp)
  exact not_turnLostTo_starved ht (by decide +kernel) (hturn starvedConn rfl rfl).1

/-- Refutes O13: a good frame lost for want of a buffer, begun in the open turn gap, loses the turn of a call whose owner fetches
on. -/
theorem not_goodFrameKept : ¬ Obligations.GoodFrameKept := by
  rintro ⟨h, -, -⟩
  obtain ⟨t, ht, -, -, -, hnobuffer, -⟩ := h (starved (some (starvedFrame (withCrc [2, 8, 0])))) .branch
    (starvedFrame (withCrc [2, 8, 0])) [] [] [] [] flagBits (Deframe.closedWith (withCrc [2, 8, 0])) rfl rfl
    (starved_reads (by decide) (by decide +kernel) (by decide +kernel)) rfl rfl rfl rfl (by simp) (by decide +kernel)
    (by decide +kernel) (by simp)
  obtain ⟨-, -, -, hturn⟩ := hnobuffer (by decide +kernel) rfl
  exact not_turnLostTo_starved ht (by decide +kernel) (hturn starvedConn rfl rfl).1

/-- Refutes O14: a frame aborted, begun in the open turn gap, loses the turn of a call whose owner fetches on. -/
theorem not_frameSpoiled : ¬ Obligations.FrameSpoiled := by
  intro h
  obtain ⟨-, habort⟩ := h (starved (some (starvedFrame [2, 8, 0]))) .branch (starvedFrame [2, 8, 0]) rfl
  obtain ⟨t, ht, -, -, -, -, -, hturn⟩ := habort (List.replicate 7 true)
    ⟨.aborted, 7, true, List.replicate 6 true, [2, 8, 0]⟩ rfl (starved_reads (by decide) (by decide +kernel) (by decide +kernel)) rfl
  exact not_turnLostTo_starved ht (by decide +kernel) (hturn starvedConn rfl rfl rfl).1
end

section
/-! PROOFS. Frames sent: what leaves the line, and what the sent notices do. -/

open Sys2Proof
namespace Sys2Proof.Machine

/-! ### the line after a frame sent (R6, R9) -/

theorem exec_frameSent (s : State) : exec .frameSent s = s.run Part.frameSent := rfl

/-- One own frame has been sent and the buffer pool and the queues are now `f`; no notice has been taken yet. -/
def Part.lineSent (f : Forwarding) (x : Sender) (a : Asks) (p : Part) : Part :=
  { p with fwd := f, branch := p.branch.sentOne f.restTx x, asks := a }

/-- The head of a class queue leaves it; its owner's sent notice follows (R6). -/
theorem Part.frameSent_head {p : Part} {c : Cls} {q : QFrame} {rest : List QFrame} (ht : p.branch.tx = .sending c)
    (hq : p.fwd.queue c = q :: rest) :
    ∃ (x : Sender) (a : Asks),
      p.frameSent = (p.lineSent ((p.fwd.setQueue c rest).giveBack q.buf) x a).sentNotice q.owner := by
  obtain ⟨x, a, h⟩ := (p.countLine .branch LineCounters.countSent).handLeaves_eq hq
  refine ⟨x, a, ?_⟩
  simp only [Part.frameSent, ht, hq, h]
  rfl

/-- The turn frame in hand ends; its sent notice follows (R9). -/
theorem Part.frameSent_turn {p : Part} {t : TurnFrame} (ht : p.branch.tx = .sendingTurn) (hx : p.branch.turn = some t) :
    ∃ (x : Sender) (a : Asks), p.frameSent = (p.lineSent (p.fwd.giveBack t.buf) x a).turnSent t.what := by
  obtain ⟨x, a, h⟩ :=
    ((p.countLine .branch LineCounters.countSent).giveBack t.buf).txRest.restage_branch_eq
      (p.countLine .branch LineCounters.countSent).staged
  refine ⟨x, a, ?_⟩
  simp only [Part.frameSent, ht, hx, Part.turnLeaves, h]
  rfl

/-- The head has left its queue, whatever its owner then made of the call lists. -/
theorem State.headSent_lineSent (s : State) (c : Cls) (q : QFrame) (rest : List QFrame) (x : Sender) (a : Asks) (k : Calls) :
    s.headSent c q rest
      { s with part := { s.part.lineSent ((s.part.fwd.setQueue c rest).giveBack q.buf) x a with call := k } }.settle :=
  ⟨by simp [Part.lineSent], by simp [Part.lineSent, Branch.sentOne]⟩

/-! ### sent notices of CALL and RECALL (R21, R30) -/

theorem Part.openCall_single {p : Part} {e : OpenCall} (h : p.call.opens = [e]) : p.openCall e.tag = some e := by
  simp [Part.openCall, h]

theorem Part.deferredEntry_single {p : Part} {d : Deferred} (h : p.call.deferred = [d]) :
    p.deferredEntry d.recallTag = some d := by
  simp [Part.deferredEntry, h]

theorem Part.callSent_single {p : Part} {e : OpenCall} (h : p.call.opens = [e]) (hc : p.call.conn = none) :
    p.callSent e.tag =
      { p with
        call :=
          { p.call with
            opens := [{ e with state := .connected }]
            conn := some ⟨.caller, e.peer, e.tag, e.request, .awaitAnswer, 0, 0, 0, 0, 0, false⟩ } } := by
  simp [Part.callSent, Part.openCall_single h, hc, Part.setOpen, Part.setConn, Part.modCall, h]

theorem Part.recallSent_single {p : Part} {d : Deferred} (h : p.call.deferred = [d]) :
    p.recallSent d.recallTag =
      { p with
        call :=
          { p.call with
            deferred := [{ d with state := .recalling }]
            conn := some ⟨.callee, d.caller, d.callTag, d.request, .awaitRecallAnswer, 0, 0, 0, 0, 0, false⟩ } } := by
  simp [Part.recallSent, Part.deferredEntry_single h, Part.setDeferred, Part.setConn, Part.modCall, h]

/-- A part that differs in the branch interface, the forwarding engine, the call lists and the bursts asked alone. -/
theorem State.unchanged_of_line_call {s : State} {q : Part} {b : Branch} {f : Forwarding} {k : Calls} {a : Asks}
    (h : q = { s.part with branch := b, fwd := f, call := k, asks := a }) :
    Unchanged [.branch, .fwd, .call] s { s with part := q }.settle := by
  subst h
  refine State.unchanged_of_part _ _ _ fun x hx => ?_
  cases x <;> simp [Piece.same] at hx ⊢

/-! ### the sent notice of a claim (R171) -/

/-- Two pools with the same class queues. -/
def Forwarding.sameQueues (f g : Forwarding) : Prop := ∀ c, f.queue c = g.queue c

theorem Forwarding.sameQueues.restTx {f g : Forwarding} (h : f.sameQueues g) : f.restTx = g.restTx := by
  have hb : f.bestClass = g.bestClass := by simp [Forwarding.bestClass, h _]
  simp [Forwarding.restTx, hb]

@[simp] theorem Forwarding.queue_giveBack (f : Forwarding) (b : Buf) (c : Cls) : (f.giveBack b).queue c = f.queue c := by
  cases c <;> rfl

theorem Forwarding.take_sameQueues (f : Forwarding) (u : User) : (f.take u).2.sameQueues f := by
  intro c
  unfold Forwarding.take
  split <;> cases c <;> rfl

theorem Part.build_sameQueues (w : BurstUser) (u : User) (bs : Bytes) (p : Part) :
    (p.build w u bs).2.fwd.sameQueues p.fwd := by
  have hbuild : (p.build w u bs).2.fwd = (p.fwd.take u).2 := by
    unfold Part.build Part.takeBuffer
    dsimp only
    split
    · next q h => obtain ⟨-, rfl⟩ := Prod.ext_iff.mp h; rfl
    · next b q h => obtain ⟨-, rfl⟩ := Prod.ext_iff.mp h; simp [Part.fill]
  rw [hbuild]
  exact p.fwd.take_sameQueues u

theorem Part.kickTrunk_sameQueues (p : Part) : p.kickTrunk.fwd.sameQueues p.fwd := by
  intro c
  unfold Part.kickTrunk
  split
  · dsimp only
    split <;> cases c <;> simp [Part.modFwd, Forwarding.queue]
  · rfl

theorem Part.joinExchange_sameQueues (what : TrunkFrame) (b : Buf) (p : Part) :
    (p.joinExchange what b).fwd.sameQueues p.fwd := fun c =>
  ((p.modFwd fun f => { f with exchange := f.exchange ++ [⟨b, what, false⟩] }).kickTrunk_sameQueues c).trans
    (by cases c <;> rfl)

/-- A message built, or owed: the class queues stay, and of the trunk controller only what it owes moves (R166). -/
theorem Part.message_sameQueues (what : TrunkFrame) (p : Part) : (p.message what).fwd.sameQueues p.fwd := by
  have hb := p.build_sameQueues .trunkBlock .other (p.messageBytes what)
  unfold Part.message
  split
  · next b q h =>
    rw [h] at hb
    exact fun c => (q.joinExchange_sameQueues what b c).trans (hb c)
  · next q h =>
    rw [h] at hb
    exact hb

theorem Part.message_trk (what : TrunkFrame) (p : Part) : ∃ w, (p.message what).trk = { p.trk with owed := w } := by
  have hb : (p.build .trunkBlock .other (p.messageBytes what)).2.trk = p.trk := by simp
  unfold Part.message
  split
  · next b q h =>
    rw [h] at hb
    exact ⟨p.trk.owed, by simpa using hb⟩
  · next q h =>
    rw [h] at hb
    exact ⟨p.trk.owed ++ [what], by simp [← hb, Part.modTrk]⟩

/-- The trunk controller of a station whose claim was sent, in phase LOGON of night `d` (R171, R173). -/
def Trunk.holding (n : StationNo) (d : Nat) (t : Trunk) : Trunk :=
  { t with
    night := .holding, phase := .logon, helloSent := false, fileFollows := false, owed := [], expiries := 0
    holder := some (n, d), logonTimer := true, sessionTimer := true
    ctr := { t.ctr with claimsSent := bump t.ctr.claimsSent } }

/-- With no lower holder known for its night, a station that enters HOLDING stays there and says HELLO (R171, R173). -/
theorem Part.enterHolding_stays {p : Part} (hlow : ∀ n, p.trk.holderFor p.trk.nightDay = some n → p.ownStation.val ≤ n.val) :
    p.enterHolding =
      (p.modTrk fun t =>
        { t with
          night := .holding, phase := .logon, helloSent := false, fileFollows := false, owed := [], expiries := 0
          holder := some (p.ownStation, t.nightDay), logonTimer := true, sessionTimer := true }).message .hello := by
  cases h : p.trk.holderFor p.trk.nightDay with
  | none => simp [Part.enterHolding, h, Part.modTrk]
  | some n =>
    have hn : ¬ n.val < p.ownStation.val := Nat.not_lt.mpr (hlow n h)
    simp only [Part.enterHolding, h, hn, decide_false, Bool.false_eq_true, if_false]
    rfl

/-- The sent notice of a claim for the night in force, with no lower holder known: the station holds, and says HELLO (R171). -/
theorem Part.claimSent_holds {p : Part} {d : Nat} (hn : p.trk.night = .claiming) (hd : p.trk.nightDay = d)
    (hnow : p.nightNow = some d) (hlow : ∀ n, p.trk.holderFor d = some n → p.ownStation.val ≤ n.val) :
    p.claimSent d = (p.modTrk (Trunk.holding p.ownStation d)).message .hello := by
  subst hd
  unfold Part.claimSent
  rw [if_pos ⟨hn, rfl, hnow⟩]
  exact Part.enterHolding_stays hlow

section
variable {p : Part} {d : Nat} (hn : p.trk.night = .claiming) (hd : p.trk.nightDay = d) (hnow : p.nightNow = some d)
  (hlow : ∀ n, p.trk.holderFor d = some n → p.ownStation.val ≤ n.val)
include hn hd hnow hlow

theorem Part.claimSent_sameQueues : (p.claimSent d).fwd.sameQueues p.fwd := by
  rw [Part.claimSent_holds hn hd hnow hlow]
  exact (p.modTrk (Trunk.holding p.ownStation d)).message_sameQueues .hello

theorem Part.claimSent_trk : ∃ w, (p.claimSent d).trk = { p.trk.holding p.ownStation d with owed := w } := by
  rw [Part.claimSent_holds hn hd hnow hlow]
  exact (p.modTrk (Trunk.holding p.ownStation d)).message_trk .hello

theorem Part.claimSent_call : (p.claimSent d).call = p.call := by
  rw [Part.claimSent_holds hn hd hnow hlow]
  simp
end

/-- A sent claim: the queues stay as the line left them, the station holds the night in phase LOGON, its two timers run, and
nothing but the line, the trunk controller, its link, the pool and memory has moved (R171). -/
theorem State.holds_of_claimSent {s : State} {d : Nat} (f : Forwarding) (x : Sender) (a : Asks)
    (hn : s.part.trk.night = .claiming) (hd : s.part.trk.nightDay = d) (hnow : s.part.nightNow = some d)
    (hlow : ∀ n, s.part.trk.holderFor d = some n → s.part.ownStation.val ≤ n.val) (t : State)
    (ht : t = { s with part := (s.part.lineSent f x a).claimSent d }.settle) :
    t.part.fwd.sameQueues f ∧ t.part.branch = s.part.branch.sentOne t.part.fwd.restTx t.part.branch.sender ∧
      (∃ w, t.part.trk = { s.part.trk.holding s.part.ownStation d with owed := w }) ∧
      Unchanged [.branch, .links, .fwd, .trk, .memory] s t := by
  subst ht
  have hqueues := Part.claimSent_sameQueues (p := s.part.lineSent f x a) hn hd hnow hlow
  have htrk := Part.claimSent_trk (p := s.part.lineSent f x a) hn hd hnow hlow
  have hcall := Part.claimSent_call (p := s.part.lineSent f x a) hn hd hnow hlow
  refine ⟨by rw [State.settle_fwd]; exact hqueues, ?_, by rw [State.settle_trk]; exact htrk,
    State.unchanged_of_part _ _ _ fun b hb => ?_⟩
  · simp only [State.settle_branch, State.settle_fwd, Part.claimSent_frame, hqueues.restTx]
    simp [Part.lineSent, Branch.sentOne]
  · cases b <;> simp [Piece.same, hcall] at hb ⊢ <;> simp [Part.lineSent]

end Sys2Proof.Machine

end

section
/-! PROOFS. Turn frames sent: the call lists after them, and the first DATA or END after an ANSWER ACCEPT. -/

open Sys2Proof
namespace Sys2Proof.Machine

/-! ### sent notices that move the call lists alone (R22, R25, R29) -/

/-- The call lists after the sent notice of a turn frame other than an ANSWER ACCEPT. -/
def Calls.turnSent (k : Calls) : TurnWhat → Calls
  | .answerBusy => { k with ctr := { k.ctr with gaveBusy := bump k.ctr.gaveBusy } }
  | .answerRefuse => { k with ctr := { k.ctr with gaveRefuse := bump k.ctr.gaveRefuse } }
  | .answerDefer tag =>
    { k with
      deferred := k.deferred.map fun d =>
        if d.recallTag = tag ∧ d.state = .reserved then { d with state := .waiting, lifetime := true } else d
      ctr := { k.ctr with gaveDefer := bump k.ctr.gaveDefer } }
  | .receipt true =>
    match k.conn with
    | some c => { k with opens := k.opens.map fun e => if e.tag = c.tag then { e with enough := true } else e }
    | none => k
  | .answerAccept | .recallAccept | .recallStale | .receipt false | .data | .endFrame => k

theorem Part.turnSent_eq {what : TurnWhat} (p : Part) (h : what ≠ .answerAccept) :
    p.turnSent what = { p with call := p.call.turnSent what } := by
  cases what with
  | answerAccept => exact absurd rfl h
  | receipt enough =>
    cases enough with
    | false => rfl
    | true => cases hc : p.call.conn <;> simp [Part.turnSent, Calls.turnSent, hc, Part.modCall]
  | _ => rfl

/-! ### the records of a DATA (R34, R35) -/

theorem Part.readAnswer_loads (u : BurstUser) (n : Nat) (p : Part) (s : Nat) : (p.loads u n).readAnswer s = p.readAnswer s := by
  unfold Part.loads
  split <;> rfl

theorem Part.readJournal_record {p : Part} {s : Nat} {bs : Bytes} (u : BurstUser) (h : p.readAnswer s = .record bs) :
    p.readJournal u s = (.record bs, p.loads u 2) := by
  simp [Part.readJournal, h, ReadAnswer.bursts]

/-- A read moves the journal unit's damaged count alone, and only at a DAMAGED answer (R126). -/
theorem Part.readJournal_jrn (u : BurstUser) (s : Nat) (p : Part) :
    (p.readJournal u s).2.jrn =
      if p.readAnswer s = .damaged then
        { p.jrn with ctr := { p.jrn.ctr with damagedReads := bump p.jrn.ctr.damagedReads } }
      else p.jrn := by
  cases h : p.readAnswer s <;> simp [Part.readJournal, h]

theorem Part.readJournal_fst (u : BurstUser) (s : Nat) (p : Part) : (p.readJournal u s).1 = p.readAnswer s := by
  cases h : p.readAnswer s <;> simp [Part.readJournal, h]

/-- The committed records from `s` on, up to the first answer that is none. -/
theorem Part.pullRecords_eq {n s : Nat} {recs : List Bytes} (p : Part) (hlen : recs.length ≤ n)
    (hrecs : ∀ i, ∀ h : i < recs.length, p.readAnswer (s + i) = .record recs[i])
    (hstop : recs.length = n ∨ ∀ bs, p.readAnswer (s + recs.length) ≠ .record bs) :
    (p.pullRecords n s).1 = recs ∧
      (p.pullRecords n s).2.jrn =
        if recs.length < n ∧ p.readAnswer (s + recs.length) = .damaged then
          { p.jrn with ctr := { p.jrn.ctr with damagedReads := bump p.jrn.ctr.damagedReads } }
        else p.jrn := by
  induction n generalizing p s recs with
  | zero =>
    obtain rfl : recs = [] := List.eq_nil_of_length_eq_zero (by omega)
    exact ⟨rfl, rfl⟩
  | succ n ih =>
    cases recs with
    | nil =>
      have hnone : ∀ bs, p.readAnswer s ≠ .record bs := by simpa using hstop
      have hj := p.readJournal_jrn .pull s
      have hf := p.readJournal_fst .pull s
      unfold Part.pullRecords
      split
      · next bs q h => rw [h] at hf; exact absurd hf.symm (hnone bs)
      · next a q _ h => rw [h] at hj; exact ⟨rfl, by simpa using hj⟩
    | cons r recs =>
      have hr : p.readAnswer s = .record r := hrecs 0 (by simp)
      have hshift : ∀ i, (p.loads .pull 2).readAnswer (s + 1 + i) = p.readAnswer (s + (i + 1)) := fun i => by
        rw [Part.readAnswer_loads, Nat.add_assoc, Nat.add_comm 1]
      obtain ⟨hfst, hjrn⟩ := ih (recs := recs) (s := s + 1) (p.loads .pull 2) (by simpa using hlen)
        (fun i hi => by rw [hshift]; exact hrecs (i + 1) (Nat.succ_lt_succ hi))
        (by rw [hshift]; simpa using hstop)
      rw [hshift] at hjrn
      simp only [Part.pullRecords, Part.readJournal_record .pull hr, hfst, List.length_cons, Nat.add_lt_add_iff_right]
      exact ⟨trivial, by simpa using hjrn⟩

theorem Part.readJournal_next (u : BurstUser) (s : Nat) (p : Part) : (p.readJournal u s).2.jrn.next = p.jrn.next := by
  rw [Part.readJournal_jrn]
  split <;> rfl

theorem Part.pullRecords_next (n s : Nat) (p : Part) : (p.pullRecords n s).2.jrn.next = p.jrn.next := by
  induction n generalizing p s with
  | zero => rfl
  | succ n ih =>
    have hnext := p.readJournal_next .pull s
    unfold Part.pullRecords
    split
    · next bs q h => rw [h] at hnext; exact (ih _ _).trans hnext
    · next a q _ h => rw [h] at hnext; exact hnext

/-- What a frame carries beside its records is what it was before they were read. -/
theorem Part.serveTail_serveRecords (req : Request) (pos most : Nat) (p : Part) :
    (p.serveRecords req pos most).2.serveTail req = p.serveTail req := by
  cases req with
  | pull f m => exact p.pullRecords_next _ _
  | fetch g f m =>
    simp [Part.serveTail, Part.holds, Part.entriesOf]

/-! ### the lengths of payloads -/

theorem be_length (w n : Nat) : (be w n).length = w := by
  induction w generalizing n with
  | zero => rfl
  | succ w ih => simp [be, ih]

theorem flatten_length {l : List Bytes} {k : Nat} (h : ∀ x ∈ l, x.length = k) : l.flatten.length = l.length * k := by
  induction l with
  | nil => simp
  | cons x l ih => simp [h x (by simp), ih fun y hy => h y (by simp [hy]), Nat.add_mul, Nat.add_comm]

theorem Part.readAnswer_length {p : Part} {s : Nat} {bs : Bytes} (h : p.readAnswer s = .record bs) :
    bs.length = Config.recordBytes := by
  unfold Part.readAnswer at h
  dsimp only at h
  repeat' split at h
  all_goals simp at h
  rw [← h]
  exact Mem.length_readBytes _ _ _

theorem crcBytes_length (bs : Bytes) : (crcBytes bs).length = 2 := by simp [crcBytes]

theorem PriceRecord.bytes_length (r : PriceRecord) : r.bytes.length = 22 := by
  simp [PriceRecord.bytes, be_length]

theorem BankEntry.record_length (e : BankEntry) : e.record.length = 24 := by
  unfold BankEntry.record
  split <;> simp [withCrc, crcBytes_length, PriceRecord.bytes_length]

theorem Part.fetchRecord_length (p : Part) (g i : Nat) : (p.fetchRecord g i).length = 24 := by
  unfold Part.fetchRecord
  split_ifs <;> simp [BankEntry.record_length, withCrc, crcBytes_length]

end Sys2Proof.Machine
end

section
/-! PROOFS. What a callee hands over after its ANSWER ACCEPT: the first DATA, or END. -/

open Sys2Proof
namespace Sys2Proof.Machine

/-! ### a turn frame that can go (R9, R67) -/

/-- The turn gap is open, the transmitter rests, and the pool gives a buffer to a user without a limit of its own. -/
def Part.turnCanGo (p : Part) : Prop :=
  p.branch.turnGap = true ∧ (p.branch.tx = .idle ∨ p.branch.tx = .waiting) ∧ Config.controlReserve < p.fwd.free.length ∧
    ∀ n, p.fwd.free.head? = some n → n < Config.poolSize

theorem Forwarding.restTx_rests (f : Forwarding) : f.restTx = .idle ∨ f.restTx = .waiting := by
  unfold Forwarding.restTx
  split
  · exact .inr rfl
  · exact .inl rfl

/-- After a frame sent, the pool of before with one buffer more gives a buffer where that of before did. -/
theorem Part.turnCanGo_lineSent {s : State} (h : s.bufferFree) (b : Buf) (x : Sender) (a : Asks) :
    (s.part.lineSent (s.part.fwd.giveBack b) x a).turnCanGo := by
  obtain ⟨hfree, hpool⟩ := h
  refine ⟨rfl, Forwarding.restTx_rests _, ?_, fun n hn => hpool n ?_⟩
  · simp only [Part.lineSent, Forwarding.giveBack, List.length_append]
    omega
  · cases hl : s.part.fwd.free with
    | nil => simp [hl] at hfree
    | cons m rest => simp [Part.lineSent, Forwarding.giveBack, hl] at hn; simp [hn]

theorem Part.turnCanGo.grants {p : Part} (h : p.turnCanGo) : p.fwd.refusal .other = none := by
  obtain ⟨-, -, hfree, -⟩ := h
  have hnone : ¬ p.fwd.free.length = 0 := by omega
  have habove : ¬ p.fwd.free.length ≤ Config.controlReserve := by omega
  simp [Forwarding.refusal, hnone, habove]

/-- It goes, with its bytes, and leaves the call lists. -/
theorem Part.turnCanGo.turn {p : Part} (h : p.turnCanGo) (what : TurnWhat) (dest : StationNo) (kind : Nat) {payload : Bytes}
    (hl : payload.length + 3 ≤ Config.bufferBytes) :
    (p.turn what dest kind payload).sends what (plainBody dest.val kind payload) ∧
      (p.turn what dest kind payload).call = p.call := by
  obtain ⟨hgap, hrest, hfree, hpool⟩ := h
  obtain ⟨hsends, hcall, -⟩ := p.turn_sent what dest kind payload hgap hrest hfree hpool hl
  exact ⟨hsends, hcall⟩

/-- A DATA or END handed over moves no link, no price and nothing of the trunk controller, sent or not. -/
theorem Part.turn_served {what : TurnWhat} (hw : what = .data ∨ what = .endFrame) (dest : StationNo) (kind : Nat)
    (payload : Bytes) (p : Part) :
    (p.turn what dest kind payload).links = p.links ∧ (p.turn what dest kind payload).price = p.price ∧
      (p.turn what dest kind payload).trk = p.trk := by
  obtain ⟨-, -, -, -, hlinks, -, -, hprice, -, -, -, -, htrk, -⟩ := p.sendTurn_frame what dest kind payload
  unfold Part.turn
  split
  · next q h => rw [h] at hlinks hprice htrk; exact ⟨hlinks, hprice, htrk⟩
  · next q h =>
    rw [h] at hlinks hprice htrk
    rcases hw with rfl | rfl <;> exact ⟨hlinks, hprice, htrk⟩

/-! ### END (R24) -/

theorem endPayload_length (tag : Byte) (sent : Nat) (r : Request) (extra : Nat) : (endPayload tag sent r extra).length ≤ 7 := by
  cases r <;> simp [endPayload, be_length]

theorem Part.sendEnd_sent {p : Part} (h : p.turnCanGo) {c : Conn} (hc : c.phase ≠ .awaitSilence) :
    (p.sendEnd c).sends .endFrame
        (plainBody c.peer.val kindEnd (endPayload c.tag c.sent c.request (p.serveTail c.request))) ∧
      (p.sendEnd c).call = { p.call with conn := some { c with phase := .awaitSilence, times := 1 } } := by
  have hlen : (endPayload c.tag c.sent c.request (p.serveTail c.request)).length + 3 ≤ Config.bufferBytes := by
    have := endPayload_length c.tag c.sent c.request (p.serveTail c.request)
    simp only [Config.bufferBytes]
    omega
  have hgo : (p.setConn (some { c with phase := .awaitSilence, times := 1 })).turnCanGo := h
  simp only [Part.sendEnd, if_neg hc]
  exact hgo.turn _ _ _ hlen

/-! ### DATA (R24, R34, R35) -/

section
variable {p : Part} (h : p.turnCanGo) (c : Conn) (pos most : Nat)

theorem Part.serveRecords_turnCanGo (h : p.turnCanGo) (req : Request) : (p.serveRecords req pos most).2.turnCanGo := by
  simpa [Part.turnCanGo] using h

include h

/-- Where there is no record, END is handed over. -/
theorem Part.sendData_none (hnone : (p.serveRecords c.request pos most).1 = []) :
    p.sendData c pos most false = (p.serveRecords c.request pos most).2.sendEnd { c with phase := .awaitReceipt } := by
  simp [Part.sendData, h.grants, hnone]

theorem Part.sendData_some (hsome : (p.serveRecords c.request pos most).1 ≠ []) :
    p.sendData c pos most false =
      ((p.serveRecords c.request pos most).2.setConn
        (some { c with phase := .awaitReceipt, position := pos, count := (p.serveRecords c.request pos most).1.length
                       times := 1 })).turn .data c.peer kindData
        ((p.serveRecords c.request pos most).2.dataPayload c.tag c.request pos (p.serveRecords c.request pos most).1) := by
  simp [Part.sendData, h.grants, hsome]

theorem Part.sendData_jrn : (p.sendData c pos most false).jrn = (p.serveRecords c.request pos most).2.jrn := by
  by_cases hnone : (p.serveRecords c.request pos most).1 = []
  · rw [Part.sendData_none h c pos most hnone]; simp
  · rw [Part.sendData_some h c pos most hnone]; simp

/-- The records found are handed over in one DATA, where they fit it. -/
theorem Part.sendData_sent (hsome : (p.serveRecords c.request pos most).1 ≠ [])
    (hl : (p.dataPayload c.tag c.request pos (p.serveRecords c.request pos most).1).length + 3 ≤ Config.bufferBytes) :
    (p.sendData c pos most false).sends .data
        (plainBody c.peer.val kindData (p.dataPayload c.tag c.request pos (p.serveRecords c.request pos most).1)) ∧
      (p.sendData c pos most false).call =
        { p.call with
          conn :=
            some
              { c with
                phase := .awaitReceipt, position := pos, count := (p.serveRecords c.request pos most).1.length
                times := 1 } } := by
  have hpayload : ∀ recs, (p.serveRecords c.request pos most).2.dataPayload c.tag c.request pos recs =
      p.dataPayload c.tag c.request pos recs := fun recs => by
    simp only [Part.dataPayload, Part.serveTail_serveRecords]
  have hgo : ((p.serveRecords c.request pos most).2.setConn
      (some { c with phase := .awaitReceipt, position := pos, count := (p.serveRecords c.request pos most).1.length
                     times := 1 })).turnCanGo := Part.serveRecords_turnCanGo pos most h c.request
  rw [Part.sendData_some h c pos most hsome, hpayload]
  obtain ⟨hsends, hcall⟩ := hgo.turn .data c.peer kindData hl
  exact ⟨hsends, hcall.trans (by simp [Part.setConn])⟩

end

/-! ### the first frame of a served connection (R24) -/

/-- A connection that has served nothing yet, its ANSWER ACCEPT just sent. -/
def Conn.begins (c : Conn) : Prop := c.phase = .awaitSend ∧ c.count = 0 ∧ c.sent = 0

theorem Conn.begins.sendNext {c : Conn} (h : c.begins) (p : Part) :
    p.sendNext c = if c.request.maximum = 0 then p.sendEnd c else p.sendData c c.position c.request.maximum false := by
  obtain ⟨-, hcount, hsent⟩ := h
  simp [Part.sendNext, hsent, Conn.nextPosition, hcount]

theorem Conn.begins.notSilent {c : Conn} (h : c.begins) : c.phase ≠ .awaitSilence := by simp [h.1]

section
variable {p : Part} (h : p.turnCanGo) {c : Conn} (hb : c.begins)
include h hb

/-- Of a JOURNAL PULL: the committed records from its position on, or END where there is none (R34). -/
theorem Part.sendNext_pull {f m : Nat} {recs : List Bytes} (hreq : c.request = .pull f m)
    (hserves : p.pullServes c.position m recs) :
    (p.sendNext c).jrn = p.pullReads c.position m recs ∧
      (recs ≠ [] →
        (p.sendNext c).call =
            { p.call with conn := some { c with phase := .awaitReceipt, count := recs.length, times := 1 } } ∧
          (p.sendNext c).sends .data (plainBody c.peer.val kindData (pullDataPayload c.tag p.jrn.next recs))) ∧
      (recs = [] →
        (p.sendNext c).call = { p.call with conn := some { c with phase := .awaitSilence, times := 1 } } ∧
          (p.sendNext c).sends .endFrame (plainBody c.peer.val kindEnd (endPayload c.tag c.sent c.request p.jrn.next))) := by
  obtain ⟨hlen, hrecs, hstop⟩ := hserves
  have hmax : c.request.maximum = m := by rw [hreq]; rfl
  have htail : p.serveTail c.request = p.jrn.next := by rw [hreq]; rfl
  rw [hb.sendNext p, hmax]
  split
  · next hm =>
    subst hm
    obtain rfl : recs = [] := List.eq_nil_of_length_eq_zero (by simpa using hlen)
    obtain ⟨hsends, hcall⟩ := Part.sendEnd_sent h hb.notSilent
    rw [htail] at hsends
    exact ⟨by simp [Part.pullReads], fun hne => absurd rfl hne, fun _ => ⟨hcall, hsends⟩⟩
  · obtain ⟨hfst, hjrn⟩ := p.pullRecords_eq hlen hrecs hstop
    have hserve : (p.serveRecords c.request c.position m).1 = recs := by rw [hreq]; exact hfst
    refine ⟨?_, fun hne => ?_, fun hnil => ?_⟩
    · rw [Part.sendData_jrn h, hreq]; exact hjrn
    · have hpayload : p.dataPayload c.tag c.request c.position recs = pullDataPayload c.tag p.jrn.next recs := by
        rw [hreq]; rfl
      have hflat : recs.flatten.length = recs.length * Config.recordBytes := flatten_length fun r hr => by
        obtain ⟨i, hi, rfl⟩ := List.mem_iff_getElem.mp hr
        exact Part.readAnswer_length (hrecs i hi)
      have hfit : (pullDataPayload c.tag p.jrn.next recs).length + 3 ≤ Config.bufferBytes := by
        simp only [pullDataPayload, List.length_append, be_length, hflat, Config.recordBytes, Config.bufferBytes,
          List.length_singleton]
        omega
      obtain ⟨hsends, hcall⟩ := Part.sendData_sent h c c.position m (by rwa [hserve]) (by rw [hserve, hpayload]; exact hfit)
      rw [hserve] at hsends hcall
      rw [hpayload] at hsends
      exact ⟨hcall, hsends⟩
    · rw [Part.sendData_none h c c.position m (hserve.trans hnil)]
      obtain ⟨hsends, hcall⟩ := Part.sendEnd_sent (Part.serveRecords_turnCanGo c.position m h c.request)
        (c := { c with phase := .awaitReceipt }) (by simp)
      rw [Part.serveTail_serveRecords, htail] at hsends
      exact ⟨hcall.trans (by simp), hsends⟩

/-- Of a PRICE FETCH of a generation held: as many entries as one DATA and the bank allow (R35). -/
theorem Part.sendNext_fetch {g f m n : Nat} (hreq : c.request = .fetch g f m) (hheld : p.holds g = true) (hm : 1 ≤ m)
    (hpos : c.position < Config.bankSlots) (hn : n = min (min m 42) (Config.bankSlots - c.position)) :
    (p.sendNext c).jrn = p.jrn ∧
      (p.sendNext c).call = { p.call with conn := some { c with phase := .awaitReceipt, count := n, times := 1 } } ∧
      (p.sendNext c).sends .data
        (plainBody c.peer.val kindData
          (fetchDataPayload c.tag c.position (p.entriesOf g) ((List.range n).map fun i => p.fetchRecord g (c.position + i)))) := by
  have hmax : c.request.maximum = m := by rw [hreq]; rfl
  have hserve : p.serveRecords c.request c.position m =
      ((List.range n).map fun i => p.fetchRecord g (c.position + i),
        p.loads .fetchService (n + p.fetchMapBursts g c.position n)) := by
    simp [hreq, Part.serveRecords, hheld, hn, Config.fetchPerData]
  have hpayload : ∀ recs, p.dataPayload c.tag c.request c.position recs =
      fetchDataPayload c.tag c.position (p.entriesOf g) recs := fun recs => by
    simp [hreq, Part.dataPayload, Part.serveTail, hheld]
  have hlen : ((List.range n).map fun i => p.fetchRecord g (c.position + i)).length = n := by simp
  have hflat : ((List.range n).map fun i => p.fetchRecord g (c.position + i)).flatten.length = n * 24 := by
    rw [flatten_length (k := 24) (by simp [Part.fetchRecord_length]), hlen]
  have hfit : (fetchDataPayload c.tag c.position (p.entriesOf g)
      ((List.range n).map fun i => p.fetchRecord g (c.position + i))).length + 3 ≤ Config.bufferBytes := by
    simp only [fetchDataPayload, List.length_append, be_length, hflat, Config.bufferBytes, List.length_singleton]
    omega
  have hsome : (List.range n).map (fun i => p.fetchRecord g (c.position + i)) ≠ [] := fun hnil => by
    rw [hnil] at hlen
    simp at hlen
    omega
  rw [hb.sendNext p, hmax, if_neg (by omega), Part.sendData_jrn h]
  obtain ⟨hsends, hcall⟩ := Part.sendData_sent h c c.position m (by rw [hserve]; exact hsome)
    (by rw [hpayload, hserve]; exact hfit)
  rw [hpayload, hserve] at hsends
  rw [hserve] at hcall
  exact ⟨by simp [hserve], by rw [hcall, hlen], hsends⟩

end

/-! ### what handing over leaves as it was -/

theorem Part.sendEnd_served (c : Conn) (p : Part) :
    (p.sendEnd c).links = p.links ∧ (p.sendEnd c).price = p.price ∧ (p.sendEnd c).trk = p.trk :=
  Part.turn_served (.inr rfl) _ _ _ _

theorem Part.sendData_served {p : Part} (h : p.turnCanGo) (c : Conn) (pos most : Nat) :
    (p.sendData c pos most false).links = p.links ∧ (p.sendData c pos most false).price = p.price ∧
      (p.sendData c pos most false).trk = p.trk := by
  by_cases hnone : (p.serveRecords c.request pos most).1 = []
  · rw [Part.sendData_none h c pos most hnone]
    simpa using Part.sendEnd_served { c with phase := .awaitReceipt } (p.serveRecords c.request pos most).2
  · rw [Part.sendData_some h c pos most hnone]
    simp [Part.turn_served (what := .data) (.inl rfl), Part.setConn]

theorem Part.sendNext_served {p : Part} (h : p.turnCanGo) {c : Conn} (hb : c.begins) :
    (p.sendNext c).links = p.links ∧ (p.sendNext c).price = p.price ∧ (p.sendNext c).trk = p.trk := by
  rw [hb.sendNext p]
  split
  · exact Part.sendEnd_served c p
  · exact Part.sendData_served h c c.position c.request.maximum

theorem State.sends_settle (s : State) (what : TurnWhat) (bs : Bytes) : s.settle.part.sends what bs ↔ s.part.sends what bs := by
  simp [Part.sends, Part.bufBytes, Part.read]

/-- The first frame of a served connection is what its request asks for (R24, R34, R35). -/
theorem State.handsOver_sendNext {s : State} (h : s.part.turnCanGo) {c : Conn} (hb : c.begins) :
    s.handsOver s.part.call c c.position c.request.maximum 1 { s with part := s.part.sendNext c }.settle := by
  refine ⟨fun f m recs hreq hserves => ?_, fun g f m n hreq hheld hm hpos hn => ?_⟩
  · have hmax : c.request.maximum = m := by rw [hreq]; rfl
    rw [hmax] at hserves ⊢
    obtain ⟨hjrn, hdata, hend⟩ := Part.sendNext_pull h hb hreq hserves
    simp only [State.settle_jrn, State.settle_call, State.sends_settle]
    exact ⟨hjrn, hdata, hend⟩
  · have hmax : c.request.maximum = m := by rw [hreq]; rfl
    rw [hmax] at hm hn
    simp only [State.settle_jrn, State.settle_call, State.sends_settle]
    exact Part.sendNext_fetch h hb hreq hheld hm hpos hn

theorem Part.turnSent_answerAccept {p : Part} {c : Conn} (hc : p.call.conn = some c) (hphase : c.phase = .awaitSend) :
    p.turnSent .answerAccept =
      (p.countCall fun k => { k with gaveAccept := bump k.gaveAccept }).sendNext
        { c with position := c.request.start p, count := 0, sent := 0 } := by
  simp only [Part.turnSent, Part.countCall, Part.modCall, hc, hphase, if_true, Part.sendFirst]
  cases c.request <;> rfl

/-- The line, the pool, the call lists, the journal unit's count of damaged reads and memory are all that it moves. -/
theorem State.unchanged_of_sendNext {s : State} {p : Part} (h : p.turnCanGo) {c : Conn} (hb : c.begins) {b : Branch}
    {f : Forwarding} {k : Calls} {a : Asks} (hp : p = { s.part with branch := b, fwd := f, call := k, asks := a }) :
    Unchanged [.branch, .fwd, .call, .jrn, .memory] s { s with part := p.sendNext c }.settle := by
  obtain ⟨hlinks, hprice, htrk⟩ := Part.sendNext_served h hb
  refine State.unchanged_of_part _ _ _ fun x hx => ?_
  cases x <;> simp [Piece.same, hlinks, hprice, htrk] at hx ⊢ <;> simp [hp]

end Sys2Proof.Machine

open Sys2Proof.Machine

/-- Settles O7: a queued frame by the sent notice of its owner, a turn frame by what it was. -/
theorem frameSentLeavesItsQueue : Obligations.FrameSentLeavesItsQueue := by
  refine ⟨fun s c q rest hev ht hq => ?_, fun s x hev ht hx => ?_⟩
  · obtain ⟨x, a, h⟩ := Part.frameSent_head ht hq
    refine ⟨fun hd => ?_, fun tag e ho he htag hc => ?_, fun tag d ho hd htag => ?_, fun d ho hn hday hnow hlow => ?_⟩
    · refine ⟨_, exec_of_run exec_frameSent hev, ?_⟩
      rw [h, Part.sentNotice_deaf _ _ hd]
      exact ⟨s.headSent_lineSent c q rest x a s.part.call, State.unchanged_of_branch_fwd rfl⟩
    · subst htag
      refine ⟨_, exec_of_run exec_frameSent hev, ?_⟩
      rw [h, ho, Part.sentNotice, Part.callSent_single (p := s.part.lineSent _ x a) he hc]
      exact ⟨s.headSent_lineSent c q rest x a _, by simp [Part.lineSent], State.unchanged_of_line_call rfl⟩
    · subst htag
      refine ⟨_, exec_of_run exec_frameSent hev, ?_⟩
      rw [h, ho, Part.sentNotice, Part.recallSent_single (p := s.part.lineSent _ x a) hd]
      exact ⟨s.headSent_lineSent c q rest x a _, by simp [Part.lineSent], State.unchanged_of_line_call rfl⟩
    · refine ⟨_, exec_of_run exec_frameSent hev, ?_⟩
      rw [h, ho, Part.sentNotice]
      obtain ⟨hqueues, hbranch, ⟨w, htrk⟩, hkept⟩ :=
        State.holds_of_claimSent ((s.part.fwd.setQueue c rest).giveBack q.buf) x a hn hday hnow hlow _ rfl
      refine ⟨(hqueues c).trans ?_, hbranch, ?_, ?_, ?_, ?_, ?_, ?_, hkept⟩
      · exact (Forwarding.queue_giveBack _ _ _).trans (Forwarding.setQueue_queue _ _ _)
      all_goals simp only [htrk, Trunk.holding]
  · obtain ⟨y, a, h⟩ := Part.frameSent_turn ht hx
    refine ⟨fun hw => ?_, fun c hw hc hphase hfree => ?_⟩
    · refine ⟨_, exec_of_run exec_frameSent hev, ?_⟩
      rw [h, Part.turnSent_eq _ hw]
      refine ⟨by simp [Part.lineSent], by simp [Part.lineSent, Branch.sentOne]; rfl, ?_, State.unchanged_of_line_call rfl⟩
      rw [State.settle_call]
      cases x.what <;> rfl
    · refine ⟨_, exec_of_run exec_frameSent hev, ?_⟩
      rw [h, hw, Part.turnSent_answerAccept (p := s.part.lineSent _ y a) hc hphase]
      have hb : Conn.begins { c with position := c.request.start s.part, count := 0, sent := 0 } := ⟨hphase, rfl, rfl⟩
      have hgo : ((s.part.lineSent (s.part.fwd.giveBack x.buf) y a).countCall
        (fun k => { k with gaveAccept := bump k.gaveAccept })).turnCanGo := Part.turnCanGo_lineSent hfree x.buf y a
      exact ⟨State.handsOver_sendNext (s := { s with part := _ }) hgo hb, State.unchanged_of_sendNext hgo hb rfl⟩
end

section
/-! PROOFS. Calls that end at the caller: what their owners leave of the call lists. -/

open Sys2Proof
namespace Sys2Proof.Machine

/-! ### what the owners of ended calls leave of the call lists (R33)

An owner that takes a completion record may place its next call within the step, and one that finds no buffer ends NO ANSWER at
once (R20). So the entries and the count of NO ANSWER can move; the connection and every other count cannot. -/

/-- The connection, and every count but that of NO ANSWER. -/
def Calls.settled (k : Calls) : Option Conn × CallCounters := (k.conn, { k.ctr with noAnswer := 0 })

theorem Part.placeCall_settled (o : CallOwner) (peer : StationNo) (r : Request) (p : Part) :
    (p.placeCall o peer r).2.call.settled = p.call.settled := by
  unfold Part.placeCall
  split_ifs
  · rfl
  · dsimp only
    split
    · next q h =>
      have hcall := congrArg (fun x => x.2.call) h
      simp at hcall
      simp [← hcall, Calls.settled]
    · next q h =>
      have hcall := congrArg (fun x => x.2.call) h
      simp at hcall
      simp [← hcall, Calls.settled, Part.endCall, Part.endCallWith, CallEnd.count]

theorem Part.placeFetch_settled (p : Part) : p.placeFetch.2.call.settled = p.call.settled := by
  unfold Part.placeFetch
  dsimp only
  split
  · simp
  · next src first count _ =>
    have hplace := (p.loads .staging p.fetchBursts).placeCall_settled .pricing src
      (.fetch p.price.staging.generation first count)
    split
    · simp
    · next tag q h =>
      rw [h] at hplace
      simpa using hplace

theorem Part.checkFetch_settled (p : Part) : p.checkFetch.call.settled = p.call.settled := by
  have hfirst := p.placeFetch_settled
  unfold Part.checkFetch
  split
  · next q h => rwa [h] at hfirst
  · next q h =>
    rw [h] at hfirst
    dsimp only
    have hsecond := (q.drainFetchEnds q.price.inbox.length).2.placeFetch_settled
    split
    · next r hr => rw [hr] at hsecond; simpa [hfirst] using hsecond
    · next r hr => rw [hr] at hsecond; simpa [hfirst] using hsecond

theorem Part.fetchesEnded_settled (p : Part) : p.fetchesEnded.call.settled = p.call.settled := by
  unfold Part.fetchesEnded
  dsimp only
  split_ifs
  · simp [Part.checkFetch_settled]
  · simp

theorem Part.placePull_settled (e : Upload) (p : Part) : (p.placePull e).call.settled = p.call.settled := by
  unfold Part.placePull
  dsimp only
  split_ifs
  · rfl
  · rfl
  · split
    · next q h => simpa [Part.placeCall_settled] using (congrArg (fun x => x.2.call.settled) h).symm
    · next tag q h => simpa [Part.placeCall_settled] using (congrArg (fun x => x.2.call.settled) h).symm
  · rfl

theorem Part.passTurn_settled (n : Nat) (p : Part) : (p.passTurn n).call.settled = p.call.settled := by
  induction n generalizing p with
  | zero => rfl
  | succ n ih =>
    unfold Part.passTurn
    split
    · split
      · split
        · simp only [ih, Part.modTrk_call]
          split <;> simp
        · split_ifs
          · rfl
          · exact p.placePull_settled _
      · split
        · rfl
        · split_ifs <;> simp [ih]
    · rfl

theorem Part.settlePulls_settled (n : Nat) (p : Part) : (p.settlePulls n).call.settled = p.call.settled := by
  induction n generalizing p with
  | zero => rfl
  | succ n ih =>
    have hround : (p.drainPullEnds p.trk.inbox.length).advance.call.settled = p.call.settled := by
      simp [Part.advance, Part.passTurn_settled]
    unfold Part.settlePulls
    dsimp only
    split
    · rw [ih, hround]
    · exact hround

theorem Part.ownersTake_settled (p : Part) : p.ownersTake.call.settled = p.call.settled := by
  unfold Part.ownersTake
  dsimp only
  split_ifs <;> simp [Part.pullsEnded, Part.settlePulls_settled, Part.fetchesEnded_settled]

/-- A call that ends is counted under its outcome, and what its owner then does leaves that count (R33). -/
theorem Part.endCallWith_settled (e : OpenCall) (x : CallEnd) (tail : Option Nat) (p : Part) :
    (p.endCallWith e x tail).ownersTake.call.settled = (p.call.conn, { x.count p.call.ctr with noAnswer := 0 }) := by
  rw [Part.ownersTake_settled]
  simp [Part.endCallWith, Calls.settled]

theorem Part.closeCaller_settled {p : Part} {tag : Byte} {e : OpenCall} (h : p.openCall tag = some e) (x : CallEnd)
    (tail : Option Nat) :
    (p.closeCaller tag x tail).call.settled = (none, { x.count p.call.ctr with noAnswer := 0 }) := by
  have hopen : (p.setConn none).openCall tag = some e := h
  simp only [Part.closeCaller, hopen, Part.endCallWith_settled]
  rfl

end Sys2Proof.Machine
end

section
/-! PROOFS. ANSWER, END and the timers of a call. -/

open Sys2Proof
namespace Sys2Proof.Machine

/-! ### frames taken from the receive queue (R62, R69) -/

/-- A frame taken: it leaves the receive queue and its buffer joins the tail of the free list. -/
theorem Part.consume_eq (p : Part) (it : RxItem) : p.consume it = { p with fwd := (p.fwd.without it).giveBack it.buf } := rfl

/-- The open connection acts on a frame from its peer with its tag, where its phase is one of these. -/
theorem Part.connFor_of {p : Part} {it : RxItem} {c : Conn} {tag : Byte} {phases : List Phase} (hc : p.call.conn = some c)
    (hpeer : c.peer = it.station) (htag : c.tag = tag) (hphase : c.phase ∈ phases) : p.connFor it tag phases = some c := by
  simp [Part.connFor, hc, hpeer, htag, hphase]

theorem Part.connFor_none {p : Part} (hc : p.call.conn = none) (it : RxItem) (tag : Byte) (phases : List Phase) :
    p.connFor it tag phases = none := by
  simp [Part.connFor, hc]

theorem Part.phase_of {p : Part} {c : Conn} (hc : p.call.conn = some c) : p.phase = some c.phase := by
  simp [Part.phase, hc]

/-- A part that differs in the forwarding engine and the call lists alone. -/
theorem State.unchanged_of_fwd_call {s : State} {q : Part} {f : Forwarding} {k : Calls}
    (h : q = { s.part with fwd := f, call := k }) : Unchanged [.fwd, .call] s { s with part := q }.settle := by
  subst h
  refine State.unchanged_of_part _ _ _ fun x hx => ?_
  cases x <;> simp [Piece.same] at hx ⊢

/-! ### the one open call -/

theorem Part.openCall_tag {p : Part} {e : OpenCall} {tag : Byte} (h : p.call.opens = [e]) (htag : e.tag = tag) :
    p.openCall tag = some e := by
  subst htag
  exact Part.openCall_single h

theorem Part.setStage_opens {p : Part} {e : OpenCall} {tag : Byte} (h : p.call.opens = [e]) (htag : e.tag = tag) (n : Nat) :
    (p.setStage tag n).call.opens = [{ e with stage := max n e.stage }] := by
  simp [Part.setStage, h, htag]

/-! ### calls that close (R23, R27, R28, R32) -/

/-- The outcome is counted once, whatever the owner then counts under NO ANSWER. -/
theorem Calls.settled_counts {k : Calls} {conn : Option Conn} {ctr : CallCounters}
    (h : k.settled = (conn, { ctr with noAnswer := 0 })) : k.conn = conn ∧ ∃ n, k.ctr = { ctr with noAnswer := n } := by
  obtain ⟨hconn, hctr⟩ := Prod.ext_iff.mp h
  exact ⟨hconn, k.ctr.noAnswer, congrArg (fun x : CallCounters => { x with noAnswer := k.ctr.noAnswer }) hctr⟩

theorem Part.endCall_counts (e : OpenCall) (x : CallEnd) (tail : Option Nat) (p : Part) :
    (p.endCallWith e x tail).ownersTake.call.conn = p.call.conn ∧
      ∃ n, (p.endCallWith e x tail).ownersTake.call.ctr = { x.count p.call.ctr with noAnswer := n } :=
  Calls.settled_counts (p.endCallWith_settled e x tail)

theorem Part.closeCaller_counts {p : Part} {tag : Byte} {e : OpenCall} (h : p.openCall tag = some e) (x : CallEnd)
    (tail : Option Nat) :
    (p.closeCaller tag x tail).call.conn = none ∧
      ∃ n, (p.closeCaller tag x tail).call.ctr = { x.count p.call.ctr with noAnswer := n } :=
  Calls.settled_counts (Part.closeCaller_settled h x tail)

/-- A call that closes moves the blocks its owner acts on, and no other (R28, R33). -/
theorem State.unchanged_of_closeCaller {s : State} {p : Part} {f : Forwarding} {k : Calls}
    (hp : p = { s.part with fwd := f, call := k }) (tag : Byte) (x : CallEnd) (tail : Option Nat) :
    Unchanged turnPieces s { s with part := p.closeCaller tag x tail }.settle := by
  refine State.unchanged_of_part _ _ _ fun b hb => ?_
  cases b <;> simp [Piece.same, turnPieces] at hb ⊢ <;> simp [hp]

/-! ### timers (R29, R32) -/

/-- A call that waits for its recall ends RECALL TIMEOUT (R32). -/
theorem Part.recallTimeout_single {p : Part} {e : OpenCall} (h : p.call.opens = [e]) (hs : e.state = .waitingRecall)
    (ht : e.recallTimer = true) : p.recallTimeout e.tag = (p.endCall e .recallTimeout).ownersTake := by
  simp [Part.recallTimeout, Part.openCall_single h, hs, ht]

/-- The only deferred entry, its lifetime run out, leaves the list and is counted (R29). -/
theorem Part.lifetimeExpiry_single {p : Part} {d : Deferred} (h : p.call.deferred = [d]) (hs : d.state = .waiting)
    (hl : d.lifetime = true) :
    p.lifetimeExpiry d.recallTag =
      { p with
        call :=
          { p.call with
            deferred := [], ctr := { p.call.ctr with deferredExpired := bump p.call.ctr.deferredExpired } } } := by
  simp [Part.lifetimeExpiry, Part.deferredEntry_single h, hl, hs, Part.expireDeferred, Part.countCall, Part.modCall, h]

theorem Part.recallRetry_single {p : Part} {d : Deferred} (h : p.call.deferred = [d]) (hs : d.state = .waiting)
    (hl : d.lifetime = true) {g first count : Nat} (hreq : d.request = .fetch g first count) (hheld : p.holds g = true) :
    p.recallRetry d.recallTag = p.queueRecall d := by
  simp [Part.recallRetry, Part.deferredEntry_single h, hs, hl, Part.conditionMet, hreq, hheld]

/-- Without a free buffer the entry stays WAITING, and one refusal is counted (R29, R67). -/
theorem Part.queueRecall_refused {p : Part} (h : p.fwd.free = []) (d : Deferred) :
    p.queueRecall d = { p with fwd := { p.fwd with ctr := Refused.count .empty p.fwd.ctr } } := by
  have hr : p.fwd.refusal .other = Option.some .empty := by simp [Forwarding.refusal, h]
  simp [Part.queueRecall, Part.sendFrame, Part.build, Part.takeBuffer, Forwarding.take_refused _ _ _ hr]

theorem Part.enqueue_fwd (c : Cls) (o : FrameOwner) (b : Buf) (p : Part) :
    (p.enqueue c o b).fwd = p.fwd.setQueue c (p.fwd.queue c ++ [⟨b, 0, o, false⟩]) := by
  simp [Part.enqueue]

/-- With a buffer to be had the RECALL joins the tail of the TILL class queue and its entry is RECALL QUEUED (R29). -/
theorem Part.queueRecall_granted {p : Part} (h : Config.controlReserve < p.fwd.free.length) {d : Deferred}
    (hd : p.call.deferred = [d]) :
    (p.queueRecall d).call = { p.call with deferred := [{ d with state := .recallQueued }] } ∧
      ∃ b : Buf, (p.queueRecall d).fwd.till = p.fwd.till ++ [⟨b, 0, .recall d.recallTag, false⟩] := by
  obtain ⟨n, rest, hfree⟩ : ∃ n rest, p.fwd.free = n :: rest := List.exists_cons_of_length_pos (by omega)
  have hsend := Part.build_other .lineBuild p
    (plainBody d.caller.val kindRecall (recallPayload d.callTag d.recallTag d.request)) n rest hfree h
  simp only [Part.queueRecall, Part.sendFrame, hsend]
  exact ⟨by simp [Part.setDeferred, hd], _, by
    simp [Part.setDeferred, Part.enqueue_fwd, Forwarding.setQueue, Forwarding.queue]
    rfl⟩

end Sys2Proof.Machine

open Sys2Proof.Machine

/-- Settles O16: each verdict by what it makes of the connection and the one open call. -/
theorem answerMovesTheCall : Obligations.AnswerMovesTheCall := by
  intro s it b hev hheard
  have hrun : ∀ q, s.part.answerReceived = q → exec .answerReceived s = .next { s with part := q }.settle := by
    rintro q rfl
    exact exec_of_run (fun _ => rfl) hev
  refine ⟨fun hnone => ?_, fun c e v hc hphase hpeer htag hopens hetag hv => ?_⟩
  · have hq : s.part.answerReceived = (s.part.consume it).stray := by
      simp [Part.answerReceived, hheard, Part.phase, hnone, Part.connFor_none hnone, Part.strayTurn, Part.turnLost, Part.stray]
    refine ⟨_, hrun _ hq, by simp [Part.consume_eq], by simp [Part.stray], State.unchanged_of_fwd_call rfl⟩
  · have hopen : ((s.part.consume it).setStage c.tag 1).openCall c.tag = some { e with stage := max 1 e.stage } :=
      Part.openCall_tag (Part.setStage_opens (p := s.part.consume it) hopens hetag 1) hetag
    have hq : s.part.answerReceived = (s.part.consume it).takeVerdict c v := by
      simp [Part.answerReceived, hheard, Part.phase_of hc, hphase, Part.connFor_of hc hpeer htag, hv]
    refine ⟨_, hrun _ hq, ?_⟩
    cases v with
    | accept =>
      refine ⟨by simp [Part.takeVerdict, Part.setStage, hopens, hetag], State.unchanged_of_part _ _ _ fun x hx => ?_⟩
      cases x <;> simp [Piece.same, Part.takeVerdict] at hx ⊢
    | defer rt =>
      refine ⟨by simp [Part.takeVerdict, Part.setStage, hopens, hetag], State.unchanged_of_part _ _ _ fun x hx => ?_⟩
      cases x <;> simp [Piece.same, Part.takeVerdict] at hx ⊢
    | busy =>
      obtain ⟨hconn, n, hctr⟩ := Part.closeCaller_counts hopen .busy none
      refine ⟨?_, ?_, State.unchanged_of_closeCaller rfl _ _ _⟩
      · rw [State.settle_call]; exact hconn
      · rw [State.settle_call]; exact congrArg CallCounters.busy hctr
    | refuse r =>
      obtain ⟨hconn, n, hctr⟩ := Part.closeCaller_counts hopen (.refused r) none
      refine ⟨?_, ?_, State.unchanged_of_closeCaller rfl _ _ _⟩
      · rw [State.settle_call]; exact hconn
      · rw [State.settle_call]; exact congrArg CallCounters.refused hctr

/-- Settles O19: the count of records decides the outcome, and the outcome is counted once. -/
theorem endEndsTheCall : Obligations.EndEndsTheCall := by
  intro s it b c e hev hheard hc hphase hpeer htag hlen hopens hetag
  have hq : s.part.endReceived = (s.part.consume it).takeCallEnd c (fieldAt b.payload 1 2) (fieldAt b.payload 3 4) := by
    simp [Part.endReceived, hheard, Part.connFor_of hc hpeer htag, hphase, hlen]
  have hopen : ((s.part.consume it).setStage c.tag 4).openCall c.tag = some { e with stage := max 4 e.stage } :=
    Part.openCall_tag (Part.setStage_opens (p := s.part.consume it) hopens hetag 4) hetag
  have hrun := exec_of_run (c := .endReceived) (f := Part.endReceived) (fun _ => rfl) hev
  simp only [hq, Part.takeCallEnd, hopen] at hrun
  refine ⟨_, hrun, ?_⟩
  obtain ⟨hconn, n, hctr⟩ := Part.closeCaller_counts hopen
    (if fieldAt b.payload 1 2 = e.received then (if e.enough then .endedEarly else .complete) else .broken)
    (some (fieldAt b.payload 3 4))
  simp only [State.settle_call, hctr]
  refine ⟨hconn, fun hsame henough => ?_, fun hsame henough => ?_, fun hother => ?_,
    State.unchanged_of_closeCaller rfl _ _ _⟩
  · simp [hsame, henough, CallEnd.count, Part.setStage]
  · simp [hsame, henough, CallEnd.count, Part.setStage]
  · simp [hother, CallEnd.count, Part.setStage]

/-- Settles O21, timer by timer; the recall's two ends by whether its buffer is had. -/
theorem callTimersRunOut : Obligations.CallTimersRunOut := by
  refine ⟨fun s e hev hopens hstate htimer => ?_, fun s d hev hdef hstate hlife =>
    ⟨?_, fun g first count hreq hheld => ⟨fun hfree => ?_, fun hnone => ?_⟩⟩⟩
  · have hrun := exec_of_run (c := .recallTimerExpiry e.tag) (fun _ => rfl) hev
    rw [Part.recallTimeout_single hopens hstate htimer] at hrun
    obtain ⟨hconn, n, hctr⟩ := s.part.endCall_counts e .recallTimeout none
    refine ⟨_, hrun, ?_⟩
    simp only [State.settle_call, Part.endCall, hctr]
    refine ⟨rfl, hconn, State.unchanged_of_part _ _ _ fun b hb => ?_⟩
    cases b <;> simp [Piece.same, turnPieces] at hb ⊢
  · have hrun := exec_of_run (c := .deferredLifetimeExpiry d.recallTag) (fun _ => rfl) hev
    rw [Part.lifetimeExpiry_single hdef hstate hlife] at hrun
    refine ⟨_, hrun, by simp, State.unchanged_of_part _ _ _ fun b hb => ?_⟩
    cases b <;> simp [Piece.same] at hb ⊢
  · have hrun := exec_of_run (c := .deferredRecallRetry d.recallTag) (fun _ => rfl) hev
    rw [Part.recallRetry_single hdef hstate hlife hreq hheld] at hrun
    obtain ⟨hcall, b, htill⟩ := Part.queueRecall_granted hfree hdef
    refine ⟨_, ⟨b, 0, .recall d.recallTag, false⟩, hrun, by simpa using hcall, by simpa using htill, rfl, rfl,
      State.unchanged_of_part _ _ _ fun x hx => ?_⟩
    cases x <;> simp [Piece.same] at hx ⊢
  · have hrun := exec_of_run (c := .deferredRecallRetry d.recallTag) (fun _ => rfl) hev
    rw [Part.recallRetry_single hdef hstate hlife hreq hheld, Part.queueRecall_refused hnone] at hrun
    refine ⟨_, hrun, State.unchanged_of_part _ _ _ fun x hx => ?_⟩
    cases x <;> simp [Piece.same] at hx ⊢
end

section
/-! PROOFS. The callee's verdict: CALL, and what an answer handed over in the turn leaves alone. -/

open Sys2Proof
namespace Sys2Proof.Machine

/-! ### what an answer leaves alone, sent or not (R9, R22) -/

/-- The blocks beside the call controller that a caller's ended call would move, and the frames in the hands of the blocks. -/
def Part.bystanders (p : Part) : Links × Pricing × Trunk × List (Dispatch × RxItem) :=
  (p.links, p.price, p.trk, p.fwd.taken)

theorem Part.bystanders_iff (p q : Part) :
    q.bystanders = p.bystanders ↔ q.links = p.links ∧ q.price = p.price ∧ q.trk = p.trk ∧ q.fwd.taken = p.fwd.taken := by
  simp [Part.bystanders]

/-- A turn frame that ends no call of this station where it is not sent (R9). -/
def TurnWhat.endsNoCall : TurnWhat → Bool
  | .answerAccept | .answerDefer _ | .answerBusy | .answerRefuse | .recallStale | .data | .endFrame => true
  | .recallAccept | .receipt _ => false

theorem Part.takeBuffer_taken (u : User) (p : Part) : (p.takeBuffer u).2.fwd.taken = p.fwd.taken := by
  simp only [Part.takeBuffer, Forwarding.take]
  split <;> rfl

theorem Part.build_taken (w : BurstUser) (u : User) (bs : Bytes) (p : Part) : (p.build w u bs).2.fwd.taken = p.fwd.taken := by
  have htake := p.takeBuffer_taken u
  unfold Part.build
  split
  · next q h => rwa [h] at htake
  · next b q h => rw [h] at htake; simpa using htake

theorem Part.sendTurn_taken (what : TurnWhat) (dest : StationNo) (kind : Nat) (payload : Bytes) (p : Part) :
    (p.sendTurn what dest kind payload).2.fwd.taken = p.fwd.taken := by
  have hbuild := p.build_taken .lineBuild .other (plainBody dest.val kind payload)
  unfold Part.sendTurn
  split
  · next q h => rwa [h] at hbuild
  · next b q h =>
    rw [h] at hbuild
    split
    · simpa using hbuild
    · simpa [Forwarding.giveBack] using hbuild

theorem Part.sendTurn_bystanders (what : TurnWhat) (dest : StationNo) (kind : Nat) (payload : Bytes) (p : Part) :
    (p.sendTurn what dest kind payload).2.bystanders = p.bystanders := by
  simp [Part.bystanders, Part.sendTurn_taken]

theorem Part.turnNotSent_bystanders {what : TurnWhat} (h : what.endsNoCall = true) (p : Part) :
    (p.turnNotSent what).bystanders = p.bystanders := by
  cases what with
  | recallAccept | receipt _ => exact absurd h Bool.false_ne_true
  | _ => rfl

theorem Part.turn_bystanders {what : TurnWhat} (h : what.endsNoCall = true) (dest : StationNo) (kind : Nat) (payload : Bytes)
    (p : Part) : (p.turn what dest kind payload).bystanders = p.bystanders := by
  have hsend := p.sendTurn_bystanders what dest kind payload
  unfold Part.turn
  split
  · next q hq => rwa [hq] at hsend
  · next q hq => rw [hq] at hsend; rw [Part.turnNotSent_bystanders h, hsend]

theorem Part.giveBackAll_taken (bs : List Buf) (p : Part) : (p.giveBackAll bs).fwd.taken = p.fwd.taken :=
  foldl_keep (fun q => q.fwd.taken) (fun q b => q.giveBack b) (fun _ _ => rfl) bs p

theorem Forwarding.setQueue_taken (f : Forwarding) (c : Cls) (q : List QFrame) : (f.setQueue c q).taken = f.taken := by
  cases c <;> rfl

theorem Part.withdraw_bystanders (c : Cls) (o : FrameOwner) (p : Part) : (p.withdraw c o).2.bystanders = p.bystanders := by
  unfold Part.withdraw
  split_ifs
  · simp [Part.bystanders, Forwarding.setQueue_taken]
  · simp [Part.bystanders, Part.removeQueued, Part.giveBackAll_taken, Forwarding.setQueue_taken]
  · rfl

theorem Part.replaceDeferred_bystanders (caller : StationNo) (tag : Byte) (p : Part) :
    (p.replaceDeferred caller tag).bystanders = p.bystanders := by
  unfold Part.replaceDeferred
  split
  · unfold Part.removeDeferred
    dsimp only
    split_ifs
    · exact Part.withdraw_bystanders _ _ _
    · rfl
  · rfl

theorem Part.deferCall_bystanders (caller : StationNo) (tag : Byte) (r : Request) (p : Part) :
    (p.deferCall caller tag r).bystanders = p.bystanders := by
  unfold Part.deferCall
  dsimp only
  split_ifs
  · rw [Part.turn_bystanders rfl, Part.replaceDeferred_bystanders]
  · rw [Part.turn_bystanders rfl]
    exact p.replaceDeferred_bystanders caller tag

/-! ### a recall tag not in use (R20, R22) -/

/-- Where the tag chosen is in use, so is every tag passed over, and the last one tried. -/
theorem freshTag_mem {used : List Byte} {n : Nat} {t : Byte} (h : freshTag used n t ∈ used) :
    ∀ i ≤ n, t + BitVec.ofNat 8 i ∈ used := by
  induction n generalizing t with
  | zero =>
    intro i hi
    obtain rfl : i = 0 := by omega
    simpa [freshTag] using h
  | succ n ih =>
    by_cases ht : t ∈ used
    · simp only [freshTag, ht, if_true] at h
      intro i hi
      cases i with
      | zero => simpa using ht
      | succ i =>
        have hnext := ih h i (by omega)
        rwa [show t + BitVec.ofNat 8 (i + 1) = t + 1 + BitVec.ofNat 8 i by
          rw [Nat.add_comm, BitVec.ofNat_add, ← BitVec.add_assoc]; rfl]
    · simp only [freshTag, ht, if_false] at h

/-- With no more tags in use than may be passed over, the tag chosen is fresh. -/
theorem freshTag_notMem {used : List Byte} {n : Nat} (t : Byte) (hn : n < 256) (h : used.length ≤ n) :
    freshTag used n t ∉ used := by
  intro hmem
  have hnodup : ((List.range (n + 1)).map fun i => t + BitVec.ofNat 8 i).Nodup := by
    refine List.Nodup.map_on (fun i hi j hj hij => ?_) List.nodup_range
    simp only [List.mem_range] at hi hj
    have hnat := congrArg BitVec.toNat (add_left_cancel hij)
    simp only [BitVec.toNat_ofNat] at hnat
    omega
  have hsub : ((List.range (n + 1)).map fun i => t + BitVec.ofNat 8 i) ⊆ used := by
    intro x hx
    obtain ⟨i, hi, rfl⟩ := List.mem_map.mp hx
    exact freshTag_mem hmem i (by simpa [Nat.lt_succ_iff] using hi)
  have hle := (hnodup.subperm hsub).length_le
  rw [List.length_map, List.length_range] at hle
  omega

/-! ### the verdict (R22, R34, R35) -/

theorem Joining.nightExchange_iff (j : Joining) : j.nightExchange = true ↔ j = .sync ∨ j = .ready := by
  cases j <;> decide

theorem Part.verdict_malformed {payload : Bytes} (p : Part) (h : parseRequest payload = none) :
    p.verdict payload = .refuse .unknownKind := by
  simp [Part.verdict, h]

theorem Part.verdict_request {payload : Bytes} {r : Request} (p : Part) (h : parseRequest payload = some r) :
    p.verdict payload =
      if ¬ (p.pres.joining = .sync ∨ p.pres.joining = .ready) then .refuse .notReady
      else if r.serves p = true then .accept r
      else if r.staged p = true then .defer r
      else .refuse .noSuchGen := by
  simp only [← Joining.nightExchange_iff]
  cases r <;> simp [Part.verdict, h, Request.serves, Request.staged]

/-! ### CALL (R22) -/

section
variable {p : Part} {it : RxItem} {b : BranchBody} (hheard : p.branchFrame .calls kindCall = some (it, b))
include hheard

theorem Part.callReceived_connected (hconn : p.call.conn.isSome = true) : p.callReceived = (p.consume it).stray := by
  simp [Part.callReceived, hheard, hconn]

variable (hconn : p.call.conn = none)
include hconn

theorem Part.callReceived_refuse {r : Reason} (hv : p.verdict b.payload = .refuse r) :
    p.callReceived =
      (p.consume it).turn .answerRefuse it.station kindAnswer
        (answerPayload (callTagOf b.payload) 3 (BitVec.ofNat 8 r.code)) := by
  have hv' : (p.consume it).verdict b.payload = .refuse r := hv
  simp [Part.callReceived, hheard, hconn, hv']

theorem Part.callReceived_defer {r : Request} (hv : p.verdict b.payload = .defer r) :
    p.callReceived = (p.consume it).deferCall it.station (callTagOf b.payload) r := by
  have hv' : (p.consume it).verdict b.payload = .defer r := hv
  simp [Part.callReceived, hheard, hconn, hv']

theorem Part.callReceived_accept {r : Request} (hv : p.verdict b.payload = .accept r) :
    p.callReceived =
      ((p.consume it).setConn
        (some ⟨.callee, it.station, callTagOf b.payload, r, .awaitSend, 0, 0, 0, 0, 0, false⟩)).turn .answerAccept it.station
        kindAnswer (answerPayload (callTagOf b.payload) 0 0) := by
  have hv' : (p.consume it).verdict b.payload = .accept r := hv
  simp [Part.callReceived, hheard, hconn, hv']

end

/-- A CALL moves the line, the pool, the call lists and memory, and takes its own frame alone (R22, R62). -/
theorem Part.callReceived_bystanders {p : Part} {it : RxItem} {b : BranchBody}
    (hheard : p.branchFrame .calls kindCall = some (it, b)) : p.callReceived.bystanders = (p.consume it).bystanders := by
  cases hc : p.call.conn with
  | some c => rw [Part.callReceived_connected hheard (by simp [hc])]; rfl
  | none =>
    cases hv : p.verdict b.payload with
    | refuse r => rw [Part.callReceived_refuse hheard hc hv]; exact Part.turn_bystanders rfl _ _ _ _
    | defer r => rw [Part.callReceived_defer hheard hc hv]; exact Part.deferCall_bystanders _ _ _ _
    | accept r => rw [Part.callReceived_accept hheard hc hv]; exact Part.turn_bystanders rfl _ _ _ _

/-- After a frame taken, an open turn gap still lets a turn frame go. -/
theorem State.turnOpen.consume {s : State} (h : s.turnOpen) (it : RxItem) : (s.part.consume it).turnCanGo := by
  obtain ⟨hgap, hrest, hfree, hpool⟩ := h
  refine ⟨hgap, hrest, ?_, fun n hn => hpool n ?_⟩
  · simp only [Part.consume_eq, Forwarding.giveBack, Forwarding.without, List.length_append]
    omega
  · cases hl : s.part.fwd.free with
    | nil => simp [hl] at hfree
    | cons m rest => simp [Part.consume_eq, Forwarding.giveBack, Forwarding.without, hl] at hn; simp [hn]

theorem answerPayload_fits (tag : Byte) (verdict : Nat) (third : Byte) :
    (answerPayload tag verdict third).length + 3 ≤ Config.bufferBytes := by
  simp [answerPayload, Config.bufferBytes]

/-- An ANSWER that can go, goes, and leaves the call lists. -/
theorem Part.turnCanGo.answer {p : Part} (h : p.turnCanGo) (what : TurnWhat) (dest : StationNo) (tag : Byte) (verdict : Nat)
    (third : Byte) :
    (p.turn what dest kindAnswer (answerPayload tag verdict third)).call = p.call ∧
      (p.turn what dest kindAnswer (answerPayload tag verdict third)).sends what
        (plainBody dest.val kindAnswer [tag, BitVec.ofNat 8 verdict, third]) :=
  (h.turn what dest kindAnswer (answerPayload_fits tag verdict third)).symm

/-- A PRICE FETCH that must wait, of a caller with no deferred entry under that tag: BUSY where the list is full, else DEFER with
a fresh recall tag (R22). -/
theorem Part.deferCall_answers {p : Part} (h : p.turnCanGo) (caller : StationNo) (tag : Byte) (r : Request)
    (hnew : ∀ d ∈ p.call.deferred, ¬ (d.caller = caller ∧ d.callTag = tag)) :
    if 4 ≤ p.call.deferred.length then
      (p.deferCall caller tag r).call = p.call ∧
        (p.deferCall caller tag r).sends .answerBusy (plainBody caller.val kindAnswer [tag, 2, 0])
    else
      ∃ rt : Byte, (∀ d ∈ p.call.deferred, d.recallTag ≠ rt) ∧
        (p.deferCall caller tag r).call =
          { p.call with
            recallTag := rt + 1, deferred := p.call.deferred ++ [⟨caller, tag, rt, r, .reserved, false, false⟩] } ∧
        (p.deferCall caller tag r).sends (.answerDefer rt) (plainBody caller.val kindAnswer [tag, 1, rt]) := by
  have hnone : p.call.deferred.find? (fun d => decide (d.caller = caller) && decide (d.callTag = tag)) = none := by
    simpa [List.find?_eq_none] using hnew
  have hreplace : p.replaceDeferred caller tag = p := by simp [Part.replaceDeferred, hnone]
  simp only [Part.deferCall, hreplace, Config.callSlots]
  split_ifs with hfull
  · exact h.answer _ _ _ _ _
  · refine ⟨_, fun d hd heq => ?_, Part.turnCanGo.answer (p := p.modCall _) h _ _ _ _ _⟩
    have hfresh := freshTag_notMem (used := p.call.deferred.map (·.recallTag)) (n := 4) p.call.recallTag (by decide)
      (by rw [List.length_map]; omega)
    exact hfresh (List.mem_map.mpr ⟨d, hd, heq⟩)

end Sys2Proof.Machine

open Sys2Proof.Machine

/-- Settles O15: the verdict of R22 decides, and each verdict is answered in its own way. -/
theorem callGetsItsVerdict : Obligations.CallGetsItsVerdict := by
  intro s it b hev hheard
  have hrun := exec_of_run (c := .callReceived) (f := Part.callReceived) (fun _ => rfl) hev
  obtain ⟨hlinks, hprice, htrk, htaken⟩ := (Part.bystanders_iff _ _).mp (Part.callReceived_bystanders hheard)
  refine ⟨_, hrun, State.unchanged_of_part _ _ _ fun x hx => ?_, ?_, fun hconn => ?_, fun hconn hopen hlen => ?_⟩
  · cases x <;> simp [Piece.same] at hx ⊢ <;> assumption
  · simp [htaken, Part.consume_eq, Forwarding.giveBack]
  · rw [Part.callReceived_connected hheard hconn]
    simp [Part.stray, Part.consume_eq]
  · have htag : callTagOf b.payload = byteAt b.payload 1 := by simp [callTagOf]; omega
    have hgo := hopen.consume it
    simp only [State.settle_call, State.sends_settle]
    cases hreq : parseRequest b.payload with
    | none =>
      rw [Part.callReceived_refuse hheard hconn (s.part.verdict_malformed hreq), htag]
      exact hgo.answer _ _ _ _ _
    | some r =>
      have hv := s.part.verdict_request hreq
      dsimp only
      by_cases hjoin : s.part.pres.joining = .sync ∨ s.part.pres.joining = .ready
      · rw [if_neg (not_not.mpr hjoin)] at hv ⊢
        by_cases hserves : r.serves s.part = true
        · rw [if_pos hserves] at hv ⊢
          rw [Part.callReceived_accept hheard hconn hv, htag]
          have hset : ∀ c, ((s.part.consume it).setConn c).turnCanGo := fun _ => hgo
          exact (hset _).answer _ _ _ _ _
        · rw [if_neg hserves] at hv ⊢
          by_cases hstaged : r.staged s.part = true
          · rw [if_pos hstaged] at hv ⊢
            rw [Part.callReceived_defer hheard hconn hv, htag]
            exact Part.deferCall_answers hgo _ _ _
          · rw [if_neg hstaged] at hv ⊢
            rw [Part.callReceived_refuse hheard hconn hv, htag]
            exact hgo.answer _ _ _ _ _
      · rw [if_pos hjoin] at hv ⊢
        rw [Part.callReceived_refuse hheard hconn hv, htag]
        exact hgo.answer _ _ _ _ _
end

section
/-! PROOFS. RECALL, and the answer to it. -/

open Sys2Proof
namespace Sys2Proof.Machine

/-! ### a turn frame that goes moves no owner of calls (R9) -/

theorem Part.turnCanGo.turn_eq {p : Part} (h : p.turnCanGo) (what : TurnWhat) (dest : StationNo) (kind : Nat)
    (payload : Bytes) : p.turn what dest kind payload = (p.sendTurn what dest kind payload).2 := by
  obtain ⟨hgap, hrest, hfree, -⟩ := h
  obtain ⟨n, rest, hlist⟩ : ∃ n rest, p.fwd.free = n :: rest := List.exists_cons_of_length_pos (by omega)
  have hbuild := Part.build_other .lineBuild p (plainBody dest.val kind payload) n rest hlist hfree
  simp [Part.turn, Part.sendTurn, hbuild, hgap, hrest]

theorem Part.turnCanGo.turn_bystanders {p : Part} (h : p.turnCanGo) (what : TurnWhat) (dest : StationNo) (kind : Nat)
    (payload : Bytes) : (p.turn what dest kind payload).bystanders = p.bystanders := by
  rw [h.turn_eq, Part.sendTurn_bystanders]

/-- What a turn frame does to the blocks, where the call lists were changed before it and it ends no call. -/
theorem State.unchanged_of_turn {s : State} {p : Part} {f : Forwarding} {k : Calls}
    (hp : p = { s.part with fwd := f, call := k }) {what : TurnWhat} {dest : StationNo} {kind : Nat} {payload : Bytes}
    (hby : (p.turn what dest kind payload).bystanders = p.bystanders) :
    Unchanged [.branch, .fwd, .call, .memory] s { s with part := p.turn what dest kind payload }.settle := by
  obtain ⟨hlinks, hprice, htrk, -⟩ := (Part.bystanders_iff _ _).mp hby
  refine State.unchanged_of_part _ _ _ fun x hx => ?_
  cases x <;> simp [Piece.same, hlinks, hprice, htrk] at hx ⊢ <;> simp [hp]

/-- A piece named beside a frame, and found as it was, need not be named. -/
theorem Unchanged.erase {but : List Piece} {s t : State} (h : Unchanged but s t) {x : Piece} (hx : x.same s t) :
    Unchanged (but.filter fun y => decide (y ≠ x)) s t := fun y hy => by
  by_cases hyx : y = x
  · exact hyx ▸ hx
  · exact h y fun hmem => hy (by simp [hmem, hyx])

/-! ### RECALL at the caller (R31) -/

theorem Part.recalled_single {p : Part} {e : OpenCall} {peer : StationNo} {tag rt : Byte} (hopens : p.call.opens = [e])
    (hpeer : e.peer = peer) (htag : e.tag = tag) (hstate : e.state = .waitingRecall) (hrt : e.recallTag = rt) :
    p.recalled peer tag rt = some e := by
  simp [Part.recalled, hopens, hpeer, htag, hstate, hrt]

theorem Part.recalled_none {p : Part} {peer : StationNo} {tag rt : Byte}
    (h : ∀ e ∈ p.call.opens, ¬ (e.peer = peer ∧ e.tag = tag ∧ e.state = .waitingRecall ∧ e.recallTag = rt)) :
    p.recalled peer tag rt = none := by
  simpa [Part.recalled, List.find?_eq_none] using h

section
variable {p : Part} {it : RxItem} {b : BranchBody} (hheard : p.branchFrame .calls kindRecall = some (it, b))
  (hconn : p.call.conn = none)
include hheard hconn

theorem Part.recallReceived_found {e : OpenCall}
    (he : p.recalled it.station (byteAt b.payload 0) (byteAt b.payload 1) = some e) :
    p.recallReceived = (p.consume it).takeRecall e := by
  have he' : (p.consume it).recalled it.station (byteAt b.payload 0) (byteAt b.payload 1) = some e := he
  simp [Part.recallReceived, hheard, hconn, he']

theorem Part.recallReceived_stale (he : p.recalled it.station (byteAt b.payload 0) (byteAt b.payload 1) = none) :
    p.recallReceived =
      (p.consume it).turn .recallStale it.station kindAnswer
        (answerPayload (byteAt b.payload 0) 3 (BitVec.ofNat 8 Reason.stale.code)) := by
  have he' : (p.consume it).recalled it.station (byteAt b.payload 0) (byteAt b.payload 1) = none := he
  simp [Part.recallReceived, hheard, hconn, he']
end

/-- The call lists of a caller whose only open call has been recalled (R31). -/
def Calls.recalled (k : Calls) (e : OpenCall) : Calls :=
  { k with
    opens := [{ e with state := .connected, recallTimer := false, stage := max 2 e.stage }]
    conn := some ⟨.caller, e.peer, e.tag, e.request, .awaitData, 0, 0, 0, 0, 0, false⟩ }

theorem Part.takeRecall_single {p : Part} {e : OpenCall} (h : p.call.opens = [e]) :
    p.takeRecall e =
      ({ p with call := p.call.recalled e } : Part).turn .recallAccept e.peer kindAnswer (answerPayload e.tag 0 0) := by
  simp [Part.takeRecall, Part.setOpen, Part.setConn, Part.modCall, Calls.recalled, h]

/-! ### the answer to a RECALL at the callee (R30) -/

/-- The deferred list without the entry a RECALL was sent for. -/
def Calls.notRecalling (k : Calls) (c : Conn) : List Deferred :=
  k.deferred.filter fun d => !(decide (d.state = .recalling) && decide (d.caller = c.peer) && decide (d.callTag = c.tag))

theorem Part.dropRecalling_eq (c : Conn) (p : Part) :
    p.dropRecalling c = { p with call := { p.call with deferred := p.call.notRecalling c } } := by
  simp [Part.dropRecalling, Part.modCall, Calls.notRecalling, Bool.not_and]

section
variable {p : Part} {it : RxItem} {b : BranchBody} {c : Conn} (hheard : p.branchFrame .calls kindAnswer = some (it, b))
  (hconn : p.call.conn = some c) (hphase : c.phase = .awaitRecallAnswer) (hpeer : c.peer = it.station)
  (htag : c.tag = byteAt b.payload 0)
include hheard hconn hphase hpeer htag

theorem Part.recallAnswerReceived_own :
    p.recallAnswerReceived = (p.consume it).recallAnswered c (parseVerdict b.payload) := by
  simp [Part.recallAnswerReceived, hheard, Part.phase_of hconn, hphase, Part.connFor_of hconn hpeer htag]

/-- Any verdict but ACCEPT closes the connection, and the recall is counted stale (R30). -/
theorem Part.recallAnswerReceived_other (hv : parseVerdict b.payload ≠ some .accept) :
    p.recallAnswerReceived =
      { p.consume it with
        call :=
          { p.call with
            conn := none, deferred := p.call.notRecalling c
            ctr := { p.call.ctr with recallsStale := bump p.call.ctr.recallsStale } } } := by
  rw [Part.recallAnswerReceived_own hheard hconn hphase hpeer htag]
  unfold Part.recallAnswered
  split
  · next h => exact absurd h hv
  · rw [Part.dropRecalling_eq]; rfl

/-- ACCEPT is followed by the first DATA, or END (R30, R34). -/
theorem Part.recallAnswerReceived_accept (hv : parseVerdict b.payload = some .accept) :
    p.recallAnswerReceived =
      ({ p.consume it with
        call :=
          { p.call with
            conn := some { c with phase := .awaitSend }, deferred := p.call.notRecalling c } } : Part).sendNext
        { c with phase := .awaitSend, position := c.request.start p, count := 0, sent := 0 } := by
  rw [Part.recallAnswerReceived_own hheard hconn hphase hpeer htag, hv, Part.recallAnswered, Part.dropRecalling_eq]
  simp only [Part.sendFirst]
  cases c.request <;> rfl
end

end Sys2Proof.Machine

open Sys2Proof.Machine

/-- Settles O20: a RECALL by the open call it finds, its answer by the verdict. -/
theorem recallFindsItsCall : Obligations.RecallFindsItsCall := by
  refine ⟨fun s it b hev hheard hconn hopen => ?_, fun s it b c hev hheard hconn hphase hpeer htag => ?_⟩
  · have hrun := exec_of_run (c := .recallReceived) (f := Part.recallReceived) (fun _ => rfl) hev
    have hgo := hopen.consume it
    refine ⟨fun e hopens hep htag hstate hrt => ?_, fun hnone => ?_⟩
    · rw [Part.recallReceived_found hheard hconn (Part.recalled_single hopens hep htag hstate hrt),
        Part.takeRecall_single (p := s.part.consume it) hopens, hep] at hrun
      have hgo' : ({ s.part.consume it with call := (s.part.consume it).call.recalled e } : Part).turnCanGo := hgo
      obtain ⟨hcall, hsends⟩ := hgo'.answer .recallAccept it.station e.tag 0 0
      refine ⟨_, hrun, ?_, ?_, State.unchanged_of_turn rfl (hgo'.turn_bystanders _ _ _ _)⟩
      · rw [State.settle_call, hcall, ← hep]; rfl
      · rw [State.sends_settle]; exact hsends
    · rw [Part.recallReceived_stale hheard hconn (Part.recalled_none hnone)] at hrun
      obtain ⟨hcall, hsends⟩ := hgo.answer .recallStale it.station (byteAt b.payload 0) 3 (BitVec.ofNat 8 Reason.stale.code)
      have hstands : ({ s with part := _ } : State).settle.part.call = s.part.call := (State.settle_call _).trans hcall
      refine ⟨_, hrun, hstands, ?_,
        (State.unchanged_of_turn rfl (hgo.turn_bystanders _ _ _ _)).erase (x := .call) hstands⟩
      rw [State.sends_settle]; exact hsends
  · have hrun := exec_of_run (c := .recallAnswerReceived) (f := Part.recallAnswerReceived) (fun _ => rfl) hev
    refine ⟨fun hv => ?_, fun hv hopen => ?_⟩
    · rw [Part.recallAnswerReceived_other hheard hconn hphase hpeer htag hv] at hrun
      exact ⟨_, hrun, by simp [Calls.notRecalling], by simp [Part.consume_eq], State.unchanged_of_fwd_call rfl⟩
    · rw [Part.recallAnswerReceived_accept hheard hconn hphase hpeer htag hv] at hrun
      have hb : Conn.begins { c with phase := .awaitSend, position := c.request.start s.part, count := 0, sent := 0 } :=
        ⟨rfl, rfl, rfl⟩
      have hgo : ({ s.part.consume it with
          call :=
            { s.part.call with
              conn := some { c with phase := .awaitSend }, deferred := s.part.call.notRecalling c } } : Part).turnCanGo :=
        hopen.consume it
      exact ⟨_, hrun, State.handsOver_sendNext (s := { s with part := _ }) hgo hb, State.unchanged_of_sendNext hgo hb rfl⟩
end

section
/-! PROOFS. The data phase at the callee: DATA sent on or again, END, and what a RECEIPT makes of the connection. -/

open Sys2Proof
namespace Sys2Proof.Machine

/-! ### END, sent first or again (R24, R26) -/

theorem Part.sendEnd_goes {p : Part} (h : p.turnCanGo) (c : Conn) :
    (p.sendEnd c).sends .endFrame
        (plainBody c.peer.val kindEnd (endPayload c.tag c.sent c.request (p.serveTail c.request))) ∧
      (p.sendEnd c).call =
        { p.call with
          conn := some { c with phase := .awaitSilence, times := if c.phase = .awaitSilence then c.times + 1 else 1 } } := by
  have hlen := endPayload_length c.tag c.sent c.request (p.serveTail c.request)
  have hset : ∀ x, (p.setConn x).turnCanGo := fun _ => h
  exact (hset _).turn _ _ _ (by simp only [Config.bufferBytes]; omega)

/-! ### a DATA fits its buffer (R34, R35) -/

theorem Part.pullRecords_lengths (n s : Nat) (p : Part) :
    (p.pullRecords n s).1.length ≤ n ∧ ∀ r ∈ (p.pullRecords n s).1, r.length = Config.recordBytes := by
  induction n generalizing p s with
  | zero => simp [Part.pullRecords]
  | succ n ih =>
    have hfst := p.readJournal_fst .pull s
    unfold Part.pullRecords
    split
    · next bs q h =>
      rw [h] at hfst
      obtain ⟨hlen, hall⟩ := ih (s + 1) q
      exact ⟨Nat.succ_le_succ hlen, List.forall_mem_cons.mpr ⟨Part.readAnswer_length hfst.symm, hall⟩⟩
    · simp

/-- One DATA holds 15 records of 64 bytes, or 42 of 24. -/
theorem Part.serveRecords_lengths (req : Request) (pos most : Nat) (p : Part) :
    (p.serveRecords req pos most).1.flatten.length ≤ 1008 := by
  cases req with
  | pull f m =>
    obtain ⟨hlen, hall⟩ := p.pullRecords_lengths (min most Config.pullPerData) pos
    have hflat := flatten_length hall
    simp only [Part.serveRecords, Config.recordBytes, Config.pullPerData] at hlen hflat ⊢
    omega
  | fetch g f m =>
    simp only [Part.serveRecords]
    split
    · rw [flatten_length (k := 24) fun r hr => by
        obtain ⟨i, -, rfl⟩ := List.mem_map.mp hr
        exact p.fetchRecord_length g _]
      simp only [List.length_map, List.length_range, Config.fetchPerData]
      omega
    · simp

theorem Part.dataPayload_fits (p q : Part) (tag : Byte) (req : Request) (pos most : Nat) :
    (q.dataPayload tag req pos (p.serveRecords req pos most).1).length + 3 ≤ Config.bufferBytes := by
  have hflat := p.serveRecords_lengths req pos most
  cases req <;>
    simp only [Part.dataPayload, pullDataPayload, fetchDataPayload, List.length_append, be_length, List.length_singleton,
      Config.bufferBytes] <;>
    omega

/-! ### DATA, sent on or again (R24, R26) -/

section
variable {p : Part} (h : p.turnCanGo) (c : Conn) (pos most : Nat) (again : Bool)
include h

/-- Where there is no record, END is handed over. -/
theorem Part.sendData_ends (hnone : (p.serveRecords c.request pos most).1 = []) :
    p.sendData c pos most again = (p.serveRecords c.request pos most).2.sendEnd { c with phase := .awaitReceipt } := by
  simp [Part.sendData, h.grants, hnone]

theorem Part.sendData_turn (hsome : (p.serveRecords c.request pos most).1 ≠ []) :
    p.sendData c pos most again =
      ((p.serveRecords c.request pos most).2.setConn
        (some
          { c with
            phase := .awaitReceipt, position := pos, count := (p.serveRecords c.request pos most).1.length
            times := if again then c.times + 1 else 1 })).turn .data c.peer kindData
        (p.dataPayload c.tag c.request pos (p.serveRecords c.request pos most).1) := by
  have hpayload : ∀ recs, (p.serveRecords c.request pos most).2.dataPayload c.tag c.request pos recs =
      p.dataPayload c.tag c.request pos recs := fun recs => by
    simp only [Part.dataPayload, Part.serveTail_serveRecords]
  simp [Part.sendData, h.grants, hsome, hpayload]

/-- The records found are handed over in one DATA. -/
theorem Part.sendData_goes (hsome : (p.serveRecords c.request pos most).1 ≠ []) :
    (p.sendData c pos most again).sends .data
        (plainBody c.peer.val kindData (p.dataPayload c.tag c.request pos (p.serveRecords c.request pos most).1)) ∧
      (p.sendData c pos most again).call =
        { p.call with
          conn :=
            some
              { c with
                phase := .awaitReceipt, position := pos, count := (p.serveRecords c.request pos most).1.length
                times := if again then c.times + 1 else 1 } } := by
  have hset : ∀ x, ((p.serveRecords c.request pos most).2.setConn x).turnCanGo := fun _ =>
    Part.serveRecords_turnCanGo pos most h c.request
  rw [Part.sendData_turn h c pos most again hsome]
  obtain ⟨hsends, hcall⟩ := (hset _).turn .data c.peer kindData (p.dataPayload_fits p c.tag c.request pos most)
  exact ⟨hsends, hcall.trans (by simp)⟩

/-- Whatever is handed over, the journal unit has read the records of one DATA. -/
theorem Part.sendData_reads : (p.sendData c pos most again).jrn = (p.serveRecords c.request pos most).2.jrn := by
  by_cases hnone : (p.serveRecords c.request pos most).1 = []
  · rw [Part.sendData_ends h c pos most again hnone]; simp
  · rw [Part.sendData_turn h c pos most again hnone]; simp

theorem Part.sendData_bystanders : (p.sendData c pos most again).bystanders = p.bystanders := by
  have hserve : (p.serveRecords c.request pos most).2.bystanders = p.bystanders := by simp [Part.bystanders]
  by_cases hnone : (p.serveRecords c.request pos most).1 = []
  · rw [Part.sendData_ends h c pos most again hnone]
    exact (Part.turn_bystanders rfl _ _ _ _).trans hserve
  · rw [Part.sendData_turn h c pos most again hnone]
    exact (Part.turn_bystanders rfl _ _ _ _).trans hserve

end

/-- What a callee hands over from any position is what its request asks for (R24, R26, R34, R35). -/
theorem State.handsOver_sendData {s : State} (h : s.part.turnCanGo) (c : Conn) (pos most : Nat) (again : Bool) :
    s.handsOver s.part.call c pos most (if again then c.times + 1 else 1)
      { s with part := s.part.sendData c pos most again }.settle := by
  have hreads := Part.sendData_reads h c pos most again
  have hgoes := Part.sendData_goes h c pos most again
  have hends := Part.sendData_ends h c pos most again
  unfold State.handsOver
  simp only [State.settle_jrn, State.settle_call, State.sends_settle]
  refine ⟨fun f m recs hreq hserves => ?_, fun g f m n hreq hheld hm hpos hn => ?_⟩
  · obtain ⟨hlen, hrecs, hstop⟩ := hserves
    obtain ⟨hfst, hjrn⟩ := s.part.pullRecords_eq hlen hrecs hstop
    have hserve : (s.part.serveRecords c.request pos most).1 = recs := by rw [hreq]; exact hfst
    have hsnd : (s.part.serveRecords c.request pos most).2.jrn = s.part.pullReads pos most recs := by rw [hreq]; exact hjrn
    have htail : s.part.serveTail c.request = s.part.jrn.next := by rw [hreq]; rfl
    rw [hserve] at hgoes hends
    refine ⟨hreads.trans hsnd, fun hne => ?_, fun hnil => ?_⟩
    · obtain ⟨hsends, hcall⟩ := hgoes hne
      exact ⟨hcall, by simpa only [hreq, Part.dataPayload, Part.serveTail] using hsends⟩
    · obtain ⟨hsends, hcall⟩ :=
        Part.sendEnd_goes (Part.serveRecords_turnCanGo pos most h c.request) { c with phase := .awaitReceipt }
      rw [Part.serveTail_serveRecords, htail] at hsends
      rw [hends hnil]
      exact ⟨hcall.trans (by simp), hsends⟩
  · have hserve : s.part.serveRecords c.request pos most =
        ((List.range n).map fun i => s.part.fetchRecord g (pos + i),
          s.part.loads .fetchService (n + s.part.fetchMapBursts g pos n)) := by
      simp [hreq, Part.serveRecords, hheld, hn, Config.fetchPerData]
    have hsome : (List.range n).map (fun i => s.part.fetchRecord g (pos + i)) ≠ [] := by
      have : n ≠ 0 := by omega
      simpa using this
    rw [hserve] at hgoes hreads
    obtain ⟨hsends, hcall⟩ := hgoes hsome
    refine ⟨by simpa using hreads, by simpa using hcall, ?_⟩
    simpa [hreq, Part.dataPayload, Part.serveTail, hheld] using hsends

/-! ### RECEIPT (R26) -/

/-- GOOD for the last frame of the service: END follows, with the count of records sent. -/
theorem Part.takeReceipt_last {c : Conn} {enough : Bool}
    (h : c.enough = true ∨ enough = true ∨ c.request.maximum ≤ c.sent + c.count) (p : Part) :
    p.takeReceipt c true enough = p.sendEnd { c with enough := c.enough || enough, sent := c.sent + c.count } := by
  by_cases henough : (c.enough || enough) = true
  · simp [Part.takeReceipt, henough]
  · have hmax : c.request.maximum ≤ c.sent + c.count := by
      rcases h with h | h | h
      · simp [h] at henough
      · simp [h] at henough
      · exact h
    simp [Part.takeReceipt, henough, Part.sendNext, hmax]

/-- GOOD with records still to be sent: the next DATA, from the record after the last one sent. -/
theorem Part.takeReceipt_more {c : Conn} (henough : c.enough = false) (h : c.sent + c.count < c.request.maximum) (p : Part) :
    p.takeReceipt c true false =
      p.sendData { c with sent := c.sent + c.count } (c.position + c.count) (c.request.maximum - (c.sent + c.count)) false := by
  simp [Part.takeReceipt, henough, Part.sendNext, Conn.nextPosition, Nat.not_le.mpr h]

/-- BAD: the frame again, or the end of the service where it has been sent twice. -/
theorem Part.takeReceipt_bad (c : Conn) (enough : Bool) (p : Part) :
    p.takeReceipt c false enough =
      if 2 ≤ c.times then p.servedBroken
      else p.sendData { c with enough := c.enough || enough } c.position c.count true := by
  simp [Part.takeReceipt]

theorem State.unchanged_of_sendEnd {s : State} {p : Part} {f : Forwarding} {k : Calls}
    (hp : p = { s.part with fwd := f, call := k }) (c : Conn) : Unchanged [.branch, .fwd, .call, .memory] s { s with part := p.sendEnd c }.settle := by
  subst hp
  exact State.unchanged_of_turn rfl (Part.turn_bystanders rfl _ _ _ _)

theorem State.unchanged_of_sendData {s : State} {p : Part} (h : p.turnCanGo) {f : Forwarding} {k : Calls}
    (hp : p = { s.part with fwd := f, call := k }) (c : Conn) (pos most : Nat) (again : Bool) :
    Unchanged [.branch, .fwd, .call, .jrn, .memory] s { s with part := p.sendData c pos most again }.settle := by
  obtain ⟨hlinks, hprice, htrk, -⟩ := (Part.bystanders_iff _ _).mp (Part.sendData_bystanders h c pos most again)
  refine State.unchanged_of_part _ _ _ fun x hx => ?_
  cases x <;> simp [Piece.same, hlinks, hprice, htrk] at hx ⊢ <;> simp [hp]

end Sys2Proof.Machine

open Sys2Proof.Machine

/-- Settles O18: a RECEIPT by the phase, by GOOD or BAD, and by what is left to send. -/
theorem receiptMovesTheService : Obligations.ReceiptMovesTheService := by
  intro s it b c good enough hev hheard hconn hpeer htag hparse hopen
  have hgo := hopen.consume it
  have hfor : ∀ phases, c.phase ∈ phases → s.part.connFor it (byteAt b.payload 0) phases = some c := fun _ =>
    Part.connFor_of hconn hpeer htag
  have hreceipt : c.phase = .awaitReceipt → exec .receiptReceived s =
      .next { s with part := (s.part.consume it).takeReceipt c good enough }.settle := fun hphase => by
    rw [exec_of_run (f := Part.receiptReceived) (fun _ => rfl) hev]
    simp [Part.receiptReceived, hheard, hfor, hphase, hparse]
  have hsilence : c.phase = .awaitSilence → exec .receiptReceived s =
      .next { s with part := (s.part.consume it).receiptAfterEnd c good }.settle := fun hphase => by
    rw [exec_of_run (f := Part.receiptReceived) (fun _ => rfl) hev]
    simp [Part.receiptReceived, hheard, hfor, hphase, hparse]
  refine ⟨fun hphase hgood hend => ?_, fun hphase hgood henough hno hmore => ?_, fun hphase hbad htimes => ?_,
    fun hphase hbad htimes => ?_, fun hphase hbad htimes => ?_, fun hphase hdone => ?_⟩
  · subst hgood
    have hrun := hreceipt hphase
    rw [Part.takeReceipt_last hend] at hrun
    obtain ⟨hsends, hcall⟩ := Part.sendEnd_goes hgo { c with enough := c.enough || enough, sent := c.sent + c.count }
    refine ⟨_, hrun, ?_, ?_, State.unchanged_of_sendEnd rfl _⟩
    · rw [State.settle_call, hcall]; simp [hphase]
    · rw [State.sends_settle, ← hpeer]; exact hsends
  · subst hgood hno
    have hrun := hreceipt hphase
    rw [Part.takeReceipt_more henough hmore] at hrun
    exact ⟨_, hrun, State.handsOver_sendData (s := { s with part := s.part.consume it }) hgo _ _ _ false,
      State.unchanged_of_sendData hgo rfl _ _ _ _⟩
  · subst hbad
    have hrun := hreceipt hphase
    rw [Part.takeReceipt_bad, if_neg (by omega)] at hrun
    exact ⟨_, hrun, State.handsOver_sendData (s := { s with part := s.part.consume it }) hgo _ _ _ true,
      State.unchanged_of_sendData hgo rfl _ _ _ _⟩
  · subst hbad
    have hrun := hreceipt hphase
    rw [Part.takeReceipt_bad, if_pos htimes] at hrun
    exact ⟨_, hrun, by simp [Part.servedBroken], State.unchanged_of_fwd_call rfl⟩
  · subst hbad
    have hrun := hsilence hphase
    rw [Part.receiptAfterEnd, if_neg (by simp; omega)] at hrun
    obtain ⟨hsends, hcall⟩ := Part.sendEnd_goes hgo c
    refine ⟨_, hrun, ?_, ?_, State.unchanged_of_sendEnd rfl _⟩
    · rw [State.settle_call, hcall]; simp [hphase]
    · rw [State.sends_settle, ← hpeer]; exact hsends
  · have hrun := hsilence hphase
    rw [Part.receiptAfterEnd, if_pos hdone] at hrun
    exact ⟨_, hrun, by simp, State.unchanged_of_fwd_call rfl⟩
end

section
/-! PROOFS. A frame of the turn that is lost in front of a complete one. -/

open Sys2Proof
namespace Sys2Proof.Machine

/-! ### a receive FIFO whose arriving frame stands before a complete one (R14, R25, R62)

The statement takes a receive FIFO that has gone as far as it can, which says of its head alone that it waits for bytes or for
its burst. Where the arriving frame stands at the head and a complete frame with all its bytes stored stands behind it, the end of
the first lets the second go on: it is WAITING, and as a PRICE HEAD it joins the inbox of the pricing unit. So a lost frame can
move the pricing unit, where the statement has it unchanged. Bytes join a FIFO at its tail, so a run is not expected to put an
arriving frame before a complete one; the statement holds no premise against it. -/

/-- The buffer of the complete frame, a PRICE HEAD of three bytes. -/
def storedHead : Buf := ⟨100, .plain, 3⟩

/-- The connection of the open PRICE FETCH, in AWAIT DATA. -/
def fetchingConn : Conn := { starvedConn with phase := .awaitData }

/-- A station that fetches, with buffers to be had, a frame without its buffer in reception, and the stored PRICE HEAD behind it
in the receive FIFO. -/
def overtaken : State :=
  { pending := [], supply := { watch := .running }, arb := {}
    part :=
      { branch :=
          { tx := .idle, rxReady := true
            framer :=
              { rx := some (starvedFrame [2, 8, 0, 0, 0])
                fifo := [⟨none, 0, [], false⟩, ⟨some storedHead, 0, [], true⟩] } }
        call := { opens := [starvedCall], conn := some fetchingConn }
        fwd := { free := List.range 16, filling := [⟨storedHead, .branch, .price, 5, false⟩] }
        dram := [(bufAddr storedHead.num + 1, 3)] } }

/-- What waits for the pricing unit in the state a command answers. -/
def pricingInbox : Host.Outcome State Fault Refusal → List Handed
  | .next t => t.part.price.inbox
  | .fault _ | .refused _ => []

/-- The frame in reception stands as the statement takes it: its kind byte come, and the head of the FIFO waiting for bytes. -/
theorem overtaken_reads :
    overtaken.part.reads .branch (starvedFrame [2, 8, 0, 0, 0]) flagBits (Deframe.closedWith [2, 8, 0, 0, 0]) := by
  refine ⟨rfl, by decide +kernel, by decide +kernel, .inl (by decide), by decide +kernel, fun c rest h => ?_⟩
  obtain ⟨rfl, -⟩ := List.cons.inj h
  exact ⟨fun hwhole => absurd hwhole Bool.false_ne_true, fun hready => absurd hready Bool.false_ne_true⟩

/-- Its bad CRC lets the PRICE HEAD behind it join the pricing unit's inbox. -/
theorem overtaken_moves_pricing :
    pricingInbox (exec (.frameReceived .branch [] [] [] [] flagBits) overtaken) =
      [.frame ⟨storedHead, .branch, .price, 5, false⟩] := by
  decide +kernel

end Sys2Proof.Machine

open Sys2Proof.Machine

/-- Refutes O17: a frame of the turn with a bad CRC, answered RECEIPT BAD, lets a PRICE HEAD stored behind it reach the pricing
unit, which the statement has unchanged. -/
theorem not_dataIsReceipted : ¬ Obligations.DataIsReceipted := by
  rintro ⟨-, h⟩
  obtain ⟨hclosed, -⟩ := h overtaken (starvedFrame [2, 8, 0, 0, 0]) (Deframe.closedWith [2, 8, 0, 0, 0]) fetchingConn
    starvedCall rfl rfl rfl rfl rfl rfl rfl
  obtain ⟨t, ht, hbad, -⟩ := hclosed [] [] [] [] flagBits overtaken_reads rfl (by simp) (.inr (by decide +kernel))
    ⟨by decide, by decide⟩ (.inl rfl)
  obtain ⟨-, -, hunchanged⟩ := hbad rfl
  have hprice : t.part.price = overtaken.part.price := hunchanged .price (by decide)
  have hmoved := overtaken_moves_pricing
  rw [ht] at hmoved
  exact absurd (hmoved.symm.trans (congrArg Pricing.inbox hprice)) (by decide +kernel)
end

section
/-! PROOFS. The configuration block, and the second of the station clock. -/

open Sys2Proof
namespace Sys2Proof.Machine

/-! ### changes of joining state that no other block acts on (R48, R139, R171) -/

/-- With the label head DOWN no order is taken (R139). -/
theorem Part.checkOrders_of_head_down (p : Part) (h : p.lab.headUp = false) : p.checkOrders = p := by
  have hgo : p.ordersGo = false := by simp [Part.ordersGo, h]
  unfold Part.checkOrders
  cases p.lab.urgent.length + p.lab.routine.length with
  | zero => rfl
  | succ n => simp [Part.takeOrders, hgo]

/-- No claim is made while the trunk line is not UP (R171). -/
theorem Part.claimCheck_of_line_down (p : Part) (h : p.trk.line ≠ .up) : p.claimCheck = p := by
  unfold Part.claimCheck
  split
  · rfl
  · simp [h]

/-- A joining state is entered to which neither the label orders nor the claim answer, and with which no warm-start pass begins. -/
theorem Part.setJoining_alone {p : Part} {j : Joining} (hlisten : j ≠ .listen) (hfault : j ≠ .lineFault)
    (horders : j.labelOrders = false ∨ p.lab.headUp = false) (hclaim : j.nightExchange = false ∨ p.trk.line ≠ .up) :
    p.setJoining j = p.modPres fun x => { x with joining := j } := by
  have ho : (p.modPres fun x => { x with joining := j }).checkOrders = p.modPres fun x => { x with joining := j } :=
    horders.elim (fun h => Part.checkOrders_of_no_orders _ h) (fun h => Part.checkOrders_of_head_down _ h)
  have hc : (p.modPres fun x => { x with joining := j }).claimCheck = p.modPres fun x => { x with joining := j } :=
    hclaim.elim (fun h => Part.claimCheck_of_no_night _ h) (fun h => Part.claimCheck_of_line_down _ h)
  simp [Part.setJoining, hlisten, hfault, ho, hc]

/-! ### the configuration block (R37, R55) -/

theorem exec_configReadDone (block : Bytes) (s : State) : exec (.configReadDone block) s = s.run (Part.configRead block) := rfl

/-- A block that passes (R37, R40). -/
theorem Part.configRead_passes {p : Part} {block : Bytes} {c : ConfigBlock} (hj : p.pres.joining = .config)
    (hc : parseConfig block = some c) :
    p.configRead block =
      { p with
        cfg := some c, pres := { p.pres with joining := .selfTest }, branch := { p.branch with loop := true }
        trk := { p.trk with line := if c.trunkFitted = true then .down else .absent }
        fwd := { p.fwd with routes := Vector.ofFn fun i => initialRoute c i.val } } := by
  simp only [Part.configRead, hj, hc, if_true, Part.configPassed]
  rw [Part.setJoining_alone (by decide) (by decide) (.inl rfl) (.inl rfl)]
  rfl

/-- A block that fails (R38). -/
theorem Part.configRead_fails {p : Part} {block : Bytes} (hj : p.pres.joining = .config) (hc : parseConfig block = none) :
    p.configRead block = { p with pres := { p.pres with joining := .configFault } } := by
  simp only [Part.configRead, hj, hc, if_true]
  rw [Part.setJoining_alone (by decide) (by decide) (.inl rfl) (.inl rfl)]
  rfl

/-! ### a second of the clock (R52, R92) -/

theorem exec_clockTick (s : State) : exec .clockTick s = s.run Part.clockTick := rfl

/-- The part after the clock has moved to `c`: a change of minute makes the hold sweep due (R92). -/
def Part.clockAt (c : Clock) (p : Part) : Part :=
  { p with
    pres := { p.pres with clock := c }
    price :=
      if p.pres.clock.minute ≠ c.minute ∨ p.pres.clock.day ≠ c.day then { p.price with sweepDue := true } else p.price }

/-- With no trigger armed none fires (R88). -/
theorem Part.checkTrigger_of_disarmed {p : Part} (h : p.price.trigger = .disarmed) : p.checkTrigger = p := by
  simp [Part.checkTrigger, h]

/-- With no night before and none after, nothing of the window changes (R167). -/
theorem Part.windowChange_none (p : Part) : p.windowChange none none = p := rfl

/-- Outside the night window, before and after, the clock moves itself and the sweep alone. -/
theorem Part.clockTo_outside {p : Part} {c : Clock} (hbefore : p.nightNow = none)
    (hafter : (p.modPres fun x => { x with clock := c }).nightNow = none) (htrigger : p.price.trigger = .disarmed) :
    p.clockTo c = p.clockAt c := by
  have hmoved : p.clockTo c = (p.clockAt c).checkTrigger := by
    unfold Part.clockTo
    dsimp only
    rw [hbefore, hafter, Part.windowChange_none]
    by_cases hminute : p.pres.clock.minute ≠ c.minute ∨ p.pres.clock.day ≠ c.day <;>
      simp [hminute, Part.clockAt, Part.modPres, Part.modPrice]
  have hstill : (p.clockAt c).price.trigger = .disarmed := by
    unfold Part.clockAt
    dsimp only
    split <;> exact htrigger
  rw [hmoved, Part.checkTrigger_of_disarmed hstill]

/-! #### the second, the minute and the day (R52) -/

theorem Clock.advance_second {c : Clock} (h : c.second < 59) : c.advance = { c with second := c.second + 1 } := if_pos h

theorem Clock.advance_minute {c : Clock} (hs : c.second = 59) (hm : c.minute < 1439) :
    c.advance = { c with second := 0, minute := c.minute + 1 } := by
  simp [Clock.advance, hs, hm]

theorem Clock.advance_day {c : Clock} (hs : c.second = 59) (hm : c.minute = 1439) :
    c.advance = { c with second := 0, minute := 0, day := (c.day + 1) % 65536 } := by
  simp [Clock.advance, hs, hm]

end Sys2Proof.Machine

open Sys2Proof.Machine

/-- Settles O22: the part each block leaves is written out by `Part.configRead_passes` and `Part.configRead_fails`. -/
theorem configurationDecides : Obligations.ConfigurationDecides := by
  intro s block hev hj
  refine ⟨fun c hc => ?_, fun hc => ?_⟩
  · refine ⟨_, exec_of_run (exec_configReadDone block) hev, ?_⟩
    rw [Part.configRead_passes hj hc]
    refine ⟨by simp, by simp, by simp, by simp, by simp, State.unchanged_of_part _ _ _ fun b hb => ?_⟩
    cases b <;> simp [Piece.same] at hb ⊢
  · refine ⟨_, exec_of_run (exec_configReadDone block) hev, ?_⟩
    rw [Part.configRead_fails hj hc]
    refine ⟨by simp, State.unchanged_of_part _ _ _ fun b hb => ?_⟩
    cases b <;> simp [Piece.same] at hb ⊢

/-- Settles O28, by the part a moved clock leaves and the three carries of the clock. -/
theorem clockAdvances : Obligations.ClockAdvances := by
  refine fun s hev => ⟨fun hinvalid => ?_, fun c hc hvalid hbefore hafter htrigger => ?_⟩
  · refine ⟨_, exec_of_run exec_clockTick hev, ?_⟩
    have hnothing : s.part.clockTick = s.part := by simp [Part.clockTick, hinvalid]
    rw [hnothing]
    refine State.unchanged_of_part _ _ _ fun b hb => ?_
    cases b <;> simp [Piece.same]
  · subst hc
    have htick : s.part.clockTick = s.part.clockAt s.part.pres.clock.advance := by
      simp only [Part.clockTick, hvalid, if_true]
      exact Part.clockTo_outside hbefore hafter htrigger
    refine ⟨_, exec_of_run exec_clockTick hev, ?_⟩
    rw [htick]
    refine ⟨by simp [Part.clockAt], fun hs => ?_, fun hs hm => ?_, fun hs hm hd => ?_, fun hs hm hd => ?_,
      State.unchanged_of_part _ _ _ fun b hb => ?_⟩
    · simp [Part.clockAt, Clock.advance_second hs]
    · simp [Part.clockAt, Clock.advance_minute hs hm]
    · have hwrap : (s.part.pres.clock.day + 1) % 65536 = s.part.pres.clock.day + 1 := by omega
      simp [Part.clockAt, Clock.advance_day hs hm, hwrap, hm]
    · simp [Part.clockAt, Clock.advance_day hs hm, hd, hm]
    · cases b <;> simp [Piece.same, Part.clockAt] at hb ⊢
end

section
/-! PROOFS. The store header read: a cold start or a warm one. -/

open Sys2Proof
namespace Sys2Proof.Machine

/-! ### the last burst of a user -/

/-- A burst asked by a user that has bursts to make stands last behind them (R188). -/
theorem joinAsked_last (u : BurstUser) (t : Tok) (l : List Asked) (h : ∃ x ∈ l, x.user = u) :
    ∃ x ∈ joinAsked u t l, x.user = u ∧ x.later.getLast? = some t := by
  induction l with
  | nil => simp at h
  | cons y ys ih =>
    by_cases hy : y.user = u
    · exact ⟨{ y with later := y.later ++ [t] }, by simp [joinAsked, hy], hy, by simp⟩
    · have hrest : ∃ x ∈ ys, x.user = u := by simpa [hy] using h
      obtain ⟨x, hx, hxu, hlast⟩ := ih hrest
      exact ⟨x, by simp [joinAsked, hy, hx], hxu, hlast⟩

/-- The grant of the first burst asked leaves every user's later bursts. -/
theorem grantFirst_later {l : List Asked} {x : Asked} (h : x ∈ l) :
    ∃ y ∈ grantFirst l, y.user = x.user ∧ y.later = x.later := by
  induction l with
  | nil => simp at h
  | cons y ys ih =>
    unfold grantFirst
    rcases List.mem_cons.mp h with rfl | hys <;> split_ifs
    · exact ⟨_, List.mem_cons_self, rfl, rfl⟩
    · exact ⟨_, List.mem_cons_self, rfl, rfl⟩
    · exact ⟨x, List.mem_cons_of_mem _ hys, rfl, rfl⟩
    · obtain ⟨z, hz, hsame⟩ := ih hys
      exact ⟨z, List.mem_cons_of_mem _ hz, hsame⟩

/-- Settling the port asks nothing: it grants the first burst of one requester at the most (R189). -/
theorem State.settle_asks (s : State) :
    s.settle.part.asks = s.part.asks ∨ ∃ r, s.settle.part.asks = s.part.asks.set r (grantFirst (s.part.asks.of r)) := by
  rcases s.settle_cases with h | ⟨c, h⟩ <;> rw [h]
  · exact .inl rfl
  · cases c with
    | urgent | refresh => exact .inl rfl
    | requester r =>
      cases hp : s.part.asks.presented r with
      | none => exact .inl (by simp [State.grant, hp])
      | some w => exact .inr ⟨r, (s.grant_requester r w.1 w.2 hp).2⟩

/-- What a user is to make later it is still to make once the port is settled. -/
theorem State.settle_later {s : State} {r : Req} {x : Asked} (h : x ∈ s.part.asks.of r) :
    ∃ y ∈ s.settle.part.asks.of r, y.user = x.user ∧ y.later = x.later := by
  rcases s.settle_asks with he | ⟨q, he⟩ <;> rw [he]
  · exact ⟨x, h, rfl, rfl⟩
  · by_cases hq : r = q
    · subst hq
      rw [Asks.of_set_self]
      exact grantFirst_later h
    · rw [Asks.of_set_other _ _ hq]
      exact ⟨x, h, rfl, rfl⟩

/-- A user whose last burst is `k` still has it last once the port is settled. -/
theorem State.asks_settled {s : State} {r : Req} {x : Asked} {u : BurstUser} {k : Tok} (h : x ∈ s.part.asks.of r)
    (hu : x.user = u) (hlast : x.later.getLast? = some k) :
    ∃ y ∈ s.settle.part.asks.of r, y.user = u ∧ y.toks.getLast? = some k := by
  obtain ⟨y, hy, hyu, hyl⟩ := State.settle_later h
  exact ⟨y, hy, hyu.trans hu, by simp [Asked.toks, List.getLast?_append, hyl, hlast]⟩

/-! ### a cold start (R41, R118, R133, R192) -/

theorem exec_headerReadDone (s : State) : exec .headerReadDone s = s.run Part.headerRead := rfl

section
variable {p : Part} {bs : Bytes} (hj : p.pres.joining = .memory) (hd : p.hdr.readData = some bs)
include hj hd

/-- A header that fails makes the start cold (R41). -/
theorem Part.headerRead_cold (hb : parseHeader bs = none) :
    p.headerRead = (p.modHdr fun x => { x with readData := none }).coldStart := by
  simp only [Part.headerRead, hj, hd, hb, if_true]

/-- A valid header makes it warm (R41). -/
theorem Part.headerRead_warm {h : HeaderCopy} (hb : parseHeader bs = some h) :
    p.headerRead = (p.modHdr fun x => { x with readData := none }).warmStart h := by
  simp only [Part.headerRead, hj, hd, hb, if_true]
end

/-- The part of a cold start with its stores made empty, before the header write is asked. -/
def Part.emptied (p : Part) : Part :=
  let q := (((p.modPres fun x => { x with coldStarted := true }).wipeSlots .memory .a 0 Config.bankSlots).wipeSlots .memory .b 0
    Config.bankSlots).clearMap .memory
  (q.wipe .memory Config.journalBase (Config.journalBase + Config.journalSize)).emptyLabels

theorem Part.coldStart_emptied (p : Part) : p.coldStart = p.emptied.askHeader .start fun _ => {} := rfl

theorem Part.emptied_eq (p : Part) :
    p.emptied =
      { p with
        pres := { p.pres with coldStarted := true }
        lab := p.lab.unread
        asks := p.emptied.asks
        dram := p.emptied.dram } := by
  simp [Part.emptied, Part.wipeSlots, Part.clearMap, Part.emptyLabels, Part.modPres, Part.modLab, Config.bankSlots]

/-- A byte of memory once the banks, the journal, the label table and the staging map have been made empty (R41; assumption 11). -/
theorem Part.read_emptied (p : Part) (a : Nat) :
    Mem.read p.emptied.dram a =
      if a < 0x300000 ∨ (0x3C0000 ≤ a ∧ a < 0x3F0000) ∨ (0x3F2000 ≤ a ∧ a < 0x3F3000) then 0 else Mem.read p.dram a := by
  simp [Part.emptied, Part.emptyLabels, Part.clearMap, Part.wipeSlots, Mem.read_wipe, entryAddr, bankBase, Config.bankABase,
    Config.bankBBase, Config.entryBytes, Config.bankSlots, Config.labelBase, Config.labelSize, Config.journalBase,
    Config.journalSize, Config.mapBase, Config.mapSize]
  grind

/-- The wipes are asked by the memory controller. -/
theorem Part.emptied_asks (p : Part) : ∃ x ∈ p.emptied.asks.of .price, x.user = .memory := by
  obtain ⟨x, hx, hu, -⟩ := joinAsked_has .memory (.wipe Config.labelBase (Config.labelBase + Config.labelSize))
    ((((((p.modPres fun x => { x with coldStarted := true }).wipeSlots .memory .a 0 Config.bankSlots).wipeSlots .memory .b 0
      Config.bankSlots).clearMap .memory).wipe .memory Config.journalBase
      (Config.journalBase + Config.journalSize)).asks.of .price)
  exact ⟨x, hx, hu⟩

/-- With no header write in flight the cold values are presented at once (R192). -/
theorem Part.coldStart_eq {p : Part} (h : p.hdr.inFlight = none) :
    p.coldStart =
      { p.emptied with
        hdr := { p.hdr with copy := {}, inFlight := some ({}, [.start]), finished := false }
        asks := p.emptied.asks.set .price (joinAsked .memory .headerWrite (p.emptied.asks.of .price)) } := by
  have hh : p.emptied.hdr = p.hdr := by rw [Part.emptied_eq]
  rw [Part.coldStart_emptied]
  simp [Part.askHeader, Part.presentHeader, hh, h, Part.modHdr, Part.ask, Part.modAsks, HeaderUser.writer, BurstUser.req]

/-! ### a warm start (R41, R79, R130) -/

/-- A header with an EMPTY staging: its fields go to their owners, and the scan begins. -/
theorem Part.warmStart_eq {p : Part} {h : HeaderCopy} (he : h.stagingState = .empty) :
    p.warmStart h =
      ((((((p.modHdr fun x => { x with copy := h }).modPrice fun x =>
        { x with
          active := h.active, activeGen := h.activeGen, activeCount := h.activeCount
          copy := p.copyOf h.active h.activeCount }).loads .bank (bit (decide (copyIndex < h.activeCount)))).modJrn fun j =>
        { j with
          release := h.release, next := h.release + 1, commit := h.release + 1
          scan := some { stage := .reading, e := h.release + 1, marks := [], aside := [], read := 0 } }).modLab fun l =>
        { l with warm := .due }).modPres fun x => { x with joining := .journalScan }).ask .journal .scanFirst := by
  have hstaging (q : Part) : q.warmStaging h = q := by simp [Part.warmStaging, he]
  simp only [Part.warmStart, hstaging]
  rw [Part.setJoining_alone (by decide) (by decide) (.inl rfl) (.inl rfl)]

end Sys2Proof.Machine

open Sys2Proof.Machine

/-- Settles O24: the stores emptied and the header's burst behind their wipes, or the header's fields at their owners. -/
theorem headerDecidesTheStart : Obligations.HeaderDecidesTheStart := by
  refine fun s bs hev hj hd hfly => ⟨fun hb => ?_, fun h hb he => ?_⟩
  · refine ⟨_, exec_of_run exec_headerReadDone hev, ?_⟩
    rw [Part.headerRead_cold hj hd hb, Part.coldStart_eq (by exact hfly), Part.emptied_eq]
    refine ⟨by simp, by simp, by simp [Labels.unread], ?_, fun a => ?_, State.unchanged_of_part _ _ _ fun b hb => ?_⟩
    · obtain ⟨x, hx, hu, hlast⟩ :=
        joinAsked_last .memory .headerWrite _ (s.part.modHdr fun x => { x with readData := none }).emptied_asks
      refine State.asks_settled (r := .price) (x := x) ?_ hu hlast
      simpa using hx
    · rw [State.settle_dram]
      exact (s.part.modHdr fun x => { x with readData := none }).read_emptied a
    · cases b <;> simp [Piece.same] at hb ⊢
  · refine ⟨_, exec_of_run exec_headerReadDone hev, ?_⟩
    rw [Part.headerRead_warm hj hd hb, Part.warmStart_eq he]
    refine ⟨by simp, by simp, by simp; rfl, by simp, by simp, State.unchanged_of_part _ _ _ fun b hb => ?_⟩
    cases b <;> simp [Piece.same] at hb ⊢
end

section
/-! PROOFS. The peer table: a presence of another station, and its silence. -/

open Sys2Proof
namespace Sys2Proof.Machine

/-! ### what the blocks do at a peer notice (R51, R56, R84) -/

/-- With the staging in no GAPS no fetch is placed (R85). -/
theorem Part.checkFetch_of_not_gaps {p : Part} (h : p.price.staging.state ≠ .gaps) : p.checkFetch = p := by
  have hfrom : p.fetchFrom = none := by simp [Part.fetchFrom, h]
  have hnext : p.nextFetch = none := by simp [Part.nextFetch, hfrom]
  simp [Part.checkFetch, Part.placeFetch, hnext, Part.fetchBursts, hfrom, Part.loads]

/-- The part after a peer notice that moves the route table and the skip marks alone. -/
def Part.noticed (routes : Vector RouteEntry 32) (skips : List StationNo) (p : Part) : Part :=
  { p with
    fwd := { p.fwd with routes := routes }
    price := { p.price with staging := { p.price.staging with skips := skips } } }

/-- The learned entry of station `n` (R56). -/
def Part.learned (p : Part) (c : ConfigBlock) (n : StationNo) : RouteEntry :=
  if (p.peer n).state = .present ∧ n ≠ c.station then ⟨stationBlock c n, 24, .station n, .learned, true⟩
  else { RouteEntry.blank with origin := .learned }

theorem Part.pricingNotice_of_not_gaps {p : Part} (n : StationNo) (h : p.price.staging.state ≠ .gaps) :
    ∃ skips, p.pricingNotice n = p.noticed p.fwd.routes skips := by
  unfold Part.pricingNotice
  dsimp only
  split_ifs
  all_goals rw [Part.checkFetch_of_not_gaps (by exact h)]
  all_goals exact ⟨_, rfl⟩

theorem Part.recomputeDefault_eq {p : Part} (h : p.cfg.isSome = true) :
    p.recomputeDefault =
      { p with fwd := { p.fwd with routes := p.fwd.routes.set 31 ⟨0, 0, p.defaultExit, .default, true⟩ } } :=
  if_pos h

/-- The forwarding engine and the pricing unit take a peer notice: the station's /24 stands as its entry says (R56). -/
theorem Part.notice_eq {p : Part} {c : ConfigBlock} (n : StationNo) (hc : p.cfg = some c)
    (h : p.price.staging.state ≠ .gaps) :
    ∃ routes skips, (p.routeNotice n).pricingNotice n = p.noticed routes skips ∧ routes[10 + n.val] = p.learned c n := by
  obtain ⟨skips, hskips⟩ := (p.routeNotice n).pricingNotice_of_not_gaps n (by simpa using h)
  have hroute : p.routeNotice n =
      { p with
        fwd :=
          { p.fwd with
            routes := (p.fwd.routes.set (10 + n.val) (p.learned c n)).set 31 ⟨0, 0, p.defaultExit, .default, true⟩ } } := by
    simp only [Part.routeNotice, hc]
    rw [Part.recomputeDefault_eq (by simp [hc]), ← hc]
    rfl
  have hother : 31 ≠ 10 + n.val := by omega
  refine ⟨(p.routeNotice n).fwd.routes, skips, hskips.trans ?_, ?_⟩
  · rw [hroute]; rfl
  · rw [hroute]
    simp [hother]

/-! ### the table -/

theorem exec_presenceReceived (s : State) : exec .presenceReceived s = s.run Part.presence := rfl
theorem exec_peerSilenceExpiry (n : StationNo) (s : State) : exec (.peerSilenceExpiry n) s = s.run (Part.peerSilence n) := rfl

/-- The part with a PRESENCE of station `n` stored, and the rest of the kept ones waiting (R50, R51). -/
def Part.heard (n : StationNo) (d : PresenceData) (rest : List KeptPresence) (p : Part) : Part :=
  { p with
    pres :=
      { p.pres with
        inbox := rest
        peers := p.pres.peers.set n.val { state := .present, last := some d, silence := true }
        ctr := { p.pres.ctr with taken := bump p.pres.ctr.taken } } }

/-- The part with the entry of station `n` ABSENT (R51). -/
def Part.lost (n : StationNo) (p : Part) : Part :=
  { p with
    pres :=
      { p.pres with
        peers := p.pres.peers.set n.val { p.peer n with state := .absent, silence := false }
        ctr := { p.pres.ctr with peersLost := bump p.pres.ctr.peersLost } } }

theorem Part.heard_peer (n : StationNo) (d : PresenceData) (rest : List KeptPresence) (p : Part) (m : StationNo) :
    (p.heard n d rest).peer m = if m = n then { state := .present, last := some d, silence := true } else p.peer m := by
  have hval : n.val = m.val ↔ m = n := by rw [eq_comm, Fin.val_inj]
  simp [Part.peer, Part.heard, Vector.getElem_set, hval]

theorem Part.lost_peer (n : StationNo) (p : Part) (m : StationNo) :
    (p.lost n).peer m = if m = n then { p.peer n with state := .absent, silence := false } else p.peer m := by
  have hval : n.val = m.val ↔ m = n := by rw [eq_comm, Fin.val_inj]
  simp [Part.peer, Part.lost, Vector.getElem_set, hval]

/-- A night state that moves neither the holder record nor a claim (R170, R172). -/
theorem Part.holderNotice_of_waiting {d : PresenceData} (n : StationNo) (p : Part) (h : d.night = .claiming ∨ d.night = .standby) :
    p.holderNotice n d = p := by
  rcases h with h | h <;> simp [Part.holderNotice, h]

/-- A station with no entry in the upload table is sent no late RELEASE (R181). -/
theorem Part.lateRelease_of_no_entry (n : StationNo) (d : PresenceData) {p : Part} (h : p.trk.table = []) :
    p.lateRelease n d = p := by
  simp [Part.lateRelease, Part.entry, h]

section
variable {p : Part} {c : ConfigBlock} (hc : p.cfg = some c) (hgaps : p.price.staging.state ≠ .gaps)
include hc hgaps

/-- The oldest kept PRESENCE, of another station: stored, noticed, and then the SYNC checks and the clock (R50 to R52). -/
theorem Part.presence_heard {k : KeptPresence} {rest : List KeptPresence} {d : PresenceData} (hin : p.pres.inbox = k :: rest)
    (hk : k.read = some d) (hn : k.station ≠ c.station) (hnight : d.night = .claiming ∨ d.night = .standby)
    (htable : p.trk.table = []) :
    ∃ routes skips,
      p.presence =
          ((((p.heard k.station d rest).noticed routes skips).syncCheck).readyCheck d.activeGen).clockFrom k.station d ∧
        routes[10 + k.station.val] = ⟨stationBlock c k.station, 24, .station k.station, .learned, true⟩ := by
  have hown : k.station ≠ p.ownStation := by simpa [Part.ownStation, hc] using hn
  obtain ⟨routes, skips, hnotice, hroute⟩ := (p.heard k.station d rest).notice_eq k.station hc hgaps
  refine ⟨routes, skips, ?_, ?_⟩
  · rw [← hnotice]
    have hquiet : (((p.heard k.station d rest).routeNotice k.station).holderNotice k.station d).lateRelease k.station d =
        (p.heard k.station d rest).routeNotice k.station := by
      rw [Part.holderNotice_of_waiting _ _ hnight, Part.lateRelease_of_no_entry _ _ (by simpa [Part.heard] using htable)]
    rw [← hquiet]
    simp only [Part.presence, hin, hk, hown, if_false]
    rfl
  · rw [hroute]
    simp [Part.learned, Part.heard_peer, hn]

/-- The silence of a PRESENT station that holds no night (R51). -/
theorem Part.peerSilence_lost {n : StationNo} (hs : (p.peer n).state = .present) (ht : (p.peer n).silence = true)
    (hh : p.trk.holder = none) :
    ∃ routes skips, p.peerSilence n = ((p.lost n).noticed routes skips).syncCheck ∧ (routes[10 + n.val]).valid = false := by
  obtain ⟨routes, skips, hnotice, hroute⟩ := (p.lost n).notice_eq n hc hgaps
  have hholder : (p.lost n).trk.namesHolder n = false := by simp [Part.lost, Trunk.namesHolder, hh]
  refine ⟨routes, skips, ?_, ?_⟩
  · rw [← hnotice]
    simp only [Part.peerSilence, hs, ht, and_self, if_true]
    change (p.lost n).peerNotice n none = _
    simp [Part.peerNotice, hholder]
  · rw [hroute]
    simp [Part.learned, Part.lost_peer, RouteEntry.blank]
end

/-! ### the SYNC checks outside their states (R46, R47) -/

theorem Part.syncCheck_of_not_sync {p : Part} (h : p.pres.joining ≠ .sync) : p.syncCheck = p := by
  simp [Part.syncCheck, h]

theorem Part.readyCheck_of_not_ready (g : Nat) {p : Part} (h : p.pres.joining ≠ .ready) : p.readyCheck g = p := by
  simp [Part.readyCheck, h]

/-! ### the route table when the clock is set (R155, R162, R168) -/

theorem Forwarding.take_routes (f : Forwarding) (u : User) : (f.take u).2.routes = f.routes := by
  unfold Forwarding.take
  split <;> rfl

theorem Part.build_routes (w : BurstUser) (u : User) (bs : Bytes) (p : Part) : (p.build w u bs).2.fwd.routes = p.fwd.routes := by
  have htake : (p.takeBuffer u).2.fwd.routes = p.fwd.routes := p.fwd.take_routes u
  unfold Part.build
  split
  next q hq => rw [← htake, hq]
  next b q hq =>
    rw [← htake, hq]
    simp [Part.fill]

theorem Part.joinRadio_routes (b : Buf) (p : Part) : (p.joinRadio b).fwd.routes = p.fwd.routes := by
  simp [Part.joinRadio, Part.modRadio]

theorem Part.notice_routes (n : GuestNotice) (device index address reason up down drops : Nat) (p : Part) :
    (p.notice n device index address reason up down drops).fwd.routes = p.fwd.routes := by
  unfold Part.notice
  split
  · have hbuild := p.build_routes .rewrite .guest (noticeBytes n device index address reason up down drops)
    split
    next q hq => rw [← hbuild, hq]; simp
    next b q hq => rw [← hbuild, hq, Part.joinRadio_routes]
  · rfl

theorem Part.endGuest_routes (r : EndReason) (i : Nat) (g : Guest) (p : Part) :
    (p.endGuest r i g).fwd.routes = p.fwd.routes := by
  simp [Part.endGuest, Part.notice_routes]

theorem Part.endGuests_routes (r : EndReason) (cond : Part → Guest → Bool) (p : Part) :
    (p.endGuests r cond).fwd.routes = p.fwd.routes := by
  refine Eq.trans (foldl_keep (fun q : Part => q.fwd.routes) _ (fun q i => ?_) _ _) (by simp)
  split
  · split_ifs
    · exact Part.endGuest_routes _ _ _ _
    · rfl
  · rfl

theorem Part.endNight_routes (p : Part) : p.endNight.fwd.routes = p.fwd.routes := by
  unfold Part.endNight
  split_ifs
  · simp [Part.endGuests_routes]
  · rfl

/-- A start of the window outside the night exchange leaves the route table, and of the presence unit moves the counters and
the duplicate mark (R167, R168). -/
theorem Part.windowStart_keeps {p : Part} (d : Nat) (h : p.pres.joining.nightExchange = false) :
    (p.windowStart d).fwd.routes = p.fwd.routes ∧
      ∃ ctr dup, (p.windowStart d).pres = { p.pres with ctr := ctr, dupSeen := dup } := by
  have hreport : (p.stationReport d).fwd.routes = p.fwd.routes ∧
      ∃ ctr dup, (p.stationReport d).pres = { p.pres with ctr := ctr, dupSeen := dup } := by
    unfold Part.stationReport
    have hfwd : (p.loadGuests.append .report stationTill (p.reportContents d)).2.fwd = p.fwd := by simp
    have hpres : (p.loadGuests.append .report stationTill (p.reportContents d)).2.pres = p.pres := by simp
    split
    next n q hq =>
      rw [hq] at hfwd hpres
      exact ⟨by simp [Part.clearCounters, Forwarding.resetLowest, ← hfwd], {}, false, by simp [Part.clearCounters, ← hpres]⟩
    next q hq =>
      rw [hq] at hfwd hpres
      exact ⟨by rw [← hfwd], p.pres.ctr, p.pres.dupSeen, hpres⟩
  obtain ⟨hroutes, ctr, dup, hpres⟩ := hreport
  unfold Part.windowStart
  rw [Part.claimCheck_of_no_night _ (by simp [hpres, h])]
  exact ⟨by simpa using hroutes, ctr, dup, by simpa using hpres⟩

theorem Part.windowInForce_of_clock_invalid {p : Part} (h : p.pres.clock.valid = false) : p.windowInForce = false := by
  unfold Part.windowInForce
  split
  · rfl
  · simp [h]

theorem Part.nightNow_of_clock_invalid {p : Part} (h : p.pres.clock.valid = false) : p.nightNow = none := by
  unfold Part.nightNow
  split
  · rfl
  · simp [Part.windowInForce_of_clock_invalid h]

/-- A clock that was not valid is set, outside the night exchange (R52, R167). -/
theorem Part.setClock_keeps {p : Part} (day minute second : Nat) (hclock : p.pres.clock.valid = false)
    (hj : p.pres.joining.nightExchange = false) :
    (p.setClock day minute second).fwd.routes = p.fwd.routes ∧
      ∃ ctr dup, (p.setClock day minute second).pres =
        { p.pres with clock := ⟨true, day, minute, second⟩, ctr := ctr, dupSeen := dup } := by
  unfold Part.setClock Part.clockTo
  dsimp only
  rw [Part.nightNow_of_clock_invalid hclock]
  generalize hq : (p.modPres fun x => { x with clock := ⟨true, day, minute, second⟩ }) = q
  have hroutes : q.fwd.routes = p.fwd.routes := by simp [← hq]
  have hpres : q.pres = { p.pres with clock := ⟨true, day, minute, second⟩ } := by simp [← hq]
  have hwindow : (q.windowChange none q.nightNow).fwd.routes = q.fwd.routes ∧
      ∃ ctr dup, (q.windowChange none q.nightNow).pres = { q.pres with ctr := ctr, dupSeen := dup } := by
    cases q.nightNow with
    | none => exact ⟨rfl, _, _, rfl⟩
    | some d =>
      obtain ⟨hkept, ctr, dup, hcounted⟩ := q.windowStart_keeps d (by simp [hpres, hj])
      exact ⟨by simp [Part.windowChange, Part.endNight_routes, hkept], ctr, dup, by simp [Part.windowChange, hcounted]⟩
  obtain ⟨hkept, ctr, dup, hcounted⟩ := hwindow
  split_ifs
  all_goals exact ⟨by simp [hkept, hroutes], ctr, dup, by simp [hcounted, hpres]⟩

/-! ### the clock from a presence (R52, R174) -/

/-- A presence of no holder moves no valid clock. -/
theorem Part.clockFrom_of_valid (n : StationNo) {d : PresenceData} {p : Part} (h : p.pres.clock.valid = true)
    (hnight : d.night ≠ .holding) : p.clockFrom n d = p := by
  unfold Part.clockFrom
  simp only [h, hnight]
  split_ifs
  · contradiction
  · split <;> simp
  · rfl

/-- The clock, not valid, takes a valid time. -/
theorem Part.clockFrom_of_invalid (n : StationNo) {d : PresenceData} {p : Part} (h : p.pres.clock.valid = false) :
    p.clockFrom n d = if d.timeValid = true ∧ d.timeInRange = true then p.setClock d.day d.minute d.second else p := by
  simp [Part.clockFrom, h]

/-- What a presence taken outside the night exchange leaves of the table and the routes, whatever its time. -/
theorem Part.clockFrom_keeps (n : StationNo) {d : PresenceData} {p : Part} (hnight : d.night ≠ .holding)
    (hj : p.pres.joining.nightExchange = false) :
    (p.clockFrom n d).fwd.routes = p.fwd.routes ∧
      ∃ clock ctr dup, (p.clockFrom n d).pres = { p.pres with clock := clock, ctr := ctr, dupSeen := dup } := by
  cases h : p.pres.clock.valid with
  | true =>
    rw [Part.clockFrom_of_valid n h hnight]
    exact ⟨rfl, _, _, _, rfl⟩
  | false =>
    rw [Part.clockFrom_of_invalid n h]
    split_ifs
    · obtain ⟨hroutes, ctr, dup, hpres⟩ := p.setClock_keeps d.day d.minute d.second h hj
      exact ⟨hroutes, _, ctr, dup, hpres⟩
    · exact ⟨rfl, _, _, _, rfl⟩

/-! ### a presence that is no other station's (R43, R50) -/

/-- A kept presence that does not pass is discarded and counted. -/
theorem Part.presence_malformed {p : Part} {k : KeptPresence} {rest : List KeptPresence} (hin : p.pres.inbox = k :: rest)
    (hk : k.read = none) :
    p.presence =
      { p with pres := { p.pres with inbox := rest, ctr := { p.pres.ctr with malformed := bump p.pres.ctr.malformed } } } := by
  simp only [Part.presence, hin, hk]
  rfl

/-- The part with the oldest kept presence taken and counted. -/
def Part.presenceTaken (rest : List KeptPresence) (p : Part) : Part :=
  { p with pres := { p.pres with inbox := rest, ctr := { p.pres.ctr with taken := bump p.pres.ctr.taken } } }

theorem Part.presence_own {p : Part} {k : KeptPresence} {rest : List KeptPresence} {d : PresenceData}
    (hin : p.pres.inbox = k :: rest) (hk : k.read = some d) (hown : k.station = p.ownStation) :
    p.presence = (p.presenceTaken rest).takeOwn := by
  simp only [Part.presence, hin, hk, hown, if_true]
  rfl

/-- The own number heard in LISTEN: another station bears it (R43). -/
theorem Part.takeOwn_listen {p : Part} (hj : p.pres.joining = .listen) :
    p.takeOwn =
      { p with
        pres :=
          { p.pres with
            joining := .duplicate, listenTimer := false
            ctr := { p.pres.ctr with ownHeard := bump p.pres.ctr.ownHeard } } } := by
  simp only [Part.takeOwn, hj]
  rw [Part.setJoining_alone (by decide) (by decide) (.inl rfl) (.inl rfl)]
  rfl

/-- The own number heard in READY is marked (R50). -/
theorem Part.takeOwn_ready {p : Part} (hj : p.pres.joining = .ready) :
    p.takeOwn =
      { p with pres := { p.pres with dupSeen := true, ctr := { p.pres.ctr with ownHeard := bump p.pres.ctr.ownHeard } } } := by
  simp only [Part.takeOwn, hj]
  rw [← hj]
  rfl

@[simp] theorem State.settle_peer (s : State) (n : StationNo) : s.settle.part.peer n = s.part.peer n := by
  simp [Part.peer]

end Sys2Proof.Machine

open Sys2Proof.Machine

/-- Settles O27, by the part a presence leaves (`Part.presence_heard`) and the part a silence leaves (`Part.peerSilence_lost`). -/
theorem peersComeAndGo : Obligations.PeersComeAndGo := by
  refine ⟨fun s k rest hev hin => ⟨fun hk => ?_, fun d hk hown hj => ?_, fun d c hk hc hn hj hnight htable hempty => ?_⟩,
    fun s n c hev hc hs ht hj hholder hempty => ?_⟩
  · refine ⟨_, exec_of_run exec_presenceReceived hev, ?_⟩
    rw [Part.presence_malformed hin hk]
    refine ⟨by simp, State.unchanged_of_part _ _ _ fun b hb => ?_⟩
    cases b <;> simp [Piece.same] at hb ⊢
  · refine ⟨_, exec_of_run exec_presenceReceived hev, ?_⟩
    rw [Part.presence_own hin hk hown]
    rcases hj with hj | hj
    · rw [Part.takeOwn_listen (by exact hj)]
      refine ⟨by simp [Part.presenceTaken, hj], State.unchanged_of_part _ _ _ fun b hb => ?_⟩
      cases b <;> simp [Piece.same, Part.presenceTaken] at hb ⊢
    · rw [Part.takeOwn_ready (by exact hj)]
      refine ⟨by simp [Part.presenceTaken, hj], State.unchanged_of_part _ _ _ fun b hb => ?_⟩
      cases b <;> simp [Piece.same, Part.presenceTaken] at hb ⊢
  · obtain ⟨routes, skips, hpresence, hroute⟩ :=
      Part.presence_heard hc (by simp [hempty]) hin hk hn hnight htable
    rw [Part.syncCheck_of_not_sync (by simp [Part.noticed, Part.heard, hj]),
      Part.readyCheck_of_not_ready _ (by simp [Part.noticed, Part.heard, hj])] at hpresence
    refine ⟨_, exec_of_run exec_presenceReceived hev, ?_⟩
    rw [hpresence]
    generalize hq : (s.part.heard k.station d rest).noticed routes skips = q
    have hwaits : d.night ≠ .holding := by rcases hnight with h | h <;> simp [h]
    have hjoin : q.pres.joining = .listen := by simp [← hq, Part.noticed, Part.heard, hj]
    have hpeer (m : StationNo) :
        q.peer m = if m = k.station then { state := .present, last := some d, silence := true } else s.part.peer m := by
      rw [← hq]
      exact Part.heard_peer k.station d rest s.part m
    have hinbox : q.pres.inbox = rest := by simp [← hq, Part.noticed, Part.heard]
    have hroutes : q.fwd.routes = routes := by simp [← hq, Part.noticed]
    have hclock : q.pres.clock = s.part.pres.clock := by simp [← hq, Part.noticed, Part.heard]
    obtain ⟨hkept, clock, ctr, dup, hpres⟩ := q.clockFrom_keeps k.station hwaits (by rw [hjoin]; rfl)
    have hpeers (m : StationNo) : (q.clockFrom k.station d).peer m = q.peer m := by simp [Part.peer, hpres]
    refine ⟨by simp [hpeers, hpeer], fun m hm => by simp [hpeers, hpeer, hm], by simp [hpres, hinbox], by simp [hpres, hjoin],
      by simp [hkept, hroutes, hroute], fun hvalid => ?_, fun hinvalid htime hm hsec => ?_⟩
    · rw [Part.clockFrom_of_valid _ (by rw [hclock, hvalid]) hwaits, ← hq]
      refine ⟨by simp [Part.noticed, Part.heard], by simp [Part.noticed, Part.heard], State.unchanged_of_part _ _ _ fun b hb => ?_⟩
      cases b <;> simp [Piece.same, Part.noticed, Part.heard] at hb ⊢
    · have hunset : q.pres.clock.valid = false := by rw [hclock, hinvalid]
      obtain ⟨-, ctr, dup, hset⟩ := q.setClock_keeps d.day d.minute d.second hunset (by rw [hjoin]; rfl)
      rw [Part.clockFrom_of_invalid _ hunset, if_pos ⟨htime, by simp [PresenceData.timeInRange, hm, hsec]⟩]
      simp [hset]
  · obtain ⟨routes, skips, hsilence, hroute⟩ := Part.peerSilence_lost hc (by simp [hempty]) hs ht hholder
    rw [Part.syncCheck_of_not_sync (by simpa [Part.noticed, Part.lost] using hj)] at hsilence
    refine ⟨_, exec_of_run (exec_peerSilenceExpiry n) hev, ?_⟩
    rw [hsilence]
    refine ⟨by simp [Part.noticed, Part.lost], by simpa [Part.noticed] using hroute, State.unchanged_of_part _ _ _ fun b hb => ?_⟩
    cases b <;> simp [Piece.same, Part.noticed, Part.lost] at hb ⊢
end

section
/-! PROOFS. The PRESENCE a station queues: at the end of LISTEN, and at a tick of the presence timer. -/

open Sys2Proof
namespace Sys2Proof.Machine

theorem exec_listenTimerExpiry (s : State) : exec .listenTimerExpiry s = s.run Part.listenExpiry := rfl
theorem exec_presenceTimerTick (s : State) : exec .presenceTimerTick s = s.run Part.presenceTick := rfl

/-! ### a control frame is built, and a frame joins its queue (R4, R63, R67) -/

/-- A control user is granted the head of the free list whatever its length. -/
theorem Forwarding.take_control {f : Forwarding} {n : Nat} {rest : List Nat} (hf : f.free = n :: rest) :
    f.take .control =
      (some ⟨n, .plain, 0⟩,
        { f with free := rest, ctr := { f.ctr with lowestFree := min f.ctr.lowestFree rest.length } }) := by
  have hr : f.refusal .control = none := by simp [Forwarding.refusal, hf]
  simp [Forwarding.take, hr, hf, User.mark, bit]

/-- Bytes written ask bursts and move memory alone. -/
theorem Part.write_eq (u : BurstUser) (a : Nat) (bs : Bytes) (p : Part) :
    ∃ x, p.write u a bs = { p with dram := Mem.writeBytes p.dram a bs, asks := x } := by
  unfold Part.write Part.askStore
  split <;> exact ⟨_, rfl⟩

/-- A control frame built in the buffer granted, and the free list and memory after it. -/
theorem Part.build_control (w : BurstUser) (bs : Bytes) {p : Part} {n : Nat} {rest : List Nat} (hf : p.fwd.free = n :: rest) :
    ∃ x,
      p.build w .control bs =
        (some ⟨n, .plain, bs.length⟩,
          { p with
            fwd := { p.fwd with free := rest, ctr := { p.fwd.ctr with lowestFree := min p.fwd.ctr.lowestFree rest.length } }
            dram := Mem.writeBytes p.dram (bufAddr n) bs, asks := x }) := by
  unfold Part.build Part.takeBuffer
  rw [Forwarding.take_control hf]
  obtain ⟨x, hwrite⟩ :=
    Part.write_eq w (bufAddr n) bs
      { p with
        fwd := { p.fwd with free := rest, ctr := { p.fwd.ctr with lowestFree := min p.fwd.ctr.lowestFree rest.length } } }
  exact ⟨x, by simp only [Part.fill, hwrite]⟩

theorem Part.offer_eq (p : Part) :
    ∃ b, p.offer = { p with branch := b } ∧ (p.branch.tx ≠ .disabled → b.tx ≠ .disabled) := by
  unfold Part.offer
  split
  · split_ifs <;> exact ⟨_, rfl, fun _ => by simp⟩
  · split_ifs <;> exact ⟨_, rfl, fun _ => by simp⟩
  · exact ⟨_, rfl, fun _ => by simp⟩
  · exact ⟨_, rfl, fun h => h⟩

/-- A frame offered and staged: the transmitter, once enabled, stays so. -/
theorem Part.offer_restage_eq (before : Option Buf) (p : Part) :
    ∃ b a, p.offer.restage .branch before = { p with branch := b, asks := a } ∧ (p.branch.tx ≠ .disabled → b.tx ≠ .disabled) := by
  obtain ⟨b, hoffer, hon⟩ := p.offer_eq
  obtain ⟨x, a, hstage⟩ := p.offer.restage_branch_eq before
  refine ⟨{ b with sender := x }, a, ?_, hon⟩
  rw [hstage, hoffer]

theorem Part.enqueue_eq (c : Cls) (o : FrameOwner) (buf : Buf) (p : Part) :
    ∃ b a,
      p.enqueue c o buf =
          { p with fwd := p.fwd.setQueue c (p.fwd.queue c ++ [⟨buf, 0, o, false⟩]), branch := b, asks := a } ∧
        (p.branch.tx ≠ .disabled → b.tx ≠ .disabled) := by
  obtain ⟨b, a, heq, hon⟩ :=
    (p.modFwd fun f => f.setQueue c (f.queue c ++ [⟨buf, 0, o, false⟩])).offer_restage_eq p.staged
  exact ⟨b, a, heq, hon⟩

/-! ### the PRESENCE of a tick (R49) -/

/-- The body of the PRESENCE built now. -/
def Part.presenceBytes (p : Part) : Bytes := plainBody allStations kindPresence (presencePayload p.presenceData)

/-- The PRESENCE built now as it joins the CONTROL queue, in buffer `n`. -/
def Part.presenceFrame (n : Nat) (p : Part) : QFrame :=
  ⟨⟨n, .plain, p.presenceBytes.length⟩, 0, .presence (decide (p.pres.joining = .announcing)), false⟩

/-- The part with its PRESENCE in buffer `n` and in the CONTROL queue. -/
def Part.presenceQueued (n : Nat) (rest : List Nat) (p : Part) : Part :=
  { p with
    fwd :=
      { p.fwd with
        free := rest, ctr := { p.fwd.ctr with lowestFree := min p.fwd.ctr.lowestFree rest.length }
        control := p.fwd.control ++ [p.presenceFrame n] }
    dram := Mem.writeBytes p.dram (bufAddr n) p.presenceBytes }

/-- With a free buffer a PRESENCE joins the CONTROL queue. -/
theorem Part.sendPresence_sent {p : Part} {n : Nat} {rest : List Nat} (hf : p.fwd.free = n :: rest) :
    ∃ b a, p.sendPresence = { p.presenceQueued n rest with branch := b, asks := a } ∧ (p.branch.tx ≠ .disabled → b.tx ≠ .disabled) := by
  obtain ⟨x, hbuild⟩ := Part.build_control .lineBuild p.presenceBytes hf
  obtain ⟨b, a, hjoin, hon⟩ :=
    Part.enqueue_eq .control (.presence (decide (p.pres.joining = .announcing))) ⟨n, .plain, p.presenceBytes.length⟩
      { p with
        fwd := { p.fwd with free := rest, ctr := { p.fwd.ctr with lowestFree := min p.fwd.ctr.lowestFree rest.length } }
        dram := Mem.writeBytes p.dram (bufAddr n) p.presenceBytes, asks := x }
  refine ⟨b, a, ?_, hon⟩
  rw [Part.presenceBytes] at hbuild
  simp only [Part.sendPresence, Part.sendFrame, hbuild]
  exact hjoin

/-- With no free buffer the tick is skipped. -/
theorem Part.sendPresence_refused {p : Part} (hf : p.fwd.free = []) :
    p.sendPresence =
      { p with
        fwd := { p.fwd with ctr := { p.fwd.ctr with empty := bump p.fwd.ctr.empty } }
        pres := { p.pres with ctr := { p.pres.ctr with skipped := bump p.pres.ctr.skipped } } } := by
  have hr : p.fwd.refusal .control = some .empty := by simp [Forwarding.refusal, hf]
  simp only [Part.sendPresence, Part.sendFrame, Part.build, Part.takeBuffer, Forwarding.take_refused _ _ _ hr]
  rfl

theorem Part.presenceBytes_length (p : Part) : p.presenceBytes.length = 33 := by
  simp [Part.presenceBytes, plainBody, presencePayload, be_length]

/-- The buffer of the queued PRESENCE holds its body. -/
theorem Part.read_presence {p : Part} {n : Nat} (hn : n < Config.poolSize) :
    Mem.readBytes (Mem.writeBytes p.dram (bufAddr n) p.presenceBytes) (bufAddr n) p.presenceBytes.length = p.presenceBytes := by
  refine Mem.readBytes_writeBytes _ _ _ ?_
  have hin := bufAddr_le n hn
  rw [p.presenceBytes_length]
  simp only [Config.bufferBytes, Config.labelBase, Config.dramSize] at *
  omega

/-- The PRESENCE stands at the tail of the CONTROL queue with its body, whatever the branch interface and the asks are by then. -/
theorem State.queues_presence {s : State} {p : Part} {n : Nat} {rest : List Nat} (hn : n < Config.poolSize) (b : Branch)
    (a : Asks) (hcontrol : p.fwd.control = s.part.fwd.control) :
    s.queues .control (.presence (decide (p.pres.joining = .announcing))) p.presenceBytes
      { s with part := { p.presenceQueued n rest with branch := b, asks := a } }.settle := by
  refine ⟨p.presenceFrame n, ?_, rfl, rfl, rfl, ?_⟩
  · simp [Forwarding.queue, Part.presenceQueued, hcontrol]
  · simpa [Part.bufBytes, Part.read, Part.presenceQueued, Part.presenceFrame] using Part.read_presence hn

/-! ### the PRESENCE of the tick before (R10, R49) -/

/-- The first PRESENCE of the CONTROL queue. -/
theorem Part.queuedPresence_some {p : Part} {before behind : List QFrame} {q : QFrame} {b : Bool}
    (hq : p.fwd.control = before ++ q :: behind) (ho : q.owner = .presence b)
    (hbefore : ∀ x ∈ before, ∀ b, x.owner ≠ .presence b) : p.queuedPresence = some (.presence b) := by
  have hnone : (before.map (·.owner)).find?
      (fun o => decide (o = .presence true) || decide (o = .presence false)) = none := by
    simp only [List.find?_eq_none, List.mem_map]
    rintro o ⟨x, hx, rfl⟩
    simp [hbefore x hx]
  unfold Part.queuedPresence
  rw [hq, List.map_append, List.find?_append, hnone]
  cases b <;> simp [ho]

theorem Part.queuedPresence_none {p : Part} (h : ∀ q ∈ p.fwd.control, ∀ b, q.owner ≠ .presence b) :
    p.queuedPresence = none := by
  unfold Part.queuedPresence
  simp only [List.find?_eq_none, List.mem_map]
  rintro o ⟨x, hx, rfl⟩
  simp [h x hx]

/-- Of a list with one frame of an owner, that frame goes and the others stay. -/
theorem filter_owner {before behind : List QFrame} {q : QFrame} {o : FrameOwner} (ho : q.owner = o)
    (hbefore : ∀ x ∈ before, x.owner ≠ o) (hbehind : ∀ x ∈ behind, x.owner ≠ o) :
    (before ++ q :: behind).filter (fun x => decide (x.owner = o)) = [q] ∧
      (before ++ q :: behind).filter (fun x => decide (x.owner ≠ o)) = before ++ behind := by
  have hgone : ∀ l : List QFrame, (∀ x ∈ l, x.owner ≠ o) → l.filter (fun x => decide (x.owner = o)) = [] := by
    intro l hl
    simpa [List.filter_eq_nil_iff] using hl
  have hkept : ∀ l : List QFrame, (∀ x ∈ l, x.owner ≠ o) → l.filter (fun x => decide (x.owner ≠ o)) = l := by
    intro l hl
    simpa [List.filter_eq_self] using hl
  refine ⟨?_, ?_⟩
  · simp [List.filter_append, ho, hgone _ hbefore, hgone _ hbehind]
  · simp only [List.filter_append, hkept _ hbefore]
    simpa [ho] using hbehind

/-- The one frame of its owner, not in contention, leaves its queue (R10). -/
theorem Part.removeQueued_eq {p : Part} {c : Cls} {o : FrameOwner} {before behind : List QFrame} {q : QFrame}
    (hq : p.fwd.queue c = before ++ q :: behind) (ho : q.owner = o) (hbefore : ∀ x ∈ before, x.owner ≠ o)
    (hbehind : ∀ x ∈ behind, x.owner ≠ o) (hhand : before = [] → p.branch.tx.inHand ≠ some c) :
    ∃ b a,
      p.removeQueued c o =
        { p with fwd := (p.fwd.setQueue c (before ++ behind)).giveBack q.buf, branch := b, asks := a } := by
  by_cases h : p.branch.tx.inHand = some c
  · cases before with
    | nil => exact absurd h (hhand rfl)
    | cons x before =>
      obtain ⟨hgone, hkept⟩ := filter_owner ho (fun y hy => hbefore y (List.mem_cons_of_mem _ hy)) hbehind
      obtain ⟨b, a, heq, -⟩ :=
        Part.offer_restage_eq p.staged
          { p with fwd := (p.fwd.setQueue c (x :: before ++ behind)).giveBack q.buf }
      refine ⟨b, a, Eq.trans ?_ heq⟩
      simp only [Part.removeQueued, hq, h, if_true, List.cons_append, List.drop_succ_cons, List.drop_zero, List.take_succ_cons,
        List.take_zero, hgone, hkept]
      rfl
  · obtain ⟨hgone, hkept⟩ := filter_owner ho hbefore hbehind
    obtain ⟨b, a, heq, -⟩ :=
      Part.offer_restage_eq p.staged { p with fwd := (p.fwd.setQueue c (before ++ behind)).giveBack q.buf }
    refine ⟨b, a, Eq.trans ?_ heq⟩
    simp only [Part.removeQueued, hq, h, if_false, hgone, hkept]
    rfl

/-- The withdrawal of that frame is taken. -/
theorem Part.withdraw_taken {p : Part} {c : Cls} {o : FrameOwner} {before behind : List QFrame} {q : QFrame}
    (hq : p.fwd.queue c = before ++ q :: behind) (ho : q.owner = o) (hbefore : ∀ x ∈ before, x.owner ≠ o)
    (hhand : before = [] → p.branch.tx.inHand ≠ some c) : p.withdraw c o = (.taken, p.removeQueued c o) := by
  have hcalm : p.inContention c o = false := by
    cases before with
    | nil => simp [Part.inContention, hhand rfl]
    | cons x before => simp [Part.inContention, hq, hbefore x List.mem_cons_self]
  simp [Part.withdraw, hcalm, hq, ho]

/-- The withdrawal of a frame in contention is refused, and marked. -/
theorem Part.withdraw_refused {p : Part} {c : Cls} {q : QFrame} {rest : List QFrame} (hq : p.fwd.queue c = q :: rest)
    (hhand : p.branch.tx.inHand = some c) :
    p.withdraw c q.owner = (.refused, { p with fwd := p.fwd.setQueue c ({ q with withdrawn := true } :: rest) }) := by
  simp [Part.withdraw, Part.inContention, hq, hhand, Part.modFwd]

/-! ### a tick of the presence timer (R49) -/

section
variable {p : Part} (ht : p.pres.presenceTimer = true) (hj : p.pres.joining.sendsPresence = true) (hline : p.trk.line ≠ .up)
include ht hj hline

theorem Part.presenceTick_alone (h : ∀ q ∈ p.fwd.control, ∀ b, q.owner ≠ .presence b) :
    p.presenceTick = p.sendPresence := by
  have hkeep : p.sendPresence.trk = p.trk := by simp
  simp only [Part.presenceTick, ht, hj, Part.queuedPresence_none h, and_self, if_true]
  exact Part.claimCheck_of_line_down _ (by rw [hkeep]; exact hline)

theorem Part.presenceTick_taken {before behind : List QFrame} {q : QFrame} {b : Bool}
    (hq : p.fwd.control = before ++ q :: behind) (ho : q.owner = .presence b)
    (hother : ∀ x ∈ before ++ behind, ∀ b, x.owner ≠ .presence b) (hhand : before = [] → p.branch.tx.inHand ≠ some .control) :
    p.presenceTick = (p.removeQueued .control (.presence b)).sendPresence := by
  have hbefore : ∀ x ∈ before, ∀ b, x.owner ≠ .presence b := fun x hx => hother x (List.mem_append_left _ hx)
  have hkeep : (p.removeQueued .control (.presence b)).sendPresence.trk = p.trk := by simp
  simp only [Part.presenceTick, ht, hj, Part.queuedPresence_some hq ho hbefore,
    Part.withdraw_taken (c := .control) hq ho (fun x hx => hbefore x hx b) hhand, and_self, if_true]
  exact Part.claimCheck_of_line_down _ (by rw [hkeep]; exact hline)

theorem Part.presenceTick_refused {q : QFrame} {rest : List QFrame} {b : Bool} (hq : p.fwd.control = q :: rest)
    (ho : q.owner = .presence b) (hhand : p.branch.tx.inHand = some .control) :
    p.presenceTick = { p with fwd := { p.fwd with control := { q with withdrawn := true } :: rest } } := by
  have hwithdraw := Part.withdraw_refused (c := .control) hq hhand
  rw [ho] at hwithdraw
  simp only [Part.presenceTick, ht, hj, Part.queuedPresence_some (before := []) hq ho (by simp), hwithdraw, and_self, if_true]
  exact (Part.claimCheck_of_line_down _ (by exact hline)).trans (by rw [ho]; rfl)
end

/-! ### the end of LISTEN (R11, R45) -/

theorem Part.enableTx_eq {p : Part} (h : p.branch.tx = .disabled) :
    ∃ b a, p.enableTx = { p with branch := b, asks := a } ∧ b.tx ≠ .disabled := by
  obtain ⟨b, a, heq, hon⟩ := (p.modBranch fun b => { b with tx := .idle }).offer_restage_eq none
  refine ⟨b, a, ?_, hon (by simp)⟩
  simp only [Part.enableTx, h, if_true, heq]
  rfl

/-- ANNOUNCING entered: the transmitter enabled, the presence timer started. -/
theorem Part.listenExpiry_eq {p : Part} (hj : p.pres.joining = .listen) (hl : p.pres.listenTimer = true)
    (ht : p.branch.tx = .disabled) (hh : p.lab.headUp = false) :
    ∃ b a,
      p.listenExpiry =
          { p with
            pres := { p.pres with joining := .announcing, listenTimer := false, presenceTimer := true }
            branch := b, asks := a }.sendPresence ∧
        b.tx ≠ .disabled := by
  obtain ⟨b, a, heq, hon⟩ :=
    (p.modPres fun x => { x with listenTimer := false, presenceTimer := true }).enableTx_eq ht
  refine ⟨b, a, ?_, hon⟩
  simp only [Part.listenExpiry, hj, hl, and_self, if_true, heq]
  rw [Part.setJoining_alone (by decide) (by decide) (.inr (by exact hh)) (.inl rfl)]
  rfl

/-! ### the clauses of PRESENCE -/

theorem State.settle_presenceData (s : State) : s.settle.part.presenceData = s.part.presenceData := by
  simp [Part.presenceData, Part.presenceFlags, Part.ownStation, Part.trunkFitted, Part.labelFitted, Part.guestFitted]

theorem State.listen_sends {s : State} (hev : s.supply.takesEvents = true) (hj : s.part.pres.joining = .listen)
    (hl : s.part.pres.listenTimer = true) (ht : s.part.branch.tx = .disabled) (hfree : s.bufferFree)
    (hh : s.part.lab.headUp = false) :
    ∃ t, exec .listenTimerExpiry s = .next t ∧
      t.part.pres = { s.part.pres with joining := .announcing, listenTimer := false, presenceTimer := true } ∧
      t.part.branch.tx ≠ .disabled ∧
      s.queues .control (.presence true) (plainBody 255 0x01 (presencePayload t.part.presenceData)) t ∧
      Unchanged [.pres, .branch, .fwd, .memory] s t := by
  obtain ⟨n, rest, hf⟩ : ∃ n rest, s.part.fwd.free = n :: rest :=
    List.exists_cons_of_length_pos (Nat.lt_of_le_of_lt (Nat.zero_le _) hfree.1)
  obtain ⟨b, a, hlisten, hon⟩ := Part.listenExpiry_eq hj hl ht hh
  generalize hp : ({ s.part with
    pres := { s.part.pres with joining := .announcing, listenTimer := false, presenceTimer := true }
    branch := b, asks := a } : Part) = p at hlisten
  obtain ⟨b', a', hsend, hon'⟩ := Part.sendPresence_sent (p := p) (n := n) (rest := rest) (by rw [← hp]; exact hf)
  have hbranch : p.branch = b := by rw [← hp]
  refine ⟨_, exec_of_run exec_listenTimerExpiry hev, ?_⟩
  rw [hlisten, hsend]
  have hsame : p.presenceData = ({ p.presenceQueued n rest with branch := b', asks := a' } : Part).presenceData := rfl
  refine ⟨by simp [Part.presenceQueued, ← hp], ?_, ?_, State.unchanged_of_part _ _ _ fun x hx => ?_⟩
  · simpa using hon' (by rw [hbranch]; exact hon)
  · rw [State.settle_presenceData, ← hsame]
    have hqueued := State.queues_presence (s := s) (p := p) (rest := rest) (hfree.2 n (by simp [hf])) b' a' (by rw [← hp])
    rwa [show p.pres.joining = .announcing by rw [← hp]] at hqueued
  · cases x <;> simp [Piece.same, Part.presenceQueued, ← hp] at hx ⊢

section
variable {s : State} (hev : s.supply.takesEvents = true) (ht : s.part.pres.presenceTimer = true)
  (hj : s.part.pres.joining.sendsPresence = true) (hline : s.part.trk.line ≠ .up)
include hev ht hj hline

theorem State.tick_sends (hnone : ∀ q ∈ s.part.fwd.control, ∀ b, q.owner ≠ .presence b) (hfree : s.bufferFree) :
    ∃ t, exec .presenceTimerTick s = .next t ∧
      s.queues .control (.presence (decide (s.part.pres.joining = .announcing)))
        (plainBody 255 0x01 (presencePayload s.part.presenceData)) t ∧
      Unchanged [.branch, .fwd, .memory] s t := by
  obtain ⟨n, rest, hf⟩ : ∃ n rest, s.part.fwd.free = n :: rest :=
    List.exists_cons_of_length_pos (Nat.lt_of_le_of_lt (Nat.zero_le _) hfree.1)
  obtain ⟨b, a, hsend, -⟩ := Part.sendPresence_sent hf
  refine ⟨_, exec_of_run exec_presenceTimerTick hev, ?_⟩
  rw [Part.presenceTick_alone ht hj hline hnone, hsend]
  refine ⟨State.queues_presence (hfree.2 n (by simp [hf])) b a rfl, State.unchanged_of_part _ _ _ fun x hx => ?_⟩
  cases x <;> simp [Piece.same, Part.presenceQueued] at hx ⊢

theorem State.tick_skipped (hnone : ∀ q ∈ s.part.fwd.control, ∀ b, q.owner ≠ .presence b) (hfree : s.part.fwd.free = []) :
    ∃ t, exec .presenceTimerTick s = .next t ∧
      t.part.pres = { s.part.pres with ctr := { s.part.pres.ctr with skipped := bump s.part.pres.ctr.skipped } } ∧
      t.part.fwd = { s.part.fwd with ctr := { s.part.fwd.ctr with empty := bump s.part.fwd.ctr.empty } } ∧
      Unchanged [.pres, .fwd] s t := by
  refine ⟨_, exec_of_run exec_presenceTimerTick hev, ?_⟩
  rw [Part.presenceTick_alone ht hj hline hnone, Part.sendPresence_refused hfree]
  refine ⟨by simp, by simp, State.unchanged_of_part _ _ _ fun x hx => ?_⟩
  cases x <;> simp [Piece.same] at hx ⊢

theorem State.tick_renews {before behind : List QFrame} {q : QFrame} {b : Bool}
    (hq : s.part.fwd.control = before ++ q :: behind) (ho : q.owner = .presence b)
    (hother : ∀ x ∈ before ++ behind, ∀ b, x.owner ≠ .presence b)
    (hhand : before = [] → s.part.branch.tx.inHand ≠ some .control) (hfree : s.bufferFree) :
    ∃ t new, exec .presenceTimerTick s = .next t ∧ t.part.fwd.control = before ++ behind ++ [new] ∧
      new.owner = .presence (decide (s.part.pres.joining = .announcing)) ∧ new.collisions = 0 ∧
      new.withdrawn = false ∧ t.part.bufBytes new.buf = plainBody 255 0x01 (presencePayload s.part.presenceData) ∧
      t.part.fwd.free = s.part.fwd.free.drop 1 ++ [q.buf.num] ∧ Unchanged [.branch, .fwd, .memory] s t := by
  obtain ⟨n, rest, hf⟩ : ∃ n rest, s.part.fwd.free = n :: rest :=
    List.exists_cons_of_length_pos (Nat.lt_of_le_of_lt (Nat.zero_le _) hfree.1)
  obtain ⟨x, a, hremoved⟩ :=
    Part.removeQueued_eq (c := .control) hq ho (fun y hy => hother y (List.mem_append_left _ hy) b)
      (fun y hy => hother y (List.mem_append_right _ hy) b) hhand
  generalize hp : ({ s.part with
    fwd := (s.part.fwd.setQueue .control (before ++ behind)).giveBack q.buf, branch := x, asks := a } : Part) = p at hremoved
  have hpfree : p.fwd.free = n :: (rest ++ [q.buf.num]) := by
    rw [← hp]
    simp [Forwarding.giveBack, Forwarding.setQueue, hf]
  have hpcontrol : p.fwd.control = before ++ behind := by rw [← hp]; rfl
  have hpdata : p.presenceData = s.part.presenceData := by rw [← hp]; rfl
  have hpjoining : p.pres.joining = s.part.pres.joining := by rw [← hp]
  obtain ⟨b', a', hsend, -⟩ := Part.sendPresence_sent hpfree
  refine ⟨_, p.presenceFrame n, exec_of_run exec_presenceTimerTick hev, ?_⟩
  rw [Part.presenceTick_taken ht hj hline hq ho hother hhand, hremoved, hsend]
  refine ⟨by simp [Part.presenceQueued, hpcontrol], by simp [Part.presenceFrame, hpjoining], rfl, rfl, ?_,
    by simp [Part.presenceQueued, hf], State.unchanged_of_part _ _ _ fun y hy => ?_⟩
  · have hbody : p.presenceBytes = plainBody 255 0x01 (presencePayload s.part.presenceData) := by rw [← hpdata]; rfl
    rw [← hbody]
    simpa [Part.bufBytes, Part.read, Part.presenceQueued, Part.presenceFrame] using
      Part.read_presence (p := p) (hfree.2 n (by simp [hf]))
  · cases y <;> simp [Piece.same, Part.presenceQueued, ← hp] at hy ⊢

theorem State.tick_refused {q : QFrame} {rest : List QFrame} {b : Bool} (hq : s.part.fwd.control = q :: rest)
    (ho : q.owner = .presence b) (hhand : s.part.branch.tx.inHand = some .control) :
    ∃ t, exec .presenceTimerTick s = .next t ∧
      t.part.fwd = { s.part.fwd with control := { q with withdrawn := true } :: rest } ∧ Unchanged [.fwd] s t := by
  refine ⟨_, exec_of_run exec_presenceTimerTick hev, ?_⟩
  rw [Part.presenceTick_refused ht hj hline hq ho hhand]
  refine ⟨by simp, State.unchanged_of_part _ _ _ fun x hx => ?_⟩
  cases x <;> simp [Piece.same] at hx ⊢
end

end Sys2Proof.Machine
end

section
/-! PROOFS. The branch generation, and the sync order that opens a staging. -/

open Sys2Proof
namespace Sys2Proof.Machine

/-! ### the branch generation (R45) -/

/-- The higher of a generation known so far and the one a peer shows. -/
def higherGen (best : Option Nat) (d : PresenceData) : Option Nat := some (max (best.getD 0) d.activeGen)

theorem Part.branchGeneration_foldl (p : Part) : p.branchGeneration = (stations.filterMap p.shown).foldl higherGen none := rfl

theorem foldl_higherGen_le (l : List PresenceData) (best : Option Nat) (g : Nat) :
    (l.foldl higherGen best).getD 0 ≤ g ↔ best.getD 0 ≤ g ∧ ∀ d ∈ l, d.activeGen ≤ g := by
  induction l generalizing best with
  | nil => simp
  | cons d l ih =>
    rw [List.foldl_cons, ih]
    simp [higherGen, and_assoc]

theorem foldl_higherGen_isSome (l : List PresenceData) {best : Option Nat} (h : best.isSome = true ∨ l ≠ []) :
    (l.foldl higherGen best).isSome = true := by
  induction l generalizing best with
  | nil => simpa using h
  | cons d l ih => exact ih (.inl rfl)

theorem mem_stations (n : StationNo) : n ∈ stations := by
  revert n
  decide

theorem Part.branchGeneration_le {p : Part} {g : Nat} :
    p.branchGeneration.getD 0 ≤ g ↔ ∀ m d, p.shown m = some d → d.activeGen ≤ g := by
  rw [Part.branchGeneration_foldl, foldl_higherGen_le]
  simp only [Option.getD_none, Nat.zero_le, true_and, List.mem_filterMap]
  constructor
  · intro h m d hm
    exact h d ⟨m, mem_stations m, hm⟩
  · rintro h d ⟨m, -, hm⟩
    exact h m d hm

/-- A peer that no other PRESENT peer exceeds gives the branch generation. -/
theorem Part.branchGeneration_eq {p : Part} {n : StationNo} {d : PresenceData} (hn : p.shown n = some d)
    (hmax : ∀ m x, p.shown m = some x → x.activeGen ≤ d.activeGen) : p.branchGeneration = some d.activeGen := by
  have hsome : p.branchGeneration.isSome = true := by
    refine foldl_higherGen_isSome _ (.inr ?_)
    exact List.ne_nil_of_mem (List.mem_filterMap.mpr ⟨n, mem_stations n, hn⟩)
  obtain ⟨g, hg⟩ := Option.isSome_iff_exists.mp hsome
  have hle : g ≤ d.activeGen := by simpa [hg] using Part.branchGeneration_le.mpr hmax
  have hge : d.activeGen ≤ g := Part.branchGeneration_le.mp (by simp [hg]) n d hn
  rw [hg, Nat.le_antisymm hle hge]

/-! ### a sync order (R79, R84, R85, R87) -/

/-- What placing fetches leaves of the pricing unit and the trunk controller: the staging but for its fetches and skip marks, the
fetch timer and the counters. -/
def Part.apartFetches (p : Part) : Staging × Bool × PriceCounters × Trunk :=
  ({ p.price.staging with fetches := [], skips := [] }, p.price.fetchTimer, p.price.ctr, p.trk)

/-- A call the pricing unit places ends, if at all, in its inbox (R33). -/
theorem Part.placeCall_apartFetches (peer : StationNo) (r : Request) (p : Part) :
    (p.placeCall .pricing peer r).2.apartFetches = p.apartFetches := by
  unfold Part.placeCall
  split_ifs
  · rfl
  · dsimp only
    split
    next q hq =>
      have hsent := congrArg (fun x => x.2.apartFetches) hq
      simpa [Part.apartFetches] using hsent.symm
    next q hq =>
      have hsent := congrArg (fun x => x.2.apartFetches) hq
      simpa [Part.apartFetches, Part.endCall, Part.endCallWith, Part.hand] using hsent.symm

theorem Part.takeFetchEnd_apartFetches (c : Completion) (p : Part) : (p.takeFetchEnd c).apartFetches = p.apartFetches := by
  unfold Part.takeFetchEnd
  split
  · rfl
  · dsimp only
    (repeat' split) <;> rfl

theorem Part.drainFetchEnds_apartFetches (n : Nat) (p : Part) : (p.drainFetchEnds n).2.apartFetches = p.apartFetches := by
  induction n generalizing p with
  | zero => rfl
  | succ n ih =>
    unfold Part.drainFetchEnds
    split
    · rw [ih, Part.takeFetchEnd_apartFetches]
      rfl
    · rfl

theorem Part.placeFetch_apartFetches (p : Part) : p.placeFetch.2.apartFetches = p.apartFetches := by
  have hread : (p.loads .staging p.fetchBursts).apartFetches = p.apartFetches := by simp [Part.apartFetches]
  unfold Part.placeFetch
  dsimp only
  split
  · exact hread
  next src first count _ =>
    have hcall := (p.loads .staging p.fetchBursts).placeCall_apartFetches src (.fetch p.price.staging.generation first count)
    split
    · exact hread
    next tag q hq =>
      rw [hq, hread] at hcall
      exact hcall

theorem Part.checkFetch_apartFetches (p : Part) : p.checkFetch.apartFetches = p.apartFetches := by
  have hfirst := p.placeFetch_apartFetches
  unfold Part.checkFetch
  split
  next q hq => rwa [hq] at hfirst
  next q hq =>
    rw [hq] at hfirst
    dsimp only at hfirst ⊢
    generalize hr : (q.drainFetchEnds q.price.inbox.length).2 = r
    have hdrained : r.apartFetches = p.apartFetches := by rw [← hr, Part.drainFetchEnds_apartFetches, hfirst]
    have hsecond := r.placeFetch_apartFetches
    split
    next x hx =>
      rw [hx] at hsecond
      exact hsecond.trans hdrained
    next x hx =>
      rw [hx] at hsecond
      rw [Part.drainFetchEnds_apartFetches]
      exact hsecond.trans hdrained

theorem Part.askHeader_copy (u : HeaderUser) (f : HeaderCopy → HeaderCopy) (p : Part) :
    (p.askHeader u f).hdr.copy = f p.hdr.copy := by
  unfold Part.askHeader
  dsimp only
  split
  · simp [Part.presentHeader]
  · simp

/-- A staging of generation `g` is open in GAPS, with a header write asked for it; the trunk controller is as it was in `p`. -/
structure Part.SyncOpened (g : Nat) (p q : Part) : Prop where
  state : q.price.staging.state = .gaps
  generation : q.price.staging.generation = g
  n : q.price.staging.n = none
  fetchTimer : q.price.fetchTimer = true
  ctr : q.price.ctr =
    if p.price.staging.state = .empty then p.price.ctr else { p.price.ctr with sync := bump p.price.ctr.sync }
  header : q.hdr.copy = q.price.staging.toHeader p.hdr.copy
  trk : q.trk = p.trk

/-- The pricing unit after the staging has been removed for a sync order (R80, R87). -/
def Part.cleared (p : Part) : Part :=
  if p.price.staging.state = .empty then p.removeStaging else p.removeStaging.countPrice Discard.sync.count

theorem Part.removeStaging_price (p : Part) :
    p.removeStaging.price =
      { p.price with
        staging := { fetches := p.price.staging.fetches }, trigger := .disarmed, walk := none, recount := false
        pauseTimer := false, fetchTimer := false } := by
  unfold Part.removeStaging
  dsimp only
  split_ifs <;> simp

theorem Part.cleared_price (p : Part) :
    p.cleared.price.staging = { fetches := p.price.staging.fetches } ∧
      p.cleared.price.ctr =
        if p.price.staging.state = .empty then p.price.ctr else { p.price.ctr with sync := bump p.price.ctr.sync } := by
  unfold Part.cleared
  split_ifs <;> simp [Part.removeStaging_price, Part.countPrice, Discard.count]

/-- An order for a generation above those held and staged opens the staging for it. -/
theorem Part.syncOrder_eq {p : Part} {g : Nat} (hswitch : p.price.switching = none) (hactive : p.price.activeGen < g)
    (hstaged : p.price.staging.state = .empty ∨ p.price.staging.generation < g) :
    p.syncOrder g = (p.cleared.modStaging fun s => { s with generation := g }).enterGaps := by
  have hnew : ¬ (p.price.staging.state ≠ .empty ∧ g ≤ p.price.staging.generation) := by
    rintro ⟨hfull, hold⟩
    rcases hstaged with h | h
    · exact hfull h
    · omega
  simp only [Part.syncOrder, hswitch, Nat.not_le.mpr hactive, hnew, Option.isSome_none, Bool.false_eq_true, if_false]
  rfl

theorem Part.syncOrder_opens {p : Part} {g : Nat} (hswitch : p.price.switching = none) (hactive : p.price.activeGen < g)
    (hstaged : p.price.staging.state = .empty ∨ p.price.staging.generation < g) : p.SyncOpened g (p.syncOrder g) := by
  rw [Part.syncOrder_eq hswitch hactive hstaged]
  obtain ⟨hstaging, hctr⟩ := p.cleared_price
  have htrk : p.cleared.trk = p.trk := by unfold Part.cleared; split_ifs <;> simp
  have hhdr : p.cleared.hdr = p.hdr := by unfold Part.cleared; split_ifs <;> simp
  generalize hq : (p.cleared.modStaging fun s => { s with generation := g }).stagingTo .gaps = q
  have hprice : q.price.staging = { fetches := p.price.staging.fetches, generation := g, state := .gaps } ∧
      q.price.fetchTimer = true ∧ q.price.ctr = p.cleared.price.ctr := by
    rw [← hq]
    simp [Part.stagingTo, Part.modStaging, hstaging]
  have hcopy : q.hdr.copy = q.price.staging.toHeader p.hdr.copy := by
    rw [← hq]
    simp [Part.stagingTo, Part.askHeader_copy, hhdr, Part.modStaging]
  have hqtrk : q.trk = p.trk := by
    rw [← hq]
    simp [Part.modStaging, htrk]
  have hgaps : (p.cleared.modStaging fun s => { s with generation := g }).enterGaps = q.checkFetch := by rw [← hq]; rfl
  rw [hgaps]
  obtain ⟨hqstaging, hqtimer, hqctr⟩ := hprice
  have hfetch := q.checkFetch_apartFetches
  simp only [Part.apartFetches, Prod.mk.injEq] at hfetch
  obtain ⟨hrecord, htimer, hcount, hline⟩ := hfetch
  have hkept : q.checkFetch.hdr.copy = q.hdr.copy := by simp
  have hheader := congrArg (fun x => x.toHeader p.hdr.copy) hrecord
  rw [hqstaging] at hrecord
  exact
    { state := congrArg Staging.state hrecord
      generation := congrArg Staging.generation hrecord
      n := congrArg Staging.n hrecord
      fetchTimer := htimer.trans hqtimer
      ctr := hcount.trans (hqctr.trans hctr)
      header := hkept.trans (hcopy.trans hheader.symm)
      trk := hline.trans hqtrk }

/-- An order for a generation held or staged does nothing. -/
theorem Part.syncOrder_held {p : Part} {g : Nat} (hswitch : p.price.switching = none)
    (hheld : g ≤ p.price.activeGen ∨ (p.price.staging.state ≠ .empty ∧ g ≤ p.price.staging.generation)) :
    p.syncOrder g = p := by
  unfold Part.syncOrder
  rcases hheld with h | h
  · simp [hswitch, h]
  · simp [hswitch, h]

end Sys2Proof.Machine
end

section
/-! PROOFS. Entering and leaving SYNC. -/

open Sys2Proof
namespace Sys2Proof.Machine

/-! ### the joining states about SYNC (R45 to R47) -/

section
variable {p : Part} (hhead : p.lab.headUp = false) (hline : p.trk.line ≠ .up)
include hhead hline

/-- With no generation to reach, SYNC is entered without a target. -/
theorem Part.enterSync_untargeted (hg : p.branchGeneration.getD 0 = 0) :
    p.enterSync = { p with pres := { p.pres with joining := .sync, syncTarget := none } } := by
  have htarget : p.branchGeneration = none ∨ p.branchGeneration = some 0 := by
    cases h : p.branchGeneration with
    | none => exact .inl rfl
    | some g => exact .inr (by simpa [h] using hg)
  rcases htarget with h | h <;>
    simp only [Part.enterSync, h] <;>
    exact Part.setJoining_alone (j := .sync) (by decide) (by decide) (.inr hhead) (.inr hline)

/-- SYNC is entered with the branch generation as its target, and the sync order is given. -/
theorem Part.enterSync_targeted {g : Nat} (hg : p.branchGeneration = some g) (hpos : 0 < g) :
    p.enterSync = ({ p with pres := { p.pres with joining := .sync, syncTarget := some g } } : Part).syncOrder g := by
  obtain ⟨k, rfl⟩ : ∃ k, g = k + 1 := ⟨g - 1, by omega⟩
  have hentered : (p.modPres fun x => { x with syncTarget := some (k + 1) }).setJoining .sync =
      { p with pres := { p.pres with joining := .sync, syncTarget := some (k + 1) } } :=
    Part.setJoining_alone (j := .sync) (by decide) (by decide) (.inr hhead) (.inr hline)
  simp only [Part.enterSync, hg, hentered]

theorem Part.endAnnouncing_ready (hj : p.pres.joining = .announcing) (hwarm : p.pres.coldStarted = false)
    (hg : p.branchGeneration.getD 0 ≤ p.price.activeGen) :
    p.endAnnouncing = { p with pres := { p.pres with joining := .ready } } := by
  have hlevel : ¬ (p.pres.coldStarted = true ∨ p.price.activeGen < p.branchGeneration.getD 0) := by simp [hwarm, hg]
  simp only [Part.endAnnouncing, hj, hlevel, if_true, if_false]
  exact Part.setJoining_alone (j := .ready) (by decide) (by decide) (.inr hhead) (.inr hline)

theorem Part.syncCheck_leaves (hj : p.pres.joining = .sync) (hover : p.syncOver = true) :
    p.syncCheck = { p with pres := { p.pres with joining := .ready, syncTarget := none } } := by
  simp only [Part.syncCheck, hj, hover, if_true]
  exact Part.setJoining_alone (by decide) (by decide) (.inr hhead) (.inr hline)
end

theorem Part.branchGeneration_some {p : Part} {g : Nat} (hg : g = p.branchGeneration.getD 0) (hpos : 0 < g) :
    p.branchGeneration = some g := by
  cases h : p.branchGeneration with
  | none => simp [h] at hg; omega
  | some k => simp [hg, h]

theorem Part.endAnnouncing_sync {p : Part} (hj : p.pres.joining = .announcing)
    (h : p.pres.coldStarted = true ∨ p.price.activeGen < p.branchGeneration.getD 0) : p.endAnnouncing = p.enterSync := by
  simp only [Part.endAnnouncing, hj, h, if_true]

theorem Part.syncOver_iff {p : Part} :
    p.syncOver = true ↔
      (p.pres.coldStarted = false ∨ p.pres.switched = true) ∧ p.branchGeneration.getD 0 ≤ p.price.activeGen := by
  unfold Part.syncOver
  cases p.branchGeneration <;> simp

theorem Part.syncOver_of_behind {p : Part} (h : p.price.activeGen < p.branchGeneration.getD 0) : p.syncOver = false := by
  rw [Bool.eq_false_iff, Ne, Part.syncOver_iff]
  exact fun hover => absurd hover.2 (Nat.not_le.mpr h)

/-- The end of ANNOUNCING where the generation to reach is held or staged: the sync order changes nothing. -/
theorem Part.endAnnouncing_held {p : Part} {g : Nat} (hhead : p.lab.headUp = false) (hline : p.trk.line ≠ .up)
    (hj : p.pres.joining = .announcing) (hg : g = p.branchGeneration.getD 0)
    (hbehind : p.pres.coldStarted = true ∨ p.price.activeGen < g) (hswitch : p.price.switching = none)
    (hheld : g ≤ p.price.activeGen ∨ (p.price.staging.state ≠ .empty ∧ g ≤ p.price.staging.generation)) :
    p.endAnnouncing =
      { p with pres := { p.pres with joining := .sync, syncTarget := if g = 0 then none else some g } } := by
  rw [Part.endAnnouncing_sync hj (hg ▸ hbehind)]
  by_cases hzero : g = 0
  · rw [if_pos hzero]
    exact Part.enterSync_untargeted hhead hline (hg.symm.trans hzero)
  · have hpos : 0 < g := Nat.pos_of_ne_zero hzero
    rw [if_neg hzero, Part.enterSync_targeted hhead hline (Part.branchGeneration_some hg hpos) hpos]
    exact Part.syncOrder_held (by exact hswitch) (by exact hheld)

/-- The end of ANNOUNCING where it is neither: SYNC is entered and the order given. -/
theorem Part.endAnnouncing_orders {p : Part} {g : Nat} (hhead : p.lab.headUp = false) (hline : p.trk.line ≠ .up)
    (hj : p.pres.joining = .announcing) (hg : g = p.branchGeneration.getD 0) (hactive : p.price.activeGen < g) :
    p.endAnnouncing = ({ p with pres := { p.pres with joining := .sync, syncTarget := some g } } : Part).syncOrder g := by
  have hpos : 0 < g := by omega
  rw [Part.endAnnouncing_sync hj (.inr (hg ▸ hactive)),
    Part.enterSync_targeted hhead hline (Part.branchGeneration_some hg hpos) hpos]

/-- In SYNC a branch generation above the target raises it, and the sync order is given again. -/
theorem Part.syncCheck_raises {p : Part} {g : Nat} (hj : p.pres.joining = .sync) (hg : p.branchGeneration = some g)
    (hactive : p.price.activeGen < g) (ht : p.pres.syncTarget.getD 0 < g) :
    p.syncCheck = ({ p with pres := { p.pres with syncTarget := some g } } : Part).syncOrder g := by
  have hgoes : p.syncOver = false := Part.syncOver_of_behind (by simpa [hg] using hactive)
  simp only [Part.syncCheck, hj, hgoes, hg, ht, if_true, Bool.false_eq_true, if_false]
  rw [← hj]
  rfl

/-- In SYNC below a target that is the branch generation, nothing changes. -/
theorem Part.syncCheck_stays {p : Part} (hactive : p.price.activeGen < p.branchGeneration.getD 0)
    (ht : p.pres.syncTarget = p.branchGeneration) : p.syncCheck = p := by
  have hgoes : p.syncOver = false := Part.syncOver_of_behind hactive
  unfold Part.syncCheck
  simp only [hgoes, Bool.false_eq_true, if_false]
  split_ifs
  · split
    next g hg => simp [ht, hg]
    next => rfl
  · rfl

/-- A READY station whose staging has the generation stays READY (R47). -/
theorem Part.readyCheck_staged {p : Part} {g : Nat} (hs : p.price.staging.state = .receiving ∨ p.price.staging.state = .complete)
    (hg : g ≤ p.price.staging.generation) : p.readyCheck g = p := by
  unfold Part.readyCheck
  exact if_neg fun h => h.2.2 ⟨hs, hg⟩

/-- A READY station without it enters SYNC (R47). -/
theorem Part.readyCheck_enters {p : Part} {g : Nat} (hj : p.pres.joining = .ready) (hactive : p.price.activeGen < g)
    (hs : p.price.staging.state = .empty ∨ p.price.staging.generation < g) : p.readyCheck g = p.enterSync := by
  refine if_pos ⟨hj, hactive, ?_⟩
  rintro ⟨hfull, hold⟩
  rcases hs with h | h
  · simp [h] at hfull
  · omega

/-! ### the first PRESENCE has left the line (R6, R7, R45) -/

/-- The part with a fourth collision counted, and its frame dropped. -/
def Part.fourthCollision (p : Part) : Part :=
  ((p.modBranch fun b => { b with collisions := bump b.collisions }).readOn false).modBranch fun b =>
    { b with collisionDrops := bump b.collisionDrops }

/-- A frame dropped after its fourth collision: its owner's dropped notice follows (R7). -/
theorem Part.collision_head {p : Part} {c : Cls} {q : QFrame} {rest : List QFrame} (ht : p.branch.tx = .sending c)
    (hq : p.fwd.queue c = q :: rest) (hw : q.withdrawn = false) (h3 : q.collisions = 3) :
    ∃ b a,
      p.collision =
        ({ p with fwd := (p.fwd.setQueue c rest).giveBack q.buf, branch := b, asks := a } : Part).droppedNotice q.owner := by
  obtain ⟨x, a, h⟩ := p.fourthCollision.handLeaves_eq hq
  have hcollision : p.collision = (p.fourthCollision.handLeaves c).droppedNotice q.owner := by
    simp only [Part.collision, ht, hq, Part.collided, hw, h3, Config.maxCollisions, Nat.lt_irrefl, Bool.false_eq_true, if_false]
    rfl
  refine ⟨(p.fourthCollision.handLeaves c).branch, a, ?_⟩
  rw [hcollision, h]
  rfl

/-- Sent, or dropped, the first PRESENCE ends ANNOUNCING. -/
theorem State.firstPresence_leaves {s : State} {i : Instr} {c : Cls} {q : QFrame} {rest : List QFrame}
    (hev : s.supply.takesEvents = true) (ht : s.part.branch.tx = .sending c) (hq : s.part.fwd.queue c = q :: rest)
    (ho : q.owner = .presence true) (hi : i = .frameSent ∨ (i = .collision ∧ q.collisions = 3 ∧ q.withdrawn = false)) :
    ∃ b a,
      exec i s =
        .next
          { s with
            part :=
              ({ s.part with fwd := (s.part.fwd.setQueue c rest).giveBack q.buf, branch := b, asks := a } : Part).endAnnouncing
          }.settle := by
  rcases hi with rfl | ⟨rfl, h3, hw⟩
  · obtain ⟨x, a, h⟩ := Part.frameSent_head ht hq
    refine ⟨s.part.branch.sentOne ((s.part.fwd.setQueue c rest).giveBack q.buf).restTx x, a,
      (exec_of_run exec_frameSent hev).trans ?_⟩
    rw [h, ho]
    rfl
  · obtain ⟨b, a, h⟩ := Part.collision_head ht hq hw h3
    refine ⟨b, a, (exec_of_run exec_collision hev).trans ?_⟩
    rw [h, ho]
    rfl

/-! ### what peers show after a presence and after a silence -/

theorem Part.shown_heard (n : StationNo) (d : PresenceData) (rest : List KeptPresence) (routes : Vector RouteEntry 32)
    (skips : List StationNo) (p : Part) (m : StationNo) :
    ((p.heard n d rest).noticed routes skips).shown m = if m = n then some d else p.shown m := by
  have hpeer : ((p.heard n d rest).noticed routes skips).peer m = (p.heard n d rest).peer m := rfl
  unfold Part.shown
  rw [hpeer, Part.heard_peer]
  by_cases hm : m = n <;> simp [hm]

theorem Part.shown_lost (n : StationNo) (routes : Vector RouteEntry 32) (skips : List StationNo) (p : Part) (m : StationNo) :
    ((p.lost n).noticed routes skips).shown m = if m = n then none else p.shown m := by
  have hpeer : ((p.lost n).noticed routes skips).peer m = (p.lost n).peer m := rfl
  unfold Part.shown
  rw [hpeer, Part.lost_peer]
  by_cases hm : m = n <;> simp [hm]

/-! ### the clauses of ANNOUNCING ended (R45, R46) -/

section
variable {s : State} {i : Instr} {c : Cls} {q : QFrame} {rest : List QFrame} (hev : s.supply.takesEvents = true)
  (hhead : s.part.lab.headUp = false) (hline : s.part.trk.line ≠ .up) (ht : s.part.branch.tx = .sending c)
  (hq : s.part.fwd.queue c = q :: rest) (ho : q.owner = .presence true) (hj : s.part.pres.joining = .announcing)
  (hi : i = .frameSent ∨ (i = .collision ∧ q.collisions = 3 ∧ q.withdrawn = false))
include hev hhead hline ht hq ho hj hi

theorem State.announcing_ready (hwarm : s.part.pres.coldStarted = false)
    (hg : s.part.branchGeneration.getD 0 ≤ s.part.price.activeGen) :
    ∃ t, exec i s = .next t ∧ t.part.pres = { s.part.pres with joining := .ready } ∧
      t.part.fwd = (s.part.fwd.setQueue c rest).giveBack q.buf ∧ Unchanged [.branch, .fwd, .pres] s t := by
  obtain ⟨b, a, hexec⟩ := State.firstPresence_leaves hev ht hq ho hi
  refine ⟨_, hexec, ?_⟩
  rw [Part.endAnnouncing_ready (by exact hhead) (by exact hline) (by exact hj) (by exact hwarm) (by exact hg)]
  refine ⟨by simp, by simp, State.unchanged_of_part _ _ _ fun x hx => ?_⟩
  cases x <;> simp [Piece.same] at hx ⊢

section
variable {g : Nat} (hg : g = s.part.branchGeneration.getD 0) (hswitch : s.part.price.switching = none)
include hg hswitch

/-- SYNC is entered, and the sync order changes nothing. -/
theorem State.announcing_sync_held (hbehind : s.part.pres.coldStarted = true ∨ s.part.price.activeGen < g)
    (hheld : g ≤ s.part.price.activeGen ∨
      (s.part.price.staging.state ≠ .empty ∧ g ≤ s.part.price.staging.generation)) :
    ∃ t, exec i s = .next t ∧
      t.part.pres = { s.part.pres with joining := .sync, syncTarget := if g = 0 then none else some g } ∧
      t.part.fwd = (s.part.fwd.setQueue c rest).giveBack q.buf ∧ Unchanged [.branch, .fwd, .pres] s t := by
  obtain ⟨b, a, hexec⟩ := State.firstPresence_leaves hev ht hq ho hi
  refine ⟨_, hexec, ?_⟩
  rw [Part.endAnnouncing_held (by exact hhead) (by exact hline) (by exact hj) (by exact hg) (by exact hbehind) (by exact hswitch)
    (by exact hheld)]
  refine ⟨by simp, by simp, State.unchanged_of_part _ _ _ fun x hx => ?_⟩
  cases x <;> simp [Piece.same] at hx ⊢

/-- SYNC is entered, and the sync order opens the staging. -/
theorem State.announcing_sync_opens (hactive : s.part.price.activeGen < g) (hempty : s.part.price.staging = {}) :
    ∃ t, exec i s = .next t ∧ t.part.pres = { s.part.pres with joining := .sync, syncTarget := some g } ∧
      t.part.price.staging.state = .gaps ∧ t.part.price.staging.generation = g ∧
      t.part.price.staging.n = none ∧ t.part.price.fetchTimer = true ∧
      t.part.hdr.copy = t.part.price.staging.toHeader s.part.hdr.copy ∧
      Unchanged [.branch, .fwd, .call, .pres, .price, .hdr, .memory] s t := by
  obtain ⟨b, a, hexec⟩ := State.firstPresence_leaves hev ht hq ho hi
  refine ⟨_, hexec, ?_⟩
  rw [Part.endAnnouncing_orders (by exact hhead) (by exact hline) (by exact hj) (by exact hg) (by exact hactive)]
  obtain ⟨hstate, hgen, hn, htimer, -, hheader, htrk⟩ :=
    Part.syncOrder_opens
      (p :=
        { s.part with
          fwd := (s.part.fwd.setQueue c rest).giveBack q.buf, branch := b, asks := a
          pres := { s.part.pres with joining := .sync, syncTarget := some g } })
      (g := g) hswitch hactive (.inl (by simp [hempty]))
  refine ⟨by simp, by simpa using hstate, by simpa using hgen, by simpa using hn, by simpa using htimer, by simpa using hheader,
    State.unchanged_of_part _ _ _ fun x hx => ?_⟩
  cases x <;> simp [Piece.same, htrk] at hx ⊢
end
end

/-! ### the clauses of a newer presence (R46, R47) -/

/-- The SYNC checks of a presence that raises the branch generation: READY is left, or the target is raised, and the order given. -/
theorem Part.syncChecks_order {p : Part} {g : Nat} (hhead : p.lab.headUp = false) (hline : p.trk.line ≠ .up)
    (hg : p.branchGeneration = some g) (hactive : p.price.activeGen < g)
    (hj : p.pres.joining = .ready ∨ (p.pres.joining = .sync ∧ p.pres.syncTarget.getD 0 < g))
    (hs : p.price.staging.state = .empty ∨ p.price.staging.generation < g) :
    (p.syncCheck).readyCheck g =
      ({ p with pres := { p.pres with joining := .sync, syncTarget := some g } } : Part).syncOrder g := by
  rcases hj with hj | ⟨hj, ht⟩
  · rw [Part.syncCheck_of_not_sync (by simp [hj]), Part.readyCheck_enters hj hactive hs]
    exact Part.enterSync_targeted hhead hline hg (by omega)
  · rw [Part.syncCheck_raises hj hg hactive ht, Part.readyCheck_of_not_ready _ (by simp [hj]), ← hj]

section
variable {s : State} {k : KeptPresence} {rest : List KeptPresence} {d : PresenceData} {cfg : ConfigBlock}
  (hev : s.supply.takesEvents = true) (hin : s.part.pres.inbox = k :: rest) (hk : k.read = some d)
  (hc : s.part.cfg = some cfg) (hn : k.station ≠ cfg.station) (hclock : s.part.pres.clock.valid = true)
  (hnight : d.night = .claiming ∨ d.night = .standby) (htable : s.part.trk.table = [])
include hev hin hk hc hn hclock hnight htable

/-- A presence of a newer peer puts the station in SYNC, and opens a staging for its generation. -/
theorem State.presence_orders (hhead : s.part.lab.headUp = false) (hline : s.part.trk.line ≠ .up)
    (hothers : ∀ m x, m ≠ k.station → s.part.shown m = some x → x.activeGen ≤ d.activeGen)
    (hj : s.part.pres.joining = .ready ∨ (s.part.pres.joining = .sync ∧ s.part.pres.syncTarget.getD 0 < d.activeGen))
    (hs : s.part.price.staging.state = .empty ∨
      (s.part.price.staging.state = .receiving ∧ s.part.price.staging.generation < d.activeGen))
    (hactive : s.part.price.activeGen < d.activeGen) (hswitch : s.part.price.switching = none) :
    ∃ t, exec .presenceReceived s = .next t ∧
      t.part.pres =
        { s.part.pres with
          inbox := rest, joining := .sync, syncTarget := some d.activeGen
          peers := s.part.pres.peers.set k.station.val { state := .present, last := some d, silence := true }
          ctr := { s.part.pres.ctr with taken := bump s.part.pres.ctr.taken } } ∧
      t.part.price.staging.state = .gaps ∧ t.part.price.staging.generation = d.activeGen ∧
      t.part.price.staging.n = none ∧ t.part.price.fetchTimer = true ∧
      t.part.price.ctr =
        (if s.part.price.staging.state = .empty then s.part.price.ctr
         else { s.part.price.ctr with sync := bump s.part.price.ctr.sync }) ∧
      t.part.hdr.copy = t.part.price.staging.toHeader s.part.hdr.copy ∧
      Unchanged [.branch, .fwd, .call, .pres, .price, .hdr, .memory] s t := by
  have hgaps : s.part.price.staging.state ≠ .gaps := by rcases hs with h | ⟨h, -⟩ <;> simp [h]
  have hbelow : s.part.price.staging.state = .empty ∨ s.part.price.staging.generation < d.activeGen := hs.imp_right And.right
  obtain ⟨routes, skips, hpresence, -⟩ := Part.presence_heard hc hgaps hin hk hn hnight htable
  have hshown := Part.shown_heard k.station d rest routes skips s.part
  have hgen : ((s.part.heard k.station d rest).noticed routes skips).branchGeneration = some d.activeGen := by
    refine Part.branchGeneration_eq (n := k.station) (by simp [hshown]) fun m x hx => ?_
    rw [hshown] at hx
    by_cases hm : m = k.station
    · rw [if_pos hm, Option.some_inj] at hx
      rw [hx]
    · rw [if_neg hm] at hx
      exact hothers m x hm hx
  rw [Part.syncChecks_order (by exact hhead) (by exact hline) hgen (by exact hactive) (by exact hj) (by exact hbelow)] at hpresence
  have hopened := Part.syncOrder_opens
    (p :=
      { (s.part.heard k.station d rest).noticed routes skips with
        pres :=
          { ((s.part.heard k.station d rest).noticed routes skips).pres with
            joining := .sync, syncTarget := some d.activeGen } })
    (g := d.activeGen) hswitch hactive hbelow
  rw [Part.clockFrom_of_valid _ (by simp [Part.noticed, Part.heard, hclock]) (by rcases hnight with h | h <;> simp [h])]
    at hpresence
  obtain ⟨hstate, hgeneration, hcount, htimer, hctr, hheader, htrk⟩ := hopened
  refine ⟨_, exec_of_run exec_presenceReceived hev, ?_⟩
  rw [hpresence]
  refine ⟨by simp [Part.noticed, Part.heard], by simpa using hstate, by simpa using hgeneration, by simpa using hcount,
    by simpa using htimer, ?_, ?_, State.unchanged_of_part _ _ _ fun x hx => ?_⟩
  · rw [State.settle_price]
    exact hctr
  · rw [State.settle_price, State.settle_hdr]
    exact hheader
  · cases x <;> simp [Piece.same, htrk] at hx ⊢ <;> simp [Part.noticed, Part.heard]

/-- A READY station that has the generation staged takes the presence, and no more. -/
theorem State.presence_staged (hj : s.part.pres.joining = .ready)
    (hs : s.part.price.staging.state = .receiving ∨ s.part.price.staging.state = .complete)
    (hg : d.activeGen ≤ s.part.price.staging.generation) :
    ∃ t, exec .presenceReceived s = .next t ∧
      t.part.pres =
        { s.part.pres with
          inbox := rest
          peers := s.part.pres.peers.set k.station.val { state := .present, last := some d, silence := true }
          ctr := { s.part.pres.ctr with taken := bump s.part.pres.ctr.taken } } ∧
      Unchanged [.fwd, .pres, .price] s t := by
  have hgaps : s.part.price.staging.state ≠ .gaps := by rcases hs with h | h <;> simp [h]
  obtain ⟨routes, skips, hpresence, -⟩ := Part.presence_heard hc hgaps hin hk hn hnight htable
  rw [Part.syncCheck_of_not_sync (by simp [Part.noticed, Part.heard, hj]), Part.readyCheck_staged (by exact hs) (by exact hg),
    Part.clockFrom_of_valid _ (by exact hclock) (by rcases hnight with h | h <;> simp [h])] at hpresence
  refine ⟨_, exec_of_run exec_presenceReceived hev, ?_⟩
  rw [hpresence]
  refine ⟨by simp [Part.noticed, Part.heard], State.unchanged_of_part _ _ _ fun x hx => ?_⟩
  cases x <;> simp [Piece.same, Part.noticed, Part.heard] at hx ⊢
end

/-! ### the clause of a silence in SYNC (R46, R51) -/

/-- The last newer peer falls silent: the station leaves SYNC. -/
theorem State.silence_leaves {s : State} {n : StationNo} {cfg : ConfigBlock} (hev : s.supply.takesEvents = true)
    (hhead : s.part.lab.headUp = false) (hline : s.part.trk.line ≠ .up) (hj : s.part.pres.joining = .sync)
    (hc : s.part.cfg = some cfg) (hs : (s.part.peer n).state = .present) (ht : (s.part.peer n).silence = true)
    (hholder : s.part.trk.holder = none) (hempty : s.part.price.staging.state = .empty)
    (hwarm : s.part.pres.coldStarted = false ∨ s.part.pres.switched = true)
    (hothers : ∀ m x, m ≠ n → s.part.shown m = some x → x.activeGen ≤ s.part.price.activeGen) :
    ∃ t, exec (.peerSilenceExpiry n) s = .next t ∧
      t.part.pres =
        { s.part.pres with
          joining := .ready, syncTarget := none
          peers := s.part.pres.peers.set n.val { s.part.peer n with state := .absent, silence := false }
          ctr := { s.part.pres.ctr with peersLost := bump s.part.pres.ctr.peersLost } } ∧
      Unchanged [.fwd, .pres, .price] s t := by
  obtain ⟨routes, skips, hsilence, -⟩ := Part.peerSilence_lost hc (by simp [hempty]) hs ht hholder
  have hover : ((s.part.lost n).noticed routes skips).syncOver = true := by
    refine Part.syncOver_iff.mpr ⟨hwarm, Part.branchGeneration_le.mpr fun m x hx => ?_⟩
    rw [Part.shown_lost] at hx
    by_cases hm : m = n
    · simp [hm] at hx
    · rw [if_neg hm] at hx
      exact hothers m x hm hx
  rw [Part.syncCheck_leaves (by exact hhead) (by exact hline) (by exact hj) hover] at hsilence
  refine ⟨_, exec_of_run (exec_peerSilenceExpiry n) hev, ?_⟩
  rw [hsilence]
  refine ⟨by simp [Part.noticed, Part.lost], State.unchanged_of_part _ _ _ fun x hx => ?_⟩
  cases x <;> simp [Piece.same, Part.noticed, Part.lost] at hx ⊢

end Sys2Proof.Machine
end

section
/-! PROOFS. The bank switch of a station in SYNC. -/

open Sys2Proof
namespace Sys2Proof.Machine

theorem exec_headerWriteDone (s : State) : exec .headerWriteDone s = s.run Part.headerWritten := rfl

/-! ### the label table across a switch (R79, R133) -/

/-- The staging map lies outside the label table. -/
theorem Part.labelAt_of_map_wiped {p q : Part} (h : q.dram = Mem.wipe p.dram Config.mapBase (Config.mapBase + Config.mapSize))
    {i : Nat} (hi : i < Config.labelSlots) : q.labelAt i = p.labelAt i := by
  have hbytes : q.labelBytes i = p.labelBytes i := by
    refine Mem.readBytes_congr _ _ _ _ fun x hlo hhi => ?_
    rw [h, Mem.read_wipe]
    refine if_neg ?_
    simp only [labelAddr, Config.labelBase, Config.labelBytes, Config.mapBase, Config.mapSize, Config.labelSlots] at *
    omega
  simp [Part.labelAt, hbytes]

/-! ### the switch (R90) -/

theorem Part.switchBank_dram (holds : Nat) (p : Part) :
    (p.switchBank holds).dram = Mem.wipe p.dram Config.mapBase (Config.mapBase + Config.mapSize) := by
  simp [Part.switchBank, Part.clearMap, Part.wipe]

/-- The generation switched to; what the label service and a waiting sync order see of the pricing unit is as it was. -/
theorem Part.switchBank_price (holds : Nat) (p : Part) :
    (p.switchBank holds).price.activeGen = p.price.staging.generation ∧
      (p.switchBank holds).price.events = p.price.events ∧ (p.switchBank holds).price.syncWaits = p.price.syncWaits := by
  unfold Part.switchBank
  simp

/-! ### the notice to the label service (R145) -/

/-- With no label in use no walk mark is cleared: the count pass is asked at once. -/
theorem Part.startWalk_of_no_labels {p : Part} (h : ∀ i, i < 4096 → p.labelAt i = none) (he : p.price.events = []) :
    p.startWalk.price = { p.price with events := [.countPass] } ∧ p.startWalk.lab = { p.lab with walk := .counting } := by
  have hnone : p.labelsInUse = [] := by
    unfold Part.labelsInUse
    simp only [List.filter_eq_nil_iff, List.mem_range]
    intro i hi
    simp [h i hi]
  simp [Part.startWalk, hnone, Part.sendEvent, he, Part.takeWalkEnds]

/-- The part when the presence unit takes the notice of a switch, the label service having begun its walk. -/
def Part.walkBegun (holds : Nat) (p : Part) : Part :=
  ((p.switchBank holds).startWalk).modPres fun x => { x with switched := true }

theorem Part.walkBegun_pres (holds : Nat) (p : Part) : (p.walkBegun holds).pres = { p.pres with switched := true } := by
  simp [Part.walkBegun]

theorem Part.walkBegun_kept {p : Part} (holds : Nat) (hlabels : ∀ i, i < 4096 → p.labelAt i = none) (he : p.price.events = [])
    (hw : p.price.syncWaits = none) :
    (p.walkBegun holds).price.activeGen = p.price.staging.generation ∧ (p.walkBegun holds).price.syncWaits = none ∧
      (p.walkBegun holds).lab.headUp = p.lab.headUp := by
  obtain ⟨hgen, hevents, hwaits⟩ := p.switchBank_price holds
  obtain ⟨hprice, hlab⟩ := (p.switchBank holds).startWalk_of_no_labels
    (fun i hi => (Part.labelAt_of_map_wiped (p.switchBank_dram holds) hi).trans (hlabels i hi)) (hevents.trans he)
  simp [Part.walkBegun, hprice, hlab, hgen, hwaits, hw]

theorem Part.branchGeneration_congr {p q : Part} (h : q.pres.peers = p.pres.peers) : q.branchGeneration = p.branchGeneration := by
  have hshown : q.shown = p.shown := by
    funext m
    unfold Part.shown Part.peer
    rw [h]
  simp [Part.branchGeneration, hshown]

/-- The notice of the switch: the label walk, the SYNC checks, and no sync order that waited. -/
theorem Part.bankSwitched_eq {p : Part} {holds : Nat} (hwarm : p.lab.warm = .none)
    (hw : ((p.walkBegun holds).syncCheck).price.syncWaits = none) :
    (p.switchBank holds).bankSwitched = (p.walkBegun holds).syncCheck := by
  have hnotice : (p.switchBank holds).switchNotice = (p.switchBank holds).startWalk := by simp [Part.switchNotice, hwarm]
  unfold Part.bankSwitched
  rw [hnotice]
  change (p.walkBegun holds).syncCheck.takeWaitingSync = _
  simp [Part.takeWaitingSync, hw]

/-- The part with its header write taken as finished, and no other waiting. -/
def Part.headerLanded (p : Part) : Part :=
  { p with hdr := { p.hdr with inFlight := none, finished := false, waiting := [] } }

/-- The header write of a switch, with no other asked meanwhile, switches the bank (R90, R192). -/
theorem Part.headerWritten_switch {p : Part} {h : HeaderCopy} {holds : Nat} (hfly : p.hdr.inFlight = some (h, [.pricing]))
    (hfin : p.hdr.finished = true) (hwait : p.hdr.waiting = []) (hsw : p.price.switching = some holds) :
    p.headerWritten = (p.headerLanded.switchBank holds).bankSwitched := by
  simp only [Part.headerWritten, hfly, hfin, hwait, if_true]
  simp [Part.presentHeader, Part.headerNotice, Part.pricingHeaderNotice, Part.headerLanded, Part.modHdr, hsw]

/-! ### the clauses of the switch in SYNC (R46, R90) -/

section
variable {s : State} {h : HeaderCopy} {holds : Nat} (hev : s.supply.takesEvents = true)
  (hfly : s.part.hdr.inFlight = some (h, [.pricing])) (hfin : s.part.hdr.finished = true) (hwait : s.part.hdr.waiting = [])
  (hsw : s.part.price.switching = some holds) (he : s.part.price.events = [])
  (hw : s.part.price.syncWaits = none) (hwarm : s.part.lab.warm = .none) (hlabels : ∀ i, i < 4096 → s.part.labelAt i = none)
include hev hfly hfin hwait hsw he hw hwarm hlabels

/-- The switch to the branch generation, or above it, ends SYNC. -/
theorem State.switch_leaves (hhead : s.part.lab.headUp = false) (hline : s.part.trk.line ≠ .up)
    (hj : s.part.pres.joining = .sync) (hle : s.part.branchGeneration.getD 0 ≤ s.part.price.staging.generation) :
    ∃ t, exec .headerWriteDone s = .next t ∧
      t.part.pres = { s.part.pres with joining := .ready, syncTarget := none, switched := true } ∧
      t.part.price.activeGen = s.part.price.staging.generation ∧
      Unchanged [.price, .hdr, .pres, .lab, .jrn, .memory] s t := by
  obtain ⟨hgen, hwaits, hup⟩ := Part.walkBegun_kept (p := s.part.headerLanded) holds hlabels he hw
  have hkept : s.part.headerLanded.price = s.part.price := rfl
  have hpres : (s.part.headerLanded.walkBegun holds).pres = { s.part.pres with switched := true } :=
    s.part.headerLanded.walkBegun_pres holds
  have htrk : (s.part.headerLanded.walkBegun holds).trk = s.part.trk := by simp [Part.walkBegun, Part.headerLanded]
  have hover : (s.part.headerLanded.walkBegun holds).syncOver = true := by
    refine Part.syncOver_iff.mpr ⟨.inr (by simp [hpres]), ?_⟩
    rw [Part.branchGeneration_congr (p := s.part) (by rw [hpres]), hgen]
    exact hle
  have hleaves := Part.syncCheck_leaves (hup.trans hhead) (by rw [htrk]; exact hline) (by rw [hpres]; exact hj) hover
  have hbank := Part.bankSwitched_eq (p := s.part.headerLanded) (holds := holds) hwarm (by simp [hleaves, hwaits])
  refine ⟨_, exec_of_run exec_headerWriteDone hev, ?_⟩
  rw [Part.headerWritten_switch hfly hfin hwait hsw, hbank, hleaves]
  refine ⟨by simp [hpres], by simp [hgen, hkept], State.unchanged_of_part _ _ _ fun x hx => ?_⟩
  cases x <;> simp [Piece.same] at hx ⊢ <;> simp [Part.walkBegun, Part.headerLanded]

/-- A switch below it leaves the station in SYNC, with its target. -/
theorem State.switch_stays (hlt : s.part.price.staging.generation < s.part.branchGeneration.getD 0)
    (htarget : s.part.pres.syncTarget = s.part.branchGeneration) :
    ∃ t, exec .headerWriteDone s = .next t ∧ t.part.pres = { s.part.pres with switched := true } ∧
      t.part.price.activeGen = s.part.price.staging.generation ∧
      Unchanged [.price, .hdr, .pres, .lab, .jrn, .memory] s t := by
  obtain ⟨hgen, hwaits, -⟩ := Part.walkBegun_kept (p := s.part.headerLanded) holds hlabels he hw
  have hkept : s.part.headerLanded.price = s.part.price := rfl
  have hpres : (s.part.headerLanded.walkBegun holds).pres = { s.part.pres with switched := true } :=
    s.part.headerLanded.walkBegun_pres holds
  have hpeers := Part.branchGeneration_congr (p := s.part) (q := s.part.headerLanded.walkBegun holds) (by rw [hpres])
  have hstays := Part.syncCheck_stays (p := s.part.headerLanded.walkBegun holds) (by rw [hpeers, hgen]; exact hlt)
    (by rw [hpeers, hpres]; exact htarget)
  have hbank := Part.bankSwitched_eq (p := s.part.headerLanded) (holds := holds) hwarm (by rw [hstays, hwaits])
  refine ⟨_, exec_of_run exec_headerWriteDone hev, ?_⟩
  rw [Part.headerWritten_switch hfly hfin hwait hsw, hbank, hstays]
  refine ⟨by simp [hpres], by simp [hgen, hkept], State.unchanged_of_part _ _ _ fun x hx => ?_⟩
  cases x <;> simp [Piece.same] at hx ⊢ <;> simp [Part.walkBegun, Part.headerLanded]
end

end Sys2Proof.Machine

open Sys2Proof.Machine

/-- Settles O26, clause by clause: the PRESENCE of LISTEN and of a tick, the end of ANNOUNCING, and the ways into and out of SYNC. -/
theorem presenceIsSent : Obligations.PresenceIsSent := by
  refine fun s hev => ⟨fun hj hl ht hfree hh => State.listen_sends hev hj hl ht hfree hh, fun ht hj hline => ?_,
    fun hhead hline => ⟨fun i c q rest ht hq ho hj hi => ⟨?_, fun g hg hbehind hsw => ⟨?_, ?_⟩⟩,
      fun k rest d cfg n hin hk hn hc hown hclock hnight htable hactive _ hothers => ⟨?_, ?_⟩, fun hj => ⟨?_, ?_⟩⟩⟩
  · exact ⟨fun hnone hfree => State.tick_sends hev ht hj hline hnone hfree,
      fun hnone hfree => State.tick_skipped hev ht hj hline hnone hfree,
      fun before q behind b hq ho hother hhand hfree => State.tick_renews hev ht hj hline hq ho hother hhand hfree,
      fun q rest b hq ho hhand => State.tick_refused hev ht hj hline hq ho hhand⟩
  · exact fun hwarm hle => State.announcing_ready hev hhead hline ht hq ho hj hi hwarm hle
  · exact fun hheld => State.announcing_sync_held hev hhead hline ht hq ho hj hi hg hsw hbehind hheld
  · exact fun hactive hempty _ => State.announcing_sync_opens hev hhead hline ht hq ho hj hi hg hsw hactive hempty
  · subst hn
    exact fun hj hs hsw _ =>
      State.presence_orders hev hin hk hc hown hclock hnight htable hhead hline hothers hj
        (hs.imp_right fun h => ⟨h.1, h.2.1⟩) hactive hsw
  · subst hn
    exact fun hj hs hg => State.presence_staged hev hin hk hc hown hclock hnight htable hj hs hg
  · exact fun n cfg hc hs ht hholder hempty hwarm hothers =>
      State.silence_leaves hev hhead hline hj hc hs ht hholder hempty hwarm hothers
  · intro h holds g n hfly hfin hwait hsw hg _ he hw _ _ hwarm hlabels
    subst hg
    exact ⟨fun hle => State.switch_leaves hev hfly hfin hwait hsw he hw hwarm hlabels hhead hline hj hle,
      fun hlt htarget => State.switch_stays hev hfly hfin hwait hsw he hw hwarm hlabels hlt htarget⟩
end

section
/-! PROOFS. The pricing stages (R73 to R78). -/

open Sys2Proof
namespace Sys2Proof.Machine

/-! ### the effective and the charged price (R73, R74) -/

theorem rhu_def (a b : Nat) : rhu a b = (2 * a + b) / (2 * b) := rfl

theorem BankEntry.effective_of_not_percent {e : BankEntry} (h : e.promo ≠ 1) : e.effective = e.p := if_neg h

theorem BankEntry.effective_of_percent {e : BankEntry} (h : e.promo = 1) :
    e.effective =
      if 1 ≤ e.p ∧ e.p - (2 * (e.p * e.value) + 100) / 200 = 0 then 1
      else e.p - (2 * (e.p * e.value) + 100) / 200 := if_pos h

/-- A percentage promotion never raises a price, and never makes one of at least 1 nothing. -/
theorem BankEntry.effective_bounds (e : BankEntry) : e.effective ≤ e.p ∧ (1 ≤ e.p → 1 ≤ e.effective) := by
  by_cases hpercent : e.promo = 1
  · rw [BankEntry.effective_of_percent hpercent]
    split <;> omega
  · rw [BankEntry.effective_of_not_percent hpercent]
    exact ⟨le_rfl, id⟩

theorem BankEntry.charged_eq (e : BankEntry) :
    (e.hold = true → e.charged = min e.effective e.held) ∧ (e.hold = false → e.charged = e.effective) :=
  ⟨fun h => if_pos h, fun h => if_neg (by simp [h])⟩

/-! ### the line amount and the group discount (R75, R76) -/

theorem BankEntry.lineAmount_badRequest {e : BankEntry} {q : Nat}
    (h : q = 0 ∨ (e.kind = 0 ∧ 999 < q) ∨ (e.kind ≠ 0 ∧ 99999 < q)) : e.lineAmount q = .badRequest := by
  refine if_pos ?_
  rcases h with hzero | ⟨hkind, hq⟩ | ⟨hkind, hq⟩
  · exact .inl (by omega)
  · exact .inr (by simpa [sellEach, hkind] using hq)
  · exact .inr (by simpa [sellEach, hkind] using hq)

theorem BankEntry.lineAmount_each {e : BankEntry} {q : Nat} (hkind : e.kind = 0) (hlow : 1 ≤ q) (hhigh : q ≤ 999) :
    e.lineAmount q =
      if 99999999 < e.charged * q then .overLimit e.charged else .amount e.charged (e.charged * q) := by
  have hfits : ¬ (q = 0 ∨ 999 < q) := by omega
  simp [BankEntry.lineAmount, sellEach, hkind, hfits, Config.amountMax]

theorem BankEntry.lineAmount_measured {e : BankEntry} {q : Nat} (hkind : e.kind ≠ 0) (hlow : 1 ≤ q) (hhigh : q ≤ 99999) :
    e.lineAmount q =
      if 99999999 < (2 * (e.charged * q) + 1000) / 2000 then .overLimit e.charged
      else .amount e.charged ((2 * (e.charged * q) + 1000) / 2000) := by
  have hfits : ¬ (q = 0 ∨ 99999 < q) := by omega
  simp [BankEntry.lineAmount, sellEach, hkind, hfits, Config.amountMax, rhu_def]

/-- With no group completed the discount is 0, as the formula for one or more gives. -/
theorem groupDiscount_d (n m charged told q total : Nat) :
    (groupDiscount n m charged told q total).d =
      min (((told + q) / n - told / n) * (n * charged - m)) total := by
  by_cases hg : (told + q) / n - told / n = 0
  · simp [groupDiscount, hg]
  · simp [groupDiscount, hg]

/-! ### what a label shows (R78) -/

theorem shownOf_cases (x : Nat) : (x ≤ 999999 → shownOf x = .value x) ∧ (999999 < x → shownOf x = .over) :=
  ⟨fun h => if_neg (by simpa [Config.labelValueMax] using h), fun h => if_pos h⟩

theorem BankEntry.stage5_main (e : BankEntry) :
    e.stage5.1 = shownOf (if e.kind ≠ 0 ∧ e.ref = 1 then (2 * (e.effective * 1000) + 1000) / 2000
      else if e.kind ≠ 0 ∧ e.ref = 2 then (2 * (e.effective * 100) + 1000) / 2000 else e.effective) := by
  by_cases hkind : e.kind = 0
  · simp [BankEntry.stage5, sellEach, hkind]
  · simp [BankEntry.stage5, sellEach, hkind, rhu_def]

theorem BankEntry.stage5_noUnit {e : BankEntry} (h : e.kind ≠ 0 ∨ e.c = 0 ∨ e.ref = 0) : e.stage5.2.1 = .none := by
  refine if_neg fun hall => ?_
  obtain ⟨hkind, hc, href⟩ := hall
  rcases h with hother | hzero | hnone
  · exact hother hkind
  · omega
  · exact href hnone

/-- What a unit price is the price of. -/
theorem BankEntry.stage5_unit {e : BankEntry} {r : Nat}
    (href : (e.ref = 1 ∧ r = 1000) ∨ (e.ref = 2 ∧ r = 100) ∨ (e.ref = 3 ∧ r = 1)) (hkind : e.kind = 0) (hc : 1 ≤ e.c) :
    e.stage5.2.1 = shownOf ((2 * (e.effective * r) + e.c) / (2 * e.c)) := by
  rcases href with ⟨href, rfl⟩ | ⟨href, rfl⟩ | ⟨href, rfl⟩ <;>
    simp [BankEntry.stage5, sellEach, hkind, hc, href, rhu_def]

theorem BankEntry.stage5_mark (e : BankEntry) :
    e.stage5.2.2 = if e.promo = 1 then .was (shownOf e.p) else if e.promo = 2 then .nFor e.value (shownOf e.m) else .none :=
  rfl

/-! ### the reversal of a line (R77) -/

theorem takeGroups_zero (l : List GroupRecord) : takeGroups 0 l = (0, l) := by
  cases l with
  | nil => rfl
  | cons r rest => simp [takeGroups]

/-- A record that holds more groups than are taken keeps the others, with the discount they still earn. -/
theorem takeGroups_part {k g v d : Nat} {rest : List GroupRecord} (hk : 1 ≤ k) (h : k < g) :
    takeGroups k (⟨g, v, d⟩ :: rest) =
      (d - min d ((g - k) * v), ⟨g - k, v, min d ((g - k) * v)⟩ :: rest) := by
  have hsome : k ≠ 0 := by omega
  have hless : ¬ g ≤ k := by omega
  have hmin : min k g = k := by omega
  simp [takeGroups, hsome, hless, hmin]

/-- A record whose groups are all taken goes with its whole discount. -/
theorem takeGroups_whole {k g v d : Nat} {rest : List GroupRecord} (hk : 1 ≤ k) (h : g ≤ k) :
    takeGroups k (⟨g, v, d⟩ :: rest) = (d + (takeGroups (k - g) rest).1, (takeGroups (k - g) rest).2) := by
  have hsome : k ≠ 0 := by omega
  simp [takeGroups, hsome, h]

theorem Sale.reversalOf_of_tallied {x : Sale} {l : SaleLine} {t : TallyEntry} {before behind : List TallyEntry}
    (htold : l.tallied = true) (htally : x.tally = before ++ t :: behind) (hitem : t.item = l.item)
    (hothers : ∀ u ∈ before ++ behind, u.item ≠ l.item) : x.reversalOf l = some (reversal t l.q) := by
  have hbefore : before.find? (fun u => decide (u.item = l.item)) = none := by
    simp only [List.find?_eq_none, decide_eq_true_eq]
    exact fun u hu => hothers u (List.mem_append_left _ hu)
  simp [Sale.reversalOf, htold, htally, List.find?_append, hbefore, hitem]

/-- Entries of other items are left as they are. -/
theorem tally_others_kept (y : TallyEntry) {l : List TallyEntry} (h : ∀ u ∈ l, u.item ≠ y.item) :
    ((l.map fun t => if t.item = y.item then y else t).filter fun t => decide (t.item ≠ y.item) || decide (0 < t.count)) = l := by
  have hmap : (l.map fun t => if t.item = y.item then y else t) = l :=
    (List.map_congr_left fun u hu => if_neg (h u hu)).trans (List.map_id' l)
  rw [hmap, List.filter_eq_self]
  exact fun u hu => by simp [h u hu]

theorem Sale.tallyVoided_of_tallied {x : Sale} {l : SaleLine} {t : TallyEntry} {before behind : List TallyEntry}
    (htally : x.tally = before ++ t :: behind) (hitem : t.item = l.item)
    (hothers : ∀ u ∈ before ++ behind, u.item ≠ l.item) :
    x.tallyVoided (some (reversal t l.q)) =
      before ++ (if t.count - l.q = 0 then behind else (reversal t l.q).entry :: behind) := by
  have hname : (reversal t l.q).entry.item = l.item := hitem
  have hcount : (reversal t l.q).entry.count = t.count - l.q := rfl
  have hbefore := tally_others_kept (reversal t l.q).entry (l := before) fun u hu => by
    rw [hname]; exact hothers u (List.mem_append_left _ hu)
  have hbehind := tally_others_kept (reversal t l.q).entry (l := behind) fun u hu => by
    rw [hname]; exact hothers u (List.mem_append_right _ hu)
  simp only [Sale.tallyVoided, htally, List.map_append, List.map_cons, List.filter_append, hbefore]
  rw [if_pos (by rw [hname, hitem]), List.filter_cons, hbehind, hcount]
  by_cases hnone : t.count - l.q = 0
  · simp [hnone]
  · simp [hnone, Nat.pos_of_ne_zero hnone]

end Sys2Proof.Machine

open Sys2Proof.Machine

/-- Settles O34, from the branches of the effective price and its bounds. -/
theorem effectivePrice : Obligations.EffectivePrice := by
  intro e
  refine ⟨fun h => BankEntry.effective_of_not_percent (by omega), fun hpercent => ⟨fun hp hnothing => ?_, fun hother => ?_⟩,
    fun _ hmax => ?_⟩
  · rw [BankEntry.effective_of_percent hpercent, if_pos ⟨hp, hnothing⟩]
  · rw [BankEntry.effective_of_percent hpercent, if_neg (by omega)]
  · obtain ⟨hle, hpos⟩ := e.effective_bounds
    exact ⟨hle, fun hp => ⟨hpos hp, hle.trans hmax⟩, fun hp => by omega⟩

/-- Settles O35, stage by stage. -/
theorem chargedPriceAndAmounts : Obligations.ChargedPriceAndAmounts := by
  refine ⟨fun e => ⟨e.charged_eq.1, e.charged_eq.2,
      fun q => ⟨BankEntry.lineAmount_badRequest, BankEntry.lineAmount_each, BankEntry.lineAmount_measured⟩,
      fun n m told q total _ => ⟨rfl, rfl, rfl, groupDiscount_d n m e.charged told q total⟩,
      fun x hx => ?_, BankEntry.stage5_noUnit, fun r u href hkind hc hu => ?_, fun hnone => ?_, fun hpercent => ?_,
      fun hmulti => ?_⟩,
    fun t q => ⟨rfl, rfl, rfl⟩, takeGroups_zero, fun k => by simp [takeGroups],
    fun k g v d rest hk => ⟨takeGroups_part hk, takeGroups_whole hk⟩,
    fun x l => ⟨fun h => by simp [Sale.reversalOf, h], rfl, fun t before behind htold htally hitem hothers =>
      ⟨Sale.reversalOf_of_tallied htold htally hitem hothers, Sale.tallyVoided_of_tallied htally hitem hothers⟩⟩⟩
  · rw [BankEntry.stage5_main, ← hx]
    exact shownOf_cases x
  · rw [BankEntry.stage5_unit href hkind hc, ← hu]
    exact shownOf_cases u
  · rw [BankEntry.stage5_mark, if_neg hnone.1, if_neg hnone.2]
  · rw [BankEntry.stage5_mark, if_pos hpercent]
    exact ⟨fun h => by rw [(shownOf_cases e.p).1 h], fun h => by rw [(shownOf_cases e.p).2 h]⟩
  · rw [BankEntry.stage5_mark, if_neg (by omega), if_pos hmulti]
    exact ⟨fun h => by rw [(shownOf_cases e.m).1 h], fun h => by rw [(shownOf_cases e.m).2 h]⟩
end

section
/-! PROOFS. Support for the pricing unit: the entries of the banks in memory, a finished burst, an accepted append. -/

open Sys2Proof
namespace Sys2Proof.Machine

/-! ### entries in memory (R71) -/

theorem BankEntry.bytes_length (e : BankEntry) : e.bytes.length = 32 := by
  simp [BankEntry.bytes, withCrc, crcBytes_length, be_length]

/-- The banks end below the label table, the map and the buffer pool. -/
theorem entryAddr_le (bank : BankName) {i : Nat} (hi : i < 32768) : entryAddr bank i + 32 ≤ 0x200000 := by
  cases bank <;> simp only [entryAddr, bankBase, Config.bankABase, Config.bankBBase, Config.entryBytes] <;> omega

@[simp] theorem Part.setEntry_dram (u : BurstUser) (bank : BankName) (i : Nat) (e : BankEntry) (p : Part) :
    (p.setEntry u bank i e).dram = Mem.writeBytes p.dram (entryAddr bank i) e.bytes := by
  simp [Part.setEntry]

/-- The same memory holds the same entries. -/
theorem Part.entryBytes_congr {p q : Part} (h : q.dram = p.dram) (bank : BankName) (i : Nat) :
    q.entryBytes bank i = p.entryBytes bank i := by
  unfold Part.entryBytes Part.read
  rw [h]

theorem Part.goodEntry_congr {p q : Part} (h : q.dram = p.dram) (bank : BankName) (i : Nat) :
    q.goodEntry bank i = p.goodEntry bank i := by
  unfold Part.goodEntry
  rw [Part.entryBytes_congr h]

/-- Entry `i` of a bank of `q` is `e`, and no other byte differs from memory `m`. -/
def Part.entryWritten (m : Mem) (bank : BankName) (i : Nat) (e : BankEntry) (q : Part) : Prop :=
  q.entryBytes bank i = e.bytes ∧
    ∀ a, a < entryAddr bank i ∨ entryAddr bank i + 32 ≤ a → Mem.read q.dram a = Mem.read m a

theorem Part.entryWritten_of_dram {m : Mem} {q : Part} {bank : BankName} {i : Nat} {e : BankEntry} (hi : i < 32768)
    (h : q.dram = Mem.writeBytes m (entryAddr bank i) e.bytes) : q.entryWritten m bank i e := by
  have hend := entryAddr_le bank hi
  have hlen := e.bytes_length
  refine ⟨?_, fun a ha => ?_⟩
  · have hread := Mem.readBytes_writeBytes m e.bytes (entryAddr bank i) (by simp only [hlen, Config.dramSize]; omega)
    rw [hlen] at hread
    unfold Part.entryBytes Part.read
    rw [h]
    exact hread
  · rw [h]
    exact Mem.read_writeBytes_outside m e.bytes _ a (by rwa [hlen])

/-! ### lookups (R72) -/

theorem Part.search_congr {p q : Part} (h : q.dram = p.dram) (fuel : Nat) (x : Search) :
    q.search fuel x = p.search fuel x := by
  induction fuel generalizing x with
  | zero => rfl
  | succ fuel ih =>
    have hstep : q.searchStep x = p.searchStep x := by simp [Part.searchStep, Part.goodEntry_congr h]
    simp only [Part.search, hstep, ih]

/-- A lookup reads the memory and the active bank's name, count and copy alone. -/
theorem Part.find_congr {p q : Part} (hmem : q.dram = p.dram) (hactive : q.price.active = p.price.active)
    (hcopy : q.price.copy = p.price.copy) (hcount : q.price.activeCount = p.price.activeCount) (code : Nat) :
    q.find code = p.find code := by
  have hbegin : q.beginSearch code = p.beginSearch code := by simp [Part.beginSearch, hactive, hcopy, hcount]
  rw [Part.find, Part.find, hbegin, Part.search_congr hmem]

theorem Part.lookupEntry_of_found (u : BurstUser) {p : Part} {code i : Nat} {e : BankEntry}
    (h : (p.find code).1 = .entry i e) : p.lookupEntry u code = (some (i, e), p.loads u (p.find code).2) := by
  simp [Part.lookupEntry, Part.foundEntry, h]

/-! ### a finished burst (R188) -/

/-- The end of a burst, where the part takes events: its effect, the port idle, and the next grant. -/
theorem exec_dramBurstDone {s : State} {u : BurstUser} {t : Tok} (hev : s.supply.takesEvents = true)
    (hport : s.arb.port = some (.burst u t)) :
    exec .dramBurstDone s =
      .next ({ s with part := s.part.finishBurst u t, arb := { s.arb with port := none } } : State).settle := by
  have hgo : s.supply.stopping = false := by
    simp only [Supply.takesEvents, Bool.and_eq_true, Bool.not_eq_true'] at hev
    exact hev.1.2
  have hdone : exec .dramBurstDone s = .next s.burstDone := rfl
  rw [hdone]
  simp [State.burstDone, hport, State.freePort, Grant.finish, State.afterBurst, hgo]

/-- What a finished burst leaves as it was; the port is no block. -/
theorem State.unchanged_of_burst (but : List Piece) (q : Part) (a : Arb) (s : State)
    (h : ∀ b, b ∉ but → b.same s { s with part := q }) : Unchanged but s ({ s with part := q, arb := a } : State).settle := by
  intro b hb
  have hsame := State.unchanged_of_part but q { s with arb := a } (fun b hb => by
    have hpart := h b hb
    cases b <;> exact hpart) b hb
  cases b <;> exact hsame

/-! ### an append accepted (R120) -/

/-- The journal after an accepted append. -/
def Journal.appended (c : Clock) (r : Requester) (till : Nat) (cs : List Content) (j : Journal) : Journal :=
  { j with
    next := j.next + cs.length
    exhausted := decide (j.next + cs.length = Config.sequenceMax)
    queue := j.queue ++ stampRecords till c j.next cs
    appends := j.appends ++ [⟨j.next + cs.length - 1, r⟩] }

theorem Part.append_accepted {p : Part} {r : Requester} {till : Nat} {cs : List Content} (hscan : p.jrn.scan = none)
    (hfit : p.jrn.accepts cs = true) : (p.append r till cs).2.jrn = p.jrn.appended p.pres.clock r till cs := by
  simp only [Part.append, hscan, Option.isSome_none, Bool.false_eq_true, false_and, if_false, Part.appendNow, hfit, if_true]
  split <;> rfl

end Sys2Proof.Machine
end

section
/-! PROOFS. The outstanding counts, the holds and the hold sweep (R91, R92). -/

open Sys2Proof
namespace Sys2Proof.Machine

theorem exec_labelNotCurrent (s : State) : exec .labelNotCurrent s = s.run Part.takeNotCurrent := rfl
theorem exec_labelCurrent (s : State) : exec .labelCurrent s = s.run Part.takeCurrent := rfl
theorem exec_holdSweep (s : State) : exec .holdSweep s = s.run Part.sweepNow := rfl

/-! ### the count events (R91) -/

/-- The part with the events of the label service taken. -/
def Part.eventsTaken (p : Part) : Part := p.modPrice fun x => { x with events := [] }

theorem Part.eventsTaken_find (p : Part) (code : Nat) : p.eventsTaken.find code = p.find code :=
  Part.find_congr (p := p) (q := p.eventsTaken) rfl rfl rfl rfl code

theorem Part.eventsTaken_price (p : Part) : p.eventsTaken.price = { p.price with events := [] } := rfl

/-- "Label not current" of an item that has an entry below the most it counts. -/
theorem Part.takeNotCurrent_found {p : Part} {item i : Nat} {e : BankEntry} (hevents : p.price.events = [.notCurrent item])
    (hfound : (p.find item).1 = .entry i e) (hcount : e.count < 4096) :
    p.takeNotCurrent =
      (p.eventsTaken.loads .bank (p.find item).2).setEntry .bank p.price.active i { e with count := e.count + 1 } := by
  have hlook := Part.lookupEntry_of_found .bank ((congrArg Prod.fst (p.eventsTaken_find item)).trans hfound)
  rw [p.eventsTaken_find item] at hlook
  have htake : p.takeNotCurrent = p.eventsTaken.labelNotCurrent item := by
    unfold Part.takeNotCurrent
    rw [hevents]
    rfl
  rw [htake]
  simp [Part.labelNotCurrent, hlook, hcount, Config.countMax, Part.eventsTaken_price]

theorem Part.takeCurrent_eq {p : Part} {item : Nat} (hevents : p.price.events = [.current item]) :
    p.takeCurrent = p.eventsTaken.labelCurrent item := by
  unfold Part.takeCurrent
  rw [hevents]
  rfl

/-- "Label current" of an item that has an entry, by its count. -/
theorem Part.takeCurrent_found {p : Part} {item i : Nat} {e : BankEntry} (hevents : p.price.events = [.current item])
    (hfound : (p.find item).1 = .entry i e) :
    p.takeCurrent =
      let q := p.eventsTaken.loads .bank (p.find item).2
      if e.count = 0 then q.countFault
      else if e.count = 1 ∧ e.hold = true then
        (q.setEntry .bank p.price.active i { e with count := 0, hold := false }).countPrice fun c =>
          { c with holdsCleared := bump c.holdsCleared }
      else q.setEntry .bank p.price.active i { e with count := e.count - 1 } := by
  have hlook := Part.lookupEntry_of_found .bank ((congrArg Prod.fst (p.eventsTaken_find item)).trans hfound)
  rw [p.eventsTaken_find item] at hlook
  rw [Part.takeCurrent_eq hevents, Part.labelCurrent, hlook]
  simp [Part.eventsTaken_price]

/-- The entry of a lowered count: HOLD goes with the last label outstanding. -/
def BankEntry.lowered (e : BankEntry) : BankEntry :=
  { e with count := e.count - 1, hold := e.hold && decide (e.count ≠ 1) }

section
variable {s : State} {item i : Nat} {e : BankEntry} (hev : s.supply.takesEvents = true)
  (hfound : (s.part.find item).1 = .entry i e)
include hev hfound

theorem State.notCurrent_counts (hi : i < 32768) (hevents : s.part.price.events = [.notCurrent item])
    (hcount : e.count < 4096) :
    ∃ t, exec .labelNotCurrent s = .next t ∧ t.part.price = { s.part.price with events := [] } ∧
      t.part.entryWritten s.part.dram s.part.price.active i { e with count := e.count + 1 } ∧
      Unchanged [.price, .memory] s t := by
  refine ⟨_, exec_of_run exec_labelNotCurrent hev, ?_⟩
  rw [Part.takeNotCurrent_found hevents hfound hcount]
  refine ⟨by simp [Part.eventsTaken], Part.entryWritten_of_dram hi (by simp [Part.eventsTaken]),
    State.unchanged_of_part _ _ _ fun b hb => ?_⟩
  cases b <;> simp [Piece.same, Part.eventsTaken] at hb ⊢

theorem State.current_fault (hevents : s.part.price.events = [.current item]) (hcount : e.count = 0) :
    ∃ t, exec .labelCurrent s = .next t ∧
      t.part.price =
        { s.part.price with
          events := [], ctr := { s.part.price.ctr with countFaults := bump s.part.price.ctr.countFaults } } ∧
      Unchanged [.price] s t := by
  refine ⟨_, exec_of_run exec_labelCurrent hev, ?_⟩
  rw [Part.takeCurrent_found hevents hfound]
  simp only [hcount, if_true]
  refine ⟨by simp [Part.countFault, Part.eventsTaken], State.unchanged_of_part _ _ _ fun b hb => ?_⟩
  cases b <;> simp [Piece.same, Part.countFault, Part.eventsTaken] at hb ⊢

theorem State.current_counts (hi : i < 32768) (hevents : s.part.price.events = [.current item]) (hcount : 1 ≤ e.count) :
    ∃ t, exec .labelCurrent s = .next t ∧ t.part.entryWritten s.part.dram s.part.price.active i e.lowered ∧
      t.part.price =
        { s.part.price with
          events := []
          ctr :=
            if e.count = 1 ∧ e.hold = true then
              { s.part.price.ctr with holdsCleared := bump s.part.price.ctr.holdsCleared }
            else s.part.price.ctr } ∧
      Unchanged [.price, .memory] s t := by
  have hsome : e.count ≠ 0 := by omega
  refine ⟨_, exec_of_run exec_labelCurrent hev, ?_⟩
  rw [Part.takeCurrent_found hevents hfound]
  simp only [hsome, if_false]
  by_cases hlast : e.count = 1 ∧ e.hold = true
  · have hentry : e.lowered = { e with count := 0, hold := false } := by simp [BankEntry.lowered, hlast]
    rw [hentry]
    simp only [hlast, and_self, if_true]
    refine ⟨Part.entryWritten_of_dram hi (by simp [Part.eventsTaken]), by simp [Part.eventsTaken],
      State.unchanged_of_part _ _ _ fun b hb => ?_⟩
    cases b <;> simp [Piece.same, Part.eventsTaken] at hb ⊢
  · have hentry : e.lowered = { e with count := e.count - 1 } := by
      rcases Decidable.not_and_iff_or_not.mp hlast with hmore | hfree
      · simp [BankEntry.lowered, hmore]
      · simp [BankEntry.lowered, Bool.eq_false_iff.mpr hfree]
    rw [hentry]
    simp only [hlast, if_false]
    refine ⟨Part.entryWritten_of_dram hi (by simp [Part.eventsTaken]), by simp [Part.eventsTaken],
      State.unchanged_of_part _ _ _ fun b hb => ?_⟩
    cases b <;> simp [Piece.same, Part.eventsTaken] at hb ⊢
end

/-! ### the hold sweep (R92) -/

@[simp] theorem Part.askSweep_price (p : Part) : p.askSweep.price = p.price := by
  unfold Part.askSweep
  split <;> rfl

theorem Part.askSweep_has (p : Part) : p.askSweep.asks.has .bank .sweepStep = true := by
  unfold Part.askSweep
  split
  · next h => exact h
  · exact Part.ask_has _ _ _

theorem State.sweep_begins {s : State} (hev : s.supply.takesEvents = true) (hclock : s.part.pres.clock.valid = true)
    (hdue : s.part.price.sweepDue = true) (hnone : s.part.price.sweep = none) :
    ∃ t, exec .holdSweep s = .next t ∧
      t.part.price =
        { s.part.price with sweepDue := false, sweep := if s.part.price.activeCount = 0 then none else some 0 } ∧
      (s.part.price.activeCount ≠ 0 → t.awaits .bank .sweepStep) ∧ Unchanged [.price] s t := by
  have hnow : s.part.sweepNow = (s.part.modPrice fun x => { x with sweepDue := false }).beginSweep :=
    if_pos ⟨hclock, hdue, hnone⟩
  refine ⟨_, exec_of_run exec_holdSweep hev, ?_⟩
  rw [hnow, Part.beginSweep]
  by_cases hempty : s.part.price.activeCount = 0
  · simp only [Part.modPrice_price, hempty, if_true]
    refine ⟨by simp [hnone, hempty], fun h => absurd rfl h, State.unchanged_of_part _ _ _ fun b hb => ?_⟩
    cases b <;> simp [Piece.same] at hb ⊢
  · simp only [Part.modPrice_price, hempty, if_false]
    refine ⟨by simp, fun _ => State.settle_awaits _ _ _ (Part.askSweep_has _), State.unchanged_of_part _ _ _ fun b hb => ?_⟩
    cases b <;> simp [Piece.same] at hb ⊢

/-- The sweep goes on from index `i`, where there is another entry. -/
def Part.sweepGoesOn (i : Nat) (p : Part) : Part :=
  if i + 1 < p.price.activeCount then (p.modPrice fun x => { x with sweep := some (i + 1) }).askSweep
  else p.modPrice fun x => { x with sweep := none }

theorem Part.sweepGoesOn_price (i : Nat) (p : Part) :
    (p.sweepGoesOn i).price = { p.price with sweep := if i + 1 < p.price.activeCount then some (i + 1) else none } := by
  unfold Part.sweepGoesOn
  split <;> simp

@[simp] theorem Part.sweepGoesOn_frame (i : Nat) (p : Part) :
    (p.sweepGoesOn i).cfg = p.cfg ∧ (p.sweepGoesOn i).branch = p.branch ∧ (p.sweepGoesOn i).trunkFramer = p.trunkFramer ∧
      (p.sweepGoesOn i).labelFramer = p.labelFramer ∧ (p.sweepGoesOn i).guestFramer = p.guestFramer ∧
      (p.sweepGoesOn i).links = p.links ∧ (p.sweepGoesOn i).fwd = p.fwd ∧ (p.sweepGoesOn i).call = p.call ∧
      (p.sweepGoesOn i).pres = p.pres ∧ (p.sweepGoesOn i).till = p.till ∧ (p.sweepGoesOn i).jrn = p.jrn ∧
      (p.sweepGoesOn i).lab = p.lab ∧ (p.sweepGoesOn i).gst = p.gst ∧ (p.sweepGoesOn i).trk = p.trk ∧
      (p.sweepGoesOn i).hdr = p.hdr ∧ (p.sweepGoesOn i).memCtr = p.memCtr ∧ (p.sweepGoesOn i).dram = p.dram ∧
      (p.sweepGoesOn i).written = p.written := by
  unfold Part.sweepGoesOn
  split <;> simp

section
variable {s : State} {i : Nat} {cfg : ConfigBlock} (hev : s.supply.takesEvents = true)
  (hport : s.arb.port = some (.burst .bank .sweepStep)) (hsweep : s.part.price.sweep = some i) (hcfg : s.part.cfg = some cfg)
include hev hport hsweep hcfg

/-- The end of a burst of the sweep, where `q` is what its entry leaves. -/
theorem State.sweep_step {q : Part} (hpass : s.part.passEntry (sweepOne cfg.holdLimit s.part.pres.clock) i = q) :
    exec .dramBurstDone s =
      .next ({ s with part := (q.sweepGoesOn i).released .bank [], arb := { s.arb with port := none } } : State).settle := by
  rw [exec_dramBurstDone hev hport]
  have heffect : s.part.burstEffect .sweepStep = q.sweepGoesOn i := by
    simp [Part.burstEffect, Part.sweepStep, hsweep, hcfg, hpass, Part.sweepGoesOn]
  simp only [Part.finishBurst, heffect, Tok.rest]

/-- An entry the sweep passes over. -/
theorem State.sweep_passes (hpass : s.part.passEntry (sweepOne cfg.holdLimit s.part.pres.clock) i = s.part) :
    ∃ t, exec .dramBurstDone s = .next t ∧
      t.part.price = { s.part.price with sweep := if i + 1 < s.part.price.activeCount then some (i + 1) else none } ∧
      Unchanged [.price] s t := by
  refine ⟨_, State.sweep_step hev hport hsweep hcfg hpass, by simp [Part.sweepGoesOn_price],
    State.unchanged_of_burst _ _ _ _ fun b hb => ?_⟩
  cases b <;> simp [Piece.same] at hb ⊢

theorem State.sweep_nothing
    (hfree : ∀ e, s.part.goodEntry s.part.price.active i = some e → e.valid = false ∨ e.hold = false) :
    ∃ t, exec .dramBurstDone s = .next t ∧
      t.part.price = { s.part.price with sweep := if i + 1 < s.part.price.activeCount then some (i + 1) else none } ∧
      Unchanged [.price] s t := by
  refine State.sweep_passes hev hport hsweep hcfg ?_
  unfold Part.passEntry
  cases hentry : s.part.goodEntry s.part.price.active i with
  | none => rfl
  | some e =>
    have hout : ¬ (e.valid = true ∧ e.hold = true) := by
      rcases hfree e hentry with h | h <;> simp [h]
    simp only [sweepOne, hout, if_false]

variable {e : BankEntry} (hentry : s.part.goodEntry s.part.price.active i = some e) (hvalid : e.valid = true)
  (hhold : e.hold = true)
include hentry hvalid hhold

theorem State.sweep_fixes_start (hi : i < 32768) (hstart : e.startKnown = false) :
    ∃ t, exec .dramBurstDone s = .next t ∧
      t.part.price = { s.part.price with sweep := if i + 1 < s.part.price.activeCount then some (i + 1) else none } ∧
      t.part.entryWritten s.part.dram s.part.price.active i
        { e with startKnown := true, startDay := s.part.pres.clock.day, startMinute := s.part.pres.clock.minute } ∧
      Unchanged [.price, .memory] s t := by
  have hpass : s.part.passEntry (sweepOne cfg.holdLimit s.part.pres.clock) i =
      s.part.setEntry .bank s.part.price.active i
        { e with startKnown := true, startDay := s.part.pres.clock.day, startMinute := s.part.pres.clock.minute } := by
    simp [Part.passEntry, hentry, sweepOne, hvalid, hhold, hstart]
  refine ⟨_, State.sweep_step hev hport hsweep hcfg hpass, by simp [Part.sweepGoesOn_price],
    Part.entryWritten_of_dram hi (by simp), State.unchanged_of_burst _ _ _ _ fun b hb => ?_⟩
  cases b <;> simp [Piece.same] at hb ⊢

theorem State.sweep_releases (hi : i < 32768) (hstart : e.startKnown = true)
    (hpast : e.startDay * 1440 + e.startMinute + cfg.holdLimit * 60 ≤
      s.part.pres.clock.day * 1440 + s.part.pres.clock.minute)
    (hscan : s.part.jrn.scan = none) (hfit : s.part.jrn.accepts [.holdReleased e.code e.held e.count] = true) :
    ∃ t, exec .dramBurstDone s = .next t ∧
      t.part.price =
        { s.part.price with
          sweep := if i + 1 < s.part.price.activeCount then some (i + 1) else none
          ctr := { s.part.price.ctr with holdsReleased := bump s.part.price.ctr.holdsReleased } } ∧
      t.part.entryWritten s.part.dram s.part.price.active i { e with hold := false } ∧
      s.appends .pricing 255 [.holdReleased e.code e.held e.count] t ∧ Unchanged [.price, .jrn, .memory] s t := by
  have hpass : s.part.passEntry (sweepOne cfg.holdLimit s.part.pres.clock) i =
      (((s.part.append .pricing stationTill [.holdReleased e.code e.held e.count]).2).countPrice fun k =>
        { k with holdsReleased := bump k.holdsReleased }).setEntry .bank s.part.price.active i { e with hold := false } := by
    simp [Part.passEntry, hentry, sweepOne, hvalid, hhold, hstart, hpast]
  refine ⟨_, State.sweep_step hev hport hsweep hcfg hpass, by simp [Part.sweepGoesOn_price],
    Part.entryWritten_of_dram hi (by simp), ?_, State.unchanged_of_burst _ _ _ _ fun b hb => ?_⟩
  · simp only [State.appends, State.settle_jrn, Part.released_jrn, Part.sweepGoesOn_frame, Part.setEntry_frame,
      Part.countPrice_jrn, Part.append_accepted hscan hfit]
    rfl
  · cases b <;> simp [Piece.same] at hb ⊢

theorem State.sweep_leaves (hstart : e.startKnown = true)
    (hyoung : s.part.pres.clock.day * 1440 + s.part.pres.clock.minute <
      e.startDay * 1440 + e.startMinute + cfg.holdLimit * 60) :
    ∃ t, exec .dramBurstDone s = .next t ∧
      t.part.price = { s.part.price with sweep := if i + 1 < s.part.price.activeCount then some (i + 1) else none } ∧
      Unchanged [.price] s t := by
  refine State.sweep_passes hev hport hsweep hcfg ?_
  simp [Part.passEntry, hentry, sweepOne, hvalid, hhold, hstart, Nat.not_le.mpr hyoung]
end

end Sys2Proof.Machine

open Sys2Proof.Machine

/-- Settles O40, event by event: the counts of "label not current" and "label current", the start of a sweep, and its steps. -/
theorem holdsAreCountedAndReleased : Obligations.HoldsAreCountedAndReleased := by
  refine ⟨fun s item i e hev hfound hi => ⟨fun hevents hcount => ?_, fun hevents => ⟨fun hcount => ?_, fun hcount => ?_⟩⟩,
    fun s hev hclock hdue hnone => State.sweep_begins hev hclock hdue hnone, ?_⟩
  · obtain ⟨t, hexec, hprice, ⟨hbytes, hothers⟩, hsame⟩ := State.notCurrent_counts hev hfound hi hevents hcount
    exact ⟨t, hexec, hprice, hbytes, hothers, hsame⟩
  · exact State.current_fault hev hfound hevents hcount
  · obtain ⟨t, hexec, ⟨hbytes, hothers⟩, hprice, hsame⟩ := State.current_counts hev hfound hi hevents hcount
    exact ⟨t, hexec, hbytes, hprice, hothers, hsame⟩
  · intro s i next cfg c hev hport hsweep hi hcfg hc hnext
    subst hc hnext
    refine ⟨fun hfree => State.sweep_nothing hev hport hsweep hcfg hfree, fun e hentry hvalid hhold =>
      ⟨fun hstart => ?_, fun hstart hpast hscan hfit => ?_, fun hstart hyoung =>
        State.sweep_leaves hev hport hsweep hcfg hentry hvalid hhold hstart hyoung⟩⟩
    · obtain ⟨t, hexec, hprice, ⟨hbytes, hothers⟩, hsame⟩ :=
        State.sweep_fixes_start hev hport hsweep hcfg hentry hvalid hhold hi hstart
      exact ⟨t, hexec, hprice, hbytes, hothers, hsame⟩
    · obtain ⟨t, hexec, hprice, ⟨hbytes, hothers⟩, happend, hsame⟩ :=
        State.sweep_releases hev hport hsweep hcfg hentry hvalid hhold hi hstart hpast hscan hfit
      exact ⟨t, hexec, hprice, hbytes, happend, hothers, hsame⟩
end

section
/-! PROOFS. Support for the staging: what reaches the pricing unit, the fetch conditions, and the changes of the staging's state. -/

open Sys2Proof
namespace Sys2Proof.Machine

/-! ### what reaches the pricing unit (R79) -/

/-- The part with this left in the pricing unit's inbox. -/
def Part.inboxTo (rest : List Handed) (p : Part) : Part := p.modPrice fun x => { x with inbox := rest }

@[simp] theorem Part.inboxTo_price (rest : List Handed) (p : Part) : (p.inboxTo rest).price = { p.price with inbox := rest } :=
  rfl

@[simp] theorem Part.inboxTo_frame (rest : List Handed) (p : Part) :
    (p.inboxTo rest).cfg = p.cfg ∧ (p.inboxTo rest).branch = p.branch ∧ (p.inboxTo rest).trunkFramer = p.trunkFramer ∧
      (p.inboxTo rest).labelFramer = p.labelFramer ∧ (p.inboxTo rest).guestFramer = p.guestFramer ∧
      (p.inboxTo rest).links = p.links ∧ (p.inboxTo rest).fwd = p.fwd ∧ (p.inboxTo rest).call = p.call ∧
      (p.inboxTo rest).pres = p.pres ∧ (p.inboxTo rest).till = p.till ∧ (p.inboxTo rest).jrn = p.jrn ∧
      (p.inboxTo rest).lab = p.lab ∧ (p.inboxTo rest).gst = p.gst ∧ (p.inboxTo rest).trk = p.trk ∧
      (p.inboxTo rest).hdr = p.hdr ∧ (p.inboxTo rest).memCtr = p.memCtr ∧ (p.inboxTo rest).asks = p.asks ∧
      (p.inboxTo rest).dram = p.dram ∧ (p.inboxTo rest).written = p.written := by
  simp [Part.inboxTo]

theorem Part.fetchesEnded_of_no_completion {p : Part} (h : ∀ c, p.price.inbox.head? ≠ some (.completion c)) :
    p.fetchesEnded = p := by
  have hdrain : p.drainFetchEnds p.price.inbox.length = (false, p) := by
    cases hin : p.price.inbox with
    | nil => rfl
    | cons x rest =>
      cases x with
      | completion c => exact absurd (by rw [hin]; rfl) (h c)
      | frame it => simp [Part.drainFetchEnds, hin]
      | data buf peer tag r => simp [Part.drainFetchEnds, hin]
  simp [Part.fetchesEnded, hdrain]

/-- A PRICE frame taken with no completion record behind it: its buffer returns, and nothing else happens. -/
theorem Part.takePriceFrame_eq {p q : Part} {takes : Bool} {kind : Nat} {f : Bytes → Part → Part} {it : RxItem}
    {rest : List Handed} {b : BranchBody} (htakes : takes = true) (hin : p.price.inbox = .frame it :: rest)
    (hclear : ∀ c, rest.head? ≠ some (.completion c)) (hb : b = parseBody (p.bufBytes it.buf)) (hkind : b.kind = kind)
    (hf : f b.payload (p.inboxTo rest) = q) (hrest : q.price.inbox = rest) :
    p.takePriceFrame takes kind f = q.giveBack it.buf := by
  subst hb hf
  have hquiet := Part.fetchesEnded_of_no_completion
    (p := (f (parseBody (p.bufBytes it.buf)).payload (p.inboxTo rest)).giveBack it.buf)
    (by rw [Part.giveBack_price, hrest]; exact hclear)
  unfold Part.takePriceFrame
  rw [if_pos htakes, hin]
  dsimp only
  rw [if_pos hkind]
  exact hquiet

/-! ### fetch conditions (R85) -/

/-- With no peer on the line there is none to fetch from. -/
theorem Part.checkFetch_of_no_peer {p : Part} (h : ∀ m, p.shown m = none) : p.checkFetch = p := by
  have hsources : p.fetchSources = [] := by simp [Part.fetchSources, Part.sources, h]
  have hfrom : p.fetchFrom = none := by simp [Part.fetchFrom, hsources, nextSource]
  have hnext : p.nextFetch = none := by simp [Part.nextFetch, hfrom]
  simp [Part.checkFetch, Part.placeFetch, hnext, Part.fetchBursts, hfrom, Part.loads]

theorem Part.shown_congr {p q : Part} (h : q.pres = p.pres) (m : StationNo) : q.shown m = p.shown m := by
  unfold Part.shown Part.peer
  rw [h]

/-! ### the staging map (R79) -/

theorem Part.marked_congr {p q : Part} {i : Nat} (h : Mem.read q.dram (mapByte i) = Mem.read p.dram (mapByte i)) :
    q.marked i = p.marked i := by
  unfold Part.marked
  rw [h]

theorem Part.mapFull_congr {p q : Part} (h : q.dram = p.dram) (n : Nat) : q.mapFull n = p.mapFull n := by
  have hmarked : q.marked = p.marked := funext fun i => Part.marked_congr (by rw [h])
  rw [Part.mapFull, Part.mapFull, hmarked]

theorem mapByte_bounds {i : Nat} (hi : i < 32768) : 0x3F2000 ≤ mapByte i ∧ mapByte i < 0x3F3000 := by
  simp only [mapByte, Config.mapBase]
  omega

/-- The map of `q` is cleared, and no other byte differs from memory `m`. -/
def Part.mapCleared (m : Mem) (q : Part) : Prop :=
  (∀ i, i < 32768 → q.marked i = false) ∧ ∀ a, a < 0x3F2000 ∨ 0x3F3000 ≤ a → Mem.read q.dram a = Mem.read m a

theorem Part.mapCleared_of_dram {m : Mem} {q : Part}
    (h : q.dram = Mem.wipe m Config.mapBase (Config.mapBase + Config.mapSize)) : q.mapCleared m := by
  refine ⟨fun i hi => ?_, fun a ha => ?_⟩
  · obtain ⟨hlow, hhigh⟩ := mapByte_bounds hi
    unfold Part.marked
    rw [h, Mem.read_wipe, if_pos (by simp only [Config.mapBase, Config.mapSize]; omega)]
    simp
  · rw [h, Mem.read_wipe, if_neg (by simp only [Config.mapBase, Config.mapSize]; omega)]

/-! ### the staging changes state (R79) -/

theorem Part.stagingTo_price (st : StagingState) (p : Part) :
    (p.stagingTo st).price =
      { p.price with
        staging := { p.price.staging with state := st }, pauseTimer := decide (st = .receiving)
        fetchTimer := decide (st = .gaps) } := by
  simp [Part.stagingTo, Part.modStaging]

theorem Part.stagingTo_copy (st : StagingState) (p : Part) :
    (p.stagingTo st).hdr.copy = (p.stagingTo st).price.staging.toHeader p.hdr.copy := by
  simp [Part.stagingTo, Part.askHeader_copy, Part.modStaging]

/-- A header write asked with none under way is under way. -/
theorem Part.askHeader_inFlight {p : Part} (u : HeaderUser) (f : HeaderCopy → HeaderCopy) (h : p.hdr.inFlight = none) :
    (p.askHeader u f).hdr.inFlight = some ((p.askHeader u f).hdr.copy, [u]) := by
  simp [Part.askHeader, Part.presentHeader, Part.modHdr, h]

theorem Part.stagingTo_inFlight {p : Part} (st : StagingState) (h : p.hdr.inFlight = none) :
    (p.stagingTo st).hdr.inFlight = some ((p.stagingTo st).hdr.copy, [.pricing]) :=
  Part.askHeader_inFlight .pricing _ (by simpa using h)

theorem Part.dropDeferredFor_of_none {p : Part} (h : p.call.deferred = []) (g : Nat) : p.dropDeferredFor g = p := by
  simp [Part.dropDeferredFor, h]

/-- With no deferred call that may ask for the staging, its removal moves the pricing unit and the map alone. -/
theorem Part.removeStaging_frame_of_none {p : Part} (h : p.price.staging.state = .empty ∨ p.call.deferred = []) :
    p.removeStaging.branch = p.branch ∧ p.removeStaging.fwd = p.fwd ∧ p.removeStaging.call = p.call ∧
      p.removeStaging.dram = Mem.wipe p.dram Config.mapBase (Config.mapBase + Config.mapSize) := by
  unfold Part.removeStaging
  dsimp only
  by_cases hempty : p.price.staging.state = .empty
  · rw [if_pos hempty]
    simp [Part.clearMap]
  · have hnone := h.resolve_left hempty
    rw [if_neg hempty, Part.dropDeferredFor_of_none (by simp [hnone])]
    simp [Part.clearMap]

theorem Part.discard_price (d : Discard) (p : Part) :
    (p.discard d).price =
      { p.price with
        staging := { fetches := p.price.staging.fetches }, trigger := .disarmed, walk := none, recount := false
        pauseTimer := false, fetchTimer := false, ctr := d.count p.price.ctr } := by
  simp [Part.discard, Part.stagingTo_price, Part.removeStaging_price]

theorem Part.discard_copy (d : Discard) (p : Part) :
    (p.discard d).hdr.copy = (p.discard d).price.staging.toHeader p.hdr.copy := by
  simp [Part.discard, Part.stagingTo_copy]

theorem Part.discard_frame_of_none {p : Part} (d : Discard) (h : p.call.deferred = []) :
    (p.discard d).branch = p.branch ∧ (p.discard d).fwd = p.fwd ∧ (p.discard d).call = p.call ∧
      (p.discard d).dram = Mem.wipe p.dram Config.mapBase (Config.mapBase + Config.mapSize) := by
  simp [Part.discard, Part.removeStaging_frame_of_none (.inr h)]

/-! ### a staging decided (R80, R88) -/

theorem Part.triggerHolds_congr {p q : Part} (hday : q.price.staging.effDay = p.price.staging.effDay)
    (hminute : q.price.staging.effMinute = p.price.staging.effMinute) (hpres : q.pres = p.pres) :
    q.triggerHolds = p.triggerHolds := by
  simp [Part.triggerHolds, hday, hminute, hpres]

/-- The trigger of a staging that has become COMPLETE, checked at once. -/
def Part.newTrigger (p : Part) : Trigger := if p.triggerHolds = true then .fired else .armed

/-- A staging COMPLETE, with no deferred call to recall. -/
theorem Part.complete_eq {p : Part} (h : p.call.deferred = []) :
    p.complete = (p.stagingTo .complete).modPrice fun x => { x with trigger := p.newTrigger } := by
  have hholds : ((p.stagingTo .complete).modPrice fun x => { x with trigger := .armed }).triggerHolds = p.triggerHolds :=
    Part.triggerHolds_congr (by simp [Part.stagingTo_price]) (by simp [Part.stagingTo_price]) (by simp)
  unfold Part.complete Part.queueRecalls
  rw [show (((p.stagingTo .complete).modPrice fun x => { x with trigger := .armed }).checkTrigger).call.deferred = [] by
    simp [h]]
  unfold Part.checkTrigger Part.newTrigger
  rw [hholds]
  by_cases hpast : p.triggerHolds = true
  · simp [hpast, Part.modPrice]
  · simp [hpast]

end Sys2Proof.Machine
end

section
/-! PROOFS. The end of a file, the receive pause and the recount pass (R79, R83). -/

open Sys2Proof
namespace Sys2Proof.Machine

theorem exec_priceEndReceived (s : State) : exec .priceEndReceived s = s.run Part.priceEnd := rfl
theorem exec_receivePauseExpiry (s : State) : exec .receivePauseExpiry s = s.run Part.receivePause := rfl
theorem exec_recountPassDone (s : State) : exec .recountPassDone s = s.run Part.recountDone := rfl

/-- With no peer on the line, the entry into GAPS places no fetch. -/
theorem Part.enterGaps_of_no_peer {p : Part} (h : ∀ m, p.shown m = none) : p.enterGaps = p.stagingTo .gaps :=
  Part.checkFetch_of_no_peer fun m => (Part.shown_congr (by simp) m).trans (h m)

/-! ### a PRICE END (R83) -/

/-- The file check and N that an END brings. -/
def Part.endKnown (n c : Nat) (p : Part) : Part := p.modStaging fun s => { s with fileCheck := some c, n := some n }

theorem Part.endKnown_price (n c : Nat) (p : Part) :
    (p.endKnown n c).price =
      { p.price with staging := { p.price.staging with fileCheck := some c, n := some n } } := rfl

@[simp] theorem Part.endKnown_frame (n c : Nat) (p : Part) :
    (p.endKnown n c).cfg = p.cfg ∧ (p.endKnown n c).branch = p.branch ∧ (p.endKnown n c).trunkFramer = p.trunkFramer ∧
      (p.endKnown n c).labelFramer = p.labelFramer ∧ (p.endKnown n c).guestFramer = p.guestFramer ∧
      (p.endKnown n c).links = p.links ∧ (p.endKnown n c).fwd = p.fwd ∧ (p.endKnown n c).call = p.call ∧
      (p.endKnown n c).pres = p.pres ∧ (p.endKnown n c).till = p.till ∧ (p.endKnown n c).jrn = p.jrn ∧
      (p.endKnown n c).lab = p.lab ∧ (p.endKnown n c).gst = p.gst ∧ (p.endKnown n c).trk = p.trk ∧
      (p.endKnown n c).hdr = p.hdr ∧ (p.endKnown n c).memCtr = p.memCtr ∧ (p.endKnown n c).dram = p.dram ∧
      (p.endKnown n c).written = p.written := by
  simp [Part.endKnown]

section
variable {p : Part} {b : Bytes} (hlen : b.length = 10) (hgen : p.price.staging.generation = fieldAt b 0 4)
  (hstate : p.price.staging.state = .receiving)
include hlen hgen hstate

/-- An END for the N of a staging in RECEIVING, by the marks of its map. -/
theorem Part.takeEnd_of_n (hn : p.price.staging.n = some (fieldAt b 4 2)) :
    p.takeEnd b =
      let q := ((p.endKnown (fieldAt b 4 2) (fieldAt b 6 4)).readFull (fieldAt b 4 2)).2
      if p.mapFull (fieldAt b 4 2) = true then q.decideStaging else q.enterGaps := by
  have hfull : (p.endKnown (fieldAt b 4 2) (fieldAt b 6 4)).mapFull (fieldAt b 4 2) = p.mapFull (fieldAt b 4 2) :=
    Part.mapFull_congr (by simp) _
  have hknown : ¬ (p.price.staging.n ≠ none ∧ p.price.staging.n ≠ some (fieldAt b 4 2)) := by simp [hn]
  have hopen : p.price.staging.state ≠ .gaps := by simp [hstate]
  unfold Part.takeEnd
  dsimp only
  rw [if_pos ⟨hlen, hgen, .inl hstate⟩, if_neg hknown, if_neg hopen, ← hfull]
  rfl

/-- An END of another N. -/
theorem Part.takeEnd_of_other_n {k : Nat} (hn : p.price.staging.n = some k) (hother : k ≠ fieldAt b 4 2) :
    p.takeEnd b = p.discard .entries := by
  simp [Part.takeEnd, hlen, hgen, hstate, hn, hother]
end

/-- What an END leaves of a staging it discards (R83, R93). -/
def Part.endDiscarded (s : State) (rest : List Handed) (d : Discard) (q : Part) : Prop :=
  q.price.staging = { fetches := s.part.price.staging.fetches } ∧ q.price.trigger = .disarmed ∧ q.price.walk = none ∧
    q.price.inbox = rest ∧ q.price.ctr = d.count s.part.price.ctr ∧
    q.hdr.copy = q.price.staging.toHeader s.part.hdr.copy ∧ q.mapCleared s.part.dram

/-- A discard of what differs from the part in the pricing unit alone. -/
theorem State.end_discards {s : State} {q : Part} (buf : Buf) {rest : List Handed} (d : Discard)
    (hdefer : s.part.call.deferred = []) (hinbox : q.price.inbox = rest) (hctr : q.price.ctr = s.part.price.ctr)
    (hfetches : q.price.staging.fetches = s.part.price.staging.fetches) (hdram : q.dram = s.part.dram)
    (hrest : ∀ b, b ≠ Piece.price → b.same s { s with part := q }) :
    ((q.discard d).giveBack buf).endDiscarded s rest d ∧
      ((q.discard d).giveBack buf).fwd = s.part.fwd.giveBack buf ∧
      Unchanged [.price, .hdr, .fwd, .memory] s ({ s with part := (q.discard d).giveBack buf } : State).settle := by
  have hcall : q.call = s.part.call := hrest .call (by decide)
  have hhdr : q.hdr = s.part.hdr := hrest .hdr (by decide)
  have hfwd : q.fwd = s.part.fwd := hrest .fwd (by decide)
  obtain ⟨hbranch', hfwd', hcall', hdram'⟩ := Part.discard_frame_of_none (p := q) d (by rw [hcall, hdefer])
  refine ⟨⟨?_, ?_, ?_, ?_, ?_, ?_, ?_⟩, ?_, State.unchanged_of_part _ _ _ fun b hb => ?_⟩
  · simp [Part.discard_price, hfetches]
  · simp [Part.discard_price]
  · simp [Part.discard_price]
  · simp [Part.discard_price, hinbox]
  · simp [Part.discard_price, hctr]
  · rw [Part.giveBack_hdr, Part.discard_copy, hhdr, Part.giveBack_price]
  · exact Part.mapCleared_of_dram (by rw [Part.giveBack_dram, hdram', hdram])
  · rw [Part.giveBack_fwd, hfwd', hfwd]
  · have hsame := hrest b
    cases b <;> simp [Piece.same, hbranch', hcall'] at hb hsame ⊢ <;> exact hsame

/-! ### the END of a file (R83) -/

section
variable {s : State} (hev : s.supply.takesEvents = true) (hpeers : ∀ m, s.part.shown m = none)
  (hdefer : s.part.call.deferred = []) {it : RxItem} {rest : List Handed} {b : BranchBody}
  (htakes : s.part.pricingTakes = true) (hin : s.part.price.inbox = .frame it :: rest)
  (hclear : ∀ x, rest.head? ≠ some (.completion x)) (hb : b = parseBody (s.part.bufBytes it.buf))
  (hkind : b.kind = kindPriceEnd) (hstate : s.part.price.staging.state = .receiving) (hlen : b.payload.length = 10)
  (hgen : s.part.price.staging.generation = fieldAt b.payload 0 4)
include hev htakes hin hclear hb hkind hlen hgen hstate

include hpeers in
theorem State.end_to_gaps (hn : s.part.price.staging.n = some (fieldAt b.payload 4 2))
    (hfull : s.part.mapFull (fieldAt b.payload 4 2) = false) :
    ∃ t, exec .priceEndReceived s = .next t ∧
      t.part.price =
        { s.part.price with
          inbox := rest
          staging := { s.part.price.staging with state := .gaps, fileCheck := some (fieldAt b.payload 6 4) }
          pauseTimer := false, fetchTimer := true } ∧
      t.part.hdr.copy = t.part.price.staging.toHeader s.part.hdr.copy ∧ t.part.fwd = s.part.fwd.giveBack it.buf ∧
      Unchanged [.price, .hdr, .fwd] s t := by
  have htake := Part.takeEnd_of_n (p := s.part.inboxTo rest) hlen hgen hstate hn
  have hmap : (s.part.inboxTo rest).mapFull (fieldAt b.payload 4 2) = false := (Part.mapFull_congr rfl _).trans hfull
  simp only [hmap, Bool.false_eq_true, if_false] at htake
  rw [Part.enterGaps_of_no_peer fun m => (Part.shown_congr (by simp) m).trans (hpeers m)] at htake
  have hend := Part.takePriceFrame_eq (f := Part.takeEnd) htakes hin hclear hb hkind htake
    (by simp [Part.stagingTo_price, Part.endKnown_price])
  refine ⟨_, exec_of_run exec_priceEndReceived hev, ?_⟩
  rw [Part.priceEnd, hend]
  refine ⟨by simp [Part.stagingTo_price, Part.endKnown_price, hn],
    by simp [Part.stagingTo_copy], by simp, State.unchanged_of_part _ _ _ fun x hx => ?_⟩
  cases x <;> simp [Piece.same] at hx ⊢

include hdefer

theorem State.end_completes (hn : s.part.price.staging.n = some (fieldAt b.payload 4 2))
    (hfull : s.part.mapFull (fieldAt b.payload 4 2) = true)
    (hcheck : s.part.price.staging.check = fieldAt b.payload 6 4) (htime : s.part.triggerHolds = false) :
    ∃ t, exec .priceEndReceived s = .next t ∧
      t.part.price =
        { s.part.price with
          inbox := rest
          staging := { s.part.price.staging with state := .complete, fileCheck := some (fieldAt b.payload 6 4) }
          pauseTimer := false, fetchTimer := false, trigger := .armed } ∧
      t.part.hdr.copy = t.part.price.staging.toHeader s.part.hdr.copy ∧ t.part.fwd = s.part.fwd.giveBack it.buf ∧
      Unchanged [.price, .hdr, .fwd] s t := by
  have htake := Part.takeEnd_of_n (p := s.part.inboxTo rest) hlen hgen hstate hn
  have hmap : (s.part.inboxTo rest).mapFull (fieldAt b.payload 4 2) = true := (Part.mapFull_congr rfl _).trans hfull
  simp only [hmap, if_true] at htake
  generalize hq : ((((s.part.inboxTo rest).endKnown (fieldAt b.payload 4 2) (fieldAt b.payload 6 4)).readFull
    (fieldAt b.payload 4 2)).2) = q at htake
  have hprice : q.price =
      { s.part.price with
        inbox := rest
        staging := { s.part.price.staging with fileCheck := some (fieldAt b.payload 6 4) } } := by
    rw [← hq]
    simp [Part.endKnown_price, hn]
  have hsame : ∀ x, x ≠ Piece.price → x.same s { s with part := q } := by
    intro x hx
    subst hq
    cases x <;> simp [Piece.same] at hx ⊢
  have hholds : q.newTrigger = .armed := by
    have h := Part.triggerHolds_congr (p := s.part) (q := q) (by rw [hprice]) (by rw [hprice])
      (hsame .pres (by decide))
    simp [Part.newTrigger, h, htime]
  have hcall : q.call = s.part.call := hsame .call (by decide)
  have hhdr : q.hdr = s.part.hdr := hsame .hdr (by decide)
  have hfwd : q.fwd = s.part.fwd := hsame .fwd (by decide)
  have hdecide : q.decideStaging = (q.stagingTo .complete).modPrice fun x => { x with trigger := .armed } := by
    rw [← hholds, ← Part.complete_eq (by rw [hcall, hdefer])]
    simp [Part.decideStaging, hprice, hcheck]
  rw [hdecide] at htake
  have hend := Part.takePriceFrame_eq (f := Part.takeEnd) htakes hin hclear hb hkind htake
    (by simp [Part.stagingTo_price, hprice])
  refine ⟨_, exec_of_run exec_priceEndReceived hev, ?_⟩
  rw [Part.priceEnd, hend]
  refine ⟨by simp [Part.stagingTo_price, hprice], by simp [Part.stagingTo_copy, hhdr], by simp [hfwd],
    State.unchanged_of_part _ _ _ fun x hx => ?_⟩
  have hkept := hsame x
  cases x <;> simp [Piece.same] at hx hkept ⊢ <;> exact hkept

/-- A file whose check or whose N is not that of the staging. -/
theorem State.end_discards_file {d : Discard}
    (h : (s.part.price.staging.n = some (fieldAt b.payload 4 2) ∧ s.part.mapFull (fieldAt b.payload 4 2) = true ∧
          s.part.price.staging.check ≠ fieldAt b.payload 6 4 ∧ d = .check) ∨
        (∃ k, s.part.price.staging.n = some k ∧ k ≠ fieldAt b.payload 4 2 ∧ d = .entries)) :
    ∃ t, exec .priceEndReceived s = .next t ∧ t.part.endDiscarded s rest d ∧ t.part.fwd = s.part.fwd.giveBack it.buf ∧
      Unchanged [.price, .hdr, .fwd, .memory] s t := by
  have htake : ∃ q, (s.part.inboxTo rest).takeEnd b.payload = q.discard d ∧ q.price.inbox = rest ∧
      q.price.ctr = s.part.price.ctr ∧ q.price.staging.fetches = s.part.price.staging.fetches ∧ q.dram = s.part.dram ∧
      ∀ x, x ≠ Piece.price → x.same s { s with part := q } := by
    rcases h with ⟨hn, hfull, hcheck, rfl⟩ | ⟨k, hn, hother, rfl⟩
    · have htake := Part.takeEnd_of_n (p := s.part.inboxTo rest) hlen hgen hstate hn
      have hmap : (s.part.inboxTo rest).mapFull (fieldAt b.payload 4 2) = true := (Part.mapFull_congr rfl _).trans hfull
      simp only [hmap, if_true] at htake
      refine ⟨(((s.part.inboxTo rest).endKnown (fieldAt b.payload 4 2) (fieldAt b.payload 6 4)).readFull
        (fieldAt b.payload 4 2)).2, htake.trans ?_, by simp [Part.endKnown_price], by simp [Part.endKnown_price],
        by simp [Part.endKnown_price], by simp, fun x hx => ?_⟩
      · simp [Part.decideStaging, Part.endKnown_price, hcheck]
      · cases x <;> simp [Piece.same] at hx ⊢
    · refine ⟨_, Part.takeEnd_of_other_n (p := s.part.inboxTo rest) hlen hgen hstate hn hother, rfl, rfl, rfl, rfl,
        fun x hx => ?_⟩
      cases x <;> simp [Piece.same] at hx ⊢
  obtain ⟨q, htake, hinbox, hctr, hfetches, hdram, hsame⟩ := htake
  obtain ⟨hdone, hfwd, hkept⟩ := State.end_discards it.buf d hdefer hinbox hctr hfetches hdram hsame
  have hend := Part.takePriceFrame_eq (f := Part.takeEnd) htakes hin hclear hb hkind htake
    (by rw [Part.discard_price]; exact hinbox)
  refine ⟨_, exec_of_run exec_priceEndReceived hev, ?_⟩
  rw [Part.priceEnd, hend]
  exact ⟨by simpa [Part.endDiscarded, Part.mapCleared, Part.marked] using hdone, by simpa using hfwd, hkept⟩
end

/-! ### the receive pause and the recount pass (R79, R83) -/

theorem State.pause_to_gaps {s : State} (hev : s.supply.takesEvents = true) (hpeers : ∀ m, s.part.shown m = none)
    (hpause : s.part.price.pauseTimer = true) (hstate : s.part.price.staging.state = .receiving) :
    ∃ t, exec .receivePauseExpiry s = .next t ∧
      t.part.price =
        { s.part.price with
          staging := { s.part.price.staging with state := .gaps }, pauseTimer := false, fetchTimer := true } ∧
      t.part.hdr.copy = t.part.price.staging.toHeader s.part.hdr.copy ∧ Unchanged [.price, .hdr] s t := by
  have hgaps : s.part.receivePause = s.part.stagingTo .gaps :=
    (if_pos ⟨hpause, hstate⟩).trans (Part.enterGaps_of_no_peer hpeers)
  refine ⟨_, exec_of_run exec_receivePauseExpiry hev, ?_⟩
  rw [hgaps]
  refine ⟨by simp [Part.stagingTo_price], by simp [Part.stagingTo_copy], State.unchanged_of_part _ _ _ fun x hx => ?_⟩
  cases x <;> simp [Piece.same] at hx ⊢

theorem State.recount_counts {s : State} (hev : s.supply.takesEvents = true) (hpeers : ∀ m, s.part.shown m = none)
    (hrecount : s.part.price.recount = true) :
    ∃ t, exec .recountPassDone s = .next t ∧
      t.part.price =
        { s.part.price with
          recount := false
          staging :=
            { s.part.price.staging with
              received := ((List.range 32768).filter s.part.marked).length
              check :=
                (((List.range 32768).filter s.part.marked).map fun i =>
                  (parseEntry (s.part.entryBytes s.part.inactive i)).recCrc).sum % 4294967296 } } ∧
      Unchanged [.price] s t := by
  refine ⟨_, exec_of_run exec_recountPassDone hev, ?_⟩
  unfold Part.recountDone
  rw [if_pos hrecount]
  dsimp only
  rw [Part.checkFetch_of_no_peer fun m => (Part.shown_congr (by simp) m).trans (hpeers m)]
  refine ⟨?_, State.unchanged_of_part _ _ _ fun x hx => ?_⟩
  · rw [List.sum_eq_foldl, List.foldl_map]
    simp [Part.modStaging, Config.bankSlots]
  · cases x <;> simp [Piece.same] at hx ⊢

end Sys2Proof.Machine

open Sys2Proof.Machine

/-- Settles O37: the three outcomes of an END, the receive pause, and the recount pass. -/
theorem endDecidesTheStaging : Obligations.EndDecidesTheStaging := by
  refine fun s hev hpeers hdefer _ => ⟨?_, State.pause_to_gaps hev hpeers, State.recount_counts hev hpeers⟩
  intro it rest b st n c htakes hin hclear hb hkind hst hstate hlen hgen hn hc
  subst hst hn hc
  refine ⟨State.end_to_gaps hev hpeers htakes hin hclear hb hkind hstate hlen hgen,
    State.end_completes hev hdefer htakes hin hclear hb hkind hstate hlen hgen, fun hcause => ?_⟩
  rcases hcause with ⟨hn, hfull, hcheck⟩ | ⟨k, hn, hother⟩
  · obtain ⟨t, hexec, ⟨hstaging, htrigger, hwalk, hinbox, hctr, hcopy, hmap, hmem⟩, hfwd, hkept⟩ :=
      State.end_discards_file hev hdefer htakes hin hclear hb hkind hstate hlen hgen (.inl ⟨hn, hfull, hcheck, rfl⟩)
    exact ⟨t, hexec, hstaging, htrigger, hwalk, hinbox, fun _ => hctr, fun h => absurd hn h, hcopy, hmap, hmem, hfwd, hkept⟩
  · obtain ⟨t, hexec, ⟨hstaging, htrigger, hwalk, hinbox, hctr, hcopy, hmap, hmem⟩, hfwd, hkept⟩ :=
      State.end_discards_file hev hdefer htakes hin hclear hb hkind hstate hlen hgen (.inr ⟨k, hn, hother, rfl⟩)
    refine ⟨t, hexec, hstaging, htrigger, hwalk, hinbox, fun h => ?_, fun _ => hctr, hcopy, hmap, hmem, hfwd, hkept⟩
    exact absurd (Option.some.inj (hn.symm.trans h)) hother
end

section
/-! PROOFS. Support for the staging: one record that reaches it (R80). -/

open Sys2Proof
namespace Sys2Proof.Machine

/-! ### a mark of the map (R79) -/

theorem getLsbD_or_mark (b : Byte) {i k : Nat} (hk : k < 8) :
    (b ||| BitVec.ofNat 8 (2 ^ i)).getLsbD k = (b.getLsbD k || decide (i = k)) := by
  rw [BitVec.getLsbD_or, BitVec.getLsbD_ofNat, Nat.testBit_two_pow]
  simp [hk]

theorem Part.setMark_dram (i : Nat) (p : Part) :
    (p.setMark i).dram = Mem.write p.dram (mapByte i) (Mem.read p.dram (mapByte i) ||| BitVec.ofNat 8 (2 ^ (i % 8))) := by
  simp [Part.setMark, Mem.writeBytes]

/-- Setting a mark sets that mark alone. -/
theorem Part.setMark_marked {p : Part} {i k : Nat} (hi : i < 32768) :
    (p.setMark i).marked k = (p.marked k || decide (k = i)) := by
  have hend := (mapByte_bounds hi).2
  have hbit : k % 8 < 8 := Nat.mod_lt k (by decide)
  unfold Part.marked
  rw [Part.setMark_dram]
  by_cases hbyte : mapByte k = mapByte i
  · rw [hbyte, Mem.read_write_self _ _ _ (by simp only [Config.dramSize]; omega), getLsbD_or_mark _ hbit]
    have hsame : (i % 8 = k % 8) ↔ k = i := by
      simp only [mapByte] at hbyte
      omega
    simp [hsame]
  · have hother : k ≠ i := fun h => hbyte (by rw [h])
    rw [Mem.read_write_other _ _ _ _ hbyte]
    simp [hother]

theorem Part.setMark_read {p : Part} {i a : Nat} (h : a ≠ mapByte i) :
    Mem.read (p.setMark i).dram a = Mem.read p.dram a := by
  rw [Part.setMark_dram, Mem.read_write_other _ _ _ _ h]

/-- The entry of a record stands in the inactive bank with its index marked, and no other byte has changed. -/
def Part.recordStaged (p : Part) (i : Nat) (e : BankEntry) (q : Part) : Prop :=
  q.entryBytes p.inactive i = e.bytes ∧ q.marked i = true ∧ (∀ k, k < 32768 → k ≠ i → q.marked k = p.marked k) ∧
    ∀ a, a < entryAddr p.inactive i ∨ entryAddr p.inactive i + 32 ≤ a → a ≠ mapByte i →
      Mem.read q.dram a = Mem.read p.dram a

theorem Part.recordStaged_congr {p q r : Part} {i : Nat} {e : BankEntry} (h : p.recordStaged i e q) (hmem : r.dram = q.dram) :
    p.recordStaged i e r := by
  obtain ⟨hentry, hmark, hothers, hbytes⟩ := h
  exact ⟨(Part.entryBytes_congr hmem _ _).trans hentry, (Part.marked_congr (by rw [hmem])).trans hmark,
    fun k hk hki => (Part.marked_congr (by rw [hmem])).trans (hothers k hk hki),
    fun a ha hmap => by rw [hmem]; exact hbytes a ha hmap⟩

/-- An entry written and its index marked: the banks and the map lie apart. -/
theorem Part.recordStaged_of_writes {p q : Part} {i : Nat} {e : BankEntry} (hi : i < 32768)
    (hq : q.dram = Mem.writeBytes p.dram (entryAddr p.inactive i) e.bytes) : p.recordStaged i e (q.setMark i) := by
  obtain ⟨hentry, hbytes⟩ := Part.entryWritten_of_dram hi hq
  have hbank := entryAddr_le p.inactive hi
  have hmap : ∀ k, k < 32768 → q.marked k = p.marked k := fun k hk => by
    obtain ⟨hlow, -⟩ := mapByte_bounds hk
    exact Part.marked_congr (hbytes _ (.inr (by omega)))
  obtain ⟨hlow, -⟩ := mapByte_bounds hi
  refine ⟨?_, ?_, fun k hk hki => ?_, fun a ha hmark => ?_⟩
  · rw [← hentry]
    refine Mem.readBytes_congr _ _ _ _ fun x _ hx => Part.setMark_read ?_
    simp only [Config.entryBytes] at hx
    omega
  · rw [Part.setMark_marked hi]
    simp
  · rw [Part.setMark_marked hi, hmap k hk]
    simp [hki]
  · rw [Part.setMark_read hmark, hbytes a ha]

/-! ### the clamps (R80) -/

theorem PriceRecord.toEntry_of_out {r : PriceRecord} (crc : Nat) (h : r.code = 0 ∨ 99999999999999 < r.code) :
    (r.toEntry crc).valid = false ∧ (r.toEntry crc).recCrc = crc := by
  have hout : r.code = 0 ∨ Config.itemMax < r.code := h
  rw [PriceRecord.toEntry, if_pos hout]
  exact ⟨rfl, rfl⟩

/-- The entry of a record with an item code in range is that of its clamped record. -/
theorem PriceRecord.toEntry_of_in {r : PriceRecord} (crc : Nat) (hlow : 1 ≤ r.code) (hhigh : r.code ≤ 99999999999999) :
    r.toEntry crc =
      { code := r.clamp.code, p := r.clamp.p, kind := r.clamp.kind, ref := r.clamp.ref, promo := r.clamp.promo
        value := r.clamp.value, m := r.clamp.m, c := r.clamp.c, recCrc := crcValue r.clamp.bytes, held := 0, valid := true
        hold := false, startKnown := false, count := 0, startDay := 0, startMinute := 0 } := by
  have hin : ¬ (r.code = 0 ∨ Config.itemMax < r.code) := by simp only [Config.itemMax]; omega
  rw [PriceRecord.toEntry, if_neg hin]

theorem PriceRecord.toEntry_valid (r : PriceRecord) (crc : Nat) :
    (r.toEntry crc).valid = true ↔ r.code ≠ 0 ∧ r.code ≤ Config.itemMax := by
  unfold PriceRecord.toEntry
  split
  · next h => simp only [Bool.false_eq_true, false_iff]; omega
  · next h => simp only [true_iff]; omega

/-- What the clamps leave of the fields that no promotion touches. -/
theorem PriceRecord.clamp_fields (r : PriceRecord) :
    r.clamp.code = r.code ∧ r.clamp.p = min r.p 9999999 ∧ r.clamp.c = min r.c 99999 ∧
      r.clamp.kind = (if r.kind ≤ 3 then r.kind else 0) ∧ r.clamp.ref = if r.ref ≤ 3 then r.ref else 0 := by
  have hkind : (if 3 < r.kind then 0 else r.kind) = if r.kind ≤ 3 then r.kind else 0 := by split_ifs <;> omega
  have href : (if 3 < r.ref then 0 else r.ref) = if r.ref ≤ 3 then r.ref else 0 := by split_ifs <;> omega
  rw [← hkind, ← href]
  unfold PriceRecord.clamp
  dsimp only
  split_ifs <;> exact ⟨rfl, rfl, rfl, rfl, rfl⟩

theorem PriceRecord.clamp_no_promotion {r : PriceRecord} (h : r.promo = 0 ∨ 2 < r.promo) : r.clamp.promo = 0 := by
  have hpercent : r.promo ≠ promoPercent := by simp only [promoPercent]; omega
  have hmulti : r.promo ≠ promoMultibuy := by simp only [promoMultibuy]; omega
  unfold PriceRecord.clamp
  dsimp only
  rw [if_neg hpercent, if_neg hmulti]
  by_cases hnone : r.promo = 0
  · rw [if_pos hnone]
    exact hnone
  · rw [if_neg hnone]

theorem PriceRecord.clamp_percent {r : PriceRecord} (h : r.promo = 1) :
    (1 ≤ r.value → r.clamp.promo = 1 ∧ r.clamp.value = min r.value 90) ∧
      (r.value = 0 → r.clamp.promo = 0 ∧ r.clamp.value = 0 ∧ r.clamp.m = 0) := by
  unfold PriceRecord.clamp
  simp only [promoPercent, h, if_true]
  refine ⟨fun hvalue => ?_, fun hzero => ?_⟩
  · rw [if_neg (by omega)]
    exact ⟨rfl, rfl⟩
  · rw [if_pos hzero]
    exact ⟨rfl, rfl, rfl⟩

theorem PriceRecord.clamp_multibuy {r : PriceRecord} (h : r.promo = 2) :
    (2 ≤ r.value → 1 ≤ r.m → (r.kind = 0 ∨ 3 < r.kind) →
        r.clamp.promo = 2 ∧ r.clamp.value = min r.value 9 ∧ r.clamp.m = min r.m 9999999) ∧
      ((r.value ≤ 1 ∨ r.m = 0 ∨ (1 ≤ r.kind ∧ r.kind ≤ 3)) →
        r.clamp.promo = 0 ∧ r.clamp.value = 0 ∧ r.clamp.m = 0) := by
  have hkind : (if 3 < r.kind then 0 else r.kind) ≠ sellEach ↔ 1 ≤ r.kind ∧ r.kind ≤ 3 := by
    simp only [sellEach]
    split_ifs <;> omega
  have hnot : r.promo ≠ promoPercent := by simp [promoPercent, h]
  have hmulti : r.promo = promoMultibuy := h
  unfold PriceRecord.clamp
  dsimp only
  rw [if_neg hnot, if_pos hmulti]
  refine ⟨fun hvalue hm heach => ?_, fun hbad => ?_⟩
  · rw [if_neg (by rw [hkind]; omega)]
    exact ⟨h, rfl, rfl⟩
  · rw [if_pos (by rw [hkind]; exact hbad)]
    exact ⟨rfl, rfl, rfl⟩

/-! ### one record in range (R80) -/

/-- The part with the entry of a record staged, before the map is looked at. -/
def Part.recordPut (i : Nat) (bs : Bytes) (p : Part) : Part :=
  let r := parsePriceRecord bs
  let e := r.toEntry (crcField bs 22)
  let l := p.loads .staging 1
  let q := if (r.code ≠ 0 ∧ r.code ≤ Config.itemMax) ∧ r.clamp ≠ r then
    l.countPrice fun c => { c with recordsClamped := bump c.recordsClamped } else l
  ((q.setEntry .staging q.inactive i e).setMark i).modStaging fun s =>
    { s with received := s.received + 1, check := (s.check + e.recCrc) % 4294967296 }

theorem Part.stageAt_bad {i : Nat} {bs : Bytes} (p : Part) (hcrc : crcGood bs = false) :
    p.stageAt i bs = p.countPrice fun c => { c with recordsBad := bump c.recordsBad } :=
  if_neg (by simp [hcrc])

theorem Part.stageAt_marked {p : Part} {i : Nat} {bs : Bytes} (hcrc : crcGood bs = true) (hmark : p.marked i = true) :
    p.stageAt i bs = p.loads .staging 1 := by
  have hloads : (p.loads .staging 1).marked i = true := (Part.marked_congr (by simp)).trans hmark
  unfold Part.stageAt
  rw [if_pos hcrc]
  exact if_pos hloads

theorem Part.stageAt_unmarked {p : Part} {i : Nat} {bs : Bytes} (hcrc : crcGood bs = true) (hmark : p.marked i = false) :
    p.stageAt i bs = (p.recordPut i bs).decideFull := by
  have hloads : (p.loads .staging 1).marked i = false := (Part.marked_congr (by simp)).trans hmark
  unfold Part.stageAt
  rw [if_pos hcrc]
  exact if_neg (by simp [hloads])

/-- With an index below N still missing the staging is left as it is. -/
theorem Part.decideFull_of_missing {p : Part} {n j : Nat} (hn : p.price.staging.n = some n) (hj : j < n)
    (hmissing : p.marked j = false) : p.decideFull = p.loads .staging (p.fullBursts n) := by
  have hopen : p.mapFull n = false := by
    simp only [Part.mapFull, List.all_eq_false, List.mem_range]
    exact ⟨j, hj, by simp [hmissing]⟩
  simp [Part.decideFull, hn, Part.readFull, hopen]

/-- Every index below N marked: the staging is decided. -/
theorem Part.decideFull_of_full {p : Part} {n : Nat} (hn : p.price.staging.n = some n) (hfull : ∀ j, j < n → p.marked j = true) :
    p.decideFull = (p.loads .staging (p.fullBursts n)).decideStaging := by
  have hall : p.mapFull n = true := by
    simp only [Part.mapFull, List.all_eq_true, List.mem_range]
    exact hfull
  simp [Part.decideFull, hn, Part.readFull, hall]

theorem Part.recordPut_price (i : Nat) (bs : Bytes) (p : Part) :
    (p.recordPut i bs).price =
      let r := parsePriceRecord bs
      let e := r.toEntry (crcField bs 22)
      { p.price with
        staging :=
          { p.price.staging with
            received := p.price.staging.received + 1, check := (p.price.staging.check + e.recCrc) % 4294967296 }
        ctr :=
          if e.valid = true ∧ r.clamp ≠ r then { p.price.ctr with recordsClamped := bump p.price.ctr.recordsClamped }
          else p.price.ctr } := by
  simp only [PriceRecord.toEntry_valid]
  unfold Part.recordPut
  dsimp only
  split_ifs <;> simp [Part.modStaging]

theorem Part.recordPut_staged {p : Part} {i : Nat} (bs : Bytes) (hi : i < 32768) :
    p.recordStaged i ((parsePriceRecord bs).toEntry (crcField bs 22)) (p.recordPut i bs) := by
  unfold Part.recordPut
  dsimp only
  refine Part.recordStaged_congr (Part.recordStaged_of_writes hi (q := Part.setEntry _ _ _ _ _) ?_) (by simp; rfl)
  split_ifs <;> simp [Part.inactive]

theorem Part.recordPut_frame (i : Nat) (bs : Bytes) (p : Part) :
    (p.recordPut i bs).branch = p.branch ∧ (p.recordPut i bs).fwd = p.fwd ∧ (p.recordPut i bs).call = p.call ∧
      (p.recordPut i bs).hdr = p.hdr := by
  unfold Part.recordPut
  dsimp only
  split_ifs <;> simp

/-- The staging takes a record at index `i` below its N. -/
def Part.takesRecord (gen i n : Nat) (p : Part) : Prop :=
  (p.price.staging.state = .receiving ∨ p.price.staging.state = .gaps) ∧ p.price.staging.generation = gen ∧
    p.price.staging.n = some n ∧ i < n ∧ n ≤ 32768

theorem Part.stageRecord_taken {p : Part} {gen i n : Nat} (bs : Bytes) (h : p.takesRecord gen i n) :
    p.stageRecord gen i bs = p.stageAt i bs := by
  obtain ⟨hstate, hgen, hn, hi, hmost⟩ := h
  refine if_pos ⟨hstate, hgen, ?_, ?_⟩
  · simp only [Config.bankSlots]
    omega
  · simp [hn, hi]

/-- What a good record for an unmarked index leaves, with another index still missing. -/
structure Part.RecordTaken (p : Part) (i : Nat) (bs : Bytes) (q : Part) : Prop where
  price : q.price = (p.recordPut i bs).price
  staged : p.recordStaged i ((parsePriceRecord bs).toEntry (crcField bs 22)) q
  branch : q.branch = p.branch
  fwd : q.fwd = p.fwd
  call : q.call = p.call
  hdr : q.hdr = p.hdr

theorem Part.stageRecord_good {p : Part} {gen i n j : Nat} {bs : Bytes} (h : p.takesRecord gen i n)
    (hcrc : crcGood bs = true) (hmark : p.marked i = false) (hj : j < n) (hother : j ≠ i) (hmissing : p.marked j = false) :
    p.RecordTaken i bs (p.stageRecord gen i bs) := by
  have htake := Part.stageRecord_taken bs h
  obtain ⟨-, -, hn, hi, hmost⟩ := h
  have hput := Part.recordPut_staged (p := p) bs (i := i) (by omega)
  obtain ⟨-, -, hmarks, -⟩ := hput
  have hstage : p.stageRecord gen i bs = (p.recordPut i bs).loads .staging ((p.recordPut i bs).fullBursts n) := by
    rw [htake, Part.stageAt_unmarked hcrc hmark]
    exact Part.decideFull_of_missing (by simpa [Part.recordPut_price] using hn) hj
      ((hmarks j (by omega) hother).trans hmissing)
  rw [hstage]
  obtain ⟨hbranch, hfwd, hcall, hhdr⟩ := p.recordPut_frame i bs
  exact
    { price := by simp
      staged := Part.recordStaged_congr (Part.recordPut_staged bs (by omega)) (by simp)
      branch := by simp [hbranch]
      fwd := by simp [hfwd]
      call := by simp [hcall]
      hdr := by simp [hhdr] }

end Sys2Proof.Machine
end

section
/-! PROOFS. Heads and parts (R80 to R82). -/

open Sys2Proof
namespace Sys2Proof.Machine

theorem exec_priceHeadReceived (s : State) : exec .priceHeadReceived s = s.run Part.priceHead := rfl
theorem exec_pricePartReceived (s : State) : exec .pricePartReceived s = s.run Part.pricePart := rfl

/-! ### open fetches asked to end early (R25, R81) -/

/-- A call once the fetches of a discarded staging have been asked to end early. -/
def OpenCall.askedEarly (fetches : List Fetch) (e : OpenCall) : OpenCall :=
  if (∃ f ∈ fetches, f.tag = e.tag) ∧ e.state ≠ .queued then { e with endEarly := true } else e

theorem OpenCall.askedEarly_cons (f : Fetch) (rest : List Fetch) (e : OpenCall) :
    OpenCall.askedEarly rest (if e.tag = f.tag ∧ e.state ≠ .queued then { e with endEarly := true } else e) =
      OpenCall.askedEarly (f :: rest) e := by
  by_cases hfirst : e.tag = f.tag ∧ e.state ≠ .queued
  · rw [if_pos hfirst]
    obtain ⟨htag, hstate⟩ := hfirst
    have hall : OpenCall.askedEarly (f :: rest) e = { e with endEarly := true } := if_pos ⟨⟨f, by simp, htag.symm⟩, hstate⟩
    rw [hall, OpenCall.askedEarly]
    split_ifs <;> rfl
  · rw [if_neg hfirst]
    have hsame : ((∃ x ∈ f :: rest, x.tag = e.tag) ∧ e.state ≠ .queued) ↔ (∃ x ∈ rest, x.tag = e.tag) ∧ e.state ≠ .queued := by
      simp only [List.mem_cons, exists_eq_or_imp]
      constructor
      · rintro ⟨htag | hin, hstate⟩
        · exact absurd ⟨htag.symm, hstate⟩ hfirst
        · exact ⟨hin, hstate⟩
      · exact fun ⟨hin, hstate⟩ => ⟨.inr hin, hstate⟩
    simp only [OpenCall.askedEarly, hsame]

theorem Part.endEarly_all (fetches : List Fetch) (p : Part) :
    fetches.foldl (fun r f => r.endEarly f.tag) p =
      p.modCall fun c => { c with opens := c.opens.map (OpenCall.askedEarly fetches) } := by
  induction fetches generalizing p with
  | nil =>
    have hid : OpenCall.askedEarly [] = id := funext fun e => by simp [OpenCall.askedEarly]
    simp [hid, Part.modCall]
  | cons f rest ih =>
    rw [List.foldl_cons, ih]
    simp only [Part.endEarly, Part.modCall, List.map_map]
    congr 2
    exact List.map_congr_left fun e _ => OpenCall.askedEarly_cons f rest e

/-! ### a head (R81) -/

/-- The part with the present staging removed, counted under the cause where there was one. -/
def Part.clearedFor (d : Discard) (p : Part) : Part :=
  if p.price.staging.state = .empty then p.removeStaging else p.removeStaging.countPrice d.count

theorem Part.clearedFor_price (d : Discard) (p : Part) :
    (p.clearedFor d).price =
      { p.price with
        staging := { fetches := p.price.staging.fetches }, trigger := .disarmed, walk := none, recount := false
        pauseTimer := false, fetchTimer := false
        ctr := if p.price.staging.state = .empty then p.price.ctr else d.count p.price.ctr } := by
  unfold Part.clearedFor
  split_ifs <;> simp [Part.removeStaging_price]

theorem Part.clearedFor_frame (d : Discard) (p : Part) :
    (p.clearedFor d).cfg = p.cfg ∧ (p.clearedFor d).trunkFramer = p.trunkFramer ∧
      (p.clearedFor d).labelFramer = p.labelFramer ∧ (p.clearedFor d).guestFramer = p.guestFramer ∧
      (p.clearedFor d).links = p.links ∧ (p.clearedFor d).pres = p.pres ∧ (p.clearedFor d).till = p.till ∧
      (p.clearedFor d).jrn = p.jrn ∧ (p.clearedFor d).lab = p.lab ∧ (p.clearedFor d).gst = p.gst ∧
      (p.clearedFor d).trk = p.trk ∧ (p.clearedFor d).hdr = p.hdr ∧ (p.clearedFor d).memCtr = p.memCtr ∧
      (p.clearedFor d).written = p.written := by
  unfold Part.clearedFor
  split_ifs <;> simp

theorem Part.clearedFor_frame_of_none {p : Part} (d : Discard)
    (h : p.price.staging.state = .empty ∨ p.call.deferred = []) :
    (p.clearedFor d).branch = p.branch ∧ (p.clearedFor d).fwd = p.fwd ∧ (p.clearedFor d).call = p.call ∧
      (p.clearedFor d).dram = Mem.wipe p.dram Config.mapBase (Config.mapBase + Config.mapSize) := by
  have hremove := Part.removeStaging_frame_of_none h
  unfold Part.clearedFor
  split_ifs <;> simpa using hremove

/-- The staging of a head's payload begun, before it is in RECEIVING. -/
def Part.headTaken (b : Bytes) (p : Part) : Part :=
  ((p.clearedFor .newerHead).modCall fun c =>
      { c with opens := c.opens.map (OpenCall.askedEarly p.price.staging.fetches) }).modStaging fun s =>
    { s with generation := fieldAt b 0 4, n := some (fieldAt b 4 2), effDay := fieldAt b 6 2, effMinute := fieldAt b 8 2 }

theorem Part.takeHead_opens {p : Part} {b : Bytes} (hlen : b.length = 10) (hlow : 1 ≤ fieldAt b 4 2)
    (hhigh : fieldAt b 4 2 ≤ 32768) (hminute : fieldAt b 8 2 ≤ 1439) (hactive : p.price.activeGen < fieldAt b 0 4)
    (hstaged : p.price.staging.state = .empty ∨ p.price.staging.generation < fieldAt b 0 4) :
    p.takeHead b = (p.headTaken b).stagingTo .receiving := by
  have hformed : ¬ (b.length ≠ 10 ∨ fieldAt b 4 2 = 0 ∨ Config.bankSlots < fieldAt b 4 2 ∨ 1439 < fieldAt b 8 2) := by
    simp only [Config.bankSlots]
    omega
  have hnew : ¬ (fieldAt b 0 4 ≤ p.price.activeGen ∨
      (p.price.staging.state ≠ .empty ∧ fieldAt b 0 4 ≤ p.price.staging.generation)) := by
    rintro (hold | ⟨hfull, hold⟩)
    · omega
    · rcases hstaged with hempty | hbelow
      · exact hfull hempty
      · omega
  unfold Part.takeHead
  dsimp only
  rw [if_neg hformed, if_neg hnew, Part.endEarly_all]
  rfl

theorem Part.takeHead_ignored {p : Part} {b : Bytes}
    (h : b.length ≠ 10 ∨ fieldAt b 4 2 = 0 ∨ 32768 < fieldAt b 4 2 ∨ 1439 < fieldAt b 8 2 ∨
      fieldAt b 0 4 ≤ p.price.activeGen ∨ (p.price.staging.state ≠ .empty ∧ fieldAt b 0 4 ≤ p.price.staging.generation)) :
    p.takeHead b = p.countPrice fun c => { c with headsIgnored := bump c.headsIgnored } := by
  unfold Part.takeHead
  dsimp only
  by_cases hformed : b.length ≠ 10 ∨ fieldAt b 4 2 = 0 ∨ Config.bankSlots < fieldAt b 4 2 ∨ 1439 < fieldAt b 8 2
  · rw [if_pos hformed]
  · rw [if_neg hformed, if_pos]
    simp only [Config.bankSlots, not_or] at hformed
    obtain ⟨hlen, hlow, hhigh, hminute⟩ := hformed
    rcases h with h | h | h | h | h
    · exact absurd h hlen
    · exact absurd h hlow
    · exact absurd h hhigh
    · exact absurd h hminute
    · exact h

/-! ### a part of one record (R82) -/

/-- Such a part is its record, at its index. -/
theorem Part.takePart_of_one {p : Part} {b : Bytes} {n i : Nat} (hrecord : p.takesRecord (fieldAt b 0 4) i n)
    (hindex : fieldAt b 4 2 = i) (hone : fieldAt b 6 1 = 1) (hlen : b.length = 31) :
    p.takePart b = p.stageRecord (fieldAt b 0 4) i (sub b 7 24) := by
  obtain ⟨hstate, hgen, -⟩ := hrecord
  have hopen : ¬ (p.price.staging.state ≠ .receiving ∧ p.price.staging.state ≠ .gaps) := by
    rcases hstate with h | h <;> simp [h]
  have hfits : ¬ (b.length ≠ 7 + priceRecordBytes * fieldAt b 6 1 ∨ fieldAt b 6 1 = 0 ∨
      Config.fetchPerData < fieldAt b 6 1 ∨ p.price.staging.generation ≠ fieldAt b 0 4 ∨
      (p.price.staging.state ≠ .receiving ∧ p.price.staging.state ≠ .gaps)) := by
    simp [hlen, hone, hgen, hopen, priceRecordBytes, Config.fetchPerData]
  unfold Part.takePart
  refine (if_neg hfits).trans ?_
  rw [hone, hindex]
  rfl

/-! ### the commands of a head and of a part (R81, R82) -/

section
variable {s : State} (hev : s.supply.takesEvents = true) {it : RxItem} {rest : List Handed} {b : BranchBody}
  (hin : s.part.price.inbox = .frame it :: rest) (hclear : ∀ x, rest.head? ≠ some (.completion x))
  (hb : b = parseBody (s.part.bufBytes it.buf))
include hev hin hclear hb

theorem State.head_opens (htakes : s.part.pricingTakes = true) (hkind : b.kind = kindPriceHead)
    (hlen : b.payload.length = 10) (hlow : 1 ≤ fieldAt b.payload 4 2) (hhigh : fieldAt b.payload 4 2 ≤ 32768)
    (hminute : fieldAt b.payload 8 2 ≤ 1439) (hactive : s.part.price.activeGen < fieldAt b.payload 0 4)
    (hstaged : s.part.price.staging.state = .empty ∨
      (s.part.price.staging.generation < fieldAt b.payload 0 4 ∧ s.part.call.deferred = []))
    (hfly : s.part.hdr.inFlight = none) :
    ∃ t, exec .priceHeadReceived s = .next t ∧
      t.part.price =
        { s.part.price with
          staging :=
            { state := .receiving, generation := fieldAt b.payload 0 4, n := some (fieldAt b.payload 4 2)
              effDay := fieldAt b.payload 6 2, effMinute := fieldAt b.payload 8 2
              fetches := s.part.price.staging.fetches }
          inbox := rest, trigger := .disarmed, walk := none, recount := false, pauseTimer := true
          fetchTimer := false
          ctr :=
            if s.part.price.staging.state = .empty then s.part.price.ctr
            else { s.part.price.ctr with newerHead := bump s.part.price.ctr.newerHead } } ∧
      t.part.call =
        { s.part.call with opens := s.part.call.opens.map (OpenCall.askedEarly s.part.price.staging.fetches) } ∧
      t.part.hdr.copy = t.part.price.staging.toHeader s.part.hdr.copy ∧
      t.part.hdr.inFlight = some (t.part.hdr.copy, [.pricing]) ∧ t.part.mapCleared s.part.dram ∧
      t.part.fwd = s.part.fwd.giveBack it.buf ∧ Unchanged [.price, .hdr, .fwd, .call, .memory] s t := by
  have htake := Part.takeHead_opens (p := s.part.inboxTo rest) hlen hlow hhigh hminute hactive
    (hstaged.imp_right And.left)
  have hframe := (s.part.inboxTo rest).clearedFor_frame .newerHead
  obtain ⟨hbranch, hfwd, hcall, hdram⟩ :=
    Part.clearedFor_frame_of_none (p := s.part.inboxTo rest) .newerHead (hstaged.imp_right And.right)
  have hend := Part.takePriceFrame_eq (f := Part.takeHead) htakes hin hclear hb hkind htake
    (by simp [Part.stagingTo_price, Part.headTaken, Part.modStaging, Part.clearedFor_price])
  refine ⟨_, exec_of_run exec_priceHeadReceived hev, ?_⟩
  rw [Part.priceHead, hend]
  refine ⟨?_, ?_, ?_, ?_, Part.mapCleared_of_dram ?_, ?_, State.unchanged_of_part _ _ _ fun x hx => ?_⟩
  · simp [Part.stagingTo_price, Part.headTaken, Part.modStaging, Part.clearedFor_price, Discard.count] <;> rfl
  · simp [Part.headTaken, hcall]
  · simp [Part.stagingTo_copy, Part.headTaken, hframe]
  · have hidle : ((s.part.inboxTo rest).headTaken b.payload).hdr.inFlight = none := by
      simp [Part.headTaken, hframe, hfly]
    simpa using Part.stagingTo_inFlight .receiving hidle
  · simp [Part.headTaken, hdram]
  · simp [Part.headTaken, hfwd]
  · cases x <;> simp [Piece.same] at hx ⊢ <;> simp [Part.headTaken, hframe, hbranch]

theorem State.head_ignored (htakes : s.part.pricingTakes = true) (hkind : b.kind = kindPriceHead)
    (h : b.payload.length ≠ 10 ∨ fieldAt b.payload 4 2 = 0 ∨ 32768 < fieldAt b.payload 4 2 ∨
      1439 < fieldAt b.payload 8 2 ∨ fieldAt b.payload 0 4 ≤ s.part.price.activeGen ∨
      (s.part.price.staging.state ≠ .empty ∧ fieldAt b.payload 0 4 ≤ s.part.price.staging.generation)) :
    ∃ t, exec .priceHeadReceived s = .next t ∧
      t.part.price =
        { s.part.price with
          inbox := rest, ctr := { s.part.price.ctr with headsIgnored := bump s.part.price.ctr.headsIgnored } } ∧
      t.part.fwd = s.part.fwd.giveBack it.buf ∧ Unchanged [.price, .fwd] s t := by
  have hend := Part.takePriceFrame_eq (f := Part.takeHead) htakes hin hclear hb hkind
    (Part.takeHead_ignored (p := s.part.inboxTo rest) h) rfl
  refine ⟨_, exec_of_run exec_priceHeadReceived hev, ?_⟩
  rw [Part.priceHead, hend]
  refine ⟨by simp, by simp, State.unchanged_of_part _ _ _ fun x hx => ?_⟩
  cases x <;> simp [Piece.same] at hx ⊢

theorem State.part_ignored (htakes : s.part.recordsTake = true) (hkind : b.kind = kindPricePart)
    (h : fieldAt b.payload 0 4 ≠ s.part.price.staging.generation ∨
      b.payload.length ≠ 7 + 24 * fieldAt b.payload 6 1 ∨ fieldAt b.payload 6 1 = 0 ∨ 42 < fieldAt b.payload 6 1 ∨
      s.part.price.staging.state = .empty ∨ s.part.price.staging.state = .complete ∨
      s.part.price.staging.state = .activating) :
    ∃ t, exec .pricePartReceived s = .next t ∧
      t.part.price =
        { s.part.price with
          inbox := rest, ctr := { s.part.price.ctr with partsIgnored := bump s.part.price.ctr.partsIgnored } } ∧
      t.part.fwd = s.part.fwd.giveBack it.buf ∧ Unchanged [.price, .fwd] s t := by
  have htake : (s.part.inboxTo rest).takePart b.payload =
      (s.part.inboxTo rest).countPrice fun c => { c with partsIgnored := bump c.partsIgnored } := by
    refine if_pos ?_
    change b.payload.length ≠ 7 + 24 * fieldAt b.payload 6 1 ∨ fieldAt b.payload 6 1 = 0 ∨ 42 < fieldAt b.payload 6 1 ∨
      s.part.price.staging.generation ≠ fieldAt b.payload 0 4 ∨
      (s.part.price.staging.state ≠ .receiving ∧ s.part.price.staging.state ≠ .gaps)
    rcases h with h | h | h | h | h | h | h
    · exact .inr (.inr (.inr (.inl h.symm)))
    · exact .inl h
    · exact .inr (.inl h)
    · exact .inr (.inr (.inl h))
    all_goals exact .inr (.inr (.inr (.inr (by simp [h]))))
  have hend := Part.takePriceFrame_eq (f := Part.takePart) htakes hin hclear hb hkind htake rfl
  refine ⟨_, exec_of_run exec_pricePartReceived hev, ?_⟩
  rw [Part.pricePart, hend]
  refine ⟨by simp, by simp, State.unchanged_of_part _ _ _ fun x hx => ?_⟩
  cases x <;> simp [Piece.same] at hx ⊢

section
variable (htakes : s.part.recordsTake = true) (hkind : b.kind = kindPricePart) {n i : Nat}
  (hrecord : s.part.takesRecord (fieldAt b.payload 0 4) i n) (hindex : fieldAt b.payload 4 2 = i)
  (hone : fieldAt b.payload 6 1 = 1) (hlen : b.payload.length = 31)
include htakes hkind hrecord hindex hone hlen

theorem State.part_bad_record (hcrc : crcGood (sub b.payload 7 24) = false) :
    ∃ t, exec .pricePartReceived s = .next t ∧
      t.part.price =
        { s.part.price with
          inbox := rest, ctr := { s.part.price.ctr with recordsBad := bump s.part.price.ctr.recordsBad } } ∧
      t.part.fwd = s.part.fwd.giveBack it.buf ∧ Unchanged [.price, .fwd] s t := by
  have htake := Part.takePart_of_one (p := s.part.inboxTo rest) hrecord hindex hone hlen
  rw [Part.stageRecord_taken (p := s.part.inboxTo rest) _ hrecord, Part.stageAt_bad _ hcrc] at htake
  have hend := Part.takePriceFrame_eq (f := Part.takePart) htakes hin hclear hb hkind htake rfl
  refine ⟨_, exec_of_run exec_pricePartReceived hev, ?_⟩
  rw [Part.pricePart, hend]
  refine ⟨by simp, by simp, State.unchanged_of_part _ _ _ fun x hx => ?_⟩
  cases x <;> simp [Piece.same] at hx ⊢

theorem State.part_good_record {j : Nat} {e : BankEntry} (hcrc : crcGood (sub b.payload 7 24) = true)
    (hmark : s.part.marked i = false) (hj : j < n) (hother : j ≠ i) (hmissing : s.part.marked j = false)
    (he : e = (parsePriceRecord (sub b.payload 7 24)).toEntry (crcField (sub b.payload 7 24) 22)) :
    ∃ t, exec .pricePartReceived s = .next t ∧
      t.part.price =
        { s.part.price with
          inbox := rest
          staging :=
            { s.part.price.staging with
              received := s.part.price.staging.received + 1
              check := (s.part.price.staging.check + e.recCrc) % 4294967296 }
          ctr :=
            if e.valid = true ∧ (parsePriceRecord (sub b.payload 7 24)).clamp ≠ parsePriceRecord (sub b.payload 7 24) then
              { s.part.price.ctr with recordsClamped := bump s.part.price.ctr.recordsClamped }
            else s.part.price.ctr } ∧
      s.part.recordStaged i e t.part ∧ t.part.fwd = s.part.fwd.giveBack it.buf ∧
      Unchanged [.price, .fwd, .memory] s t := by
  subst he
  have htake := Part.takePart_of_one (p := s.part.inboxTo rest) hrecord hindex hone hlen
  have htaken := Part.stageRecord_good (p := s.part.inboxTo rest) hrecord hcrc hmark hj hother hmissing
  have hend := Part.takePriceFrame_eq (f := Part.takePart) htakes hin hclear hb hkind htake
    (by rw [htaken.price, Part.recordPut_price]; rfl)
  refine ⟨_, exec_of_run exec_pricePartReceived hev, ?_⟩
  rw [Part.pricePart, hend]
  refine ⟨?_, Part.recordStaged_congr (p := s.part) htaken.staged (by simp), ?_, State.unchanged_of_part _ _ _ fun x hx => ?_⟩
  · rw [State.settle_price, Part.giveBack_price, htaken.price, Part.recordPut_price]
    rfl
  · rw [State.settle_fwd, Part.giveBack_fwd, htaken.fwd]
    rfl
  · cases x <;> simp [Piece.same] at hx ⊢ <;>
      simp [htaken.branch, htaken.call, htaken.hdr]
end
end

/-! ### the table of the clamps (R80) -/

theorem PriceRecord.toEntry_table (r : PriceRecord) (crc : Nat) (hlow : 1 ≤ r.code) (hhigh : r.code ≤ 99999999999999) :
    (r.toEntry crc).valid = true ∧ (r.toEntry crc).code = r.code ∧ (r.toEntry crc).hold = false ∧
      (r.toEntry crc).held = 0 ∧ (r.toEntry crc).count = 0 ∧ (r.toEntry crc).startKnown = false ∧
      (r.toEntry crc).p = min r.p 9999999 ∧ (r.toEntry crc).c = min r.c 99999 ∧
      (r.toEntry crc).kind = (if r.kind ≤ 3 then r.kind else 0) ∧ (r.toEntry crc).ref = (if r.ref ≤ 3 then r.ref else 0) ∧
      (r.toEntry crc).recCrc = crcValue r.clamp.bytes := by
  obtain ⟨hcode, hp, hc, hkind, href⟩ := r.clamp_fields
  rw [PriceRecord.toEntry_of_in crc hlow hhigh]
  exact ⟨rfl, hcode, rfl, rfl, rfl, rfl, hp, hc, hkind, href, rfl⟩

end Sys2Proof.Machine

open Sys2Proof.Machine

/-- Settles O36: heads, parts, and the table of the clamps. -/
theorem headsAndPartsAreStaged : Obligations.HeadsAndPartsAreStaged := by
  refine ⟨fun s it rest b hev htakes hin hclear hb hkind => ⟨fun hlen hlow hhigh hminute hactive hstaged hfly => ?_,
      State.head_ignored hev hin hclear hb htakes hkind⟩,
    fun s it rest b hev htakes hin hclear hb hkind => ⟨State.part_ignored hev hin hclear hb htakes hkind,
      fun n i bs hgen hstate hn hmost hindex hi hone hlen hbs => ?_⟩, fun r crc e he => ?_⟩
  · obtain ⟨t, hexec, hprice, hcall, hcopy, hflight, ⟨hmap, hmem⟩, hfwd, hkept⟩ :=
      State.head_opens hev hin hclear hb htakes hkind hlen hlow hhigh hminute hactive hstaged hfly
    exact ⟨t, hexec, hprice, hcall, hcopy, hflight, hmap, hmem, hfwd, hkept⟩
  · subst hbs
    have hrecord : s.part.takesRecord (fieldAt b.payload 0 4) i n := ⟨hstate, hgen, hn, hi, hmost⟩
    refine ⟨State.part_bad_record hev hin hclear hb htakes hkind hrecord hindex hone hlen,
      fun j e hcrc hmark hj hother hmissing he => ?_⟩
    obtain ⟨t, hexec, hprice, ⟨hentry, hset, hmarks, hmem⟩, hfwd, hkept⟩ :=
      State.part_good_record hev hin hclear hb htakes hkind hrecord hindex hone hlen hcrc hmark hj hother hmissing he
    exact ⟨t, hexec, hprice, hentry, hset, hmarks, hmem, hfwd, hkept⟩
  · subst he
    refine ⟨PriceRecord.toEntry_of_out crc, fun hlow hhigh => ?_⟩
    obtain ⟨hvalid, hcode, hhold, hheld, hcount, hstart, hp, hc, hkind, href, hcrc⟩ := r.toEntry_table crc hlow hhigh
    refine ⟨hvalid, hcode, hhold, hheld, hcount, hstart, hp, hc, hkind, href, hcrc, ?_⟩
    rw [PriceRecord.toEntry_of_in crc hlow hhigh]
    exact ⟨PriceRecord.clamp_no_promotion, fun hpromo => (PriceRecord.clamp_percent hpromo).1,
      fun hpromo => (PriceRecord.clamp_percent hpromo).2, fun hpromo => (PriceRecord.clamp_multibuy hpromo).1,
      fun hpromo => (PriceRecord.clamp_multibuy hpromo).2⟩
end

section
/-! PROOFS. The activation, the merge walk and the switch (R88 to R90). -/

open Sys2Proof
namespace Sys2Proof.Machine

theorem exec_activationTrigger (s : State) : exec .activationTrigger s = s.run Part.activate := rfl
theorem exec_mergeWalkEnd (s : State) : exec .mergeWalkEnd s = s.run Part.walkDone := rfl

/-! ### bursts kept by a burst that finishes (R188) -/

theorem askedBy_has (u : BurstUser) {k : Tok} {l : List Tok} (h : k ∈ l) : ∃ x ∈ askedBy u l, x.user = u ∧ k ∈ x.toks := by
  cases l with
  | nil => simp at h
  | cons t rest => exact ⟨⟨u, some t, rest⟩, List.mem_singleton.mpr rfl, rfl, by simpa [Asked.toks] using h⟩

theorem Part.released_keeps (u : BurstUser) (more : List Tok) {v : BurstUser} {k : Tok} {p : Part}
    (h : p.asks.has v k = true) : (p.released u more).asks.has v k = true := by
  rw [Asks.has_iff] at h ⊢
  obtain ⟨x, hx, hxv, hk⟩ := h
  by_cases hr : v.req = u.req
  · rw [hr] at hx ⊢
    simp only [Part.released, Part.modAsks, Asks.of_set_self, List.mem_append]
    by_cases hu : v = u
    · have hlist : k ∈ more ++ ((p.asks.of u.req).filter fun x => decide (x.user = u)).flatMap Asked.toks :=
        List.mem_append_right _ (List.mem_flatMap.mpr ⟨x, List.mem_filter.mpr ⟨hx, by simp [hxv, hu]⟩, hk⟩)
      obtain ⟨y, hy, hyu, hyk⟩ := askedBy_has u hlist
      exact ⟨y, .inr hy, hyu.trans hu.symm, hyk⟩
    · exact ⟨x, .inl (List.mem_filter.mpr ⟨hx, by simp [hxv, hu]⟩), hxv, hk⟩
  · simp only [Part.released, Part.modAsks, Asks.of_set_other _ _ hr]
    exact ⟨x, hx, hxv, hk⟩

/-! ### the slots cleared and the walk going on (R89) -/

theorem entryAddr_mono (bank : BankName) {i j : Nat} (h : i < j) : entryAddr bank i + 32 ≤ entryAddr bank j := by
  simp only [entryAddr, Config.entryBytes]
  omega

theorem Part.wipeSlots_read (u : BurstUser) (bank : BankName) (lo hi : Nat) (p : Part) (a : Nat) :
    Mem.read (p.wipeSlots u bank lo hi).dram a =
      if entryAddr bank lo ≤ a ∧ a < entryAddr bank hi then 0 else Mem.read p.dram a := by
  unfold Part.wipeSlots
  by_cases h : lo < hi
  · rw [if_pos h, Part.wipe_dram, Mem.read_wipe]
  · have hempty : ¬ (entryAddr bank lo ≤ a ∧ a < entryAddr bank hi) := by
      simp only [entryAddr, Config.entryBytes]
      omega
    rw [if_neg h, if_neg hempty]

@[simp] theorem Part.walkOn_keeps (ended : Bool) (p : Part) :
    (p.walkOn ended).price = p.price ∧ (p.walkOn ended).cfg = p.cfg ∧ (p.walkOn ended).branch = p.branch ∧
      (p.walkOn ended).trunkFramer = p.trunkFramer ∧ (p.walkOn ended).labelFramer = p.labelFramer ∧
      (p.walkOn ended).guestFramer = p.guestFramer ∧ (p.walkOn ended).links = p.links ∧ (p.walkOn ended).fwd = p.fwd ∧
      (p.walkOn ended).call = p.call ∧ (p.walkOn ended).pres = p.pres ∧ (p.walkOn ended).till = p.till ∧
      (p.walkOn ended).jrn = p.jrn ∧ (p.walkOn ended).lab = p.lab ∧ (p.walkOn ended).gst = p.gst ∧
      (p.walkOn ended).trk = p.trk ∧ (p.walkOn ended).hdr = p.hdr ∧ (p.walkOn ended).memCtr = p.memCtr ∧
      (p.walkOn ended).written = p.written := by
  unfold Part.walkOn
  split_ifs <;> simp

/-- At its end the walk clears the slots from N on. -/
theorem Part.walkOn_read (ended : Bool) (p : Part) (a : Nat) :
    Mem.read (p.walkOn ended).dram a =
      if ended = true ∧ entryAddr p.inactive (p.price.staging.n.getD 0) ≤ a ∧ a < entryAddr p.inactive 32768 then 0
      else Mem.read p.dram a := by
  unfold Part.walkOn
  by_cases hended : ended = true
  · rw [if_pos hended, Part.wipeSlots_read]
    by_cases hin : entryAddr p.inactive (p.price.staging.n.getD 0) ≤ a ∧ a < entryAddr p.inactive 32768
    · exact (if_pos hin).trans (if_pos ⟨hended, hin⟩).symm
    · exact (if_neg hin).trans (if_neg fun h => hin h.2).symm
  · rw [if_neg hended]
    split_ifs <;> simp_all

theorem Part.walkOn_has (p : Part) : (p.walkOn false).asks.has .staging .mergeStep = true := by
  unfold Part.walkOn
  rw [if_neg (by simp)]
  split
  · next h => exact h
  · exact Part.ask_has _ _ _

/-! ### the activation (R88) -/

theorem State.activation_begins {s : State} (hev : s.supply.takesEvents = true) (htrigger : s.part.price.trigger = .fired)
    (hstate : s.part.price.staging.state = .complete) (hfly : s.part.hdr.inFlight = none) :
    ∃ t, exec .activationTrigger s = .next t ∧
      t.part.price =
        { s.part.price with
          staging := { s.part.price.staging with state := .activating }, pauseTimer := false, fetchTimer := false
          walk := some ⟨0, 0, 0, 0, decide (s.part.price.staging.n.getD 0 = 0)⟩ } ∧
      t.part.hdr.copy = t.part.price.staging.toHeader s.part.hdr.copy ∧
      t.part.hdr.inFlight = some (t.part.hdr.copy, [.pricing]) ∧
      (s.part.price.staging.n.getD 0 ≠ 0 → t.awaits .staging .mergeStep) ∧
      (∀ a, Mem.read t.part.dram a =
        if s.part.price.staging.n.getD 0 = 0 ∧ entryAddr s.part.inactive 0 ≤ a ∧ a < entryAddr s.part.inactive 32768 then 0
        else Mem.read s.part.dram a) ∧
      Unchanged [.price, .hdr, .memory] s t := by
  have hact : s.part.activate = (s.part.stagingTo .activating).beginWalk := if_pos ⟨htrigger, hstate⟩
  refine ⟨_, exec_of_run exec_activationTrigger hev, ?_⟩
  rw [hact, Part.beginWalk]
  dsimp only
  refine ⟨by simp [Part.stagingTo_price], ?_, ?_, fun hn => State.settle_awaits _ _ _ ?_, fun a => ?_,
    State.unchanged_of_part _ _ _ fun b hb => ?_⟩
  · simpa using s.part.stagingTo_copy .activating
  · simpa using Part.stagingTo_inFlight .activating hfly
  · have hgoes : decide ((s.part.stagingTo .activating).price.staging.n.getD 0 = 0) = false := by
      simpa [Part.stagingTo_price] using hn
    rw [hgoes]
    exact Part.walkOn_has _
  · rw [State.settle_dram, Part.walkOn_read]
    simp only [decide_eq_true_eq, Part.inactive, Part.modPrice_price, Part.modPrice_dram, Part.stagingTo_price,
      Part.stagingTo_frame]
    by_cases hnone : s.part.price.staging.n.getD 0 = 0
    · simp only [hnone]
    · simp only [hnone, false_and, if_false]
  · cases b <;> simp [Piece.same] at hb ⊢

/-! ### one step of the walk (R89) -/

/-- The entry of an item in the active bank, where the walk's cursor has found it. -/
def Part.oldEntry (code cur : Nat) (p : Part) : Option BankEntry :=
  match p.goodEntry p.price.active cur with
  | some o => if cur < p.price.activeCount ∧ o.code = code then some o else none
  | none => none

theorem Part.oldEntry_eq_some {p : Part} {code cur : Nat} {o : BankEntry} :
    p.oldEntry code cur = some o ↔
      cur < p.price.activeCount ∧ p.goodEntry p.price.active cur = some o ∧ o.code = code := by
  unfold Part.oldEntry
  cases hentry : p.goodEntry p.price.active cur with
  | none => simp
  | some x =>
    simp only [Option.some.injEq]
    constructor
    · intro h
      split_ifs at h with hin
      obtain rfl := Option.some.inj h
      exact ⟨hin.1, rfl, hin.2⟩
    · rintro ⟨hcur, rfl, hcode⟩
      exact if_pos ⟨hcur, hcode⟩

/-- An entry as the walk writes it with no price held. -/
def BankEntry.unheld (e : BankEntry) : BankEntry :=
  { e with hold := false, held := 0, startKnown := false, startDay := 0, startMinute := 0, count := 0 }

theorem BankEntry.merged_above {e o : BankEntry} (c : Clock) (h : o.charged < e.effective) :
    e.merged (some o) c =
      { e with
        hold := true, held := o.charged, startKnown := c.valid, count := 0
        startDay := if c.valid = true then c.day else 0, startMinute := if c.valid = true then c.minute else 0 } :=
  if_pos h

theorem BankEntry.merged_unheld {e : BankEntry} {old : Option BankEntry} (c : Clock)
    (h : ∀ o, old = some o → e.effective ≤ o.charged) : e.merged old c = e.unheld := by
  cases old with
  | none => rfl
  | some o => exact if_neg (Nat.not_lt.mpr (h o rfl))

/-- The part with the entry of a step of the walk written and its index left behind, the cursor at `cur`. -/
def Part.mergePut (w : Walk) (cur code : Nat) (e : BankEntry) (p : Part) : Part :=
  ((p.loads .staging (mapBursts w.index (w.index + 1) + (cur - w.cursor) + 1)).setEntry .staging p.inactive w.index
    e).modPrice fun x =>
      { x with
        walk := some ⟨w.index + 1, cur, code, w.holds + bit e.hold, decide (p.price.staging.n.getD 0 ≤ w.index + 1)⟩ }

theorem Part.mergePut_price (w : Walk) (cur code : Nat) (e : BankEntry) (p : Part) :
    (p.mergePut w cur code e).price =
      { p.price with
        walk := some ⟨w.index + 1, cur, code, w.holds + bit e.hold,
          decide (p.price.staging.n.getD 0 ≤ w.index + 1)⟩ } := by
  simp [Part.mergePut]

theorem Part.mergePut_inactive (w : Walk) (cur code : Nat) (e : BankEntry) (p : Part) :
    (p.mergePut w cur code e).inactive = p.inactive := by
  simp [Part.inactive, Part.mergePut_price]

theorem Part.mergePut_written {w : Walk} (cur code : Nat) (e : BankEntry) (p : Part) (hi : w.index < 32768) :
    (p.mergePut w cur code e).entryWritten p.dram p.inactive w.index e :=
  Part.entryWritten_of_dram hi (by simp [Part.mergePut])

section
variable {p : Part} {w : Walk} (hwalk : p.price.walk = some w) (hgoes : w.ended = false)
include hwalk hgoes

/-- A staged entry in its place is written back, and the walk goes on behind it. -/
theorem Part.mergeStep_good {e : BankEntry} (hentry : p.goodEntry p.inactive w.index = some e) (hvalid : e.valid = true)
    (hmark : p.marked w.index = true) (hcode : w.before < e.code) :
    p.mergeStep =
      (p.mergePut w (p.cursorTo e.code p.price.activeCount w.cursor) e.code
        (e.merged (p.oldEntry e.code (p.cursorTo e.code p.price.activeCount w.cursor)) p.pres.clock)).walkOn
        (decide (p.price.staging.n.getD 0 ≤ w.index + 1)) := by
  have hinplace : ¬ (e.valid = false ∨ p.marked w.index = false ∨ e.code ≤ w.before) := by
    simp only [hvalid, hmark, Bool.true_eq_false, false_or]
    omega
  unfold Part.mergeStep
  rw [hwalk]
  dsimp only
  rw [if_neg (by simp [hgoes]), hentry]
  dsimp only
  rw [if_neg hinplace]
  rfl

/-- One out of its place discards the staging. -/
theorem Part.mergeStep_bad (hbad : ∀ e, p.goodEntry p.inactive w.index = some e →
      e.valid = false ∨ p.marked w.index = false ∨ e.code ≤ w.before) : p.mergeStep = p.discard .order := by
  unfold Part.mergeStep
  rw [hwalk]
  dsimp only
  rw [if_neg (by simp [hgoes])]
  cases hentry : p.goodEntry p.inactive w.index with
  | none => rfl
  | some e => exact if_pos (hbad e hentry)
end

/-- The end of a burst of the walk. -/
theorem State.merge_step {s : State} (hev : s.supply.takesEvents = true)
    (hport : s.arb.port = some (.burst .staging .mergeStep)) :
    exec .dramBurstDone s =
      .next ({ s with part := s.part.mergeStep.released .staging [], arb := { s.arb with port := none } } : State).settle := by
  rw [exec_dramBurstDone hev hport]
  rfl

section
variable {s : State} {w : Walk} (hev : s.supply.takesEvents = true)
  (hport : s.arb.port = some (.burst .staging .mergeStep)) (hwalk : s.part.price.walk = some w) (hgoes : w.ended = false)
include hev hport hwalk hgoes

theorem State.merge_writes {e : BankEntry} {n cur : Nat} (hi : w.index < 32768)
    (hentry : s.part.goodEntry s.part.inactive w.index = some e) (hvalid : e.valid = true)
    (hmark : s.part.marked w.index = true) (hcode : w.before < e.code) (hn : s.part.price.staging.n = some n)
    (hlast : w.index < n) (hcur : cur = s.part.cursorTo e.code s.part.price.activeCount w.cursor) :
    ∃ t e', exec .dramBurstDone s = .next t ∧ e' = e.merged (s.part.oldEntry e.code cur) s.part.pres.clock ∧
      t.part.entryBytes s.part.inactive w.index = e'.bytes ∧
      t.part.price =
        { s.part.price with
          walk := some ⟨w.index + 1, cur, e.code, w.holds + bit e'.hold, decide (n ≤ w.index + 1)⟩ } ∧
      (∀ a, a < entryAddr s.part.inactive w.index ∨ entryAddr s.part.inactive w.index + 32 ≤ a →
        Mem.read t.part.dram a =
          if n ≤ w.index + 1 ∧ entryAddr s.part.inactive n ≤ a ∧ a < entryAddr s.part.inactive 32768 then 0
          else Mem.read s.part.dram a) ∧
      (w.index + 1 < n → t.awaits .staging .mergeStep) ∧ Unchanged [.price, .memory] s t := by
  subst hcur
  have hstep := Part.mergeStep_good hwalk hgoes hentry hvalid hmark hcode
  generalize s.part.cursorTo e.code s.part.price.activeCount w.cursor = cur at hstep ⊢
  generalize e.merged (s.part.oldEntry e.code cur) s.part.pres.clock = e' at hstep ⊢
  obtain ⟨hbytes, hothers⟩ := s.part.mergePut_written cur e.code e' hi
  have hread : ∀ a, Mem.read s.part.mergeStep.dram a =
      if n ≤ w.index + 1 ∧ entryAddr s.part.inactive n ≤ a ∧ a < entryAddr s.part.inactive 32768 then 0
      else Mem.read (s.part.mergePut w cur e.code e').dram a := fun a => by
    rw [hstep, Part.walkOn_read, Part.mergePut_inactive, Part.mergePut_price]
    simp only [hn, Option.getD_some, decide_eq_true_eq]
  refine ⟨_, e', State.merge_step hev hport, rfl, ?_, ?_, fun a ha => ?_, fun hmore => ?_,
    State.unchanged_of_burst _ _ _ _ fun b hb => ?_⟩
  · rw [← hbytes]
    refine Mem.readBytes_congr _ _ _ _ fun a _ ha => ?_
    rw [State.settle_dram, Part.released_dram, hread a]
    have hbehind := entryAddr_mono s.part.inactive hlast
    simp only [Config.entryBytes] at ha
    exact if_neg (by omega)
  · rw [State.settle_price, Part.released_price, hstep]
    simp [Part.mergePut_price, hn]
  · rw [State.settle_dram, Part.released_dram, hread a, hothers a ha]
  · refine State.settle_awaits _ _ _ (Part.released_keeps _ _ ?_)
    have hnot : decide (s.part.price.staging.n.getD 0 ≤ w.index + 1) = false := by simpa [hn] using hmore
    rw [hstep, hnot]
    exact Part.walkOn_has _
  · rw [hstep]
    cases b <;> simp [Piece.same, Part.mergePut] at hb ⊢

theorem State.merge_discards (hbad : ∀ e, s.part.goodEntry s.part.inactive w.index = some e →
      e.valid = false ∨ s.part.marked w.index = false ∨ e.code ≤ w.before) (hdefer : s.part.call.deferred = []) :
    ∃ t, exec .dramBurstDone s = .next t ∧
      t.part.price.staging = { fetches := s.part.price.staging.fetches } ∧ t.part.price.walk = none ∧
      t.part.price.trigger = .disarmed ∧
      t.part.price.ctr = { s.part.price.ctr with order := bump s.part.price.ctr.order } ∧
      t.part.hdr.copy = t.part.price.staging.toHeader s.part.hdr.copy ∧ t.part.mapCleared s.part.dram ∧
      Unchanged [.price, .hdr, .memory] s t := by
  obtain ⟨hbranch, hfwd, hcall, hdram⟩ := Part.discard_frame_of_none (p := s.part) .order hdefer
  refine ⟨_, State.merge_step hev hport, ?_⟩
  rw [Part.mergeStep_bad hwalk hgoes hbad]
  refine ⟨by simp [Part.discard_price], by simp [Part.discard_price], by simp [Part.discard_price],
    by simp [Part.discard_price, Discard.count], ?_, Part.mapCleared_of_dram (by simp [hdram]),
    State.unchanged_of_burst _ _ _ _ fun b hb => ?_⟩
  · simpa using s.part.discard_copy .order
  · cases b <;> simp [Piece.same, hbranch, hfwd, hcall] at hb ⊢
end

/-! ### the end of the walk (R90) -/

theorem State.walk_ends {s : State} {w : Walk} {n : Nat} (hev : s.supply.takesEvents = true)
    (hwalk : s.part.price.walk = some w) (hended : w.ended = true) (hidle : s.part.asks.idle .staging = true)
    (hn : s.part.price.staging.n = some n) (hfly : s.part.hdr.inFlight = none) :
    ∃ t, exec .mergeWalkEnd s = .next t ∧
      t.part.price = { s.part.price with walk := none, switching := some w.holds } ∧
      t.part.hdr.copy =
        { s.part.hdr.copy with
          active := s.part.inactive, activeGen := s.part.price.staging.generation, activeCount := n, stagingGen := 0
          stagingState := .empty, n := none, effDay := 0, effMinute := 0, fileCheck := none } ∧
      t.part.hdr.inFlight = some (t.part.hdr.copy, [.pricing]) ∧ Unchanged [.price, .hdr] s t := by
  refine ⟨_, exec_of_run exec_mergeWalkEnd hev, ?_⟩
  unfold Part.walkDone
  rw [hwalk]
  dsimp only
  rw [if_pos ⟨hended, hidle⟩]
  refine ⟨by simp, by simp [Part.askHeader_copy, Staging.toHeader, hn], ?_, State.unchanged_of_part _ _ _ fun b hb => ?_⟩
  · simpa using Part.askHeader_inFlight .pricing _ (p := s.part.modPrice fun x =>
      { x with walk := none, switching := some w.holds }) (by simpa using hfly)
  · cases b <;> simp [Piece.same] at hb ⊢

/-! ### the switch (R90) -/

theorem Part.copyOf_congr {p q : Part} (h : q.dram = p.dram) (bank : BankName) (n : Nat) : q.copyOf bank n = p.copyOf bank n := by
  simp [Part.copyOf, Part.entryBytes_congr h]

/-- The pricing unit after a switch to a staging of `n` entries. -/
theorem Part.switchBank_pricing {p : Part} {n : Nat} (holds : Nat) (hn : p.price.staging.n = some n) :
    (p.switchBank holds).price =
      { p.price with
        active := p.inactive, activeGen := p.price.staging.generation, activeCount := n, copy := p.copyOf p.inactive n
        staging := { fetches := p.price.staging.fetches }, trigger := .disarmed, switching := none
        pauseTimer := false, fetchTimer := false, sweep := none, sweepDue := false
        ctr := { p.price.ctr with switches := bump p.price.ctr.switches } } := by
  simp [Part.switchBank, hn]

theorem Part.switchBank_jrn {p : Part} {n : Nat} (holds : Nat) (hn : p.price.staging.n = some n)
    (hscan : p.jrn.scan = none)
    (hfit : p.jrn.accepts [.priceActivated p.price.staging.generation p.price.activeGen n holds] = true) :
    (p.switchBank holds).jrn =
      p.jrn.appended p.pres.clock .pricing 255
        [.priceActivated p.price.staging.generation p.price.activeGen n holds] := by
  simp only [Part.switchBank, hn, Option.getD_some]
  rw [Part.append_accepted (by simpa using hscan) (by simpa using hfit)]
  simp [stationTill]

/-- With no label in use the walk clears no walk mark. -/
theorem Part.startWalk_dram_of_no_labels {p : Part} (h : ∀ i, i < 4096 → p.labelAt i = none) (he : p.price.events = []) :
    p.startWalk.dram = p.dram := by
  have hnone : p.labelsInUse = [] := by
    unfold Part.labelsInUse
    simp only [List.filter_eq_nil_iff, List.mem_range]
    intro i hi
    simp [h i hi]
  simp [Part.startWalk, hnone, Part.sendEvent, he, Part.takeWalkEnds]

/-- The end of a header write moves nothing but the header unit. -/
theorem Part.headerLanded_keeps (p : Part) :
    p.headerLanded.cfg = p.cfg ∧ p.headerLanded.branch = p.branch ∧ p.headerLanded.trunkFramer = p.trunkFramer ∧
      p.headerLanded.labelFramer = p.labelFramer ∧ p.headerLanded.guestFramer = p.guestFramer ∧
      p.headerLanded.links = p.links ∧ p.headerLanded.fwd = p.fwd ∧ p.headerLanded.call = p.call ∧
      p.headerLanded.pres = p.pres ∧ p.headerLanded.price = p.price ∧ p.headerLanded.till = p.till ∧
      p.headerLanded.jrn = p.jrn ∧ p.headerLanded.lab = p.lab ∧ p.headerLanded.gst = p.gst ∧ p.headerLanded.trk = p.trk ∧
      p.headerLanded.hdr = { p.hdr with inFlight := none, finished := false, waiting := [] } ∧
      p.headerLanded.memCtr = p.memCtr ∧ p.headerLanded.dram = p.dram ∧ p.headerLanded.written = p.written ∧
      p.headerLanded.inactive = p.inactive := by
  simp [Part.headerLanded, Part.inactive]

theorem State.switch_takes_effect {s : State} {h : HeaderCopy} {holds n : Nat} (hev : s.supply.takesEvents = true)
    (hfly : s.part.hdr.inFlight = some (h, [.pricing])) (hfin : s.part.hdr.finished = true)
    (hwait : s.part.hdr.waiting = []) (hsw : s.part.price.switching = some holds) (hn : s.part.price.staging.n = some n)
    (hevents : s.part.price.events = []) (hsync : s.part.price.syncWaits = none) (hjoin : s.part.pres.joining = .ready)
    (hscan : s.part.jrn.scan = none)
    (hfit : s.part.jrn.accepts [.priceActivated s.part.price.staging.generation s.part.price.activeGen n holds] = true)
    (hwarm : s.part.lab.warm = .none) (hlabels : ∀ i, i < 4096 → s.part.labelAt i = none) :
    ∃ t, exec .headerWriteDone s = .next t ∧
      t.part.price =
        { s.part.price with
          active := s.part.inactive, activeGen := s.part.price.staging.generation, activeCount := n
          copy := s.part.copyOf s.part.inactive n
          staging := { fetches := s.part.price.staging.fetches }, trigger := .disarmed, switching := none
          pauseTimer := false, fetchTimer := false, sweep := none, sweepDue := false, events := [.countPass]
          ctr := { s.part.price.ctr with switches := bump s.part.price.ctr.switches } } ∧
      t.part.hdr = { s.part.hdr with inFlight := none, finished := false } ∧
      t.part.pres = { s.part.pres with switched := true } ∧ t.part.lab = { s.part.lab with walk := .counting } ∧
      s.appends .pricing 255 [.priceActivated s.part.price.staging.generation s.part.price.activeGen n holds] t ∧
      (∀ a, Mem.read t.part.dram a = if 0x3F2000 ≤ a ∧ a < 0x3F3000 then 0 else Mem.read s.part.dram a) ∧
      Unchanged [.price, .hdr, .pres, .lab, .jrn, .memory] s t := by
  have hnone : ∀ i, i < 4096 → (s.part.headerLanded.switchBank holds).labelAt i = none := fun i hi =>
    (Part.labelAt_of_map_wiped (p := s.part) (s.part.headerLanded.switchBank_dram holds) hi).trans (hlabels i hi)
  have hpricing := Part.switchBank_pricing (p := s.part.headerLanded) holds hn
  obtain ⟨hprice, hlab⟩ := Part.startWalk_of_no_labels hnone (by rw [hpricing]; exact hevents)
  have hpres := s.part.headerLanded.walkBegun_pres holds
  have hstay : (s.part.headerLanded.walkBegun holds).syncCheck = s.part.headerLanded.walkBegun holds :=
    Part.syncCheck_of_not_sync (by simp [hpres, Part.headerLanded_keeps, hjoin])
  have hwaits : (s.part.headerLanded.walkBegun holds).price.syncWaits = none := by
    simp [Part.walkBegun, hprice, hpricing, Part.headerLanded_keeps, hsync]
  have hbank := Part.bankSwitched_eq (p := s.part.headerLanded) (holds := holds) hwarm (by rw [hstay, hwaits])
  refine ⟨_, exec_of_run exec_headerWriteDone hev, ?_⟩
  rw [Part.headerWritten_switch hfly hfin hwait hsw, hbank, hstay]
  refine ⟨?_, ?_, ?_, ?_, ?_, fun a => ?_, State.unchanged_of_part _ _ _ fun b hb => ?_⟩
  · rw [State.settle_price]
    have hcopy := Part.copyOf_congr (p := s.part) (q := s.part.headerLanded) rfl
    simp [Part.walkBegun, hprice, hpricing, Part.headerLanded_keeps, hcopy]
  · simp [Part.walkBegun, Part.headerLanded_keeps, hwait]
  · simpa [Part.headerLanded_keeps] using hpres
  · simp [Part.walkBegun, hlab, Part.headerLanded_keeps]
  · have hjrn := Part.switchBank_jrn (p := s.part.headerLanded) holds hn hscan hfit
    simpa [State.appends, Part.walkBegun, Journal.appended, Part.headerLanded_keeps] using hjrn
  · have hbegun : (s.part.headerLanded.walkBegun holds).dram = (s.part.headerLanded.switchBank holds).dram := by
      have hwalk := Part.startWalk_dram_of_no_labels hnone (by rw [hpricing]; exact hevents)
      rw [Part.walkBegun, Part.modPres_dram, hwalk]
    have hlanded : s.part.headerLanded.dram = s.part.dram := rfl
    rw [State.settle_dram, hbegun, Part.switchBank_dram, hlanded, Mem.read_wipe]
    have hmap : Config.mapBase ≤ a ∧ a < Config.mapBase + Config.mapSize ↔ 0x3F2000 ≤ a ∧ a < 0x3F3000 := by
      have hbase : Config.mapBase = 0x3F2000 := rfl
      have hsize : Config.mapSize = 0x1000 := rfl
      omega
    exact if_congr hmap rfl rfl
  · cases b <;> simp [Piece.same] at hb ⊢ <;> simp [Part.walkBegun, Part.headerLanded_keeps]

end Sys2Proof.Machine

open Sys2Proof.Machine

/-- Settles O39: the activation, the steps of the merge walk, its end, and the switch. -/
theorem activationWalksAndSwitches : Obligations.ActivationWalksAndSwitches := by
  refine fun s hev => ⟨State.activation_begins hev, fun w hport hwalk hgoes hi => ⟨?_, fun hbad hdefer => ?_⟩,
    fun w n hwalk hended hidle hn hfly => State.walk_ends hev hwalk hended hidle hn hfly, ?_⟩
  · intro e n cur hentry hvalid hmark hcode hn hlast hcur
    obtain ⟨t, e', hexec, he', hrest⟩ :=
      State.merge_writes hev hport hwalk hgoes hi hentry hvalid hmark hcode hn hlast hcur
    refine ⟨t, e', hexec, fun o hin ho hitem habove => ?_, fun hnot => ?_, hrest⟩
    · rw [he', Part.oldEntry_eq_some.mpr ⟨hin, ho, hitem⟩, BankEntry.merged_above _ habove]
    · rw [he']
      refine BankEntry.merged_unheld _ fun o hold => ?_
      obtain ⟨hin, ho, hitem⟩ := Part.oldEntry_eq_some.mp hold
      exact hnot o hin ho hitem
  · obtain ⟨t, hexec, hstaging, hstopped, htrigger, hctr, hcopy, ⟨hmap, hmem⟩, hkept⟩ :=
      State.merge_discards hev hport hwalk hgoes hbad hdefer
    exact ⟨t, hexec, hstaging, hstopped, htrigger, hctr, hcopy, hmap, hmem, hkept⟩
  · intro h holds g n hfly hfin hwait hsw hg hn hevents hsync hjoin hscan hfit hwarm hlabels
    subst hg
    exact State.switch_takes_effect hev hfly hfin hwait hsw hn hevents hsync hjoin hscan hfit hwarm hlabels
end

section
/-! PROOFS. The DATA of a fetch, and the end of its call (R33, R86). -/

open Sys2Proof
namespace Sys2Proof.Machine

theorem exec_fetchDataTaken (s : State) : exec .fetchDataTaken s = s.run Part.fetchData := rfl

/-! ### a DATA taken (R86) -/

/-- What a DATA with this payload does to the staging, its buffer apart. -/
def Part.dataTaken (b : Bytes) (tag : Byte) (p : Part) : Part :=
  match p.price.staging.fetches.find? fun f => decide (f.tag = tag) with
  | none => p
  | some f =>
    if f.generation = p.price.staging.generation ∧ p.price.staging.state ≠ .empty then
      match p.price.staging.n with
      | some k =>
        if k = fieldAt b 4 2 then
          Part.stageRecords f.generation (fieldAt b 2 2) (cutRecords priceRecordBytes (fieldAt b 1 1) (b.drop 6)) p
        else p.modStaging fun s => { s with skips := if f.source ∈ s.skips then s.skips else f.source :: s.skips }
      | none =>
        (Part.stageRecords f.generation (fieldAt b 2 2) (cutRecords priceRecordBytes (fieldAt b 1 1) (b.drop 6))
          (p.modStaging fun s => { s with n := some (fieldAt b 4 2) })).nowKnown f.generation
    else p

/-- The buffer of a DATA returns once it has been taken (R86). -/
theorem Part.fetchData_eq {p : Part} {buf : Buf} {peer : StationNo} {tag : Byte} {r : Request} {rest : List Handed}
    (htakes : p.recordsTake = true) (hin : p.price.inbox = .data buf peer tag r :: rest) :
    p.fetchData =
      (((p.inboxTo rest).dataTaken (parseBody (p.bufBytes buf)).payload tag).giveBack buf).fetchesEnded := by
  unfold Part.fetchData Part.dataTaken
  rw [if_pos htakes, hin]
  dsimp only
  rw [show (p.modPrice fun x => { x with inbox := rest }) = p.inboxTo rest from rfl]
  generalize p.inboxTo rest = q
  cases q.price.staging.fetches.find? fun f => decide (f.tag = tag) with
  | none => rfl
  | some f =>
    dsimp only
    by_cases hgen : f.generation = q.price.staging.generation ∧ q.price.staging.state ≠ .empty
    · rw [if_pos hgen, if_pos hgen]
      cases q.price.staging.n with
      | none => rfl
      | some k =>
        dsimp only
        split <;> rfl
    · rw [if_neg hgen, if_neg hgen]

theorem Part.dataTaken_of_no_fetch {p : Part} {tag : Byte} (b : Bytes)
    (h : ∀ f ∈ p.price.staging.fetches, f.tag ≠ tag) : p.dataTaken b tag = p := by
  have hfind : p.price.staging.fetches.find? (fun f => decide (f.tag = tag)) = none := by
    simp only [List.find?_eq_none, decide_eq_true_eq]
    exact h
  unfold Part.dataTaken
  rw [hfind]

/-- The DATA of the one open fetch, for a staging that is there. -/
structure Part.DataOf (p : Part) (f : Fetch) (tag : Byte) : Prop where
  fetches : p.price.staging.fetches = [f]
  tag : f.tag = tag
  generation : f.generation = p.price.staging.generation
  state : p.price.staging.state ≠ .empty

theorem Part.DataOf.find {p : Part} {f : Fetch} {tag : Byte} (h : p.DataOf f tag) :
    p.price.staging.fetches.find? (fun x => decide (x.tag = tag)) = some f := by
  simp [h.fetches, h.tag]

theorem Part.dataTaken_of_other_n {p : Part} {f : Fetch} {tag : Byte} {b : Bytes} {k : Nat} (h : p.DataOf f tag)
    (hn : p.price.staging.n = some k) (hother : fieldAt b 4 2 ≠ k) (hfresh : f.source ∉ p.price.staging.skips) :
    p.dataTaken b tag = p.modStaging fun s => { s with skips := f.source :: p.price.staging.skips } := by
  unfold Part.dataTaken
  rw [h.find]
  dsimp only
  rw [if_pos ⟨h.generation, h.state⟩, hn]
  dsimp only
  rw [if_neg hother.symm]
  simp [Part.modStaging, Part.modPrice, hfresh]

/-- The N that a DATA brings. -/
def Part.knownN (k : Nat) (p : Part) : Part := p.modStaging fun s => { s with n := some k }

theorem Part.knownN_price (k : Nat) (p : Part) :
    (p.knownN k).price = { p.price with staging := { p.price.staging with n := some k } } := rfl

@[simp] theorem Part.knownN_frame (k : Nat) (p : Part) :
    (p.knownN k).cfg = p.cfg ∧ (p.knownN k).branch = p.branch ∧ (p.knownN k).trunkFramer = p.trunkFramer ∧
      (p.knownN k).labelFramer = p.labelFramer ∧ (p.knownN k).guestFramer = p.guestFramer ∧
      (p.knownN k).links = p.links ∧ (p.knownN k).fwd = p.fwd ∧ (p.knownN k).call = p.call ∧
      (p.knownN k).pres = p.pres ∧ (p.knownN k).till = p.till ∧ (p.knownN k).jrn = p.jrn ∧ (p.knownN k).lab = p.lab ∧
      (p.knownN k).gst = p.gst ∧ (p.knownN k).trk = p.trk ∧ (p.knownN k).hdr = p.hdr ∧
      (p.knownN k).memCtr = p.memCtr ∧ (p.knownN k).dram = p.dram ∧ (p.knownN k).written = p.written := by
  simp [Part.knownN]

theorem Part.knownN_of_known {p : Part} {k : Nat} (hn : p.price.staging.n = some k) : p.knownN k = p := by
  simp [Part.knownN, Part.modStaging, Part.modPrice, ← hn]

/-- A DATA of one record for the staging's N, or for one not known before: the record is taken, and a staging whose N is new is then
looked at (R86, R87). -/
theorem Part.dataTaken_of_one {p : Part} {f : Fetch} {tag : Byte} {b : Bytes} {k : Nat} (h : p.DataOf f tag)
    (hk : fieldAt b 4 2 = k) (hn : p.price.staging.n = some k ∨ p.price.staging.n = none) (hone : fieldAt b 1 1 = 1) :
    p.dataTaken b tag =
      let r := (p.knownN k).stageRecord f.generation (fieldAt b 2 2) (sub b 6 24)
      if p.price.staging.n = none then r.nowKnown f.generation else r := by
  subst hk
  unfold Part.dataTaken
  rw [h.find]
  dsimp only
  rw [if_pos ⟨h.generation, h.state⟩, hone]
  rcases hn with hn | hn
  · rw [Part.knownN_of_known hn, hn]
    dsimp only
    rw [if_pos rfl, if_neg (by simp)]
    rfl
  · rw [hn]
    dsimp only
    rw [if_pos rfl]
    rfl

/-- With an index below N still missing, a new N decides nothing. -/
theorem Part.nowKnown_of_missing {p : Part} {n j : Nat} (gen : Nat) (hn : p.price.staging.n = some n) (hj : j < n)
    (hmissing : p.marked j = false) : ∃ m, p.nowKnown gen = p.loads .staging m := by
  unfold Part.nowKnown
  dsimp only
  split
  · exact ⟨_, Part.decideFull_of_missing hn hj hmissing⟩
  · exact ⟨0, rfl⟩

/-- So the DATA leaves what its record has left, but for bursts that read. -/
theorem Part.dataTaken_of_missing {p : Part} {f : Fetch} {tag : Byte} {b : Bytes} {k : Nat} {r : Part} (h : p.DataOf f tag)
    (hk : fieldAt b 4 2 = k) (hn : p.price.staging.n = some k ∨ p.price.staging.n = none) (hone : fieldAt b 1 1 = 1)
    (hr : (p.knownN k).stageRecord f.generation (fieldAt b 2 2) (sub b 6 24) = r) (hrn : r.price.staging.n = some k)
    (hmissing : p.price.staging.n = none → ∃ j, j < k ∧ r.marked j = false) :
    ∃ m, p.dataTaken b tag = r.loads .staging m := by
  rw [Part.dataTaken_of_one h hk hn hone, hr]
  dsimp only
  by_cases hnone : p.price.staging.n = none
  · obtain ⟨j, hj, hmark⟩ := hmissing hnone
    rw [if_pos hnone]
    exact Part.nowKnown_of_missing _ hrn hj hmark
  · rw [if_neg hnone]
    exact ⟨0, rfl⟩

section
variable {s : State} {buf : Buf} {peer : StationNo} {tag : Byte} {r : Request} (hev : s.supply.takesEvents = true)
  (htakes : s.part.recordsTake = true) (hin : s.part.price.inbox = [.data buf peer tag r])
include hev htakes hin

/-- FETCH_DATA_TAKEN of the only thing in the inbox. -/
theorem State.data_taken {q : Part}
    (hq : (s.part.inboxTo []).dataTaken (parseBody (s.part.bufBytes buf)).payload tag = q) (hinbox : q.price.inbox = []) :
    exec .fetchDataTaken s = .next ({ s with part := q.giveBack buf } : State).settle := by
  rw [exec_of_run exec_fetchDataTaken hev, Part.fetchData_eq htakes hin, hq,
    Part.fetchesEnded_of_no_completion (by simp [hinbox])]

theorem State.data_of_no_fetch (h : ∀ f ∈ s.part.price.staging.fetches, f.tag ≠ tag) :
    ∃ t, exec .fetchDataTaken s = .next t ∧ t.part.price = { s.part.price with inbox := [] } ∧
      t.part.fwd = s.part.fwd.giveBack buf ∧ Unchanged [.price, .fwd] s t := by
  refine ⟨_, State.data_taken hev htakes hin (Part.dataTaken_of_no_fetch (p := s.part.inboxTo []) _ h) rfl, by simp,
    by simp, State.unchanged_of_part _ _ _ fun x hx => ?_⟩
  cases x <;> simp [Piece.same] at hx ⊢

variable {f : Fetch} {k : Nat} {b : Bytes} (hdata : s.part.DataOf f tag) (hb : b = (parseBody (s.part.bufBytes buf)).payload)
include hdata hb

theorem State.data_of_other_n (hn : s.part.price.staging.n = some k) (hother : fieldAt b 4 2 ≠ k)
    (hfresh : f.source ∉ s.part.price.staging.skips) :
    ∃ t, exec .fetchDataTaken s = .next t ∧
      t.part.price =
        { s.part.price with
          inbox := []
          staging := { s.part.price.staging with skips := f.source :: s.part.price.staging.skips } } ∧
      t.part.fwd = s.part.fwd.giveBack buf ∧ Unchanged [.price, .fwd] s t := by
  subst hb
  have hdata' : (s.part.inboxTo []).DataOf f tag := ⟨hdata.fetches, hdata.tag, hdata.generation, hdata.state⟩
  refine ⟨_, State.data_taken hev htakes hin (Part.dataTaken_of_other_n hdata' hn hother hfresh) rfl, by simp [Part.modStaging],
    by simp, State.unchanged_of_part _ _ _ fun x hx => ?_⟩
  cases x <;> simp [Piece.same] at hx ⊢

variable {i : Nat} (hstate : s.part.price.staging.state = .receiving ∨ s.part.price.staging.state = .gaps)
  (hk : fieldAt b 4 2 = k) (hn : s.part.price.staging.n = some k ∨ s.part.price.staging.n = none) (hmost : k ≤ 32768)
  (hone : fieldAt b 1 1 = 1) (hindex : fieldAt b 2 2 = i) (hi : i < k)
include hstate hk hn hmost hone hindex hi

theorem State.data_bad_record (hcrc : crcGood (sub b 6 24) = false)
    (hmissing : s.part.price.staging.n = none → ∃ j, j < k ∧ s.part.marked j = false) :
    ∃ t, exec .fetchDataTaken s = .next t ∧
      t.part.price =
        { s.part.price with
          inbox := [], staging := { s.part.price.staging with n := some k }
          ctr := { s.part.price.ctr with recordsBad := bump s.part.price.ctr.recordsBad } } ∧
      t.part.fwd = s.part.fwd.giveBack buf ∧ Unchanged [.price, .fwd] s t := by
  subst hb hindex
  have hdata' : (s.part.inboxTo []).DataOf f tag := ⟨hdata.fetches, hdata.tag, hdata.generation, hdata.state⟩
  have hrecord : ((s.part.inboxTo []).knownN k).takesRecord f.generation _ k :=
    ⟨hstate, hdata.generation.symm, rfl, hi, hmost⟩
  have hstage := (Part.stageRecord_taken _ hrecord).trans (Part.stageAt_bad _ hcrc)
  obtain ⟨m, htaken⟩ := Part.dataTaken_of_missing hdata' hk hn hone hstage rfl fun hnone => by
    obtain ⟨j, hj, hmark⟩ := hmissing hnone
    exact ⟨j, hj, (Part.marked_congr (by simp)).trans hmark⟩
  refine ⟨_, State.data_taken hev htakes hin htaken (by simp [Part.knownN_price]), by simp [Part.knownN_price], by simp,
    State.unchanged_of_part _ _ _ fun x hx => ?_⟩
  cases x <;> simp [Piece.same] at hx ⊢

theorem State.data_good_record {j : Nat} {e : BankEntry} (hcrc : crcGood (sub b 6 24) = true)
    (hmark : s.part.marked i = false) (hj : j < k) (hother : j ≠ i) (hmissing : s.part.marked j = false)
    (he : e = (parsePriceRecord (sub b 6 24)).toEntry (crcField (sub b 6 24) 22)) :
    ∃ t, exec .fetchDataTaken s = .next t ∧
      t.part.price =
        { s.part.price with
          inbox := []
          staging :=
            { s.part.price.staging with
              n := some k, received := s.part.price.staging.received + 1
              check := (s.part.price.staging.check + e.recCrc) % 4294967296 }
          ctr :=
            if e.valid = true ∧ (parsePriceRecord (sub b 6 24)).clamp ≠ parsePriceRecord (sub b 6 24) then
              { s.part.price.ctr with recordsClamped := bump s.part.price.ctr.recordsClamped }
            else s.part.price.ctr } ∧
      s.part.recordStaged i e t.part ∧ t.part.fwd = s.part.fwd.giveBack buf ∧ Unchanged [.price, .fwd, .memory] s t := by
  subst hb hindex he
  have hdata' : (s.part.inboxTo []).DataOf f tag := ⟨hdata.fetches, hdata.tag, hdata.generation, hdata.state⟩
  have hrecord : ((s.part.inboxTo []).knownN k).takesRecord f.generation _ k :=
    ⟨hstate, hdata.generation.symm, rfl, hi, hmost⟩
  have hdram : ((s.part.inboxTo []).knownN k).dram = s.part.dram := by simp
  have hmap : ∀ x, ((s.part.inboxTo []).knownN k).marked x = s.part.marked x := fun x => Part.marked_congr (by rw [hdram])
  have hrec := Part.stageRecord_good hrecord hcrc ((hmap _).trans hmark) hj hother ((hmap _).trans hmissing)
  obtain ⟨m, htaken⟩ := Part.dataTaken_of_missing hdata' hk hn hone rfl (by rw [hrec.price, Part.recordPut_price]; rfl)
    fun _ => by
      obtain ⟨-, -, hothers, -⟩ := hrec.staged
      exact ⟨j, hj, (hothers j (by omega) hother).trans ((hmap _).trans hmissing)⟩
  have hstaged : s.part.recordStaged _ _ _ := Part.recordStaged_congr (p := s.part) hrec.staged rfl
  refine ⟨_, State.data_taken hev htakes hin htaken (by rw [Part.loads_price, hrec.price, Part.recordPut_price]; rfl), ?_,
    Part.recordStaged_congr hstaged (by simp), ?_, State.unchanged_of_part _ _ _ fun x hx => ?_⟩
  · rw [State.settle_price, Part.giveBack_price, Part.loads_price, hrec.price, Part.recordPut_price]
    rfl
  · rw [State.settle_fwd, Part.giveBack_fwd, Part.loads_fwd, hrec.fwd]
    simp
  · cases x <;> simp [Piece.same] at hx ⊢ <;> simp [hrec.branch, hrec.call, hrec.hdr]

/-- A DATA whose N leaves no index missing completes the staging (R87). -/
theorem State.data_completes (hcrc : crcGood (sub b 6 24) = true) (hnone : s.part.price.staging.n = none)
    (hfull : ∀ j, j < k → s.part.marked j = true) (hcheck : s.part.price.staging.fileCheck = none)
    (hdefer : s.part.call.deferred = []) (hfly : s.part.hdr.inFlight = none) :
    ∃ t, exec .fetchDataTaken s = .next t ∧
      t.part.price =
        { s.part.price with
          inbox := [], staging := { s.part.price.staging with n := some k, state := .complete }, pauseTimer := false
          fetchTimer := false, trigger := if s.part.triggerHolds = true then .fired else .armed } ∧
      t.part.hdr.copy = t.part.price.staging.toHeader s.part.hdr.copy ∧
      t.part.hdr.inFlight = some (t.part.hdr.copy, [.pricing]) ∧
      t.part.fwd = s.part.fwd.giveBack buf ∧ Unchanged [.price, .hdr, .fwd] s t := by
  subst hb hindex
  have hdata' : (s.part.inboxTo []).DataOf f tag := ⟨hdata.fetches, hdata.tag, hdata.generation, hdata.state⟩
  have hrecord : ((s.part.inboxTo []).knownN k).takesRecord f.generation _ k :=
    ⟨hstate, hdata.generation.symm, rfl, hi, hmost⟩
  have hmap : ∀ x, ((s.part.inboxTo []).knownN k).marked x = s.part.marked x := fun x => Part.marked_congr (by simp)
  have hstage := (Part.stageRecord_taken _ hrecord).trans (Part.stageAt_marked hcrc ((hmap _).trans (hfull _ hi)))
  have htaken := Part.dataTaken_of_one hdata' hk hn hone
  rw [hstage] at htaken
  generalize hl : ((s.part.inboxTo []).knownN k).loads .staging 1 = l at htaken
  have hprice : l.price = { s.part.price with inbox := [], staging := { s.part.price.staging with n := some k } } := by
    rw [← hl, Part.loads_price]
    rfl
  have hmarks : ∀ j, j < k → l.marked j = true := fun j hj => by
    rw [← hfull j hj, ← hl]
    exact Part.marked_congr (by simp)
  have hopen : (l.price.staging.state = .receiving ∨ l.price.staging.state = .gaps) ∧
      l.price.staging.generation = f.generation := by
    rw [hprice]
    exact ⟨hstate, hdata.generation.symm⟩
  have hknown : l.nowKnown f.generation = l.decideFull := if_pos hopen
  dsimp only at htaken
  rw [if_pos (show (s.part.inboxTo []).price.staging.n = none from hnone), hknown,
    Part.decideFull_of_full (by rw [hprice]) hmarks] at htaken
  generalize hq : l.loads .staging (l.fullBursts k) = q at htaken
  have hqprice : q.price = { s.part.price with inbox := [], staging := { s.part.price.staging with n := some k } } := by
    rw [← hq, Part.loads_price, hprice]
  have hsame : ∀ x, x ≠ Piece.price → x.same s { s with part := q } := by
    intro x hx
    subst hq hl
    cases x <;> simp [Piece.same] at hx ⊢
  have hcall : q.call = s.part.call := hsame .call (by decide)
  have hhdr : q.hdr = s.part.hdr := hsame .hdr (by decide)
  have hfwd : q.fwd = s.part.fwd := hsame .fwd (by decide)
  have htrigger : q.newTrigger = if s.part.triggerHolds = true then .fired else .armed := by
    have hholds := Part.triggerHolds_congr (p := s.part) (q := q) (by rw [hqprice]) (by rw [hqprice])
      (hsame .pres (by decide))
    rw [Part.newTrigger, hholds]
  have hdecide : q.decideStaging = q.complete := by simp [Part.decideStaging, hqprice, hcheck]
  rw [hdecide, Part.complete_eq (by rw [hcall, hdefer]), htrigger] at htaken
  refine ⟨_, State.data_taken hev htakes hin htaken (by simp [Part.stagingTo_price, hqprice]), ?_, ?_, ?_, ?_,
    State.unchanged_of_part _ _ _ fun x hx => ?_⟩
  · simp [Part.stagingTo_price, hqprice]
  · simp [Part.stagingTo_copy, hhdr]
  · simpa using Part.stagingTo_inFlight (p := q) .complete (by rw [hhdr, hfly])
  · simp [hfwd]
  · have hkept := hsame x
    cases x <;> simp [Piece.same] at hx hkept ⊢ <;> exact hkept
end

/-! ### the end of a fetch's call (R33, R86) -/

/-- The staging when its one open fetch has ended with this outcome. -/
def Staging.fetchEnded (f : Fetch) (x : CallEnd) (received : Nat) (st : Staging) : Staging :=
  { st with
    fetches := []
    skips :=
      if f.generation = st.generation ∧ st.state ≠ .empty ∧ x.skips f.count received = true then f.source :: st.skips
      else st.skips }

/-- The one open fetch gone from the staging. -/
def Part.fetchLeft (p : Part) : Part := p.modStaging fun s => { s with fetches := [] }

/-- The one open fetch gone, its source skipped. -/
def Part.fetchSkipped (f : Fetch) (p : Part) : Part :=
  p.modStaging fun s => { s with fetches := [], skips := f.source :: s.skips }

theorem Part.fetchEnded_eq (f : Fetch) (x : CallEnd) (received : Nat) (p : Part) :
    p.modStaging (Staging.fetchEnded f x received) =
      if (f.generation = p.price.staging.generation ∧ p.price.staging.state ≠ .empty) ∧ x.skips f.count received = true then
        p.fetchSkipped f
      else p.fetchLeft := by
  simp only [Part.modStaging, Part.modPrice, Staging.fetchEnded, Part.fetchSkipped, Part.fetchLeft, and_assoc]
  split_ifs <;> rfl

/-- A completion record of the one open fetch. -/
theorem Part.takeFetchEnd_one {p : Part} {f : Fetch} {c : Completion} (hfetches : p.price.staging.fetches = [f])
    (htag : f.tag = c.tag) (hfresh : f.source ∉ p.price.staging.skips) :
    p.takeFetchEnd c = p.modStaging (Staging.fetchEnded f c.ending c.received) := by
  have hleft : (p.modStaging fun s => { s with fetches := s.fetches.filter fun x => decide (x.tag ≠ c.tag) }) =
      p.fetchLeft := by
    simp [Part.modStaging, Part.modPrice, Part.fetchLeft, hfetches, htag]
  have hskip : (p.fetchLeft.modStaging fun s =>
      { s with skips := if f.source ∈ s.skips then s.skips else f.source :: s.skips }) = p.fetchSkipped f := by
    simp [Part.modStaging, Part.modPrice, Part.fetchLeft, Part.fetchSkipped, hfresh]
  have hstaging : p.fetchLeft.price.staging = { p.price.staging with fetches := [] } := rfl
  unfold Part.takeFetchEnd
  rw [hfetches, Part.fetchEnded_eq]
  simp only [htag, List.find?_cons_of_pos, decide_true]
  rw [hleft, hskip, hstaging]
  by_cases hgen : f.generation = p.price.staging.generation ∧ p.price.staging.state ≠ .empty
  · rw [if_pos hgen]
    cases c.ending with
    | complete => simp [CallEnd.skips, hgen]
    | endedEarly => simp [CallEnd.skips, hgen]
    | refused r =>
      cases r with
      | none => simp [CallEnd.skips]
      | some reason => cases reason <;> simp [CallEnd.skips, hgen]
    | noAnswer => simp [CallEnd.skips]
    | busy => simp [CallEnd.skips]
    | broken => simp [CallEnd.skips]
    | recallTimeout => simp [CallEnd.skips]
  · rw [if_neg hgen, if_neg fun h => hgen h.1]

/-- The pricing unit has one open fetch, no peer to place another with, and nothing else to take. -/
structure Part.OneFetch (p : Part) (f : Fetch) : Prop where
  fetches : p.price.staging.fetches = [f]
  fresh : f.source ∉ p.price.staging.skips
  inbox : p.price.inbox = []
  relay : p.trk.inbox = []
  alone : ∀ m, p.shown m = none

/-- The completion record of a call that has ended (R33). -/
def OpenCall.completion (x : CallEnd) (tail : Option Nat) (e : OpenCall) : Completion :=
  { peer := e.peer, request := e.request, tag := e.tag, ending := x, stage := e.stage, received := e.received, tail := tail }

/-- The part once the call of its one open fetch has ended. -/
def Part.fetchCallOver (f : Fetch) (e : OpenCall) (x : CallEnd) (p : Part) : Part :=
  { p with
    call := { p.call with opens := p.call.opens.filter fun o => decide (o.tag ≠ e.tag), ctr := x.count p.call.ctr }
    price := { p.price with staging := p.price.staging.fetchEnded f x e.received } }

/-- The owner of a fetch takes the completion record of its call, and places no other. -/
theorem Part.endCall_of_fetch {p : Part} {f : Fetch} {e : OpenCall} (h : p.OneFetch f) (htag : f.tag = e.tag)
    (howner : e.owner = .pricing) (x : CallEnd) (tail : Option Nat) :
    (p.endCallWith e x tail).ownersTake = p.fetchCallOver f e x := by
  have hended : p.endCallWith e x tail = { p with
      call := { p.call with opens := p.call.opens.filter fun o => decide (o.tag ≠ e.tag), ctr := x.count p.call.ctr }
      price := { p.price with inbox := [.completion (e.completion x tail)] } } := by
    simp [Part.endCallWith, Part.hand, howner, Part.modCall, Part.countCall, Part.modPrice, h.inbox, OpenCall.completion]
  generalize hq : p.endCallWith e x tail = q at hended ⊢
  have hinbox : q.price.inbox = [.completion (e.completion x tail)] := by rw [hended]
  have htake : (q.inboxTo []).takeFetchEnd (e.completion x tail) = p.fetchCallOver f e x := by
    have hstaging : (q.inboxTo []).price.staging = p.price.staging := by rw [hended]; rfl
    rw [Part.takeFetchEnd_one (c := e.completion x tail) (by rw [hstaging]; exact h.fetches) htag
      (by rw [hstaging]; exact h.fresh), hended]
    simp [Part.fetchCallOver, Part.modStaging, Part.modPrice, Part.inboxTo, ← h.inbox, OpenCall.completion]
  have hdrain : q.drainFetchEnds q.price.inbox.length = (true, p.fetchCallOver f e x) := by
    rw [← htake]
    simp only [hinbox, List.length_singleton, Part.drainFetchEnds]
    rfl
  have hover : q.fetchesEnded = p.fetchCallOver f e x := by
    unfold Part.fetchesEnded
    rw [hdrain]
    exact Part.checkFetch_of_no_peer fun m => (Part.shown_congr (p := p) rfl m).trans (h.alone m)
  have hhead : headIsCompletion q.price.inbox = true := by rw [hinbox]; rfl
  have hrelay : headIsCompletion (p.fetchCallOver f e x).trk.inbox = false := by
    rw [show (p.fetchCallOver f e x).trk.inbox = [] from h.relay]
    rfl
  unfold Part.ownersTake
  rw [if_pos hhead, hover]
  exact if_neg (by simp [hrelay])

theorem Part.closeCaller_of_fetch {p : Part} {f : Fetch} {e : OpenCall} (h : p.OneFetch f) (htag : f.tag = e.tag)
    (howner : e.owner = .pricing) (hopens : p.call.opens = [e]) (x : CallEnd) (tail : Option Nat) :
    p.closeCaller e.tag x tail = (p.setConn none).fetchCallOver f e x := by
  have hopen : (p.setConn none).openCall e.tag = some e := Part.openCall_single hopens
  have hone : (p.setConn none).OneFetch f := ⟨h.fetches, h.fresh, h.inbox, h.relay, h.alone⟩
  unfold Part.closeCaller
  dsimp only
  rw [hopen]
  exact Part.endCall_of_fetch hone htag howner x tail

/-- The end of the call of the one open fetch, in a part that differs from the station's in the blocks named. -/
theorem State.fetch_over {s : State} {q : Part} {f : Fetch} {e : OpenCall} {x : CallEnd} {received : Nat}
    {but : List Piece} (hprice : q.price = s.part.price) (hopens : q.call.opens = [e]) (hreceived : e.received = received)
    (hcall : Piece.call ∈ but) (hpricing : Piece.price ∈ but) (hq : ∀ b, b ∉ but → b.same s { s with part := q }) :
    s.fetchOver f x received ({ s with part := q.fetchCallOver f e x } : State).settle ∧
      Unchanged but s ({ s with part := q.fetchCallOver f e x } : State).settle := by
  refine ⟨⟨?_, ?_⟩, State.unchanged_of_part _ _ _ fun b hb => ?_⟩
  · rw [State.settle_price]
    simp only [Part.fetchCallOver, hprice, hreceived]
    rfl
  · rw [State.settle_call]
    simp [Part.fetchCallOver, hopens]
  · have hsame := hq b hb
    cases b with
    | call => exact absurd hcall hb
    | price => exact absurd hpricing hb
    | _ => exact hsame

section
variable {s : State} {f : Fetch} {e : OpenCall} (hev : s.supply.takesEvents = true) (hone : s.part.OneFetch f)
  (htag : f.tag = e.tag) (hopens : s.part.call.opens = [e]) (howner : e.owner = .pricing)
include hone htag hopens howner

/-- The call closed after its stage has risen to `n`. -/
theorem State.fetch_closed {it : RxItem} (n : Nat) (x : CallEnd) (tail : Option Nat) :
    ∃ q, ((s.part.consume it).setStage e.tag n).closeCaller e.tag x tail = q ∧
      s.fetchOver f x e.received ({ s with part := q } : State).settle ∧
      Unchanged [.fwd, .call, .price] s ({ s with part := q } : State).settle := by
  have hstage : ((s.part.consume it).setStage e.tag n).OneFetch f :=
    ⟨hone.fetches, hone.fresh, hone.inbox, hone.relay, hone.alone⟩
  have hrisen := Part.setStage_opens (p := s.part.consume it) hopens rfl n
  have hclose := Part.closeCaller_of_fetch hstage (e := { e with stage := max n e.stage }) htag howner hrisen x tail
  refine ⟨_, hclose, State.fetch_over rfl hrisen rfl (by simp) (by simp) fun b hb => ?_⟩
  cases b <;> simp [Piece.same, Part.setConn, Part.setStage, Part.consume_eq] at hb ⊢

include hev

theorem State.end_ends_fetch {it : RxItem} {b : BranchBody} {c : Conn}
    (hheard : s.part.branchFrame .calls kindEnd = some (it, b)) (hc : s.part.call.conn = some c)
    (hphase : c.phase = .awaitData) (hpeer : c.peer = it.station) (hctag : c.tag = byteAt b.payload 0) (hetag : e.tag = c.tag)
    (hlen : b.payload.length = c.request.endLength) :
    ∃ t, exec .endReceived s = .next t ∧
      s.fetchOver f
        (if fieldAt b.payload 1 2 = e.received then (if e.enough = true then CallEnd.endedEarly else .complete) else .broken)
        e.received t ∧
      Unchanged [.fwd, .call, .price] s t := by
  have hend : s.part.endReceived = (s.part.consume it).takeCallEnd c (fieldAt b.payload 1 2) (fieldAt b.payload 3 4) := by
    simp [Part.endReceived, hheard, Part.connFor_of hc hpeer hctag, hphase, hlen]
  have hopen : ((s.part.consume it).setStage c.tag 4).openCall c.tag = some { e with stage := max 4 e.stage } :=
    Part.openCall_tag (Part.setStage_opens (p := s.part.consume it) hopens hetag 4) hetag
  have hclose : s.part.endReceived = ((s.part.consume it).setStage e.tag 4).closeCaller e.tag
      (if fieldAt b.payload 1 2 = e.received then (if e.enough = true then CallEnd.endedEarly else .complete) else .broken)
      (some (fieldAt b.payload 3 4)) := by
    rw [hend, Part.takeCallEnd]
    dsimp only
    rw [hopen, hetag]
  obtain ⟨q, hq, hover, hkept⟩ := State.fetch_closed hone htag hopens howner (it := it) 4
    (if fieldAt b.payload 1 2 = e.received then (if e.enough = true then CallEnd.endedEarly else .complete) else .broken)
    (some (fieldAt b.payload 3 4))
  have hrun := exec_of_run (c := .endReceived) (f := Part.endReceived) (fun _ => rfl) hev
  rw [hclose, hq] at hrun
  exact ⟨_, hrun, hover, hkept⟩

theorem State.answer_ends_fetch {it : RxItem} {b : BranchBody} {c : Conn} {v : Verdict} {x : CallEnd}
    (hheard : s.part.branchFrame .calls kindAnswer = some (it, b)) (hc : s.part.call.conn = some c)
    (hphase : c.phase = .awaitAnswer) (hpeer : c.peer = it.station) (hctag : c.tag = byteAt b.payload 0)
    (hetag : e.tag = c.tag) (hv : parseVerdict b.payload = some v)
    (hx : (v = .busy ∧ x = .busy) ∨ ∃ r, v = .refuse r ∧ x = .refused r) :
    ∃ t, exec .answerReceived s = .next t ∧ s.fetchOver f x e.received t ∧ Unchanged [.fwd, .call, .price] s t := by
  have hanswer : s.part.answerReceived = (s.part.consume it).takeVerdict c v := by
    simp [Part.answerReceived, hheard, Part.phase_of hc, hphase, Part.connFor_of hc hpeer hctag, hv]
  have hverdict : (s.part.consume it).takeVerdict c v = ((s.part.consume it).setStage e.tag 1).closeCaller e.tag x none := by
    rw [hetag]
    rcases hx with ⟨rfl, rfl⟩ | ⟨r, rfl, rfl⟩
    · rfl
    · rfl
  obtain ⟨q, hq, hover, hkept⟩ := State.fetch_closed hone htag hopens howner (it := it) 1 x none
  have hrun := exec_of_run (c := .answerReceived) (f := Part.answerReceived) (fun _ => rfl) hev
  rw [hanswer, hverdict, hq] at hrun
  exact ⟨_, hrun, hover, hkept⟩

theorem State.turn_ends_fetch {c : Conn} {x : CallEnd} (hgap : s.part.branch.turnGap = true)
    (hc : s.part.call.conn = some c) (hetag : e.tag = c.tag)
    (hx : (c.phase = .awaitAnswer ∧ x = .noAnswer) ∨ (c.phase = .awaitData ∧ x = .broken)) :
    ∃ t, exec .turnExpiry s = .next t ∧ s.fetchOver f x e.received t ∧ Unchanged [.branch, .call, .price] s t := by
  generalize hp : (s.part.modBranch fun b => { b with turnGap := false, gapCount := Config.turnGap }) = p
  have hexpire : s.part.turnExpiry = p.closeCaller e.tag x none := by
    have hconn : p.call.conn = some c := by rw [← hp]; exact hc
    unfold Part.turnExpiry Part.turnExpired
    rw [if_pos hgap, hp, hconn, hetag]
    rcases hx with ⟨hphase, rfl⟩ | ⟨hphase, rfl⟩
    · simp only [hphase]
    · simp only [hphase]
  have hone' : p.OneFetch f := by
    subst hp
    exact ⟨hone.fetches, hone.fresh, hone.inbox, hone.relay, hone.alone⟩
  have hopens' : p.call.opens = [e] := by rw [← hp]; exact hopens
  have hrun := exec_of_run (c := .turnExpiry) (f := Part.turnExpiry) (fun _ => rfl) hev
  rw [hexpire, Part.closeCaller_of_fetch hone' htag howner hopens'] at hrun
  refine ⟨_, hrun, State.fetch_over (by rw [← hp]; rfl) hopens' rfl (by simp) (by simp) fun b hb => ?_⟩
  subst hp
  cases b <;> simp [Piece.same, Part.setConn] at hb ⊢

theorem State.recall_ends_fetch (hstate : e.state = .waitingRecall) (htimer : e.recallTimer = true) :
    ∃ t, exec (.recallTimerExpiry e.tag) s = .next t ∧ s.fetchOver f .recallTimeout e.received t ∧
      Unchanged [.call, .price] s t := by
  have hrun := exec_of_run (c := .recallTimerExpiry e.tag) (fun _ => rfl) hev
  rw [Part.recallTimeout_single hopens hstate htimer, Part.endCall, Part.endCall_of_fetch hone htag howner] at hrun
  refine ⟨_, hrun, State.fetch_over rfl hopens rfl (by simp) (by simp) fun b _ => ?_⟩
  cases b <;> simp [Piece.same]
end

end Sys2Proof.Machine
end

section
/-! PROOFS. A fetch placed (R20, R85). -/

open Sys2Proof
namespace Sys2Proof.Machine

theorem exec_fetchTimerTick (s : State) : exec .fetchTimerTick s = s.run Part.fetchTick := rfl

/-! ### a frame queued in a buffer without a limit of its own (R63, R67) -/

/-- A frame in the buffer at the head of the free list, at the tail of a class queue. -/
def Forwarding.queued (c : Cls) (x : QFrame) (rest : List Nat) (f : Forwarding) : Forwarding :=
  { f with free := rest, ctr := { f.ctr with lowestFree := min f.ctr.lowestFree rest.length } }.setQueue c (f.queue c ++ [x])

theorem Forwarding.queue_queued (c : Cls) (x : QFrame) (rest : List Nat) (f : Forwarding) :
    (f.queued c x rest).queue c = f.queue c ++ [x] := by
  cases c <;> rfl

/-- The frame of a body of `k` bytes in buffer `n`. -/
def builtFrame (n k : Nat) (o : FrameOwner) : QFrame := ⟨⟨n, .plain, k⟩, 0, o, false⟩

theorem Part.sendFrame_granted {p : Part} {n : Nat} {rest : List Nat} (hf : p.fwd.free = n :: rest)
    (hreserve : Config.controlReserve < p.fwd.free.length) (c : Cls) (o : FrameOwner) (bs : Bytes) :
    ∃ b a, p.sendFrame .other c o bs = (true,
      { p with
        fwd := p.fwd.queued c (builtFrame n bs.length o) rest, dram := Mem.writeBytes p.dram (bufAddr n) bs
        branch := b, asks := a }) := by
  have hbuild := Part.build_other .lineBuild p bs n rest hf hreserve
  generalize hq : ({ p with
      fwd := { p.fwd with free := rest, ctr := { p.fwd.ctr with lowestFree := min p.fwd.ctr.lowestFree rest.length } }
      dram := Mem.writeBytes p.dram (bufAddr n) bs } : Part) = q at hbuild
  obtain ⟨x, hstore⟩ : ∃ x, q.askStore .lineBuild (cutBlocks bs.length (bufAddr n) bs) = { q with asks := x } := by
    unfold Part.askStore
    split <;> exact ⟨_, rfl⟩
  obtain ⟨b, a, hjoin, -⟩ := Part.enqueue_eq c o ⟨n, .plain, bs.length⟩ { q with asks := x }
  refine ⟨b, a, ?_⟩
  simp only [Part.sendFrame, hbuild, hstore, hjoin]
  subst hq
  cases c <;> rfl

/-! ### a call placed (R20) -/

/-- A call as it is placed. -/
def OpenCall.placed (o : CallOwner) (peer : StationNo) (tag : Byte) (r : Request) : OpenCall :=
  { owner := o, peer := peer, tag := tag, request := r, state := .queued, stage := 0, received := 0, expect := none
    recallTag := 0, recallTimer := false, enough := false, endEarly := false }

/-- The body of a CALL. -/
def callBytes (peer : StationNo) (tag : Byte) (r : Request) : Bytes := plainBody peer.val kindCall (callPayload tag r)

theorem callBytes_length (peer : StationNo) (tag : Byte) (r : Request) : (callBytes peer tag r).length ≤ 13 := by
  cases r <;> simp [callBytes, plainBody, callPayload, be_length]

/-- The part with the first call of its list placed, its CALL in buffer `n`. -/
def Part.callPlaced (o : CallOwner) (peer : StationNo) (r : Request) (n : Nat) (rest : List Nat) (p : Part) : Part :=
  { p with
    call := { p.call with callTag := p.call.callTag + 1, opens := [OpenCall.placed o peer p.call.callTag r] }
    fwd := p.fwd.queued .till
      (builtFrame n (callBytes peer p.call.callTag r).length (.call p.call.callTag)) rest
    dram := Mem.writeBytes p.dram (bufAddr n) (callBytes peer p.call.callTag r) }

theorem Part.placeCall_first {p : Part} {n : Nat} {rest : List Nat} (hf : p.fwd.free = n :: rest)
    (hreserve : Config.controlReserve < p.fwd.free.length) (hopens : p.call.opens = []) (htx : p.txEnabled = true)
    (o : CallOwner) (peer : StationNo) (r : Request) :
    ∃ b a, p.placeCall o peer r =
      (some p.call.callTag, { p.callPlaced o peer r n rest with branch := b, asks := a }) := by
  obtain ⟨b, a, hsend⟩ := Part.sendFrame_granted (n := n) (rest := rest)
    (p := p.modCall fun c =>
      { c with callTag := p.call.callTag + 1, opens := c.opens ++ [OpenCall.placed o peer p.call.callTag r] })
    hf hreserve .till (.call p.call.callTag) (callBytes peer p.call.callTag r)
  unfold callBytes OpenCall.placed at hsend
  have htag : freshTag (p.call.opens.map (·.tag)) Config.callSlots p.call.callTag = p.call.callTag := by
    simp [hopens, freshTag, Config.callSlots]
  have hroom : ¬ (Config.callSlots ≤ p.call.opens.length ∨ p.txEnabled = false) := by
    simp [hopens, htx, Config.callSlots]
  refine ⟨b, a, ?_⟩
  unfold Part.placeCall
  rw [if_neg hroom]
  dsimp only
  rw [htag]
  rw [hsend]
  simp only [Part.callPlaced, Part.modCall, hopens, List.nil_append]
  rfl

/-! ### the fetch asked (R85) -/

theorem Part.runFrom_all {p : Part} {limit : Nat} (h : ∀ i, i < limit → p.wanted i = true) (most f : Nat) :
    p.runFrom limit f most = min most (limit - f) := by
  induction most generalizing f with
  | zero => simp [Part.runFrom]
  | succ most ih =>
    unfold Part.runFrom
    by_cases hf : f < limit
    · rw [if_pos ⟨hf, h f hf⟩, ih]
      omega
    · rw [if_neg fun hin => hf hin.1]
      omega

/-- With nothing marked and no fetch open, every index is asked of the next source. -/
theorem Part.nextFetch_all {p : Part} {n : Nat} {src : StationNo} (hstate : p.price.staging.state = .gaps)
    (hfetches : p.price.staging.fetches = []) (hn : p.price.staging.n = some n) (hsome : 1 ≤ n) (hmost : n ≤ 336)
    (hmarks : ∀ i, i < n → p.marked i = false) (hrecount : p.price.recount = false)
    (hsource : nextSource p.price.lastSource p.fetchSources = some src) : p.nextFetch = some (src, 0, n) := by
  have hfrom : p.fetchFrom = some src := by simp [Part.fetchFrom, hstate, hrecount, hn, hfetches, hsource]
  have hlimit : p.price.staging.limit = n := by simp [Staging.limit, hn]
  have hwanted : ∀ i, i < n → p.wanted i = true := fun i hi => by
    simp [Part.wanted, hmarks i hi, Staging.covered, hfetches]
  have hfirst : (List.range n).find? p.wanted = some 0 := by
    obtain ⟨m, rfl⟩ : ∃ m, n = m + 1 := ⟨n - 1, by omega⟩
    rw [List.range_succ_eq_map, List.find?_cons_of_pos (hwanted 0 (by omega))]
  have hrun : p.runFrom n 0 Config.fetchMax = n := by
    rw [Part.runFrom_all hwanted]
    simp only [Config.fetchMax]
    omega
  simp only [Part.nextFetch, hfrom, hlimit, hfirst, hrun]

/-- With every index in the range of an open fetch no other is placed. -/
theorem Part.placeFetch_of_covered {p : Part}
    (h : ∀ i, i < p.price.staging.limit → p.price.staging.covered i = true) :
    ∃ m, p.placeFetch = (false, p.loads .staging m) := by
  have hnone : (List.range p.price.staging.limit).find? p.wanted = none := by
    simp only [List.find?_eq_none, List.mem_range]
    intro i hi
    simp [Part.wanted, h i hi]
  have hnext : p.nextFetch = none := by
    unfold Part.nextFetch
    rw [hnone]
    cases p.fetchFrom <;> rfl
  refine ⟨p.fetchBursts, ?_⟩
  simp [Part.placeFetch, hnext]

/-- The part with a fetch of all `count` indices open, its call placed with `src`. -/
def Part.fetchPlaced (src : StationNo) (count n : Nat) (rest : List Nat) (p : Part) : Part :=
  let q := p.callPlaced .pricing src (.fetch p.price.staging.generation 0 count) n rest
  { q with
    price :=
      { p.price with
        staging := { p.price.staging with fetches := [⟨p.call.callTag, p.price.staging.generation, 0, count, src⟩] }
        lastSource := src } }

theorem Part.placeFetch_first {p : Part} {count n : Nat} {rest : List Nat} {src : StationNo}
    (hnext : p.nextFetch = some (src, 0, count)) (hfetches : p.price.staging.fetches = []) (hf : p.fwd.free = n :: rest)
    (hreserve : Config.controlReserve < p.fwd.free.length) (hopens : p.call.opens = []) (htx : p.txEnabled = true) :
    ∃ b a, p.placeFetch = (true, { p.fetchPlaced src count n rest with branch := b, asks := a }) := by
  obtain ⟨l, hloads⟩ : ∃ l, p.loads .staging p.fetchBursts = { p with asks := l } := by
    unfold Part.loads
    split
    · exact ⟨_, rfl⟩
    · exact ⟨_, rfl⟩
  obtain ⟨b, a, hplace⟩ := Part.placeCall_first (p := { p with asks := l }) hf hreserve hopens htx .pricing src
    (.fetch p.price.staging.generation 0 count)
  refine ⟨b, a, ?_⟩
  unfold Part.placeFetch
  dsimp only
  rw [hnext, hloads]
  dsimp only
  rw [hplace]
  simp [Part.modStaging, Part.modPrice, Part.callPlaced, Part.fetchPlaced, hfetches]

/-- The check of the fetch conditions places that one fetch. -/
theorem Part.checkFetch_first {p : Part} {count n : Nat} {rest : List Nat} {src : StationNo}
    (hnext : p.nextFetch = some (src, 0, count)) (hfetches : p.price.staging.fetches = [])
    (hn : p.price.staging.n = some count) (hinbox : p.price.inbox = []) (hf : p.fwd.free = n :: rest)
    (hreserve : Config.controlReserve < p.fwd.free.length) (hopens : p.call.opens = []) (htx : p.txEnabled = true) :
    ∃ b a m, p.checkFetch = ({ p.fetchPlaced src count n rest with branch := b, asks := a } : Part).loads .staging m := by
  obtain ⟨b, a, hplace⟩ := Part.placeFetch_first hnext hfetches hf hreserve hopens htx
  generalize hq : ({ p.fetchPlaced src count n rest with branch := b, asks := a } : Part) = q at hplace
  have hempty : q.price.inbox = [] := by rw [← hq]; exact hinbox
  have hdrain : q.drainFetchEnds q.price.inbox.length = (false, q) := by rw [hempty]; rfl
  have hcovered : ∀ i, i < q.price.staging.limit → q.price.staging.covered i = true := by
    subst hq
    intro i hi
    simp only [Part.fetchPlaced, Staging.limit, hn, Option.getD_some] at hi
    simp [Part.fetchPlaced, Staging.covered, hi]
  obtain ⟨m, hsecond⟩ := Part.placeFetch_of_covered hcovered
  refine ⟨b, a, m, ?_⟩
  unfold Part.checkFetch
  rw [hplace]
  dsimp only
  rw [hdrain, hsecond, hq]

theorem State.tick_fetches {s : State} {n : Nat} {src : StationNo} (hev : s.supply.takesEvents = true) (hfree : s.bufferFree)
    (htimer : s.part.price.fetchTimer = true) (hstate : s.part.price.staging.state = .gaps)
    (hfetches : s.part.price.staging.fetches = []) (hn : s.part.price.staging.n = some n) (hsome : 1 ≤ n) (hmost : n ≤ 336)
    (hmarks : ∀ i, i < n → s.part.marked i = false) (hrecount : s.part.price.recount = false)
    (hsource : nextSource s.part.price.lastSource s.part.fetchSources = some src) (hinbox : s.part.price.inbox = [])
    (hopens : s.part.call.opens = []) (htx : s.part.txEnabled = true) :
    ∃ t, exec .fetchTimerTick s = .next t ∧
      t.part.call =
        { s.part.call with
          callTag := s.part.call.callTag + 1
          opens := [OpenCall.placed .pricing src s.part.call.callTag (.fetch s.part.price.staging.generation 0 n)] } ∧
      t.part.price =
        { s.part.price with
          staging :=
            { s.part.price.staging with
              fetches := [⟨s.part.call.callTag, s.part.price.staging.generation, 0, n, src⟩] }
          lastSource := src } ∧
      s.queues .till (.call s.part.call.callTag)
        (callBytes src s.part.call.callTag (.fetch s.part.price.staging.generation 0 n)) t ∧
      Unchanged [.branch, .fwd, .call, .price, .memory] s t := by
  obtain ⟨hreserve, hpool⟩ := hfree
  obtain ⟨k, rest, hf⟩ : ∃ k rest, s.part.fwd.free = k :: rest := List.exists_cons_of_length_pos (by omega)
  have hk : k < Config.poolSize := hpool k (by simp [hf])
  obtain ⟨b, a, m, hcheck⟩ := Part.checkFetch_first
    (Part.nextFetch_all hstate hfetches hn hsome hmost hmarks hrecount hsource) hfetches hn hinbox hf hreserve hopens htx
  have htick : s.part.fetchTick = s.part.checkFetch := if_pos htimer
  refine ⟨_, exec_of_run exec_fetchTimerTick hev, ?_⟩
  rw [htick, hcheck]
  refine ⟨by simp [Part.fetchPlaced, Part.callPlaced], by simp [Part.fetchPlaced],
    ⟨builtFrame k (callBytes src s.part.call.callTag (.fetch s.part.price.staging.generation 0 n)).length
      (.call s.part.call.callTag), ?_, rfl, rfl, rfl, ?_⟩,
    State.unchanged_of_part _ _ _ fun x hx => ?_⟩
  · simp only [State.settle_fwd, Part.loads_fwd, Part.fetchPlaced, Part.callPlaced]
    exact Forwarding.queue_queued _ _ _ _
  · have hin := bufAddr_le k hk
    have hlen := callBytes_length src s.part.call.callTag (.fetch s.part.price.staging.generation 0 n)
    simp only [Part.bufBytes, Part.read, State.settle_dram, Part.loads_dram, Part.fetchPlaced, Part.callPlaced, builtFrame]
    refine Mem.readBytes_writeBytes _ _ _ ?_
    simp only [Config.bufferBytes, Config.labelBase, Config.dramSize] at *
    omega
  · cases x <;> simp [Piece.same, Part.fetchPlaced, Part.callPlaced] at hx ⊢

end Sys2Proof.Machine

open Sys2Proof.Machine

/-- Settles O38: the fetch placed, the DATA taken, and the four ends of its call. -/
theorem missingRecordsAreFetched : Obligations.MissingRecordsAreFetched := by
  refine ⟨fun s st n src hev hfree htimer hst hstate hfetches hn hsome hmost hmarks hrecount hsource hinbox hopens htx => ?_,
    fun s buf peer tag r hev htakes hin => ⟨State.data_of_no_fetch hev htakes hin, ?_, ?_⟩, ?_⟩
  · subst hst
    exact State.tick_fetches hev hfree htimer hstate hfetches hn hsome hmost hmarks hrecount hsource hinbox hopens htx
  · intro f k hfetches htag hgen hstate hn hother hfresh
    exact State.data_of_other_n hev htakes hin ⟨hfetches, htag, hgen, hstate⟩ rfl hn hother hfresh
  · intro f st b k i bs hst hb hfetches htag hgen hstate hk hn hmost _ hone hindex hi hbs
    subst hst hbs
    have hdata : s.part.DataOf f tag := ⟨hfetches, htag, hgen, by rcases hstate with h | h <;> simp [h]⟩
    refine ⟨State.data_bad_record hev htakes hin hdata hb hstate hk hn hmost hone hindex hi,
      fun j e hcrc hmark hj hother hmissing he => ?_,
      State.data_completes hev htakes hin hdata hb hstate hk hn hmost hone hindex hi⟩
    obtain ⟨t, hexec, hprice, ⟨hentry, hset, hothers, hmem⟩, hfwd, hkept⟩ :=
      State.data_good_record hev htakes hin hdata hb hstate hk hn hmost hone hindex hi hcrc hmark hj hother hmissing he
    exact ⟨t, hexec, hprice, hentry, hset, hothers, hmem, hfwd, hkept⟩
  · intro s f e hev hfetches htag hopens howner hinbox hrelay halone hfresh
    have hone : s.part.OneFetch f := ⟨hfetches, hfresh, hinbox, hrelay, halone⟩
    refine ⟨?_, ?_, ?_, State.recall_ends_fetch hev hone htag hopens howner⟩
    · intro it b c x hheard hc hphase hpeer hctag hetag hlen hx
      subst hx
      exact State.end_ends_fetch hev hone htag hopens howner hheard hc hphase hpeer hctag hetag hlen
    · intro it b c v x hheard hc hphase hpeer hctag hetag hv hx
      exact State.answer_ends_fetch hev hone htag hopens howner hheard hc hphase hpeer hctag hetag hv hx
    · intro c x hgap hc hetag hx
      exact State.turn_ends_fetch hev hone htag hopens howner hgap hc hetag hx
end

section
/-! PROOFS. Support for the till ports: the record of one port, the part a command lands in, and a reply. -/

open Sys2Proof
namespace Sys2Proof.Machine

/-! ### the record of one port -/

/-- Port `n` and the station's till counters as given, and nothing else moved. -/
def Part.portNow (n : PortNo) (x : Port) (c : TillCounters) (p : Part) : Part :=
  p.modTill fun t => { ports := t.ports.set n.val x, ctr := c }

section portNow
variable (n : PortNo) (x y : Port) (c d : TillCounters) (p : Part)

@[simp] theorem Part.portNow_frame :
    (p.portNow n x c).cfg = p.cfg ∧ (p.portNow n x c).branch = p.branch ∧ (p.portNow n x c).trunkFramer = p.trunkFramer ∧
      (p.portNow n x c).labelFramer = p.labelFramer ∧ (p.portNow n x c).guestFramer = p.guestFramer ∧
      (p.portNow n x c).links = p.links ∧ (p.portNow n x c).fwd = p.fwd ∧ (p.portNow n x c).call = p.call ∧
      (p.portNow n x c).pres = p.pres ∧ (p.portNow n x c).price = p.price ∧ (p.portNow n x c).jrn = p.jrn ∧
      (p.portNow n x c).lab = p.lab ∧ (p.portNow n x c).gst = p.gst ∧ (p.portNow n x c).trk = p.trk ∧
      (p.portNow n x c).hdr = p.hdr ∧ (p.portNow n x c).memCtr = p.memCtr ∧ (p.portNow n x c).asks = p.asks ∧
      (p.portNow n x c).dram = p.dram ∧ (p.portNow n x c).written = p.written := by
  and_intros <;> rfl

@[simp] theorem Part.portNow_port : (p.portNow n x c).port n = x := by
  simp [Part.portNow, Part.port]

theorem Part.portNow_port_other {m : PortNo} (h : m ≠ n) : (p.portNow n x c).port m = p.port m := by
  have hne : n.val ≠ m.val := fun he => h (Fin.ext he.symm)
  simp [Part.portNow, Part.port, hne]

@[simp] theorem Part.portNow_ctr : (p.portNow n x c).till.ctr = c := rfl

@[simp] theorem Part.portNow_portNow : (p.portNow n x c).portNow n y d = p.portNow n y d := by
  simp [Part.portNow, Part.modTill]

/-- What a part shows of its ports hangs on the till port controller alone. -/
theorem Part.port_congr {p q : Part} (h : q.till = p.till) (n : PortNo) : q.port n = p.port n := by
  unfold Part.port
  rw [h]

theorem Part.portNow_till_congr {p q : Part} (h : q.till.ports = p.till.ports) :
    (q.portNow n x c).till = (p.portNow n x c).till := by
  simp [Part.portNow, h]

theorem Part.modPort_eq (f : Port → Port) : p.modPort n f = p.portNow n (f (p.port n)) p.till.ctr := rfl

theorem Part.countPort_eq (f : PortCounters → PortCounters) :
    p.countPort n f = p.portNow n { p.port n with ctr := f (p.port n).ctr } p.till.ctr := rfl

@[simp] theorem Part.countTill_portNow (f : TillCounters → TillCounters) :
    (p.portNow n x c).countTill f = p.portNow n x (f c) := rfl

@[simp] theorem Part.portNow_countTill (f : TillCounters → TillCounters) :
    (p.countTill f).portNow n x c = p.portNow n x c := rfl

@[simp] theorem Part.countTill_port (f : TillCounters → TillCounters) : (p.countTill f).port n = p.port n := rfl

@[simp] theorem Part.countTill_ctr (f : TillCounters → TillCounters) : (p.countTill f).till.ctr = f p.till.ctr := rfl

@[simp] theorem Part.append_port (r : Requester) (till : Nat) (cs : List Content) :
    (p.append r till cs).2.port n = p.port n :=
  Part.port_congr (by simp) n
end portNow

@[simp] theorem Part.modPort_portNow (n : PortNo) (x : Port) (c : TillCounters) (f : Port → Port) (p : Part) :
    (p.portNow n x c).modPort n f = p.portNow n (f x) c := by
  rw [Part.modPort_eq, Part.portNow_port, Part.portNow_ctr, Part.portNow_portNow]

/-! ### what a reply reads of the other blocks -/

theorem Part.serving_congr {p q : Part} (h : q.pres = p.pres) : q.serving = p.serving := by
  unfold Part.serving
  rw [h]

@[simp] theorem Part.serving_portNow (n : PortNo) (x : Port) (c : TillCounters) (p : Part) :
    (p.portNow n x c).serving = p.serving := rfl

@[simp] theorem Part.portEnabled_portNow (n m : PortNo) (x : Port) (c : TillCounters) (p : Part) :
    (p.portNow n x c).portEnabled m = p.portEnabled m := rfl

theorem Part.replyContent_congr {p q : Part} (hpres : q.pres = p.pres) (hhigh : q.jrn.high = p.jrn.high) (seq kind : Byte)
    (r : Result) (hold noTally : Bool) (body : Bytes) :
    q.replyContent seq kind r hold noTally body = p.replyContent seq kind r hold noTally body := by
  simp [Part.replyContent, Part.replyFlags, Part.staleServed, Part.serving_congr hpres, hhigh]

/-! ### the part a command lands in -/

/-- The command ends in a state with the blocks of `r`, and with every burst that `r` asks still to be made: the port and the
bursts asked may have moved on. -/
def State.lands (c : Instr) (r : Part) (s : State) : Prop :=
  ∃ t, exec c s = .next t ∧ Unchanged [] { s with part := r } t ∧ ∀ u k, r.asks.has u k = true → t.awaits u k

theorem State.lands_of_run {c : Instr} {f : Part → Part} (hc : ∀ s, exec c s = s.run f) {s : State}
    (hev : s.supply.takesEvents = true) : s.lands c (f s.part) :=
  ⟨_, exec_of_run hc hev, State.unchanged_of_part [] (f s.part) { s with part := f s.part } fun b _ => by
    cases b <;> simp [Piece.same], fun _ _ h => State.settle_awaits _ _ _ h⟩

theorem State.lands_of_burst {s : State} {u : BurstUser} {k : Tok} (hev : s.supply.takesEvents = true)
    (hport : s.arb.port = some (.burst u k)) : s.lands .dramBurstDone (s.part.burstEffect k) := by
  refine ⟨_, exec_dramBurstDone hev hport, ?_, fun v t h => State.settle_awaits _ _ _ (Part.released_keeps u k.rest h)⟩
  exact State.unchanged_of_burst [] _ _ { s with part := s.part.burstEffect k } fun b _ => by
    cases b <;> simp [Piece.same, Part.finishBurst]

/-- What a state that keeps all of a part but `less` leaves as it was, where the part keeps all of `s` but `but`. -/
theorem Unchanged.from_part {less but : List Piece} {s t : State} {r : Part} (h : Unchanged less { s with part := r } t)
    (hsub : less ⊆ but) (hr : ∀ b, b ∉ but → b.same s { s with part := r }) : Unchanged but s t := by
  intro b hb
  have hst := hr b hb
  have htr := h b fun hin => hb (hsub hin)
  cases b
  case memory => exact fun a => (htr a).trans (hst a)
  case written => exact fun a => (htr a).trans (hst a)
  case memoryCounters => exact ⟨htr.1.trans hst.1, htr.2.trans hst.2⟩
  all_goals exact Eq.trans htr hst

theorem Unchanged.after {but : List Piece} {s t : State} {r : Part} (h : Unchanged [] { s with part := r } t)
    (hr : ∀ b, b ∉ but → b.same s { s with part := r }) : Unchanged but s t :=
  h.from_part (List.nil_subset _) hr

/-- The till port controller shows port `n` and the counters as given, and the other ports as they were. -/
theorem State.port_shown {s t : State} {n : PortNo} {x : Port} {c : TillCounters}
    (h : t.part.till = (s.part.portNow n x c).till) : t.part.port n = x ∧ t.part.till.ctr = c ∧ OtherPorts n s t :=
  ⟨(Part.port_congr h n).trans (Part.portNow_port n x c s.part), congrArg Tills.ctr h,
    fun _ hm => (Part.port_congr h _).trans (Part.portNow_port_other n x c s.part hm)⟩

theorem State.lands_port {s : State} {c : Instr} {n : PortNo} {x : Port} {k : TillCounters}
    (h : s.lands c (s.part.portNow n x k)) :
    ∃ t, exec c s = .next t ∧ t.part.port n = x ∧ t.part.till.ctr = k ∧ OtherPorts n s t ∧ Unchanged [.till] s t := by
  obtain ⟨t, hexec, hsame, -⟩ := h
  obtain ⟨hport, hctr, hothers⟩ := State.port_shown (hsame .till List.not_mem_nil)
  exact ⟨t, hexec, hport, hctr, hothers, hsame.after fun b hb => by cases b <;> simp [Piece.same] at hb ⊢⟩

/-! ### a reply (R102 to R104) -/

/-- The port with the reply of request `r` stored and begun. -/
def Port.answered (x : Port) (r : TillRequest) (content : Bytes) : Port :=
  { x with
    last := some ⟨r.seq, r.kind, content⟩, req := some { r with work := .replying }
    out := some (tillFrame content), outBusy := false }

/-- Where no low waits, a reply moves its port and nothing else. -/
theorem Part.reply_eq {p : Part} {n : PortNo} {r : TillRequest} (hreq : (p.port n).req = some r) (hlows : (p.port n).lows = [])
    (res : Result) (hold noTally : Bool) (body : Bytes) :
    p.reply n res hold noTally body =
      p.portNow n ((p.port n).answered r (p.replyContent r.seq r.kind res hold noTally body)) p.till.ctr := by
  simp only [Part.reply, hreq, Part.takeLows, Part.modPort_eq, Part.portNow_portNow, Part.portNow_port, Part.portNow_ctr,
    hlows, List.foldl_nil, Port.answered]

/-- A reply that a command lands in, of a part with the ports, the joining state and the journal's level of `s`. -/
theorem State.lands_reply {s : State} {c : Instr} {n : PortNo} {r : TillRequest} {p : Part} {res : Result} {hold : Bool}
    {body : Bytes} (hreq : (s.part.port n).req = some r) (hlows : (s.part.port n).lows = [])
    (hports : p.till.ports = s.part.till.ports) (hpres : p.pres = s.part.pres) (hhigh : p.jrn.high = s.part.jrn.high)
    (h : s.lands c (p.reply n res hold false body)) :
    ∃ t, exec c s = .next t ∧ s.answers n r res hold body t ∧ t.part.till.ctr = p.till.ctr ∧
      Unchanged [.till] { s with part := p } t := by
  have hport : p.port n = s.part.port n := by
    unfold Part.port
    rw [hports]
  rw [Part.reply_eq (hport ▸ hreq) (hport ▸ hlows), hport, Part.replyContent_congr hpres hhigh] at h
  obtain ⟨t, hexec, hsame, -⟩ := h
  obtain ⟨hshown, hctr, hothers⟩ :=
    State.port_shown ((hsame .till List.not_mem_nil).trans (Part.portNow_till_congr n _ _ hports))
  refine ⟨t, hexec, ⟨hshown, hothers⟩, hctr, Unchanged.after (r := p.portNow n _ _) hsame fun b hb => ?_⟩
  cases b <;> simp [Piece.same] at hb ⊢

/-- A reply given at once, with nothing else done. -/
theorem State.lands_answers {s : State} {c : Instr} {n : PortNo} {r : TillRequest} {res : Result} {hold : Bool} {body : Bytes}
    (hreq : (s.part.port n).req = some r) (hlows : (s.part.port n).lows = [])
    (h : s.lands c (s.part.reply n res hold false body)) :
    ∃ t, exec c s = .next t ∧ s.answers n r res hold body t ∧ t.part.till.ctr = s.part.till.ctr ∧ Unchanged [.till] s t :=
  State.lands_reply hreq hlows rfl rfl rfl h

end Sys2Proof.Machine
end

section
/-! PROOFS. The frames of a till port (R96, R100 to R103). -/

open Sys2Proof
namespace Sys2Proof.Machine

theorem exec_tillFrameReceived (n : PortNo) (chars : Bytes) (s : State) :
    exec (.tillFrameReceived n chars) s = s.run (Part.tillFrame n chars) := rfl

/-- Frames that were not dropped leave their count as it was. -/
theorem bumpBy_zero (c : Nat) : bumpBy 0 c = c := by
  simp [bumpBy]

/-! ### a frame closed by its ETX (R96) -/

/-- The port once an ETX has closed a frame: it takes characters, and the frame is counted. -/
def Port.closing (x : Port) (ctr : PortCounters) : Port := { x with ignoring := false, ctr := ctr }

section
variable {p : Part} {n : PortNo} {chars bs : Bytes} (hheld : (p.port n).held = false)
  (hgather : gather (some []) 0 chars = (0, some bs))
include hheld hgather

theorem Part.tillFrame_closed :
    p.tillFrame n chars = (p.portNow n ((p.port n).closing (p.port n).ctr) p.till.ctr).closedFrame n bs := by
  simp [Part.tillFrame, hheld, hgather, Part.modPort_eq, bumpBy_zero, Port.closing]

theorem Part.tillFrame_badCrc (hcrc : crcGood bs = false) :
    p.tillFrame n chars =
      p.portNow n ((p.port n).closing { (p.port n).ctr with crc := bump (p.port n).ctr.crc }) p.till.ctr := by
  simp [Part.tillFrame_closed hheld hgather, Part.closedFrame, hcrc, Part.countPort_eq, Port.closing]

theorem Part.tillFrame_badLength (hcrc : crcGood bs = true) (hfits : contentFits bs = false) :
    p.tillFrame n chars =
      p.portNow n ((p.port n).closing { (p.port n).ctr with badLength := bump (p.port n).ctr.badLength }) p.till.ctr := by
  simp [Part.tillFrame_closed hheld hgather, Part.closedFrame, hcrc, hfits, Part.countPort_eq, Port.closing]

/-- The port once a good frame is counted. -/
def Port.counted (x : Port) : Port := x.closing { x.ctr with good := bump x.ctr.good }

theorem Part.tillFrame_unserved (hcrc : crcGood bs = true) (hfits : contentFits bs = true)
    (hmute : p.serving = .noReply ∨ p.portEnabled n = false) :
    p.tillFrame n chars = p.portNow n (p.port n).counted p.till.ctr := by
  simp [Part.tillFrame_closed hheld hgather, Part.closedFrame, hcrc, hfits, Part.goodFrame, Part.countPort_eq, hmute,
    Port.closing, Port.counted]

theorem Part.tillFrame_served (hcrc : crcGood bs = true) (hfits : contentFits bs = true) (hserved : p.serving ≠ .noReply)
    (henabled : p.portEnabled n = true) :
    p.tillFrame n chars =
      (p.portNow n (p.port n).counted.heard p.till.ctr).takeRequest n (byteAt bs 0) (byteAt bs 1)
        ((bs.drop 2).take (bs.length - 4)) := by
  simp [Part.tillFrame_closed hheld hgather, Part.closedFrame, hcrc, hfits, Part.goodFrame, Part.countPort_eq, hserved,
    henabled, Port.closing, Port.counted]
end

/-- A frame shorter than any, or of another length than its kind, does not fit (R96). -/
theorem contentFits_of_badLength {bs : Bytes}
    (h : bs.length < 4 ∨ ∃ k, TillKind.ofCode (byteAt bs 1).toNat = some k ∧ bs.length ≠ 4 + k.bodyLength) :
    contentFits bs = false := by
  unfold contentFits
  rcases h with hshort | ⟨k, hk, hlen⟩
  · simp [hshort]
  · simp [hk, hlen]

theorem contentFits_of_noKind {bs : Bytes} (hlen : 4 ≤ bs.length) (hk : TillKind.ofCode (byteAt bs 1).toNat = none) :
    contentFits bs = true := by
  simp [contentFits, hlen, hk]

/-! ### a request of an enabled port (R102, R103) -/

theorem Port.isBusy_iff (x : Port) : x.isBusy = true ↔ x.req ≠ none ∨ x.out ≠ none ∨ x.busy ≠ [] := by
  simp [Port.isBusy, Option.isSome_iff_ne_none, or_assoc]

section
variable {x : Port} {k : TillCounters} {p : Part} {n : PortNo} {seq kind : Byte} {body : Bytes}

/-- The sequence and kind are not those of the stored last reply. -/
theorem Part.takeRequest_new (hidle : x.isBusy = false) (hnew : ∀ l, x.last = some l → ¬ (l.seq = seq ∧ l.kind = kind)) :
    (p.portNow n x k).takeRequest n seq kind body = (p.portNow n x k).newRequest n seq kind body := by
  unfold Part.takeRequest
  simp only [Part.portNow_port, hidle, Bool.false_eq_true, if_false]
  split
  · next l hl => exact if_neg (hnew l hl)
  · rfl

theorem Part.newRequest_known {t : TillKind} (hkind : TillKind.ofCode kind.toNat = some t) :
    (p.portNow n x k).newRequest n seq kind body = p.portNow n { x with req := some ⟨seq, kind, body, .taken⟩ } k := by
  simp [Part.newRequest, hkind]

/-- A request of no known kind is answered at once (R104). -/
theorem Part.newRequest_unknown (hkind : TillKind.ofCode kind.toNat = none) (hlows : x.lows = []) :
    (p.portNow n x k).newRequest n seq kind body =
      p.portNow n (x.answered ⟨seq, kind, body, .taken⟩ (p.replyContent seq kind .badRequest false false [])) k := by
  have hreply := Part.reply_eq (p := p.portNow n { x with req := some ⟨seq, kind, body, .taken⟩ } k) (n := n)
    (r := ⟨seq, kind, body, .taken⟩) (by simp) (by simpa using hlows) .badRequest false false []
  simp only [Part.newRequest, hkind, Part.modPort_portNow, Part.refuse, hreply, Part.portNow_port, Part.portNow_portNow,
    Part.portNow_ctr]
  rfl

theorem Part.takeRequest_repeat {l : StoredReply} (hidle : x.isBusy = false) (hlast : x.last = some l) (hseq : l.seq = seq)
    (hkind : l.kind = kind) :
    (p.portNow n x k).takeRequest n seq kind body =
      p.portNow n
        { x with req := some ⟨l.seq, l.kind, [], .replying⟩, out := some (Machine.tillFrame l.content), outBusy := false }
        { k with repeats := bump k.repeats } := by
  simp [Part.takeRequest, hidle, hlast, hseq, hkind, Part.answerRepeat]

theorem Part.takeRequest_busy (hbusy : x.isBusy = true) (hroom : x.busy.length < 4) :
    (p.portNow n x k).takeRequest n seq kind body =
      p.portNow n
        { x with busy := x.busy ++ [Machine.tillFrame (p.replyContent seq kind .busy false false [])] }
        { k with busyRefusals := bump k.busyRefusals } := by
  simp only [Part.takeRequest, Part.portNow_port, hbusy, if_true, Part.refuseBusy, Config.busySlots, hroom,
    Part.modPort_portNow, Part.countTill_portNow]
  rfl

theorem Part.takeRequest_dropped (hfull : 4 ≤ x.busy.length) :
    (p.portNow n x k).takeRequest n seq kind body = p.portNow n x { k with refusalsDropped := bump k.refusalsDropped } := by
  have hbusy : x.isBusy = true := (Port.isBusy_iff x).mpr (.inr (.inr fun he => by simp [he] at hfull))
  simp [Part.takeRequest, hbusy, Part.refuseBusy, Config.busySlots, Nat.not_lt.mpr hfull]
end

/-- A port with no request and nothing to send is not busy. -/
theorem Port.isBusy_of_idle {x : Port} (hreq : x.req = none) (hout : x.out = none) (hbusy : x.busy = []) :
    x.counted.heard.isBusy = false := by
  simp [Port.isBusy, Port.counted, Port.closing, Port.heard, hreq, hout, hbusy]

end Sys2Proof.Machine

open Sys2Proof.Machine

/-- Settles O41: the frame by its CRC and length, and a good one by what the port holds. -/
theorem tillFrameIsTaken : Obligations.TillFrameIsTaken := by
  intro s n chars bs x hev hx hheld hgather
  subst hx
  have hlands := State.lands_of_run (exec_tillFrameReceived n chars) hev
  refine ⟨fun hcrc => ?_, fun hcrc hlen => ?_, fun hcrc hfits hmute => ?_, fun y hcrc hfits hserved henabled hy => ?_⟩
  · rw [Part.tillFrame_badCrc hheld hgather hcrc] at hlands
    exact State.lands_port hlands
  · rw [Part.tillFrame_badLength hheld hgather hcrc (contentFits_of_badLength hlen)] at hlands
    exact State.lands_port hlands
  · rw [Part.tillFrame_unserved hheld hgather hcrc hfits hmute] at hlands
    exact State.lands_port hlands
  · subst hy
    rw [Part.tillFrame_served hheld hgather hcrc hfits hserved henabled] at hlands
    refine ⟨fun hreq hout hbusy hnew hkind => ?_, fun l hreq hout hbusy hlast hseq hkind => ?_, fun hbusy hroom => ?_,
      fun hfull => ?_⟩
    · obtain ⟨k, hk⟩ := Option.ne_none_iff_exists'.mp hkind
      rw [Part.takeRequest_new (Port.isBusy_of_idle hreq hout hbusy) hnew, Part.newRequest_known hk] at hlands
      exact State.lands_port hlands
    · rw [Part.takeRequest_repeat (Port.isBusy_of_idle hreq hout hbusy) hlast hseq hkind] at hlands
      exact State.lands_port hlands
    · rw [Part.takeRequest_busy (x := (s.part.port n).counted.heard) ((Port.isBusy_iff _).mpr hbusy) hroom] at hlands
      exact State.lands_port hlands
    · rw [Part.takeRequest_dropped (x := (s.part.port n).counted.heard) hfull] at hlands
      exact State.lands_port hlands
end

section
/-! PROOFS. Line measurement, timers and the end of a reply at a till port (R95, R97 to R102, R107). -/

open Sys2Proof
namespace Sys2Proof.Machine

theorem exec_framingError (n : PortNo) (s : State) : exec (.framingError n) s = s.run (Part.tillFramingError n) := rfl
theorem exec_droppedAsLong (n : PortNo) (s : State) : exec (.droppedAsLong n) s = s.run (Part.tillLong n) := rfl
theorem exec_badEscape (n : PortNo) (stx : Bool) (s : State) :
    exec (.badEscape n stx) s = s.run (Part.tillBadEscape n stx) := rfl
theorem exec_lineHighForOneBitTime (n : PortNo) (s : State) :
    exec (.lineHighForOneBitTime n) s = s.run (Part.tillHigh n) := rfl
theorem exec_lineBreak (n : PortNo) (s : State) : exec (.lineBreak n) s = s.run (Part.longLow n .breakLow) := rfl
theorem exec_lineDown (n : PortNo) (s : State) : exec (.lineDown n) s = s.run (Part.longLow n .lineDown) := rfl
theorem exec_silenceTimerExpiry (n : PortNo) (s : State) :
    exec (.silenceTimerExpiry n) s = s.run (Part.silenceExpiry n) := rfl
theorem exec_graceTimerExpiry (n : PortNo) (s : State) : exec (.graceTimerExpiry n) s = s.run (Part.graceExpiry n) := rfl
theorem exec_replySent (n : PortNo) (s : State) : exec (.replySent n) s = s.run (Part.replySent n) := rfl

/-! ### an append at a till port (R106, R107, R120) -/

/-- An append reads nothing of the till ports and moves nothing of them. -/
theorem Part.append_portNow (r : Requester) (till : Nat) (cs : List Content) (n : PortNo) (x : Port) (k : TillCounters)
    (p : Part) :
    (p.portNow n x k).append r till cs = ((p.append r till cs).1, (p.append r till cs).2.portNow n x k) := by
  unfold Part.append
  by_cases hwaits : p.jrn.scan.isSome ∧ r ≠ .scan
  · simp only [Part.portNow_frame, hwaits, ne_eq, not_false_eq_true, and_self, if_true]
    rfl
  · simp only [Part.portNow_frame, hwaits, if_false]
    unfold Part.appendNow
    by_cases hfit : p.jrn.accepts cs
    · simp only [Part.portNow_frame, hfit, if_true]
      split <;> rfl
    · simp only [Part.portNow_frame, hfit]
      rfl

theorem Part.append_number {p : Part} {r : Requester} {till : Nat} {cs : List Content} (hscan : p.jrn.scan = none)
    (hfit : p.jrn.accepts cs = true) : (p.append r till cs).1 = some p.jrn.next := by
  simp [Part.append, hscan, Part.appendNow, hfit]

/-- What a command lands in once records for port `n` are accepted: the journal holds them, and the port and the counters are
as given. -/
theorem State.lands_append {s : State} {c : Instr} {n : PortNo} {x : Port} {k : TillCounters} {r : Requester}
    {cs : List Content} (hscan : s.part.jrn.scan = none) (hfit : s.part.jrn.accepts cs = true)
    (h : s.lands c ((s.part.append r n.val cs).2.portNow n x k)) :
    ∃ t, exec c s = .next t ∧ t.part.port n = x ∧ s.appends r n.val cs t ∧ t.part.till.ctr = k ∧ OtherPorts n s t ∧
      Unchanged [.till, .jrn] s t := by
  obtain ⟨t, hexec, hsame, -⟩ := h
  obtain ⟨hport, hctr, hothers⟩ := State.port_shown
    ((hsame .till List.not_mem_nil).trans (Part.portNow_till_congr n x k (p := s.part) (by simp)))
  refine ⟨t, hexec, hport, (hsame .jrn List.not_mem_nil).trans (Part.append_accepted hscan hfit), hctr, hothers,
    hsame.after fun b hb => ?_⟩
  cases b <;> simp [Piece.same] at hb ⊢

/-! ### a port that takes characters (R95, R97) -/

theorem Part.tillFramingError_eq {p : Part} {n : PortNo} (hheld : (p.port n).held = false) :
    p.tillFramingError n =
      p.portNow n
        { p.port n with
          held := true, errCounted := true, ignoring := true
          ctr := { (p.port n).ctr with framing := bump (p.port n).ctr.framing } } p.till.ctr := by
  simp [Part.tillFramingError, hheld, Part.modPort_eq]

theorem Part.tillLong_eq {p : Part} {n : PortNo} (hheld : (p.port n).held = false) :
    p.tillLong n =
      p.portNow n
        { p.port n with
          ignoring := true, ctr := { (p.port n).ctr with badLength := bump (p.port n).ctr.badLength } } p.till.ctr := by
  simp [Part.tillLong, hheld, Part.modPort_eq]

theorem Part.tillBadEscape_eq {p : Part} {n : PortNo} (stx : Bool) (hheld : (p.port n).held = false) :
    p.tillBadEscape n stx =
      p.portNow n
        { p.port n with
          ignoring := !stx, ctr := { (p.port n).ctr with badLength := bump (p.port n).ctr.badLength } } p.till.ctr := by
  simp [Part.tillBadEscape, hheld, Part.modPort_eq]

/-! ### the longer lows (R97 to R99) -/

/-- The port after a low that is counted as no framing error, with this many of them left. -/
def Port.withdrawn (x : Port) (framing : Nat) : Port :=
  { x with errCounted := false, ctr := { x.ctr with framing := framing } }

theorem Port.withdrawFraming_eq (x : Port) :
    x.withdrawFraming = x.withdrawn (if x.errCounted = true then x.ctr.framing - 1 else x.ctr.framing) := by
  cases x with
  | mk _ _ _ _ _ _ _ _ _ _ _ _ errCounted _ => cases errCounted <;> rfl

section
variable {p : Part} {n : PortNo} (henabled : p.portEnabled n = true)
include henabled

/-- A low taken at once. -/
theorem Part.longLow_taken {l : Low} (hwork : (p.port n).working = false)
    (hon : l = .lineDown → (p.port n).state ≠ .offline) :
    p.longLow n l = (p.portNow n (p.port n).withdrawFraming p.till.ctr).takeLow n l := by
  have hnot : ¬ (l = .lineDown ∧ (p.port n).state = .offline) := fun h => hon h.1 h.2
  simp only [Part.longLow, Part.modPort_eq, Part.portEnabled_portNow, henabled, Part.portNow_port, Bool.true_eq_false,
    if_false, Port.withdrawFraming_eq, Port.withdrawn]
  rw [if_neg hnot, if_neg]
  simpa [Port.working] using hwork

/-- A low that waits for the work of a request. -/
theorem Part.longLow_waits {l : Low} (hwork : (p.port n).working = true)
    (hon : l = .lineDown → (p.port n).state ≠ .offline) :
    p.longLow n l =
      p.portNow n { (p.port n).withdrawFraming with lows := (p.port n).lows ++ [l] } p.till.ctr := by
  have hnot : ¬ (l = .lineDown ∧ (p.port n).state = .offline) := fun h => hon h.1 h.2
  simp only [Part.longLow, Part.modPort_eq, Part.portEnabled_portNow, henabled, Part.portNow_port, Bool.true_eq_false,
    if_false, Port.withdrawFraming_eq, Port.withdrawn, Part.portNow_portNow, Part.portNow_ctr]
  rw [if_neg hnot, if_pos]
  simpa [Port.working] using hwork

/-- A LINE DOWN of a port that is OFFLINE already. -/
theorem Part.longLow_offline (hoff : (p.port n).state = .offline) :
    p.longLow n .lineDown =
      p.portNow n
        { (p.port n).withdrawFraming with ctr := (p.port n).withdrawFraming.ctr.countLineDown } p.till.ctr := by
  simp [Part.longLow, Part.modPort_eq, henabled, Port.withdrawFraming_eq, Port.withdrawn, hoff, Part.countPort_eq]

end

theorem Part.breakNow_noSale {p : Part} {n : PortNo} {x : Port} {k : TillCounters} (hsale : x.sale = none) :
    (p.portNow n x k).breakNow n =
      p.portNow n
        { x.silenced with
          sale := none, last := none, state := .idle, grace := false, silence := true
          ctr := { x.ctr with breaks := bump x.ctr.breaks } } k := by
  simp [Part.breakNow, hsale]

/-- An abandon by a port event, where its record is accepted (R107). -/
theorem Part.abandonByEvent_accepted {p : Part} {n : PortNo} {y : Sale} {reason : AbandonReason}
    (hscan : p.jrn.scan = none)
    (hfit : p.jrn.accepts [.saleAbandon y.number reason y.running y.tenders false] = true) :
    p.abandonByEvent n y reason = (p.append .portEvent n.val [.saleAbandon y.number reason y.running y.tenders false]).2 := by
  have hnumber := Part.append_number (r := .portEvent) (till := n.val) hscan hfit
  unfold Part.abandonByEvent
  split
  · next heq => rw [heq]
  · next heq => rw [heq] at hnumber; exact absurd hnumber (by simp)

theorem Part.breakNow_sale {p : Part} {n : PortNo} {x : Port} {k : TillCounters} {y : Sale} (hsale : x.sale = some y)
    (hscan : p.jrn.scan = none)
    (hfit : p.jrn.accepts [.saleAbandon y.number .tillRestart y.running y.tenders false] = true) :
    (p.portNow n x k).breakNow n =
      (p.append .portEvent n.val [.saleAbandon y.number .tillRestart y.running y.tenders false]).2.portNow n
        { x.silenced with
          sale := none, last := none, state := .idle, grace := false, silence := true
          ctr := { x.ctr with breaks := bump x.ctr.breaks } }
        { k with abandonedRestart := bump k.abandonedRestart } := by
  simp [Part.breakNow, hsale, Part.abandonByEvent_accepted (p := p.portNow n x k) (n := n) hscan hfit, Part.append_portNow]

theorem Part.lineDownNow_portNow (p : Part) (n : PortNo) (x : Port) (k : TillCounters) :
    (p.portNow n x k).lineDownNow n =
      p.portNow n
        { x.silenced with
          state := .offline, silence := false, grace := x.sale.isSome, ctr := x.ctr.countLineDown } k := by
  simp [Part.lineDownNow]

/-! ### timers and the end of a reply (R101, R102) -/

theorem Part.silenceExpiry_eq {p : Part} {n : PortNo} (hruns : (p.port n).silence = true)
    (hon : (p.port n).state ≠ .offline) :
    p.silenceExpiry n =
      p.portNow n { p.port n with state := .offline, silence := false, grace := (p.port n).sale.isSome } p.till.ctr := by
  simp [Part.silenceExpiry, hruns, hon, Part.modPort_eq]

theorem Part.graceExpiry_eq {p : Part} {n : PortNo} {y : Sale} (hruns : (p.port n).grace = true)
    (hoff : (p.port n).state = .offline) (hsale : (p.port n).sale = some y) (hscan : p.jrn.scan = none)
    (hfit : p.jrn.accepts [.saleAbandon y.number .tillLost y.running y.tenders false] = true) :
    p.graceExpiry n =
      (p.append .portEvent n.val [.saleAbandon y.number .tillLost y.running y.tenders false]).2.portNow n
        { p.port n with sale := none, grace := false } { p.till.ctr with abandonedLost := bump p.till.ctr.abandonedLost } := by
  simp [Part.graceExpiry, hruns, hoff, hsale, Part.abandonByEvent_accepted hscan hfit, Part.modPort_eq]

theorem Part.replySent_eq {p : Part} {n : PortNo} {o : Bytes} (hout : (p.port n).out = some o)
    (hown : (p.port n).outBusy = false) :
    p.replySent n = p.portNow n { p.port n with req := none }.nextBusy p.till.ctr := by
  simp [Part.replySent, hout, hown, Part.modPort_eq]

theorem Port.nextBusy_nil {x : Port} (h : x.busy = []) : x.nextBusy = { x with out := none, outBusy := false } := by
  simp [Port.nextBusy, h]

theorem Port.nextBusy_cons {x : Port} {b : Bytes} {rest : List Bytes} (h : x.busy = b :: rest) :
    x.nextBusy = { x with out := some b, outBusy := true, busy := rest } := by
  simp [Port.nextBusy, h]

end Sys2Proof.Machine

open Sys2Proof.Machine

/-- Settles O42, one event of the line and one timer after the other. -/
theorem tillLineAndTimers : Obligations.TillLineAndTimers := by
  intro s n x hev hx
  subst hx
  refine ⟨fun hheld => ⟨?_, ?_, fun stx => ?_⟩, ?_, fun framing henabled hframing => ⟨fun hwork hsale => ?_,
    fun y hwork hsale hscan hfit => ?_, fun hwork hon => ?_, fun hoff => ?_, fun hwork hon => ?_, fun hwork => ?_⟩,
    fun hruns hon => ?_, fun y hruns hoff hsale hscan hfit => ?_, fun o hout hown => ?_⟩
  · have h := State.lands_of_run (exec_framingError n) hev
    rw [Part.tillFramingError_eq hheld] at h
    exact State.lands_port h
  · have h := State.lands_of_run (exec_droppedAsLong n) hev
    rw [Part.tillLong_eq hheld] at h
    exact State.lands_port h
  · have h := State.lands_of_run (exec_badEscape n stx) hev
    rw [Part.tillBadEscape_eq stx hheld] at h
    exact State.lands_port h
  · exact State.lands_port (State.lands_of_run (exec_lineHighForOneBitTime n) hev)
  all_goals subst_vars
  · have h := State.lands_of_run (exec_lineBreak n) hev
    rw [Part.longLow_taken (l := .breakLow) henabled hwork nofun, Part.takeLow, Port.withdrawFraming_eq,
      Part.breakNow_noSale (x := (s.part.port n).withdrawn _) hsale] at h
    exact State.lands_port h
  · have h := State.lands_of_run (exec_lineBreak n) hev
    rw [Part.longLow_taken (l := .breakLow) henabled hwork nofun, Part.takeLow, Port.withdrawFraming_eq,
      Part.breakNow_sale (x := (s.part.port n).withdrawn _) hsale hscan hfit] at h
    obtain ⟨t, hexec, hport, happend, hctr, hothers, hsame⟩ := State.lands_append hscan hfit h
    refine ⟨t, hexec, ?_, ?_, ?_, ?_, ?_, ?_, happend, hctr, hothers, hsame⟩ <;> rw [hport]
    rfl
  · have h := State.lands_of_run (exec_lineDown n) hev
    rw [Part.longLow_taken henabled hwork fun _ => hon, Part.takeLow, Port.withdrawFraming_eq,
      Part.lineDownNow_portNow] at h
    exact State.lands_port h
  · have h := State.lands_of_run (exec_lineDown n) hev
    rw [Part.longLow_offline henabled hoff, Port.withdrawFraming_eq] at h
    exact State.lands_port h
  · have h := State.lands_of_run (exec_lineDown n) hev
    rw [Part.longLow_waits henabled hwork fun _ => hon, Port.withdrawFraming_eq] at h
    exact State.lands_port h
  · have h := State.lands_of_run (exec_lineBreak n) hev
    rw [Part.longLow_waits (l := .breakLow) henabled hwork nofun, Port.withdrawFraming_eq] at h
    exact State.lands_port h
  · have h := State.lands_of_run (exec_silenceTimerExpiry n) hev
    rw [Part.silenceExpiry_eq hruns hon] at h
    exact State.lands_port h
  · have h := State.lands_of_run (exec_graceTimerExpiry n) hev
    rw [Part.graceExpiry_eq hruns hoff hsale hscan hfit] at h
    exact State.lands_append hscan hfit h
  · have h := State.lands_of_run (exec_replySent n) hev
    rw [Part.replySent_eq hout hown] at h
    obtain ⟨t, hexec, hport, hkept⟩ := State.lands_port h
    exact ⟨t, hexec, fun hnil => hport.trans (Port.nextBusy_nil hnil),
      fun b rest hcons => hport.trans (Port.nextBusy_cons hcons), hkept⟩
end

section
/-! PROOFS. Support for the requests of a till: the command of a kind, the checks of R104, and a request's append. -/

open Sys2Proof
namespace Sys2Proof.Machine

/-! ### the command that executes a request -/

/-- What the command of a kind does to the part. -/
def TillKind.act (k : TillKind) (n : PortNo) : Part → Part :=
  match k with
  | .lookup => Part.tillLookup n
  | .openSale => Part.tillOpen n
  | .line => Part.tillLine n
  | .void => Part.tillVoid n
  | .tender => Part.tillTender n
  | .close => Part.tillClose n
  | .abandon => Part.tillAbandon n
  | .status => Part.tillStatus n
  | .bind => Part.tillBind n
  | .unbind => Part.tillUnbind n
  | .query => Part.tillQuery n
  | .retry => Part.tillRetry n

theorem exec_command (k : TillKind) (n : PortNo) (s : State) : exec (k.command n) s = s.run (k.act n) := by
  cases k <;> rfl

/-- Port `n` of the part holds a request of this kind that is not yet executed. -/
def Part.takenIs (n : PortNo) (r : TillRequest) (k : TillKind) (p : Part) : Prop :=
  (p.port n).req = some r ∧ TillKind.ofCode r.kind.toNat = some k ∧ r.work = .taken

section
variable {s : State} {n : PortNo} {r : TillRequest} {k : TillKind} (h : s.asked n r k)
include h

theorem State.asked.taken : s.part.takenIs n r k := ⟨h.2.1, h.2.2.1, h.2.2.2.1⟩
theorem State.asked.req : (s.part.port n).req = some r := h.2.1
theorem State.asked.lows : (s.part.port n).lows = [] := h.2.2.2.2
theorem State.asked.lands : s.lands (k.command n) (k.act n s.part) := State.lands_of_run (exec_command k n) h.1
end

/-! ### the checks of a request (R104, R105) -/

theorem TillKind.supervisor_iff (k : TillKind) : k.supervisor = true ↔ k ∈ [.bind, .unbind, .query, .retry] := by
  cases k <;> decide

theorem TillKind.needsLevel_iff (k : TillKind) :
    k.needsLevel = true ↔ k ∈ [.lookup, .openSale, .line, .bind, .unbind, .query, .retry] := by
  cases k <;> decide

/-- The kinds whose port state does not fit: those that want no open sale with one, and those that want one with none. -/
theorem TillKind.stateFits_iff (k : TillKind) (sale : Option Sale) :
    k.stateFits sale.isSome = false ↔
      (k ∈ [TillKind.openSale, .bind, .unbind, .query, .retry] ∧ sale ≠ none) ∨
        (k ∈ [TillKind.line, .void, .tender, .close, .abandon] ∧ sale = none) := by
  cases k <;> cases sale <;> simp [TillKind.stateFits]

section
variable {p : Part} {n : PortNo} {k : TillKind}

theorem Part.tillRefusal_notPermitted (hk : k.supervisor = true) (hport : p.supervisor n = false) :
    p.tillRefusal n k = some .notPermitted := by
  simp [Part.tillRefusal, hk, hport]

variable (hperm : k.supervisor = true → p.supervisor n = true)
include hperm

theorem Part.tillRefusal_notReady (hk : k.needsLevel = true) (hnone : p.serving = .none) :
    p.tillRefusal n k = some .notReady := by
  have hgo : ¬ (k.supervisor = true ∧ p.supervisor n = false) := fun h => by simp [hperm h.1] at h
  simp [Part.tillRefusal, hgo, hk, hnone]

variable (hlevel : k.needsLevel = true → p.serving ≠ .none)
include hlevel

/-- Past the first two checks the port state decides. -/
theorem Part.tillRefusal_by_state :
    p.tillRefusal n k = if k.stateFits (p.port n).sale.isSome = false then some .wrongState else none := by
  have hgo : ¬ (k.supervisor = true ∧ p.supervisor n = false) := fun h => by simp [hperm h.1] at h
  have hserved : ¬ (k.needsLevel = true ∧ p.serving = .none) := fun h => hlevel h.1 h.2
  simp only [Part.tillRefusal, hgo, hserved, if_false]
end

section
variable {p : Part} {n : PortNo} {r : TillRequest} {k : TillKind} (h : p.takenIs n r k)
include h

theorem Part.requestBody_taken : p.requestBody n k = some r.body := by
  obtain ⟨hreq, hkind, hwork⟩ := h
  simp [Part.requestBody, hreq, hkind, hwork]

theorem Part.handedBody_taken : p.handedBody n k = none := by
  obtain ⟨hreq, hkind, hwork⟩ := h
  simp [Part.handedBody, hreq, hwork]

theorem Part.executeRequest_passes (f : Bytes → Part → Part) (hpass : p.tillRefusal n k = none) :
    p.executeRequest n k f = f r.body p := by
  simp [Part.executeRequest, Part.requestBody_taken h, hpass]

theorem Part.executeInSale_passes (f : Sale → Bytes → Part → Part) (hpass : p.tillRefusal n k = none) {x : Sale}
    (hsale : (p.port n).sale = some x) : p.executeInSale n k f = f x r.body p := by
  simp [Part.executeInSale, Part.executeRequest_passes h _ hpass, hsale]

/-- A supervisor request that is not handed over yet is checked like any other. -/
theorem Part.executeLabel_taken (fits : Bytes → Bool) (f : Bytes → Part → Part) :
    p.executeLabel n k fits f =
      p.executeRequest n k fun body q =>
        if fits body = false then q.refuse n .badRequest
        else if q.labelsReady then f body q
        else q.modPort n fun x => { x with req := x.req.map fun r => { r with work := .handed } } := by
  simp [Part.executeLabel, Part.handedBody_taken h]

/-- The command of every kind begins with the checks of R104. -/
theorem Part.act_checked : ∃ f, k.act n p = p.executeRequest n k f := by
  cases k
  case lookup => simp only [TillKind.act, Part.tillLookup]; exact ⟨_, rfl⟩
  case openSale => simp only [TillKind.act, Part.tillOpen]; exact ⟨_, rfl⟩
  case status => simp only [TillKind.act, Part.tillStatus]; exact ⟨_, rfl⟩
  case line => simp only [TillKind.act, Part.tillLine, Part.executeInSale]; exact ⟨_, rfl⟩
  case void => simp only [TillKind.act, Part.tillVoid, Part.executeInSale]; exact ⟨_, rfl⟩
  case tender => simp only [TillKind.act, Part.tillTender, Part.executeInSale]; exact ⟨_, rfl⟩
  case close => simp only [TillKind.act, Part.tillClose, Part.executeInSale]; exact ⟨_, rfl⟩
  case abandon => simp only [TillKind.act, Part.tillAbandon, Part.executeInSale]; exact ⟨_, rfl⟩
  case bind => simp only [TillKind.act, Part.tillBind, Part.executeLabel_taken h]; exact ⟨_, rfl⟩
  case unbind => simp only [TillKind.act, Part.tillUnbind, Part.executeLabel_taken h]; exact ⟨_, rfl⟩
  case query => simp only [TillKind.act, Part.tillQuery, Part.executeLabel_taken h]; exact ⟨_, rfl⟩
  case retry => simp only [TillKind.act, Part.tillRetry, Part.executeLabel_taken h]; exact ⟨_, rfl⟩

/-- A request refused at a check of R104. -/
theorem Part.act_refused {res : Result} (hrefusal : p.tillRefusal n k = some res) (hready : res ≠ .notReady) :
    k.act n p = p.refuse n res := by
  obtain ⟨f, hf⟩ := Part.act_checked h
  rw [hf]
  simp only [Part.executeRequest, Part.requestBody_taken h, hrefusal]

/-- A request the serving level refuses (R105). -/
theorem Part.act_notReady (hrefusal : p.tillRefusal n k = some .notReady) :
    k.act n p = (p.countTill fun c => { c with notReady := bump c.notReady }).refuse n .notReady := by
  obtain ⟨f, hf⟩ := Part.act_checked h
  rw [hf]
  simp only [Part.executeRequest, Part.requestBody_taken h, hrefusal]
end

/-! ### the checks of one kind -/

section
variable {p : Part} {n : PortNo} {k : TillKind}

/-- A kind of the open sale meets one: no check refuses it. -/
theorem Part.tillRefusal_inSale {x : Sale} (hsale : (p.port n).sale = some x)
    (hk : k ∈ [TillKind.line, .void, .tender, .close, .abandon]) (hlevel : k.needsLevel = true → p.serving ≠ .none) :
    p.tillRefusal n k = none := by
  have hperm : k.supervisor = true → p.supervisor n = true := fun hs => by
    cases k <;> simp [TillKind.supervisor] at hs hk
  rw [Part.tillRefusal_by_state hperm hlevel, hsale]
  cases k <;> simp [TillKind.stateFits] at hk ⊢

/-- A supervisor kind, on a port with the mark, at a level that serves it and with no sale: no check refuses it. -/
theorem Part.tillRefusal_label (hsale : (p.port n).sale = none) (hk : k ∈ [TillKind.bind, .unbind, .query, .retry])
    (hport : p.supervisor n = true) (hserved : p.serving ≠ .none) : p.tillRefusal n k = none := by
  rw [Part.tillRefusal_by_state (fun _ => hport) (fun _ => hserved), hsale]
  cases k <;> simp [TillKind.stateFits] at hk ⊢
end

/-! ### the append of a request (R106) -/

/-- A refused append of a till moves the journal's count of refused sale records alone (R120). -/
theorem Part.append_refused {p : Part} {n : PortNo} {cs : List Content} (hscan : p.jrn.scan = none)
    (hfull : p.jrn.accepts cs = false) :
    p.append (.till n) n.val cs = (none, p.countJrn fun c => { c with saleRefused := bump c.saleRefused }) := by
  simp only [Part.append, hscan, Part.appendNow, hfull]
  rfl

section
variable {s : State} {c : Instr} {n : PortNo} {r : TillRequest} {cs : List Content}
  (hreq : (s.part.port n).req = some r) (hscan : s.part.jrn.scan = none)
include hreq hscan

/-- The records of a request are accepted, the sale takes its changes, and the reply waits. -/
theorem State.lands_works {sale : Option Sale} {o : OnCommit} {body : Bytes} {hold noTally : Bool}
    (hfit : s.part.jrn.accepts cs = true)
    (h : s.lands c ((s.part.append (.till n) n.val cs).2.appended n sale o body hold noTally)) :
    ∃ t, exec c s = .next t ∧ s.appends (.till n) n.val cs t ∧ s.works n r sale o body hold noTally t ∧
      Unchanged [.till, .jrn] s t := by
  have happended : (s.part.append (.till n) n.val cs).2.appended n sale o body hold noTally =
      (s.part.append (.till n) n.val cs).2.portNow n
        { s.part.port n with sale := sale, req := some { r with work := .appended o body hold noTally } }
        s.part.till.ctr := by
    simp [Part.appended, Part.modPort_eq, hreq]
  rw [happended] at h
  obtain ⟨t, hexec, hport, happend, hctr, hothers, hsame⟩ := State.lands_append hscan hfit h
  exact ⟨t, hexec, happend, ⟨hport, hctr, hothers⟩, hsame⟩

/-- The records of a request are refused: FULL, counted, and the sale as it was. -/
theorem State.lands_full (hlows : (s.part.port n).lows = []) (hfull : s.part.jrn.accepts cs = false)
    (h : s.lands c ((s.part.append (.till n) n.val cs).2.refuseFull n)) :
    ∃ t, exec c s = .next t ∧ s.answers n r .full false [] t ∧
      t.part.till.ctr = { s.part.till.ctr with full := bump s.part.till.ctr.full } ∧
      t.part.jrn =
        { s.part.jrn with ctr := { s.part.jrn.ctr with saleRefused := bump s.part.jrn.ctr.saleRefused } } ∧
      Unchanged [.till, .jrn] s t := by
  rw [Part.append_refused hscan hfull] at h
  obtain ⟨t, hexec, hanswer, hctr, hsame⟩ := State.lands_reply hreq hlows (p := (s.part.countJrn _).countTill _)
    rfl rfl rfl h
  refine ⟨t, hexec, hanswer, hctr, hsame .jrn (by decide), hsame.from_part (by simp) fun b hb => ?_⟩
  cases b <;> simp [Piece.same] at hb ⊢
end

end Sys2Proof.Machine
end

section
/-! PROOFS. The requests that open, tender and end a sale (R109, R112 to R114). -/

open Sys2Proof
namespace Sys2Proof.Machine

/-- The two answers of an append, as the requests of a sale take them: accepted, with the first sequence. -/
theorem Part.append_eq {p : Part} {r : Requester} {till : Nat} {cs : List Content} (hscan : p.jrn.scan = none)
    (hfit : p.jrn.accepts cs = true) : p.append r till cs = (some p.jrn.next, (p.append r till cs).2) :=
  Prod.ext (Part.append_number hscan hfit) rfl

section
variable {p : Part} {n : PortNo} {r : TillRequest} (hscan : p.jrn.scan = none)
include hscan

/-- OPEN with its record accepted (R109). -/
theorem Part.act_open (h : p.takenIs n r .openSale) (hserved : p.serving ≠ .none) (hsale : (p.port n).sale = none)
    (hfit : p.jrn.accepts [.saleOpen p.price.activeGen] = true) :
    TillKind.openSale.act n p =
      (p.append (.till n) n.val [.saleOpen p.price.activeGen]).2.appended n none (.opens p.jrn.next) (be 4 p.jrn.next) false
        false := by
  have hpass : p.tillRefusal n .openSale = none := by
    rw [Part.tillRefusal_by_state (k := .openSale) nofun fun _ => hserved, hsale]
    rfl
  simp only [TillKind.act, Part.tillOpen, Part.executeRequest_passes h _ hpass]
  rw [Part.append_eq hscan hfit]

variable {x : Sale} (hsale : (p.port n).sale = some x)
include hsale

/-- TENDER of a known method and an amount in range, with its record accepted (R112). -/
theorem Part.act_tender {m : Method} (h : p.takenIs n r .tender) (hm : Method.ofCode (fieldAt r.body 0 1) = some m)
    (hsome : 1 ≤ fieldAt r.body 1 4) (hmost : x.tenders + fieldAt r.body 1 4 ≤ 999999999)
    (hfit : p.jrn.accepts [.tender x.number m (fieldAt r.body 1 4)] = true) :
    TillKind.tender.act n p =
      (p.append (.till n) n.val [.tender x.number m (fieldAt r.body 1 4)]).2.appended n
        (some { x with tenders := x.tenders + fieldAt r.body 1 4 }) .keep
        (be 4 (x.tenders + fieldAt r.body 1 4) ++ be 4 x.running) false false := by
  have hpass := Part.tillRefusal_inSale (k := .tender) hsale (by decide) nofun
  have hrange : ¬ (fieldAt r.body 1 4 = 0 ∨ Config.totalMax < fieldAt r.body 1 4) := by
    simp only [Config.totalMax]
    omega
  have htotal : ¬ Config.totalMax < x.tenders + fieldAt r.body 1 4 := by
    simp only [Config.totalMax]
    omega
  simp only [TillKind.act, Part.tillTender, Part.executeInSale_passes h _ hpass hsale, hm, hrange, htotal, if_false]
  rw [Part.append_eq hscan hfit]

omit hscan in
/-- CLOSE with the tenders below the running total (R113). -/
theorem Part.act_close_short (h : p.takenIs n r .close) (hshort : x.tenders < x.running) :
    TillKind.close.act n p = p.reply n .short false false (be 4 x.running ++ be 4 x.tenders) := by
  have hpass := Part.tillRefusal_inSale (k := .close) hsale (by decide) nofun
  simp only [TillKind.act, Part.tillClose, Part.executeInSale_passes h _ hpass hsale, hshort, if_true]

theorem Part.act_close (h : p.takenIs n r .close) (hcovered : x.running ≤ x.tenders)
    (hfit : p.jrn.accepts [.saleClose x.number x.running x.tenders (x.tenders - x.running)] = true) :
    TillKind.close.act n p =
      (p.append (.till n) n.val [.saleClose x.number x.running x.tenders (x.tenders - x.running)]).2.appended n (some x)
        .closes (be 4 x.running ++ be 4 x.tenders ++ be 4 (x.tenders - x.running)) false false := by
  have hpass := Part.tillRefusal_inSale (k := .close) hsale (by decide) nofun
  simp only [TillKind.act, Part.tillClose, Part.executeInSale_passes h _ hpass hsale, Nat.not_lt.mpr hcovered, if_false]
  rw [Part.append_eq hscan hfit]

/-- ABANDON with its record accepted (R114). -/
theorem Part.act_abandon (h : p.takenIs n r .abandon)
    (hfit : p.jrn.accepts [.saleAbandon x.number .till x.running x.tenders false] = true) :
    TillKind.abandon.act n p =
      (p.append (.till n) n.val [.saleAbandon x.number .till x.running x.tenders false]).2.appended n (some x) .abandons []
        false false := by
  have hpass := Part.tillRefusal_inSale (k := .abandon) hsale (by decide) nofun
  simp only [TillKind.act, Part.tillAbandon, Part.executeInSale_passes h _ hpass hsale]
  rw [Part.append_eq hscan hfit]
end

end Sys2Proof.Machine

open Sys2Proof.Machine

/-- Settles O44, request by request: each appends its record, but for the CLOSE that is SHORT. -/
theorem salesOpenTenderAndClose : Obligations.SalesOpenTenderAndClose := by
  intro s n r hscan
  refine ⟨fun h hserved hsale hfit => ?_, fun x m a h hsale hm ha hsome hmost hfit => ?_,
    fun x h hsale => ⟨fun hshort => ?_, fun hcovered hfit => ?_⟩, fun x h hsale hfit => ?_⟩
  all_goals have hlands := h.lands
  · rw [Part.act_open hscan h.taken hserved hsale hfit] at hlands
    exact State.lands_works h.req hscan hfit hlands
  · subst ha
    rw [Part.act_tender hscan hsale h.taken hm hsome hmost hfit] at hlands
    exact State.lands_works h.req hscan hfit hlands
  · rw [Part.act_close_short hsale h.taken hshort] at hlands
    exact State.lands_answers h.req h.lows hlands
  · rw [Part.act_close hscan hsale h.taken hcovered hfit] at hlands
    exact State.lands_works h.req hscan hfit hlands
  · rw [Part.act_abandon hscan hsale h.taken hfit] at hlands
    exact State.lands_works h.req hscan hfit hlands
end

section
/-! PROOFS. Support for the search of a till's request (R72), and the line it sells or answers. -/

open Sys2Proof
namespace Sys2Proof.Machine

/-! ### the search of a request (R72) -/

section
variable {s : State} {n : PortNo} {r : TillRequest} {k : TillKind} {y : Search} (h : s.looks n r k y)
include h

theorem State.looks.req : (s.part.port n).req = some r := h.2.2.1
theorem State.looks.kind : TillKind.ofCode r.kind.toNat = some k := h.2.2.2.1
theorem State.looks.lows : (s.part.port n).lows = [] := h.2.2.2.2.2

/-- A burst of the search goes on with what its step leaves. -/
theorem State.looks.lands :
    s.lands .dramBurstDone
      (match s.part.searchStep y with
       | .goesOn rest => s.part.lookFor n rest
       | .ended f => s.part.lookedUp n f) := by
  obtain ⟨hev, hport, hreq, -, hwork, -⟩ := h
  have hlands := State.lands_of_burst hev hport
  simp only [Part.burstEffect, Part.lookupBurst, hreq] at hlands
  obtain ⟨seq, kind, body, work⟩ := r
  subst hwork
  exact hlands
end

theorem State.lands_searches {s : State} {c : Instr} {n : PortNo} {r : TillRequest} {y : Search}
    (hreq : (s.part.port n).req = some r) (h : s.lands c (s.part.lookFor n y)) :
    ∃ t, exec c s = .next t ∧ s.searches n r y t ∧ Unchanged [.till] s t := by
  obtain ⟨t, hexec, hsame, hasks⟩ := h
  obtain ⟨hport, hctr, hothers⟩ := State.port_shown (s := s) (t := t) (n := n)
    (x := { s.part.port n with req := some { r with work := .looking y } }) (c := s.part.till.ctr) <| by
      refine (hsame .till List.not_mem_nil).trans ?_
      simp [Part.lookFor, Part.modPort_eq, hreq]
  refine ⟨t, hexec, ⟨hport, hctr, hothers, hasks _ _ (Part.ask_has _ _ _)⟩, hsame.after fun b hb => ?_⟩
  cases b <;> simp [Piece.same] at hb ⊢

/-! ### a step of the search (R72) -/

section
variable {p : Part} {y : Search}

theorem Part.searchStep_fault (h : p.middle y = none) : p.searchStep y = .ended .fault := by
  unfold Part.middle at h
  simp [Part.searchStep, h]

variable {e : BankEntry} (h : p.middle y = some e)
include h

theorem Part.searchStep_found (hcode : e.code = y.code) (hvalid : e.valid = true) :
    p.searchStep y = .ended (.entry ((y.lo + y.hi) / 2) e) := by
  unfold Part.middle at h
  simp [Part.searchStep, h, hcode, hvalid]

theorem Part.searchStep_notValid (hcode : e.code = y.code) (hvalid : e.valid = false) :
    p.searchStep y = .ended .notFound := by
  unfold Part.middle at h
  simp [Part.searchStep, h, hcode, hvalid]

/-- The half of the range that can hold the item. -/
def Search.half (y : Search) (e : BankEntry) : Search :=
  if y.code < e.code then { y with hi := (y.lo + y.hi) / 2, left := y.left - 1 }
  else { y with lo := (y.lo + y.hi) / 2 + 1, left := y.left - 1 }

theorem Part.searchStep_other (hcode : e.code ≠ y.code) :
    p.searchStep y = if (y.half e).reads then .goesOn (y.half e) else .ended .notFound := by
  unfold Part.middle at h
  simp only [Part.searchStep, h, hcode, if_false]
  rfl
end

theorem Search.reads_iff (y : Search) : y.reads = true ↔ y.lo < y.hi ∧ 0 < y.left := by
  simp [Search.reads]

/-! ### the end of a search -/

section
variable {p : Part} {n : PortNo} {r : TillRequest} (hreq : (p.port n).req = some r)
include hreq

theorem Part.lookedUp_notFound : p.lookedUp n .notFound = p.refuse n .notFound := by
  simp [Part.lookedUp, hreq, Part.foundEntry]

theorem Part.lookedUp_fault :
    p.lookedUp n .fault =
      (p.countPrice fun c => { c with entryFaults := bump c.entryFaults }).refuse n .notFound := by
  simp [Part.lookedUp, hreq, Part.foundEntry]

theorem Part.lookedUp_entry (i : Nat) (e : BankEntry) : p.lookedUp n (.entry i e) = p.priced n r e := by
  simp [Part.lookedUp, hreq, Part.foundEntry]

/-- A search begins with its first entry, or ends where there is none. -/
theorem Part.lookUp_eq (code : Nat) :
    p.lookUp n code =
      if (p.beginSearch code).reads then p.lookFor n (p.beginSearch code) else p.refuse n .notFound := by
  simp [Part.lookUp, Part.lookedUp_notFound hreq]
end

/-! ### where a search of a till's request goes -/

section
variable {s : State} {n : PortNo} {r : TillRequest} {k : TillKind} {y : Search} (h : s.looks n r k y)
include h

/-- A bad entry is NOT FOUND, and counted. -/
theorem State.look_meets_fault (hbad : s.part.middle y = none) :
    ∃ t, exec .dramBurstDone s = .next t ∧ s.answers n r .notFound false [] t ∧
      t.part.price =
        { s.part.price with ctr := { s.part.price.ctr with entryFaults := bump s.part.price.ctr.entryFaults } } ∧
      Unchanged [.till, .price] s t := by
  have hlands := h.lands
  rw [Part.searchStep_fault hbad] at hlands
  simp only [Part.lookedUp_fault h.req] at hlands
  obtain ⟨t, hexec, hanswer, -, hsame⟩ := State.lands_reply (p := s.part.countPrice _) h.req h.lows rfl rfl rfl hlands
  refine ⟨t, hexec, hanswer, hsame .price (by decide), hsame.from_part (by simp) fun b hb => ?_⟩
  cases b <;> simp [Piece.same] at hb ⊢

/-- A search that ends without an entry. -/
theorem State.look_ends (hstep : s.part.searchStep y = .ended .notFound) :
    ∃ t, exec .dramBurstDone s = .next t ∧ s.answers n r .notFound false [] t ∧ t.part.till.ctr = s.part.till.ctr ∧
      Unchanged [.till] s t := by
  have hlands := h.lands
  rw [hstep] at hlands
  simp only [Part.lookedUp_notFound h.req] at hlands
  exact State.lands_answers h.req h.lows hlands

theorem State.look_goesOn {z : Search} (hstep : s.part.searchStep y = .goesOn z) :
    ∃ t, exec .dramBurstDone s = .next t ∧ s.searches n r z t ∧ Unchanged [.till] s t := by
  have hlands := h.lands
  rw [hstep] at hlands
  exact State.lands_searches h.req hlands

/-- The entry found goes on to the pricing stages. -/
theorem State.look_finds {e : BankEntry} (he : s.part.middle y = some e) (hcode : e.code = y.code) (hvalid : e.valid = true) :
    s.lands .dramBurstDone (s.part.priced n r e) := by
  have hlands := h.lands
  rw [Part.searchStep_found he hcode hvalid] at hlands
  simpa only [Part.lookedUp_entry h.req] using hlands
end

/-- A request whose search has just begun: its first entry is asked, or it is answered NOT FOUND. -/
theorem State.search_begins {s : State} {n : PortNo} {r : TillRequest} {k : TillKind} (h : s.asked n r k) {code : Nat}
    (hact : k.act n s.part = s.part.lookUp n code) :
    ((s.part.beginSearch code).reads = true →
        ∃ t, exec (k.command n) s = .next t ∧ s.searches n r (s.part.beginSearch code) t ∧ Unchanged [.till] s t) ∧
      ((s.part.beginSearch code).reads = false →
        ∃ t, exec (k.command n) s = .next t ∧ s.answers n r .notFound false [] t ∧ t.part.till.ctr = s.part.till.ctr ∧
          Unchanged [.till] s t) := by
  have hlands := h.lands
  rw [hact, Part.lookUp_eq h.req] at hlands
  refine ⟨fun hreads => ?_, fun hreads => ?_⟩
  · rw [if_pos hreads] at hlands
    exact State.lands_searches h.req hlands
  · rw [if_neg (by simp [hreads])] at hlands
    exact State.lands_answers h.req h.lows hlands

end Sys2Proof.Machine
end

section
/-! PROOFS. LOOKUP, STATUS and the refusals of a request (R104, R105, R108, R115). -/

open Sys2Proof
namespace Sys2Proof.Machine

/-! ### LOOKUP (R108) -/

section
variable {p : Part} {n : PortNo} {r : TillRequest}

theorem Part.act_lookup (h : p.takenIs n r .lookup) (hserved : p.serving ≠ .none) (hfits : itemFieldsFit r.body = true) :
    TillKind.lookup.act n p = p.lookUp n (fieldAt r.body 0 6) := by
  have hpass : p.tillRefusal n .lookup = none := Part.tillRefusal_by_state (k := .lookup) nofun fun _ => hserved
  simp only [TillKind.act, Part.tillLookup, Part.executeRequest_passes h _ hpass, hfits, if_true]

/-- What a LOOKUP answers of the entry found, by the line amount (R108). -/
theorem Part.priced_lookup (hkind : TillKind.ofCode r.kind.toNat = some .lookup) (e : BankEntry) :
    p.priced n r e =
      match e.lineAmount (fieldAt r.body 6 3) with
      | .badRequest => p.reply n .badRequest false false []
      | .overLimit charged => p.reply n .overLimit e.hold false (be 3 charged)
      | .amount charged a => p.reply n .ok e.hold false (be 1 e.kind ++ be 3 charged ++ be 4 a) := by
  unfold Part.priced
  cases he : e.lineAmount (fieldAt r.body 6 3) <;> simp [hkind, Part.refuse, he]
end

theorem State.lookup_answered {s : State} {n : PortNo} {r : TillRequest} {y : Search} {e : BankEntry}
    (h : s.looks n r .lookup y) (he : s.part.middle y = some e) (hcode : e.code = y.code) (hvalid : e.valid = true) :
    ∃ t, exec .dramBurstDone s = .next t ∧
      (match e.lineAmount (fieldAt r.body 6 3) with
       | .amount charged a => s.answers n r .ok e.hold (be 1 e.kind ++ be 3 charged ++ be 4 a) t
       | .overLimit charged => s.answers n r .overLimit e.hold (be 3 charged) t
       | .badRequest => s.answers n r .badRequest false [] t) ∧
      t.part.till.ctr = s.part.till.ctr ∧ Unchanged [.till] s t := by
  have hlands := State.look_finds h he hcode hvalid
  rw [Part.priced_lookup h.kind] at hlands
  cases hline : e.lineAmount (fieldAt r.body 6 3) <;> simp only [hline] at hlands ⊢ <;>
    exact State.lands_answers h.req h.lows hlands

/-! ### STATUS (R115) -/

/-- The body of a STATUS reply, by the open sale. -/
theorem Part.statusBody_eq (p : Part) (x : Port) :
    p.statusBody x =
      [BitVec.ofNat 8 (if x.state = .offline then 0 else if x.state = .idle then 1 else 2),
        BitVec.ofNat 8 (if p.serving = .full then 0 else if p.serving = .stale then 1 else 2)] ++
        (match x.sale with
         | some y => be 4 y.number ++ be 2 y.lines.length ++ be 4 y.running ++ be 4 y.tenders ++ be 2 y.tally.length
         | none => List.replicate 16 0) := by
  have hstate : x.state.code = if x.state = .offline then 0 else if x.state = .idle then 1 else 2 := by
    cases x.state <;> rfl
  have hlevel : p.serving.code = if p.serving = .full then 0 else if p.serving = .stale then 1 else 2 := by
    cases p.serving <;> rfl
  rw [Part.statusBody, hstate, hlevel]
  cases x.sale with
  | none => rfl
  | some y => simp [be]

theorem Part.act_status {p : Part} {n : PortNo} {r : TillRequest} (h : p.takenIs n r .status) :
    TillKind.status.act n p = p.reply n .ok false false (p.statusBody (p.port n)) := by
  have hpass : p.tillRefusal n .status = none := Part.tillRefusal_by_state (k := .status) nofun nofun
  simp only [TillKind.act, Part.tillStatus, Part.executeRequest_passes h _ hpass]

/-! ### fields out of their ranges (R104) -/

theorem Method.ofCode_none {c : Nat} (h : c = 0 ∨ 3 < c) : Method.ofCode c = none := by
  unfold Method.ofCode
  split <;> simp_all

theorem Layout.ofCode_isSome (c : Nat) : (Layout.ofCode c).isSome = true ↔ 1 ≤ c ∧ c ≤ 3 := by
  unfold Layout.ofCode
  split <;> simp_all
  omega

theorem itemFieldsFit_of_outOfRange {body : Bytes}
    (h : fieldAt body 0 6 = 0 ∨ 99999999999999 < fieldAt body 0 6 ∨ fieldAt body 6 3 = 0) : itemFieldsFit body = false := by
  refine Bool.eq_false_iff.mpr fun hfits => ?_
  simp only [itemFieldsFit, Bool.and_eq_true, decide_eq_true_eq] at hfits
  simp only [Config.itemMax] at hfits
  omega

theorem labelIdFits_iff (id : Nat) : labelIdFits id = true ↔ 1 ≤ id ∧ id ≤ 16777214 := by
  simp only [labelIdFits, Bool.and_eq_true, decide_eq_true_eq]
  rfl

theorem bindFits_iff (body : Bytes) :
    bindFits body = true ↔
      (1 ≤ fieldAt body 0 3 ∧ fieldAt body 0 3 ≤ 16777214) ∧
        (1 ≤ fieldAt body 3 6 ∧ fieldAt body 3 6 ≤ 99999999999999) ∧ 1 ≤ fieldAt body 9 1 ∧ fieldAt body 9 1 ≤ 3 := by
  simp only [bindFits, Bool.and_eq_true, labelIdFits_iff, labelIdOf, decide_eq_true_eq, Layout.ofCode_isSome, and_assoc]
  rfl

section
variable {p : Part} {n : PortNo} {r : TillRequest} {k : TillKind}

/-- A supervisor request with a field out of its range. -/
theorem Part.executeLabel_unfit (h : p.takenIs n r k) (hpass : p.tillRefusal n k = none) {fits : Bytes → Bool}
    (f : Bytes → Part → Part) (hout : fits r.body = false) : p.executeLabel n k fits f = p.refuse n .badRequest := by
  rw [Part.executeLabel_taken h, Part.executeRequest_passes h _ hpass]
  simp only [hout, if_true]

/-- A request that passes the first checks and has a field out of its range. -/
theorem Part.act_outOfRange (h : p.takenIs n r k) (hpass : p.tillRefusal n k = none)
    (hsale : k ∈ [TillKind.line, .void, .tender] → ∃ x, (p.port n).sale = some x)
    (hout : k.outOfRange (((p.port n).sale.map (·.lines.length)).getD 0) r.body) :
    k.act n p = p.refuse n .badRequest := by
  cases k
  case lookup =>
    simp only [TillKind.act, Part.tillLookup, Part.executeRequest_passes h _ hpass, itemFieldsFit_of_outOfRange hout]
    rfl
  case line =>
    obtain ⟨x, hx⟩ := hsale (by decide)
    simp only [TillKind.act, Part.tillLine, Part.executeInSale_passes h _ hpass hx, itemFieldsFit_of_outOfRange hout]
    rfl
  case void =>
    obtain ⟨x, hx⟩ := hsale (by decide)
    simp only [TillKind.act, Part.tillVoid, Part.executeInSale_passes h _ hpass hx]
    simp only [TillKind.outOfRange, hx, Option.map_some, Option.getD_some] at hout
    by_cases hzero : fieldAt r.body 0 2 = 0
    · simp only [hzero, if_true]
    · have hnone : x.lines[fieldAt r.body 0 2 - 1]? = none := List.getElem?_eq_none (by omega)
      simp only [hzero, if_false, hnone]
  case tender =>
    obtain ⟨x, hx⟩ := hsale (by decide)
    simp only [TillKind.act, Part.tillTender, Part.executeInSale_passes h _ hpass hx]
    simp only [TillKind.outOfRange] at hout
    cases hm : Method.ofCode (fieldAt r.body 0 1) with
    | none => rfl
    | some m =>
      have hmethod : ¬ (fieldAt r.body 0 1 = 0 ∨ 3 < fieldAt r.body 0 1) := fun hc => by simp [Method.ofCode_none hc] at hm
      have hamount : fieldAt r.body 1 4 = 0 ∨ Config.totalMax < fieldAt r.body 1 4 := by
        simp only [Config.totalMax]
        omega
      simp only [hamount, if_true]
  case bind =>
    simp only [TillKind.act, Part.tillBind]
    refine Part.executeLabel_unfit h hpass _ (Bool.eq_false_iff.mpr fun hfits => ?_)
    have hin := (bindFits_iff _).mp hfits
    simp only [TillKind.outOfRange] at hout
    omega
  case unbind | query | retry =>
    simp only [TillKind.act, Part.tillUnbind, Part.tillQuery, Part.tillRetry]
    refine Part.executeLabel_unfit h hpass _ (Bool.eq_false_iff.mpr fun hfits => ?_)
    have hin := (labelIdFits_iff _).mp hfits
    simp only [TillKind.outOfRange, labelIdOf] at hout hin
    omega
  case openSale | close | abandon | status => exact hout.elim
end

end Sys2Proof.Machine

open Sys2Proof.Machine

/-- Settles O45: LOOKUP begun and searched, STATUS, the checks of R104 in their order, and a frame of no known kind. -/
theorem requestsAnsweredAtOnce : Obligations.RequestsAnsweredAtOnce := by
  intro s n r
  refine ⟨fun y h hserved hfits hy => ?_, fun y k h => ⟨fun hbad => State.look_meets_fault h hbad, fun e he hcode hvalid => ?_,
      fun e z he hcode hz => ?_, fun e he hcode hvalid hk => ?_⟩, fun st lv body h hst hlv hbody => ?_,
    fun k misfit h hmisfit => ⟨fun hk hport => ?_, fun hport => ⟨fun hk hnone => ?_, fun hserved => ⟨fun hmis => ?_,
      fun hfits hout => ?_⟩⟩⟩,
    fun chars bs x content hev hx hheld hgather hcrc hlen hkind hserved henabled hreq hout hbusy hlows hnew hcontent => ?_⟩
  · subst hy
    exact State.search_begins h (Part.act_lookup h.taken hserved hfits)
  · obtain ⟨t, hexec, hanswer, -, hsame⟩ := State.look_ends h (Part.searchStep_notValid he hcode hvalid)
    exact ⟨t, hexec, hanswer, hsame⟩
  · have hstep := Part.searchStep_other he hcode
    rw [show y.half e = z from hz.symm] at hstep
    rw [← Search.reads_iff]
    refine ⟨fun hreads => State.look_goesOn h (hstep.trans (if_pos hreads)), fun hreads => ?_⟩
    obtain ⟨t, hexec, hanswer, -, hsame⟩ := State.look_ends h (hstep.trans (if_neg hreads))
    exact ⟨t, hexec, hanswer, hsame⟩
  · subst hk
    exact State.lookup_answered h he hcode hvalid
  · subst hst hlv hbody
    have hlands := h.lands
    rw [Part.act_status h.taken, Part.statusBody_eq] at hlands
    exact State.lands_answers h.req h.lows hlands
  · have hlands := h.lands
    rw [Part.act_refused h.taken (Part.tillRefusal_notPermitted (k.supervisor_iff.mpr hk) hport) nofun] at hlands
    exact State.lands_answers h.req h.lows hlands
  · have hlands := h.lands
    rw [Part.act_notReady h.taken (Part.tillRefusal_notReady (fun hs => hport (k.supervisor_iff.mp hs))
      (k.needsLevel_iff.mpr hk) hnone)] at hlands
    obtain ⟨t, hexec, hanswer, hctr, hsame⟩ := State.lands_reply (p := s.part.countTill _) h.req h.lows rfl rfl rfl hlands
    exact ⟨t, hexec, hanswer, hctr, hsame.from_part (by simp) fun b hb => by cases b <;> simp [Piece.same] at hb ⊢⟩
  · have hstate := (k.stateFits_iff _).mpr (hmisfit ▸ hmis)
    have hlands := h.lands
    rw [Part.act_refused h.taken ((Part.tillRefusal_by_state (fun hs => hport (k.supervisor_iff.mp hs))
      fun hl => hserved (k.needsLevel_iff.mp hl)).trans (if_pos hstate)) nofun] at hlands
    exact State.lands_answers h.req h.lows hlands
  · have hstate : ¬ k.stateFits (s.part.port n).sale.isSome = false := fun hs => hfits (hmisfit ▸ (k.stateFits_iff _).mp hs)
    have hsale : k ∈ [TillKind.line, .void, .tender] → ∃ x, (s.part.port n).sale = some x := fun hk => by
      refine Option.ne_none_iff_exists'.mp fun hnone => hfits (hmisfit ▸ .inr ⟨?_, hnone⟩)
      simp only [List.mem_cons] at hk ⊢
      tauto
    have hlands := h.lands
    rw [Part.act_outOfRange h.taken ((Part.tillRefusal_by_state (fun hs => hport (k.supervisor_iff.mp hs))
      fun hl => hserved (k.needsLevel_iff.mp hl)).trans (if_neg hstate)) hsale hout] at hlands
    exact State.lands_answers h.req h.lows hlands
  · subst hx hcontent
    have hlands := State.lands_of_run (exec_tillFrameReceived n chars) hev
    rw [Part.tillFrame_served hheld hgather hcrc (contentFits_of_noKind hlen hkind) hserved henabled,
      Part.takeRequest_new (Port.isBusy_of_idle hreq hout hbusy) hnew,
      Part.newRequest_unknown (x := (s.part.port n).counted.heard) hkind hlows] at hlands
    exact State.lands_port hlands
end

section
/-! PROOFS. LINE and VOID (R110, R111). -/

open Sys2Proof
namespace Sys2Proof.Machine

/-! ### LINE begun and priced (R110) -/

section
variable {p : Part} {n : PortNo} {r : TillRequest} {x : Sale} (hsale : (p.port n).sale = some x)
include hsale

theorem Part.act_line (h : p.takenIs n r .line) (hserved : p.serving ≠ .none) (hfits : itemFieldsFit r.body = true)
    (hroom : x.lines.length < 500) : TillKind.line.act n p = p.lookUp n (fieldAt r.body 0 6) := by
  have hpass := Part.tillRefusal_inSale (k := .line) hsale (by decide) fun _ => hserved
  have hlines : ¬ Config.lineMax ≤ x.lines.length := Nat.not_le.mpr hroom
  simp only [TillKind.act, Part.tillLine, Part.executeInSale_passes h _ hpass hsale, hfits, Bool.true_eq_false, hlines, if_false]

theorem Part.priced_line (hkind : TillKind.ofCode r.kind.toNat = some .line) {e : BankEntry} {charged a : Nat}
    (hline : e.lineAmount (fieldAt r.body 6 3) = .amount charged a) :
    p.priced n r e = p.sellLine n x (fieldAt r.body 0 6) (fieldAt r.body 6 3) e charged a := by
  simp [Part.priced, hline, hkind, hsale]
end

/-! ### the line sold (R110) -/

theorem Sale.tallyPlan_plain (x : Sale) (code : Nat) {e : BankEntry} (h : e.promo ≠ 2) : x.tallyPlan code e = (none, false) :=
  if_neg h

/-- The first MULTIBUY item of a sale makes a tally entry. -/
theorem Sale.tallyPlan_first {x : Sale} (code : Nat) {e : BankEntry} (h : e.promo = 2) (hempty : x.tally = []) :
    x.tallyPlan code e = (some ⟨code, e.value, 0, []⟩, false) := by
  simp [Sale.tallyPlan, promoMultibuy, h, hempty, Config.tallyMax]

/-- The records of a request of the open sale are decided: refused FULL, or the sale becomes `x` and the reply waits (R106). -/
def Part.saleTakes (n : PortNo) (cs : List Content) (x : Sale) (body : Bytes) (hold : Bool) (p : Part) : Part :=
  match p.append (.till n) n.val cs with
  | (none, r) => r.refuseFull n
  | (some _, r) => r.appended n (some x) .keep body hold false

theorem Part.saleTakes_accepted {p : Part} {n : PortNo} {cs : List Content} {x : Sale} {body : Bytes} {hold : Bool}
    (hscan : p.jrn.scan = none) (hfit : p.jrn.accepts cs = true) :
    p.saleTakes n cs x body hold = (p.append (.till n) n.val cs).2.appended n (some x) .keep body hold false := by
  unfold Part.saleTakes
  rw [Part.append_eq hscan hfit]

theorem Part.saleTakes_refused {p : Part} {n : PortNo} {cs : List Content} {x : Sale} {body : Bytes} {hold : Bool}
    (hscan : p.jrn.scan = none) (hfull : p.jrn.accepts cs = false) :
    p.saleTakes n cs x body hold = (p.append (.till n) n.val cs).2.refuseFull n := by
  unfold Part.saleTakes
  rw [Part.append_refused hscan hfull]

/-- The ITEM of a line. -/
def Part.itemRecord (p : Part) (x : Sale) (code q : Nat) (e : BankEntry) (charged a : Nat) : Content :=
  .item x.number (x.lines.length + 1) code q charged a p.price.activeGen ⟨e.hold, false, p.staleServed⟩

section
variable {p : Part} {n : PortNo} {x : Sale} {code q charged a : Nat} {e : BankEntry} (htotal : x.running + a ≤ 999999999)
include htotal

/-- An item that is not MULTIBUY: one ITEM, and its amount joins the running total. -/
theorem Part.sellLine_plain (hpromo : e.promo ≠ 2) :
    p.sellLine n x code q e charged a =
      p.saleTakes n [p.itemRecord x code q e charged a]
        { x with lines := x.lines ++ [⟨code, q, charged, a, false, false⟩], running := x.running + a }
        (be 2 (x.lines.length + 1) ++ be 3 charged ++ be 4 a ++ be 4 0 ++ be 4 (x.running + a)) e.hold := by
  have hlimit : ¬ Config.totalMax < x.running + a := Nat.not_lt.mpr htotal
  simp only [Part.sellLine, hlimit, if_false, Sale.tallyPlan_plain x code hpromo]
  rfl

/-- The first MULTIBUY item of a sale: its tally entry, and the DISCOUNT of its groups. -/
theorem Part.sellLine_multibuy {g d : Nat} {rec : List Content} (hpromo : e.promo = 2) (hempty : x.tally = [])
    (hg : g = q / e.value) (hd : d = min (g * (e.value * charged - e.m)) (x.running + a))
    (hrec : rec = p.itemRecord x code q e charged a ::
      (if 1 ≤ d then [Content.discount x.number (x.lines.length + 1) code g d] else [])) :
    p.sellLine n x code q e charged a =
      p.saleTakes n rec
        { x with
          lines := x.lines ++ [⟨code, q, charged, a, true, false⟩], running := x.running + a - d
          tally := [⟨code, e.value, q, if 1 ≤ g then [⟨g, e.value * charged - e.m, d⟩] else []⟩] }
        (be 2 (x.lines.length + 1) ++ be 3 charged ++ be 4 a ++ be 4 d ++ be 4 (x.running + a - d)) e.hold := by
  have hlimit : ¬ Config.totalMax < x.running + a := Nat.not_lt.mpr htotal
  have hgroups : groupDiscount e.value e.m charged 0 q (x.running + a) = ⟨q, g, e.value * charged - e.m, d⟩ := by
    have hdisc : (if g = 0 then 0 else min (g * (e.value * charged - e.m)) (x.running + a)) = d := by
      rw [hd]
      split
      · next hzero => simp [hzero]
      · rfl
    simp [groupDiscount, ← hg, hdisc]
  have htally : x.tallyAfter ⟨code, e.value, 0, []⟩ ⟨q, g, e.value * charged - e.m, d⟩ =
      [⟨code, e.value, q, if 1 ≤ g then [⟨g, e.value * charged - e.m, d⟩] else []⟩] := by
    simp [Sale.tallyAfter, hempty]
  subst hrec
  simp only [Part.sellLine, hlimit, if_false, Sale.tallyPlan_first code hpromo hempty, Option.map_some, Option.getD_some,
    hgroups, htally]
  rfl
end

/-! ### VOID (R111) -/

section
variable {p : Part} {n : PortNo} {r : TillRequest} {x : Sale} {l : SaleLine} (hsale : (p.port n).sale = some x)
  (h : p.takenIs n r .void) (hsome : 1 ≤ fieldAt r.body 0 2) (hl : x.lines[fieldAt r.body 0 2 - 1]? = some l)
include hsale h hsome hl

/-- VOID of a line of the sale. -/
theorem Part.act_void :
    TillKind.void.act n p =
      if l.voided then p.refuse n .wrongState else p.voidSaleLine n x (fieldAt r.body 0 2) l := by
  have hpass := Part.tillRefusal_inSale (k := .void) hsale (by decide) nofun
  have hzero : ¬ fieldAt r.body 0 2 = 0 := by omega
  simp only [TillKind.act, Part.tillVoid, Part.executeInSale_passes h _ hpass hsale, hzero, if_false, hl]
end

/-- What the VOID of a line gives back. -/
def Sale.backOf (x : Sale) (l : SaleLine) : Nat := ((x.reversalOf l).map (·.r)).getD 0

/-- The records of a VOID. -/
def Sale.voidRecords (x : Sale) (number : Nat) (l : SaleLine) : List Content :=
  Content.void x.number number l.item l.q l.amount ::
    (if 1 ≤ x.backOf l then
      [Content.reversal x.number number l.item (((x.reversalOf l).map (·.k)).getD 0) (x.backOf l)]
    else [])

/-- The sale after a VOID. -/
def Sale.voided (x : Sale) (number : Nat) (l : SaleLine) : Sale :=
  { x with
    lines := x.lines.set (number - 1) { l with voided := true }, running := x.running + x.backOf l - l.amount
    tally := x.tallyVoided (x.reversalOf l) }

theorem Part.voidSaleLine_limit {p : Part} {n : PortNo} {x : Sale} {number : Nat} {l : SaleLine}
    (hout : x.running + x.backOf l < l.amount ∨ 999999999 + l.amount < x.running + x.backOf l) :
    p.voidSaleLine n x number l = p.refuse n .limit := if_pos hout

theorem Part.voidSaleLine_inRange {p : Part} {n : PortNo} {x : Sale} {number : Nat} {l : SaleLine}
    (hlow : l.amount ≤ x.running + x.backOf l) (hhigh : x.running + x.backOf l - l.amount ≤ 999999999) :
    p.voidSaleLine n x number l =
      p.saleTakes n (x.voidRecords number l) (x.voided number l)
        (be 4 (x.backOf l) ++ be 4 (x.running + x.backOf l - l.amount)) false := by
  have hin : ¬ (x.running + x.backOf l < l.amount ∨ Config.totalMax + l.amount < x.running + x.backOf l) := by
    simp only [Config.totalMax]
    omega
  exact if_neg hin

end Sys2Proof.Machine

open Sys2Proof.Machine

/-- Settles O43: LINE by its search and by the promotion of the entry found, VOID by the line it names. -/
theorem linesAreSoldAndVoided : Obligations.LinesAreSoldAndVoided := by
  intro s n r x hsale hscan
  refine ⟨fun y h hserved hfits hroom hy => ?_, ?_, ?_, ?_⟩
  · subst hy
    obtain ⟨hreads, hnothing⟩ := State.search_begins h (Part.act_line hsale h.taken hserved hfits hroom)
    refine ⟨hreads, fun hr => ?_⟩
    obtain ⟨t, hexec, hanswer, -, hsame⟩ := hnothing hr
    exact ⟨t, hexec, hanswer, hsame⟩
  · intro y code q e charged a h he hcode hvalid hitem hq hline htotal
    subst hitem hq
    have hlands := State.look_finds h he hcode hvalid
    rw [Part.priced_line hsale h.kind hline] at hlands
    refine ⟨fun x' rec hpromo hrec hx' => ?_, fun g d x' rec hpromo hempty hg hd hrec hx' hfit => ?_⟩
    · rw [Part.sellLine_plain htotal hpromo, show [s.part.itemRecord x _ _ e charged a] = rec from hrec.symm, ← hx'] at hlands
      refine ⟨fun hfit => ?_, fun hfull => ?_⟩
      · rw [Part.saleTakes_accepted hscan hfit] at hlands
        exact State.lands_works h.req hscan hfit hlands
      · rw [Part.saleTakes_refused hscan hfull] at hlands
        exact State.lands_full h.req hscan h.lows hfull hlands
    · rw [Part.sellLine_multibuy htotal hpromo hempty hg hd hrec, ← hx', Part.saleTakes_accepted hscan hfit] at hlands
      exact State.lands_works h.req hscan hfit hlands
  · intro k l back rec h hk hsome hl hlive hback hlow hhigh hrec hfit
    subst hk hback hrec
    have hlands := h.lands
    rw [Part.act_void hsale h.taken hsome hl, if_neg (by simp [hlive]), Part.voidSaleLine_inRange hlow hhigh,
      Part.saleTakes_accepted (cs := x.voidRecords _ l) hscan hfit] at hlands
    exact State.lands_works h.req hscan hfit hlands
  · intro k l back h hk hsome hl hback
    subst hk hback
    have hlands := h.lands
    rw [Part.act_void hsale h.taken hsome hl] at hlands
    refine ⟨fun hvoided => ?_, fun hlive hout => ?_⟩
    · rw [if_pos hvoided] at hlands
      exact State.lands_answers h.req h.lows hlands
    · rw [if_neg (by simp [hlive]), Part.voidSaleLine_limit hout] at hlands
      exact State.lands_answers h.req h.lows hlands
end

section
/-! PROOFS. Support for the supervisor requests: the label table in memory, and a label bound, unbound and retried (R150 to
R152). -/

open Sys2Proof
namespace Sys2Proof.Machine

/-! ### the label table in memory (R133) -/

theorem Shown.bytes_length (x : Shown) : x.bytes.length = 3 := by
  cases x <;> simp [Shown.bytes, be_length]

theorem LabelContent.bytes_length (c : LabelContent) : c.bytes.length = 12 := by
  cases c with
  | priced main unit mark => cases mark <;> simp [LabelContent.bytes, be_length, Shown.bytes_length]
  | blank => simp [LabelContent.bytes, be_length]
  | unknown => simp [LabelContent.bytes, be_length]

theorem LabelEntry.bytes_length (e : LabelEntry) : e.bytes.length = 48 := by
  have hsent : ((e.sent.map LabelContent.bytes).getD (List.replicate 12 0)).length = 12 := by
    cases e.sent <;> simp [LabelContent.bytes_length]
  simp only [LabelEntry.bytes, withCrc, crcBytes_length, be_length, LabelContent.bytes_length, hsent, List.length_append,
    List.length_cons, List.length_nil]

theorem labelAddr_le {i : Nat} (hi : i < 4096) : labelAddr i + 48 ≤ 0x400000 := by
  simp only [labelAddr, Config.labelBase, Config.labelBytes]
  omega

/-- The same bytes hold the same entries. -/
theorem Part.labelBytes_congr {p q : Part} (h : ∀ a, Mem.read q.dram a = Mem.read p.dram a) (i : Nat) :
    q.labelBytes i = p.labelBytes i :=
  Mem.readBytes_congr _ _ _ _ fun a _ _ => h a

theorem Part.labelAt_congr {p q : Part} (h : ∀ a, Mem.read q.dram a = Mem.read p.dram a) (i : Nat) :
    q.labelAt i = p.labelAt i := by
  simp [Part.labelAt, Part.labelBytes_congr h]

theorem Part.labelBytes_of_written {m : Mem} {q : Part} {i : Nat} {e : LabelEntry} (hi : i < 4096)
    (h : q.dram = Mem.writeBytes m (labelAddr i) e.bytes) :
    q.labelBytes i = e.bytes ∧ ∀ a, a < labelAddr i ∨ labelAddr i + 48 ≤ a → Mem.read q.dram a = Mem.read m a := by
  have hend := labelAddr_le hi
  have hlen := e.bytes_length
  refine ⟨?_, fun a ha => ?_⟩
  · have hread := Mem.readBytes_writeBytes m e.bytes (labelAddr i) (by simp only [hlen, Config.dramSize]; omega)
    rw [hlen] at hread
    unfold Part.labelBytes Part.read
    rw [h]
    exact hread
  · rw [h]
    exact Mem.read_writeBytes_outside m e.bytes _ a (by rwa [hlen])

/-- An entry freed reads as no entry, and no other byte has moved. -/
theorem Part.labelAt_of_wiped {m : Mem} {q : Part} {i : Nat} (h : q.dram = Mem.wipe m (labelAddr i) (labelAddr i + 48)) :
    q.labelAt i = none ∧ ∀ a, a < labelAddr i ∨ labelAddr i + 48 ≤ a → Mem.read q.dram a = Mem.read m a := by
  have hread : ∀ a, Mem.read q.dram a = if labelAddr i ≤ a ∧ a < labelAddr i + 48 then 0 else Mem.read m a := fun a => by
    rw [h, Mem.read_wipe]
  refine ⟨?_, fun a ha => (hread a).trans (if_neg (by omega))⟩
  have hzero : ∀ k, k < 3 → Mem.read q.dram (labelAddr i + k) = 0 := fun k hk => (hread _).trans (if_pos (by omega))
  have hid : fieldAt (q.labelBytes i) 0 3 = 0 := by
    have h0 := hzero 0 (by omega)
    have h1 := hzero 1 (by omega)
    have h2 := hzero 2 (by omega)
    simp only [Nat.add_zero] at h0
    simp [fieldAt, sub, Part.labelBytes, Part.read, Config.labelBytes, Mem.readBytes, beNat, h0, h1, h2]
  simp [Part.labelAt, hid]

theorem Part.findLabel_some {p : Part} {id i : Nat} {e : LabelEntry} (h : p.findLabel id = some (i, e)) :
    i < 4096 ∧ p.labelAt i = some e := by
  obtain ⟨j, hj, hfound⟩ := List.exists_of_findSome?_eq_some h
  have hin : j < 4096 := List.mem_range.mp hj
  cases hat : p.labelAt j with
  | none => simp [hat] at hfound
  | some x =>
    simp only [hat, Option.ite_none_right_eq_some, Option.some.injEq, Prod.mk.injEq] at hfound
    obtain ⟨-, rfl, rfl⟩ := hfound
    exact ⟨hin, hat⟩

theorem Part.searchLabel_some {p : Part} {id i : Nat} {e : LabelEntry} (h : p.findLabel id = some (i, e)) :
    p.searchLabel id = (some (i, e), p.loads .labelTable (labelBursts * (i + 1))) := by
  unfold Part.searchLabel
  rw [h]

theorem Part.searchLabel_none {p : Part} {id : Nat} (h : p.findLabel id = none) :
    p.searchLabel id = (none, p.loadLabels) := by
  unfold Part.searchLabel
  rw [h]

/-! ### events of the label service (R135) -/

/-- The events sent, where the pricing unit takes none of them at once. -/
def Part.notified (evs : List LabelEvent) (p : Part) : Part := p.modPrice fun x => { x with events := x.events ++ evs }

theorem Part.sendEvent_eq {p : Part} {ev : LabelEvent} (h : (p.price.events ++ [ev]).head? ≠ some .walkEnd) :
    p.sendEvent ev = p.notified [ev] := by
  simp only [Part.sendEvent, Part.modPrice_price]
  have hlen : (p.price.events ++ [ev]).length = p.price.events.length + 1 := by simp
  rw [hlen]
  simp only [Part.takeWalkEnds, Part.modPrice_price]
  split
  · next hev => exact absurd (by rw [hev]; rfl) h
  · rfl

@[simp] theorem Part.notified_frame (evs : List LabelEvent) (p : Part) :
    (p.notified evs).cfg = p.cfg ∧ (p.notified evs).branch = p.branch ∧ (p.notified evs).trunkFramer = p.trunkFramer ∧
      (p.notified evs).labelFramer = p.labelFramer ∧ (p.notified evs).guestFramer = p.guestFramer ∧
      (p.notified evs).links = p.links ∧ (p.notified evs).fwd = p.fwd ∧ (p.notified evs).call = p.call ∧
      (p.notified evs).pres = p.pres ∧ (p.notified evs).till = p.till ∧ (p.notified evs).jrn = p.jrn ∧
      (p.notified evs).lab = p.lab ∧ (p.notified evs).gst = p.gst ∧ (p.notified evs).trk = p.trk ∧
      (p.notified evs).hdr = p.hdr ∧ (p.notified evs).memCtr = p.memCtr ∧ (p.notified evs).dram = p.dram ∧
      (p.notified evs).written = p.written := by
  and_intros <;> rfl

@[simp] theorem Part.notified_price (evs : List LabelEvent) (p : Part) :
    (p.notified evs).price = { p.price with events := p.price.events ++ evs } := rfl

theorem Part.notified_notified (a b : List LabelEvent) (p : Part) : (p.notified a).notified b = p.notified (a ++ b) := by
  simp [Part.notified, Part.modPrice, List.append_assoc]

/-! ### an entry queued ROUTINE (R136) -/

/-- Entry `i` is written, and joins ROUTINE. -/
def Part.routined (i : Nat) (e : LabelEntry) (p : Part) : Part :=
  (p.putLabel i e).modLab fun l => { l with routine := l.routine ++ [i] }

@[simp] theorem Part.routined_frame (i : Nat) (e : LabelEntry) (p : Part) :
    (p.routined i e).cfg = p.cfg ∧ (p.routined i e).branch = p.branch ∧ (p.routined i e).trunkFramer = p.trunkFramer ∧
      (p.routined i e).labelFramer = p.labelFramer ∧ (p.routined i e).guestFramer = p.guestFramer ∧
      (p.routined i e).links = p.links ∧ (p.routined i e).fwd = p.fwd ∧ (p.routined i e).call = p.call ∧
      (p.routined i e).pres = p.pres ∧ (p.routined i e).price = p.price ∧ (p.routined i e).till = p.till ∧
      (p.routined i e).jrn = p.jrn ∧ (p.routined i e).gst = p.gst ∧ (p.routined i e).trk = p.trk ∧
      (p.routined i e).hdr = p.hdr ∧ (p.routined i e).memCtr = p.memCtr ∧ (p.routined i e).written = p.written := by
  simp [Part.routined]

@[simp] theorem Part.routined_dram (i : Nat) (e : LabelEntry) (p : Part) :
    (p.routined i e).dram = Mem.writeBytes p.dram (labelAddr i) e.bytes := by
  simp [Part.routined, Part.putLabel]

/-- The tallies with an entry left out, where there was one. -/
def LabelTallies.without (t : LabelTallies) (old : Option LabelEntry) : LabelTallies :=
  match old with
  | some e => t.remove e
  | none => t

theorem Part.routined_lab (i : Nat) (e : LabelEntry) (p : Part) :
    (p.routined i e).lab =
      { p.lab with routine := p.lab.routine ++ [i], tallies := (p.lab.tallies.without (p.labelAt i)).add e } := by
  simp only [Part.routined, Part.putLabel, Part.retally, Part.modLab_lab, Part.write_lab]
  rfl

/-- An entry of an item without an entry in the active bank joins ROUTINE (R136). -/
theorem Part.queueLabel_routine {p : Part} {i : Nat} {e : LabelEntry} (h : (p.find e.item).1 = .notFound) :
    p.queueLabel i e =
      (p.loads .labelContent (p.find e.item).2).routined i
        { e with state := .queued, queue := some .routine, tag := none, due := none } := by
  simp only [Part.queueLabel, Part.lookupEntry, h, Part.foundEntry]
  rfl

/-! ### an entry left behind (R150, R151) -/

theorem Part.uproot_lab (i : Nat) (e : LabelEntry) (p : Part) :
    (p.uproot i e).lab =
      { p.lab with
        window :=
          if e.state = .sent then p.lab.window.map fun o => if some o.tag = e.tag then { o with orphan := true } else o
          else p.lab.window
        urgent := if e.state = .queued then p.lab.urgent.filter fun x => decide (x ≠ i) else p.lab.urgent
        routine := if e.state = .queued then p.lab.routine.filter fun x => decide (x ≠ i) else p.lab.routine } := by
  unfold Part.uproot
  cases e.state <;> rfl

/-- "Label current" of an entry that was not CURRENT and is accounted for. -/
def Part.goneEvents (p : Part) (e : LabelEntry) : List LabelEvent :=
  if e.state ≠ .current ∧ p.accounts e = true then [LabelEvent.current e.item] else []

/-- The event of an entry left behind, where no end of a walk waits in front of it. -/
theorem Part.goneEvents_sent {p q : Part} {e : LabelEntry}
    (h : (q.price.events ++ [LabelEvent.current e.item]).head? ≠ some .walkEnd) :
    (if e.state ≠ .current ∧ p.accounts e = true then q.sendEvent (.current e.item) else q) =
      q.notified (p.goneEvents e) := by
  unfold Part.goneEvents
  split
  · exact Part.sendEvent_eq h
  · simp [Part.notified, Part.modPrice]

end Sys2Proof.Machine
end

section
/-! PROOFS. BIND, UNBIND, LABEL QUERY and LABEL RETRY (R116, R150 to R152). -/

open Sys2Proof
namespace Sys2Proof.Machine

/-! ### what the label service makes of a request (R150 to R152) -/

/-- An entry bound to an item, its content UNKNOWN, queued ROUTINE (R150). -/
def boundEntry (id item : Nat) (layout : Layout) (battery : Battery) (signal : Nat) : LabelEntry :=
  { id := id, item := item, layout := layout, state := .queued, queue := some .routine, shown := .unknown, sent := none
    tag := none, attempts := 0, due := none, battery := battery, signal := signal, walked := true }

theorem Part.find_of_kept {p q : Part} (hdram : q.dram = p.dram) (hprice : q.price = p.price) (code : Nat) :
    q.find code = p.find code :=
  Part.find_congr hdram (by rw [hprice]) (by rw [hprice]) (by rw [hprice]) code

/-- Reading the label table moves the bursts asked alone, so its entries read as before. -/
theorem Part.labelAt_of_dram {p q : Part} (h : q.dram = p.dram) (i : Nat) : q.labelAt i = p.labelAt i :=
  Part.labelAt_congr (fun a => by rw [h]) i

/-- The notices of a place bound anew, where no event waits and no order follows. -/
theorem Part.bound_notices {p q : Part} {item : Nat} {e : LabelEntry} (hevents : q.price.events = [])
    (hhead : q.lab.headUp = false) :
    (if e.state ≠ .current ∧ p.accounts e = true then (q.sendEvent (.notCurrent item)).sendEvent (.current e.item)
        else q.sendEvent (.notCurrent item)).checkOrders =
      q.notified (.notCurrent item :: p.goneEvents e) := by
  rw [Part.sendEvent_eq (p := q) (ev := .notCurrent item) (by simp [hevents]), Part.goneEvents_sent (by simp [hevents]),
    Part.notified_notified, Part.checkOrders_of_head_down (q.notified _) hhead]
  rfl

/-- The part with a new label bound to an item without an entry. -/
def Part.boundNew (i : Nat) (e : LabelEntry) (p : Part) : Part :=
  ((p.loadLabels.loads .labelContent (p.find e.item).2).routined i e).notified [.notCurrent e.item]

/-- The part with a label of the table bound anew to an item without an entry. -/
def Part.boundAnew (i : Nat) (e e' : LabelEntry) (p : Part) : Part :=
  ((((p.loads .labelTable (labelBursts * (i + 1))).uproot i e).loads .labelContent (p.find e'.item).2).routined i
    e').notified (.notCurrent e'.item :: p.goneEvents e)

section
variable {p : Part} {id i : Nat} (hevents : p.price.events = []) (hhead : p.lab.headUp = false)
include hevents hhead

/-- BIND of a label that is not in the table takes the first free place. -/
theorem Part.bindLabel_new {item : Nat} (layout : Layout) (hid : p.findLabel id = none)
    (hfree : ((List.range 4096).find? fun j => (p.labelAt j).isNone) = some i) (hitem : (p.find item).1 = .notFound) :
    p.bindLabel id item layout = (.ok, p.boundNew i (boundEntry id item layout .ok 0)) := by
  have hplaces : (fun j => (p.loadLabels.labelAt j).isNone) = fun j => (p.labelAt j).isNone :=
    funext fun j => by rw [Part.labelAt_of_dram (p := p) (by simp)]
  have hfind : p.loadLabels.find item = p.find item := Part.find_of_kept (by simp) (by simp) item
  have hslots : Config.labelSlots = 4096 := rfl
  unfold Part.bindLabel
  rw [Part.searchLabel_none hid]
  simp only [hplaces, hslots, hfree]
  rw [Part.queueLabel_routine (by rw [hfind]; exact hitem), Part.sendEvent_eq (by simp [hevents]),
    Part.checkOrders_of_head_down _ (by simp [Part.routined_lab, hhead]), hfind]
  rfl

variable {e : LabelEntry} (hid : p.findLabel id = some (i, e))
include hid

/-- BIND of a label in the table binds its place anew. -/
theorem Part.bindLabel_anew {item : Nat} (layout : Layout) (hitem : (p.find item).1 = .notFound) :
    p.bindLabel id item layout = (.ok, p.boundAnew i e (boundEntry id item layout e.battery e.signal)) := by
  have hfind : ((p.loads .labelTable (labelBursts * (i + 1))).uproot i e).find item = p.find item :=
    Part.find_of_kept (by simp) (by simp) item
  unfold Part.bindLabel
  rw [Part.searchLabel_some hid]
  simp only
  rw [Part.queueLabel_routine (by rw [hfind]; exact hitem), hfind]
  exact congrArg (Prod.mk Result.ok) (Part.bound_notices (p := p.loads .labelTable (labelBursts * (i + 1)))
    (by simpa using hevents) (by simpa [Part.routined_lab, Part.uproot_lab] using hhead))

omit hhead in
/-- UNBIND takes the entry out and frees its place. -/
theorem Part.unbindLabel_eq :
    p.unbindLabel id =
      (.ok, (((p.loads .labelTable (labelBursts * (i + 1))).uproot i e).notified (p.goneEvents e)).freeLabel i) := by
  unfold Part.unbindLabel
  rw [Part.searchLabel_some hid]
  simp only
  rw [Part.goneEvents_sent (by simp [hevents])]
  simp only [Part.goneEvents, Part.accounts, Part.loads_lab]
  rfl

omit hevents in
/-- LABEL RETRY of an UNREACHABLE label of an item without an entry. -/
theorem Part.retryLabel_unreachable (hstate : e.state = .unreachable) (hitem : (p.find e.item).1 = .notFound) :
    p.retryLabel id =
      (.ok, ((p.loads .labelTable (labelBursts * (i + 1))).loads .labelContent (p.find e.item).2).routined i
        { e with state := .queued, queue := some .routine, tag := none, due := none, attempts := 0 }) := by
  have hfind : (p.loads .labelTable (labelBursts * (i + 1))).find e.item = p.find e.item :=
    Part.find_of_kept (by simp) (by simp) e.item
  unfold Part.retryLabel
  rw [Part.searchLabel_some hid]
  simp only [hstate, if_true]
  rw [Part.queueAndCheck, Part.queueLabel_routine (by simpa [hfind] using hitem)]
  simp only [hfind]
  rw [Part.checkOrders_of_head_down _ (by simp [Part.routined_lab, hhead])]

omit hevents hhead in
theorem Part.retryLabel_other (hstate : e.state ≠ .unreachable) :
    p.retryLabel id = (.wrongState, p.loads .labelTable (labelBursts * (i + 1))) := by
  unfold Part.retryLabel
  rw [Part.searchLabel_some hid]
  exact if_neg hstate
end

theorem Part.unbindLabel_none {p : Part} {id : Nat} (h : p.findLabel id = none) :
    p.unbindLabel id = (.notFound, p.loadLabels) := by
  unfold Part.unbindLabel
  rw [Part.searchLabel_none h]

theorem Part.retryLabel_none {p : Part} {id : Nat} (h : p.findLabel id = none) :
    p.retryLabel id = (.notFound, p.loadLabels) := by
  unfold Part.retryLabel
  rw [Part.searchLabel_none h]

/-! ### the supervisor requests of a port (R105, R116) -/

section
variable {s : State} {n : PortNo} {r : TillRequest} {k : TillKind}

/-- A supervisor request that passes its checks while the label service takes requests. -/
theorem Part.executeLabel_ready {p : Part} (h : p.takenIs n r k) (hpass : p.tillRefusal n k = none) {fits : Bytes → Bool}
    (f : Bytes → Part → Part) (hfits : fits r.body = true) (hready : p.labelsReady = true) :
    p.executeLabel n k fits f = f r.body p := by
  rw [Part.executeLabel_taken h, Part.executeRequest_passes h _ hpass]
  simp only [hfits, Bool.true_eq_false, if_false, hready, if_true]

/-- One that passes its checks before then is handed over, and waits. -/
theorem Part.executeLabel_waits {p : Part} (h : p.takenIs n r k) (hpass : p.tillRefusal n k = none) {fits : Bytes → Bool}
    (f : Bytes → Part → Part) (hfits : fits r.body = true) (hready : p.labelsReady = false) :
    p.executeLabel n k fits f =
      p.portNow n { p.port n with req := some { r with work := .handed } } p.till.ctr := by
  rw [Part.executeLabel_taken h, Part.executeRequest_passes h _ hpass]
  simp only [hfits, hready, Bool.true_eq_false, Bool.false_eq_true, if_false, Part.modPort_eq, h.1, Option.map_some]

/-- One that waited is worked without being checked again. -/
theorem Part.executeLabel_handed {p : Part} (hreq : (p.port n).req = some r) (hkind : TillKind.ofCode r.kind.toNat = some k)
    (hwork : r.work = .handed) (fits : Bytes → Bool) (f : Bytes → Part → Part) (hready : p.labelsReady = true) :
    p.executeLabel n k fits f = f r.body p := by
  simp [Part.executeLabel, Part.handedBody, hreq, hkind, hwork, hready]

section
variable {p : Part} {id : Nat}
  (hworked : ∀ f, p.executeLabel n .query (fun b => labelIdFits (labelIdOf b)) f = f r.body p)
include hworked

/-- What a LABEL QUERY answers once it is worked: the entry of a label in the table. -/
theorem Part.tillQuery_known {i : Nat} {e : LabelEntry} (h : p.findLabel (fieldAt r.body 0 3) = some (i, e)) :
    p.tillQuery n = (p.loads .labelTable (labelBursts * (i + 1))).reply n .ok false false e.queryBody := by
  unfold Part.tillQuery
  rw [hworked, labelIdOf, Part.searchLabel_some h]

theorem Part.tillQuery_unknown (h : p.findLabel (fieldAt r.body 0 3) = none) :
    p.tillQuery n = p.loadLabels.refuse n .notFound := by
  unfold Part.tillQuery
  rw [hworked, labelIdOf, Part.searchLabel_none h]
end

/-- A supervisor request passes the checks of R104: the port has the mark and no sale, and the level serves it. -/
def State.supervised (n : PortNo) (s : State) : Prop :=
  s.part.supervisor n = true ∧ s.part.serving ≠ .none ∧ (s.part.port n).sale = none

variable (hsup : s.supervised n)
include hsup

theorem State.supervised.passes (hk : k ∈ [TillKind.bind, .unbind, .query, .retry]) : s.part.tillRefusal n k = none :=
  Part.tillRefusal_label hsup.2.2 hk hsup.1 hsup.2.1

variable (hready : s.part.labelsReady = true)
include hready

theorem State.lands_bind (h : s.asked n r .bind) (hfits : bindFits r.body = true) {layout : Layout}
    (hlayout : Layout.ofCode (fieldAt r.body 9 1) = some layout) {res : Result} {q : Part}
    (hbind : s.part.bindLabel (fieldAt r.body 0 3) (fieldAt r.body 3 6) layout = (res, q)) :
    s.lands (.bind n) (q.reply n res false false []) := by
  have hlands := h.lands
  simp only [TillKind.act, Part.tillBind,
    Part.executeLabel_ready h.taken (hsup.passes (by decide)) _ hfits hready, hlayout, Option.getD_some, labelIdOf, hbind]
    at hlands
  exact hlands

variable (hfits : 1 ≤ fieldAt r.body 0 3 ∧ fieldAt r.body 0 3 ≤ 16777214)
include hfits

theorem State.lands_unbind (h : s.asked n r .unbind) {res : Result} {q : Part}
    (hunbind : s.part.unbindLabel (fieldAt r.body 0 3) = (res, q)) :
    s.lands (.unbind n) (q.reply n res false false []) := by
  have hlands := h.lands
  simp only [TillKind.act, Part.tillUnbind] at hlands
  rw [Part.executeLabel_ready (fits := fun b => labelIdFits (labelIdOf b)) h.taken (hsup.passes (by decide)) _
    ((labelIdFits_iff _).mpr hfits) hready] at hlands
  simp only [labelIdOf, hunbind] at hlands
  exact hlands

theorem State.lands_retry (h : s.asked n r .retry) {res : Result} {q : Part}
    (hretry : s.part.retryLabel (fieldAt r.body 0 3) = (res, q)) :
    s.lands (.labelRetry n) (q.reply n res false false []) := by
  have hlands := h.lands
  simp only [TillKind.act, Part.tillRetry] at hlands
  rw [Part.executeLabel_ready (fits := fun b => labelIdFits (labelIdOf b)) h.taken (hsup.passes (by decide)) _
    ((labelIdFits_iff _).mpr hfits) hready] at hlands
  simp only [labelIdOf, hretry] at hlands
  exact hlands

theorem State.query_worked (h : s.asked n r .query) (f : Bytes → Part → Part) :
    s.part.executeLabel n .query (fun b => labelIdFits (labelIdOf b)) f = f r.body s.part :=
  Part.executeLabel_ready h.taken (hsup.passes (by decide)) f ((labelIdFits_iff _).mpr hfits) hready
end

/-! ### the answers that leave the label table as it was -/

/-- A reply after nothing but reads of the label table. -/
theorem State.lands_reply_of_read {s : State} {c : Instr} {n : PortNo} {r : TillRequest} {u : BurstUser} {m : Nat}
    {res : Result} {body : Bytes} (hreq : (s.part.port n).req = some r) (hlows : (s.part.port n).lows = [])
    (h : s.lands c ((s.part.loads u m).reply n res false false body)) :
    ∃ t, exec c s = .next t ∧ s.answers n r res false body t ∧ Unchanged [.till] s t := by
  obtain ⟨t, hexec, hanswer, -, hsame⟩ := State.lands_reply hreq hlows (by simp) (by simp) (by simp) h
  refine ⟨t, hexec, hanswer, hsame.from_part (by simp) fun b hb => ?_⟩
  cases b <;> simp [Piece.same] at hb ⊢

/-! ### the answers that change the label table -/

/-- An entry that a part has written, in the state a command leaves with it. -/
theorem State.label_written {s t : State} {q : Part} {i : Nat} {e : LabelEntry} (hi : i < 4096)
    (hsame : Unchanged [.till] { s with part := q } t)
    (hdram : q.dram = Mem.writeBytes s.part.dram (labelAddr i) e.bytes) :
    t.part.labelBytes i = e.bytes ∧
      ∀ a, a < labelAddr i ∨ labelAddr i + 48 ≤ a → Mem.read t.part.dram a = Mem.read s.part.dram a := by
  obtain ⟨hbytes, hothers⟩ := Part.labelBytes_of_written hi hdram
  have hmem : ∀ a, Mem.read t.part.dram a = Mem.read q.dram a := hsame .memory (by decide)
  exact ⟨(Part.labelBytes_congr hmem i).trans hbytes, fun a ha => (hmem a).trans (hothers a ha)⟩

section
variable {s : State} {n : PortNo} {r : TillRequest} (hsup : s.supervised n) (hready : s.part.labelsReady = true)
  (hhead : s.part.lab.headUp = false) (hfits : 1 ≤ fieldAt r.body 0 3 ∧ fieldAt r.body 0 3 ≤ 16777214)
include hsup hready hhead hfits

theorem State.bind_new {item i : Nat} {layout : Layout} (h : s.asked n r .bind)
    (hid : s.part.findLabel (fieldAt r.body 0 3) = none) (hitem : item = fieldAt r.body 3 6) (hlow : 1 ≤ item)
    (hhigh : item ≤ 99999999999999) (hlayout : Layout.ofCode (fieldAt r.body 9 1) = some layout)
    (hfree : ((List.range 4096).find? fun j => (s.part.labelAt j).isNone) = some i)
    (hnoEntry : (s.part.find item).1 = .notFound) (hevents : s.part.price.events = []) :
    ∃ t, exec (.bind n) s = .next t ∧ s.answers n r .ok false [] t ∧
      t.part.lab =
        { s.part.lab with
          routine := s.part.lab.routine ++ [i]
          tallies := s.part.lab.tallies.add (boundEntry (fieldAt r.body 0 3) item layout .ok 0) } ∧
      t.part.price = { s.part.price with events := [.notCurrent item] } ∧
      t.part.labelBytes i = (boundEntry (fieldAt r.body 0 3) item layout .ok 0).bytes ∧
      (∀ a, a < labelAddr i ∨ labelAddr i + 48 ≤ a → Mem.read t.part.dram a = Mem.read s.part.dram a) ∧
      Unchanged [.till, .lab, .price, .memory] s t := by
  have hi : i < 4096 := List.mem_range.mp (List.mem_of_find?_eq_some hfree)
  have hnone : s.part.labelAt i = none := by simpa using List.find?_some hfree
  have hbody : bindFits r.body = true :=
    (bindFits_iff _).mpr ⟨hfits, hitem ▸ ⟨hlow, hhigh⟩, (Layout.ofCode_isSome _).mp (by rw [hlayout]; rfl)⟩
  have hlands := State.lands_bind hsup hready h hbody hlayout
    (Part.bindLabel_new hevents hhead layout hid hfree (hitem ▸ hnoEntry))
  rw [← hitem] at hlands
  obtain ⟨t, hexec, hanswer, -, hsame⟩ := State.lands_reply h.req h.lows (by simp [Part.boundNew]) (by simp [Part.boundNew])
    (by simp [Part.boundNew]) hlands
  obtain ⟨hbytes, hothers⟩ := State.label_written
    (e := boundEntry (fieldAt r.body 0 3) item layout .ok 0) hi hsame (by simp [Part.boundNew])
  refine ⟨t, hexec, hanswer, (hsame .lab (by decide)).trans ?_, (hsame .price (by decide)).trans ?_, hbytes, hothers,
    hsame.from_part (by simp) fun b hb => ?_⟩
  · simp [Part.boundNew, Part.routined_lab, Part.labelAt_of_dram (p := s.part), hnone, LabelTallies.without]
  · simp [Part.boundNew, hevents, boundEntry]
  · cases b <;> simp [Piece.same, Part.boundNew] at hb ⊢

variable {i : Nat} {e : LabelEntry} (hid : s.part.findLabel (fieldAt r.body 0 3) = some (i, e))
include hid

theorem State.bind_anew {item : Nat} {layout : Layout} (h : s.asked n r .bind) (hitem : item = fieldAt r.body 3 6)
    (hlow : 1 ≤ item) (hhigh : item ≤ 99999999999999) (hlayout : Layout.ofCode (fieldAt r.body 9 1) = some layout)
    (hnoEntry : (s.part.find item).1 = .notFound) (hevents : s.part.price.events = []) :
    ∃ t, exec (.bind n) s = .next t ∧ s.answers n r .ok false [] t ∧
      t.part.lab =
        { (s.part.uproot i e).lab with
          routine := (s.part.uproot i e).lab.routine ++ [i]
          tallies :=
            (s.part.lab.tallies.remove e).add (boundEntry (fieldAt r.body 0 3) item layout e.battery e.signal) } ∧
      t.part.price = { s.part.price with events := .notCurrent item :: s.part.goneEvents e } ∧
      t.part.labelBytes i = (boundEntry (fieldAt r.body 0 3) item layout e.battery e.signal).bytes ∧
      (∀ a, a < labelAddr i ∨ labelAddr i + 48 ≤ a → Mem.read t.part.dram a = Mem.read s.part.dram a) ∧
      Unchanged [.till, .lab, .price, .memory] s t := by
  obtain ⟨hi, hat⟩ := Part.findLabel_some hid
  have hbody : bindFits r.body = true :=
    (bindFits_iff _).mpr ⟨hfits, hitem ▸ ⟨hlow, hhigh⟩, (Layout.ofCode_isSome _).mp (by rw [hlayout]; rfl)⟩
  have hlands := State.lands_bind hsup hready h hbody hlayout
    (Part.bindLabel_anew hevents hhead hid layout (hitem ▸ hnoEntry))
  rw [← hitem] at hlands
  obtain ⟨t, hexec, hanswer, -, hsame⟩ := State.lands_reply h.req h.lows (by simp [Part.boundAnew])
    (by simp [Part.boundAnew]) (by simp [Part.boundAnew]) hlands
  obtain ⟨hbytes, hothers⟩ := State.label_written
    (e := boundEntry (fieldAt r.body 0 3) item layout e.battery e.signal) hi hsame (by simp [Part.boundAnew])
  refine ⟨t, hexec, hanswer, (hsame .lab (by decide)).trans ?_, (hsame .price (by decide)).trans ?_, hbytes, hothers,
    hsame.from_part (by simp) fun b hb => ?_⟩
  · simp [Part.boundAnew, Part.routined_lab, Part.labelAt_of_dram (p := s.part), hat, LabelTallies.without, Part.uproot_lab]
  · simp [Part.boundAnew, hevents, boundEntry]
  · cases b <;> simp [Piece.same, Part.boundAnew] at hb ⊢

omit hhead in
theorem State.unbind_frees (h : s.asked n r .unbind) (hevents : s.part.price.events = []) :
    ∃ t, exec (.unbind n) s = .next t ∧ s.answers n r .ok false [] t ∧ t.part.labelAt i = none ∧
      t.part.lab = { (s.part.uproot i e).lab with tallies := s.part.lab.tallies.remove e } ∧
      t.part.price = { s.part.price with events := s.part.goneEvents e } ∧
      (∀ a, a < labelAddr i ∨ labelAddr i + 48 ≤ a → Mem.read t.part.dram a = Mem.read s.part.dram a) ∧
      Unchanged [.till, .lab, .price, .memory] s t := by
  obtain ⟨hi, hat⟩ := Part.findLabel_some hid
  obtain ⟨t, hexec, hanswer, -, hsame⟩ := State.lands_reply h.req h.lows (by simp) (by simp) (by simp)
    (State.lands_unbind hsup hready hfits h (Part.unbindLabel_eq hevents hid))
  have hmem := hsame .memory (by decide)
  obtain ⟨hfreed, hothers⟩ := Part.labelAt_of_wiped (m := s.part.dram) (i := i)
    (q := (((s.part.loads .labelTable (labelBursts * (i + 1))).uproot i e).notified (s.part.goneEvents e)).freeLabel i)
    (by simp [Part.freeLabel, Part.wipeLabel, Config.labelBytes])
  refine ⟨t, hexec, hanswer, (Part.labelAt_congr hmem i).trans hfreed, (hsame .lab (by decide)).trans ?_,
    (hsame .price (by decide)).trans ?_, fun a ha => (hmem a).trans (hothers a ha), hsame.from_part (by simp) fun b hb => ?_⟩
  · simp [Part.freeLabel, Part.wipeLabel, Part.retally, Part.labelAt_of_dram (p := s.part), hat, Part.uproot_lab]
  · simp [hevents]
  · cases b <;> simp [Piece.same] at hb ⊢

theorem State.retry_queues (h : s.asked n r .retry) (hstate : e.state = .unreachable)
    (hnoEntry : (s.part.find e.item).1 = .notFound) :
    ∃ t, exec (.labelRetry n) s = .next t ∧ s.answers n r .ok false [] t ∧
      t.part.lab =
        { s.part.lab with
          routine := s.part.lab.routine ++ [i], tallies := (s.part.lab.tallies.remove e).add { e with state := .queued } } ∧
      t.part.labelBytes i =
        ({ e with state := .queued, queue := some .routine, tag := none, due := none, attempts := 0 } : LabelEntry).bytes ∧
      (∀ a, a < labelAddr i ∨ labelAddr i + 48 ≤ a → Mem.read t.part.dram a = Mem.read s.part.dram a) ∧
      Unchanged [.till, .lab, .memory] s t := by
  obtain ⟨hi, hat⟩ := Part.findLabel_some hid
  obtain ⟨t, hexec, hanswer, -, hsame⟩ := State.lands_reply h.req h.lows (by simp) (by simp) (by simp)
    (State.lands_retry hsup hready hfits h (Part.retryLabel_unreachable hhead hid hstate hnoEntry))
  obtain ⟨hbytes, hothers⟩ := State.label_written
    (e := { e with state := .queued, queue := some .routine, tag := none, due := none, attempts := 0 }) hi hsame (by simp)
  refine ⟨t, hexec, hanswer, (hsame .lab (by decide)).trans ?_, hbytes, hothers, hsame.from_part (by simp) fun b hb => ?_⟩
  · simp [Part.routined_lab, Part.labelAt_of_dram (p := s.part), hat, LabelTallies.without, LabelTallies.add]
  · cases b <;> simp [Piece.same] at hb ⊢
end

end Sys2Proof.Machine

open Sys2Proof.Machine

/-- Settles O46: each supervisor request by what the label service makes of it, and the one that has to wait for it. -/
theorem supervisorRequestsReachTheLabels : Obligations.SupervisorRequestsReachTheLabels := by
  refine ⟨fun s n r id hport hserved hsale hready hhead hid hlow hhigh => ?_, fun s n r id hid hlow hhigh => ?_⟩
  · subst hid
    have hsup : s.supervised n := ⟨hport, hserved, hsale⟩
    have hfits := And.intro hlow hhigh
    refine ⟨?_, fun i e w u v gone hfound hevents hw hu hv hgone => ⟨?_, fun h => ?_⟩, fun i e body h hfound hbody => ?_,
      fun i e h hfound => ⟨fun hstate hnoEntry => ?_, fun hstate => ?_⟩, fun hnone => ⟨fun h => ?_, fun h => ?_, fun h => ?_⟩⟩
    · intro item l i e h hnew hitem hitemLow hitemHigh hl hfree hnoEntry hevents he
      subst he
      exact State.bind_new hsup hready hhead hfits h hnew hitem hitemLow hitemHigh hl hfree hnoEntry hevents
    · intro item l e' h hitem hitemLow hitemHigh hl hnoEntry he'
      subst hw hu hv hgone he'
      have hbound := State.bind_anew hsup hready hhead hfits hfound h hitem hitemLow hitemHigh hl hnoEntry hevents
      rwa [Part.uproot_lab] at hbound
    · subst hw hu hv hgone
      have hfreed := State.unbind_frees hsup hready hfits hfound h hevents
      rwa [Part.uproot_lab] at hfreed
    · subst hbody
      have hlands := h.lands
      rw [TillKind.act, Part.tillQuery_known (State.query_worked hsup hready hfits h) hfound] at hlands
      exact State.lands_reply_of_read h.req h.lows hlands
    · exact State.retry_queues hsup hready hhead hfits hfound h hstate hnoEntry
    · exact State.lands_reply_of_read h.req h.lows
        (State.lands_retry hsup hready hfits h (Part.retryLabel_other hfound hstate))
    · exact State.lands_reply_of_read h.req h.lows (State.lands_unbind hsup hready hfits h (Part.unbindLabel_none hnone))
    · have hlands := h.lands
      rw [TillKind.act, Part.tillQuery_unknown (State.query_worked hsup hready hfits h) hnone] at hlands
      exact State.lands_reply_of_read h.req h.lows hlands
    · exact State.lands_reply_of_read h.req h.lows (State.lands_retry hsup hready hfits h (Part.retryLabel_none hnone))
  · subst hid
    refine ⟨fun k c hkc h hport hserved hsale hbind hready => ?_,
      fun i e body hev hreq hkind hwork hlows hready hfound hbody => ?_⟩
    · have hpass := State.supervised.passes (k := k) ⟨hport, hserved, hsale⟩
      have hid := (labelIdFits_iff _).mpr ⟨hlow, hhigh⟩
      have hlands := h.lands
      simp only [List.mem_cons, Prod.mk.injEq, List.not_mem_nil, or_false] at hkc
      rcases hkc with ⟨rfl, rfl⟩ | ⟨rfl, rfl⟩ | ⟨rfl, rfl⟩ | ⟨rfl, rfl⟩
      · obtain ⟨hitemLow, hitemHigh, hlayout⟩ := hbind rfl
        simp only [TillKind.act, Part.tillBind, Part.executeLabel_waits h.taken (hpass (by decide)) _
          ((bindFits_iff _).mpr ⟨⟨hlow, hhigh⟩, ⟨hitemLow, hitemHigh⟩, hlayout⟩) hready] at hlands
        exact State.lands_port hlands
      all_goals
        simp only [TillKind.act, Part.tillUnbind, Part.tillQuery, Part.tillRetry,
          Part.executeLabel_waits (fits := fun b => labelIdFits (labelIdOf b)) h.taken (hpass (by decide)) _ hid hready]
          at hlands
        exact State.lands_port hlands
    · subst hbody
      have hlands := State.lands_of_run (exec_command .query n) hev
      rw [TillKind.act, Part.tillQuery_known (fun f => Part.executeLabel_handed hreq hkind hwork _ f hready) hfound] at hlands
      exact State.lands_reply_of_read hreq hlows hlands
end

section
/-! PROOFS. An append decided, and the end of the warm-start scan (R42, R43, R120, R130, R131). -/

open Sys2Proof
namespace Sys2Proof.Machine

theorem exec_journalScanStop (s : State) : exec .journalScanStop s = s.run Part.scanStop := rfl
theorem exec_journalScanComplete (s : State) : exec .journalScanComplete s = s.run Part.scanComplete := rfl

/-! ### an append decided (R120) -/

theorem Part.appendNow_accepted {p : Part} (r : Requester) (till : Nat) {cs : List Content} (h : p.jrn.accepts cs = true) :
    (p.appendNow r till cs).1 = some p.jrn.next ∧ (p.appendNow r till cs).2.jrn = p.jrn.appended p.pres.clock r till cs := by
  unfold Part.appendNow
  rw [if_pos h]
  refine ⟨rfl, ?_⟩
  dsimp only
  split <;> rfl

theorem Part.appendNow_refused {p : Part} (r : Requester) (till : Nat) {cs : List Content} (h : p.jrn.accepts cs = false) :
    p.appendNow r till cs = (none, p.countJrn r.refusedCount) := by
  simp [Part.appendNow, h]

/-- A command that lands in a part whose journal alone differs. -/
theorem State.lands_jrn {s : State} {c : Instr} {r : Part} (h : s.lands c r)
    (hr : ∀ b, b ∉ [Piece.jrn] → b.same s { s with part := r }) :
    ∃ t, exec c s = .next t ∧ t.part.jrn = r.jrn ∧ Unchanged [.jrn] s t := by
  obtain ⟨t, hexec, hsame, -⟩ := h
  exact ⟨t, hexec, hsame .jrn List.not_mem_nil, hsame.after hr⟩

/-! ### the scan stopped (R130, R131) -/

/-- The journal once the scan has stopped at a failing slot, before any abandon is written. -/
def Journal.scanStopped (sc : Scan) (j : Journal) : Journal :=
  { j with
    next := sc.e, commit := sc.e, exhausted := decide (sc.e = Config.sequenceMax), lastScan := sc.read
    scan := some { sc with stage := .abandoning, marks := [], aside := [] }
    ctr := { j.ctr with scanEnds := bump j.ctr.scanEnds } }

/-- The record that abandons a sale left open (R131). -/
def SaleMark.abandonRecord (m : SaleMark) : Content := .saleAbandon m.sale .power m.running.toNat m.tenders m.fromOpen

theorem Part.scanStop_failed {p : Part} {sc : Scan} (hscan : p.jrn.scan = some sc) (hfailed : sc.stage = .failed)
    (haside : sc.aside = []) :
    p.scanStop = ((List.range 8).filterMap sc.mark).foldl (fun q m => q.powerAbandon m) (p.modJrn (Journal.scanStopped sc)) := by
  simp only [Part.scanStop, hscan, hfailed, haside, if_true, List.nil_append]
  rfl

theorem Scan.marks_of_none {sc : Scan} (h : sc.marks = []) : (List.range 8).filterMap sc.mark = [] := by
  simp [Scan.mark, h]

/-- A single mark is met once, at its own port. -/
theorem Scan.marks_of_one {sc : Scan} {m : SaleMark} (h : sc.marks = [m]) (hport : m.port < 8) :
    (List.range 8).filterMap sc.mark = [m] := by
  have hmark (i : Nat) : sc.mark i = if m.port = i then some m else none := by
    by_cases hi : m.port = i <;> simp [Scan.mark, h, hi]
  rw [funext hmark]
  generalize m.port = n at hport
  interval_cases n <;> rfl

theorem Part.powerAbandon_accepted {p : Part} {m : SaleMark} (h : p.jrn.accepts [m.abandonRecord] = true) :
    (p.powerAbandon m).jrn =
      { p.jrn.appended p.pres.clock .scan m.port [m.abandonRecord] with
        ctr := { p.jrn.ctr with powerWritten := bump p.jrn.ctr.powerWritten } } := by
  obtain ⟨hfirst, hjrn⟩ := Part.appendNow_accepted .scan m.port h
  have happend : p.appendNow .scan m.port [m.abandonRecord] = (some p.jrn.next, (p.appendNow .scan m.port [m.abandonRecord]).2) :=
    Prod.ext hfirst rfl
  unfold SaleMark.abandonRecord at *
  simp only [Part.powerAbandon]
  rw [happend]
  simp [hjrn, Journal.appended]

/-- With a slot free and a sequence left the stopped scan's journal takes one abandon (R121, R122). -/
theorem Journal.scanStopped_accepts {j : Journal} {sc : Scan} (m : SaleMark) (hleft : sc.e + 1 ≤ Config.sequenceMax)
    (hfree : sc.e - 1 - j.release < Config.ringSlots) : (j.scanStopped sc).accepts [m.abandonRecord] = true := by
  have hslot : 1 ≤ Config.ringSlots - (sc.e - 1 - j.release) := by omega
  have hmore : sc.e ≠ Config.sequenceMax := by omega
  simp [Journal.accepts, allFit, SaleMark.abandonRecord, Content.fits, Journal.scanStopped, Journal.free, Journal.occupied, hslot,
    hmore, hleft]

/-! ### the scan complete (R42, R43, R130) -/

/-- Where the conditions of R139 do not hold, the check for orders does nothing. -/
theorem Part.checkOrders_of_not_go {p : Part} (h : p.ordersGo = false) : p.checkOrders = p := by
  unfold Part.checkOrders
  cases p.lab.urgent.length + p.lab.routine.length with
  | zero => rfl
  | succ n => simp [Part.takeOrders, h]

/-- LISTEN or LINE FAULT after a warm start: the warm-start walk begins, and no other block has anything to take (R149). -/
theorem Part.setJoining_warm {p : Part} {j : Joining} (hwarm : p.lab.warm = .due) (hj : j = .listen ∨ j = .lineFault) :
    p.setJoining j = (p.modPres fun x => { x with joining := j }).modLab fun l => { l with warm := .pass } := by
  have hnight : j.nightExchange = false := by rcases hj with rfl | rfl <;> rfl
  simp only [Part.setJoining, Part.modPres_lab, hwarm, hj, and_self, if_true]
  rw [Part.checkOrders_of_not_go (by simp [Part.ordersGo]), Part.claimCheck_of_no_night _ (by simpa using hnight)]

theorem Part.enterListen_warm {p : Part} (hwarm : p.lab.warm = .due) :
    p.enterListen =
      (p.modPres fun x =>
        if x.lineFault = true then { x with joining := .lineFault }
        else { x with joining := .listen, listenTimer := true }).modLab fun l => { l with warm := .pass } := by
  unfold Part.enterListen
  by_cases hfault : p.pres.lineFault = true
  · rw [if_pos hfault, Part.setJoining_warm hwarm (.inr rfl)]
    simp [Part.modPres, hfault]
  · rw [if_neg hfault, Part.setJoining_warm (by simpa using hwarm) (.inl rfl)]
    simp [Part.modPres, hfault]

theorem Part.scanComplete_eq {p : Part} {sc : Scan} (hscan : p.jrn.scan = some sc) (hstage : sc.stage = .abandoning)
    (hnone : ∀ a ∈ p.jrn.appends, a.requester ≠ .scan) (hwait : p.jrn.waiting = []) (hj : p.pres.joining = .journalScan) :
    p.scanComplete = (p.modJrn fun j => { j with scan := none }).enterListen := by
  have hover : (p.jrn.appends.any fun a => decide (a.requester = .scan)) = false := by simpa using hnone
  simp only [Part.scanComplete, hscan, hstage, hover, and_self, if_true, hwait, List.foldl_nil, Part.modJrn_pres, hj]
  simp [Part.modJrn, hwait]

end Sys2Proof.Machine

open Sys2Proof.Machine

/-- Settles O25: the stop with no mark and with one, and the end of the scan. -/
theorem scanStopsAndCompletes : Obligations.ScanStopsAndCompletes := by
  refine fun s sc hev hscan => ⟨fun hfailed haside => ?_, fun hstage hnone hwait hj hwarm => ?_⟩
  · have hstop := Part.scanStop_failed hscan hfailed haside
    obtain ⟨t, hexec, hjrn, hsame⟩ := State.lands_jrn (State.lands_of_run exec_journalScanStop hev) fun b hb => by
      cases b <;> simp [Piece.same] at hb ⊢
    refine ⟨fun hmarks => ⟨t, hexec, ?_, hsame⟩, fun m hmarks hport hleft hfree => ⟨t, hexec, ?_, hsame⟩⟩
    · rw [hjrn, hstop, Scan.marks_of_none hmarks]
      rfl
    · rw [hjrn, hstop, Scan.marks_of_one hmarks hport, List.foldl_cons, List.foldl_nil,
        Part.powerAbandon_accepted (p := s.part.modJrn (Journal.scanStopped sc)) (Journal.scanStopped_accepts m hleft hfree)]
      rfl
  · have hlands := State.lands_of_run exec_journalScanComplete hev
    rw [Part.scanComplete_eq hscan hstage hnone hwait hj,
      Part.enterListen_warm (p := s.part.modJrn fun j => { j with scan := none }) hwarm] at hlands
    obtain ⟨t, hexec, hsame, -⟩ := hlands
    exact ⟨t, hexec, hsame .jrn List.not_mem_nil, hsame .lab List.not_mem_nil, hsame .pres List.not_mem_nil,
      hsame.after fun b hb => by cases b <;> simp [Piece.same] at hb ⊢⟩
end

section
/-! PROOFS. Releases taken, ignored, and made good by the store header (R128, R129, R192). -/

open Sys2Proof
namespace Sys2Proof.Machine

theorem exec_releaseReceived (s : State) : exec .releaseReceived s = s.run Part.releaseFrame := rfl

/-! ### the header write for a pending release (R129, R192) -/

section
variable {p : Part} {q : Nat} (hpending : p.jrn.pending = some q)
include hpending

/-- With no header write in flight, one for the pending release is asked. -/
theorem Part.writeRelease_asks (h : p.hdr.inFlight = none) :
    p.writeRelease = p.askHeader .journal fun x => { x with release := q } := by
  simp [Part.writeRelease, hpending, HeaderUnit.carriesRelease, h]

/-- A header write for the journal in flight is waited for. -/
theorem Part.writeRelease_waits {h : HeaderCopy} {users : List HeaderUser} (hfly : p.hdr.inFlight = some (h, users))
    (hin : HeaderUser.journal ∈ users) : p.writeRelease = p := by
  simp [Part.writeRelease, hpending, HeaderUnit.carriesRelease, hfly, hin]

/-- Behind a header write for others only, the release joins the copy and the journal waits for the further write. -/
theorem Part.writeRelease_joins {h : HeaderCopy} {users : List HeaderUser} (hfly : p.hdr.inFlight = some (h, users))
    (hout : HeaderUser.journal ∉ users) :
    p.writeRelease.hdr =
      { p.hdr with
        copy := { p.hdr.copy with release := q }
        waiting := if HeaderUser.journal ∈ p.hdr.waiting then p.hdr.waiting else p.hdr.waiting ++ [.journal] } := by
  simp [Part.writeRelease, hpending, HeaderUnit.carriesRelease, hfly, hout, Part.askHeader, Part.modHdr]
end

/-! ### a RELEASE frame (R128, R129) -/

/-- The journal with this release taken as pending. -/
def Journal.releaseTaken (q : Nat) (j : Journal) : Journal :=
  { j with pending := some q, ctr := { j.ctr with releasesTaken := bump j.ctr.releasesTaken } }

/-- The journal with a release ignored. -/
def Journal.releaseIgnored (j : Journal) : Journal :=
  { j with ctr := { j.ctr with releasesIgnored := bump j.ctr.releasesIgnored } }

section
variable {p : Part} {it : RxItem} {b : BranchBody} (hframe : p.branchFrame .journal kindRelease = some (it, b))
include hframe

theorem Part.releaseFrame_taken (hlen : b.payload.length = 6)
    (hholder : p.trk.holderFor (fieldAt b.payload 0 2) = some it.station)
    (hjoin : p.pres.joining ≠ .duplicate) (habove : p.jrn.pending.getD p.jrn.release < fieldAt b.payload 2 4)
    (hbelow : fieldAt b.payload 2 4 < p.jrn.next) :
    p.releaseFrame = ((p.consume it).modJrn (Journal.releaseTaken (fieldAt b.payload 2 4))).writeRelease := by
  simp [Part.releaseFrame, hframe, hlen, releaseLength, hholder, hjoin, Part.release, Journal.highestTaken, habove, hbelow]
  rfl

/-- A release of another station than the holder, one heard in DUPLICATE, and one at or below the highest taken or not below the
next sequence. -/
theorem Part.releaseFrame_ignored
    (h : p.trk.holderFor (fieldAt b.payload 0 2) ≠ some it.station ∨ p.pres.joining = .duplicate ∨
      fieldAt b.payload 2 4 ≤ p.jrn.pending.getD p.jrn.release ∨ p.jrn.next ≤ fieldAt b.payload 2 4) :
    p.releaseFrame = (p.consume it).modJrn Journal.releaseIgnored := by
  simp only [Part.releaseFrame, hframe]
  split
  · next hgood =>
    have hout : ¬ ((p.consume it).jrn.highestTaken < fieldAt b.payload 2 4 ∧
        fieldAt b.payload 2 4 < (p.consume it).jrn.next) := by
      obtain ⟨-, hjoin, hholder⟩ := hgood
      rcases h with h | h | h
      · exact absurd hholder h
      · exact absurd h hjoin
      · simp only [Part.consume_frame, Journal.highestTaken]
        omega
    rw [Part.release, if_neg hout]
    rfl
  · rfl
end

section
variable {s : State} {it : RxItem} {b : BranchBody} (hev : s.supply.takesEvents = true)
  (hframe : s.part.branchFrame .journal kindRelease = some (it, b))
include hev hframe

theorem State.release_ignored
    (h : s.part.trk.holderFor (fieldAt b.payload 0 2) ≠ some it.station ∨ s.part.pres.joining = .duplicate ∨
      fieldAt b.payload 2 4 ≤ s.part.jrn.pending.getD s.part.jrn.release ∨ s.part.jrn.next ≤ fieldAt b.payload 2 4) :
    ∃ t, exec .releaseReceived s = .next t ∧
      t.part.jrn =
        { s.part.jrn with ctr := { s.part.jrn.ctr with releasesIgnored := bump s.part.jrn.ctr.releasesIgnored } } ∧
      t.part.fwd = (s.part.fwd.without it).giveBack it.buf ∧ Unchanged [.jrn, .fwd] s t := by
  have hlands := State.lands_of_run exec_releaseReceived hev
  rw [Part.releaseFrame_ignored hframe h, Part.consume_eq] at hlands
  obtain ⟨t, hexec, hsame, -⟩ := hlands
  exact ⟨t, hexec, hsame .jrn List.not_mem_nil, hsame .fwd List.not_mem_nil,
    hsame.after fun x hx => by cases x <;> simp [Piece.same] at hx ⊢⟩

theorem State.release_taken (hlen : b.payload.length = 6)
    (hholder : s.part.trk.holderFor (fieldAt b.payload 0 2) = some it.station) (hjoin : s.part.pres.joining ≠ .duplicate)
    (habove : s.part.jrn.pending.getD s.part.jrn.release < fieldAt b.payload 2 4)
    (hbelow : fieldAt b.payload 2 4 < s.part.jrn.next) :
    ∃ t, exec .releaseReceived s = .next t ∧ t.part.jrn = s.part.jrn.releaseTaken (fieldAt b.payload 2 4) ∧
      t.part.hdr = ((s.part.consume it).modJrn (Journal.releaseTaken (fieldAt b.payload 2 4))).writeRelease.hdr ∧
      t.part.fwd = (s.part.fwd.without it).giveBack it.buf ∧ Unchanged [.jrn, .hdr, .fwd] s t := by
  have hlands := State.lands_of_run exec_releaseReceived hev
  rw [Part.releaseFrame_taken hframe hlen hholder hjoin habove hbelow] at hlands
  obtain ⟨t, hexec, hsame, -⟩ := hlands
  refine ⟨t, hexec, (hsame .jrn List.not_mem_nil).trans (by simp), hsame .hdr List.not_mem_nil,
    (hsame .fwd List.not_mem_nil).trans ?_, hsame.after fun x hx => ?_⟩
  · simp [Part.consume_eq]
  · cases x <;> simp [Piece.same] at hx ⊢
end

/-! ### the notice of a header write for the journal (R129, R192) -/

/-- A header write for the journal alone, with no other asked meanwhile. -/
theorem Part.headerWritten_journal {p : Part} {h : HeaderCopy} (hfly : p.hdr.inFlight = some (h, [.journal]))
    (hfin : p.hdr.finished = true) (hwait : p.hdr.waiting = []) :
    p.headerWritten =
      (p.headerLanded.modJrn fun j =>
        { j with release := h.release, pending := if j.pending = some h.release then none else j.pending }).writeRelease := by
  simp only [Part.headerWritten, hfly, hfin, hwait, if_true]
  simp [Part.presentHeader, Part.headerNotice, Part.journalHeaderNotice, Part.headerLanded, Part.modHdr]

section
variable {s : State} {h : HeaderCopy} (hev : s.supply.takesEvents = true)
  (hfly : s.part.hdr.inFlight = some (h, [.journal])) (hfin : s.part.hdr.finished = true) (hwait : s.part.hdr.waiting = [])
include hev hfly hfin hwait

/-- The write carried the pending release. -/
theorem State.release_stands (hpending : s.part.jrn.pending = some h.release) :
    ∃ t, exec .headerWriteDone s = .next t ∧ t.part.jrn = { s.part.jrn with release := h.release, pending := none } ∧
      t.part.hdr = { s.part.hdr with inFlight := none, finished := false } ∧ Unchanged [.jrn, .hdr] s t := by
  have hlands := State.lands_of_run exec_headerWriteDone hev
  have hnone : (s.part.headerLanded.modJrn fun j =>
      { j with release := h.release, pending := if j.pending = some h.release then none else j.pending }).writeRelease =
        s.part.headerLanded.modJrn fun j => { j with release := h.release, pending := none } := by
    simp [Part.writeRelease, Part.modJrn, Part.headerLanded, hpending]
  rw [Part.headerWritten_journal hfly hfin hwait, hnone] at hlands
  obtain ⟨t, hexec, hsame, -⟩ := hlands
  refine ⟨t, hexec, hsame .jrn List.not_mem_nil, (hsame .hdr List.not_mem_nil).trans ?_, hsame.after fun x hx => ?_⟩
  · simp [Part.headerLanded, hwait]
  · cases x <;> simp [Piece.same, Part.headerLanded_keeps] at hx ⊢

/-- Another release is pending: a further write with it is asked. -/
theorem State.release_goesOn {q : Nat} (hpending : s.part.jrn.pending = some q) (hother : q ≠ h.release) :
    ∃ t, exec .headerWriteDone s = .next t ∧ t.part.jrn = { s.part.jrn with release := h.release } ∧
      t.part.hdr.copy = { s.part.hdr.copy with release := q } ∧
      t.part.hdr.inFlight = some (t.part.hdr.copy, [.journal]) ∧ Unchanged [.jrn, .hdr] s t := by
  have hlands := State.lands_of_run exec_headerWriteDone hev
  have hasks : (s.part.headerLanded.modJrn fun j =>
      { j with release := h.release, pending := if j.pending = some h.release then none else j.pending }).writeRelease =
        (s.part.headerLanded.modJrn fun j => { j with release := h.release }).askHeader .journal
          fun x => { x with release := q } := by
    rw [Part.writeRelease_asks (q := q) (by simp [Part.headerLanded, hpending, hother]) rfl]
    simp [Part.modJrn, Part.headerLanded, hpending, hother]
  rw [Part.headerWritten_journal hfly hfin hwait, hasks] at hlands
  obtain ⟨t, hexec, hsame, -⟩ := hlands
  have hhdr := hsame .hdr List.not_mem_nil
  refine ⟨t, hexec, (hsame .jrn List.not_mem_nil).trans (by simp [Part.headerLanded_keeps]),
    (congrArg HeaderUnit.copy hhdr).trans (Part.askHeader_copy ..), ?_, hsame.after fun x hx => ?_⟩
  · rw [hhdr]
    exact Part.askHeader_inFlight .journal _ rfl
  · cases x <;> simp [Piece.same, Part.headerLanded_keeps] at hx ⊢
end

end Sys2Proof.Machine

open Sys2Proof.Machine

/-- Settles O48: a RELEASE taken, with each place a header write can stand in, and ignored; and the notice of the write. -/
theorem releasesMoveWithTheHeader : Obligations.ReleasesMoveWithTheHeader := by
  refine ⟨fun s it b q hev hframe hlen hq =>
      ⟨fun hholder hjoin => ⟨fun habove hbelow => ?_, fun hout => ?_⟩, fun hother => ?_⟩,
    fun s h hev hfly hfin hwait => ⟨State.release_stands hev hfly hfin hwait,
      fun q => State.release_goesOn hev hfly hfin hwait⟩⟩
  all_goals subst hq
  · obtain ⟨t, hexec, hjrn, hhdr, hfwd, hsame⟩ := State.release_taken hev hframe hlen hholder hjoin habove hbelow
    have hpending : ((s.part.consume it).modJrn (Journal.releaseTaken (fieldAt b.payload 2 4))).jrn.pending =
        some (fieldAt b.payload 2 4) := rfl
    have hkept : ((s.part.consume it).modJrn (Journal.releaseTaken (fieldAt b.payload 2 4))).hdr = s.part.hdr := by simp
    refine ⟨t, hexec, hjrn, fun hidle => ?_, fun h users hfly => ⟨fun hin => ?_, fun hnot => ?_⟩, hfwd, hsame⟩
    · rw [← hkept] at hidle
      rw [hhdr, Part.writeRelease_asks hpending hidle]
      exact ⟨by rw [Part.askHeader_copy, hkept], Part.askHeader_inFlight .journal _ hidle⟩
    · rw [← hkept] at hfly
      rw [hhdr, Part.writeRelease_waits hpending hfly hin, hkept]
    · rw [← hkept] at hfly
      rw [hhdr, Part.writeRelease_joins hpending hfly hnot, hkept]
  · exact State.release_ignored hev hframe (.inr (.inr hout))
  · exact State.release_ignored hev hframe (hother.imp_right .inl)
end

section
/-! PROOFS. Appends measured, records written and committed, and the journal read (R106, R120 to R123, R126). -/

open Sys2Proof
namespace Sys2Proof.Machine

theorem exec_appendCommitted (s : State) : exec .appendCommitted s = s.run Part.committed := rfl

/-! ### the reserves (R121, R122) -/

/-- Two records are measured one after the other, the second without the slot the first takes. -/
theorem Journal.accepts_pair (j : Journal) (a b : Content) :
    j.accepts [a, b] = true ↔
      a.fits (16384 - (j.next - 1 - j.release)) = true ∧ b.fits (16384 - (j.next - 1 - j.release) - 1) = true ∧
        j.exhausted = false ∧ j.next + 2 ≤ 4294967295 := by
  have hfree : j.free = 16384 - (j.next - 1 - j.release) := rfl
  simp [Journal.accepts, allFit, hfree, Config.sequenceMax, and_assoc]

/-! ### the two bursts of a record (R123, R188) -/

theorem Part.journalFirst_eq {p : Part} {q : QueuedRecord} {rest : List QueuedRecord} (h : p.jrn.queue = q :: rest) :
    p.journalFirst = (p.put (slotAddr q.seq) (q.bytes.take 32)).ask .journal .journalSecond := by
  simp [Part.journalFirst, h, Config.burst]

/-- The journal once the record at its head, with these behind it, is written whole. -/
def Journal.headWritten (rest : List QueuedRecord) (j : Journal) : Journal :=
  { j with queue := rest, crcWritten := j.crcWritten + 1 }

theorem Part.journalSecond_eq {p : Part} {q : QueuedRecord} {rest : List QueuedRecord} (h : p.jrn.queue = q :: rest) :
    p.journalSecond =
      if rest = [] then (p.put (slotAddr q.seq + 32) (q.bytes.drop 32)).modJrn (Journal.headWritten rest)
      else ((p.put (slotAddr q.seq + 32) (q.bytes.drop 32)).modJrn (Journal.headWritten rest)).ask .journal .journalFirst := by
  cases rest <;> simp [Part.journalSecond, h, Config.burst] <;> rfl

/-- A slot of the journal lies inside the DRAM (R118, R187). -/
theorem slotAddr_le (n : Nat) : slotAddr n + 64 ≤ Config.dramSize := by
  have hslot : n % 16384 < 16384 := Nat.mod_lt _ (by decide)
  simp only [slotAddr, Config.journalBase, Config.recordBytes, Config.ringSlots, Config.dramSize]
  omega

/-- What a memory reads that reads as another with one burst written. -/
theorem Mem.burst_written {m m' : Mem} {a : Nat} {bs : Bytes} (hlen : bs.length = 32) (hend : a + 32 ≤ Config.dramSize)
    (h : ∀ x, Mem.read m' x = Mem.read (Mem.writeBytes m a bs) x) :
    Mem.readBytes m' a 32 = bs ∧ ∀ x, x < a ∨ a + 32 ≤ x → Mem.read m' x = Mem.read m x := by
  refine ⟨?_, fun x hx => (h x).trans (Mem.read_writeBytes_outside m bs a x (by rwa [hlen]))⟩
  rw [Mem.readBytes_congr m' (Mem.writeBytes m a bs) 32 a fun x _ _ => h x, ← hlen]
  exact Mem.readBytes_writeBytes m bs a (by rwa [hlen])

/-- A state with the memories of a part in which one burst is written. -/
theorem State.burst_written {s t : State} {r : Part} {a : Nat} {bs : Bytes} (hlen : bs.length = 32)
    (hend : a + 32 ≤ Config.dramSize) (hsame : Unchanged [] { s with part := r } t)
    (hwritten : r.written = Mem.writeBytes s.part.written a bs) (hdram : r.dram = Mem.writeBytes s.part.dram a bs) :
    Mem.readBytes t.part.written a 32 = bs ∧ t.part.read a 32 = bs ∧
      ∀ x, x < a ∨ a + 32 ≤ x →
        Mem.read t.part.written x = Mem.read s.part.written x ∧ Mem.read t.part.dram x = Mem.read s.part.dram x := by
  obtain ⟨hwrittenHere, hwrittenElse⟩ := Mem.burst_written hlen hend fun x =>
    (hsame .written List.not_mem_nil x).trans (congrArg (Mem.read · x) hwritten)
  obtain ⟨hdramHere, hdramElse⟩ := Mem.burst_written hlen hend fun x =>
    (hsame .memory List.not_mem_nil x).trans (congrArg (Mem.read · x) hdram)
  exact ⟨hwrittenHere, hdramHere, fun x hx => ⟨hwrittenElse x hx, hdramElse x hx⟩⟩

section
variable {s : State} {q : QueuedRecord} {rest : List QueuedRecord} (hev : s.supply.takesEvents = true)
  (hqueue : s.part.jrn.queue = q :: rest) (hlen : q.bytes.length = 64)
include hev hqueue hlen

theorem State.first_burst_done (hport : s.arb.port = some (.burst .journal .journalFirst)) :
    ∃ t, exec .dramBurstDone s = .next t ∧ Mem.readBytes t.part.written (slotAddr q.seq) 32 = q.bytes.take 32 ∧
      t.part.read (slotAddr q.seq) 32 = q.bytes.take 32 ∧
      (∀ a, a < slotAddr q.seq ∨ slotAddr q.seq + 32 ≤ a →
        Mem.read t.part.written a = Mem.read s.part.written a ∧ Mem.read t.part.dram a = Mem.read s.part.dram a) ∧
      t.awaits .journal .journalSecond ∧ Unchanged [.memory, .written] s t := by
  have hlands := State.lands_of_burst hev hport
  rw [Part.burstEffect, Part.journalFirst_eq hqueue] at hlands
  obtain ⟨t, hexec, hsame, hasked⟩ := hlands
  have hend := slotAddr_le q.seq
  obtain ⟨hwritten, hread, helse⟩ := State.burst_written (a := slotAddr q.seq) (bs := q.bytes.take 32)
    (by simp [hlen]) (by omega) hsame (by simp) (by simp)
  exact ⟨t, hexec, hwritten, hread, helse, hasked _ _ (Part.ask_has ..),
    hsame.after fun b hb => by cases b <;> simp [Piece.same] at hb ⊢⟩

theorem State.second_burst_done (hport : s.arb.port = some (.burst .journal .journalSecond)) :
    ∃ t, exec .dramBurstDone s = .next t ∧ Mem.readBytes t.part.written (slotAddr q.seq + 32) 32 = q.bytes.drop 32 ∧
      t.part.read (slotAddr q.seq + 32) 32 = q.bytes.drop 32 ∧
      (∀ a, a < slotAddr q.seq + 32 ∨ slotAddr q.seq + 64 ≤ a →
        Mem.read t.part.written a = Mem.read s.part.written a ∧ Mem.read t.part.dram a = Mem.read s.part.dram a) ∧
      t.part.jrn = { s.part.jrn with queue := rest, crcWritten := s.part.jrn.crcWritten + 1 } ∧
      (rest ≠ [] → t.awaits .journal .journalFirst) ∧ Unchanged [.jrn, .memory, .written] s t := by
  have hlands := State.lands_of_burst hev hport
  rw [Part.burstEffect] at hlands
  obtain ⟨t, hexec, hsame, hasked⟩ := hlands
  have hend := slotAddr_le q.seq
  have hsecond := Part.journalSecond_eq hqueue
  obtain ⟨hwritten, hread, helse⟩ := State.burst_written (a := slotAddr q.seq + 32) (bs := q.bytes.drop 32)
    (by simp [hlen]) (by omega) hsame (by rw [hsecond]; split <;> simp) (by rw [hsecond]; split <;> simp)
  refine ⟨t, hexec, hwritten, hread, helse, (hsame .jrn List.not_mem_nil).trans ?_, fun hmore => hasked _ _ ?_,
    hsame.after fun b hb => ?_⟩
  · rw [hsecond]
    split <;> rfl
  · rw [hsecond, if_neg hmore]
    exact Part.ask_has ..
  · cases b <;> simp [Piece.same] at hb ⊢
end

/-! ### a record committed (R106, R123) -/

/-- The journal with its next record committed, and these appends outstanding. -/
def Journal.committed (appends : List OpenAppend) (j : Journal) : Journal :=
  { j with
    crcWritten := j.crcWritten - 1, commit := j.commit + 1, appends := appends
    ctr := { j.ctr with written := bump j.ctr.written } }

/-- A record of no outstanding append. -/
theorem Part.committed_alone {p : Part} {k : Nat} (hcrc : p.jrn.crcWritten = k + 1) (h : p.jrn.appends = []) :
    p.committed = p.modJrn (Journal.committed []) := by
  simp [Part.committed, hcrc, h, Part.modJrn, Journal.committed]

/-- The last record of the oldest append: its requester is told. -/
theorem Part.committed_ends {p : Part} {k : Nat} {a : OpenAppend} {rest : List OpenAppend} (hcrc : p.jrn.crcWritten = k + 1)
    (h : p.jrn.appends = a :: rest) (hlast : a.last = p.jrn.commit) :
    p.committed = (p.modJrn (Journal.committed rest)).requesterTold a.requester := by
  simp [Part.committed, hcrc, h, hlast, Part.modJrn, Journal.committed]

/-- What becomes of the sale leaves the request and its lows as they are. -/
theorem Port.settleSale_keeps (x : Port) (o : OnCommit) :
    (x.settleSale o).req = x.req ∧ (x.settleSale o).lows = x.lows := by
  cases o <;> exact ⟨rfl, rfl⟩

/-- The sale of a port that is not OFFLINE, opened, kept or ended (R109, R113, R114). -/
theorem Port.settleSale_online {x : Port} (h : x.state ≠ .offline) (o : OnCommit) :
    x.settleSale o =
      { x with
        sale :=
          match o with
          | .keep => x.sale
          | .opens number => some { number := number, lines := [], running := 0, tenders := 0, tally := [] }
          | .closes | .abandons => none
        state :=
          match o with
          | .keep => x.state
          | .opens _ => .inSale
          | .closes | .abandons => .idle
        grace :=
          match o with
          | .keep => x.grace
          | .opens _ | .closes | .abandons => false } := by
  cases o <;> simp [Port.settleSale, h]

/-- A request whose records stand: its sale is settled and counted, and its reply is built, stored and begun (R106). -/
theorem Part.appendStands_eq {p : Part} {n : PortNo} {r : TillRequest} {o : OnCommit} {body : Bytes} {hold noTally : Bool}
    (hreq : (p.port n).req = some r) (hwork : r.work = .appended o body hold noTally) (hlows : (p.port n).lows = []) :
    p.appendStands n =
      p.portNow n
        (((p.port n).settleSale o).answered r (p.replyContent r.seq r.kind .ok hold noTally body)) (o.count p.till.ctr) := by
  obtain ⟨hreqKept, hlowsKept⟩ := (p.port n).settleSale_keeps o
  obtain ⟨seq, kind, bs, work⟩ := r
  subst hwork
  simp only [Part.appendStands, hreq, Part.modPort_eq, Part.countTill_portNow]
  rw [Part.reply_eq (by rw [Part.portNow_port, hreqKept, hreq]) (by rw [Part.portNow_port, hlowsKept, hlows]),
    Part.portNow_port, Part.portNow_ctr, Part.portNow_portNow, Part.replyContent_congr (p := p) (by simp) (by simp)]

section
variable {s : State} {k : Nat} (hev : s.supply.takesEvents = true) (hcrc : s.part.jrn.crcWritten = k + 1)
include hev hcrc

theorem State.commits_alone (h : s.part.jrn.appends = []) :
    ∃ t, exec .appendCommitted s = .next t ∧
      t.part.jrn =
        { s.part.jrn with
          crcWritten := k, commit := s.part.jrn.commit + 1
          ctr := { s.part.jrn.ctr with written := bump s.part.jrn.ctr.written } } ∧
      Unchanged [.jrn] s t := by
  have hlands := State.lands_of_run exec_appendCommitted hev
  rw [Part.committed_alone hcrc h] at hlands
  obtain ⟨t, hexec, hjrn, hsame⟩ := State.lands_jrn hlands fun b hb => by cases b <;> simp [Piece.same] at hb ⊢
  exact ⟨t, hexec, hjrn.trans (by simp [Journal.committed, hcrc, h]), hsame⟩

/-- The commit that ends the append of a till's request. -/
theorem State.commits_request {n : PortNo} {r : TillRequest} {o : OnCommit} {body : Bytes} {hold noTally : Bool}
    (happends : s.part.jrn.appends = [⟨s.part.jrn.commit, .till n⟩]) (hreq : (s.part.port n).req = some r)
    (hwork : r.work = .appended o body hold noTally) (hlows : (s.part.port n).lows = []) :
    ∃ t, exec .appendCommitted s = .next t ∧
      t.part.jrn =
        { s.part.jrn with
          crcWritten := k, commit := s.part.jrn.commit + 1, appends := []
          ctr := { s.part.jrn.ctr with written := bump s.part.jrn.ctr.written } } ∧
      t.part.port n =
        ((s.part.port n).settleSale o).answered r (s.part.replyContent r.seq r.kind .ok hold noTally body) ∧
      t.part.till.ctr = o.count s.part.till.ctr ∧ OtherPorts n s t ∧ Unchanged [.jrn, .till] s t := by
  have hlands := State.lands_of_run exec_appendCommitted hev
  have hreply : (s.part.modJrn (Journal.committed [])).replyContent r.seq r.kind .ok hold noTally body =
      s.part.replyContent r.seq r.kind .ok hold noTally body := Part.replyContent_congr rfl rfl ..
  rw [Part.committed_ends hcrc happends rfl, Part.requesterTold,
    Part.appendStands_eq (p := s.part.modJrn (Journal.committed [])) hreq hwork hlows, hreply] at hlands
  obtain ⟨t, hexec, hsame, -⟩ := hlands
  obtain ⟨hport, hctr, hothers⟩ := State.port_shown (s := s)
    ((hsame .till List.not_mem_nil).trans (Part.portNow_till_congr n _ _ rfl))
  refine ⟨t, hexec, (hsame .jrn List.not_mem_nil).trans ?_, hport, hctr, hothers, hsame.after fun b hb => ?_⟩
  · simp [Journal.committed, hcrc]
  · cases b <;> simp [Piece.same] at hb ⊢
end

/-! ### the journal read (R126) -/

section
variable {p : Part} {n : Nat}

theorem Part.readAnswer_beyond (h : n = 0 ∨ p.jrn.next ≤ n) : p.readAnswer n = .beyond := if_pos h

variable (hsome : 1 ≤ n) (hnext : n < p.jrn.next)
include hsome hnext

theorem Part.readAnswer_notCommitted (h : p.jrn.commit ≤ n) : p.readAnswer n = .notCommitted := by
  have hin : ¬ (n = 0 ∨ p.jrn.next ≤ n) := by omega
  simp only [Part.readAnswer, hin, h, if_true, if_false]

/-- A committed sequence is answered from its slot: by the sequence found there, then by the CRC. -/
theorem Part.readAnswer_slot (h : n < p.jrn.commit) {bs : Bytes} (hbs : bs = p.read (0x200000 + 64 * (n % 16384)) 64) :
    p.readAnswer n = if fieldAt bs 0 4 ≠ n then .gone else if crcGood bs then .record bs else .damaged := by
  have hin : ¬ (n = 0 ∨ p.jrn.next ≤ n) := by omega
  subst hbs
  rw [Part.readAnswer, if_neg hin, if_neg (Nat.not_le.mpr h)]
  rfl
end

end Sys2Proof.Machine

open Sys2Proof.Machine

/-- Settles O47: the reserves, an append decided, the bursts of a record, its commitment, and the answers of a read. -/
theorem recordsAreAcceptedCommittedAndRead : Obligations.RecordsAreAcceptedCommittedAndRead := by
  refine ⟨fun c free => by cases c <;> rfl, fun j a b _ => j.accepts_pair a b,
    fun p r till cs => ⟨fun hfit => ?_, fun hfull => ?_⟩, fun s q rest slot hev hqueue hlen hslot => ?_,
    fun s hev => ⟨fun k hcrc happends => State.commits_alone hev hcrc happends, ?_⟩,
    fun p n => ⟨Part.readAnswer_beyond, Part.readAnswer_notCommitted, fun bs hsome hnext hcommit hbs => ?_⟩⟩
  · obtain ⟨hfirst, hjrn⟩ := Part.appendNow_accepted r till hfit
    exact ⟨hfirst, by rw [hjrn, Journal.appended]⟩
  · rw [Part.appendNow_refused r till hfull]
    exact ⟨rfl, rfl⟩
  · subst hslot
    exact ⟨State.first_burst_done hev hqueue hlen, State.second_burst_done hev hqueue hlen⟩
  · intro k n r x o body hold noTally hcrc happends hx hreq hwork hlows honline
    subst hx
    have hcommits := State.commits_request hev hcrc happends hreq hwork hlows
    rwa [Port.settleSale_online honline] at hcommits
  · have hanswer := Part.readAnswer_slot hsome hnext hcommit hbs
    refine ⟨fun hother => ?_, fun hseq hbad => ?_, fun hseq hgood => ?_⟩
    · rw [hanswer, if_pos hother]
    · rw [hanswer, if_neg (not_not.mpr hseq), if_neg (by simp [hbad])]
    · rw [hanswer, if_neg (not_not.mpr hseq), if_pos hgood]
end

section
/-! PROOFS. Support for the label service: the frames of its link, an entry written, its target, its queue and its events
(R133 to R137). -/

open Sys2Proof
namespace Sys2Proof.Machine

/-! ### what a command leaves of the label service -/

section
variable {s : State} {c : Instr} {q : Part} {but : List Piece}

/-- A command shows the label service, the pricing unit and the forwarding engine of the part it ends in. -/
theorem State.lands_shows (h : s.lands c q) (hkept : ∀ b, b ∉ but → b.same s { s with part := q }) :
    ∃ t, exec c s = .next t ∧ t.part.lab = q.lab ∧ t.part.price = q.price ∧ t.part.fwd = q.fwd ∧ Unchanged but s t := by
  obtain ⟨t, hexec, hsame, -⟩ := h
  exact ⟨t, hexec, hsame .lab List.not_mem_nil, hsame .price List.not_mem_nil, hsame .fwd List.not_mem_nil,
    hsame.after hkept⟩

/-- A command that writes entry `i` of the label table, and no other byte. -/
theorem State.lands_entry {i : Nat} {e : LabelEntry} (hi : i < 4096) (h : s.lands c q)
    (hdram : q.dram = Mem.writeBytes s.part.dram (labelAddr i) e.bytes)
    (hkept : ∀ b, b ∉ but → b.same s { s with part := q }) :
    ∃ t, exec c s = .next t ∧ t.part.lab = q.lab ∧ t.part.price = q.price ∧ t.part.fwd = q.fwd ∧
      t.part.labelBytes i = e.bytes ∧
      (∀ a, a < labelAddr i ∨ labelAddr i + 48 ≤ a → Mem.read t.part.dram a = Mem.read s.part.dram a) ∧
      Unchanged but s t := by
  obtain ⟨t, hexec, hsame, -⟩ := h
  obtain ⟨hbytes, hothers⟩ := State.label_written (i := i) (e := e) hi (fun b _ => hsame b List.not_mem_nil) hdram
  exact ⟨t, hexec, hsame .lab List.not_mem_nil, hsame .price List.not_mem_nil, hsame .fwd List.not_mem_nil, hbytes, hothers,
    hsame.after hkept⟩
end

/-! ### entries (R133) -/

@[simp] theorem Part.putLabel_dram (i : Nat) (e : LabelEntry) (p : Part) :
    (p.putLabel i e).dram = Mem.writeBytes p.dram (labelAddr i) e.bytes := by
  simp [Part.putLabel]

theorem Part.putLabel_lab (i : Nat) (e : LabelEntry) (p : Part) :
    (p.putLabel i e).lab = { p.lab with tallies := (p.lab.tallies.without (p.labelAt i)).add e } := by
  simp only [Part.putLabel, Part.retally, Part.write_lab, Part.modLab_lab]
  rfl

/-- The bytes of an entry and what it reads as stand in its place of the table alone. -/
theorem Part.label_of_place {p q : Part} {i : Nat}
    (h : ∀ a, labelAddr i ≤ a → a < labelAddr i + 48 → Mem.read q.dram a = Mem.read p.dram a) :
    q.labelBytes i = p.labelBytes i ∧ q.labelAt i = p.labelAt i := by
  have hbytes : q.labelBytes i = p.labelBytes i := Mem.readBytes_congr _ _ _ _ h
  exact ⟨hbytes, by simp [Part.labelAt, hbytes]⟩

theorem labelAddr_apart {i j : Nat} (h : j ≠ i) : labelAddr j + 48 ≤ labelAddr i ∨ labelAddr i + 48 ≤ labelAddr j := by
  simp only [labelAddr, Config.labelBytes]
  omega

/-- Where entry `i` alone has moved, every other entry reads as before. -/
theorem Part.labelAt_elsewhere {p q : Part} {i j : Nat} (hj : j ≠ i)
    (h : ∀ a, a < labelAddr i ∨ labelAddr i + 48 ≤ a → Mem.read q.dram a = Mem.read p.dram a) : q.labelAt j = p.labelAt j :=
  (Part.label_of_place fun a _ _ => h a (by have := labelAddr_apart hj; omega)).2

/-! ### the target and the lookups (R134, R136) -/

/-- `c` is the target of entry `e`. -/
def Part.targets (p : Part) (e : LabelEntry) (c : LabelContent) : Prop :=
  ((p.find e.item).1 = .notFound ∧ c = .blank) ∨
    ∃ k x, (p.find e.item).1 = .entry k x ∧ c = e.layout.cut x.stage5.1 x.stage5.2.1 x.stage5.2.2

theorem Part.lookupEntry_of_notFound (u : BurstUser) {p : Part} {code : Nat} (h : (p.find code).1 = .notFound) :
    p.lookupEntry u code = (none, p.loads u (p.find code).2) := by
  simp [Part.lookupEntry, Part.foundEntry, h]

theorem Part.target_eq {p : Part} {e : LabelEntry} {c : LabelContent} (h : p.targets e c) :
    p.target e = (c, p.loads .labelContent (p.find e.item).2) := by
  rcases h with ⟨hfind, rfl⟩ | ⟨k, x, hfind, rfl⟩
  · simp [Part.target, Part.lookupEntry_of_notFound _ hfind]
  · simp [Part.target, Part.lookupEntry_of_found _ hfind]

/-- A target is never UNKNOWN (R134). -/
theorem Part.targets.known {p : Part} {e : LabelEntry} {c : LabelContent} (h : p.targets e c) : c ≠ .unknown := by
  rcases h with ⟨-, rfl⟩ | ⟨k, x, -, rfl⟩
  · simp
  · cases e.layout <;> simp [Layout.cut]

/-- The target follows from the item, the layout, the memory and the pricing unit. -/
theorem Part.targets.of_kept {p q : Part} {e e' : LabelEntry} {c : LabelContent} (h : p.targets e c)
    (hdram : q.dram = p.dram) (hprice : q.price = p.price) (hitem : e'.item = e.item) (hlayout : e'.layout = e.layout) :
    q.targets e' c := by
  simpa only [Part.targets, Part.find_of_kept hdram hprice, hitem, hlayout] using h

theorem LabelContent.matchesTarget_iff (x c : LabelContent) : x.matchesTarget c = true ↔ x ≠ .unknown ∧ x = c := by
  simp [LabelContent.matchesTarget]

theorem LabelContent.matchesTarget_false (x c : LabelContent) : x.matchesTarget c = false ↔ x = .unknown ∨ x ≠ c := by
  rw [← Bool.not_eq_true, LabelContent.matchesTarget_iff]
  tauto

/-! ### the check for orders (R139) -/

theorem Part.checkOrders_of_empty {p : Part} (hurgent : p.lab.urgent = []) (hroutine : p.lab.routine = []) :
    p.checkOrders = p := by
  simp [Part.checkOrders, hurgent, hroutine, Part.takeOrders]

/-- The conditions of R139 hold no more than before where the window has no more room and the rest stands. -/
theorem Part.ordersGo_of_kept {p q : Part} (h : p.ordersGo = false) (hcfg : q.cfg = p.cfg) (hpres : q.pres = p.pres)
    (hhead : q.lab.headUp = p.lab.headUp) (hwarm : q.lab.warm = p.lab.warm)
    (hwindow : q.lab.window.length < 8 → p.lab.window.length < 8) : q.ordersGo = false := by
  rw [← Bool.not_eq_true] at h ⊢
  intro hgo
  apply h
  simp only [Part.ordersGo, Part.labelFitted, hcfg, hpres, hhead, hwarm, Bool.and_eq_true,
    decide_eq_true_eq] at hgo ⊢
  obtain ⟨⟨⟨⟨hfitted, hup⟩, hjoining⟩, hroom⟩, hdone⟩ := hgo
  exact ⟨⟨⟨⟨hfitted, hup⟩, hjoining⟩, hwindow hroom⟩, hdone⟩

/-! ### the frames of the label link (R137) -/

/-- A frame of the label link taken: its buffer returns, the head timer restarts and the head is UP. -/
def Part.labelHeard (it : RxItem) (p : Part) : Part :=
  { p with fwd := (p.fwd.without it).giveBack it.buf, lab := { p.lab with headUp := true, headTimer := true } }

/-- No order follows a good frame: the head was UP before, or nothing is queued. -/
def Labels.quiet (l : Labels) : Prop := l.headUp = true ∨ l.urgent = [] ∧ l.routine = []

theorem Part.headHeard_consume {p : Part} (it : RxItem) (h : p.lab.quiet) : (p.consume it).headHeard = p.labelHeard it := by
  rcases h with hup | ⟨hurgent, hroutine⟩
  · simp [Part.headHeard, Part.consume_eq, hup, Part.labelHeard, Part.modLab]
  · have hcheck : (p.labelHeard it).checkOrders = p.labelHeard it := Part.checkOrders_of_empty hurgent hroutine
    unfold Part.headHeard
    split
    · rfl
    · exact hcheck

theorem Part.takeLabelFrame_of {p : Part} {it : RxItem} {b : Bytes} {kind : Nat → Bool} (f : Bytes → Part → Part)
    (hframe : p.linkFrame .label .label = some (it, b)) (hkind : kind (fieldAt b 0 1) = true) (hquiet : p.lab.quiet) :
    p.takeLabelFrame kind f = f b (p.labelHeard it) := by
  simp [Part.takeLabelFrame, hframe, hkind, Part.headHeard_consume it hquiet]

end Sys2Proof.Machine
end

section
/-! PROOFS. The radio head comes and goes (R65, R137, R138). -/

open Sys2Proof
namespace Sys2Proof.Machine

theorem exec_headStatusReceived (s : State) :
    exec .headStatusReceived s =
      s.run fun p => p.takeLabelFrame (fun k => decide (k = linkHeadStatus)) fun _ q => q.modLab id := rfl

theorem exec_labelFrameUnknown (s : State) :
    exec .labelFrameUnknown s =
      s.run fun p =>
        p.takeLabelFrame (fun k => decide (k ≠ linkHeadStatus) && decide (k ≠ linkReport) && decide (k ≠ linkNotice))
          fun _ q => q.modLab fun l => { l with ctr := { l.ctr with unknown := bump l.ctr.unknown } } := rfl

theorem exec_headTimerExpiry (s : State) : exec .headTimerExpiry s = s.run Part.headExpiry := rfl

/-! ### the head DOWN (R65, R138) -/

theorem Part.giveBackAll_pool (bs : List Buf) (p : Part) :
    (p.giveBackAll bs).fwd.labels = p.fwd.labels ∧ (p.giveBackAll bs).fwd.free = p.fwd.free ++ bs.map (·.num) ∧
      (p.giveBackAll bs).fwd.ctr = p.fwd.ctr := by
  induction bs generalizing p with
  | nil => simp [Part.giveBackAll]
  | cons b bs ih =>
    obtain ⟨hlabels, hfree, hctr⟩ := ih (p.giveBack b)
    exact ⟨hlabels, hfree.trans (by simp [Part.giveBack, Forwarding.giveBack]), hctr⟩

/-- The head is DOWN, its window empty and its loss counted. -/
def Part.headLost (p : Part) : Part :=
  p.modLab fun l =>
    { l with headUp := false, headTimer := false, window := [], ctr := { l.ctr with headLosses := bump l.ctr.headLosses } }

/-- The frames that the label framer has not begun leave its queue. -/
def Part.dropUnbegun (p : Part) : Part :=
  (p.modFwd fun f => { f with labels := f.labels.filter (·.begun) }).giveBackAll
    ((p.fwd.labels.filter fun x => !x.begun).map (·.buf))

theorem Part.dropUnbegun_pool (p : Part) :
    p.dropUnbegun.fwd.labels = p.fwd.labels.filter (·.begun) ∧
      p.dropUnbegun.fwd.free = p.fwd.free ++ (p.fwd.labels.filter fun x => !x.begun).map (·.buf.num) ∧
      p.dropUnbegun.fwd.ctr = p.fwd.ctr := by
  have h := Part.giveBackAll_pool ((p.fwd.labels.filter fun x => !x.begun).map (·.buf))
    (p.modFwd fun f => { f with labels := f.labels.filter (·.begun) })
  rw [List.map_map] at h
  exact h

theorem Part.headExpiry_up {p : Part} (hup : p.lab.headUp = true) (htimer : p.lab.headTimer = true) :
    p.headExpiry = (p.lab.window.foldl (fun r o => r.recallOrder o) p.headLost).dropUnbegun :=
  if_pos ⟨hup, htimer⟩

/-- An order of the window recalled whose entry is SENT with its tag: the entry is queued again. -/
theorem Part.recallOrder_sent {p : Part} {o : Order} {e : LabelEntry} (hat : p.labelAt o.index = some e)
    (hstate : e.state = .sent) (htag : e.tag = some o.tag) (hitem : (p.find e.item).1 = .notFound) :
    p.recallOrder o =
      (p.loadLabel.loads .labelContent (p.find e.item).2).routined o.index
        { e with state := .queued, queue := some .routine, tag := none, due := none } := by
  have hfind : p.loadLabel.find e.item = p.find e.item := Part.find_of_kept (by simp) (by simp) _
  unfold Part.recallOrder
  simp only [Part.labelAt_of_dram (p := p) (q := p.loadLabel) (by simp), hat, hstate, htag, and_self, if_true]
  rw [Part.queueLabel_routine (by rw [hfind]; exact hitem), hfind]

section
variable {s : State} (hev : s.supply.takesEvents = true)
include hev

/-- A good frame of the label link of which nothing is made but a count. -/
theorem State.head_heard {it : RxItem} {b : Bytes} {c : Instr} {kind : Nat → Bool} {count : Labels → Labels}
    (hexec : ∀ s, exec c s = s.run fun p => p.takeLabelFrame kind fun _ q => q.modLab count)
    (hframe : s.part.linkFrame .label .label = some (it, b)) (hkind : kind (fieldAt b 0 1) = true)
    (hquiet : s.part.lab.quiet) :
    ∃ t, exec c s = .next t ∧ t.part.lab = count { s.part.lab with headUp := true, headTimer := true } ∧
      t.part.fwd = (s.part.fwd.without it).giveBack it.buf ∧ Unchanged [.lab, .fwd] s t := by
  have hlands := State.lands_of_run hexec hev
  rw [Part.takeLabelFrame_of _ hframe hkind hquiet] at hlands
  obtain ⟨t, hexec, hlab, -, hfwd, hsame⟩ := State.lands_shows (but := [.lab, .fwd]) hlands fun b hb => by
    cases b <;> simp [Piece.same, Part.labelHeard] at hb ⊢
  exact ⟨t, hexec, hlab, hfwd, hsame⟩

variable (hup : s.part.lab.headUp = true) (htimer : s.part.lab.headTimer = true)
include hup htimer

/-- The head timer runs out with no order in the window. -/
theorem State.head_lost (hwindow : s.part.lab.window = []) :
    ∃ t, exec .headTimerExpiry s = .next t ∧
      t.part.lab =
        { s.part.lab with
          headUp := false, headTimer := false
          ctr := { s.part.lab.ctr with headLosses := bump s.part.lab.ctr.headLosses } } ∧
      t.part.fwd.labels = s.part.fwd.labels.filter (·.begun) ∧
      t.part.fwd.free = s.part.fwd.free ++ (s.part.fwd.labels.filter fun x => !x.begun).map (·.buf.num) ∧
      t.part.fwd.ctr = s.part.fwd.ctr ∧ Unchanged [.lab, .fwd] s t := by
  have hlands := State.lands_of_run exec_headTimerExpiry hev
  rw [Part.headExpiry_up hup htimer, hwindow, List.foldl_nil] at hlands
  obtain ⟨t, hexec, hlab, -, hfwd, hsame⟩ := State.lands_shows (but := [.lab, .fwd]) hlands fun b hb => by
    cases b <;> simp [Piece.same, Part.dropUnbegun, Part.headLost] at hb ⊢
  obtain ⟨hlabels, hfree, hctr⟩ := s.part.headLost.dropUnbegun_pool
  refine ⟨t, hexec, hlab.trans ?_, ?_, ?_, ?_, hsame⟩
  · simp [Part.dropUnbegun, Part.headLost, hwindow]
  · rw [hfwd]; exact hlabels
  · rw [hfwd]; exact hfree
  · rw [hfwd]; exact hctr

/-- The head timer runs out with one order in the window, of an item without an entry. -/
theorem State.head_lost_recalls {o : Order} {e : LabelEntry} (hwindow : s.part.lab.window = [o])
    (hat : s.part.labelAt o.index = some e) (hindex : o.index < 4096) (hstate : e.state = .sent) (htag : e.tag = some o.tag)
    (hitem : (s.part.find e.item).1 = .notFound) :
    ∃ t, exec .headTimerExpiry s = .next t ∧ t.part.lab.headUp = false ∧ t.part.lab.window = [] ∧
      t.part.lab.routine = s.part.lab.routine ++ [o.index] ∧ t.part.lab.urgent = s.part.lab.urgent ∧
      t.part.labelBytes o.index =
        ({ e with state := .queued, queue := some .routine, tag := none, due := none } : LabelEntry).bytes ∧
      (∀ a, a < labelAddr o.index ∨ labelAddr o.index + 48 ≤ a → Mem.read t.part.dram a = Mem.read s.part.dram a) ∧
      Unchanged [.lab, .fwd, .memory] s t := by
  have hfind : s.part.headLost.find e.item = s.part.find e.item :=
    Part.find_of_kept (by simp [Part.headLost]) (by simp [Part.headLost]) _
  have hlands := State.lands_of_run exec_headTimerExpiry hev
  rw [Part.headExpiry_up hup htimer, hwindow, List.foldl_cons, List.foldl_nil,
    Part.recallOrder_sent (p := s.part.headLost) ((Part.labelAt_of_dram rfl _).trans hat) hstate htag
      (by rw [hfind]; exact hitem)] at hlands
  obtain ⟨t, hexec, hlab, -, -, hbytes, hothers, hsame⟩ := State.lands_entry (but := [.lab, .fwd, .memory])
    (e := { e with state := .queued, queue := some .routine, tag := none, due := none }) hindex hlands
    (by simp [Part.dropUnbegun, Part.headLost])
    fun b hb => by cases b <;> simp [Piece.same, Part.dropUnbegun, Part.headLost] at hb ⊢
  refine ⟨t, hexec, ?_, ?_, ?_, ?_, hbytes, hothers, hsame⟩ <;>
    simp [hlab, Part.dropUnbegun, Part.routined_lab, Part.headLost]
end

end Sys2Proof.Machine

open Sys2Proof.Machine

/-- Settles O49: the frames that bring the head UP, and the timer that brings it DOWN with and without an order in its window. -/
theorem labelHeadComesAndGoes : Obligations.LabelHeadComesAndGoes := by
  refine ⟨fun s it b hev hframe hurgent hroutine => ⟨fun hkind => ?_, fun hreport hnotice hstatus => ?_⟩,
    fun s hev hup htimer => ⟨State.head_lost hev hup htimer, fun o e => State.head_lost_recalls hev hup htimer⟩⟩
  · exact State.head_heard (count := id) hev exec_headStatusReceived hframe (by simp [hkind, linkHeadStatus])
      (Or.inr ⟨hurgent, hroutine⟩)
  · exact State.head_heard hev exec_labelFrameUnknown hframe
      (by simp [hreport, hnotice, hstatus, linkHeadStatus, linkReport, linkNotice]) (Or.inr ⟨hurgent, hroutine⟩)
end

section
/-! PROOFS. An order sent for the head of a queue (R139). -/

open Sys2Proof
namespace Sys2Proof.Machine

theorem exec_orderTimerTick (s : State) : exec .orderTimerTick s = s.run Part.checkOrders := rfl

/-- The entry as the order of a content with this tag leaves it. -/
def LabelEntry.ordered (e : LabelEntry) (tag : Byte) (c : LabelContent) : LabelEntry :=
  { e with state := .sent, queue := none, sent := some c, tag := some tag, due := none }

theorem orderBytes_length (tag : Byte) (id : Nat) (c : LabelContent) : (orderBytes tag id c).length = 17 := by
  simp [orderBytes, be_length, LabelContent.bytes_length]

theorem freshTag_unused (n : Nat) (t : Byte) : freshTag [] n t = t := by
  cases n <;> simp [freshTag]

theorem Part.joinLabels_fwd (tag : Byte) (b : Buf) (p : Part) :
    (p.joinLabels tag b).fwd = { p.fwd with labels := beginHead (p.fwd.labels ++ [⟨b, tag, false⟩]) } := by
  simp [Part.joinLabels, Part.modLabelQueue]

theorem bufAddr_below_labels {n : Nat} (h : n < Config.poolSize) (i : Nat) : bufAddr n + 2048 ≤ labelAddr i := by
  have hend := bufAddr_le n h
  simp only [Config.bufferBytes, labelAddr] at hend ⊢
  omega

/-! ### the order built and placed -/

section
variable {p : Part} {i : Nat} {e : LabelEntry} {c : LabelContent} {b : Buf}

theorem Part.sendOrder_fwd (hwindow : p.lab.window = []) :
    (p.sendOrder i e c b).fwd =
      { p.fwd with labels := beginHead (p.fwd.labels ++ [⟨{ b with len := 17 }, p.lab.orderTag, false⟩]) } := by
  simp [Part.sendOrder, Part.fill, Part.joinLabels_fwd, hwindow, freshTag_unused, orderBytes_length]

theorem Part.sendOrder_dram (hwindow : p.lab.window = []) :
    (p.sendOrder i e c b).dram =
      Mem.writeBytes (Mem.writeBytes p.dram (bufAddr b.num) (orderBytes p.lab.orderTag e.id c)) (labelAddr i)
        (e.ordered p.lab.orderTag c).bytes := by
  simp [Part.sendOrder, Part.fill, hwindow, freshTag_unused, LabelEntry.ordered]

theorem Part.sendOrder_lab (hwindow : p.lab.window = []) (hat : p.labelAt i = some e) (hb : b.num < Config.poolSize) :
    (p.sendOrder i e c b).lab =
      { p.lab with
        orderTag := p.lab.orderTag + 1, window := [⟨p.lab.orderTag, i, e.id, c, false, false⟩]
        tallies := (p.lab.tallies.remove e).add (e.ordered p.lab.orderTag c) } := by
  have hbuf := bufAddr_below_labels hb i
  have hkept (q : Part) (h : q.dram = Mem.writeBytes p.dram (bufAddr b.num) (orderBytes p.lab.orderTag e.id c)) :
      q.labelAt i = some e :=
    hat ▸ (Part.label_of_place fun a ha _ => by
      rw [h, Mem.read_writeBytes_outside _ _ _ _ (by rw [orderBytes_length]; omega)]).2
  simp only [Part.sendOrder, hwindow, List.map_nil, freshTag_unused, Part.modLab_lab, Part.putLabel_lab]
  rw [hkept _ (by simp [Part.fill])]
  simp [Part.fill, LabelTallies.without, hwindow, LabelEntry.ordered]
end

/-! ### the order taken from the queue -/

/-- The head of ROUTINE, its only entry, has been taken and read. -/
def Part.routineTaken (p : Part) : Part := (p.modLab fun l => { l with routine := [] }).loadLabel

/-- The head of the free list has been granted, and `free` is left. -/
def Part.granted (free : List Nat) (p : Part) : Part :=
  p.modFwd fun f => { f with free := free, ctr := { f.ctr with lowestFree := min f.ctr.lowestFree free.length } }

/-- The one entry queued and its target have been read, and a buffer has been granted. -/
def Part.orderTaken (e : LabelEntry) (free : List Nat) (p : Part) : Part :=
  (p.routineTaken.loads .labelContent (p.find e.item).2).granted free

@[simp] theorem Part.orderTaken_frame (e : LabelEntry) (free : List Nat) (p : Part) :
    (p.orderTaken e free).cfg = p.cfg ∧ (p.orderTaken e free).branch = p.branch ∧
      (p.orderTaken e free).trunkFramer = p.trunkFramer ∧ (p.orderTaken e free).labelFramer = p.labelFramer ∧
      (p.orderTaken e free).guestFramer = p.guestFramer ∧ (p.orderTaken e free).call = p.call ∧
      (p.orderTaken e free).pres = p.pres ∧ (p.orderTaken e free).price = p.price ∧
      (p.orderTaken e free).till = p.till ∧ (p.orderTaken e free).jrn = p.jrn ∧
      (p.orderTaken e free).lab = { p.lab with routine := [] } ∧ (p.orderTaken e free).gst = p.gst ∧
      (p.orderTaken e free).trk = p.trk ∧ (p.orderTaken e free).hdr = p.hdr ∧ (p.orderTaken e free).memCtr = p.memCtr ∧
      (p.orderTaken e free).dram = p.dram ∧ (p.orderTaken e free).written = p.written := by
  simp [Part.orderTaken, Part.granted, Part.routineTaken]

theorem Part.orderTaken_fwd (e : LabelEntry) (free : List Nat) (p : Part) :
    (p.orderTaken e free).fwd.labels = p.fwd.labels ∧ (p.orderTaken e free).fwd.free = free := by
  simp [Part.orderTaken, Part.granted, Part.routineTaken]

theorem Part.takeBuffer_other {p : Part} {n : Nat} {free : List Nat} (hfree : p.fwd.free = n :: free)
    (h : Config.controlReserve < p.fwd.free.length) : p.takeBuffer .other = (some ⟨n, .plain, 0⟩, p.granted free) := by
  simp [Part.takeBuffer, Forwarding.take_other _ _ _ hfree h, Part.granted, Part.modFwd]

/-- The one entry queued is ordered where its shown content is not its target. -/
theorem Part.checkOrders_sends {p : Part} {i n : Nat} {free : List Nat} {e : LabelEntry} {c : LabelContent}
    (hgo : p.ordersGo = true) (hurgent : p.lab.urgent = []) (hroutine : p.lab.routine = [i]) (hat : p.labelAt i = some e)
    (htarget : p.targets e c) (hshown : e.shown = .unknown ∨ e.shown ≠ c) (hfree : p.fwd.free = n :: free)
    (hroom : Config.controlReserve < p.fwd.free.length) :
    p.checkOrders = (p.orderTaken e free).sendOrder i e c ⟨n, .plain, 0⟩ := by
  have hone : p.checkOrders = p.takeOrders 1 := by simp [Part.checkOrders, hurgent, hroutine]
  have hnext : p.lab.nextInQueue = some (.routine, i) := by simp [Labels.nextInQueue, hurgent, hroutine]
  have htaken : (p.modLab fun l => l.setQueue .routine ((l.queue .routine).drop 1)).loadLabel = p.routineTaken := by
    simp [Part.routineTaken, Part.modLab, Labels.setQueue, Labels.queue, hroutine]
  have hread : p.routineTaken.labelAt i = some e := (Part.labelAt_of_dram (by simp [Part.routineTaken]) i).trans hat
  have hcut : p.routineTaken.target e = (c, p.routineTaken.loads .labelContent (p.find e.item).2) := by
    rw [Part.target_eq (htarget.of_kept (by simp [Part.routineTaken]) (by simp [Part.routineTaken]) rfl rfl),
      Part.find_of_kept (p := p) (by simp [Part.routineTaken]) (by simp [Part.routineTaken])]
  have hother := (LabelContent.matchesTarget_false e.shown c).mpr hshown
  have hgrant : (p.routineTaken.loads .labelContent (p.find e.item).2).takeBuffer .other = (_, p.orderTaken e free) :=
    Part.takeBuffer_other (n := n) (by simpa [Part.routineTaken] using hfree) (by simpa [Part.routineTaken] using hroom)
  rw [hone, Part.takeOrders, if_pos hgo, hnext]
  simp only [htaken, hread, hcut, hother, Bool.false_eq_true, if_false, hgrant, Part.takeOrders]

theorem State.order_sent {s : State} {i n : Nat} {free : List Nat} {e : LabelEntry} {c : LabelContent}
    (hev : s.supply.takesEvents = true) (hgo : s.part.ordersGo = true) (hurgent : s.part.lab.urgent = [])
    (hroutine : s.part.lab.routine = [i]) (hat : s.part.labelAt i = some e) (hi : i < 4096) (htarget : s.part.targets e c)
    (hshown : e.shown = .unknown ∨ e.shown ≠ c) (hwindow : s.part.lab.window = []) (hfree : s.part.fwd.free = n :: free)
    (hbuffer : s.bufferFree) :
    ∃ t, exec .orderTimerTick s = .next t ∧
      t.part.lab =
        { s.part.lab with
          routine := [], orderTag := s.part.lab.orderTag + 1
          window := [⟨s.part.lab.orderTag, i, e.id, c, false, false⟩]
          tallies := (s.part.lab.tallies.remove e).add (e.ordered s.part.lab.orderTag c) } ∧
      t.part.labelBytes i = (e.ordered s.part.lab.orderTag c).bytes ∧ t.part.fwd.free = free ∧
      (∃ x, t.part.fwd.labels = beginHead (s.part.fwd.labels ++ [x]) ∧ x.tag = s.part.lab.orderTag ∧ x.buf.num = n ∧
        t.part.bufBytes x.buf = orderBytes s.part.lab.orderTag e.id c) ∧
      (∀ a, (a < labelAddr i ∨ labelAddr i + 48 ≤ a) → (a < bufAddr n ∨ bufAddr n + 2048 ≤ a) →
        Mem.read t.part.dram a = Mem.read s.part.dram a) ∧
      Unchanged [.links, .lab, .fwd, .memory] s t := by
  obtain ⟨hroom, hpool⟩ := hbuffer
  have hn : n < Config.poolSize := hpool n (by simp [hfree])
  have hbuf := bufAddr_below_labels hn i
  have hempty : (s.part.orderTaken e free).lab.window = [] := by simpa using hwindow
  have htag : (s.part.orderTaken e free).lab.orderTag = s.part.lab.orderTag := by simp
  have hread : (s.part.orderTaken e free).labelAt i = some e :=
    (Part.labelAt_of_dram (by simp) i).trans hat
  have hdram := Part.sendOrder_dram (i := i) (e := e) (c := c) (b := ⟨n, .plain, 0⟩) hempty
  have hfwd := Part.sendOrder_fwd (i := i) (e := e) (c := c) (b := ⟨n, .plain, 0⟩) hempty
  have hlab := Part.sendOrder_lab (c := c) (b := ⟨n, .plain, 0⟩) hempty hread hn
  obtain ⟨t, hexec, hsame, -⟩ := State.lands_of_run exec_orderTimerTick hev
  rw [Part.checkOrders_sends hgo hurgent hroutine hat htarget hshown hfree hroom] at hsame
  rw [htag] at hdram hfwd hlab
  have hmem : ∀ a, Mem.read t.part.dram a = _ := hsame .memory List.not_mem_nil
  obtain ⟨hqueued, hleft⟩ := s.part.orderTaken_fwd e free
  have hfwd' := (hsame .fwd List.not_mem_nil).trans hfwd
  obtain ⟨hbytes, hothers⟩ := Part.labelBytes_of_written hi hdram
  refine ⟨t, hexec, ((hsame .lab List.not_mem_nil).trans hlab).trans ?_, (Part.labelBytes_congr hmem i).trans hbytes, ?_,
    ⟨⟨⟨n, .plain, 17⟩, s.part.lab.orderTag, false⟩, ?_, rfl, rfl, ?_⟩, fun a hlabel hbuffer => ?_, hsame.after ?_⟩
  · simp
  · rw [hfwd']; exact hleft
  · rw [hfwd', ← hqueued]
  · have horder := Mem.readBytes_writeBytes (s.part.orderTaken e free).dram (orderBytes s.part.lab.orderTag e.id c) (bufAddr n)
      (by have := labelAddr_le hi; simp only [orderBytes_length, Config.dramSize]; omega)
    rw [orderBytes_length] at horder
    exact (Mem.readBytes_congr _ _ _ _ fun a _ ha =>
      (hmem a).trans (hothers a (Or.inl (by dsimp only at ha; omega)))).trans horder
  · rw [hmem, hothers a hlabel, Mem.read_writeBytes_outside _ _ _ _ (by rw [orderBytes_length]; dsimp only; omega)]
    simp
  · intro b hb
    cases b <;> simp [Piece.same] at hb ⊢

end Sys2Proof.Machine
end

section
/-! PROOFS. What the report of an order, or its timer, makes of the entry (R140 to R143, R153). -/

open Sys2Proof
namespace Sys2Proof.Machine

theorem exec_labelReportReceived (s : State) : exec .labelReportReceived s = s.run Part.labelReport := rfl
theorem exec_reportTimerExpiry (tag : Byte) (s : State) :
    exec (.reportTimerExpiry tag) s = s.run (Part.reportExpiry tag) := rfl

/-! ### an entry queued again (R136) -/

/-- An entry of this item joins the queue `u`. -/
def Part.queuesTo (p : Part) (item : Nat) (u : PushQueue) : Prop :=
  ((p.find item).1 = .notFound ∧ u = .routine) ∨
    ∃ k x, (p.find item).1 = .entry k x ∧ u = if x.hold = true then .urgent else .routine

theorem Part.queuesTo.of_kept {p q : Part} {item : Nat} {u : PushQueue} (h : p.queuesTo item u) (hdram : q.dram = p.dram)
    (hprice : q.price = p.price) : q.queuesTo item u := by
  simpa only [Part.queuesTo, Part.find_of_kept hdram hprice] using h

/-- Entry `i` is written, and joins the tail of queue `u`. -/
def Part.queued (u : PushQueue) (i : Nat) (e : LabelEntry) (p : Part) : Part :=
  (p.putLabel i e).modLab fun l => l.setQueue u (l.queue u ++ [i])

theorem Part.queueLabel_eq {p : Part} {i : Nat} {e : LabelEntry} {u : PushQueue} (h : p.queuesTo e.item u) :
    p.queueLabel i e =
      (p.loads .labelContent (p.find e.item).2).queued u i
        { e with state := .queued, queue := some u, tag := none, due := none } := by
  rcases h with ⟨hfind, rfl⟩ | ⟨k, x, hfind, rfl⟩
  · simp [Part.queueLabel, Part.lookupEntry_of_notFound _ hfind, Part.queued]
  · simp [Part.queueLabel, Part.lookupEntry_of_found _ hfind, Part.queued]

/-- An entry queued while no order goes. -/
theorem Part.queued_checkOrders {p : Part} {u : PushQueue} {i : Nat} {e : LabelEntry} (hgo : p.ordersGo = false) :
    (p.queued u i e).checkOrders = p.queued u i e :=
  Part.checkOrders_of_not_go (Part.ordersGo_of_kept hgo (by simp [Part.queued]) (by simp [Part.queued])
    (by cases u <;> simp [Part.queued, Part.putLabel_lab, Labels.setQueue])
    (by cases u <;> simp [Part.queued, Part.putLabel_lab, Labels.setQueue])
    (by cases u <;> simp [Part.queued, Part.putLabel_lab, Labels.setQueue]))

/-! ### the outcomes (R141 to R143) -/

section
variable {p : Part} {o : Order} {e : LabelEntry} {c : LabelContent}

/-- SHOWN, with the content that is still the target. -/
theorem Part.reportShown_current (htarget : p.targets e c) (hcontent : o.content = c) (hwalk : p.lab.walk = .none)
    (hevents : p.price.events = []) :
    p.reportShown o e =
      (((p.countLab fun k => { k with shown := bump k.shown }).loads .labelContent (p.find e.item).2).putLabel o.index
        { e with shown := c, attempts := 0, tag := none, state := .current }).notified [.current e.item] := by
  have hfind : (p.countLab fun k => { k with shown := bump k.shown }).find e.item = p.find e.item :=
    Part.find_of_kept (by simp [Part.countLab]) (by simp [Part.countLab]) _
  have hcut := Part.target_eq (p := p.countLab fun k => { k with shown := bump k.shown })
    (e := { e with shown := o.content, attempts := 0, tag := none }) (htarget.of_kept rfl rfl rfl rfl)
  have hsame := (LabelContent.matchesTarget_iff o.content c).mpr ⟨hcontent ▸ htarget.known, hcontent⟩
  simp only [Part.reportShown, hcut, hfind, hsame, if_true, Part.countEvent]
  rw [if_pos (by simp [Part.accounts, Part.putLabel_lab, Part.countLab, hwalk]),
    Part.sendEvent_eq (by simp [Part.countLab, hevents]), hcontent]

/-- SHOWN, with a content that is not the target any more. -/
theorem Part.reportShown_queued {u : PushQueue} (htarget : p.targets e c) (hcontent : o.content ≠ c ∨ o.content = .unknown)
    (hqueue : p.queuesTo e.item u) (hgo : p.ordersGo = false) :
    p.reportShown o e =
      (((p.countLab fun k => { k with shown := bump k.shown }).loads .labelContent (p.find e.item).2).loads .labelContent
        (p.find e.item).2).queued u o.index
        { e with shown := o.content, attempts := 0, tag := none, due := none, state := .queued, queue := some u } := by
  have hfind : (p.countLab fun k => { k with shown := bump k.shown }).find e.item = p.find e.item :=
    Part.find_of_kept (by simp [Part.countLab]) (by simp [Part.countLab]) _
  have hagain : ((p.countLab fun k => { k with shown := bump k.shown }).loads .labelContent (p.find e.item).2).find e.item =
      p.find e.item := Part.find_of_kept (by simp [Part.countLab]) (by simp [Part.countLab]) _
  have hcut := Part.target_eq (p := p.countLab fun k => { k with shown := bump k.shown })
    (e := { e with shown := o.content, attempts := 0, tag := none }) (htarget.of_kept rfl rfl rfl rfl)
  have hother := (LabelContent.matchesTarget_false o.content c).mpr hcontent.symm
  simp only [Part.reportShown, hcut, hfind, hother, Bool.false_eq_true, if_false, Part.queueAndCheck]
  rw [Part.queueLabel_eq (e := { e with shown := o.content, attempts := 0, tag := none }) (u := u)
    (hqueue.of_kept (by simp [Part.countLab]) (by simp [Part.countLab])), hagain]
  exact Part.queued_checkOrders (Part.ordersGo_of_kept hgo (by simp [Part.countLab]) (by simp [Part.countLab])
    (by simp [Part.countLab]) (by simp [Part.countLab]) (by simp [Part.countLab]))

theorem Part.failedAttempt_retry {i : Nat} (h : e.attempts + 1 < 5) :
    p.failedAttempt i e =
      p.putLabel i
        { e with
          state := .retryWait, attempts := e.attempts + 1, tag := none
          due := some (p.lab.retrySeconds + (e.attempts + 1) * 30) } :=
  if_neg (by simp only [Config.attemptsMax]; omega)

theorem Part.failedAttempt_last {i : Nat} (h : e.attempts + 1 = 5) :
    p.failedAttempt i e = p.unreachable i { e with attempts := 5 } := by
  simp only [Part.failedAttempt, h, Config.attemptsMax, if_true]
end

/-! ### the order found (R140, R142) -/

/-- The one order of the window is out, its entry in use, and nothing is queued. -/
structure Part.awaitsReport (p : Part) (o : Order) (e : LabelEntry) : Prop where
  urgent : p.lab.urgent = []
  routine : p.lab.routine = []
  window : p.lab.window = [o]
  entry : p.labelAt o.index = some e
  inTable : o.index < 4096
  sent : o.sentNotice = true
  notOrphan : o.orphan = false

/-- The order has left the window, and its entry has been read. -/
def Part.orderSettled (o : Order) (p : Part) : Part := (p.dropOrder o.tag).loadLabel

section
variable {p : Part} {o : Order}

theorem Part.dropOrder_only (h : p.lab.window = [o]) : (p.dropOrder o.tag).lab = { p.lab with window := [] } := by
  simp [Part.dropOrder, h]

theorem Part.orderSettled_lab (h : p.lab.window = [o]) : (p.orderSettled o).lab = { p.lab with window := [] } := by
  simpa [Part.orderSettled] using Part.dropOrder_only h

variable {e : LabelEntry} {b : Bytes} {bat : Battery} (hlength : b.length = 8)
  (hbattery : Battery.ofCode (fieldAt b 6 1) = some bat)
include hlength hbattery

theorem Part.takeReport_found (h : p.awaitsReport o e) {out : ReportOutcome}
    (hout : ReportOutcome.ofCode (fieldAt b 5 1) = some out) (htag : o.tag = byteAt b 1) (hid : o.id = fieldAt b 2 3) :
    p.takeReport b = ((p.orderSettled o).report o e out bat (fieldAt b 7 1)).checkOrders := by
  have hread : (p.dropOrder o.tag).loadLabel.labelAt o.index = some e := (Part.labelAt_of_dram (by simp) _).trans h.entry
  have hfound : p.lab.window.find? (fun o => decide (o.tag = byteAt b 1) && decide (o.id = fieldAt b 2 3) && o.sentNotice) =
      some o := by simp [h.window, ← htag, ← hid, h.sent]
  simp only [Part.takeReport, hout, hbattery, hlength, if_true, hfound, h.notOrphan, Bool.false_eq_true, if_false, hread,
    Part.orderSettled]

theorem Part.takeReport_stray (hwindow : p.lab.window = [o]) (hcode : fieldAt b 5 1 ≤ 2)
    (hother : o.tag ≠ byteAt b 1 ∨ o.id ≠ fieldAt b 2 3) : p.takeReport b = p.strayReport := by
  have hfound : p.lab.window.find? (fun o => decide (o.tag = byteAt b 1) && decide (o.id = fieldAt b 2 3) && o.sentNotice) =
      none := by
    rcases hother with h | h <;> simp [hwindow, h]
  obtain ⟨out, hout⟩ : ∃ out, ReportOutcome.ofCode (fieldAt b 5 1) = some out := by
    generalize fieldAt b 5 1 = n at hcode
    match n, hcode with
    | 0, _ => exact ⟨.shown, rfl⟩
    | 1, _ => exact ⟨.noAnswer, rfl⟩
    | 2, _ => exact ⟨.refused, rfl⟩
  simp only [Part.takeReport, hout, hbattery, hlength, if_true, hfound]
end

/-- One report timeout has been counted. -/
def Part.timeoutCounted (p : Part) : Part := p.countLab fun c => { c with timeouts := bump c.timeouts }

@[simp] theorem Part.timeoutCounted_frame (p : Part) :
    p.timeoutCounted.cfg = p.cfg ∧ p.timeoutCounted.branch = p.branch ∧ p.timeoutCounted.trunkFramer = p.trunkFramer ∧
      p.timeoutCounted.labelFramer = p.labelFramer ∧ p.timeoutCounted.guestFramer = p.guestFramer ∧
      p.timeoutCounted.links = p.links ∧ p.timeoutCounted.fwd = p.fwd ∧ p.timeoutCounted.call = p.call ∧
      p.timeoutCounted.pres = p.pres ∧ p.timeoutCounted.price = p.price ∧ p.timeoutCounted.till = p.till ∧
      p.timeoutCounted.jrn = p.jrn ∧
      p.timeoutCounted.lab = { p.lab with ctr := { p.lab.ctr with timeouts := bump p.lab.ctr.timeouts } } ∧
      p.timeoutCounted.gst = p.gst ∧ p.timeoutCounted.trk = p.trk ∧ p.timeoutCounted.hdr = p.hdr ∧
      p.timeoutCounted.memCtr = p.memCtr ∧ p.timeoutCounted.dram = p.dram ∧ p.timeoutCounted.written = p.written := by
  and_intros <;> rfl

theorem Part.reportExpiry_found {p : Part} {o : Order} {e : LabelEntry} (h : p.awaitsReport o e) :
    p.reportExpiry o.tag = ((p.dropOrder o.tag).timeoutCounted.loadLabel.failedAttempt o.index e).checkOrders := by
  have hread : (p.dropOrder o.tag).timeoutCounted.loadLabel.labelAt o.index = some e :=
    (Part.labelAt_of_dram (by simp) _).trans h.entry
  have hfound : p.lab.window.find? (fun x => decide (x.tag = o.tag) && x.sentNotice) = some o := by simp [h.window, h.sent]
  simp only [Part.reportExpiry, hfound, h.notOrphan, Bool.false_eq_true, if_false]
  rw [← Part.timeoutCounted, hread]

theorem Part.reportExpiry_orphan {p : Part} {o : Order} (hwindow : p.lab.window = [o]) (hsent : o.sentNotice = true)
    (horphan : o.orphan = true) :
    p.reportExpiry o.tag = (p.dropOrder o.tag).timeoutCounted.checkOrders := by
  have hfound : p.lab.window.find? (fun x => decide (x.tag = o.tag) && x.sentNotice) = some o := by simp [hwindow, hsent]
  simp only [Part.reportExpiry, hfound, horphan, if_true, Part.timeoutCounted]

end Sys2Proof.Machine
end

section
/-! PROOFS. Orders, reports and the report timer (R134, R139 to R143, R153). -/

open Sys2Proof
namespace Sys2Proof.Machine

/-- A frame of the label link has been heard, and the order that its report is about settled. -/
def Part.reportHeard (it : RxItem) (o : Order) (p : Part) : Part := (p.labelHeard it).orderSettled o

theorem Part.reportHeard_lab {p : Part} {o : Order} (it : RxItem) (h : p.lab.window = [o]) :
    (p.reportHeard it o).lab = { p.lab with headUp := true, headTimer := true, window := [] } :=
  Part.orderSettled_lab h

@[simp] theorem Part.reportHeard_frame (it : RxItem) (o : Order) (p : Part) :
    (p.reportHeard it o).cfg = p.cfg ∧ (p.reportHeard it o).branch = p.branch ∧
      (p.reportHeard it o).trunkFramer = p.trunkFramer ∧ (p.reportHeard it o).labelFramer = p.labelFramer ∧
      (p.reportHeard it o).guestFramer = p.guestFramer ∧ (p.reportHeard it o).links = p.links ∧
      (p.reportHeard it o).fwd = (p.fwd.without it).giveBack it.buf ∧ (p.reportHeard it o).call = p.call ∧
      (p.reportHeard it o).pres = p.pres ∧ (p.reportHeard it o).price = p.price ∧ (p.reportHeard it o).till = p.till ∧
      (p.reportHeard it o).jrn = p.jrn ∧ (p.reportHeard it o).gst = p.gst ∧ (p.reportHeard it o).trk = p.trk ∧
      (p.reportHeard it o).hdr = p.hdr ∧ (p.reportHeard it o).memCtr = p.memCtr ∧ (p.reportHeard it o).dram = p.dram ∧
      (p.reportHeard it o).written = p.written := by
  simp [Part.reportHeard, Part.orderSettled, Part.labelHeard]

/-! ### a report of the order (R140) -/

section
variable {s : State} {o : Order} {e : LabelEntry} {it : RxItem} {b : Bytes} {bat : Battery}
  (hev : s.supply.takesEvents = true) (hup : s.part.lab.headUp = true)
  (hframe : s.part.linkFrame .label .label = some (it, b)) (hkind : fieldAt b 0 1 = 2)
include hev hup hframe hkind

theorem State.lands_labelReport : s.lands .labelReportReceived ((s.part.labelHeard it).takeReport b) := by
  have hlands := State.lands_of_run exec_labelReportReceived hev
  rwa [Part.labelReport, Part.takeLabelFrame_of _ hframe (by simp [hkind, linkReport]) (Or.inl hup)] at hlands

variable (hlength : b.length = 8) (hbattery : Battery.ofCode (fieldAt b 6 1) = some bat)
include hlength hbattery

theorem State.report_stray (hwindow : s.part.lab.window = [o]) (hcode : fieldAt b 5 1 ≤ 2)
    (hother : o.tag ≠ byteAt b 1 ∨ o.id ≠ fieldAt b 2 3) :
    ∃ t, exec .labelReportReceived s = .next t ∧
      t.part.lab =
        { s.part.lab with
          headTimer := true, ctr := { s.part.lab.ctr with strayReports := bump s.part.lab.ctr.strayReports } } ∧
      t.part.fwd = (s.part.fwd.without it).giveBack it.buf ∧ Unchanged [.lab, .fwd] s t := by
  have hlands := State.lands_labelReport hev hup hframe hkind
  rw [Part.takeReport_stray hlength hbattery (p := s.part.labelHeard it) hwindow hcode hother] at hlands
  obtain ⟨t, hexec, hlab, -, hfwd, hsame⟩ := State.lands_shows (but := [.lab, .fwd]) hlands fun b hb => by
    cases b <;> simp [Piece.same, Part.labelHeard, Part.strayReport, Part.countLab] at hb ⊢
  exact ⟨t, hexec, hlab.trans (by simp [Part.strayReport, Part.countLab, Part.labelHeard, hup]), hfwd, hsame⟩

variable (h : s.part.awaitsReport o e) (htag : o.tag = byteAt b 1) (hid : o.id = fieldAt b 2 3)
include h htag hid

/-- A report of the order ends in what its outcome makes of the entry, where no order follows it. -/
theorem State.lands_outcome {out : ReportOutcome} (hout : ReportOutcome.ofCode (fieldAt b 5 1) = some out) {q : Part}
    (hq : (s.part.reportHeard it o).report o e out bat (fieldAt b 7 1) = q) (hdone : q.checkOrders = q) :
    s.lands .labelReportReceived q := by
  have hlands := State.lands_labelReport hev hup hframe hkind
  have heard : (s.part.labelHeard it).awaitsReport o e :=
    ⟨h.urgent, h.routine, h.window, (Part.labelAt_of_dram rfl _).trans h.entry, h.inTable, h.sent, h.notOrphan⟩
  rw [Part.takeReport_found hlength hbattery heard hout htag hid] at hlands
  rw [← hdone, ← hq]
  exact hlands

theorem State.report_shown {c : LabelContent} (hcode : fieldAt b 5 1 = 0) (htarget : s.part.targets e c)
    (hcontent : o.content = c) (hwalk : s.part.lab.walk = .none) (hevents : s.part.price.events = []) :
    ∃ t, exec .labelReportReceived s = .next t ∧ t.part.lab.window = [] ∧
      t.part.lab.ctr = { s.part.lab.ctr with shown := bump s.part.lab.ctr.shown } ∧
      t.part.labelBytes o.index =
        ({ e with battery := bat, signal := fieldAt b 7 1, shown := c, attempts := 0, tag := none
                  state := .current } : LabelEntry).bytes ∧
      t.part.price = { s.part.price with events := [.current e.item] } ∧
      t.part.fwd = (s.part.fwd.without it).giveBack it.buf ∧
      (∀ a, a < labelAddr o.index ∨ labelAddr o.index + 48 ≤ a → Mem.read t.part.dram a = Mem.read s.part.dram a) ∧
      Unchanged [.lab, .fwd, .price, .memory] s t := by
  have hlab := Part.reportHeard_lab it h.window
  have hshown := Part.reportShown_current (p := s.part.reportHeard it o) (o := o)
    (e := { e with battery := bat, signal := fieldAt b 7 1 }) (htarget.of_kept (by simp) (by simp) rfl rfl) hcontent
    (by rw [hlab]; exact hwalk) (by simpa using hevents)
  have hlands := State.lands_outcome hev hup hframe hkind hlength hbattery h htag hid (out := .shown) (by rw [hcode]; rfl)
    hshown (Part.checkOrders_of_empty (by simp [Part.putLabel_lab, Part.countLab, hlab, h.urgent])
      (by simp [Part.putLabel_lab, Part.countLab, hlab, h.routine]))
  obtain ⟨t, hexec, htlab, hprice, hfwd, hbytes, hothers, hsame⟩ := State.lands_entry
    (but := [.lab, .fwd, .price, .memory])
    (e := { e with battery := bat, signal := fieldAt b 7 1, shown := c, attempts := 0, tag := none, state := .current })
    h.inTable hlands (by simp [Part.countLab])
    fun b hb => by cases b <;> simp [Piece.same, Part.countLab] at hb ⊢
  refine ⟨t, hexec, ?_, ?_, hbytes, hprice.trans ?_, hfwd.trans ?_, hothers, hsame⟩
  · simp [htlab, Part.putLabel_lab, Part.countLab, hlab]
  · simp [htlab, Part.putLabel_lab, Part.countLab, hlab]
  · simp [Part.countLab, hevents]
  · simp [Part.countLab]

theorem State.report_outdated {c : LabelContent} {u : PushQueue} (hcode : fieldAt b 5 1 = 0) (htarget : s.part.targets e c)
    (hqueue : s.part.queuesTo e.item u) (hcontent : o.content ≠ c ∨ o.content = .unknown) (hgo : s.part.ordersGo = false)
    {w : LabelEntry}
    (hw : w =
      { e with
        battery := bat, signal := fieldAt b 7 1, shown := o.content, attempts := 0, tag := none, due := none
        state := .queued, queue := some u }) :
    ∃ t, exec .labelReportReceived s = .next t ∧
      t.part.lab =
        { s.part.lab with
          headTimer := true, window := []
          urgent := if u = .urgent then [o.index] else [], routine := if u = .routine then [o.index] else []
          tallies := (s.part.lab.tallies.remove e).add w
          ctr := { s.part.lab.ctr with shown := bump s.part.lab.ctr.shown } } ∧
      t.part.labelBytes o.index = w.bytes ∧ t.part.fwd = (s.part.fwd.without it).giveBack it.buf ∧
      (∀ a, a < labelAddr o.index ∨ labelAddr o.index + 48 ≤ a → Mem.read t.part.dram a = Mem.read s.part.dram a) ∧
      Unchanged [.lab, .fwd, .memory] s t := by
  subst hw
  have hlab := Part.reportHeard_lab it h.window
  have hstops : (s.part.reportHeard it o).ordersGo = false :=
    Part.ordersGo_of_kept hgo (by simp) (by simp) (by simp [hlab, hup]) (by simp [hlab]) (by simp [h.window])
  have hshown := Part.reportShown_queued (p := s.part.reportHeard it o) (o := o)
    (e := { e with battery := bat, signal := fieldAt b 7 1 }) (htarget.of_kept (by simp) (by simp) rfl rfl) hcontent
    (hqueue.of_kept (by simp) (by simp)) hstops
  have hlands := State.lands_outcome hev hup hframe hkind hlength hbattery h htag hid (out := .shown) (by rw [hcode]; rfl)
    hshown (Part.queued_checkOrders (Part.ordersGo_of_kept hstops (by simp [Part.countLab]) (by simp [Part.countLab])
      (by simp [Part.countLab]) (by simp [Part.countLab]) (by simp [Part.countLab])))
  obtain ⟨t, hexec, htlab, -, hfwd, hbytes, hothers, hsame⟩ := State.lands_entry (but := [.lab, .fwd, .memory])
    (e := { e with
      battery := bat, signal := fieldAt b 7 1, shown := o.content, attempts := 0, tag := none, due := none
      state := .queued, queue := some u })
    h.inTable hlands (by simp [Part.queued, Part.countLab])
    fun b hb => by cases b <;> simp [Piece.same, Part.queued, Part.countLab] at hb ⊢
  have hold (q : Part) (hdram : q.dram = s.part.dram) : q.labelAt o.index = some e :=
    (Part.labelAt_of_dram hdram _).trans h.entry
  refine ⟨t, hexec, htlab.trans ?_, hbytes, hfwd.trans ?_, hothers, hsame⟩
  · simp only [Part.queued, Part.modLab_lab, Part.putLabel_lab]
    rw [hold _ (by simp [Part.countLab])]
    cases u <;> simp [Labels.setQueue, Labels.queue, Part.countLab, hlab, LabelTallies.without, h.urgent, h.routine, hup]
  · simp [Part.queued, Part.countLab]

theorem State.report_noAnswer (hcode : fieldAt b 5 1 = 1) (hagain : e.attempts + 1 < 5) :
    ∃ t, exec .labelReportReceived s = .next t ∧ t.part.lab.window = [] ∧
      t.part.lab.ctr = { s.part.lab.ctr with noAnswer := bump s.part.lab.ctr.noAnswer } ∧
      t.part.labelBytes o.index =
        ({ e with state := .retryWait, attempts := e.attempts + 1, tag := none
                  due := some (s.part.lab.retrySeconds + (e.attempts + 1) * 30) } : LabelEntry).bytes ∧
      t.part.fwd = (s.part.fwd.without it).giveBack it.buf ∧
      (∀ a, a < labelAddr o.index ∨ labelAddr o.index + 48 ≤ a → Mem.read t.part.dram a = Mem.read s.part.dram a) ∧
      Unchanged [.lab, .fwd, .memory] s t := by
  have hlab := Part.reportHeard_lab it h.window
  have hlands := State.lands_outcome hev hup hframe hkind hlength hbattery h htag hid (out := .noAnswer) (by rw [hcode]; rfl)
    (Part.failedAttempt_retry hagain) (Part.checkOrders_of_empty (by simp [Part.putLabel_lab, Part.countLab, hlab, h.urgent])
      (by simp [Part.putLabel_lab, Part.countLab, hlab, h.routine]))
  obtain ⟨t, hexec, htlab, -, hfwd, hbytes, hothers, hsame⟩ := State.lands_entry (but := [.lab, .fwd, .memory])
    (e := { e with
      state := .retryWait, attempts := e.attempts + 1, tag := none
      due := some (s.part.lab.retrySeconds + (e.attempts + 1) * 30) })
    h.inTable hlands (by simp [Part.countLab, hlab])
    fun b hb => by cases b <;> simp [Piece.same, Part.countLab] at hb ⊢
  refine ⟨t, hexec, ?_, ?_, hbytes, hfwd.trans ?_, hothers, hsame⟩
  · simp [htlab, Part.putLabel_lab, Part.countLab, hlab]
  · simp [htlab, Part.putLabel_lab, Part.countLab, hlab]
  · simp [Part.countLab]

theorem State.report_refused (hcode : fieldAt b 5 1 = 2) :
    ∃ t, exec .labelReportReceived s = .next t ∧ t.part.lab.window = [] ∧
      t.part.lab.ctr =
        { s.part.lab.ctr with
          refused := bump s.part.lab.ctr.refused, unreachable := bump s.part.lab.ctr.unreachable } ∧
      t.part.labelBytes o.index =
        ({ e with battery := bat, signal := fieldAt b 7 1, state := .unreachable, queue := none, tag := none
                  due := none } : LabelEntry).bytes ∧
      t.part.fwd = (s.part.fwd.without it).giveBack it.buf ∧
      (∀ a, a < labelAddr o.index ∨ labelAddr o.index + 48 ≤ a → Mem.read t.part.dram a = Mem.read s.part.dram a) ∧
      Unchanged [.lab, .fwd, .memory] s t := by
  have hlab := Part.reportHeard_lab it h.window
  have hlands := State.lands_outcome hev hup hframe hkind hlength hbattery h htag hid (out := .refused) (by rw [hcode]; rfl)
    rfl (Part.checkOrders_of_empty
      (by simp [Part.report, Part.unreachable, Part.putLabel_lab, Part.countLab, hlab, h.urgent])
      (by simp [Part.report, Part.unreachable, Part.putLabel_lab, Part.countLab, hlab, h.routine]))
  obtain ⟨t, hexec, htlab, -, hfwd, hbytes, hothers, hsame⟩ := State.lands_entry (but := [.lab, .fwd, .memory])
    (e := { e with
      battery := bat, signal := fieldAt b 7 1, state := .unreachable, queue := none, tag := none, due := none })
    h.inTable hlands (by simp [Part.report, Part.unreachable, Part.countLab])
    fun b hb => by cases b <;> simp [Piece.same, Part.report, Part.unreachable, Part.countLab] at hb ⊢
  refine ⟨t, hexec, ?_, ?_, hbytes, hfwd.trans ?_, hothers, hsame⟩
  · simp [htlab, Part.report, Part.unreachable, Part.putLabel_lab, Part.countLab, hlab]
  · simp [htlab, Part.report, Part.unreachable, Part.putLabel_lab, Part.countLab, hlab]
  · simp [Part.report, Part.unreachable, Part.countLab]
end

/-! ### the report timer (R142, R153) -/

section
variable {s : State} {o : Order} (hev : s.supply.takesEvents = true)
include hev

theorem State.report_expired_orphan (hurgent : s.part.lab.urgent = []) (hroutine : s.part.lab.routine = [])
    (hwindow : s.part.lab.window = [o]) (hsent : o.sentNotice = true) (horphan : o.orphan = true) :
    ∃ t, exec (.reportTimerExpiry o.tag) s = .next t ∧
      t.part.lab =
        { s.part.lab with
          window := [], ctr := { s.part.lab.ctr with timeouts := bump s.part.lab.ctr.timeouts } } ∧
      Unchanged [.lab] s t := by
  have hlab := Part.dropOrder_only hwindow
  have hlands := State.lands_of_run (exec_reportTimerExpiry o.tag) hev
  rw [Part.reportExpiry_orphan hwindow hsent horphan,
    Part.checkOrders_of_empty (by simp [hlab, hurgent]) (by simp [hlab, hroutine])] at hlands
  obtain ⟨t, hexec, htlab, -, -, hsame⟩ := State.lands_shows (but := [.lab]) hlands fun b hb => by
    cases b <;> simp [Piece.same] at hb ⊢
  exact ⟨t, hexec, htlab.trans (by simp [hlab]), hsame⟩

variable {e : LabelEntry} (h : s.part.awaitsReport o e)
include h

theorem State.lands_reportExpiry {q : Part}
    (hq : (s.part.dropOrder o.tag).timeoutCounted.loadLabel.failedAttempt o.index e = q)
    (hurgent : q.lab.urgent = s.part.lab.urgent) (hroutine : q.lab.routine = s.part.lab.routine) :
    s.lands (.reportTimerExpiry o.tag) q := by
  have hlands := State.lands_of_run (exec_reportTimerExpiry o.tag) hev
  rwa [Part.reportExpiry_found h, hq, Part.checkOrders_of_empty (hurgent.trans h.urgent) (hroutine.trans h.routine)] at hlands

theorem State.report_expired (hagain : e.attempts + 1 < 5) :
    ∃ t, exec (.reportTimerExpiry o.tag) s = .next t ∧ t.part.lab.window = [] ∧
      t.part.lab.ctr = { s.part.lab.ctr with timeouts := bump s.part.lab.ctr.timeouts } ∧
      t.part.labelBytes o.index =
        ({ e with state := .retryWait, attempts := e.attempts + 1, tag := none
                  due := some (s.part.lab.retrySeconds + (e.attempts + 1) * 30) } : LabelEntry).bytes ∧
      (∀ a, a < labelAddr o.index ∨ labelAddr o.index + 48 ≤ a → Mem.read t.part.dram a = Mem.read s.part.dram a) ∧
      Unchanged [.lab, .memory] s t := by
  have hlab := Part.dropOrder_only h.window
  have hlands := State.lands_reportExpiry hev h (Part.failedAttempt_retry hagain)
    (by simp [Part.putLabel_lab, hlab]) (by simp [Part.putLabel_lab, hlab])
  obtain ⟨t, hexec, htlab, -, -, hbytes, hothers, hsame⟩ := State.lands_entry (but := [.lab, .memory])
    (e := { e with
      state := .retryWait, attempts := e.attempts + 1, tag := none
      due := some (s.part.lab.retrySeconds + (e.attempts + 1) * 30) })
    h.inTable hlands (by simp [hlab])
    fun b hb => by cases b <;> simp [Piece.same] at hb ⊢
  refine ⟨t, hexec, ?_, ?_, hbytes, hothers, hsame⟩ <;>
    simp [htlab, Part.putLabel_lab, hlab]

theorem State.report_expired_last (hlast : e.attempts + 1 = 5) :
    ∃ t, exec (.reportTimerExpiry o.tag) s = .next t ∧ t.part.lab.window = [] ∧
      t.part.lab.ctr =
        { s.part.lab.ctr with
          timeouts := bump s.part.lab.ctr.timeouts, unreachable := bump s.part.lab.ctr.unreachable } ∧
      t.part.labelBytes o.index =
        ({ e with state := .unreachable, queue := none, attempts := 5, tag := none, due := none } : LabelEntry).bytes ∧
      (∀ a, a < labelAddr o.index ∨ labelAddr o.index + 48 ≤ a → Mem.read t.part.dram a = Mem.read s.part.dram a) ∧
      Unchanged [.lab, .memory] s t := by
  have hlab := Part.dropOrder_only h.window
  have hlands := State.lands_reportExpiry hev h (Part.failedAttempt_last hlast)
    (by simp [Part.unreachable, Part.putLabel_lab, Part.countLab, hlab])
    (by simp [Part.unreachable, Part.putLabel_lab, Part.countLab, hlab])
  obtain ⟨t, hexec, htlab, -, -, hbytes, hothers, hsame⟩ := State.lands_entry (but := [.lab, .memory])
    (e := { e with state := .unreachable, queue := none, attempts := 5, tag := none, due := none })
    h.inTable hlands (by simp [Part.unreachable, Part.countLab])
    fun b hb => by cases b <;> simp [Piece.same, Part.unreachable, Part.countLab] at hb ⊢
  refine ⟨t, hexec, ?_, ?_, hbytes, hothers, hsame⟩ <;>
    simp [htlab, Part.unreachable, Part.putLabel_lab, Part.countLab, hlab]
end

end Sys2Proof.Machine

open Sys2Proof.Machine

/-- Settles O50: the order of the one entry queued, each outcome of its report, and its report timer. -/
theorem ordersAndReports : Obligations.OrdersAndReports := by
  refine ⟨fun s i n free e c hev hgo hurgent hroutine hat hi htarget hshown hwindow hfree hbuffer =>
      State.order_sent hev hgo hurgent hroutine hat hi htarget hshown hwindow hfree hbuffer,
    fun s o e hev hup hurgent hroutine hwalk hwindow hat hindex hsent horphan hevents => ?_,
    fun s o hev hurgent hroutine hwindow hsent horphan =>
      State.report_expired_orphan hev hurgent hroutine hwindow hsent horphan⟩
  have hout : s.part.awaitsReport o e := ⟨hurgent, hroutine, hwindow, hat, hindex, hsent, horphan⟩
  refine ⟨fun it b bat hframe hkind hlength hbattery => ⟨fun hother hcode => ?_, fun htag hid => ⟨?_, ?_, ?_, ?_⟩⟩,
    State.report_expired hev hout, State.report_expired_last hev hout⟩
  · exact State.report_stray hev hup hframe hkind hlength hbattery hwindow hcode hother
  · intro c hcode htarget hcontent
    exact State.report_shown hev hup hframe hkind hlength hbattery hout htag hid hcode htarget hcontent hwalk hevents
  · intro c w u hcode hlooked hcontent hgo hw
    have htarget : s.part.targets e c := by
      rcases hlooked with ⟨hfind, hc, -⟩ | ⟨k, x, hfind, hc, -⟩
      · exact Or.inl ⟨hfind, hc⟩
      · exact Or.inr ⟨k, x, hfind, hc⟩
    have hqueue : s.part.queuesTo e.item u := by
      rcases hlooked with ⟨hfind, -, hu⟩ | ⟨k, x, hfind, -, hu⟩
      · exact Or.inl ⟨hfind, hu⟩
      · exact Or.inr ⟨k, x, hfind, hu⟩
    exact State.report_outdated hev hup hframe hkind hlength hbattery hout htag hid hcode htarget hqueue hcontent hgo hw
  · exact State.report_noAnswer hev hup hframe hkind hlength hbattery hout htag hid
  · exact State.report_refused hev hup hframe hkind hlength hbattery hout htag hid
end

section
/-! PROOFS. Notices of a label, and entries whose back-off has ended (R142, R144). -/

open Sys2Proof
namespace Sys2Proof.Machine

theorem exec_labelNoticeReceived (s : State) : exec .labelNoticeReceived s = s.run Part.labelNotice := rfl
theorem exec_retryTimerTick (s : State) : exec .retryTimerTick s = s.run Part.retryTick := rfl

theorem Part.findLabel_of_dram {p q : Part} (h : q.dram = p.dram) (id : Nat) : q.findLabel id = p.findLabel id := by
  simp only [Part.findLabel, Part.labelAt_of_dram h]

theorem Part.labelsInUse_of_dram {p q : Part} (h : q.dram = p.dram) : q.labelsInUse = p.labelsInUse := by
  simp only [Part.labelsInUse, Part.labelAt_of_dram h]

theorem Part.notified_none (p : Part) : p.notified [] = p := by
  simp [Part.notified, Part.modPrice]

theorem Part.countEvent_eq {p : Part} {e : LabelEntry} {ev : LabelEvent}
    (h : (p.price.events ++ [ev]).head? ≠ some .walkEnd) :
    p.countEvent e ev = p.notified (if p.accounts e = true then [ev] else []) := by
  unfold Part.countEvent
  split
  · exact Part.sendEvent_eq h
  · exact p.notified_none.symm

/-- An entry queued while no order goes. -/
theorem Part.routined_checkOrders {p : Part} {i : Nat} {e : LabelEntry} (evs : List LabelEvent) (hgo : p.ordersGo = false) :
    ((p.routined i e).notified evs).checkOrders = (p.routined i e).notified evs :=
  Part.checkOrders_of_not_go (Part.ordersGo_of_kept hgo (by simp) (by simp) (by simp [Part.routined_lab])
    (by simp [Part.routined_lab]) (by simp [Part.routined_lab]))

theorem Part.queueAndCheck_routine {p : Part} {i : Nat} {e : LabelEntry} (hitem : (p.find e.item).1 = .notFound)
    (hgo : p.ordersGo = false) :
    p.queueAndCheck i e =
      (p.loads .labelContent (p.find e.item).2).routined i
        { e with state := .queued, queue := some .routine, tag := none, due := none } := by
  have hstops := Part.routined_checkOrders (p := p.loads .labelContent (p.find e.item).2) (i := i)
    (e := { e with state := .queued, queue := some .routine, tag := none, due := none }) []
    (Part.ordersGo_of_kept hgo (by simp) (by simp) (by simp) (by simp) (by simp))
  rw [Part.notified_none] at hstops
  rw [Part.queueAndCheck, Part.queueLabel_routine hitem, hstops]

/-! ### a notice (R144) -/

/-- "Label not current" of an entry that was CURRENT and is accounted for. -/
def Part.leftEvents (p : Part) (e : LabelEntry) : List LabelEvent :=
  if e.state = .current ∧ p.accounts e = true then [.notCurrent e.item] else []

/-- The entry as a notice with the refresh mark queues it. -/
def LabelEntry.refreshed (e : LabelEntry) : LabelEntry :=
  { e with
    state := .queued, queue := some .routine, tag := none, due := none
    shown := if e.state = .current then .unknown else e.shown
    attempts := if e.state = .unreachable then 0 else e.attempts }

section
variable {p : Part} {i : Nat} {e : LabelEntry}

theorem Part.refreshLabel_stays (h : e.state = .queued ∨ e.state = .sent) : p.refreshLabel i e = p.putLabel i e := by
  unfold Part.refreshLabel
  rcases h with h | h <;> rw [h]

theorem Part.refreshLabel_queues (hstate : e.state = .current ∨ e.state = .retryWait ∨ e.state = .unreachable)
    (hitem : (p.find e.item).1 = .notFound) (hevents : p.price.events = []) (hgo : p.ordersGo = false) :
    p.refreshLabel i e =
      ((p.loads .labelContent (p.find e.item).2).routined i e.refreshed).notified (p.leftEvents e) := by
  unfold Part.refreshLabel
  split
  next h =>
    rw [Part.queueLabel_routine (e := { e with shown := .unknown }) hitem, Part.countEvent_eq (by simp [hevents]),
      Part.routined_checkOrders _ (Part.ordersGo_of_kept hgo (by simp) (by simp) (by simp) (by simp) (by simp))]
    simp [LabelEntry.refreshed, Part.leftEvents, Part.accounts, Part.routined_lab, h]
  next h => simp [h] at hstate
  next h => simp [h] at hstate
  next h =>
    rw [Part.queueAndCheck_routine hitem hgo]
    simp [LabelEntry.refreshed, Part.leftEvents, Part.notified_none, h]
  next h =>
    rw [Part.queueAndCheck_routine (e := { e with attempts := 0 }) hitem hgo]
    simp [LabelEntry.refreshed, Part.leftEvents, Part.notified_none, h]
end

section
variable {p : Part} {b : Bytes} {i : Nat} {e : LabelEntry} {bat : Battery}

theorem Part.takeNotice_known (hfound : p.findLabel (fieldAt b 1 3) = some (i, e))
    (hbattery : Battery.ofCode (fieldAt b 4 1) = some bat) (hlength : b.length = 6) (hmark : fieldAt b 5 1 ≤ 1)
    (hid : fieldAt b 1 3 ≠ 0) :
    p.takeNotice b =
      if fieldAt b 5 1 = 1 then (p.loads .labelTable (labelBursts * (i + 1))).refreshLabel i { e with battery := bat }
      else (p.loads .labelTable (labelBursts * (i + 1))).putLabel i { e with battery := bat } := by
  unfold Part.takeNotice
  rw [Part.searchLabel_some hfound, hbattery]
  exact if_pos ⟨hlength, hmark, hid⟩

theorem Part.takeNotice_unknown (h : p.findLabel (fieldAt b 1 3) = none) : p.takeNotice b = p.loadLabels.strayNotice := by
  unfold Part.takeNotice
  rw [Part.searchLabel_none h]
end

/-- The label of a notice has been found in the table. -/
def Part.noticeFound (it : RxItem) (i : Nat) (p : Part) : Part :=
  (p.labelHeard it).loads .labelTable (labelBursts * (i + 1))

@[simp] theorem Part.noticeFound_frame (it : RxItem) (i : Nat) (p : Part) :
    (p.noticeFound it i).cfg = p.cfg ∧ (p.noticeFound it i).branch = p.branch ∧
      (p.noticeFound it i).trunkFramer = p.trunkFramer ∧ (p.noticeFound it i).labelFramer = p.labelFramer ∧
      (p.noticeFound it i).guestFramer = p.guestFramer ∧ (p.noticeFound it i).links = p.links ∧
      (p.noticeFound it i).fwd = (p.fwd.without it).giveBack it.buf ∧ (p.noticeFound it i).call = p.call ∧
      (p.noticeFound it i).pres = p.pres ∧ (p.noticeFound it i).price = p.price ∧ (p.noticeFound it i).till = p.till ∧
      (p.noticeFound it i).jrn = p.jrn ∧ (p.noticeFound it i).lab = { p.lab with headUp := true, headTimer := true } ∧
      (p.noticeFound it i).gst = p.gst ∧ (p.noticeFound it i).trk = p.trk ∧ (p.noticeFound it i).hdr = p.hdr ∧
      (p.noticeFound it i).memCtr = p.memCtr ∧ (p.noticeFound it i).dram = p.dram ∧
      (p.noticeFound it i).written = p.written := by
  simp [Part.noticeFound, Part.labelHeard]

section
variable {s : State} {it : RxItem} {b : Bytes} (hev : s.supply.takesEvents = true)
  (hframe : s.part.linkFrame .label .label = some (it, b)) (hkind : fieldAt b 0 1 = 3) (hready : s.part.labelsReady = true)
  (hup : s.part.lab.headUp = true)
include hev hframe hkind hready hup

theorem State.lands_labelNotice : s.lands .labelNoticeReceived ((s.part.labelHeard it).takeNotice b) := by
  have hlands := State.lands_of_run exec_labelNoticeReceived hev
  rwa [Part.labelNotice, if_pos hready, Part.takeLabelFrame_of _ hframe (by simp [hkind, linkNotice]) (Or.inl hup)] at hlands

theorem State.notice_stray (hnone : s.part.findLabel (fieldAt b 1 3) = none) :
    ∃ t, exec .labelNoticeReceived s = .next t ∧
      t.part.lab =
        { s.part.lab with
          headTimer := true, ctr := { s.part.lab.ctr with strayNotices := bump s.part.lab.ctr.strayNotices } } ∧
      t.part.fwd = (s.part.fwd.without it).giveBack it.buf ∧ Unchanged [.lab, .fwd] s t := by
  have hlands := State.lands_labelNotice hev hframe hkind hready hup
  rw [Part.takeNotice_unknown (p := s.part.labelHeard it) ((Part.findLabel_of_dram rfl _).trans hnone)] at hlands
  obtain ⟨t, hexec, hlab, -, hfwd, hsame⟩ := State.lands_shows (but := [.lab, .fwd]) hlands fun b hb => by
    cases b <;> simp [Piece.same, Part.labelHeard, Part.strayNotice, Part.countLab] at hb ⊢
  refine ⟨t, hexec, hlab.trans ?_, hfwd.trans ?_, hsame⟩
  · simp [Part.strayNotice, Part.countLab, Part.labelHeard, hup]
  · simp [Part.strayNotice, Part.countLab, Part.labelHeard]

variable {i : Nat} {e : LabelEntry} {bat : Battery} (hlength : b.length = 6)
  (hfound : s.part.findLabel (fieldAt b 1 3) = some (i, e)) (hbattery : Battery.ofCode (fieldAt b 4 1) = some bat)
  (hid : fieldAt b 1 3 ≠ 0)
include hlength hfound hbattery hid

theorem State.notice_stays
    (hmark : fieldAt b 5 1 = 0 ∨ fieldAt b 5 1 = 1 ∧ (e.state = .queued ∨ e.state = .sent)) :
    ∃ t, exec .labelNoticeReceived s = .next t ∧
      t.part.labelBytes i = ({ e with battery := bat } : LabelEntry).bytes ∧
      t.part.lab =
        { s.part.lab with headTimer := true, tallies := (s.part.lab.tallies.remove e).add { e with battery := bat } } ∧
      t.part.fwd = (s.part.fwd.without it).giveBack it.buf ∧
      (∀ a, a < labelAddr i ∨ labelAddr i + 48 ≤ a → Mem.read t.part.dram a = Mem.read s.part.dram a) ∧
      Unchanged [.lab, .fwd, .memory] s t := by
  obtain ⟨hi, hat⟩ := Part.findLabel_some hfound
  have hput : (s.part.labelHeard it).takeNotice b = (s.part.noticeFound it i).putLabel i { e with battery := bat } := by
    rw [Part.takeNotice_known (p := s.part.labelHeard it) ((Part.findLabel_of_dram rfl _).trans hfound) hbattery hlength
      (by omega) hid]
    rcases hmark with h | ⟨h, hstate⟩
    · exact if_neg (by omega)
    · exact (if_pos h).trans (Part.refreshLabel_stays (e := { e with battery := bat }) hstate)
  have hlands := State.lands_labelNotice hev hframe hkind hready hup
  rw [hput] at hlands
  obtain ⟨t, hexec, hlab, -, hfwd, hbytes, hothers, hsame⟩ := State.lands_entry (but := [.lab, .fwd, .memory])
    (e := { e with battery := bat }) hi hlands (by simp) fun b hb => by cases b <;> simp [Piece.same] at hb ⊢
  refine ⟨t, hexec, hbytes, hlab.trans ?_, hfwd.trans (by simp), hothers, hsame⟩
  simp [Part.putLabel_lab, Part.labelAt_of_dram (p := s.part), hat, LabelTallies.without, hup]

theorem State.notice_queues (hmark : fieldAt b 5 1 = 1)
    (hstate : e.state = .current ∨ e.state = .retryWait ∨ e.state = .unreachable)
    (hitem : (s.part.find e.item).1 = .notFound) (hevents : s.part.price.events = []) (hgo : s.part.ordersGo = false) :
    ∃ t, exec .labelNoticeReceived s = .next t ∧
      t.part.labelBytes i = ({ e with battery := bat } : LabelEntry).refreshed.bytes ∧
      t.part.lab =
        { s.part.lab with
          headTimer := true, routine := s.part.lab.routine ++ [i]
          tallies := (s.part.lab.tallies.remove e).add ({ e with battery := bat } : LabelEntry).refreshed } ∧
      t.part.price = { s.part.price with events := s.part.leftEvents e } ∧
      t.part.fwd = (s.part.fwd.without it).giveBack it.buf ∧
      (∀ a, a < labelAddr i ∨ labelAddr i + 48 ≤ a → Mem.read t.part.dram a = Mem.read s.part.dram a) ∧
      Unchanged [.lab, .fwd, .price, .memory] s t := by
  obtain ⟨hi, hat⟩ := Part.findLabel_some hfound
  have hfind : (s.part.noticeFound it i).find e.item = s.part.find e.item := Part.find_of_kept (by simp) (by simp) _
  have hqueued := Part.refreshLabel_queues (p := s.part.noticeFound it i) (i := i) (e := { e with battery := bat }) hstate
    (by simp only [hfind, hitem]) (by simpa using hevents)
    (Part.ordersGo_of_kept hgo (by simp) (by simp) (by simp [hup]) (by simp) (by simp))
  have hlands := State.lands_labelNotice hev hframe hkind hready hup
  rw [Part.takeNotice_known (p := s.part.labelHeard it) ((Part.findLabel_of_dram rfl _).trans hfound) hbattery hlength
    (by omega) hid, if_pos hmark, ← Part.noticeFound, hqueued] at hlands
  obtain ⟨t, hexec, hlab, hprice, hfwd, hbytes, hothers, hsame⟩ := State.lands_entry (but := [.lab, .fwd, .price, .memory])
    (e := ({ e with battery := bat } : LabelEntry).refreshed) hi hlands (by simp)
    fun b hb => by cases b <;> simp [Piece.same] at hb ⊢
  refine ⟨t, hexec, hbytes, hlab.trans ?_, hprice.trans ?_, hfwd.trans (by simp), hothers, hsame⟩
  · simp [Part.routined_lab, Part.labelAt_of_dram (p := s.part), hat, LabelTallies.without, hup]
  · simp [hevents, Part.leftEvents, Part.accounts]
end

/-! ### a second of the retry timer (R142) -/

/-- The retry timer has counted a second. -/
def Part.retryCounted (p : Part) : Part := p.modLab fun l => { l with retrySeconds := l.retrySeconds + 1 }

theorem Part.retryTick_ready {p : Part} (h : p.labelsReady = true) : p.retryTick = p.retryCounted.retryDue :=
  if_pos h

theorem Part.retryDue_none {p : Part} (h : p.labelsInUse = []) : p.retryDue = p.loadLabels := by
  simp [Part.retryDue, h]

theorem Part.retryDue_one {p : Part} {i d : Nat} {e : LabelEntry} (h : p.labelsInUse = [i]) (hat : p.labelAt i = some e)
    (hstate : e.state = .retryWait) (hdue : e.due = some d) (hpast : d ≤ p.lab.retrySeconds)
    (hitem : (p.find e.item).1 = .notFound) (hgo : p.ordersGo = false) :
    p.retryDue =
      (p.loadLabels.loads .labelContent (p.find e.item).2).routined i
        { e with state := .queued, queue := some .routine, tag := none, due := none } := by
  have hfind : p.loadLabels.find e.item = p.find e.item := Part.find_of_kept (by simp) (by simp) _
  have hread : p.loadLabels.labelAt i = some e := (Part.labelAt_of_dram (by simp) i).trans hat
  have hqueued := Part.queueAndCheck_routine (p := p.loadLabels) (i := i) (e := e) (by rw [hfind]; exact hitem)
    (Part.ordersGo_of_kept hgo (by simp) (by simp) (by simp) (by simp) (by simp))
  rw [hfind] at hqueued
  simp only [Part.retryDue, h, List.foldl_cons, List.foldl_nil, hread]
  rw [if_pos ⟨hstate, by simpa [hdue] using hpast⟩, hqueued]

section
variable {s : State} (hev : s.supply.takesEvents = true) (hready : s.part.labelsReady = true)
include hev hready

theorem State.retry_idle (h : s.part.labelsInUse = []) :
    ∃ t, exec .retryTimerTick s = .next t ∧
      t.part.lab = { s.part.lab with retrySeconds := s.part.lab.retrySeconds + 1 } ∧ Unchanged [.lab] s t := by
  have hlands := State.lands_of_run exec_retryTimerTick hev
  rw [Part.retryTick_ready hready, Part.retryDue_none (p := s.part.retryCounted)
    ((Part.labelsInUse_of_dram rfl).trans h)] at hlands
  obtain ⟨t, hexec, hlab, -, -, hsame⟩ := State.lands_shows (but := [.lab]) hlands fun b hb => by
    cases b <;> simp [Piece.same, Part.retryCounted] at hb ⊢
  exact ⟨t, hexec, hlab.trans (by simp [Part.retryCounted]), hsame⟩

theorem State.retry_due {i d : Nat} {e : LabelEntry} (h : s.part.labelsInUse = [i]) (hat : s.part.labelAt i = some e)
    (hstate : e.state = .retryWait) (hdue : e.due = some d) (hpast : d ≤ s.part.lab.retrySeconds + 1)
    (hitem : (s.part.find e.item).1 = .notFound) (hgo : s.part.ordersGo = false) :
    ∃ t, exec .retryTimerTick s = .next t ∧
      t.part.lab =
        { s.part.lab with
          retrySeconds := s.part.lab.retrySeconds + 1, routine := s.part.lab.routine ++ [i]
          tallies := (s.part.lab.tallies.remove e).add { e with state := .queued } } ∧
      t.part.labelBytes i =
        ({ e with state := .queued, queue := some .routine, tag := none, due := none } : LabelEntry).bytes ∧
      (∀ a, a < labelAddr i ∨ labelAddr i + 48 ≤ a → Mem.read t.part.dram a = Mem.read s.part.dram a) ∧
      Unchanged [.lab, .memory] s t := by
  have hi : i < 4096 := by
    have hmem : i ∈ s.part.labelsInUse := by simp [h]
    exact List.mem_range.mp (List.mem_filter.mp hmem).1
  have hfind : s.part.retryCounted.find e.item = s.part.find e.item :=
    Part.find_of_kept (by simp [Part.retryCounted]) (by simp [Part.retryCounted]) _
  have hlands := State.lands_of_run exec_retryTimerTick hev
  rw [Part.retryTick_ready hready, Part.retryDue_one (p := s.part.retryCounted) ((Part.labelsInUse_of_dram rfl).trans h)
    ((Part.labelAt_of_dram rfl i).trans hat) hstate hdue hpast (by rw [hfind]; exact hitem)
    (Part.ordersGo_of_kept hgo (by simp [Part.retryCounted]) (by simp [Part.retryCounted]) (by simp [Part.retryCounted])
      (by simp [Part.retryCounted]) (by simp [Part.retryCounted]))] at hlands
  obtain ⟨t, hexec, hlab, -, -, hbytes, hothers, hsame⟩ := State.lands_entry (but := [.lab, .memory])
    (e := { e with state := .queued, queue := some .routine, tag := none, due := none }) hi hlands
    (by simp [Part.retryCounted]) fun b hb => by cases b <;> simp [Piece.same, Part.retryCounted] at hb ⊢
  refine ⟨t, hexec, hlab.trans ?_, hbytes, hothers, hsame⟩
  simp [Part.routined_lab, Part.retryCounted, Part.labelAt_of_dram (p := s.part), hat, LabelTallies.without,
    LabelTallies.add]
end

end Sys2Proof.Machine
end

section
/-! PROOFS. The label walk takes its entries, and ends (R145, R146, R148). -/

open Sys2Proof
namespace Sys2Proof.Machine

theorem exec_labelWalkEntry (s : State) : exec .labelWalkEntry s = s.run Part.walkStep := rfl

/-! ### an entry brought into step (R146) -/

/-- An entry whose content is its target, once the walk has taken it. -/
def LabelEntry.inStep (e : LabelEntry) : LabelEntry :=
  { e with
    walked := true, state := .current, queue := if e.state = .queued then none else e.queue
    attempts := if e.state = .retryWait ∨ e.state = .unreachable then 0 else e.attempts
    due := if e.state = .retryWait ∨ e.state = .unreachable then none else e.due }

/-- An entry whose content is not its target, or that has an order out, once the walk has taken it. -/
def LabelEntry.outOfStep (e : LabelEntry) : LabelEntry :=
  if e.state = .current then { e with walked := true, state := .queued, queue := some .routine, tag := none, due := none }
  else { e with walked := true }

section
variable {p : Part} {i : Nat} {e : LabelEntry} (hitem : (p.find e.item).1 = .notFound)
include hitem

theorem Part.target_blank : p.target e = (.blank, p.loads .labelContent (p.find e.item).2) :=
  Part.target_eq (Or.inl ⟨hitem, rfl⟩)

theorem Part.walkEntry_inStep (hshown : e.shown = .blank) (hstate : e.state ≠ .sent) :
    p.walkEntry i e =
      (if e.state = .queued then (p.loads .labelContent (p.find e.item).2).leaveQueue i
        else p.loads .labelContent (p.find e.item).2).putLabel i e.inStep := by
  have hsame : e.shown.matchesTarget .blank = true := (LabelContent.matchesTarget_iff _ _).mpr (by simp [hshown])
  unfold Part.walkEntry
  simp only [Part.target_blank hitem, hsame]
  cases h : e.state with
  | current => simp [LabelEntry.inStep, h]
  | queued => simp [LabelEntry.inStep, h]
  | sent => exact absurd h hstate
  | retryWait => simp [LabelEntry.inStep, h]
  | unreachable => simp [LabelEntry.inStep, h]

theorem Part.walkEntry_outOfStep (hshown : e.shown ≠ .blank ∨ e.state = .sent) (hevents : p.price.events = [])
    (hgo : p.ordersGo = false) :
    p.walkEntry i e =
      (if e.state = .current then
        ((p.loads .labelContent (p.find e.item).2).loads .labelContent (p.find e.item).2).routined i e.outOfStep
      else (p.loads .labelContent (p.find e.item).2).putLabel i e.outOfStep).notified [.notCurrent e.item] := by
  have hother : e.state ≠ .sent → e.shown.matchesTarget .blank = false := fun hstate =>
    (LabelContent.matchesTarget_false _ _).mpr (Or.inr (hshown.resolve_right hstate))
  have hfind : (p.loads .labelContent (p.find e.item).2).find e.item = p.find e.item :=
    Part.find_of_kept (by simp) (by simp) _
  have hsent (w : LabelEntry) :
      ((p.loads .labelContent (p.find e.item).2).putLabel i w).sendEvent (.notCurrent e.item) = _ :=
    Part.sendEvent_eq (by simp [hevents])
  unfold Part.walkEntry
  simp only [Part.target_blank hitem]
  cases h : e.state with
  | current =>
    simp only [hother (by simp [h]), if_true]
    rw [Part.queueLabel_routine (e := { e with walked := true, state := .current }) (by rw [hfind]; exact hitem), hfind,
      Part.sendEvent_eq (by simp [hevents]),
      Part.routined_checkOrders _ (Part.ordersGo_of_kept hgo (by simp) (by simp) (by simp) (by simp) (by simp))]
    simp [LabelEntry.outOfStep, h]
  | queued => simp only [hother (by simp [h]), hsent]; simp [LabelEntry.outOfStep, h]
  | sent => simp only [hsent]; simp [LabelEntry.outOfStep, h]
  | retryWait => simp only [hother (by simp [h]), hsent]; simp [LabelEntry.outOfStep, h]
  | unreachable => simp only [hother (by simp [h]), hsent]; simp [LabelEntry.outOfStep, h]
end

/-! ### the walk's cursor (R146, R148) -/

/-- The cursor has moved to index `i`, and the entry before it has been read. -/
def Part.cursorAt (i : Nat) (p : Part) : Part := (p.modLab fun l => { l with walk := .walking i }).loadLabel

@[simp] theorem Part.cursorAt_lab (i : Nat) (p : Part) : (p.cursorAt i).lab = { p.lab with walk := .walking i } := by
  simp [Part.cursorAt]

section
variable {p : Part} {i : Nat} (hwalk : p.lab.walk = .walking i)
include hwalk

theorem Part.walkStep_passes (hpass : p.labelAt i = none ∨ ∃ e, p.labelAt i = some e ∧ e.walked = true)
    (hmore : i + 1 < 4096) : p.walkStep = p.cursorAt (i + 1) := by
  simp only [Part.walkStep, hwalk]
  rw [if_neg (by simp only [Config.labelSlots]; omega)]
  rcases hpass with h | ⟨e, h, hwalked⟩
  · simp only [h, Part.cursorAt]
  · simp only [h, hwalked, if_true, Part.cursorAt]

theorem Part.walkStep_entry {e : LabelEntry} (hat : p.labelAt i = some e) (hwalked : e.walked = false)
    (hmore : i + 1 < 4096) : p.walkStep = (p.cursorAt (i + 1)).walkEntry i e := by
  simp only [Part.walkStep, hwalk, hat, hwalked, Bool.false_eq_true, if_false]
  exact if_neg (by simp only [Config.labelSlots]; omega)

theorem Part.walkStep_last (hat : p.labelAt i = none) (hlast : i = 4095) : p.walkStep = (p.cursorAt 4096).walkEnd := by
  subst hlast
  simp only [Part.walkStep, hwalk, hat]
  exact if_pos (by decide)
end

theorem Part.eventsTaken_of_none {p : Part} (h : p.price.events = []) : p.eventsTaken = p := by
  unfold Part.eventsTaken Part.modPrice
  rw [← h]

/-- The end of a walk is taken at once, and an empty bank has no hold to clear. -/
theorem Part.sendEvent_walkEnd {p : Part} (hevents : p.price.events = []) (hcount : p.price.activeCount = 0) :
    p.sendEvent .walkEnd = p := by
  have htaken : p.sendEvent .walkEnd = p.eventsTaken := by
    simp only [Part.sendEvent, Part.modPrice_price, hevents, List.nil_append, List.length_cons, List.length_nil,
      Nat.zero_add, Part.takeWalkEnds, Part.holdPass, Part.passEntries, hcount, List.range_zero, List.foldl_nil]
    rfl
  exact htaken.trans (Part.eventsTaken_of_none hevents)

/-! ### LABEL_WALK_ENTRY -/

section
variable {s : State} {i : Nat} (hev : s.supply.takesEvents = true) (hwalk : s.part.lab.walk = .walking i)
include hev hwalk

theorem State.walk_passes (hpass : s.part.labelAt i = none ∨ ∃ e, s.part.labelAt i = some e ∧ e.walked = true)
    (hmore : i + 1 < 4096) :
    ∃ t, exec .labelWalkEntry s = .next t ∧ t.part.lab = { s.part.lab with walk := .walking (i + 1) } ∧
      Unchanged [.lab] s t := by
  have hlands := State.lands_of_run exec_labelWalkEntry hev
  rw [Part.walkStep_passes hwalk hpass hmore] at hlands
  obtain ⟨t, hexec, hlab, -, -, hsame⟩ := State.lands_shows (but := [.lab]) hlands fun b hb => by
    cases b <;> simp [Piece.same, Part.cursorAt] at hb ⊢
  exact ⟨t, hexec, hlab.trans (by simp), hsame⟩

theorem State.walk_passes_last (hat : s.part.labelAt i = none) (hlast : i = 4095) (hevents : s.part.price.events = [])
    (hcount : s.part.price.activeCount = 0) :
    ∃ t, exec .labelWalkEntry s = .next t ∧
      t.part.lab =
        { s.part.lab with walk := .none, ctr := { s.part.lab.ctr with walks := bump s.part.lab.ctr.walks } } ∧
      Unchanged [.lab] s t := by
  have hlands := State.lands_of_run exec_labelWalkEntry hev
  rw [Part.walkStep_last hwalk hat hlast, Part.walkEnd,
    Part.sendEvent_walkEnd (by simpa [Part.cursorAt, Part.countLab] using hevents)
      (by simpa [Part.cursorAt, Part.countLab] using hcount)] at hlands
  obtain ⟨t, hexec, hlab, -, -, hsame⟩ := State.lands_shows (but := [.lab]) hlands fun b hb => by
    cases b <;> simp [Piece.same, Part.cursorAt, Part.countLab] at hb ⊢
  exact ⟨t, hexec, hlab.trans (by simp [Part.countLab]), hsame⟩

variable {e : LabelEntry} (hat : s.part.labelAt i = some e) (hmore : i + 1 < 4096) (hwalked : e.walked = false)
  (hitem : (s.part.find e.item).1 = .notFound)
include hat hmore hwalked hitem

theorem State.walk_inStep (hshown : e.shown = .blank) (hstate : e.state ≠ .sent) :
    ∃ t, exec .labelWalkEntry s = .next t ∧ t.part.labelBytes i = e.inStep.bytes ∧
      t.part.lab =
        { s.part.lab with
          walk := .walking (i + 1), tallies := (s.part.lab.tallies.remove e).add e.inStep
          urgent := if e.state = .queued then s.part.lab.urgent.filter fun x => decide (x ≠ i) else s.part.lab.urgent
          routine :=
            if e.state = .queued then s.part.lab.routine.filter fun x => decide (x ≠ i) else s.part.lab.routine } ∧
      (∀ a, a < labelAddr i ∨ labelAddr i + 48 ≤ a → Mem.read t.part.dram a = Mem.read s.part.dram a) ∧
      Unchanged [.lab, .memory] s t := by
  have hfind : (s.part.cursorAt (i + 1)).find e.item = s.part.find e.item :=
    Part.find_of_kept (by simp [Part.cursorAt]) (by simp [Part.cursorAt]) _
  have hlands := State.lands_of_run exec_labelWalkEntry hev
  rw [Part.walkStep_entry hwalk hat hwalked hmore,
    Part.walkEntry_inStep (by rw [hfind]; exact hitem) hshown hstate] at hlands
  obtain ⟨t, hexec, hlab, -, -, hbytes, hothers, hsame⟩ := State.lands_entry (but := [.lab, .memory]) (i := i)
    (e := e.inStep) (by omega) hlands (by split <;> simp [Part.cursorAt])
    fun b hb => by cases b <;> simp [Piece.same, Part.cursorAt] at hb ⊢ <;> split <;> simp
  refine ⟨t, hexec, hbytes, hlab.trans ?_, hothers, hsame⟩
  rw [Part.putLabel_lab, Part.labelAt_of_dram (p := s.part) (by split <;> simp [Part.cursorAt]), hat]
  split <;> simp [Part.leaveQueue, LabelTallies.without]

theorem State.walk_outOfStep (hshown : e.shown ≠ .blank ∨ e.state = .sent) (hevents : s.part.price.events = [])
    (hgo : s.part.ordersGo = false) :
    ∃ t, exec .labelWalkEntry s = .next t ∧ t.part.labelBytes i = e.outOfStep.bytes ∧
      t.part.lab =
        { s.part.lab with
          walk := .walking (i + 1), tallies := (s.part.lab.tallies.remove e).add e.outOfStep
          routine := if e.state = .current then s.part.lab.routine ++ [i] else s.part.lab.routine } ∧
      t.part.price = { s.part.price with events := [.notCurrent e.item] } ∧
      (∀ a, a < labelAddr i ∨ labelAddr i + 48 ≤ a → Mem.read t.part.dram a = Mem.read s.part.dram a) ∧
      Unchanged [.lab, .price, .memory] s t := by
  have hfind : (s.part.cursorAt (i + 1)).find e.item = s.part.find e.item :=
    Part.find_of_kept (by simp [Part.cursorAt]) (by simp [Part.cursorAt]) _
  have hlands := State.lands_of_run exec_labelWalkEntry hev
  rw [Part.walkStep_entry hwalk hat hwalked hmore,
    Part.walkEntry_outOfStep (by rw [hfind]; exact hitem) hshown (by simpa [Part.cursorAt] using hevents)
      (Part.ordersGo_of_kept hgo (by simp [Part.cursorAt]) (by simp [Part.cursorAt]) (by simp) (by simp) (by simp))]
    at hlands
  obtain ⟨t, hexec, hlab, hprice, -, hbytes, hothers, hsame⟩ := State.lands_entry (but := [.lab, .price, .memory])
    (i := i) (e := e.outOfStep) (by omega) hlands (by simp only [Part.notified_frame]; split <;> simp [Part.cursorAt])
    fun b hb => by cases b <;> simp [Piece.same] at hb ⊢ <;> split <;> simp [Part.cursorAt]
  refine ⟨t, hexec, hbytes, hlab.trans ?_, hprice.trans ?_, hothers, hsame⟩
  · simp only [Part.notified_frame]
    split <;> simp [Part.routined_lab, Part.putLabel_lab, Part.labelAt_of_dram (p := s.part), Part.cursorAt, hat,
      LabelTallies.without]
  · split <;> simp [Part.cursorAt, hevents]
end

end Sys2Proof.Machine
end

section
/-! PROOFS. The warm-start pass through the label table, and the count pass of a walk (R145, R149). -/

open Sys2Proof
namespace Sys2Proof.Machine

theorem exec_warmWalkPassDone (s : State) : exec .warmWalkPassDone s = s.run Part.warmPassDone := rfl
theorem exec_countPassDone (s : State) : exec .countPassDone s = s.run Part.countPassDone := rfl

/-! ### passes that one index alone acts on -/

theorem foldl_fixed_of_mem {α β : Type} {f : α → β → α} {a : α} {l : List β} (h : ∀ x ∈ l, f a x = a) :
    l.foldl f a = a := by
  induction l with
  | nil => rfl
  | cons x l ih =>
    rw [List.foldl_cons, h x (by simp)]
    exact ih fun y hy => h y (by simp [hy])

/-- A pass through the indices below `n`, where index `i` alone changes anything. -/
theorem foldl_range_only {α : Type} {f : α → Nat → α} {a : α} {n i : Nat} (hi : i < n)
    (hbefore : ∀ j, j < n → j ≠ i → f a j = a) (hafter : ∀ j, j < n → j ≠ i → f (f a i) j = f a i) :
    (List.range n).foldl f a = f a i := by
  obtain ⟨front, rest, hsplit⟩ := List.append_of_mem (List.mem_range.mpr hi)
  have hnodup : (front ++ i :: rest).Nodup := hsplit ▸ List.nodup_range
  have hbelow : ∀ j ∈ front ++ i :: rest, j < n := fun j hj => List.mem_range.mp (hsplit ▸ hj)
  rw [List.nodup_append] at hnodup
  obtain ⟨-, hrest, hapart⟩ := hnodup
  rw [hsplit, List.foldl_append, List.foldl_cons,
    foldl_fixed_of_mem fun j hj => hbefore j (hbelow j (by simp [hj])) (hapart j hj i (by simp)),
    foldl_fixed_of_mem fun j hj => hafter j (hbelow j (by simp [hj])) fun h => (List.nodup_cons.mp hrest).1 (h ▸ hj)]

/-! ### a walk begins (R145) -/

/-- No entry of the table carries a walk mark. -/
def Part.unwalked (p : Part) : Prop := ∀ i, i < 4096 → ∀ e, p.labelAt i = some e → e.walked = false

theorem Part.startWalk_unwalked {p : Part} (h : p.unwalked) :
    p.startWalk = (p.loadLabels.modLab fun l => { l with walk := .counting }).sendEvent .countPass := by
  unfold Part.startWalk
  rw [foldl_fixed_of_mem fun i hi => ?_]
  have hi : i < 4096 := List.mem_range.mp (List.mem_filter.mp hi).1
  rw [Part.labelAt_of_dram (p := p) (by simp)]
  cases hat : p.labelAt i with
  | none => rfl
  | some e => simp [h i hi e hat]

/-- An entry without a walk mark reads back without it. -/
theorem LabelEntry.parse_walked {e : LabelEntry} (h : e.walked = false) : (parseLabel e.bytes).walked = false := by
  simp [parseLabel, LabelEntry.bytes, withCrc, h, be, fieldAt, sub, beNat, markByte]

/-! ### one entry of the warm-start pass (R149) -/

section
variable {p : Part} {i : Nat} {e : LabelEntry}

theorem Part.warmEntry_free (h : p.labelAt i = none) : p.warmEntry i = p := by
  simp only [Part.warmEntry, h]

theorem Part.warmEntry_lost (hat : p.labelAt i = some e) (hcrc : crcGood (p.labelBytes i) = false) :
    p.warmEntry i = (p.wipeLabel i).modMem fun m => { m with labelsLost := bump m.labelsLost } := by
  simp only [Part.warmEntry, hat, hcrc, Bool.false_eq_true, if_false]

theorem Part.warmEntry_stands (hat : p.labelAt i = some e) (hcrc : crcGood (p.labelBytes i) = true)
    (hstate : e.state = .current ∨ e.state = .unreachable) : p.warmEntry i = p.retally none (some e) := by
  simp only [Part.warmEntry, hat, hcrc, if_true]
  rcases hstate with h | h <;> rw [h]

theorem Part.warmEntry_queued (hat : p.labelAt i = some e) (hcrc : crcGood (p.labelBytes i) = true)
    (hcurrent : e.state ≠ .current) (hunreachable : e.state ≠ .unreachable) (hitem : (p.find e.item).1 = .notFound) :
    p.warmEntry i =
      ((p.retally none (some e)).loads .labelContent (p.find e.item).2).routined i
        { e with state := .queued, queue := some .routine, tag := none, due := none } := by
  have hfind : (p.retally none (some e)).find e.item = p.find e.item :=
    Part.find_of_kept (by simp) (by simp) _
  have hqueued := Part.queueLabel_routine (p := p.retally none (some e)) (i := i) (e := e) (by rw [hfind]; exact hitem)
  rw [hfind] at hqueued
  simp only [Part.warmEntry, hat, hcrc, if_true]
  cases h : e.state with
  | current => exact absurd h hcurrent
  | unreachable => exact absurd h hunreachable
  | queued => simpa only [h] using hqueued
  | sent => simpa only [h] using hqueued
  | retryWait => simpa only [h] using hqueued
end

/-! ### the pass (R149) -/

/-- The table about to be read, from empty queues and tallies. -/
def Part.passBegun (p : Part) : Part := (p.modLab Labels.unread).loadLabels

@[simp] theorem Part.passBegun_frame (p : Part) :
    p.passBegun.cfg = p.cfg ∧ p.passBegun.branch = p.branch ∧ p.passBegun.trunkFramer = p.trunkFramer ∧
      p.passBegun.labelFramer = p.labelFramer ∧ p.passBegun.guestFramer = p.guestFramer ∧
      p.passBegun.links = p.links ∧ p.passBegun.fwd = p.fwd ∧ p.passBegun.call = p.call ∧ p.passBegun.pres = p.pres ∧
      p.passBegun.price = p.price ∧ p.passBegun.till = p.till ∧ p.passBegun.jrn = p.jrn ∧
      p.passBegun.lab = { p.lab with urgent := [], routine := [], tallies := {} } ∧ p.passBegun.gst = p.gst ∧
      p.passBegun.trk = p.trk ∧ p.passBegun.hdr = p.hdr ∧ p.passBegun.memCtr = p.memCtr ∧ p.passBegun.dram = p.dram ∧
      p.passBegun.written = p.written := by
  simp [Part.passBegun, Labels.unread]

/-- The pass is done and the label walk begins, its count pass asked. -/
def Part.passEnded (p : Part) : Part :=
  (((p.modLab fun l => { l with warm := .none }).loadLabels).modLab fun l => { l with walk := .counting }).notified
    [.countPass]

@[simp] theorem Part.passEnded_frame (p : Part) :
    p.passEnded.cfg = p.cfg ∧ p.passEnded.branch = p.branch ∧ p.passEnded.trunkFramer = p.trunkFramer ∧
      p.passEnded.labelFramer = p.labelFramer ∧ p.passEnded.guestFramer = p.guestFramer ∧
      p.passEnded.links = p.links ∧ p.passEnded.fwd = p.fwd ∧ p.passEnded.call = p.call ∧ p.passEnded.pres = p.pres ∧
      p.passEnded.price = { p.price with events := p.price.events ++ [.countPass] } ∧ p.passEnded.till = p.till ∧
      p.passEnded.jrn = p.jrn ∧ p.passEnded.lab = { p.lab with warm := .none, walk := .counting } ∧
      p.passEnded.gst = p.gst ∧ p.passEnded.trk = p.trk ∧ p.passEnded.hdr = p.hdr ∧ p.passEnded.memCtr = p.memCtr ∧
      p.passEnded.dram = p.dram ∧ p.passEnded.written = p.written := by
  simp [Part.passEnded]

/-- The pass through the table. -/
def Part.tablePass (p : Part) : Part := (List.range 4096).foldl (fun r i => r.warmEntry i) p.passBegun

theorem Part.warmPassDone_eq {p q : Part} (hwarm : p.lab.warm = .pass) (hpass : p.tablePass = q)
    (hhead : q.lab.headUp = false) (hevents : q.price.events = []) (hunwalked : q.unwalked) : p.warmPassDone = q.passEnded := by
  have hwalk := Part.startWalk_unwalked (p := q.modLab fun l => { l with warm := .none })
    fun i hi e hat => hunwalked i hi e ((Part.labelAt_of_dram rfl i).symm.trans hat)
  have hdone : p.warmPassDone = ((q.modLab fun l => { l with warm := .none }).startWalk).checkOrders := by
    rw [← hpass]
    exact if_pos hwarm
  rw [hdone, hwalk, Part.sendEvent_eq (by simp [hevents]), ← Part.passEnded,
    Part.checkOrders_of_head_down _ (by simpa using hhead)]

theorem Part.tablePass_free {p : Part} (h : ∀ j, j < 4096 → p.labelAt j = none) : p.tablePass = p.passBegun :=
  foldl_fixed_of_mem fun j hj =>
    Part.warmEntry_free ((Part.labelAt_of_dram (by simp) j).trans (h j (List.mem_range.mp hj)))

/-- The one entry of the table is brought into step, where that moves no other. -/
theorem Part.tablePass_one {p q : Part} {i : Nat} (hi : i < 4096) (hothers : ∀ j, j < 4096 → j ≠ i → p.labelAt j = none)
    (hentry : p.passBegun.warmEntry i = q)
    (hmem : ∀ a, a < labelAddr i ∨ labelAddr i + 48 ≤ a → Mem.read q.dram a = Mem.read p.dram a) : p.tablePass = q := by
  have hfree (j : Nat) (hj : j < 4096) (hne : j ≠ i) : q.labelAt j = none :=
    (Part.labelAt_elsewhere hne hmem).trans (hothers j hj hne)
  unfold Part.tablePass
  rw [foldl_range_only hi
    (fun j hj hne => Part.warmEntry_free ((Part.labelAt_of_dram (by simp) j).trans (hothers j hj hne)))
    (fun j hj hne => by rw [hentry]; exact Part.warmEntry_free (hfree j hj hne)), hentry]

/-- The one entry of the table carries no walk mark. -/
theorem Part.unwalked_one {p q : Part} {i : Nat} (hothers : ∀ j, j < 4096 → j ≠ i → p.labelAt j = none)
    (hmem : ∀ a, a < labelAddr i ∨ labelAddr i + 48 ≤ a → Mem.read q.dram a = Mem.read p.dram a)
    (hi : ∀ e, q.labelAt i = some e → e.walked = false) : q.unwalked := by
  intro j hj e hat
  by_cases hne : j = i
  · exact hi e (hne ▸ hat)
  · rw [Part.labelAt_elsewhere hne hmem, hothers j hj hne] at hat
    cases hat

theorem LabelTallies.remove_add_empty (e : LabelEntry) : (({} : LabelTallies).add e).remove e = {} := by
  simp [LabelTallies.add, LabelTallies.remove]

/-! ### WARM_WALK_PASS_DONE -/

section
variable {s : State} (hev : s.supply.takesEvents = true) (hevents : s.part.price.events = [])
  (hwarm : s.part.lab.warm = .pass) (hhead : s.part.lab.headUp = false)
include hev hevents hwarm hhead

/-- The pass ends in what it has made of the table. -/
theorem State.lands_warmPass {q : Part} (hpass : s.part.tablePass = q) (hup : q.lab.headUp = s.part.lab.headUp)
    (hprice : q.price = s.part.price) (hunwalked : q.unwalked) : s.lands .warmWalkPassDone q.passEnded := by
  have hlands := State.lands_of_run exec_warmWalkPassDone hev
  rwa [Part.warmPassDone_eq hwarm hpass (hup.trans hhead) (by rw [hprice]; exact hevents) hunwalked] at hlands

theorem State.warmPass_free (hnone : ∀ j, j < 4096 → s.part.labelAt j = none) :
    ∃ t, exec .warmWalkPassDone s = .next t ∧
      t.part.lab =
        { s.part.lab with warm := .none, walk := .counting, urgent := [], routine := [], tallies := {} } ∧
      t.part.price = { s.part.price with events := [.countPass] } ∧ Unchanged [.lab, .price] s t := by
  have hlands := State.lands_warmPass hev hevents hwarm hhead (Part.tablePass_free hnone) (by simp) (by simp)
    fun i hi e hat => by rw [Part.labelAt_of_dram (p := s.part) (by simp), hnone i hi] at hat; cases hat
  obtain ⟨t, hexec, hlab, hprice, -, hsame⟩ := State.lands_shows (but := [.lab, .price]) hlands fun b hb => by
    cases b <;> simp [Piece.same] at hb ⊢
  exact ⟨t, hexec, hlab.trans (by simp), hprice.trans (by simp [hevents]), hsame⟩

variable {i : Nat} {e : LabelEntry} (hi : i < 4096) (hat : s.part.labelAt i = some e)
  (hothers : ∀ j, j < 4096 → j ≠ i → s.part.labelAt j = none)
include hi hat hothers

theorem State.warmPass_lost (hcrc : crcGood (s.part.labelBytes i) = false) :
    ∃ t, exec .warmWalkPassDone s = .next t ∧
      t.part.lab =
        { s.part.lab with warm := .none, walk := .counting, urgent := [], routine := [], tallies := {} } ∧
      t.part.labelAt i = none ∧ t.part.memCtr.labelsLost = bump s.part.memCtr.labelsLost ∧
      t.part.memCtr.headerWrites = s.part.memCtr.headerWrites ∧
      t.part.price = { s.part.price with events := [.countPass] } ∧
      (∀ a, a < labelAddr i ∨ labelAddr i + 48 ≤ a → Mem.read t.part.dram a = Mem.read s.part.dram a) ∧
      Unchanged [.lab, .price, .memory, .memoryCounters] s t := by
  have hread : s.part.passBegun.labelAt i = some e := (Part.labelAt_of_dram (by simp) i).trans hat
  have hbytes : s.part.passBegun.labelBytes i = s.part.labelBytes i := Part.labelBytes_congr (by simp) i
  have hentry := Part.warmEntry_lost hread (by rw [hbytes]; exact hcrc)
  obtain ⟨hfreed, hkept⟩ := Part.labelAt_of_wiped (m := s.part.dram) (i := i)
    (q := (s.part.passBegun.wipeLabel i).modMem fun m => { m with labelsLost := bump m.labelsLost })
    (by simp [Part.wipeLabel, Config.labelBytes])
  have hlands := State.lands_warmPass hev hevents hwarm hhead (Part.tablePass_one hi hothers hentry hkept)
    (by simp) (by simp) (Part.unwalked_one hothers hkept fun e he => by rw [hfreed] at he; cases he)
  obtain ⟨t, hexec, hsame, -⟩ := hlands
  have hmem : ∀ a, Mem.read t.part.dram a = _ := hsame .memory List.not_mem_nil
  obtain ⟨hwrites, hlost⟩ := hsame .memoryCounters List.not_mem_nil
  refine ⟨t, hexec, (hsame .lab List.not_mem_nil).trans (by simp), ?_, hlost.trans (by simp), hwrites.trans (by simp),
    (hsame .price List.not_mem_nil).trans (by simp [hevents]), fun a ha => (hmem a).trans ?_, hsame.after fun b hb => ?_⟩
  · exact (Part.labelAt_congr (fun a => (hmem a).trans (by simp)) i).trans hfreed
  · simpa using hkept a ha
  · cases b <;> simp [Piece.same] at hb ⊢

variable (hcrc : crcGood (s.part.labelBytes i) = true) (hwalked : e.walked = false)
include hcrc hwalked

theorem State.warmPass_stands (hstate : e.state = .current ∨ e.state = .unreachable) :
    ∃ t, exec .warmWalkPassDone s = .next t ∧
      t.part.lab =
        { s.part.lab with
          warm := .none, walk := .counting, urgent := [], routine := [], tallies := ({} : LabelTallies).add e } ∧
      t.part.price = { s.part.price with events := [.countPass] } ∧ Unchanged [.lab, .price] s t := by
  have hread : s.part.passBegun.labelAt i = some e := (Part.labelAt_of_dram (by simp) i).trans hat
  have hbytes : s.part.passBegun.labelBytes i = s.part.labelBytes i := Part.labelBytes_congr (by simp) i
  have hentry := Part.warmEntry_stands hread (by rw [hbytes]; exact hcrc) hstate
  have hkept : ∀ a, a < labelAddr i ∨ labelAddr i + 48 ≤ a →
      Mem.read (s.part.passBegun.retally none (some e)).dram a = Mem.read s.part.dram a := by simp
  have hstill : (s.part.passBegun.retally none (some e)).labelAt i = some e := (Part.labelAt_of_dram (by simp) i).trans hat
  have hlands := State.lands_warmPass hev hevents hwarm hhead (Part.tablePass_one hi hothers hentry hkept)
    (by simp [Part.retally]) (by simp)
    (Part.unwalked_one hothers hkept fun e' he => by rw [hstill] at he; cases he; exact hwalked)
  obtain ⟨t, hexec, hlab, hprice, -, hsame⟩ := State.lands_shows (but := [.lab, .price]) hlands fun b hb => by
    cases b <;> simp [Piece.same] at hb ⊢
  exact ⟨t, hexec, hlab.trans (by simp [Part.retally]), hprice.trans (by simp [hevents]), hsame⟩

theorem State.warmPass_queued (hcurrent : e.state ≠ .current) (hunreachable : e.state ≠ .unreachable)
    (hitem : (s.part.find e.item).1 = .notFound) {w : LabelEntry}
    (hw : w = { e with state := .queued, queue := some .routine, tag := none, due := none }) :
    ∃ t, exec .warmWalkPassDone s = .next t ∧ t.part.labelBytes i = w.bytes ∧
      t.part.lab =
        { s.part.lab with
          warm := .none, walk := .counting, urgent := [], routine := [i], tallies := ({} : LabelTallies).add w } ∧
      t.part.price = { s.part.price with events := [.countPass] } ∧
      (∀ a, a < labelAddr i ∨ labelAddr i + 48 ≤ a → Mem.read t.part.dram a = Mem.read s.part.dram a) ∧
      Unchanged [.lab, .price, .memory] s t := by
  have hread : s.part.passBegun.labelAt i = some e := (Part.labelAt_of_dram (by simp) i).trans hat
  have hbytes : s.part.passBegun.labelBytes i = s.part.labelBytes i := Part.labelBytes_congr (by simp) i
  have hfind : s.part.passBegun.find e.item = s.part.find e.item := Part.find_of_kept (by simp) (by simp) _
  have hentry := Part.warmEntry_queued hread (by rw [hbytes]; exact hcrc) hcurrent hunreachable (by rw [hfind]; exact hitem)
  rw [← hw] at hentry
  have hwritten := Part.labelBytes_of_written (m := s.part.dram) (e := w) hi
    (q := ((s.part.passBegun.retally none (some e)).loads .labelContent (s.part.passBegun.find e.item).2).routined i w)
    (by simp)
  obtain ⟨hplace, hkept⟩ := hwritten
  have hunmarked : ∀ x, (((s.part.passBegun.retally none (some e)).loads .labelContent
      (s.part.passBegun.find e.item).2).routined i w).labelAt i = some x → x.walked = false := by
    intro x hx
    simp only [Part.labelAt, hplace, Option.ite_none_left_eq_some, Option.some.injEq] at hx
    obtain ⟨-, rfl⟩ := hx
    exact LabelEntry.parse_walked (by rw [hw]; exact hwalked)
  have hlands := State.lands_warmPass hev hevents hwarm hhead (Part.tablePass_one hi hothers hentry hkept)
    (by simp [Part.routined_lab, Part.retally]) (by simp) (Part.unwalked_one hothers hkept hunmarked)
  obtain ⟨t, hexec, hlab, hprice, -, hfinal, hrest, hsame⟩ := State.lands_entry (but := [.lab, .price, .memory])
    (e := w) hi hlands (by simp) fun b hb => by cases b <;> simp [Piece.same] at hb ⊢
  refine ⟨t, hexec, hfinal, hlab.trans ?_, hprice.trans (by simp [hevents]), hrest, hsame⟩
  simp [Part.routined_lab, Part.retally, Part.labelAt_of_dram (p := s.part), hat, LabelTallies.without,
    LabelTallies.remove_add_empty]
end

/-! ### COUNT_PASS_DONE (R145) -/

theorem Part.countPass_one {p : Part} {e : BankEntry} (hcount : p.price.activeCount = 1)
    (hentry : p.goodEntry p.price.active 0 = some e) :
    p.countPass = (p.loads .bank 1).setEntry .bank p.price.active 0 { e with count := 0 } := by
  have hread : (p.loads .bank 1).goodEntry p.price.active 0 = some e := (Part.goodEntry_congr (by simp) _ _).trans hentry
  simp only [Part.countPass, Part.passEntries, hcount, List.range_one, List.foldl_cons, List.foldl_nil, Part.passEntry,
    Part.loads_price, hread]

/-- The count pass at the head of the events is made, and the walk takes index 0. -/
theorem Part.countPassDone_begins {p : Part} (hevents : p.price.events = [.countPass]) (hwalk : p.lab.walk = .counting) :
    p.countPassDone =
      p.eventsTaken.countPass.modLab fun l => { l with walk := .walking 0 } := by
  simp only [Part.countPassDone, hevents, List.length_nil, Part.takeWalkEnds]
  exact if_pos ⟨by simpa using hwalk, by simp⟩

theorem State.count_pass_begins {u : State} {e : BankEntry} (hev : u.supply.takesEvents = true)
    (hevents : u.part.price.events = [.countPass]) (hwalk : u.part.lab.walk = .counting)
    (hcount : u.part.price.activeCount = 1) (hentry : u.part.goodEntry u.part.price.active 0 = some e) :
    ∃ t, exec .countPassDone u = .next t ∧ t.part.lab = { u.part.lab with walk := .walking 0 } ∧
      t.part.price = { u.part.price with events := [] } ∧
      t.part.entryWritten u.part.dram u.part.price.active 0 { e with count := 0 } ∧
      Unchanged [.lab, .price, .memory] u t := by
  refine ⟨_, exec_of_run exec_countPassDone hev, ?_⟩
  rw [Part.countPassDone_begins hevents hwalk, Part.countPass_one (p := u.part.eventsTaken) hcount
    ((Part.goodEntry_congr rfl _ _).trans hentry)]
  refine ⟨by simp [Part.setEntry, Part.eventsTaken], by simp [Part.setEntry, Part.eventsTaken],
    Part.entryWritten_of_dram (by omega) (by simp [Part.eventsTaken]), State.unchanged_of_part _ _ _ fun b hb => ?_⟩
  cases b <;> simp [Piece.same, Part.setEntry, Part.eventsTaken] at hb ⊢

end Sys2Proof.Machine

open Sys2Proof.Machine

/-- Settles O51: notices, the retry timer, the entries of a walk and its end, the warm-start pass, and the count pass. -/
theorem noticesRetriesAndWalks : Obligations.NoticesRetriesAndWalks := by
  intro s hev hevents hgo
  refine ⟨fun it b hframe hkind hlength hready hup => ⟨fun i e e' bat hfound hbattery hid he' => ?_, fun hnone => ?_⟩,
    fun hready => ⟨State.retry_idle hev hready, fun i e d h hat hstate hdue hpast hitem => ?_⟩,
    fun i hwalk => ⟨State.walk_passes hev hwalk, fun e hat hmore hwalked hitem => ⟨?_, ?_⟩, fun hat hlast hcount => ?_⟩,
    fun hwarm hhead => ⟨State.warmPass_free hev hevents hwarm hhead,
      fun i e hi hat hothers => ⟨?_, fun hcrc hwalked hitem => ⟨?_, ?_⟩⟩⟩,
    fun u hu hwalk e hcount hentry => ?_⟩
  · subst he'
    refine ⟨State.notice_stays hev hframe hkind hready hup hlength hfound hbattery hid, fun w hmark hstate hitem hw => ?_⟩
    subst hw
    exact State.notice_queues hev hframe hkind hready hup hlength hfound hbattery hid hmark hstate hitem hevents hgo
  · exact State.notice_stray hev hframe hkind hready hup hnone
  · exact State.retry_due hev hready h hat hstate hdue hpast hitem hgo
  · intro w hshown hstate hw
    subst hw
    exact State.walk_inStep hev hwalk hat hmore hwalked hitem hshown hstate
  · intro w hshown hw
    subst hw
    exact State.walk_outOfStep hev hwalk hat hmore hwalked hitem hshown hevents hgo
  · exact State.walk_passes_last hev hwalk hat hlast hevents hcount
  · exact State.warmPass_lost hev hevents hwarm hhead hi hat hothers
  · exact State.warmPass_stands hev hevents hwarm hhead hi hat hothers hcrc hwalked
  · intro w hcurrent hunreachable hw
    exact State.warmPass_queued hev hevents hwarm hhead hi hat hothers hcrc hwalked hcurrent hunreachable hitem hw
  · subst hu
    obtain ⟨t, hexec, hlab, hprice, ⟨hbytes, hothers⟩, hsame⟩ := State.count_pass_begins
      (u := { s with part := { s.part with price := { s.part.price with events := [.countPass] } } })
      hev rfl hwalk hcount hentry
    exact ⟨t, hexec, hlab, hprice.trans (congrArg Part.price (Part.eventsTaken_of_none hevents)), hbytes, hothers, hsame⟩
end

section
/-! PROOFS. Support for the guest meter: the guest table beside the buffers in memory, and what a notice sent leaves (R155,
R161). -/

open Sys2Proof
namespace Sys2Proof.Machine

/-! ### bytes written and wiped, read back elsewhere -/

theorem Mem.readBytes_writeBytes_apart {m : Mem} {a n b : Nat} {bs : Bytes} (h : a + n ≤ b ∨ b + bs.length ≤ a) :
    Mem.readBytes (Mem.writeBytes m b bs) a n = Mem.readBytes m a n :=
  Mem.readBytes_congr _ _ _ _ fun _ _ _ => Mem.read_writeBytes_outside _ _ _ _ (by omega)

theorem Mem.readBytes_wipe_apart {m : Mem} {a n lo hi : Nat} (h : a + n ≤ lo ∨ hi ≤ a) :
    Mem.readBytes (Mem.wipe m lo hi) a n = Mem.readBytes m a n :=
  Mem.readBytes_congr _ _ _ _ fun _ _ _ => (Mem.read_wipe _ _ _ _).trans (if_neg (by omega))

theorem Mem.readBytes_of_zero {m : Mem} {a n : Nat} (h : ∀ x, a ≤ x → x < a + n → Mem.read m x = 0) :
    Mem.readBytes m a n = List.replicate n 0 := by
  induction n generalizing a with
  | zero => rfl
  | succ n ih =>
    rw [Mem.readBytes, List.replicate_succ, h a (Nat.le_refl a) (by omega), ih fun x h1 h2 => h x (by omega) (by omega)]

theorem Part.read_congr {p q : Part} (h : ∀ a, Mem.read q.dram a = Mem.read p.dram a) (a n : Nat) :
    q.read a n = p.read a n :=
  Mem.readBytes_congr _ _ _ _ fun x _ _ => h x

/-! ### where the entries and the buffers lie (R66, R155, R187) -/

theorem Guest.bytes_length (g : Guest) : g.bytes.length = 32 := by
  simp [Guest.bytes, be_length]

/-- A notice stands within one buffer. -/
theorem noticeBytes_fits (n : GuestNotice) (device index address reason up down drops : Nat) :
    (noticeBytes n device index address reason up down drops).length ≤ 2048 := by
  simp [noticeBytes, be_length]

theorem guestAddr_le {i : Nat} (hi : i < 256) : guestAddr i + 32 ≤ Config.dramSize := by
  simp only [guestAddr, Config.guestBase, Config.guestBytes, Config.dramSize]
  omega

theorem guestAddr_apart {i j : Nat} (h : j ≠ i) : guestAddr j + 32 ≤ guestAddr i ∨ guestAddr i + 32 ≤ guestAddr j := by
  simp only [guestAddr, Config.guestBytes]
  omega

theorem bufAddr_below_guests {n : Nat} (hn : n < Config.poolSize) (i : Nat) : bufAddr n + 2048 ≤ guestAddr i := by
  have hend := bufAddr_le n hn
  simp only [Config.bufferBytes, Config.labelBase, guestAddr, Config.guestBase] at hend ⊢
  omega

theorem bufAddr_apart {m n : Nat} (h : m ≠ n) : bufAddr m + 2048 ≤ bufAddr n ∨ bufAddr n + 2048 ≤ bufAddr m := by
  simp only [bufAddr, Config.bufferBytes]
  omega

section
variable {m : Mem} {i n : Nat} {bs : Bytes}

theorem Mem.read_entry_written {g : Guest} {a : Nat} (h : a < guestAddr i ∨ guestAddr i + 32 ≤ a) :
    Mem.read (Mem.writeBytes m (guestAddr i) g.bytes) a = Mem.read m a :=
  Mem.read_writeBytes_outside _ _ _ _ (by rwa [g.bytes_length])

theorem Mem.read_entry_wiped {a : Nat} (h : a < guestAddr i ∨ guestAddr i + 32 ≤ a) :
    Mem.read (Mem.wipe m (guestAddr i) (guestAddr i + 32)) a = Mem.read m a :=
  (Mem.read_wipe _ _ _ _).trans (if_neg (by omega))

theorem Mem.read_buffer_written {a : Nat} (hlen : bs.length ≤ 2048) (h : a < bufAddr n ∨ bufAddr n + 2048 ≤ a) :
    Mem.read (Mem.writeBytes m (bufAddr n) bs) a = Mem.read m a :=
  Mem.read_writeBytes_outside _ _ _ _ (by omega)

theorem Mem.entry_written (g : Guest) (hi : i < 256) :
    Mem.readBytes (Mem.writeBytes m (guestAddr i) g.bytes) (guestAddr i) 32 = g.bytes := by
  have h := Mem.readBytes_writeBytes m g.bytes (guestAddr i) (by rw [g.bytes_length]; exact guestAddr_le hi)
  rwa [g.bytes_length] at h

/-- Filling a buffer leaves every entry of the guest table. -/
theorem Mem.entry_beside_buffer (hn : n < Config.poolSize) (hlen : bs.length ≤ 2048) :
    Mem.readBytes (Mem.writeBytes m (bufAddr n) bs) (guestAddr i) 32 = Mem.readBytes m (guestAddr i) 32 :=
  Mem.readBytes_writeBytes_apart (Or.inr (by have := bufAddr_below_guests hn i; omega))

theorem Mem.buffer_written (hn : n < Config.poolSize) (hlen : bs.length ≤ 2048) :
    Mem.readBytes (Mem.writeBytes m (bufAddr n) bs) (bufAddr n) bs.length = bs :=
  Mem.readBytes_writeBytes _ _ _ (by
    have := bufAddr_le n hn
    simp only [Config.bufferBytes, Config.labelBase, Config.dramSize] at this ⊢
    omega)

/-- Writing an entry of the guest table leaves every buffer. -/
theorem Mem.buffer_beside_entry {k : Nat} (g : Guest) (hn : n < Config.poolSize) (hk : k ≤ 2048) :
    Mem.readBytes (Mem.writeBytes m (guestAddr i) g.bytes) (bufAddr n) k = Mem.readBytes m (bufAddr n) k :=
  Mem.readBytes_writeBytes_apart (Or.inl (by have := bufAddr_below_guests hn i; omega))

/-- Freeing an entry of the guest table leaves every buffer. -/
theorem Mem.buffer_beside_wiped {k : Nat} (hn : n < Config.poolSize) (hk : k ≤ 2048) :
    Mem.readBytes (Mem.wipe m (guestAddr i) (guestAddr i + 32)) (bufAddr n) k = Mem.readBytes m (bufAddr n) k :=
  Mem.readBytes_wipe_apart (Or.inl (by have := bufAddr_below_guests hn i; omega))
end

/-! ### entries read (R155) -/

theorem Part.guestAt_of_read {p q : Part} {i : Nat} (hcleared : q.gst.cleared = p.gst.cleared)
    (hread : q.read (guestAddr i) 32 = p.read (guestAddr i) 32) : q.guestAt i = p.guestAt i := by
  simp only [Part.guestAt, Config.guestBytes, hcleared, hread]

theorem Part.guestAt_of_dram {p q : Part} (hcleared : q.gst.cleared = p.gst.cleared) (hdram : q.dram = p.dram) (i : Nat) :
    q.guestAt i = p.guestAt i :=
  Part.guestAt_of_read hcleared (by simp only [Part.read, hdram])

theorem Part.findGuest_of_dram {p q : Part} (hcleared : q.gst.cleared = p.gst.cleared) (hdram : q.dram = p.dram) (d : Nat) :
    q.findGuest d = p.findGuest d := by
  simp only [Part.findGuest, Part.guestAt_of_dram hcleared hdram]

theorem Part.admitted_of_dram {p q : Part} (hcleared : q.gst.cleared = p.gst.cleared) (hdram : q.dram = p.dram) :
    q.admitted = p.admitted := by
  simp only [Part.admitted, Part.guestAt_of_dram hcleared hdram]

theorem Part.mem_admitted {p : Part} {i : Nat} : i ∈ p.admitted ↔ i < 256 ∧ (p.guestAt i).isSome = true := by
  simp [Part.admitted, Config.guestSlots]

theorem Part.findGuest_some {p : Part} {d i : Nat} {g : Guest} (h : p.findGuest d = some (i, g)) :
    i < 256 ∧ p.guestAt i = some g := by
  obtain ⟨j, hj, hfound⟩ := List.exists_of_findSome?_eq_some h
  cases hat : p.guestAt j with
  | none => simp [hat] at hfound
  | some x =>
    simp only [hat, Option.ite_none_right_eq_some, Option.some.injEq, Prod.mk.injEq] at hfound
    obtain ⟨-, rfl, rfl⟩ := hfound
    exact ⟨List.mem_range.mp hj, hat⟩

/-- An entry whose place holds only zeros is FREE. -/
theorem Part.guestAt_of_wiped {m : Mem} {q : Part} {i : Nat} (h : q.dram = Mem.wipe m (guestAddr i) (guestAddr i + 32)) :
    q.guestAt i = none := by
  have hzero : q.read (guestAddr i) 32 = List.replicate 32 0 :=
    Mem.readBytes_of_zero fun x h1 h2 => by rw [h, Mem.read_wipe, if_pos ⟨h1, h2⟩]
  unfold Part.guestAt
  split_ifs
  · rfl
  · rw [Config.guestBytes, hzero]
    decide

/-- The one guest freed, the table holds none. -/
theorem Part.admitted_of_freed {p q : Part} {i : Nat} (hone : p.admitted = [i]) (hfree : q.guestAt i = none)
    (hothers : ∀ j, j ≠ i → q.guestAt j = p.guestAt j) : q.admitted = [] := by
  refine List.eq_nil_iff_forall_not_mem.mpr fun j hj => ?_
  obtain ⟨hlt, hsome⟩ := Part.mem_admitted.mp hj
  by_cases hji : j = i
  · simp [hji, hfree] at hsome
  · have hin : j ∈ p.admitted := Part.mem_admitted.mpr ⟨hlt, hothers j hji ▸ hsome⟩
    simp [hone, hji] at hin

/-! ### entries written and freed (R155) -/

@[simp] theorem Part.setGuest_dram (i : Nat) (g : Guest) (p : Part) :
    (p.setGuest i g).dram = Mem.writeBytes p.dram (guestAddr i) g.bytes := by
  simp [Part.setGuest]

@[simp] theorem Part.freeGuest_dram (i : Nat) (p : Part) :
    (p.freeGuest i).dram = Mem.wipe p.dram (guestAddr i) (guestAddr i + 32) := rfl

/-! ### the pieces of the forwarding engine -/

@[simp] theorem Forwarding.without_frame (f : Forwarding) (it : RxItem) :
    (f.without it).routes = f.routes ∧ (f.without it).exchange = f.exchange ∧ (f.without it).packets = f.packets ∧
      (f.without it).radio = f.radio ∧ (f.without it).free = f.free ∧ (f.without it).guestCount = f.guestCount ∧
      (f.without it).ctr = f.ctr := by
  and_intros <;> rfl

@[simp] theorem Forwarding.giveBack_frame (f : Forwarding) (b : Buf) :
    (f.giveBack b).routes = f.routes ∧ (f.giveBack b).exchange = f.exchange ∧ (f.giveBack b).packets = f.packets ∧
      (f.giveBack b).radio = f.radio ∧ (f.giveBack b).free = f.free ++ [b.num] ∧ (f.giveBack b).ctr = f.ctr := by
  and_intros <;> rfl

theorem Forwarding.giveBack_guestCount_le (f : Forwarding) (b : Buf) : (f.giveBack b).guestCount ≤ f.guestCount :=
  Nat.sub_le _ _

/-! ### a notice sent (R65, R67, R161) -/

theorem Part.joinRadio_fwd (b : Buf) (p : Part) :
    (p.joinRadio b).fwd = { p.fwd with radio := beginHead (p.fwd.radio ++ [⟨b, 0, false⟩]) } := by
  simp [Part.joinRadio, Part.modRadio]

/-- A frame that joins behind another finds the head begun. -/
theorem beginHead_append (l r : List LFrame) : beginHead (beginHead l ++ r) = beginHead (l ++ r) := by
  cases l <;> rfl

/-- The head of the free list has been granted to the guest link, and `free` is left. -/
def Forwarding.guestGranted (free : List Nat) (f : Forwarding) : Forwarding :=
  { f with
    free := free, guestCount := f.guestCount + 1, ctr := { f.ctr with lowestFree := min f.ctr.lowestFree free.length } }

@[simp] theorem Forwarding.guestGranted_frame (free : List Nat) (f : Forwarding) :
    (f.guestGranted free).routes = f.routes ∧ (f.guestGranted free).exchange = f.exchange ∧
      (f.guestGranted free).packets = f.packets ∧ (f.guestGranted free).radio = f.radio ∧
      (f.guestGranted free).free = free ∧ (f.guestGranted free).guestCount = f.guestCount + 1 := by
  and_intros <;> rfl

theorem Forwarding.take_guest {f : Forwarding} {m : Nat} {free : List Nat} (hfree : f.free = m :: free)
    (hroom : Config.controlReserve < f.free.length) (hlimit : f.guestCount < 192) :
    f.take .guest = (some ⟨m, .guest, 0⟩, f.guestGranted free) := by
  have hnone : f.refusal .guest = none := by
    simp only [Forwarding.refusal, Config.controlReserve, Config.guestLimit] at hroom ⊢
    rw [if_neg (by omega), if_neg (by omega), if_neg (by omega), if_neg (by simp)]
  simp [Forwarding.take, hnone, hfree, User.mark, bit, Forwarding.guestGranted]

/-- A frame of the guest link's own with these bytes, in buffer `m`. -/
def radioFrame (m : Nat) (bs : Bytes) : LFrame := ⟨⟨m, .guest, bs.length⟩, 0, false⟩

theorem Part.radio_shows {p : Part} {l : List LFrame} {m : Nat} {bs : Bytes}
    (hradio : p.fwd.radio = beginHead (l ++ [radioFrame m bs])) (hbytes : p.read (bufAddr m) bs.length = bs) :
    ∃ x, p.fwd.radio = beginHead (l ++ [x]) ∧ p.bufBytes x.buf = bs :=
  ⟨radioFrame m bs, hradio, hbytes⟩

/-- A frame with these bytes stands in buffer `m` and has joined the guest radio queue. -/
def Part.radioQueued (m : Nat) (free : List Nat) (bs : Bytes) (p : Part) : Part :=
  ((p.modFwd (·.guestGranted free)).write .rewrite (bufAddr m) bs).joinRadio ⟨m, .guest, bs.length⟩

@[simp] theorem Part.radioQueued_frame (m : Nat) (free : List Nat) (bs : Bytes) (p : Part) :
    (p.radioQueued m free bs).cfg = p.cfg ∧ (p.radioQueued m free bs).branch = p.branch ∧
      (p.radioQueued m free bs).trunkFramer = p.trunkFramer ∧ (p.radioQueued m free bs).labelFramer = p.labelFramer ∧
      (p.radioQueued m free bs).guestFramer = p.guestFramer ∧ (p.radioQueued m free bs).call = p.call ∧
      (p.radioQueued m free bs).pres = p.pres ∧ (p.radioQueued m free bs).price = p.price ∧
      (p.radioQueued m free bs).till = p.till ∧ (p.radioQueued m free bs).jrn = p.jrn ∧
      (p.radioQueued m free bs).lab = p.lab ∧ (p.radioQueued m free bs).gst = p.gst ∧
      (p.radioQueued m free bs).trk = p.trk ∧ (p.radioQueued m free bs).hdr = p.hdr ∧
      (p.radioQueued m free bs).memCtr = p.memCtr ∧
      (p.radioQueued m free bs).dram = Mem.writeBytes p.dram (bufAddr m) bs ∧
      (p.radioQueued m free bs).written = p.written := by
  simp [Part.radioQueued]

@[simp] theorem Part.radioQueued_fwd (m : Nat) (free : List Nat) (bs : Bytes) (p : Part) :
    (p.radioQueued m free bs).fwd =
      { p.fwd.guestGranted free with radio := beginHead (p.fwd.radio ++ [radioFrame m bs]) } := by
  rw [Part.radioQueued, Part.joinRadio_fwd]
  simp [Forwarding.guestGranted, radioFrame]

/-- A notice can be sent: the radio is UP, and the guest link gets `m`, the head of a free list beyond the reserve. -/
structure Part.NoticeGoes (p : Part) (m : Nat) (free : List Nat) : Prop where
  up : p.gst.radioUp = true
  head : p.fwd.free = m :: free
  place : m < Config.poolSize
  room : Config.controlReserve < p.fwd.free.length
  limit : p.fwd.guestCount < 192

theorem Part.notice_sent {p : Part} {m : Nat} {free : List Nat} (h : p.NoticeGoes m free) (n : GuestNotice)
    (device index address reason up down drops : Nat) :
    p.notice n device index address reason up down drops =
      p.radioQueued m free (noticeBytes n device index address reason up down drops) := by
  have htake : p.takeBuffer .guest = (some ⟨m, .guest, 0⟩, p.modFwd (·.guestGranted free)) := by
    simp [Part.takeBuffer, Forwarding.take_guest h.head h.room h.limit, Part.modFwd]
  simp only [Part.notice, h.up, if_true, Part.build, htake]
  rfl

end Sys2Proof.Machine
end

section
/-! PROOFS. The guest radio comes and goes (R65, R154, R163). -/

open Sys2Proof
namespace Sys2Proof.Machine

theorem exec_guestUpReceived (s : State) : exec .guestUpReceived s = s.run Part.guestUp := rfl
theorem exec_radioStatusReceived (s : State) : exec .radioStatusReceived s = s.run Part.radioStatus := rfl
theorem exec_guestFrameUnknown (s : State) : exec .guestFrameUnknown s = s.run Part.guestUnknown := rfl
theorem exec_radioTimerExpiry (s : State) : exec .radioTimerExpiry s = s.run Part.radioExpiry := rfl

/-- A command that ends in `q` shows its guest meter, forwarding engine, pricing unit and memory, and keeps of `p`
what `q` keeps. -/
theorem State.lands_guests_from {s : State} {c : Instr} {q : Part} (p : Part) {but : List Piece} (h : s.lands c q)
    (hkept : ∀ b, b ∉ but → b.same { s with part := p } { s with part := q }) :
    ∃ t, exec c s = .next t ∧ t.part.gst = q.gst ∧ t.part.fwd = q.fwd ∧ t.part.price = q.price ∧
      (∀ a, Mem.read t.part.dram a = Mem.read q.dram a) ∧ Unchanged but { s with part := p } t := by
  obtain ⟨t, hexec, hsame, -⟩ := h
  exact ⟨t, hexec, hsame .gst List.not_mem_nil, hsame .fwd List.not_mem_nil, hsame .price List.not_mem_nil,
    hsame .memory List.not_mem_nil, Unchanged.after (s := { s with part := p }) hsame hkept⟩

theorem State.lands_guests {s : State} {c : Instr} {q : Part} {but : List Piece} (h : s.lands c q)
    (hkept : ∀ b, b ∉ but → b.same s { s with part := q }) :
    ∃ t, exec c s = .next t ∧ t.part.gst = q.gst ∧ t.part.fwd = q.fwd ∧ t.part.price = q.price ∧
      (∀ a, Mem.read t.part.dram a = Mem.read q.dram a) ∧ Unchanged but s t :=
  State.lands_guests_from s.part h hkept

/-- The state's free list and guest count let a notice be sent by a part that has them. -/
theorem State.bufferFree.noticeGoes {s : State} (h : s.bufferFree) {q : Part} {m : Nat} {rest free : List Nat}
    (hhead : s.part.fwd.free = m :: rest) (hlimit : s.part.fwd.guestCount < 192) (hup : q.gst.radioUp = true)
    (hfree : q.fwd.free = m :: free) (hlonger : rest.length ≤ free.length)
    (hcount : q.fwd.guestCount ≤ s.part.fwd.guestCount) :
    q.NoticeGoes m free := by
  obtain ⟨hroom, hpool⟩ := h
  refine ⟨hup, hfree, hpool m (by simp [hhead]), ?_, by omega⟩
  rw [hhead, List.length_cons] at hroom
  rw [hfree, List.length_cons]
  omega

/-! ### a frame of the guest link taken (R154) -/

/-- A frame of the guest link has left the receive queue, and the radio is UP with its timer restarted. -/
def Part.radioOn (it : RxItem) (p : Part) : Part :=
  { p with fwd := p.fwd.without it, gst := { p.gst with radioUp := true, radioTimer := true } }

@[simp] theorem Part.radioOn_frame (it : RxItem) (p : Part) :
    (p.radioOn it).cfg = p.cfg ∧ (p.radioOn it).branch = p.branch ∧ (p.radioOn it).trunkFramer = p.trunkFramer ∧
      (p.radioOn it).labelFramer = p.labelFramer ∧ (p.radioOn it).guestFramer = p.guestFramer ∧
      (p.radioOn it).links = p.links ∧ (p.radioOn it).fwd = p.fwd.without it ∧ (p.radioOn it).call = p.call ∧
      (p.radioOn it).pres = p.pres ∧ (p.radioOn it).price = p.price ∧ (p.radioOn it).till = p.till ∧
      (p.radioOn it).jrn = p.jrn ∧ (p.radioOn it).lab = p.lab ∧
      (p.radioOn it).gst = { p.gst with radioUp := true, radioTimer := true } ∧ (p.radioOn it).trk = p.trk ∧
      (p.radioOn it).hdr = p.hdr ∧ (p.radioOn it).memCtr = p.memCtr ∧ (p.radioOn it).dram = p.dram ∧
      (p.radioOn it).written = p.written := by
  and_intros <;> rfl

/-- A frame of the guest link taken with the table read changes the guest meter and the forwarding engine. -/
theorem State.radioOn_kept {s : State} (it : RxItem) {but : List Piece} (hgst : .gst ∈ but) (hfwd : .fwd ∈ but) :
    ∀ b : Piece, b ∉ but → b.same s { s with part := (s.part.radioOn it).loadGuests } := by
  intro b hb
  cases b
  case gst => exact absurd hgst hb
  case fwd => exact absurd hfwd hb
  all_goals simp [Piece.same]

section
variable {p : Part} {it : RxItem} {b : Bytes} {kind : Nat → Bool} (f : RxItem → Bytes → Part → Part)
  (hframe : p.linkFrame .guest .guest = some (it, b)) (hkind : kind (fieldAt b 0 1) = true) (hfresh : it.stale = false)
include hframe hkind hfresh

theorem Part.takeGuestFrame_up (hup : p.gst.radioUp = true) : p.takeGuestFrame kind f = f it b (p.radioOn it) := by
  have hheard : (p.leaveReceive it).radioHeard = p.radioOn it := if_pos hup
  simp [Part.takeGuestFrame, hframe, hkind, hfresh, hheard]

theorem Part.takeGuestFrame_down {m : Nat} {free : List Nat} (hdown : p.gst.radioUp = false)
    (hgoes : (p.radioOn it).NoticeGoes m free) :
    p.takeGuestFrame kind f = f it b ((p.radioOn it).radioQueued m free (noticeBytes .endedAll 0 0 0 4 0 0 0)) := by
  have hheard : (p.leaveReceive it).radioHeard = (p.radioOn it).notice .endedAll 0 0 0 reasonReset 0 0 0 :=
    if_neg (by simp [hdown])
  rw [Part.notice_sent hgoes] at hheard
  simp [Part.takeGuestFrame, hframe, hkind, hfresh, hheard, reasonReset]
end

section
variable {s : State} {it : RxItem} {b : Bytes} (hev : s.supply.takesEvents = true)
  (hframe : s.part.linkFrame .guest .guest = some (it, b)) (hfresh : it.stale = false)
include hev hframe hfresh

theorem State.radio_heard (hkind : fieldAt b 0 1 = 4) (hup : s.part.gst.radioUp = true) :
    ∃ t, exec .radioStatusReceived s = .next t ∧ t.part.gst = { s.part.gst with radioTimer := true } ∧
      t.part.fwd = (s.part.fwd.without it).giveBack it.buf ∧ Unchanged [.gst, .fwd] s t := by
  have hlands := State.lands_of_run exec_radioStatusReceived hev
  rw [Part.radioStatus, Part.takeGuestFrame_up _ hframe (by simp [hkind, radioStatusKind]) hfresh hup] at hlands
  obtain ⟨t, hexec, hgst, hfwd, -, -, hsame⟩ := State.lands_guests (but := [.gst, .fwd]) hlands fun b hb => by
    cases b <;> simp [Piece.same] at hb ⊢
  exact ⟨t, hexec, hgst.trans (by simp [hup]), hfwd.trans (by simp), hsame⟩

theorem State.radio_comes_up {m : Nat} {rest : List Nat} (hkind : fieldAt b 0 1 = 4) (hdown : s.part.gst.radioUp = false)
    (hbuffer : s.bufferFree) (hlimit : s.part.fwd.guestCount < 192) (hfree : s.part.fwd.free = m :: rest) :
    ∃ t, exec .radioStatusReceived s = .next t ∧
      t.part.gst = { s.part.gst with radioUp := true, radioTimer := true } ∧
      (∃ x, t.part.fwd.radio = beginHead (s.part.fwd.radio ++ [x]) ∧
        t.part.bufBytes x.buf = noticeBytes .endedAll 0 0 0 4 0 0 0) ∧
      (∀ a, a < bufAddr m ∨ bufAddr m + 2048 ≤ a → Mem.read t.part.dram a = Mem.read s.part.dram a) ∧
      Unchanged [.links, .gst, .fwd, .memory] s t := by
  have hgoes : (s.part.radioOn it).NoticeGoes m rest :=
    hbuffer.noticeGoes hfree hlimit rfl hfree (Nat.le_refl _) (Nat.le_refl _)
  have hlands := State.lands_of_run exec_radioStatusReceived hev
  rw [Part.radioStatus, Part.takeGuestFrame_down _ hframe (by simp [hkind, radioStatusKind]) hfresh hdown hgoes] at hlands
  obtain ⟨t, hexec, hgst, hfwd, -, hmem, hsame⟩ := State.lands_guests (but := [.links, .gst, .fwd, .memory]) hlands
    fun b hb => by cases b <;> simp [Piece.same] at hb ⊢
  refine ⟨t, hexec, hgst.trans (by simp), Part.radio_shows (m := m) ?_ ?_, fun a ha => ?_, hsame⟩
  · rw [hfwd, Part.giveBack_fwd, Part.radioQueued_fwd]
    rfl
  · refine (Part.read_congr hmem _ _).trans ?_
    simpa [Part.read] using Mem.buffer_written (m := s.part.dram) hgoes.place (noticeBytes_fits .endedAll 0 0 0 4 0 0 0)
  · simpa [hmem] using Mem.read_buffer_written (m := s.part.dram) (noticeBytes_fits .endedAll 0 0 0 4 0 0 0) ha

theorem State.radio_unknown (hpacket : fieldAt b 0 1 ≠ 1) (hstatus : fieldAt b 0 1 ≠ 4) (hup : s.part.gst.radioUp = true) :
    ∃ t, exec .guestFrameUnknown s = .next t ∧
      t.part.gst =
        { s.part.gst with
          radioTimer := true, ctr := { s.part.gst.ctr with unknown := bump s.part.gst.ctr.unknown } } ∧
      t.part.fwd = (s.part.fwd.without it).giveBack it.buf ∧ Unchanged [.gst, .fwd] s t := by
  have hlands := State.lands_of_run exec_guestFrameUnknown hev
  rw [Part.guestUnknown, Part.takeGuestFrame_up _ hframe (by simp [hpacket, hstatus, guestUpKind, radioStatusKind]) hfresh
    hup] at hlands
  obtain ⟨t, hexec, hgst, hfwd, -, -, hsame⟩ := State.lands_guests (but := [.gst, .fwd]) hlands fun b hb => by
    cases b <;> simp [Piece.same] at hb ⊢
  exact ⟨t, hexec, hgst.trans (by simp [hup]), hfwd.trans (by simp), hsame⟩
end

/-! ### the radio DOWN (R65, R163) -/

/-- The radio is DOWN, and its loss counted. -/
def Part.radioOff (p : Part) : Part :=
  p.modGst fun g =>
    { g with radioUp := false, radioTimer := false, ctr := { g.ctr with radioLosses := bump g.ctr.radioLosses } }

/-- A frame of the guest link that waits brings the radio UP no more. -/
def RxItem.aged (it : RxItem) : RxItem := if it.line = .guest then { it with stale := true } else it

theorem RxItem.aged_stale {it : RxItem} (h : it.aged.line = .guest) : it.aged.stale = true := by
  unfold RxItem.aged at h ⊢
  split_ifs at h ⊢
  · rfl
  · contradiction

/-- Every frame of the guest link that waits brings the radio UP no more. -/
def Part.framesAged (p : Part) : Part :=
  p.modFwd fun f => { f with waiting := f.waiting.map RxItem.aged, taken := f.taken.map fun x => (x.1, x.2.aged) }

theorem Part.radioExpiry_one {p : Part} {i : Nat} (hup : p.gst.radioUp = true) (htimer : p.gst.radioTimer = true)
    (hone : p.admitted = [i]) :
    p.radioExpiry =
      ((p.radioOff.dropRadio.loadGuests.freeGuest i).countGst EndReason.radio.count).framesAged := by
  have hadmitted : p.radioOff.dropRadio.admitted = [i] :=
    (Part.admitted_of_dram (by simp [Part.radioOff]) (by simp [Part.radioOff])).trans hone
  have hdown : p.radioExpiry = p.radioDown := if_pos ⟨hup, htimer⟩
  have hfold : p.radioDown =
      (p.radioOff.dropRadio.admitted.foldl (fun r i => (r.freeGuest i).countGst EndReason.radio.count)
        p.radioOff.dropRadio.loadGuests).framesAged := rfl
  rw [hdown, hfold, hadmitted, List.foldl_cons, List.foldl_nil]

theorem Part.giveBackAll_radio (bs : List Buf) (p : Part) : (p.giveBackAll bs).fwd.radio = p.fwd.radio :=
  foldl_keep (fun q : Part => q.fwd.radio) (fun q b => q.giveBack b) (fun _ _ => rfl) bs p

theorem Part.dropRadio_pool (p : Part) :
    p.dropRadio.fwd.radio = p.fwd.radio.filter (·.begun) ∧
      p.dropRadio.fwd.free = p.fwd.free ++ (p.fwd.radio.filter fun x => !x.begun).map (·.buf.num) ∧
      p.dropRadio.fwd.ctr =
        { p.fwd.ctr with noExit := bumpBy (p.fwd.radio.filter fun x => !x.begun).length p.fwd.ctr.noExit } := by
  obtain ⟨-, hfree, hctr⟩ := Part.giveBackAll_pool ((p.fwd.radio.filter fun x => !x.begun).map (·.buf))
    (p.modFwd fun f => { f with radio := f.radio.filter (·.begun) })
  have hradio := Part.giveBackAll_radio ((p.fwd.radio.filter fun x => !x.begun).map (·.buf))
    (p.modFwd fun f => { f with radio := f.radio.filter (·.begun) })
  rw [List.map_map] at hfree
  refine ⟨hradio, hfree, ?_⟩
  simp only [Part.dropRadio, Part.countFwd_fwd, hctr]
  rfl

theorem State.radio_lost {s : State} {i : Nat} (hev : s.supply.takesEvents = true) (hup : s.part.gst.radioUp = true)
    (htimer : s.part.gst.radioTimer = true) (hone : s.part.admitted = [i]) :
    ∃ t, exec .radioTimerExpiry s = .next t ∧
      t.part.gst =
        { s.part.gst with
          radioUp := false, radioTimer := false
          ctr :=
            { s.part.gst.ctr with
              radioLosses := bump s.part.gst.ctr.radioLosses, endedRadio := bump s.part.gst.ctr.endedRadio } } ∧
      t.part.guestAt i = none ∧
      (∀ a, a < guestAddr i ∨ guestAddr i + 32 ≤ a → Mem.read t.part.dram a = Mem.read s.part.dram a) ∧
      t.part.fwd.radio = s.part.fwd.radio.filter (·.begun) ∧
      t.part.fwd.free = s.part.fwd.free ++ (s.part.fwd.radio.filter fun x => !x.begun).map (·.buf.num) ∧
      t.part.fwd.ctr =
        { s.part.fwd.ctr with
          noExit := bumpBy (s.part.fwd.radio.filter fun x => !x.begun).length s.part.fwd.ctr.noExit } ∧
      (∀ x ∈ t.part.fwd.taken, x.2.line = .guest → x.2.stale = true) ∧
      Unchanged [.gst, .fwd, .memory] s t := by
  have hlands := State.lands_of_run exec_radioTimerExpiry hev
  rw [Part.radioExpiry_one hup htimer hone] at hlands
  obtain ⟨t, hexec, hgst, hfwd, -, hmem, hsame⟩ := State.lands_guests (but := [.gst, .fwd, .memory]) hlands fun b hb => by
    cases b <;> simp [Piece.same, Part.framesAged, Part.radioOff] at hb ⊢
  obtain ⟨hradio, hfree, hctr⟩ := s.part.radioOff.dropRadio_pool
  have hdram : (((s.part.radioOff.dropRadio.loadGuests.freeGuest i).countGst EndReason.radio.count).framesAged).dram =
      Mem.wipe s.part.dram (guestAddr i) (guestAddr i + 32) := by
    simp [Part.framesAged, Part.radioOff]
  have hfwd' : t.part.fwd =
      { s.part.radioOff.dropRadio.fwd with
        waiting := s.part.radioOff.dropRadio.fwd.waiting.map RxItem.aged
        taken := s.part.radioOff.dropRadio.fwd.taken.map fun x => (x.1, x.2.aged) } :=
    hfwd.trans (by simp [Part.framesAged])
  refine ⟨t, hexec, hgst.trans ?_, ?_, fun a ha => ?_, ?_, ?_, ?_, fun x hx hline => ?_, hsame⟩
  · simp [Part.framesAged, Part.radioOff, EndReason.count]
  · exact (Part.guestAt_of_read (by rw [hgst]) (Part.read_congr hmem _ _)).trans (Part.guestAt_of_wiped hdram)
  · rw [hmem, hdram, Mem.read_entry_wiped ha]
  · rw [hfwd']; exact hradio
  · rw [hfwd']; exact hfree
  · rw [hfwd']; exact hctr
  · rw [hfwd'] at hx
    obtain ⟨y, -, rfl⟩ := List.mem_map.mp hx
    exact RxItem.aged_stale hline

end Sys2Proof.Machine
end

section
/-! PROOFS. The meter, and guests ended (R158, R162). -/

open Sys2Proof
namespace Sys2Proof.Machine

theorem exec_meterTick (s : State) : exec .meterTick s = s.run Part.meterTick := rfl

theorem Part.budget_congr {p q : Part} (hcfg : q.cfg = p.cfg) (hpres : q.pres = p.pres) : q.budget = p.budget := by
  unfold Part.budget Part.windowInForce
  rw [hcfg, hpres]

/-! ### guests ended (R162) -/

section
variable {p : Part} {r : EndReason} {cond : Part → Guest → Bool}

theorem Part.endGuests_empty (h : p.admitted = []) : p.endGuests r cond = p.loadGuests := by
  simp [Part.endGuests, h]

variable {i : Nat} {g : Guest} (hone : p.admitted = [i]) (hat : p.guestAt i = some g)
include hone hat

theorem Part.endGuests_one (hcond : cond p.loadGuests g = true) : p.endGuests r cond = p.loadGuests.endGuest r i g := by
  have hread : p.loadGuests.guestAt i = some g := (Part.guestAt_of_dram (by simp) (by simp) i).trans hat
  simp [Part.endGuests, hone, hread, hcond]

theorem Part.endGuests_spared (hcond : cond p.loadGuests g = false) : p.endGuests r cond = p.loadGuests := by
  have hread : p.loadGuests.guestAt i = some g := (Part.guestAt_of_dram (by simp) (by simp) i).trans hat
  simp [Part.endGuests, hone, hread, hcond]
end

/-- The guest at index `i` is ended with this notice in buffer `m`. -/
def Part.guestEnded (m : Nat) (free : List Nat) (r : EndReason) (i : Nat) (g : Guest) (p : Part) : Part :=
  ((p.radioQueued m free (noticeBytes .ended g.device i 0 r.code g.up g.down g.drops)).freeGuest i).countGst r.count

theorem Part.endGuest_sent {p : Part} {m : Nat} {free : List Nat} (h : p.NoticeGoes m free) (r : EndReason) (i : Nat)
    (g : Guest) : p.endGuest r i g = p.guestEnded m free r i g := by
  rw [Part.endGuest, Part.notice_sent h, Part.guestEnded]

section
variable {m i : Nat} {free : List Nat} {r : EndReason} {g : Guest} {p : Part}

@[simp] theorem Part.guestEnded_frame :
    (p.guestEnded m free r i g).cfg = p.cfg ∧ (p.guestEnded m free r i g).branch = p.branch ∧
      (p.guestEnded m free r i g).trunkFramer = p.trunkFramer ∧ (p.guestEnded m free r i g).labelFramer = p.labelFramer ∧
      (p.guestEnded m free r i g).guestFramer = p.guestFramer ∧ (p.guestEnded m free r i g).call = p.call ∧
      (p.guestEnded m free r i g).pres = p.pres ∧ (p.guestEnded m free r i g).price = p.price ∧
      (p.guestEnded m free r i g).till = p.till ∧ (p.guestEnded m free r i g).jrn = p.jrn ∧
      (p.guestEnded m free r i g).lab = p.lab ∧
      (p.guestEnded m free r i g).gst = { p.gst with ctr := r.count p.gst.ctr } ∧
      (p.guestEnded m free r i g).trk = p.trk ∧ (p.guestEnded m free r i g).hdr = p.hdr ∧
      (p.guestEnded m free r i g).memCtr = p.memCtr ∧ (p.guestEnded m free r i g).written = p.written := by
  simp [Part.guestEnded]

@[simp] theorem Part.guestEnded_fwd :
    (p.guestEnded m free r i g).fwd =
      { p.fwd.guestGranted free with
        radio := beginHead
          (p.fwd.radio ++ [radioFrame m (noticeBytes .ended g.device i 0 r.code g.up g.down g.drops)]) } := by
  simp [Part.guestEnded]

@[simp] theorem Part.guestEnded_dram :
    (p.guestEnded m free r i g).dram =
      Mem.wipe (Mem.writeBytes p.dram (bufAddr m) (noticeBytes .ended g.device i 0 r.code g.up g.down g.drops))
        (guestAddr i) (guestAddr i + 32) := by
  simp [Part.guestEnded]

/-- The table once guest `i` is ended: its entry is FREE, and the others are as they were. -/
theorem Part.guestEnded_table (hm : m < Config.poolSize) :
    (p.guestEnded m free r i g).guestAt i = none ∧
      ∀ j, j ≠ i → (p.guestEnded m free r i g).guestAt j = p.guestAt j := by
  refine ⟨Part.guestAt_of_wiped Part.guestEnded_dram, fun j hj => Part.guestAt_of_read (by simp) ?_⟩
  rw [Part.read, Part.guestEnded_dram, Mem.readBytes_wipe_apart (by have := guestAddr_apart hj; omega),
    Mem.entry_beside_buffer hm (noticeBytes_fits ..), Part.read]

/-- What the one guest ended leaves of the memory, read in a state with the same bytes. -/
theorem Part.guestEnded_memory {t : Part} (hm : m < Config.poolSize)
    (hmem : ∀ a, Mem.read t.dram a = Mem.read (p.guestEnded m free r i g).dram a) :
    t.read (bufAddr m) (noticeBytes .ended g.device i 0 r.code g.up g.down g.drops).length =
        noticeBytes .ended g.device i 0 r.code g.up g.down g.drops ∧
      ∀ a, (a < guestAddr i ∨ guestAddr i + 32 ≤ a) → (a < bufAddr m ∨ bufAddr m + 2048 ≤ a) →
        Mem.read t.dram a = Mem.read p.dram a := by
  have hfits := noticeBytes_fits .ended g.device i 0 r.code g.up g.down g.drops
  refine ⟨(Part.read_congr hmem _ _).trans ?_, fun a hentry hbuffer => ?_⟩
  · rw [Part.read, Part.guestEnded_dram, Mem.buffer_beside_wiped hm hfits, Mem.buffer_written hm hfits]
  · rw [hmem, Part.guestEnded_dram, Mem.read_entry_wiped hentry, Mem.read_buffer_written hfits hbuffer]
end

/-! ### the shares (R158) -/

/-- The budget and the cap in force from this tick on, and the table read. -/
def Part.shared (budget cap : Nat) (p : Part) : Part :=
  (p.modGst fun g => { g with budget := budget, cap := cap }).loadGuests

@[simp] theorem Part.shared_frame (budget cap : Nat) (p : Part) :
    (p.shared budget cap).cfg = p.cfg ∧ (p.shared budget cap).branch = p.branch ∧
      (p.shared budget cap).trunkFramer = p.trunkFramer ∧ (p.shared budget cap).labelFramer = p.labelFramer ∧
      (p.shared budget cap).guestFramer = p.guestFramer ∧ (p.shared budget cap).links = p.links ∧
      (p.shared budget cap).fwd = p.fwd ∧ (p.shared budget cap).call = p.call ∧ (p.shared budget cap).pres = p.pres ∧
      (p.shared budget cap).price = p.price ∧ (p.shared budget cap).till = p.till ∧ (p.shared budget cap).jrn = p.jrn ∧
      (p.shared budget cap).lab = p.lab ∧ (p.shared budget cap).gst = { p.gst with budget := budget, cap := cap } ∧
      (p.shared budget cap).trk = p.trk ∧ (p.shared budget cap).hdr = p.hdr ∧ (p.shared budget cap).memCtr = p.memCtr ∧
      (p.shared budget cap).dram = p.dram ∧ (p.shared budget cap).written = p.written := by
  simp [Part.shared]

theorem Part.meterShares_none {p : Part} (h : p.admitted = []) : p.meterShares = p.shared p.budget 1536 := by
  have hcount : p.activeCount = 0 := by simp [Part.activeCount, h]
  have hstill : (p.modGst fun g => { g with budget := p.budget, cap := 1536 }).admitted = [] :=
    (Part.admitted_of_dram rfl rfl).trans h
  simp [Part.meterShares, hcount, Config.guestTokens, hstill, Part.shared]

/-- The one guest, active, is given the whole budget, up to the cap. -/
theorem Part.meterShares_one {p : Part} {i tokens : Nat} {g : Guest} (hone : p.admitted = [i])
    (hat : p.guestAt i = some g) (hactive : p.idle g < 1000)
    (htokens : tokens = min (max (4 * p.budget) 1536) (min g.tokens (max (4 * p.budget) 1536) + p.budget))
    (hmoves : tokens ≠ g.tokens) :
    p.meterShares = (p.shared p.budget (max (4 * p.budget) 1536)).setGuest i { g with tokens := tokens } := by
  have hcount : p.activeCount = 1 := by simp [Part.activeCount, hone, hat, Part.active, hactive]
  have hstill : (p.modGst fun g => { g with budget := p.budget, cap := max (4 * p.budget) 1536 }).admitted = [i] :=
    (Part.admitted_of_dram rfl rfl).trans hone
  have hread : (p.shared p.budget (max (4 * p.budget) 1536)).guestAt i = some g :=
    (Part.guestAt_of_dram (by simp) (by simp) i).trans hat
  have hawake : (p.shared p.budget (max (4 * p.budget) 1536)).active g = true := by
    simpa [Part.active, Part.idle] using hactive
  have hentry : (p.shared p.budget (max (4 * p.budget) 1536)).meterEntry p.budget (max (4 * p.budget) 1536) i =
      (p.shared p.budget (max (4 * p.budget) 1536)).setGuest i { g with tokens := tokens } := by
    simp only [Part.meterEntry, hread, hawake, if_true, ← htokens]
    exact if_neg hmoves
  simpa [Part.meterShares, hcount, Config.guestTokens, hstill, Part.shared] using hentry

/-! ### a tick (R158, R162) -/

/-- The meter time has moved on by 10 ms. -/
def Part.ticked (p : Part) : Part := p.modGst fun g => { g with meterTime := (g.meterTime + 10) % meterModulus }

theorem Part.meterTick_eq (p : Part) :
    p.meterTick = (p.ticked.endGuests .idle fun r g => decide (600000 ≤ r.idle g)).meterShares := rfl

section
variable {s : State} (hev : s.supply.takesEvents = true)
include hev

theorem State.tick_none (hnone : s.part.admitted = []) :
    ∃ t, exec .meterTick s = .next t ∧
      t.part.gst =
        { s.part.gst with
          meterTime := (s.part.gst.meterTime + 10) % 4294967296, budget := s.part.budget, cap := 1536 } ∧
      Unchanged [.gst] s t := by
  have hticked : s.part.ticked.admitted = [] := (Part.admitted_of_dram rfl rfl).trans hnone
  have hloaded : s.part.ticked.loadGuests.admitted = [] := (Part.admitted_of_dram (by simp) (by simp)).trans hticked
  have hbudget : s.part.ticked.loadGuests.budget = s.part.budget :=
    Part.budget_congr (by simp [Part.ticked]) (by simp [Part.ticked])
  have hlands := State.lands_of_run exec_meterTick hev
  rw [Part.meterTick_eq, Part.endGuests_empty hticked, Part.meterShares_none hloaded, hbudget] at hlands
  obtain ⟨t, hexec, hgst, -, -, -, hsame⟩ := State.lands_guests (but := [.gst]) hlands fun b hb => by
    cases b <;> simp [Piece.same, Part.ticked] at hb ⊢
  exact ⟨t, hexec, hgst.trans (by simp [Part.ticked, meterModulus]), hsame⟩

variable {i : Nat} {g : Guest} (hone : s.part.admitted = [i]) (hat : s.part.guestAt i = some g)
include hone hat

theorem State.tick_shares {tokens : Nat}
    (hactive : ((s.part.gst.meterTime + 10) % 4294967296 + 4294967296 - g.lastActive) % 4294967296 < 1000)
    (htokens : tokens =
      min (max (4 * s.part.budget) 1536) (min g.tokens (max (4 * s.part.budget) 1536) + s.part.budget))
    (hmoves : tokens ≠ g.tokens) :
    ∃ t, exec .meterTick s = .next t ∧
      t.part.gst =
        { s.part.gst with
          meterTime := (s.part.gst.meterTime + 10) % 4294967296, budget := s.part.budget
          cap := max (4 * s.part.budget) 1536 } ∧
      t.part.read (guestAddr i) 32 = ({ g with tokens := tokens } : Guest).bytes ∧
      (∀ a, a < guestAddr i ∨ guestAddr i + 32 ≤ a → Mem.read t.part.dram a = Mem.read s.part.dram a) ∧
      Unchanged [.gst, .memory] s t := by
  have hi : i < 256 := (Part.mem_admitted.mp (hone ▸ List.mem_singleton_self i)).1
  have hticked : s.part.ticked.admitted = [i] := (Part.admitted_of_dram rfl rfl).trans hone
  have hread : s.part.ticked.guestAt i = some g := (Part.guestAt_of_dram rfl rfl i).trans hat
  have hidle : s.part.ticked.loadGuests.idle g < 1000 := by
    simpa [Part.idle, Part.ticked, meterModulus] using hactive
  have hbudget : s.part.ticked.loadGuests.budget = s.part.budget :=
    Part.budget_congr (by simp [Part.ticked]) (by simp [Part.ticked])
  have hlands := State.lands_of_run exec_meterTick hev
  rw [Part.meterTick_eq, Part.endGuests_spared hticked hread (decide_eq_false (by omega)),
    Part.meterShares_one ((Part.admitted_of_dram (by simp) (by simp)).trans hticked)
      ((Part.guestAt_of_dram (by simp) (by simp) i).trans hread) hidle (by rw [hbudget]; exact htokens) hmoves,
    hbudget] at hlands
  obtain ⟨t, hexec, hgst, -, -, hmem, hsame⟩ := State.lands_guests (but := [.gst, .memory]) hlands fun b hb => by
    cases b <;> simp [Piece.same, Part.ticked] at hb ⊢
  refine ⟨t, hexec, hgst.trans (by simp [Part.ticked, meterModulus]), (Part.read_congr hmem _ _).trans ?_, fun a ha => ?_,
    hsame⟩
  · simpa [Part.read] using Mem.entry_written _ hi
  · rw [hmem, Part.setGuest_dram, Mem.read_entry_written ha]
    simp [Part.ticked]

theorem State.tick_ends {m : Nat} {rest : List Nat}
    (hidle : 600000 ≤ ((s.part.gst.meterTime + 10) % 4294967296 + 4294967296 - g.lastActive) % 4294967296)
    (hup : s.part.gst.radioUp = true) (hbuffer : s.bufferFree) (hlimit : s.part.fwd.guestCount < 192)
    (hfree : s.part.fwd.free = m :: rest) :
    ∃ t, exec .meterTick s = .next t ∧ t.part.guestAt i = none ∧
      t.part.gst =
        { s.part.gst with
          meterTime := (s.part.gst.meterTime + 10) % 4294967296, budget := s.part.budget, cap := 1536
          ctr := { s.part.gst.ctr with endedIdle := bump s.part.gst.ctr.endedIdle } } ∧
      (∃ x, t.part.fwd.radio = beginHead (s.part.fwd.radio ++ [x]) ∧
        t.part.bufBytes x.buf = noticeBytes .ended g.device i 0 1 g.up g.down g.drops) ∧
      (∀ a, (a < guestAddr i ∨ guestAddr i + 32 ≤ a) → (a < bufAddr m ∨ bufAddr m + 2048 ≤ a) →
        Mem.read t.part.dram a = Mem.read s.part.dram a) ∧
      Unchanged [.links, .gst, .fwd, .memory] s t := by
  have hgoes : s.part.ticked.loadGuests.NoticeGoes m rest :=
    hbuffer.noticeGoes hfree hlimit (by simpa [Part.ticked] using hup) (by simpa [Part.ticked] using hfree)
      (Nat.le_refl _) (by simp [Part.ticked])
  have hticked : s.part.ticked.admitted = [i] := (Part.admitted_of_dram rfl rfl).trans hone
  have hread : s.part.ticked.guestAt i = some g := (Part.guestAt_of_dram rfl rfl i).trans hat
  have hpast : 600000 ≤ s.part.ticked.loadGuests.idle g := by
    simpa [Part.idle, Part.ticked, meterModulus] using hidle
  obtain ⟨hfreed, hothers⟩ := Part.guestEnded_table (p := s.part.ticked.loadGuests) (free := rest) (r := .idle) (i := i)
    (g := g) hgoes.place
  have hempty := Part.admitted_of_freed ((Part.admitted_of_dram (by simp) (by simp)).trans hticked) hfreed hothers
  have hbudget : (s.part.ticked.loadGuests.guestEnded m rest .idle i g).budget = s.part.budget :=
    Part.budget_congr (by simp [Part.ticked]) (by simp [Part.ticked])
  have hlands := State.lands_of_run exec_meterTick hev
  rw [Part.meterTick_eq, Part.endGuests_one hticked hread (decide_eq_true hpast), Part.endGuest_sent hgoes,
    Part.meterShares_none hempty, hbudget] at hlands
  obtain ⟨t, hexec, hgst, hfwd, -, hmem, hsame⟩ := State.lands_guests (but := [.links, .gst, .fwd, .memory]) hlands
    fun b hb => by cases b <;> simp [Piece.same, Part.ticked] at hb ⊢
  obtain ⟨hbytes, hrest⟩ := Part.guestEnded_memory (p := s.part.ticked.loadGuests) (free := rest) (r := .idle)
    (i := i) (g := g) (t := t.part) hgoes.place fun a => (hmem a).trans (by simp)
  have hgst' : t.part.gst =
      { s.part.gst with
        meterTime := (s.part.gst.meterTime + 10) % 4294967296, budget := s.part.budget, cap := 1536
        ctr := { s.part.gst.ctr with endedIdle := bump s.part.gst.ctr.endedIdle } } :=
    hgst.trans (by simp [Part.ticked, meterModulus, EndReason.count])
  refine ⟨t, hexec, ?_, hgst', Part.radio_shows (m := m) ?_ hbytes, fun a hentry hbuf => ?_, hsame⟩
  · refine (Part.guestAt_of_read ?_ (Part.read_congr (fun a => (hmem a).trans ?_) _ _)).trans hfreed
    · simp [hgst', Part.ticked]
    · simp
  · simp [hfwd, Part.ticked, EndReason.code]
  · exact (hrest a hentry hbuf).trans (by simp [Part.ticked])
end

end Sys2Proof.Machine

open Sys2Proof.Machine

/-- Settles O52: the frames that bring the radio UP, the timer that brings it DOWN, and a tick of the meter with no guest, an
active one and one idle for too long. -/
theorem radioAndMeter : Obligations.RadioAndMeter := by
  refine ⟨fun s it b hev hframe hfresh => ⟨State.radio_heard hev hframe hfresh,
      fun m rest hkind hdown hbuffer hlimit hfree =>
      State.radio_comes_up hev hframe hfresh hkind hdown hbuffer hlimit hfree, State.radio_unknown hev hframe hfresh⟩,
    fun s i hev hup htimer hone => State.radio_lost hev hup htimer hone, fun s now hev hnow => ?_⟩
  subst hnow
  refine ⟨State.tick_none hev, fun i g share tokens hone hat hactive hshare htokens hmoves => ?_,
    fun i g m rest hone hat hidle hup hbuffer hlimit hfree => State.tick_ends hev hone hat hidle hup hbuffer hlimit hfree⟩
  subst hshare
  exact State.tick_shares hev hone hat hactive htokens hmoves
end

section
/-! PROOFS. Support for the policing of packets: a frame that joins the trunk queue, and a packet dropped for want of tokens
(R64, R159). -/

open Sys2Proof
namespace Sys2Proof.Machine

/-! ### a frame that joins an empty trunk queue (R59, R64) -/

theorem Part.joinPackets_alone {p : Part} (b : Buf) (hline : p.trk.line = .up) (hexchange : p.fwd.exchange = [])
    (hpackets : p.fwd.packets = []) :
    (p.joinPackets b).fwd = { p.fwd with packets := [⟨b, .packet, true⟩] } := by
  simp [Part.joinPackets, Part.kickTrunk, hline, hexchange, hpackets]

/-- The buffer `b`, filled with these bytes, has joined the PACKET part of the trunk queue. -/
def Part.trunkQueued (b : Buf) (bs : Bytes) (p : Part) : Part :=
  ((p.write .rewrite (bufAddr b.num) bs).joinPackets { b with len := bs.length }).countFwd fun c =>
    { c with toTrunk := bump c.toTrunk }

@[simp] theorem Part.trunkQueued_frame (b : Buf) (bs : Bytes) (p : Part) :
    (p.trunkQueued b bs).cfg = p.cfg ∧ (p.trunkQueued b bs).branch = p.branch ∧
      (p.trunkQueued b bs).trunkFramer = p.trunkFramer ∧ (p.trunkQueued b bs).labelFramer = p.labelFramer ∧
      (p.trunkQueued b bs).guestFramer = p.guestFramer ∧ (p.trunkQueued b bs).call = p.call ∧
      (p.trunkQueued b bs).pres = p.pres ∧ (p.trunkQueued b bs).price = p.price ∧ (p.trunkQueued b bs).till = p.till ∧
      (p.trunkQueued b bs).jrn = p.jrn ∧ (p.trunkQueued b bs).lab = p.lab ∧ (p.trunkQueued b bs).gst = p.gst ∧
      (p.trunkQueued b bs).trk = p.trk ∧ (p.trunkQueued b bs).hdr = p.hdr ∧ (p.trunkQueued b bs).memCtr = p.memCtr ∧
      (p.trunkQueued b bs).dram = Mem.writeBytes p.dram (bufAddr b.num) bs ∧
      (p.trunkQueued b bs).written = p.written := by
  simp [Part.trunkQueued]

theorem Part.trunkQueued_fwd {p : Part} (b : Buf) (bs : Bytes) (hline : p.trk.line = .up) (hexchange : p.fwd.exchange = [])
    (hpackets : p.fwd.packets = []) :
    (p.trunkQueued b bs).fwd =
      { p.fwd with
        packets := [⟨{ b with len := bs.length }, .packet, true⟩]
        ctr := { p.fwd.ctr with toTrunk := bump p.fwd.ctr.toTrunk } } := by
  rw [Part.trunkQueued, Part.countFwd_fwd,
    Part.joinPackets_alone _ (by simpa using hline) (by simpa using hexchange) (by simpa using hpackets)]
  simp

/-! ### the packet with the guest's own address (R159) -/

theorem withSource_length (a : Nat) {packet : Bytes} (h : 10 ≤ packet.length) :
    (withSource a packet).length = packet.length := by
  simp only [withSource, List.length_append, List.length_take, List.length_drop, be_length]
  omega

theorem packetDest_withSource (a : Nat) {packet : Bytes} (h : 10 ≤ packet.length) :
    packetDest (withSource a packet) = packetDest packet := by
  have hfront : (packet.take 6).length = 6 := List.length_take_of_le (by omega)
  have hsub : sub (withSource a packet) 2 4 = sub packet 2 4 := by
    rw [sub, withSource, List.append_assoc, List.drop_append_of_le_length (by omega),
      List.take_append_of_le_length (by rw [List.length_drop, hfront]), List.drop_take, List.take_take, Nat.min_self, sub]
  simp only [packetDest, fieldAt, hsub]

theorem Forwarding.lookup_congr {f g : Forwarding} (h : g.routes = f.routes) (a : Nat) : g.lookup a = f.lookup a := by
  simp only [Forwarding.lookup, h]

theorem Part.inGuestBlock_congr {p q : Part} (h : q.cfg = p.cfg) (a : Nat) : q.inGuestBlock a = p.inGuestBlock a := by
  unfold Part.inGuestBlock
  rw [h]

/-- The guest has paid for `n` bytes upstream. -/
def Guest.paidUp (g : Guest) (n : Nat) : Guest := { g with tokens := g.tokens - n, up := min 4294967295 (g.up + n) }

/-- The guest has paid for `n` bytes downstream. -/
def Guest.paidDown (g : Guest) (n : Nat) : Guest := { g with tokens := g.tokens - n, down := min 4294967295 (g.down + n) }

/-- The lookup gives a packet the exit TRUNK with the line UP, from outside the guest block, and nothing stands in the trunk
queue. -/
structure Part.ToTrunk (p : Part) (packet : Bytes) (e : RouteEntry) : Prop where
  outside : p.inGuestBlock (packetDest packet) = false
  found : p.fwd.lookup (packetDest packet) = some e
  exit : e.exit = .trunk
  line : p.trk.line = .up
  exchange : p.fwd.exchange = []
  packets : p.fwd.packets = []

theorem Part.ToTrunk.of_kept {p q : Part} {packet : Bytes} {e : RouteEntry} (h : p.ToTrunk packet e) (hcfg : q.cfg = p.cfg)
    (htrk : q.trk = p.trk) (hroutes : q.fwd.routes = p.fwd.routes) (hexchange : q.fwd.exchange = p.fwd.exchange)
    (hpackets : q.fwd.packets = p.fwd.packets) : q.ToTrunk packet e :=
  ⟨(Part.inGuestBlock_congr hcfg _).trans h.outside, (Forwarding.lookup_congr hroutes _).trans h.found, h.exit,
    htrk ▸ h.line, hexchange.trans h.exchange, hpackets.trans h.packets⟩

theorem Part.policeUp_toTrunk {p : Part} {c : ConfigBlock} {e : RouteEntry} {packet : Bytes} {g : Guest} {b : Buf} (i : Nat)
    (h : p.ToTrunk packet e) (hcfg : p.cfg = some c) (hlong : 10 ≤ packet.length) (htokens : packet.length ≤ g.tokens) :
    p.policeUp i g packet b =
      (p.setGuest i (g.paidUp packet.length)).trunkQueued b (1 :: withSource (guestAddress c c.station i) packet) := by
  have hdest := packetDest_withSource (guestAddress c c.station i) hlong
  have hkept := h.of_kept (q := p.setGuest i (g.paidUp packet.length)) (by simp) (by simp) (by simp) (by simp) (by simp)
  have hroute :
      (p.setGuest i (g.paidUp packet.length)).route .guest (withSource (guestAddress c c.station i) packet) b =
        (.moved, (p.setGuest i (g.paidUp packet.length)).trunkQueued b
          (1 :: withSource (guestAddress c c.station i) packet)) := by
    simp only [Part.route, hdest, hkept.outside, hkept.found, hkept.exit, hkept.line, Bool.false_eq_true, false_and,
      if_false, if_true]
    rfl
  have hpaid : ({ g with tokens := g.tokens - packet.length, up := capAdd bytesMost g.up packet.length } : Guest) =
      g.paidUp packet.length := rfl
  rw [Part.policeUp, if_pos htokens]
  simp only [hcfg, hpaid, hroute]

/-! ### a packet above the tokens (R159, R161) -/

theorem Part.policeUp_above {p : Part} {i : Nat} {g : Guest} {packet : Bytes} {b : Buf} (h : g.tokens < packet.length) :
    p.policeUp i g packet b = p.dropBudget i g b :=
  if_neg (Nat.not_le.mpr h)

theorem Part.limitedDue_congr {p q : Part} {g h : Guest} (htime : q.gst.meterTime = p.gst.meterTime)
    (hlast : h.limited = g.limited) : q.limitedDue h = p.limitedDue g := by
  unfold Part.limitedDue
  rw [htime, hlast]

/-- The buffer of a packet dropped BUDGET has returned, and the drop is counted. -/
def Part.overBudget (b : Buf) (p : Part) : Part :=
  (p.giveBack b).countGst fun c => { c with dropsBudget := bump c.dropsBudget }

@[simp] theorem Part.overBudget_frame (b : Buf) (p : Part) :
    (p.overBudget b).cfg = p.cfg ∧ (p.overBudget b).branch = p.branch ∧ (p.overBudget b).trunkFramer = p.trunkFramer ∧
      (p.overBudget b).labelFramer = p.labelFramer ∧ (p.overBudget b).guestFramer = p.guestFramer ∧
      (p.overBudget b).links = p.links ∧ (p.overBudget b).fwd = p.fwd.giveBack b ∧ (p.overBudget b).call = p.call ∧
      (p.overBudget b).pres = p.pres ∧ (p.overBudget b).price = p.price ∧ (p.overBudget b).till = p.till ∧
      (p.overBudget b).jrn = p.jrn ∧ (p.overBudget b).lab = p.lab ∧
      (p.overBudget b).gst = { p.gst with ctr := { p.gst.ctr with dropsBudget := bump p.gst.ctr.dropsBudget } } ∧
      (p.overBudget b).trk = p.trk ∧ (p.overBudget b).hdr = p.hdr ∧ (p.overBudget b).memCtr = p.memCtr ∧
      (p.overBudget b).dram = p.dram ∧ (p.overBudget b).written = p.written := by
  simp [Part.overBudget]

section
variable {p : Part} {i : Nat} {g : Guest} {b : Buf}

theorem Part.dropBudget_quiet (h : p.limitedDue g = false) :
    p.dropBudget i g b = (p.overBudget b).setGuest i { g with drops := bump g.drops } := by
  have hquiet : p.limitedDue { g with drops := bump g.drops } = false := (Part.limitedDue_congr rfl rfl).trans h
  simp only [Part.dropBudget, hquiet, Bool.false_eq_true, if_false]
  rfl

theorem Part.dropBudget_told {m : Nat} {free : List Nat} (h : p.limitedDue g = true)
    (hgoes : (p.overBudget b).NoticeGoes m free) :
    p.dropBudget i g b =
      ((p.overBudget b).radioQueued m free (noticeBytes .limited g.device i 0 0 0 0 0)).setGuest i
        { g with drops := bump g.drops, limited := some p.gst.meterTime } := by
  have hdue : p.limitedDue { g with drops := bump g.drops } = true := (Part.limitedDue_congr rfl rfl).trans h
  simp only [Part.dropBudget, hdue, if_true]
  exact congrArg (Part.setGuest i _) (Part.notice_sent hgoes ..)
end

/-! ### an entry and a buffer beside it in memory -/

section
variable {t : Part} {m : Mem} {i n : Nat} {g : Guest} {bs : Bytes} (hi : i < 256) (hn : n < Config.poolSize)
  (hfits : bs.length ≤ 2048)
include hi hn hfits

/-- An entry written after a buffer. -/
theorem Part.entry_after_buffer
    (hmem : ∀ a, Mem.read t.dram a = Mem.read (Mem.writeBytes (Mem.writeBytes m (bufAddr n) bs) (guestAddr i) g.bytes) a) :
    t.read (guestAddr i) 32 = g.bytes ∧ t.read (bufAddr n) bs.length = bs ∧
      ∀ a, (a < guestAddr i ∨ guestAddr i + 32 ≤ a) → (a < bufAddr n ∨ bufAddr n + 2048 ≤ a) →
        Mem.read t.dram a = Mem.read m a := by
  refine ⟨(Mem.readBytes_congr _ _ _ _ fun a _ _ => hmem a).trans (Mem.entry_written g hi),
    (Mem.readBytes_congr _ _ _ _ fun a _ _ => hmem a).trans ?_, fun a hentry hbuffer => ?_⟩
  · rw [Mem.buffer_beside_entry g hn hfits, Mem.buffer_written hn hfits]
  · rw [hmem, Mem.read_entry_written hentry, Mem.read_buffer_written hfits hbuffer]

/-- A buffer filled after an entry. -/
theorem Part.buffer_after_entry
    (hmem : ∀ a, Mem.read t.dram a = Mem.read (Mem.writeBytes (Mem.writeBytes m (guestAddr i) g.bytes) (bufAddr n) bs) a) :
    t.read (guestAddr i) 32 = g.bytes ∧ t.read (bufAddr n) bs.length = bs ∧
      ∀ a, (a < guestAddr i ∨ guestAddr i + 32 ≤ a) → (a < bufAddr n ∨ bufAddr n + 2048 ≤ a) →
        Mem.read t.dram a = Mem.read m a := by
  refine ⟨(Mem.readBytes_congr _ _ _ _ fun a _ _ => hmem a).trans ?_,
    (Mem.readBytes_congr _ _ _ _ fun a _ _ => hmem a).trans (Mem.buffer_written hn hfits), fun a hentry hbuffer => ?_⟩
  · rw [Mem.entry_beside_buffer hn hfits, Mem.entry_written g hi]
  · rw [hmem, Mem.read_buffer_written hfits hbuffer, Mem.read_entry_written hentry]
end

/-! ### commands that end in a packet policed (R159, R160) -/

section
variable {s : State} {c : Instr} {p : Part} {packet : Bytes} {i : Nat} {g : Guest} {b : Buf} (hi : i < 256)
include hi

theorem State.lands_passed {k : ConfigBlock} {e : RouteEntry} (h : s.lands c (p.policeUp i g packet b))
    (htrunk : p.ToTrunk packet e) (hcfg : p.cfg = some k) (hlong : 10 ≤ packet.length) (hshort : packet.length ≤ 1536)
    (htokens : packet.length ≤ g.tokens) (hb : b.num < Config.poolSize) :
    ∃ t, exec c s = .next t ∧ t.part.gst = p.gst ∧ t.part.read (guestAddr i) 32 = (g.paidUp packet.length).bytes ∧
      (∃ buf : Buf,
        t.part.fwd =
          { p.fwd with
            packets := [⟨buf, .packet, true⟩], ctr := { p.fwd.ctr with toTrunk := bump p.fwd.ctr.toTrunk } } ∧
        buf.num = b.num ∧ buf.mark = b.mark ∧ t.part.bufBytes buf = 1 :: withSource (guestAddress k k.station i) packet) ∧
      (∀ a, (a < guestAddr i ∨ guestAddr i + 32 ≤ a) → (a < bufAddr b.num ∨ bufAddr b.num + 2048 ≤ a) →
        Mem.read t.part.dram a = Mem.read p.dram a) ∧
      Unchanged [.links, .fwd, .memory] { s with part := p } t := by
  have hfits : (1 :: withSource (guestAddress k k.station i) packet).length ≤ 2048 := by
    rw [List.length_cons, withSource_length _ hlong]
    omega
  rw [Part.policeUp_toTrunk i htrunk hcfg hlong htokens] at h
  obtain ⟨t, hexec, hgst, hfwd, -, hmem, hsame⟩ := State.lands_guests_from p (but := [.links, .fwd, .memory]) h
    fun b hb => by cases b <;> simp [Piece.same] at hb ⊢
  obtain ⟨hentry, hbytes, hrest⟩ := Part.buffer_after_entry (m := p.dram) (g := g.paidUp packet.length) hi hb hfits
    fun a => (hmem a).trans (by simp)
  rw [Part.trunkQueued_fwd _ _ (by simpa using htrunk.line) (by simpa using htrunk.exchange)
    (by simpa using htrunk.packets)] at hfwd
  exact ⟨t, hexec, hgst.trans (by simp), hentry,
    ⟨{ b with len := (1 :: withSource (guestAddress k k.station i) packet).length }, hfwd.trans (by simp), rfl, rfl, hbytes⟩,
    hrest, hsame⟩

theorem State.lands_dropped (h : s.lands c (p.dropBudget i g b)) (hquiet : p.limitedDue g = false) :
    ∃ t, exec c s = .next t ∧
      t.part.gst = { p.gst with ctr := { p.gst.ctr with dropsBudget := bump p.gst.ctr.dropsBudget } } ∧
      t.part.read (guestAddr i) 32 = ({ g with drops := bump g.drops } : Guest).bytes ∧ t.part.fwd = p.fwd.giveBack b ∧
      (∀ a, a < guestAddr i ∨ guestAddr i + 32 ≤ a → Mem.read t.part.dram a = Mem.read p.dram a) ∧
      Unchanged [.gst, .fwd, .memory] { s with part := p } t := by
  rw [Part.dropBudget_quiet hquiet] at h
  obtain ⟨t, hexec, hgst, hfwd, -, hmem, hsame⟩ := State.lands_guests_from p (but := [.gst, .fwd, .memory]) h
    fun b hb => by cases b <;> simp [Piece.same] at hb ⊢
  have hdram : ∀ a, Mem.read t.part.dram a =
      Mem.read (Mem.writeBytes p.dram (guestAddr i) ({ g with drops := bump g.drops } : Guest).bytes) a :=
    fun a => (hmem a).trans (by simp)
  exact ⟨t, hexec, hgst.trans (by simp), (Mem.readBytes_congr _ _ _ _ fun a _ _ => hdram a).trans (Mem.entry_written _ hi),
    hfwd.trans (by simp), fun a ha => (hdram a).trans (Mem.read_entry_written ha), hsame⟩

theorem State.lands_told {m : Nat} {free : List Nat} (h : s.lands c (p.dropBudget i g b)) (hdue : p.limitedDue g = true)
    (hgoes : (p.overBudget b).NoticeGoes m free) :
    ∃ t, exec c s = .next t ∧
      t.part.gst = { p.gst with ctr := { p.gst.ctr with dropsBudget := bump p.gst.ctr.dropsBudget } } ∧
      t.part.read (guestAddr i) 32 =
        ({ g with drops := bump g.drops, limited := some p.gst.meterTime } : Guest).bytes ∧
      (∃ x, t.part.fwd.radio = beginHead (p.fwd.radio ++ [x]) ∧
        t.part.bufBytes x.buf = noticeBytes .limited g.device i 0 0 0 0 0) ∧
      t.part.fwd.free = free ∧
      (∀ a, (a < guestAddr i ∨ guestAddr i + 32 ≤ a) → (a < bufAddr m ∨ bufAddr m + 2048 ≤ a) →
        Mem.read t.part.dram a = Mem.read p.dram a) ∧
      Unchanged [.links, .gst, .fwd, .memory] { s with part := p } t := by
  rw [Part.dropBudget_told hdue hgoes] at h
  obtain ⟨t, hexec, hgst, hfwd, -, hmem, hsame⟩ := State.lands_guests_from p (but := [.links, .gst, .fwd, .memory]) h
    fun b hb => by cases b <;> simp [Piece.same] at hb ⊢
  obtain ⟨hentry, hbytes, hrest⟩ := Part.entry_after_buffer (m := p.dram)
    (g := { g with drops := bump g.drops, limited := some p.gst.meterTime }) hi hgoes.place
    (noticeBytes_fits .limited g.device i 0 0 0 0 0) fun a => (hmem a).trans (by simp)
  exact ⟨t, hexec, hgst.trans (by simp), hentry, Part.radio_shows (m := m) (by simp [hfwd]) hbytes,
    by simp [hfwd], hrest, hsame⟩
end

end Sys2Proof.Machine
end

section
/-! PROOFS. GUEST_UP_RECEIVED of an admitted guest (R156, R159). -/

open Sys2Proof
namespace Sys2Proof.Machine

/-- A GUEST UP frame whose packet is one whole packet of a device (R156). -/
structure GuestUpGood (frame : Bytes) : Prop where
  someone : fieldAt frame 1 6 ≠ 0
  notAll : fieldAt frame 1 6 ≠ 281474976710655
  long : 10 ≤ (frame.drop 7).length
  short : (frame.drop 7).length ≤ 1536
  whole : packetLength (frame.drop 7) = (frame.drop 7).length

/-- The conditions of a malformed frame exclude those of a good one. -/
theorem GuestUpGood.not_malformed {frame : Bytes} (h : GuestUpGood frame) :
    ¬ (fieldAt frame 1 6 = 0 ∨ fieldAt frame 1 6 = 2 ^ 48 - 1 ∨ (frame.drop 7).length < Config.packetHeader ∨
      Config.guestPacketMax < (frame.drop 7).length ∨ packetLength (frame.drop 7) ≠ (frame.drop 7).length) := by
  obtain ⟨hsome, hall, hlong, hshort, hwhole⟩ := h
  simp only [Config.packetHeader, Config.guestPacketMax]
  rintro (h | h | h | h | h)
  · exact hsome h
  · exact hall h
  · omega
  · omega
  · exact h hwhole

/-- The guest has just been active. -/
def Guest.seen (g : Guest) (time : Nat) : Guest := { g with lastActive := time }

section
variable {p : Part} {frame : Bytes} {b : Buf}

theorem Part.guestPacket_malformed
    (hbad : fieldAt frame 1 6 = 0 ∨ fieldAt frame 1 6 = 281474976710655 ∨ (frame.drop 7).length < 10 ∨
      1536 < (frame.drop 7).length ∨ packetLength (frame.drop 7) ≠ (frame.drop 7).length) :
    p.guestPacket frame b = (p.giveBack b).countGst fun c => { c with malformed := bump c.malformed } :=
  if_pos hbad

variable (hgood : GuestUpGood frame)
include hgood

theorem Part.guestPacket_known {i : Nat} {g : Guest} (hfound : p.findGuest (fieldAt frame 1 6) = some (i, g)) :
    p.guestPacket frame b =
      p.loadGuests.policeUp i (g.seen p.gst.meterTime) (frame.drop 7) b := by
  have hread : p.loadGuests.findGuest (fieldAt frame 1 6) = some (i, g) :=
    (Part.findGuest_of_dram (by simp) (by simp) _).trans hfound
  simp only [Part.guestPacket, if_neg hgood.not_malformed, hread, Part.loadGuests_frame]
  rfl

theorem Part.guestPacket_barred (hnone : p.findGuest (fieldAt frame 1 6) = none)
    (hbarred : p.pres.joining.guestAdmission = false) : p.guestPacket frame b = p.loadGuests.dropNoExit b := by
  have hread : p.loadGuests.findGuest (fieldAt frame 1 6) = none :=
    (Part.findGuest_of_dram (by simp) (by simp) _).trans hnone
  simp only [Part.guestPacket, if_neg hgood.not_malformed, hread]
  exact if_neg (by simp [hbarred])

theorem Part.guestPacket_unknown (hnone : p.findGuest (fieldAt frame 1 6) = none)
    (hopen : p.pres.joining.guestAdmission = true) (hcleared : p.gst.cleared = 256) :
    p.guestPacket frame b = p.loadGuests.admitGuest (fieldAt frame 1 6) (frame.drop 7) b := by
  have hread : p.loadGuests.findGuest (fieldAt frame 1 6) = none :=
    (Part.findGuest_of_dram (by simp) (by simp) _).trans hnone
  simp only [Part.guestPacket, if_neg hgood.not_malformed, hread]
  exact if_pos (by simp [hopen, hcleared, Config.guestSlots])
end

section
variable {s : State} {it : RxItem} {b : Bytes} (hev : s.supply.takesEvents = true)
  (hframe : s.part.linkFrame .guest .guest = some (it, b)) (hfresh : it.stale = false) (hkind : fieldAt b 0 1 = 1)
  (hup : s.part.gst.radioUp = true)
include hev hframe hfresh hkind hup

theorem State.lands_guestUp : s.lands .guestUpReceived ((s.part.radioOn it).guestPacket b it.buf) := by
  have hlands := State.lands_of_run exec_guestUpReceived hev
  rwa [Part.guestUp, Part.takeGuestFrame_up _ hframe (by simp [hkind, guestUpKind]) hfresh hup] at hlands

theorem State.guestUp_malformed
    (hbad : fieldAt b 1 6 = 0 ∨ fieldAt b 1 6 = 281474976710655 ∨ (b.drop 7).length < 10 ∨ 1536 < (b.drop 7).length ∨
      packetLength (b.drop 7) ≠ (b.drop 7).length) :
    ∃ t, exec .guestUpReceived s = .next t ∧
      t.part.gst =
        { s.part.gst with
          radioTimer := true, ctr := { s.part.gst.ctr with malformed := bump s.part.gst.ctr.malformed } } ∧
      t.part.fwd = (s.part.fwd.without it).giveBack it.buf ∧ Unchanged [.gst, .fwd] s t := by
  have hlands := State.lands_guestUp hev hframe hfresh hkind hup
  rw [Part.guestPacket_malformed hbad] at hlands
  obtain ⟨t, hexec, hgst, hfwd, -, -, hsame⟩ := State.lands_guests (but := [.gst, .fwd]) hlands fun b hb => by
    cases b <;> simp [Piece.same] at hb ⊢
  exact ⟨t, hexec, hgst.trans (by simp [hup]), hfwd.trans (by simp), hsame⟩

variable (hgood : GuestUpGood b)
include hgood

theorem State.guestUp_barred (hnone : s.part.findGuest (fieldAt b 1 6) = none)
    (hbarred : s.part.pres.joining.guestAdmission = false) :
    ∃ t, exec .guestUpReceived s = .next t ∧
      t.part.gst =
        { s.part.gst with
          radioTimer := true, ctr := { s.part.gst.ctr with dropsNoExit := bump s.part.gst.ctr.dropsNoExit } } ∧
      t.part.fwd = (s.part.fwd.without it).giveBack it.buf ∧ Unchanged [.gst, .fwd] s t := by
  have hlands := State.lands_guestUp hev hframe hfresh hkind hup
  rw [Part.guestPacket_barred (p := s.part.radioOn it) hgood hnone hbarred] at hlands
  obtain ⟨t, hexec, hgst, hfwd, -, -, hsame⟩ := State.lands_guests (but := [.gst, .fwd]) hlands fun b hb => by
    cases b <;> simp [Piece.same] at hb ⊢
  exact ⟨t, hexec, hgst.trans (by simp [Part.dropNoExit, hup]), hfwd.trans (by simp [Part.dropNoExit]), hsame⟩

/-! ### the packet of an admitted guest (R159) -/

section
variable {i : Nat} {g : Guest} (hfound : s.part.findGuest (fieldAt b 1 6) = some (i, g))
include hfound

theorem State.lands_policeUp :
    s.lands .guestUpReceived
      ((s.part.radioOn it).loadGuests.policeUp i (g.seen s.part.gst.meterTime) (b.drop 7) it.buf) := by
  have hlands := State.lands_guestUp hev hframe hfresh hkind hup
  rwa [Part.guestPacket_known (p := s.part.radioOn it) hgood hfound] at hlands

theorem State.guestUp_passes {c : ConfigBlock} {e : RouteEntry} (hcfg : s.part.cfg = some c)
    (htokens : (b.drop 7).length ≤ g.tokens) (htrunk : s.part.ToTrunk (b.drop 7) e) (hbuf : it.buf.num < Config.poolSize) :
    ∃ t, exec .guestUpReceived s = .next t ∧ t.part.gst = { s.part.gst with radioTimer := true } ∧
      t.part.read (guestAddr i) 32 =
        ((g.seen s.part.gst.meterTime).paidUp (b.drop 7).length).bytes ∧
      (∃ buf, t.part.fwd.packets = [⟨buf, .packet, true⟩] ∧ buf.num = it.buf.num ∧ buf.mark = it.buf.mark ∧
        t.part.bufBytes buf = 1 :: withSource (guestAddress c c.station i) (b.drop 7)) ∧
      t.part.fwd.ctr = { s.part.fwd.ctr with toTrunk := bump s.part.fwd.ctr.toTrunk } ∧
      (∀ a, (a < guestAddr i ∨ guestAddr i + 32 ≤ a) → (a < bufAddr it.buf.num ∨ bufAddr it.buf.num + 2048 ≤ a) →
        Mem.read t.part.dram a = Mem.read s.part.dram a) ∧
      Unchanged [.links, .gst, .fwd, .memory] s t := by
  obtain ⟨t, hexec, hgst, hentry, ⟨buf, hfwd, hnum, hmark, hbytes⟩, hrest, hsame⟩ :=
    State.lands_passed (Part.findGuest_some hfound).1 (State.lands_policeUp hev hframe hfresh hkind hup hgood hfound)
      (htrunk.of_kept (by simp) (by simp) (by simp) (by simp) (by simp)) (by simpa using hcfg) hgood.long hgood.short
      htokens hbuf
  exact ⟨t, hexec, hgst.trans (by simp [hup]), hentry, ⟨buf, by rw [hfwd], hnum, hmark, hbytes⟩, by simp [hfwd],
    fun a hentry hbuf => (hrest a hentry hbuf).trans (by simp), 
    hsame.from_part (by simp) (State.radioOn_kept it (by simp) (by simp))⟩

theorem State.guestUp_drops (htokens : g.tokens < (b.drop 7).length) (hquiet : s.part.limitedDue g = false) :
    ∃ t, exec .guestUpReceived s = .next t ∧
      t.part.gst =
        { s.part.gst with
          radioTimer := true, ctr := { s.part.gst.ctr with dropsBudget := bump s.part.gst.ctr.dropsBudget } } ∧
      t.part.read (guestAddr i) 32 =
        ({ g with lastActive := s.part.gst.meterTime, drops := bump g.drops } : Guest).bytes ∧
      (∀ a, a < guestAddr i ∨ guestAddr i + 32 ≤ a → Mem.read t.part.dram a = Mem.read s.part.dram a) ∧
      t.part.fwd = (s.part.fwd.without it).giveBack it.buf ∧
      Unchanged [.gst, .fwd, .memory] s t := by
  have hlands := State.lands_policeUp hev hframe hfresh hkind hup hgood hfound
  rw [Part.policeUp_above (g := g.seen s.part.gst.meterTime) htokens] at hlands
  obtain ⟨t, hexec, hgst, hentry, hfwd, hrest, hsame⟩ := State.lands_dropped (Part.findGuest_some hfound).1 hlands
    ((Part.limitedDue_congr (by simp) rfl).trans hquiet)
  exact ⟨t, hexec, hgst.trans (by simp [hup]), hentry.trans (by simp [Guest.seen]),
    fun a ha => (hrest a ha).trans (by simp), hfwd.trans (by simp),
    hsame.from_part (by simp) (State.radioOn_kept it (by simp) (by simp))⟩

theorem State.guestUp_tells {m : Nat} {rest : List Nat} (htokens : g.tokens < (b.drop 7).length)
    (hdue : s.part.limitedDue g = true) (hbuffer : s.bufferFree) (hlimit : s.part.fwd.guestCount < 192)
    (hfree : s.part.fwd.free = m :: rest) :
    ∃ t, exec .guestUpReceived s = .next t ∧
      t.part.gst =
        { s.part.gst with
          radioTimer := true, ctr := { s.part.gst.ctr with dropsBudget := bump s.part.gst.ctr.dropsBudget } } ∧
      t.part.read (guestAddr i) 32 =
        ({ g with
            lastActive := s.part.gst.meterTime, drops := bump g.drops, limited := some s.part.gst.meterTime } :
          Guest).bytes ∧
      (∃ x, t.part.fwd.radio = beginHead (s.part.fwd.radio ++ [x]) ∧
        t.part.bufBytes x.buf = noticeBytes .limited g.device i 0 0 0 0 0) ∧
      t.part.fwd.free = rest ++ [it.buf.num] ∧
      (∀ a, (a < guestAddr i ∨ guestAddr i + 32 ≤ a) → (a < bufAddr m ∨ bufAddr m + 2048 ≤ a) →
        Mem.read t.part.dram a = Mem.read s.part.dram a) ∧
      Unchanged [.links, .gst, .fwd, .memory] s t := by
  have hgoes : ((s.part.radioOn it).loadGuests.overBudget it.buf).NoticeGoes m (rest ++ [it.buf.num]) :=
    hbuffer.noticeGoes hfree hlimit (by simp) (by simp [hfree]) (by simp)
      (by simpa using Forwarding.giveBack_guestCount_le (s.part.fwd.without it) it.buf)
  have hlands := State.lands_policeUp hev hframe hfresh hkind hup hgood hfound
  rw [Part.policeUp_above (g := g.seen s.part.gst.meterTime) htokens] at hlands
  obtain ⟨t, hexec, hgst, hentry, hradio, hfreed, hrest, hsame⟩ := State.lands_told (Part.findGuest_some hfound).1 hlands
    ((Part.limitedDue_congr (by simp) rfl).trans hdue) hgoes
  exact ⟨t, hexec, hgst.trans (by simp [hup]), hentry.trans (by simp [Guest.seen]), by simpa [Guest.seen] using hradio,
    hfreed, fun a hentry hbuf => (hrest a hentry hbuf).trans (by simp),
    hsame.from_part (by simp) (State.radioOn_kept it (by simp) (by simp))⟩
end
end

end Sys2Proof.Machine
end

section
/-! PROOFS. The admission of a guest (R157). -/

open Sys2Proof
namespace Sys2Proof.Machine

/-! ### the entry an admission takes (R157) -/

theorem Part.idle_congr {p q : Part} (h : q.gst.meterTime = p.gst.meterTime) (g : Guest) : q.idle g = p.idle g := by
  simp only [Part.idle, h]

theorem Part.admissionEntry_congr {p q : Part} (hat : ∀ i, q.guestAt i = p.guestAt i)
    (htime : q.gst.meterTime = p.gst.meterTime) : q.admissionEntry = p.admissionEntry := by
  have hadmitted : q.admitted = p.admitted := by simp only [Part.admitted, hat]
  have hidler : ∀ x y, q.idler x y = p.idler x y := fun x y => by
    unfold Part.idler Part.idle
    rw [htime]
  simp only [Part.admissionEntry, hat, hadmitted, hidler, Part.idle_congr htime]

theorem Part.admissionEntry_free {p : Part} {i : Nat}
    (h : ((List.range 256).find? fun j => (p.guestAt j).isNone) = some i) : p.admissionEntry = some (i, none) := by
  simp only [Part.admissionEntry, Config.guestSlots, h]

theorem Part.idler_choice (p : Part) (x y : Nat × Guest) : p.idler x y = x ∨ p.idler x y = y := by
  unfold Part.idler
  split_ifs <;> simp

theorem Part.idle_le_idler (p : Part) (x y : Nat × Guest) :
    p.idle x.2 ≤ p.idle (p.idler x y).2 ∧ p.idle y.2 ≤ p.idle (p.idler x y).2 := by
  unfold Part.idler
  split_ifs <;> omega

/-- The candidate the comparison leaves is one of them, and none is idle for longer. -/
theorem Part.foldl_idler (p : Part) (x : Nat × Guest) (l : List (Nat × Guest)) :
    l.foldl p.idler x ∈ x :: l ∧ ∀ y ∈ x :: l, p.idle y.2 ≤ p.idle (l.foldl p.idler x).2 := by
  induction l generalizing x with
  | nil => simp
  | cons z l ih =>
    obtain ⟨hmem, hmost⟩ := ih (p.idler x z)
    obtain ⟨hx, hz⟩ := p.idle_le_idler x z
    have hbest := hmost _ List.mem_cons_self
    refine ⟨?_, fun y hy => ?_⟩
    · rw [List.foldl_cons]
      rcases List.mem_cons.mp hmem with heq | hin
      · rw [heq]
        rcases p.idler_choice x z with hc | hc <;> simp [hc]
      · simp [hin]
    · rcases List.mem_cons.mp hy with rfl | hy
      · exact hx.trans hbest
      · rcases List.mem_cons.mp hy with rfl | hy
        · exact hz.trans hbest
        · exact hmost y (List.mem_cons_of_mem _ hy)

/-- The admitted guests with their entries, in index order. -/
def Part.candidates (p : Part) : List (Nat × Guest) :=
  p.admitted.filterMap fun i => (p.guestAt i).map fun g => (i, g)

theorem Part.mem_candidates {p : Part} {x : Nat × Guest} : x ∈ p.candidates ↔ x.1 < 256 ∧ p.guestAt x.1 = some x.2 := by
  simp only [Part.candidates, List.mem_filterMap, Option.map_eq_some_iff, Part.mem_admitted]
  constructor
  · rintro ⟨j, ⟨hj, -⟩, h, hat, rfl⟩
    exact ⟨hj, hat⟩
  · rintro ⟨hi, hat⟩
    exact ⟨x.1, ⟨hi, by simp [hat]⟩, x.2, hat, rfl⟩

/-- A fold that keeps the better of two, from the first on. -/
theorem foldl_pick {α : Type} {f : Option α → α → Option α} {better : α → α → α} (hfirst : ∀ x, f none x = some x)
    (hnext : ∀ x y, f (some x) y = some (better x y)) (x : α) (l : List α) :
    (x :: l).foldl f none = some (l.foldl better x) := by
  rw [List.foldl_cons, hfirst]
  exact List.foldl_hom some hnext

theorem Part.admissionEntry_of_candidates {p : Part} {x : Nat × Guest} {l : List (Nat × Guest)}
    (hnone : ((List.range 256).find? fun j => (p.guestAt j).isNone) = none) (hlist : p.candidates = x :: l) :
    p.admissionEntry =
      if 60000 < p.idle (l.foldl p.idler x).2 then some ((l.foldl p.idler x).1, some (l.foldl p.idler x).2) else none := by
  have hguests : (p.admitted.filterMap fun i => (p.guestAt i).map fun g => (i, g)) = x :: l := hlist
  simp only [Part.admissionEntry, Config.guestSlots, hnone, hguests]
  rw [foldl_pick (better := p.idler) (fun _ => rfl) fun _ _ => rfl]

/-- With every entry taken, the guest that no other is idle for longer than is replaced, where it is idle for more than
60 s. -/
theorem Part.admissionEntry_taken {p : Part} (htaken : ∀ j, j < 256 → p.guestAt j ≠ none) :
    ∃ x : Nat × Guest, x.1 < 256 ∧ p.guestAt x.1 = some x.2 ∧
      (∀ j h, j < 256 → p.guestAt j = some h → p.idle h ≤ p.idle x.2) ∧
      p.admissionEntry = if 60000 < p.idle x.2 then some (x.1, some x.2) else none := by
  have hnone : ((List.range 256).find? fun j => (p.guestAt j).isNone) = none :=
    List.find?_eq_none.mpr fun j hj => by simpa using htaken j (List.mem_range.mp hj)
  obtain ⟨first, hfirst⟩ := Option.ne_none_iff_exists'.mp (htaken 0 (by decide))
  have hin : (0, first) ∈ p.candidates := Part.mem_candidates.mpr ⟨Nat.zero_lt_succ 255, hfirst⟩
  obtain ⟨x, l, hlist⟩ := List.exists_cons_of_ne_nil (List.ne_nil_of_mem hin)
  obtain ⟨hmem, hmost⟩ := p.foldl_idler x l
  rw [← hlist] at hmem hmost
  obtain ⟨hi, hat⟩ := Part.mem_candidates.mp hmem
  exact ⟨_, hi, hat, fun j h hj hat => hmost (j, h) (Part.mem_candidates.mpr ⟨hj, hat⟩),
    Part.admissionEntry_of_candidates hnone hlist⟩

theorem Part.admissionEntry_none {p : Part} (hbusy : ∀ j, j < 256 → ∃ g, p.guestAt j = some g ∧ p.idle g ≤ 60000) :
    p.admissionEntry = none := by
  obtain ⟨x, hi, hat, -, hentry⟩ := Part.admissionEntry_taken (p := p) fun j hj hfree => by
    obtain ⟨g, hg, -⟩ := hbusy j hj
    simp [hg] at hfree
  obtain ⟨g, hg, hidle⟩ := hbusy x.1 hi
  obtain rfl := Option.some.inj (hat.symm.trans hg)
  rw [hentry, if_neg (by omega)]

theorem Part.admissionEntry_idlest {p : Part} {i : Nat} {g : Guest} (htaken : ∀ j, j < 256 → p.guestAt j ≠ none)
    (hi : i < 256) (hat : p.guestAt i = some g) (hlong : 60000 < p.idle g)
    (hmost : ∀ j h, j < 256 → j ≠ i → p.guestAt j = some h → p.idle h < p.idle g) :
    p.admissionEntry = some (i, some g) := by
  obtain ⟨⟨j, h⟩, hj, hath, hbest, hentry⟩ := Part.admissionEntry_taken htaken
  have hge := hbest i g hi hat
  have hji : j = i := by_contra fun hne => (hmost j h hj hne hath).not_ge hge
  subst hji
  obtain rfl := Option.some.inj (hat.symm.trans hath)
  rw [hentry, if_pos hlong]

/-! ### a buffer and the entries apart (R66, R155) -/

theorem bufAddr_outside {m n a : Nat} (hne : m ≠ n) (hlo : bufAddr m ≤ a) (hhi : a < bufAddr m + 2048) :
    a < bufAddr n ∨ bufAddr n + 2048 ≤ a := by
  have := bufAddr_apart hne
  omega

theorem bufAddr_outside_guests {m a : Nat} (hm : m < Config.poolSize) (hhi : a < bufAddr m + 2048) (i : Nat) :
    a < guestAddr i ∨ guestAddr i + 32 ≤ a :=
  Or.inl (by have := bufAddr_below_guests hm i; omega)

/-- Memory that is as it was throughout a buffer gives what the buffer held. -/
theorem Part.buffer_kept {t p : Part} {m k : Nat} (hk : k ≤ 2048)
    (h : ∀ a, bufAddr m ≤ a → a < bufAddr m + 2048 → Mem.read t.dram a = Mem.read p.dram a) :
    t.read (bufAddr m) k = p.read (bufAddr m) k :=
  Mem.readBytes_congr _ _ _ _ fun a hlo hhi => h a hlo (by omega)

/-! ### a guest that joins (R157) -/

/-- The entry of a device admitted at this meter time, with the tokens of a newcomer. -/
def Guest.newcomer (device time : Nat) : Guest :=
  { device := device, admitted := time, lastActive := time, tokens := 1536, up := 0, down := 0, drops := 0, limited := none }

theorem Guest.newcomer_paidUp {device time n : Nat} (h : n ≤ 1536) :
    (Guest.newcomer device time).paidUp n =
      { device := device, admitted := time, lastActive := time, tokens := 1536 - n, up := n, down := 0, drops := 0,
        limited := none } := by
  simp only [Guest.paidUp, Guest.newcomer, Guest.mk.injEq, true_and, and_true]
  omega

/-- The guest has taken entry `i` and is sent ADMITTED in buffer `m`. -/
def Part.guestJoins (m : Nat) (free : List Nat) (i : Nat) (g : Guest) (address : Nat) (p : Part) : Part :=
  ((p.setGuest i g).radioQueued m free (noticeBytes .admitted g.device i address 0 0 0 0)).countGst fun c =>
    { c with admissions := bump c.admissions }

section
variable (m i address : Nat) (free : List Nat) (g : Guest) (p : Part)

@[simp] theorem Part.guestJoins_frame :
    (p.guestJoins m free i g address).cfg = p.cfg ∧ (p.guestJoins m free i g address).branch = p.branch ∧
      (p.guestJoins m free i g address).trunkFramer = p.trunkFramer ∧
      (p.guestJoins m free i g address).labelFramer = p.labelFramer ∧
      (p.guestJoins m free i g address).guestFramer = p.guestFramer ∧ (p.guestJoins m free i g address).call = p.call ∧
      (p.guestJoins m free i g address).pres = p.pres ∧ (p.guestJoins m free i g address).price = p.price ∧
      (p.guestJoins m free i g address).till = p.till ∧ (p.guestJoins m free i g address).jrn = p.jrn ∧
      (p.guestJoins m free i g address).lab = p.lab ∧
      (p.guestJoins m free i g address).gst =
        { p.gst with ctr := { p.gst.ctr with admissions := bump p.gst.ctr.admissions } } ∧
      (p.guestJoins m free i g address).trk = p.trk ∧ (p.guestJoins m free i g address).hdr = p.hdr ∧
      (p.guestJoins m free i g address).memCtr = p.memCtr ∧ (p.guestJoins m free i g address).written = p.written := by
  simp [Part.guestJoins]

@[simp] theorem Part.guestJoins_fwd :
    (p.guestJoins m free i g address).fwd =
      { p.fwd.guestGranted free with
        radio := beginHead (p.fwd.radio ++ [radioFrame m (noticeBytes .admitted g.device i address 0 0 0 0)]) } := by
  simp [Part.guestJoins]

variable {m i}

theorem Part.guestJoins_memory (hi : i < 256) (hm : m < Config.poolSize) :
    (p.guestJoins m free i g address).read (bufAddr m) (noticeBytes .admitted g.device i address 0 0 0 0).length =
        noticeBytes .admitted g.device i address 0 0 0 0 ∧
      ∀ a, (a < guestAddr i ∨ guestAddr i + 32 ≤ a) → (a < bufAddr m ∨ bufAddr m + 2048 ≤ a) →
        Mem.read (p.guestJoins m free i g address).dram a = Mem.read p.dram a := by
  obtain ⟨-, hbytes, hrest⟩ := Part.buffer_after_entry (t := p.guestJoins m free i g address) (m := p.dram) (g := g) hi hm
    (noticeBytes_fits .admitted g.device i address 0 0 0 0) fun a => by simp [Part.guestJoins]
  exact ⟨hbytes, hrest⟩
end

/-- A notice goes from any part with the same radio and the same pool. -/
theorem Part.NoticeGoes.of_kept {p q : Part} {m : Nat} {free : List Nat} (h : p.NoticeGoes m free)
    (hgst : q.gst.radioUp = p.gst.radioUp) (hfwd : q.fwd = p.fwd) : q.NoticeGoes m free :=
  ⟨hgst.trans h.up, hfwd ▸ h.head, h.place, hfwd ▸ h.room, hfwd ▸ h.limit⟩

/-! ### a guest replaced (R157, R162) -/

/-- The guest at index `i` is ended, replaced, with its notice in buffer `m`. -/
def Part.guestReplaced (m : Nat) (free : List Nat) (i : Nat) (g : Guest) (p : Part) : Part :=
  (p.guestEnded m free .replaced i g).countGst fun c => { c with replacements := bump c.replacements }

section
variable (m i : Nat) (free : List Nat) (g : Guest) (p : Part)

@[simp] theorem Part.guestReplaced_frame :
    (p.guestReplaced m free i g).cfg = p.cfg ∧ (p.guestReplaced m free i g).branch = p.branch ∧
      (p.guestReplaced m free i g).trunkFramer = p.trunkFramer ∧
      (p.guestReplaced m free i g).labelFramer = p.labelFramer ∧
      (p.guestReplaced m free i g).guestFramer = p.guestFramer ∧ (p.guestReplaced m free i g).call = p.call ∧
      (p.guestReplaced m free i g).pres = p.pres ∧ (p.guestReplaced m free i g).price = p.price ∧
      (p.guestReplaced m free i g).till = p.till ∧ (p.guestReplaced m free i g).jrn = p.jrn ∧
      (p.guestReplaced m free i g).lab = p.lab ∧
      (p.guestReplaced m free i g).gst =
        { p.gst with
          ctr :=
            { p.gst.ctr with
              replacements := bump p.gst.ctr.replacements, endedReplaced := bump p.gst.ctr.endedReplaced } } ∧
      (p.guestReplaced m free i g).trk = p.trk ∧ (p.guestReplaced m free i g).hdr = p.hdr ∧
      (p.guestReplaced m free i g).memCtr = p.memCtr ∧ (p.guestReplaced m free i g).written = p.written := by
  simp [Part.guestReplaced, EndReason.count]

@[simp] theorem Part.guestReplaced_fwd :
    (p.guestReplaced m free i g).fwd =
      { p.fwd.guestGranted free with
        radio := beginHead (p.fwd.radio ++ [radioFrame m (noticeBytes .ended g.device i 0 2 g.up g.down g.drops)]) } := by
  simp [Part.guestReplaced, EndReason.code]

variable {m}

theorem Part.guestReplaced_memory (hm : m < Config.poolSize) :
    (p.guestReplaced m free i g).read (bufAddr m) (noticeBytes .ended g.device i 0 2 g.up g.down g.drops).length =
        noticeBytes .ended g.device i 0 2 g.up g.down g.drops ∧
      ∀ a, (a < guestAddr i ∨ guestAddr i + 32 ≤ a) → (a < bufAddr m ∨ bufAddr m + 2048 ≤ a) →
        Mem.read (p.guestReplaced m free i g).dram a = Mem.read p.dram a :=
  Part.guestEnded_memory (free := free) (r := .replaced) hm fun _ => by simp [Part.guestReplaced]
end

/-! ### the admission (R157) -/

section
variable {p : Part} {m i device : Nat} {free : List Nat} {packet : Bytes} {b : Buf}

theorem Part.admitGuest_refused (hentry : p.admissionEntry = none) (hgoes : p.NoticeGoes m free) :
    p.admitGuest device packet b =
      ((p.radioQueued m free (noticeBytes .refusedFull device 0 0 0 0 0 0)).giveBack b).countGst fun c =>
        { c with refusals := bump c.refusals, dropsFull := bump c.dropsFull } := by
  simp only [Part.admitGuest, hentry, Part.notice_sent hgoes]

variable {c : ConfigBlock} (hcfg : p.cfg = some c) (hbudget : p.gst.budget ≠ 0)
include hcfg hbudget

theorem Part.admitGuest_entered (hentry : p.admissionEntry = some (i, none)) (hgoes : p.NoticeGoes m free) :
    p.admitGuest device packet b =
      (p.guestJoins m free i (Guest.newcomer device p.gst.meterTime) (guestAddress c c.station i)).policeUp i
        (Guest.newcomer device p.gst.meterTime) packet b := by
  have hsent := hgoes.of_kept (q := p.setGuest i (Guest.newcomer device p.gst.meterTime)) (by simp) (by simp)
  simp only [Part.admitGuest, hentry, hcfg, if_neg hbudget, Config.guestTokens]
  exact congrArg (fun q : Part => (q.countGst _).policeUp i (Guest.newcomer device p.gst.meterTime) packet b)
    (Part.notice_sent hsent ..)

theorem Part.admitGuest_replaces {g : Guest} {n : Nat} (hentry : p.admissionEntry = some (i, some g))
    (hgoes : p.NoticeGoes m (n :: free)) (hnext : (p.guestReplaced m (n :: free) i g).NoticeGoes n free) :
    p.admitGuest device packet b =
      ((p.guestReplaced m (n :: free) i g).guestJoins n free i (Guest.newcomer device p.gst.meterTime)
        (guestAddress c c.station i)).policeUp i (Guest.newcomer device p.gst.meterTime) packet b := by
  have hsent := hnext.of_kept
    (q := (p.guestReplaced m (n :: free) i g).setGuest i (Guest.newcomer device p.gst.meterTime)) (by simp) (by simp)
  have hended : ((p.endGuest .replaced i g).countGst fun c => { c with replacements := bump c.replacements }) =
      p.guestReplaced m (n :: free) i g := by
    rw [Part.endGuest_sent hgoes, Part.guestReplaced]
  have hstill : (p.guestReplaced m (n :: free) i g).gst.budget ≠ 0 := by simpa using hbudget
  simp only [Part.admitGuest, hentry, hcfg, hended, if_neg hstill, Config.guestTokens]
  exact congrArg (fun q : Part => (q.countGst _).policeUp i (Guest.newcomer device p.gst.meterTime) packet b)
    (Part.notice_sent hsent ..)
end

end Sys2Proof.Machine
end

section
/-! PROOFS. GUEST_UP_RECEIVED of an unknown device (R156, R157). -/

open Sys2Proof
namespace Sys2Proof.Machine

/-- A command that ends in a guest's admission and its packet passed to the trunk queue. -/
theorem State.lands_joined {s : State} {c : Instr} {p : Part} {k : ConfigBlock} {e : RouteEntry} {packet : Bytes} {b : Buf}
    {m i : Nat} {free : List Nat} {g : Guest}
    (h : s.lands c ((p.guestJoins m free i g (guestAddress k k.station i)).policeUp i g packet b))
    (hi : i < 256) (htrunk : p.ToTrunk packet e) (hcfg : p.cfg = some k) (hlong : 10 ≤ packet.length)
    (hshort : packet.length ≤ 1536) (htokens : packet.length ≤ g.tokens) (hb : b.num < Config.poolSize)
    (hm : m < Config.poolSize) (hne : m ≠ b.num) :
    ∃ t, exec c s = .next t ∧
      t.part.gst = { p.gst with ctr := { p.gst.ctr with admissions := bump p.gst.ctr.admissions } } ∧
      t.part.read (guestAddr i) 32 = (g.paidUp packet.length).bytes ∧
      (∃ x, t.part.fwd.radio = beginHead (p.fwd.radio ++ [x]) ∧
        t.part.bufBytes x.buf = noticeBytes .admitted g.device i (guestAddress k k.station i) 0 0 0 0) ∧
      (∃ buf, t.part.fwd.packets = [⟨buf, .packet, true⟩] ∧ buf.num = b.num) ∧
      (∀ a, (a < guestAddr i ∨ guestAddr i + 32 ≤ a) → (a < bufAddr m ∨ bufAddr m + 2048 ≤ a) →
        (a < bufAddr b.num ∨ bufAddr b.num + 2048 ≤ a) → Mem.read t.part.dram a = Mem.read p.dram a) ∧
      Unchanged [.links, .gst, .fwd, .memory] { s with part := p } t := by
  obtain ⟨t, hexec, hgst, hentry, ⟨buf, hfwd, hnum, -, -⟩, hrest, hsame⟩ := State.lands_passed hi h
    (htrunk.of_kept (by simp) (by simp) (by simp) (by simp) (by simp)) (by simpa using hcfg) hlong hshort htokens hb
  obtain ⟨hbytes, hjoined⟩ := p.guestJoins_memory (guestAddress k k.station i) free g hi hm
  have hnotice := Part.buffer_kept (t := t.part) (m := m)
    (noticeBytes_fits .admitted g.device i (guestAddress k k.station i) 0 0 0 0)
    fun a hlo hhi => hrest a (bufAddr_outside_guests hm hhi i) (bufAddr_outside hne hlo hhi)
  refine ⟨t, hexec, hgst.trans (by simp), hentry, Part.radio_shows (by simp [hfwd]) (hnotice.trans hbytes),
    ⟨buf, by rw [hfwd], hnum⟩, fun a he hn hbuf => (hrest a he hbuf).trans (hjoined a he hn),
    Unchanged.from_part (s := { s with part := p }) hsame (by simp) fun b hb => ?_⟩
  cases b <;> simp [Piece.same] at hb ⊢

theorem Part.radioOn_entry (it : RxItem) (p : Part) : (p.radioOn it).loadGuests.admissionEntry = p.admissionEntry :=
  Part.admissionEntry_congr (fun i => Part.guestAt_of_dram (by simp) (by simp) i) (by simp)

section
variable {s : State} {it : RxItem} {b : Bytes} (hev : s.supply.takesEvents = true)
  (hframe : s.part.linkFrame .guest .guest = some (it, b)) (hfresh : it.stale = false) (hkind : fieldAt b 0 1 = 1)
  (hup : s.part.gst.radioUp = true) (hgood : GuestUpGood b) (hnone : s.part.findGuest (fieldAt b 1 6) = none)
  (hopen : s.part.pres.joining.guestAdmission = true) (hcleared : s.part.gst.cleared = 256)
include hev hframe hfresh hkind hup hgood hnone hopen hcleared

theorem State.lands_admitGuest :
    s.lands .guestUpReceived ((s.part.radioOn it).loadGuests.admitGuest (fieldAt b 1 6) (b.drop 7) it.buf) := by
  have hlands := State.lands_guestUp hev hframe hfresh hkind hup
  rwa [Part.guestPacket_unknown (p := s.part.radioOn it) hgood hnone hopen hcleared] at hlands

theorem State.guestUp_refused {m : Nat} {rest : List Nat} (hbuffer : s.bufferFree) (hlimit : s.part.fwd.guestCount < 192)
    (hfree : s.part.fwd.free = m :: rest)
    (hbusy : ∀ j, j < 256 → ∃ g, s.part.guestAt j = some g ∧ s.part.idle g ≤ 60000) :
    ∃ t, exec .guestUpReceived s = .next t ∧
      t.part.gst =
        { s.part.gst with
          radioTimer := true
          ctr :=
            { s.part.gst.ctr with
              refusals := bump s.part.gst.ctr.refusals, dropsFull := bump s.part.gst.ctr.dropsFull } } ∧
      (∃ x, t.part.fwd.radio = beginHead (s.part.fwd.radio ++ [x]) ∧
        t.part.bufBytes x.buf = noticeBytes .refusedFull (fieldAt b 1 6) 0 0 0 0 0 0) ∧
      t.part.fwd.free = rest ++ [it.buf.num] ∧
      (∀ a, a < bufAddr m ∨ bufAddr m + 2048 ≤ a → Mem.read t.part.dram a = Mem.read s.part.dram a) ∧
      Unchanged [.links, .gst, .fwd, .memory] s t := by
  have hgoes : (s.part.radioOn it).loadGuests.NoticeGoes m rest :=
    hbuffer.noticeGoes hfree hlimit (by simp) (by simp [hfree]) (Nat.le_refl _) (by simp)
  have hlands := State.lands_admitGuest hev hframe hfresh hkind hup hgood hnone hopen hcleared
  rw [Part.admitGuest_refused ((Part.radioOn_entry it s.part).trans (Part.admissionEntry_none hbusy)) hgoes] at hlands
  obtain ⟨t, hexec, hgst, hfwd, -, hmem, hsame⟩ := State.lands_guests (but := [.links, .gst, .fwd, .memory]) hlands
    fun b hb => by cases b <;> simp [Piece.same] at hb ⊢
  have hfits := noticeBytes_fits .refusedFull (fieldAt b 1 6) 0 0 0 0 0 0
  have hdram : ∀ a, Mem.read t.part.dram a =
      Mem.read (Mem.writeBytes s.part.dram (bufAddr m) (noticeBytes .refusedFull (fieldAt b 1 6) 0 0 0 0 0 0)) a :=
    fun a => (hmem a).trans (by simp)
  exact ⟨t, hexec, hgst.trans (by simp [hup]),
    Part.radio_shows (m := m) (by simp [hfwd])
      ((Mem.readBytes_congr _ _ _ _ fun a _ _ => hdram a).trans (Mem.buffer_written hgoes.place hfits)),
    by simp [hfwd], fun a ha => (hdram a).trans (Mem.read_buffer_written hfits ha), hsame⟩

section
variable {c : ConfigBlock} {e : RouteEntry} {free : List Nat} (hcfg : s.part.cfg = some c) (hbudget : s.part.gst.budget ≠ 0)
  (hbuffer : s.bufferFree) (hlimit : s.part.fwd.guestCount < 191) (hapart : it.buf.num ∉ s.part.fwd.free)
  (htrunk : s.part.ToTrunk (b.drop 7) e) (hbuf : it.buf.num < Config.poolSize)
include hcfg hbudget hbuffer hlimit hapart htrunk hbuf

theorem State.guestUp_admits {i m : Nat} (hfree : s.part.fwd.free = m :: free)
    (hentry : ((List.range 256).find? fun j => (s.part.guestAt j).isNone) = some i) :
    ∃ t, exec .guestUpReceived s = .next t ∧
      t.part.gst =
        { s.part.gst with
          radioTimer := true, ctr := { s.part.gst.ctr with admissions := bump s.part.gst.ctr.admissions } } ∧
      t.part.read (guestAddr i) 32 =
        ((Guest.newcomer (fieldAt b 1 6) s.part.gst.meterTime).paidUp (b.drop 7).length).bytes ∧
      (∃ x, t.part.fwd.radio = beginHead (s.part.fwd.radio ++ [x]) ∧
        t.part.bufBytes x.buf = noticeBytes .admitted (fieldAt b 1 6) i (guestAddress c c.station i) 0 0 0 0) ∧
      (∃ buf, t.part.fwd.packets = [⟨buf, .packet, true⟩] ∧ buf.num = it.buf.num) ∧
      (∀ a, (a < guestAddr i ∨ guestAddr i + 32 ≤ a) → (a < bufAddr m ∨ bufAddr m + 2048 ≤ a) →
        (a < bufAddr it.buf.num ∨ bufAddr it.buf.num + 2048 ≤ a) → Mem.read t.part.dram a = Mem.read s.part.dram a) ∧
      Unchanged [.links, .gst, .fwd, .memory] s t := by
  have hi : i < 256 := List.mem_range.mp (List.mem_of_find?_eq_some hentry)
  have hgoes : (s.part.radioOn it).loadGuests.NoticeGoes m free :=
    hbuffer.noticeGoes hfree (by omega) (by simp) (by simp [hfree]) (Nat.le_refl _) (by simp)
  have hlands := State.lands_admitGuest hev hframe hfresh hkind hup hgood hnone hopen hcleared
  rw [Part.admitGuest_entered (by simpa using hcfg) (by simpa using hbudget)
    ((Part.radioOn_entry it s.part).trans (Part.admissionEntry_free hentry)) hgoes] at hlands
  obtain ⟨t, hexec, hgst, hread, hradio, hpackets, hrest, hsame⟩ := State.lands_joined hlands hi
    (htrunk.of_kept (by simp) (by simp) (by simp) (by simp) (by simp)) (by simpa using hcfg) hgood.long hgood.short
    hgood.short hbuf hgoes.place fun heq => hapart (by simp [hfree, heq])
  exact ⟨t, hexec, hgst.trans (by simp [hup]), hread.trans (by simp), by simpa [Guest.newcomer] using hradio, hpackets,
    fun a he hn hb => (hrest a he hn hb).trans (by simp),
    hsame.from_part (by simp) (State.radioOn_kept it (by simp) (by simp))⟩

theorem State.guestUp_replaces {i m n : Nat} {g : Guest} (hfree : s.part.fwd.free = m :: n :: free)
    (hdistinct : s.part.fwd.free.Nodup) (hroom : 10 ≤ s.part.fwd.free.length)
    (htaken : ∀ j, j < 256 → s.part.guestAt j ≠ none) (hi : i < 256) (hat : s.part.guestAt i = some g)
    (hidle : 60000 < s.part.idle g)
    (hmost : ∀ j h, j < 256 → j ≠ i → s.part.guestAt j = some h → s.part.idle h < s.part.idle g) :
    ∃ t, exec .guestUpReceived s = .next t ∧
      t.part.gst =
        { s.part.gst with
          radioTimer := true
          ctr :=
            { s.part.gst.ctr with
              admissions := bump s.part.gst.ctr.admissions
              replacements := bump s.part.gst.ctr.replacements
              endedReplaced := bump s.part.gst.ctr.endedReplaced } } ∧
      t.part.read (guestAddr i) 32 =
        ((Guest.newcomer (fieldAt b 1 6) s.part.gst.meterTime).paidUp (b.drop 7).length).bytes ∧
      (∃ x y, t.part.fwd.radio = beginHead (s.part.fwd.radio ++ [x, y]) ∧
        t.part.bufBytes x.buf = noticeBytes .ended g.device i 0 2 g.up g.down g.drops ∧
        t.part.bufBytes y.buf = noticeBytes .admitted (fieldAt b 1 6) i (guestAddress c c.station i) 0 0 0 0) ∧
      (∃ buf, t.part.fwd.packets = [⟨buf, .packet, true⟩] ∧ buf.num = it.buf.num) ∧
      (∀ a, (a < guestAddr i ∨ guestAddr i + 32 ≤ a) → (a < bufAddr m ∨ bufAddr m + 2048 ≤ a) →
        (a < bufAddr n ∨ bufAddr n + 2048 ≤ a) → (a < bufAddr it.buf.num ∨ bufAddr it.buf.num + 2048 ≤ a) →
        Mem.read t.part.dram a = Mem.read s.part.dram a) ∧
      Unchanged [.links, .gst, .fwd, .memory] s t := by
  have hgoes : (s.part.radioOn it).loadGuests.NoticeGoes m (n :: free) :=
    hbuffer.noticeGoes hfree (by omega) (by simp) (by simp [hfree]) (Nat.le_refl _) (by simp)
  have hn : n < Config.poolSize := hbuffer.2 n (by simp [hfree])
  have hnext : ((s.part.radioOn it).loadGuests.guestReplaced m (n :: free) i g).NoticeGoes n free := by
    rw [hfree, List.length_cons] at hroom
    exact ⟨by simp, by simp, hn, by simp [Config.controlReserve] at hroom ⊢; omega, by simp; omega⟩
  have hlands := State.lands_admitGuest hev hframe hfresh hkind hup hgood hnone hopen hcleared
  rw [Part.admitGuest_replaces (by simpa using hcfg) (by simpa using hbudget)
    ((Part.radioOn_entry it s.part).trans (Part.admissionEntry_idlest htaken hi hat hidle hmost)) hgoes hnext] at hlands
  have hmn : m ≠ n := by
    rw [hfree] at hdistinct
    exact fun heq => (List.nodup_cons.mp hdistinct).1 (by simp [heq])
  have hmb : m ≠ it.buf.num := fun heq => hapart (by simp [hfree, heq])
  have hnb : n ≠ it.buf.num := fun heq => hapart (by simp [hfree, heq])
  obtain ⟨t, hexec, hgst, hread, ⟨y, hradio, hadmitted⟩, hpackets, hrest, hsame⟩ := State.lands_joined hlands hi
    (htrunk.of_kept (by simp) (by simp) (by simp) (by simp) (by simp)) (by simpa using hcfg) hgood.long hgood.short
    hgood.short hbuf hn hnb
  obtain ⟨hbytes, hended⟩ := Part.guestReplaced_memory i (n :: free) g (s.part.radioOn it).loadGuests hgoes.place
  have hnotice := Part.buffer_kept (t := t.part) (m := m) (noticeBytes_fits .ended g.device i 0 2 g.up g.down g.drops)
    fun a hlo hhi => hrest a (bufAddr_outside_guests hgoes.place hhi i) (bufAddr_outside hmn hlo hhi)
      (bufAddr_outside hmb hlo hhi)
  refine ⟨t, hexec, hgst.trans (by simp [hup]), hread.trans (by simp),
    ⟨radioFrame m (noticeBytes .ended g.device i 0 2 g.up g.down g.drops), y, ?_, hnotice.trans hbytes, hadmitted⟩,
    hpackets, fun a he hm hn hb => (hrest a he hn hb).trans ((hended a he hm).trans (by simp)),
    hsame.from_part (by simp) fun b hb => ?_⟩
  · rw [hradio, Part.guestReplaced_fwd, beginHead_append]
    simp
  · cases b <;> simp [Piece.same] at hb ⊢
end
end

end Sys2Proof.Machine
end

section
/-! PROOFS. PACKET_RECEIVED of a packet for a guest (R61, R160). -/

open Sys2Proof
namespace Sys2Proof.Machine

theorem exec_packetReceived (s : State) : exec .packetReceived s = s.run Part.trunkPacket := rfl

/-! ### the engine takes the packet (R61, R62) -/

/-- What the engine's dispatch moves is neither the table of routes, nor a queue that is sent, nor the pool. -/
structure Forwarding.KeepsPool (f g : Forwarding) : Prop where
  routes : g.routes = f.routes
  radio : g.radio = f.radio
  free : g.free = f.free
  guestCount : g.guestCount = f.guestCount
  ctr : g.ctr = f.ctr

theorem Forwarding.KeepsPool.trans {f g h : Forwarding} (hfg : f.KeepsPool g) (hgh : g.KeepsPool h) : f.KeepsPool h :=
  ⟨hgh.routes.trans hfg.routes, hgh.radio.trans hfg.radio, hgh.free.trans hfg.free, hgh.guestCount.trans hfg.guestCount,
    hgh.ctr.trans hfg.ctr⟩

theorem Part.dispatchUpTo_pool (n : Nat) (p : Part) : p.fwd.KeepsPool (p.dispatchUpTo n).fwd := by
  induction n generalizing p with
  | zero => exact ⟨rfl, rfl, rfl, rfl, rfl⟩
  | succ n ih =>
    rw [Part.dispatchUpTo]
    split
    · exact ⟨rfl, rfl, rfl, rfl, rfl⟩
    · split
      · exact ⟨rfl, rfl, rfl, rfl, rfl⟩
      · refine Forwarding.KeepsPool.trans ?_ (ih _)
        exact ⟨rfl, rfl, rfl, rfl, rfl⟩
      · refine Forwarding.KeepsPool.trans ?_ (ih _)
        exact ⟨rfl, rfl, rfl, rfl, rfl⟩

theorem Part.engineTakes_pool (it : RxItem) (p : Part) : p.fwd.KeepsPool (p.engineTakes it).fwd := by
  refine Forwarding.KeepsPool.trans ?_ (Part.dispatchUpTo_pool _ _)
  exact ⟨rfl, rfl, rfl, rfl, rfl⟩

/-- The engine has taken the packet, and the lookup has given LOCAL GUEST. -/
def Part.foundGuest (it : RxItem) (p : Part) : Part :=
  (p.engineTakes it).countFwd fun c => { c with delivered := bump c.delivered }

theorem Part.foundGuest_guestAt (it : RxItem) (p : Part) (i : Nat) : (p.foundGuest it).guestAt i = p.guestAt i :=
  Part.guestAt_of_dram (by simp [Part.foundGuest]) (by simp [Part.foundGuest]) i

theorem Part.foundGuest_gst (it : RxItem) (p : Part) : (p.foundGuest it).gst = p.gst := by
  simp [Part.foundGuest]

/-- The guest's entry is read as well. -/
def Part.forGuest (it : RxItem) (p : Part) : Part := (p.foundGuest it).readGuests 1

@[simp] theorem Part.forGuest_frame (it : RxItem) (p : Part) :
    (p.forGuest it).cfg = p.cfg ∧ (p.forGuest it).branch = p.branch ∧ (p.forGuest it).trunkFramer = p.trunkFramer ∧
      (p.forGuest it).labelFramer = p.labelFramer ∧ (p.forGuest it).guestFramer = p.guestFramer ∧
      (p.forGuest it).links = p.links ∧ (p.forGuest it).call = p.call ∧ (p.forGuest it).pres = p.pres ∧
      (p.forGuest it).price = (p.engineTakes it).price ∧ (p.forGuest it).till = p.till ∧ (p.forGuest it).jrn = p.jrn ∧
      (p.forGuest it).lab = p.lab ∧ (p.forGuest it).gst = p.gst ∧ (p.forGuest it).trk = p.trk ∧
      (p.forGuest it).hdr = p.hdr ∧ (p.forGuest it).memCtr = p.memCtr ∧ (p.forGuest it).dram = p.dram ∧
      (p.forGuest it).written = p.written := by
  simp [Part.forGuest, Part.foundGuest]

theorem Part.forGuest_fwd (it : RxItem) (p : Part) :
    (p.forGuest it).fwd =
      { (p.engineTakes it).fwd with ctr := { p.fwd.ctr with delivered := bump p.fwd.ctr.delivered } } := by
  simp [Part.forGuest, Part.foundGuest, (p.engineTakes_pool it).ctr]

@[simp] theorem Part.forGuest_pool (it : RxItem) (p : Part) :
    (p.forGuest it).fwd.radio = p.fwd.radio ∧ (p.forGuest it).fwd.free = p.fwd.free ∧
      (p.forGuest it).fwd.guestCount = p.fwd.guestCount ∧
      (p.forGuest it).fwd.ctr = { p.fwd.ctr with delivered := bump p.fwd.ctr.delivered } := by
  rw [Part.forGuest_fwd]
  exact ⟨(p.engineTakes_pool it).radio, (p.engineTakes_pool it).free, (p.engineTakes_pool it).guestCount, rfl⟩

theorem Part.forGuest_kept {s : State} (it : RxItem) {but : List Piece} (hfwd : .fwd ∈ but) (hprice : .price ∈ but) :
    ∀ b : Piece, b ∉ but → b.same s { s with part := s.part.forGuest it } := by
  intro b hb
  cases b
  case fwd => exact absurd hfwd hb
  case price => exact absurd hprice hb
  all_goals simp [Piece.same]

theorem Part.trunkPacket_local {p : Part} {it : RxItem} {b packet : Bytes} {e : RouteEntry}
    (hframe : p.engineFrame .trunk = some (it, b)) (hkind : fieldAt b 0 1 = 1) (hpacket : packet = b.drop 1)
    (hline : p.trk.line = .up)
    (hsource : p.inGuestBlock (packetSource packet) = false) (hfound : p.fwd.lookup (packetDest packet) = some e)
    (hexit : e.exit = .localGuest) :
    p.trunkPacket = (p.foundGuest it).deliver packet it.buf := by
  have hsource' : (p.engineTakes it).inGuestBlock (packetSource packet) = false :=
    (Part.inGuestBlock_congr (by simp) _).trans hsource
  have hfound' : (p.engineTakes it).fwd.lookup (packetDest packet) = some e :=
    (Forwarding.lookup_congr (p.engineTakes_pool it).routes _).trans hfound
  have hroute : (p.engineTakes it).route .trunk packet it.buf =
      (.localGuest, p.foundGuest it) := by
    simp [Part.route, hsource', hfound', hexit, Part.foundGuest]
  simp only [Part.trunkPacket, hframe, hkind, trunkPacketKind, if_true, hline, ← hpacket, Part.forward, hroute]

/-! ### the packet delivered or dropped (R160) -/

/-- A packet as a GUEST DOWN frame. -/
def Guest.downBytes (g : Guest) (i : Nat) (packet : Bytes) : Bytes := be 1 2 ++ be 6 g.device ++ be 1 i ++ packet

theorem Guest.downBytes_fits (g : Guest) (i : Nat) {packet : Bytes} (h : packet.length ≤ 1536) :
    (g.downBytes i packet).length ≤ 2048 := by
  simp only [Guest.downBytes, List.length_append, be_length]
  omega

/-- The guest has paid for the packet, and its buffer has joined the guest radio queue as a GUEST DOWN. -/
def Part.downQueued (b : Buf) (i : Nat) (g : Guest) (packet : Bytes) (p : Part) : Part :=
  (((p.setGuest i (g.paidDown packet.length)).write .rewrite (bufAddr b.num) (g.downBytes i packet)).joinRadio
    { b with len := (g.downBytes i packet).length }).countGst fun c => { c with delivered := bump c.delivered }

section
variable (b : Buf) (i : Nat) (g : Guest) (packet : Bytes) (p : Part)

@[simp] theorem Part.downQueued_frame :
    (p.downQueued b i g packet).cfg = p.cfg ∧ (p.downQueued b i g packet).branch = p.branch ∧
      (p.downQueued b i g packet).trunkFramer = p.trunkFramer ∧ (p.downQueued b i g packet).labelFramer = p.labelFramer ∧
      (p.downQueued b i g packet).guestFramer = p.guestFramer ∧ (p.downQueued b i g packet).call = p.call ∧
      (p.downQueued b i g packet).pres = p.pres ∧ (p.downQueued b i g packet).price = p.price ∧
      (p.downQueued b i g packet).till = p.till ∧ (p.downQueued b i g packet).jrn = p.jrn ∧
      (p.downQueued b i g packet).lab = p.lab ∧
      (p.downQueued b i g packet).gst =
        { p.gst with ctr := { p.gst.ctr with delivered := bump p.gst.ctr.delivered } } ∧
      (p.downQueued b i g packet).trk = p.trk ∧ (p.downQueued b i g packet).hdr = p.hdr ∧
      (p.downQueued b i g packet).memCtr = p.memCtr ∧
      (p.downQueued b i g packet).dram =
        Mem.writeBytes (Mem.writeBytes p.dram (guestAddr i) (g.paidDown packet.length).bytes) (bufAddr b.num)
          (g.downBytes i packet) ∧
      (p.downQueued b i g packet).written = p.written := by
  simp [Part.downQueued]

theorem Part.downQueued_fwd :
    (p.downQueued b i g packet).fwd =
      { p.fwd with
        radio := beginHead (p.fwd.radio ++ [⟨{ b with len := (g.downBytes i packet).length }, 0, false⟩]) } := by
  simp [Part.downQueued, Part.joinRadio_fwd]

variable {i g packet p} (hi : i = packetDest packet % 256) (hup : p.gst.radioUp = true) (hshort : packet.length ≤ 1536)
  (hat : p.guestAt i = some g)
include hi hup hshort hat

theorem Part.deliver_within (htokens : packet.length ≤ g.tokens) :
    p.deliver packet b = (p.readGuests 1).downQueued b i g packet := by
  have hread : (p.readGuests 1).guestAt i = some g :=
    (Part.guestAt_of_dram (by simp) (by simp) _).trans hat
  simp only [Part.deliver, hup, Config.guestPacketMax, hshort, and_self, if_true, hread, ← hi, if_pos htokens]
  rfl

theorem Part.deliver_above (htokens : g.tokens < packet.length) :
    p.deliver packet b = (p.readGuests 1).dropBudget i g b := by
  have hread : (p.readGuests 1).guestAt i = some g :=
    (Part.guestAt_of_dram (by simp) (by simp) _).trans hat
  simp only [Part.deliver, hup, Config.guestPacketMax, hshort, and_self, if_true, hread, ← hi,
    if_neg (Nat.not_le.mpr htokens)]
end

theorem Part.readGuests_asks (n : Nat) (p : Part) : ∃ a, p.readGuests n = { p with asks := a } := by
  unfold Part.readGuests Part.loads
  split_ifs <;> exact ⟨_, rfl⟩

/-- Without the radio, above the length, or for a FREE entry, the packet is dropped NO EXIT; in the last case the table is
read first. -/
theorem Part.deliver_noExit {p : Part} {packet : Bytes} {i : Nat} (b : Buf) (hi : i = packetDest packet % 256)
    (h : p.gst.radioUp = false ∨ 1536 < packet.length ∨ p.guestAt i = none) :
    ∃ a, p.deliver packet b = { p.dropNoExit b with asks := a } := by
  by_cases hgo : p.gst.radioUp = true ∧ packet.length ≤ 1536
  · obtain ⟨hup, hshort⟩ := hgo
    have hfree : p.guestAt i = none := by
      rcases h with h | h | h
      · simp [h] at hup
      · omega
      · exact h
    have hread : (p.readGuests 1).guestAt i = none :=
      (Part.guestAt_of_dram (p := p) (by simp) (by simp) _).trans hfree
    obtain ⟨a, hasks⟩ := p.readGuests_asks 1
    refine ⟨a, ?_⟩
    simp only [Part.deliver, hup, Config.guestPacketMax, hshort, and_self, if_true, ← hi, hread]
    rw [hasks]
    rfl
  · exact ⟨p.asks, if_neg hgo⟩

/-! ### the command (R61, R160) -/

section
variable {s : State} {it : RxItem} {b packet : Bytes} {e : RouteEntry} {i : Nat}
  (hev : s.supply.takesEvents = true)
  (hframe : s.part.engineFrame .trunk = some (it, b)) (hkind : fieldAt b 0 1 = 1) (hpacket : packet = b.drop 1)
  (hi : i = packetDest packet % 256) (hline : s.part.trk.line = .up)
  (hsource : s.part.inGuestBlock (packetSource packet) = false)
  (hfound : s.part.fwd.lookup (packetDest packet) = some e) (hexit : e.exit = .localGuest)
include hev hframe hkind hpacket hi hline hsource hfound hexit

omit hi in
theorem State.lands_deliver :
    s.lands .packetReceived ((s.part.foundGuest it).deliver packet it.buf) := by
  have hlands := State.lands_of_run exec_packetReceived hev
  rwa [Part.trunkPacket_local hframe hkind hpacket hline hsource hfound hexit] at hlands

theorem State.packet_noExit
    (h : s.part.gst.radioUp = false ∨ 1536 < packet.length ∨ s.part.guestAt i = none) :
    ∃ t, exec .packetReceived s = .next t ∧
      t.part.gst =
        { s.part.gst with ctr := { s.part.gst.ctr with dropsNoExit := bump s.part.gst.ctr.dropsNoExit } } ∧
      t.part.fwd =
        { ((s.part.engineTakes it).fwd.giveBack it.buf) with
          ctr := { s.part.fwd.ctr with delivered := bump s.part.fwd.ctr.delivered } } ∧
      t.part.price = (s.part.engineTakes it).price ∧ Unchanged [.gst, .fwd, .price] s t := by
  have hlands := State.lands_deliver hev hframe hkind hpacket hline hsource hfound hexit
  have hctr := (s.part.engineTakes_pool it).ctr
  obtain ⟨a, hdrop⟩ := Part.deliver_noExit
    (p := s.part.foundGuest it) it.buf hi
    (by rwa [Part.foundGuest_gst, Part.foundGuest_guestAt])
  rw [hdrop] at hlands
  obtain ⟨t, hexec, hgst, hfwd, hprice, -, hsame⟩ := State.lands_guests (but := [.gst, .fwd, .price]) hlands
    fun b hb => by cases b <;> simp [Piece.same, Part.dropNoExit, Part.foundGuest] at hb ⊢
  refine ⟨t, hexec, hgst.trans (by simp [Part.dropNoExit, Part.foundGuest]), hfwd.trans ?_, hprice, hsame⟩
  simp only [Part.dropNoExit, Part.foundGuest, Part.countGst_fwd, Part.giveBack_fwd, Part.countFwd_fwd, hctr]
  rfl

variable {g : Guest} (hup : s.part.gst.radioUp = true) (hshort : packet.length ≤ 1536)
  (hat : s.part.guestAt i = some g)
include hup hshort hat

theorem State.packet_passes (htokens : packet.length ≤ g.tokens) (hbuf : it.buf.num < Config.poolSize) :
    ∃ t, exec .packetReceived s = .next t ∧
      t.part.gst = { s.part.gst with ctr := { s.part.gst.ctr with delivered := bump s.part.gst.ctr.delivered } } ∧
      t.part.read (guestAddr i) 32 = (g.paidDown packet.length).bytes ∧
      (∃ x, t.part.fwd.radio = beginHead (s.part.fwd.radio ++ [x]) ∧ x.buf.num = it.buf.num ∧
        t.part.bufBytes x.buf = g.downBytes i packet) ∧
      t.part.fwd.ctr = { s.part.fwd.ctr with delivered := bump s.part.fwd.ctr.delivered } ∧
      (∀ a, (a < guestAddr i ∨ guestAddr i + 32 ≤ a) →
        (a < bufAddr it.buf.num ∨ bufAddr it.buf.num + 2048 ≤ a) → Mem.read t.part.dram a = Mem.read s.part.dram a) ∧
      Unchanged [.links, .gst, .fwd, .price, .memory] s t := by
  have hlands := State.lands_deliver hev hframe hkind hpacket hline hsource hfound hexit
  rw [Part.deliver_within it.buf hi (by rwa [Part.foundGuest_gst]) hshort
    (by rwa [Part.foundGuest_guestAt])
    htokens] at hlands
  change s.lands .packetReceived
    ((s.part.forGuest it).downQueued it.buf i g packet) at hlands
  obtain ⟨t, hexec, hgst, hfwd, -, hmem, hsame⟩ := State.lands_guests (but := [.links, .gst, .fwd, .price, .memory]) hlands
    fun b hb => by cases b <;> simp [Piece.same] at hb ⊢
  obtain ⟨hentry, hbytes, hrest⟩ := Part.buffer_after_entry (t := t.part) (m := s.part.dram)
    (g := g.paidDown packet.length) (hi ▸ Nat.mod_lt _ (by decide)) hbuf (g.downBytes_fits i hshort)
    fun a => (hmem a).trans (by simp)
  rw [Part.downQueued_fwd] at hfwd
  exact ⟨t, hexec, hgst.trans (by simp), hentry,
    ⟨⟨{ it.buf with len := (g.downBytes i packet).length }, 0, false⟩, by simp [hfwd], rfl,
      hbytes⟩, by simp [hfwd], hrest, hsame⟩

theorem State.lands_downDropped (htokens : g.tokens < packet.length) :
    s.lands .packetReceived ((s.part.forGuest it).dropBudget i g it.buf) := by
  have hlands := State.lands_deliver hev hframe hkind hpacket hline hsource hfound hexit
  rwa [Part.deliver_above it.buf hi (by rwa [Part.foundGuest_gst]) hshort
    (by rwa [Part.foundGuest_guestAt])
    htokens] at hlands

theorem State.packet_drops (htokens : g.tokens < packet.length) (hquiet : s.part.limitedDue g = false) :
    ∃ t, exec .packetReceived s = .next t ∧
      t.part.gst =
        { s.part.gst with ctr := { s.part.gst.ctr with dropsBudget := bump s.part.gst.ctr.dropsBudget } } ∧
      t.part.read (guestAddr i) 32 = ({ g with drops := bump g.drops } : Guest).bytes ∧
      t.part.fwd =
        { ((s.part.engineTakes it).fwd.giveBack it.buf) with
          ctr := { s.part.fwd.ctr with delivered := bump s.part.fwd.ctr.delivered } } ∧
      (∀ a, (a < guestAddr i ∨ guestAddr i + 32 ≤ a) →
        Mem.read t.part.dram a = Mem.read s.part.dram a) ∧
      Unchanged [.gst, .fwd, .price, .memory] s t := by
  obtain ⟨t, hexec, hgst, hentry, hfwd, hrest, hsame⟩ := State.lands_dropped (hi ▸ Nat.mod_lt _ (by decide))
    (State.lands_downDropped hev hframe hkind hpacket hi hline hsource hfound hexit hup hshort hat htokens)
    ((Part.limitedDue_congr (by simp) rfl).trans hquiet)
  exact ⟨t, hexec, hgst.trans (by simp), hentry, hfwd.trans (by rw [Part.forGuest_fwd]; rfl),
    fun a ha => (hrest a ha).trans (by simp), hsame.from_part (by simp) (Part.forGuest_kept it (by simp) (by simp))⟩

theorem State.packet_tells {m : Nat} {rest : List Nat} (htokens : g.tokens < packet.length)
    (hdue : s.part.limitedDue g = true) (hbuffer : s.bufferFree) (hlimit : s.part.fwd.guestCount < 192)
    (hfree : s.part.fwd.free = m :: rest) :
    ∃ t, exec .packetReceived s = .next t ∧
      t.part.gst =
        { s.part.gst with ctr := { s.part.gst.ctr with dropsBudget := bump s.part.gst.ctr.dropsBudget } } ∧
      t.part.read (guestAddr i) 32 =
        ({ g with drops := bump g.drops, limited := some s.part.gst.meterTime } : Guest).bytes ∧
      (∃ x, t.part.fwd.radio = beginHead (s.part.fwd.radio ++ [x]) ∧
        t.part.bufBytes x.buf = noticeBytes .limited g.device i 0 0 0 0 0) ∧
      t.part.fwd.free = rest ++ [it.buf.num] ∧
      (∀ a, (a < guestAddr i ∨ guestAddr i + 32 ≤ a) →
        (a < bufAddr m ∨ bufAddr m + 2048 ≤ a) → Mem.read t.part.dram a = Mem.read s.part.dram a) ∧
      Unchanged [.links, .gst, .fwd, .price, .memory] s t := by
  have hgoes : ((s.part.forGuest it).overBudget it.buf).NoticeGoes m (rest ++ [it.buf.num]) :=
    hbuffer.noticeGoes hfree hlimit (by simpa using hup) (by simp [hfree]) (by simp)
      (by simpa using Forwarding.giveBack_guestCount_le (s.part.forGuest it).fwd it.buf)
  obtain ⟨t, hexec, hgst, hentry, hradio, hfreed, hrest, hsame⟩ := State.lands_told (hi ▸ Nat.mod_lt _ (by decide))
    (State.lands_downDropped hev hframe hkind hpacket hi hline hsource hfound hexit hup hshort hat htokens)
    ((Part.limitedDue_congr (by simp) rfl).trans hdue) hgoes
  exact ⟨t, hexec, hgst.trans (by simp), hentry.trans (by simp), by simpa using hradio, hfreed,
    fun a he hm => (hrest a he hm).trans (by simp),
    hsame.from_part (by simp) (Part.forGuest_kept it (by simp) (by simp))⟩
end

end Sys2Proof.Machine
end

section
/-! PROOFS. CLOCK_TICK into a night window of rate 0 (R52, R162, R167). -/

open Sys2Proof
namespace Sys2Proof.Machine

/-- The window has started for this night, its report refused (R167, R168). -/
def Part.windowOpened (night : Nat) (p : Part) : Part :=
  (p.loadGuests.countJrn Requester.report.refusedCount).modTrk fun t =>
    { t with night := .none, nightDay := night, table := [] }

@[simp] theorem Part.windowOpened_frame (night : Nat) (p : Part) :
    (p.windowOpened night).cfg = p.cfg ∧ (p.windowOpened night).branch = p.branch ∧
      (p.windowOpened night).trunkFramer = p.trunkFramer ∧ (p.windowOpened night).labelFramer = p.labelFramer ∧
      (p.windowOpened night).guestFramer = p.guestFramer ∧ (p.windowOpened night).links = p.links ∧
      (p.windowOpened night).fwd = p.fwd ∧ (p.windowOpened night).call = p.call ∧ (p.windowOpened night).pres = p.pres ∧
      (p.windowOpened night).price = p.price ∧ (p.windowOpened night).till = p.till ∧
      (p.windowOpened night).lab = p.lab ∧ (p.windowOpened night).gst = p.gst ∧ (p.windowOpened night).hdr = p.hdr ∧
      (p.windowOpened night).memCtr = p.memCtr ∧ (p.windowOpened night).dram = p.dram ∧
      (p.windowOpened night).written = p.written := by
  simp [Part.windowOpened]

theorem Part.reportAppend_refused {p : Part} {till : Nat} {cs : List Content} (hscan : p.jrn.scan = none)
    (hfull : p.jrn.accepts cs = false) :
    p.append .report till cs = (none, p.countJrn Requester.report.refusedCount) := by
  simp only [Part.append, hscan, Part.appendNow, hfull]
  rfl

theorem Part.windowStart_refused {p : Part} {d : Nat} (hline : p.trk.line ≠ .up) (hscan : p.jrn.scan = none)
    (hfull : p.jrn.accepts (p.reportContents d) = false) : p.windowStart d = p.windowOpened d := by
  have hreport : p.stationReport d = p.loadGuests.countJrn Requester.report.refusedCount := by
    rw [Part.stationReport, Part.reportAppend_refused (by simpa using hscan) (by simpa using hfull)]
  rw [Part.windowStart, hreport]
  exact Part.claimCheck_of_line_down _ (by simpa using hline)

/-- The budget is 0 from now on, and the table is read (R162). -/
def Part.budgetGone (p : Part) : Part := (p.modGst fun g => { g with budget := 0 }).loadGuests

@[simp] theorem Part.budgetGone_frame (p : Part) :
    p.budgetGone.cfg = p.cfg ∧ p.budgetGone.branch = p.branch ∧ p.budgetGone.trunkFramer = p.trunkFramer ∧
      p.budgetGone.labelFramer = p.labelFramer ∧ p.budgetGone.guestFramer = p.guestFramer ∧ p.budgetGone.links = p.links ∧
      p.budgetGone.fwd = p.fwd ∧ p.budgetGone.call = p.call ∧ p.budgetGone.pres = p.pres ∧ p.budgetGone.price = p.price ∧
      p.budgetGone.till = p.till ∧ p.budgetGone.jrn = p.jrn ∧ p.budgetGone.lab = p.lab ∧
      p.budgetGone.gst = { p.gst with budget := 0 } ∧ p.budgetGone.trk = p.trk ∧ p.budgetGone.hdr = p.hdr ∧
      p.budgetGone.memCtr = p.memCtr ∧ p.budgetGone.dram = p.dram ∧ p.budgetGone.written = p.written := by
  simp [Part.budgetGone]

theorem Part.endNight_one {p : Part} {k : ConfigBlock} {i m : Nat} {g : Guest} {free : List Nat} (hcfg : p.cfg = some k)
    (hrate : k.gNight = 0) (hone : p.admitted = [i]) (hat : p.guestAt i = some g) (hgoes : p.budgetGone.NoticeGoes m free) :
    p.endNight = p.budgetGone.guestEnded m free .night i g := by
  have hended : p.endNight = (p.modGst fun g => { g with budget := 0 }).endGuests .night fun _ _ => true :=
    if_pos (by simp [hcfg, hrate])
  have hstill : (p.modGst fun g => { g with budget := 0 }).admitted = [i] := (Part.admitted_of_dram rfl rfl).trans hone
  have hread : (p.modGst fun g => { g with budget := 0 }).guestAt i = some g := (Part.guestAt_of_dram rfl rfl i).trans hat
  rw [hended, Part.endGuests_one hstill hread rfl]
  exact Part.endGuest_sent hgoes .night i g

/-- The hold sweep is due where the minute has changed (R92). -/
def Part.swept (due : Bool) (p : Part) : Part := if due then p.modPrice fun x => { x with sweepDue := true } else p

@[simp] theorem Part.swept_frame (due : Bool) (p : Part) :
    (p.swept due).cfg = p.cfg ∧ (p.swept due).branch = p.branch ∧ (p.swept due).trunkFramer = p.trunkFramer ∧
      (p.swept due).labelFramer = p.labelFramer ∧ (p.swept due).guestFramer = p.guestFramer ∧
      (p.swept due).links = p.links ∧ (p.swept due).fwd = p.fwd ∧ (p.swept due).call = p.call ∧
      (p.swept due).pres = p.pres ∧ (p.swept due).till = p.till ∧ (p.swept due).jrn = p.jrn ∧
      (p.swept due).lab = p.lab ∧ (p.swept due).gst = p.gst ∧ (p.swept due).trk = p.trk ∧ (p.swept due).hdr = p.hdr ∧
      (p.swept due).memCtr = p.memCtr ∧ (p.swept due).dram = p.dram ∧ (p.swept due).written = p.written ∧
      (p.swept due).price.trigger = p.price.trigger := by
  cases due <;> simp [Part.swept]

/-- From day into a night: the window starts, and the guests are ended where the rate is 0. -/
theorem Part.clockTo_night {p : Part} {c : Clock} {d : Nat} (hbefore : p.nightNow = none)
    (hafter : (p.modPres fun x => { x with clock := c }).nightNow = some d) :
    ∃ due, p.clockTo c = (((p.modPres fun x => { x with clock := c }).windowStart d).endNight.swept due).checkTrigger := by
  refine ⟨decide (p.pres.clock.minute ≠ c.minute) || decide (p.pres.clock.day ≠ c.day), ?_⟩
  simp only [Part.clockTo, hbefore, hafter, Part.windowChange]
  rfl

theorem State.clockTick_night {s : State} {c : Clock} {k : ConfigBlock} {d i m : Nat} {g : Guest} {rest : List Nat}
    {p : Part} (hev : s.supply.takesEvents = true) (hclock : c = s.part.pres.clock.advance) (hvalid : s.part.pres.clock.valid = true)
    (hbefore : s.part.nightNow = none) (hp : p = s.part.modPres fun x => { x with clock := c })
    (hafter : p.nightNow = some d)
    (hline : s.part.trk.line ≠ .up) (hcfg : s.part.cfg = some k) (hrate : k.gNight = 0)
    (htrigger : s.part.price.trigger = .disarmed) (hscan : s.part.jrn.scan = none)
    (hfull : s.part.jrn.accepts (p.reportContents d) = false) (hone : s.part.admitted = [i])
    (hat : s.part.guestAt i = some g) (hup : s.part.gst.radioUp = true) (hfree : s.part.fwd.free = m :: rest)
    (hbuffer : s.bufferFree) (hlimit : s.part.fwd.guestCount < 192) :
    ∃ t, exec .clockTick s = .next t ∧
      t.part.gst =
        { s.part.gst with budget := 0, ctr := { s.part.gst.ctr with endedNight := bump s.part.gst.ctr.endedNight } } ∧
      t.part.guestAt i = none ∧
      (∃ x, t.part.fwd.radio = beginHead (s.part.fwd.radio ++ [x]) ∧
        t.part.bufBytes x.buf = noticeBytes .ended g.device i 0 3 g.up g.down g.drops) ∧
      (∀ a, (a < guestAddr i ∨ guestAddr i + 32 ≤ a) → (a < bufAddr m ∨ bufAddr m + 2048 ≤ a) →
        Mem.read t.part.dram a = Mem.read s.part.dram a) ∧
      Unchanged [.jrn, .trk, .pres, .price, .links, .fwd, .gst, .memory] s t := by
  subst hp
  have hgoes : ((s.part.modPres fun x => { x with clock := c }).windowOpened d).budgetGone.NoticeGoes m rest :=
    hbuffer.noticeGoes hfree hlimit (by simpa using hup) (by simpa using hfree) (Nat.le_refl _) (by simp)
  have hnight := Part.endNight_one (p := (s.part.modPres fun x => { x with clock := c }).windowOpened d)
    (by simpa using hcfg) hrate ((Part.admitted_of_dram (by simp) (by simp)).trans hone) ((Part.guestAt_of_dram (by simp) (by simp) i).trans hat)
    hgoes
  obtain ⟨due, hto⟩ := Part.clockTo_night hbefore hafter
  rw [Part.windowStart_refused (by simpa using hline) (by simpa using hscan) (by simpa using hfull), hnight,
    Part.checkTrigger_of_disarmed (by simpa using htrigger)] at hto
  have hlands := State.lands_of_run exec_clockTick hev
  rw [Part.clockTick, if_pos hvalid, ← hclock, hto] at hlands
  obtain ⟨t, hexec, hgst, hfwd, -, hmem, hsame⟩ :=
    State.lands_guests (but := [.jrn, .trk, .pres, .price, .links, .fwd, .gst, .memory]) hlands
      fun b hb => by cases b <;> simp [Piece.same] at hb ⊢
  obtain ⟨hfreed, -⟩ := Part.guestEnded_table
    (p := ((s.part.modPres fun x => { x with clock := c }).windowOpened d).budgetGone) (free := rest) (r := .night)
    (i := i) (g := g) hgoes.place
  obtain ⟨hbytes, hrest⟩ := Part.guestEnded_memory (t := t.part)
    (p := ((s.part.modPres fun x => { x with clock := c }).windowOpened d).budgetGone) (free := rest) (r := .night) (i := i)
    (g := g) hgoes.place fun a => (hmem a).trans (by simp)
  refine ⟨t, hexec, hgst.trans (by simp [EndReason.count]), ?_,
    Part.radio_shows (m := m) (by simp [hfwd, EndReason.code]) hbytes,
    fun a he hb => (hrest a he hb).trans (by simp), hsame⟩
  exact (Part.guestAt_of_read (by simp [hgst]) (Part.read_congr (fun a => (hmem a).trans (by simp)) _ _)).trans hfreed

end Sys2Proof.Machine

open Sys2Proof.Machine

/-- Settles O53: GUEST_UP_RECEIVED of a malformed frame, an admitted guest and an unknown device, PACKET_RECEIVED of a packet
for a guest, and CLOCK_TICK into a night of rate 0. -/
theorem guestsAreAdmittedAndPoliced : Obligations.GuestsAreAdmittedAndPoliced := by
  refine ⟨fun s it b packet hev hframe hfresh hkind hup hpacket hbuf => ?_,
    fun s it b packet p e i hev hframe hkind hbuf hp hpacket hi hline hsource hfound hexit => ?_,
    fun s c k d i m g rest p hev hclock hvalid hbefore hp hafter hline hcfg hrate htrigger hscan hfull hone hat hup hfree
      hbuffer hlimit => State.clockTick_night hev hclock hvalid hbefore hp hafter hline hcfg hrate htrigger hscan hfull hone hat hup
      hfree hbuffer hlimit⟩
  · subst hpacket
    refine ⟨State.guestUp_malformed hev hframe hfresh hkind hup, fun hsome hall hlong hshort hwhole => ?_⟩
    have hgood : GuestUpGood b := ⟨hsome, hall, hlong, hshort, hwhole⟩
    refine ⟨fun i g hat => ⟨fun c e hcfg htokens hout hfound hexit hline hexchange hpackets => ?_, fun htokens hquiet => ?_,
        fun m rest htokens hdue hbuffer hlimit hfree => ?_⟩,
      fun hnone => ⟨fun m rest hopen hcleared hbuffer hlimit hfree hbusy => ?_, fun hbarred => ?_,
        fun c e free hopen hcleared hcfg hbudget hbuffer hlimit hapart hout hfound hexit hline hexchange hpackets => ?_⟩⟩
    · exact State.guestUp_passes hev hframe hfresh hkind hup hgood hat hcfg htokens
        ⟨hout, hfound, hexit, hline, hexchange, hpackets⟩ hbuf
    · exact State.guestUp_drops hev hframe hfresh hkind hup hgood hat htokens hquiet
    · exact State.guestUp_tells hev hframe hfresh hkind hup hgood hat htokens hdue hbuffer hlimit hfree
    · exact State.guestUp_refused hev hframe hfresh hkind hup hgood hnone hopen hcleared hbuffer hlimit hfree hbusy
    · exact State.guestUp_barred hev hframe hfresh hkind hup hgood hnone hbarred
    · have htrunk : s.part.ToTrunk (b.drop 7) e := ⟨hout, hfound, hexit, hline, hexchange, hpackets⟩
      have hpaid := Guest.newcomer_paidUp (device := fieldAt b 1 6) (time := s.part.gst.meterTime) hshort
      refine ⟨fun i m hfree hentry => ?_, fun i g m n hfree hdistinct hroom htaken hi hat hidle hmost => ?_⟩
      · rw [← hpaid]
        exact State.guestUp_admits hev hframe hfresh hkind hup hgood hnone hopen hcleared hcfg hbudget hbuffer hlimit hapart
          htrunk hbuf hfree hentry
      · rw [← hpaid]
        exact State.guestUp_replaces hev hframe hfresh hkind hup hgood hnone hopen hcleared hcfg hbudget hbuffer hlimit
          hapart htrunk hbuf hfree hdistinct hroom htaken hi hat hidle hmost
  · subst hp
    refine ⟨State.packet_noExit hev hframe hkind hpacket hi hline hsource hfound hexit, fun g hup hshort hat =>
      ⟨fun htokens => ?_, fun htokens hquiet => ?_, fun m rest htokens hdue hbuffer hlimit hfree => ?_⟩⟩
    · exact State.packet_passes hev hframe hkind hpacket hi hline hsource hfound hexit hup hshort hat htokens hbuf
    · exact State.packet_drops hev hframe hkind hpacket hi hline hsource hfound hexit hup hshort hat htokens hquiet
    · exact State.packet_tells hev hframe hkind hpacket hi hline hsource hfound hexit hup hshort hat htokens hdue hbuffer
        hlimit hfree
end
